-- ==== Sys2Proof/Word.lean ====
section
/-! DEFINITION. The word types of the machine (R1) and the plain sparse map every table of State uses. -/

namespace Sys2Proof

/-- One byte of memory. -/
abbrev Byte := BitVec 8
/-- One lane of a vector register, one instruction word (R28). -/
abbrev Word := BitVec 32
/-- A scalar register, a special register, a virtual address before its range is checked. -/
abbrev DWord := BitVec 64
/-- A vector register: lane i at index i, 64 lanes; a missing lane reads zero. -/
abbrev Lanes := List Word

/-- A table of the machine keyed by number: strictly rising keys; an unlisted key has the table's default. -/
abbrev NMap (α : Type) := List (Nat × α)

/-- All 64 bits set: EXM at start (R59), p0 (R34). -/
abbrev allOnes : DWord := BitVec.allOnes 64

end Sys2Proof
end

