-- ==== Sys2Proof/Config.lean ====
section
/-! DEFINITION. What an implementation fixes and what the spec leaves open. The `opaque` constants have no body: no
proof can learn a value of them. Throughout the package "LE n" is the log entry notes/assumptions/n.md. -/

namespace Sys2Proof.Config

/-- A value the spec leaves open, numbered by the counter `State.fresh` (DESIGN CHOICE, LE 5). -/
opaque freeWord : Nat → BitVec 64

/-- The fused or measured identity values of the device (R400, R403, R404), by register address; not given by the spec
(UNVERIFIED, LE 14). -/
opaque fused : Nat → BitVec 64

/-- The attestation response and the session keys: the outcome of cryptography over the given words, which the spec
names by algorithm only (R369, R404), indexed by output word (UNVERIFIED, LE 14). -/
opaque crypto : List Nat → Nat → BitVec 64

/-- Laser bias current of a port's wavelength at manufacture, held by Stratus (R376); not given by the spec (UNVERIFIED, LE 14). -/
opaque bias0 : Nat → Nat → Nat

/-- Whether the board strap splits the PCIe link of port die 0 or 1 into x8+x8 (R405; UNVERIFIED, LE 14). -/
opaque linkSplit : Nat → Bool

/-- Receive buffers beyond the first of each of the six channels of a pair (R356); the spec gives no number (DESIGN CHOICE, LE 26). -/
opaque channelRoom : Nat → Nat

/-- Bytes of one way of the L1 pool (R202). -/
def wayBytes : Nat := 32768
/-- Grid table entries of the device (R60). -/
def gridTable : Nat := 4096
/-- Pending store of spawned groups of a context (R75). -/
def pendingStore : Nat := 1024
/-- Regroup bins of a core (R75). -/
def binsPerCore : Nat := 32

end Sys2Proof.Config
end

