-- ==== Sys2Proof/Syntax.lean ====
section
/-! DEFINITION. The syntax: one constructor of `Instr` per row of the opcode table. Encoded units carry the operand
fields their chapter names (R29, R31) and, where their major accepts prefixes, the prefixes (R35, R38); the event rows
carry the entity they act on and what the outside party brings. -/

namespace Sys2Proof

/-- A scalar register field, s0 to s63 (R34). -/
abbrev SReg := Fin 64
/-- A predicate register field, p0 to p15 (R34). -/
abbrev PReg := Fin 16
/-- A vector operand field (R32): 0-95 v0-v95, 96-111 q0-q15, 112-127 s0-s15 or, in handler mode, h0-h15. -/
abbrev VFld := Fin 128
/-- A special register number, 0x00 to 0x22 (R125, R134). -/
abbrev SpecReg := Fin 35

/-- The X prefix (R35): guard, crossbar fields (pattern in [8:6], amount in [5:0]) and rounding override. -/
structure XPre where
  g : Bool
  neg : Bool
  pred : PReg
  xa : Fin 512
  xb : Fin 512
  rm : Fin 8
deriving DecidableEq, Repr

/-- The Y prefix (R35): the extra operand field E and the 20-bit immediate. -/
structure YPre where
  e : Fin 128
  imm : BitVec 20
deriving DecidableEq, Repr

/-- The prefixes of a unit: at most one X, at most one Y (R28). Absent and all-zero differ only in the unit's length
and, for a three-source unit, in its third source (R39). -/
structure Pfx where
  x : Option XPre
  y : Option YPre
deriving DecidableEq, Repr

/-- No prefix. -/
def Pfx.none : Pfx := { x := Option.none, y := Option.none }

/-- The fields of the M format (R29). -/
structure MFld where
  d : VFld
  sb : SReg
  vo : VFld
  ord : Fin 4
  scope : Fin 4
deriving DecidableEq, Repr

/-- A request identifier of a request that writes (R318): source chiplet (or 64 + device number for a remote request),
requester number, sequence. -/
structure ReqId where
  src : Nat
  req : Nat
  seq : Nat
deriving DecidableEq, Repr

/-- What a request that writes asks of its home slice (R308, R318). -/
inductive HomeReq where
  | write (da : Nat) (data : List Byte)
  | atomic (da : Nat) (op : Nat) (val cmp : Word)
deriving DecidableEq, Repr

/-- The kinds of a remote access (R230, R379). -/
inductive RemoteKind where
  | read | write | atomic | reduction | cumulus
deriving DecidableEq, Repr

/-- A remote access as its fabric packet carries it (R230): the destination context and object, the byte offset, and
per kind the data, or the operation (numbered as R314 or, for a Cumulus element, as R332) with its operands. -/
structure RemoteReq where
  src : Nat
  kind : RemoteKind
  rctx : Nat
  ronum : Nat
  off : Nat
  size : Nat
  data : List Byte
  op : Nat
  val : Word
  cmp : Word
  rid : ReqId
  seq : Nat
deriving DecidableEq, Repr

/-- The kinds of a link flit (R366). -/
inductive FlitKind where
  | data | tag | idle
deriving DecidableEq, Repr

/-- A link flit with its 16-bit link sequence number (R366, R368). -/
structure LinkFlit where
  kind : FlitKind
  seq : Nat
  payload : List Byte
deriving DecidableEq, Repr

/-- A fabric packet (R379). -/
structure FabPkt where
  type : Nat
  src : Nat
  dst : Nat
  rctx : Nat
  cls : Nat
  seq : Nat
  rid : ReqId
  ronum : Nat
  off : Nat
  opnd : List Byte
  payload : List Byte
deriving DecidableEq, Repr

/-- A message of `sendh` (R382, R384): source and destination device, context, queue and its eight words. -/
structure Msg where
  src : Nat
  dst : Nat
  ctx : Nat
  rq : Nat
  words : List Word
deriving DecidableEq, Repr

/-- The steps of the machine, one constructor per row of the opcode table: 310 encoded units, then 144 events. -/
inductive Instr where
  /-- R111. -/
  | nop
  /-- R112. -/
  | exit
  /-- R113. -/
  | trap (n : Fin 128)
  /-- R113. -/
  | brk (n : Fin 128)
  /-- R114. -/
  | rte
  /-- R111. -/
  | yield
  /-- R115. -/
  | ret
  /-- R115. -/
  | winb (m : Fin 128)
  /-- R116. -/
  | vsync
  /-- R111. -/
  | sleep (a : SReg)
  /-- R117. -/
  | qcfg (q : Fin 16) (n : Fin 128)
  /-- R117. -/
  | qrst (a : SReg)
  /-- R118. -/
  | setfmt (i : Fin 16384)
  /-- R118. -/
  | setmode (i : Fin 16384)
  /-- R119. -/
  | bra (o : BitVec 18)
  /-- R119. -/
  | bz (a : SReg) (o : BitVec 18)
  /-- R119. -/
  | bnz (a : SReg) (o : BitVec 18)
  /-- R119. -/
  | bltz (a : SReg) (o : BitVec 18)
  /-- R119. -/
  | bgez (a : SReg) (o : BitVec 18)
  /-- R120. -/
  | call (f : Fin 64) (o : BitVec 18)
  /-- R120. -/
  | calli (a : SReg) (f : Fin 16)
  /-- R120. -/
  | jmpi (a : SReg)
  /-- R121. -/
  | vbr (p : PReg) (neg : Bool) (o : BitVec 20)
  /-- R121. -/
  | vbrall (p : PReg) (neg : Bool) (o : BitVec 20)
  /-- R121. -/
  | vbrany (p : PReg) (neg : Bool) (o : BitVec 20)
  /-- R121. -/
  | vjoin (o : BitVec 20)
  /-- R129. -/
  | sadd (d a b : SReg)
  /-- R129. -/
  | ssub (d a b : SReg)
  /-- R129. -/
  | smul (d a b : SReg)
  /-- R129. -/
  | smulh (d a b : SReg)
  /-- R129. -/
  | smulhn (d a b : SReg)
  /-- R130. -/
  | sdiv (d a b : SReg)
  /-- R130. -/
  | sdivn (d a b : SReg)
  /-- R130. -/
  | srem (d a b : SReg)
  /-- R130. -/
  | sremn (d a b : SReg)
  /-- R129. -/
  | sand (d a b : SReg)
  /-- R129. -/
  | sor (d a b : SReg)
  /-- R129. -/
  | sxor (d a b : SReg)
  /-- R129. -/
  | sandn (d a b : SReg)
  /-- R129. -/
  | sshl (d a b : SReg)
  /-- R129. -/
  | sshr (d a b : SReg)
  /-- R129. -/
  | ssra (d a b : SReg)
  /-- R129. -/
  | srol (d a b : SReg)
  /-- R129. -/
  | smin (d a b : SReg)
  /-- R129. -/
  | smax (d a b : SReg)
  /-- R129. -/
  | sminn (d a b : SReg)
  /-- R129. -/
  | smaxn (d a b : SReg)
  /-- R129. -/
  | sceq (d a b : SReg)
  /-- R129. -/
  | scne (d a b : SReg)
  /-- R129. -/
  | sclt (d a b : SReg)
  /-- R129. -/
  | scle (d a b : SReg)
  /-- R129. -/
  | scltn (d a b : SReg)
  /-- R129. -/
  | sclen (d a b : SReg)
  /-- R130. -/
  | ssel (d a b : SReg) (e : Option SReg)
  /-- R131. -/
  | saddi (d a : SReg) (i : BitVec 10)
  /-- R131. -/
  | sandi (d a : SReg) (i : BitVec 10)
  /-- R131. -/
  | sori (d a : SReg) (i : BitVec 10)
  /-- R131. -/
  | sxori (d a : SReg) (i : BitVec 10)
  /-- R131. -/
  | sshli (d a : SReg) (i : BitVec 10)
  /-- R131. -/
  | sshri (d a : SReg) (i : BitVec 10)
  /-- R131. -/
  | ssrai (d a : SReg) (i : BitVec 10)
  /-- R131. -/
  | sclti (d a : SReg) (i : BitVec 10)
  /-- R132. -/
  | sli (d : SReg) (i : BitVec 20)
  /-- R132. -/
  | slih (d : SReg) (i : BitVec 20)
  /-- R133. -/
  | sadpc (d : SReg) (i : BitVec 20)
  /-- R127. -/
  | mfs (d : SReg) (r : SpecReg)
  /-- R128. -/
  | mts (r : SpecReg) (a : SReg)
  /-- R135. -/
  | sext (d : SReg) (a : VFld) (b : SReg)
  /-- R135. -/
  | sins (d : VFld) (a b : SReg)
  /-- R135. -/
  | spopc (d a : SReg)
  /-- R135. -/
  | sclz (d a : SReg)
  /-- R135. -/
  | sctz (d a : SReg)
  /-- R135. -/
  | sbrev (d a : SReg)
  /-- R135. -/
  | sfirst (d : SReg) (a : PReg)
  /-- R135. -/
  | sballot (d : SReg) (a : PReg)
  /-- R135. -/
  | smask (d : PReg) (a : SReg)
  /-- R139. -/
  | vadd (x : Pfx) (d a b : VFld)
  /-- R139. -/
  | vsub (x : Pfx) (d a b : VFld)
  /-- R139. -/
  | vmul (x : Pfx) (d a b : VFld)
  /-- R139. -/
  | vmulh (x : Pfx) (d a b : VFld)
  /-- R139. -/
  | vmulhn (x : Pfx) (d a b : VFld)
  /-- R139. -/
  | vmad (x : Pfx) (d a b : VFld)
  /-- R140. -/
  | vdiv (x : Pfx) (d a b : VFld)
  /-- R140. -/
  | vdivn (x : Pfx) (d a b : VFld)
  /-- R140. -/
  | vrem (x : Pfx) (d a b : VFld)
  /-- R140. -/
  | vremn (x : Pfx) (d a b : VFld)
  /-- R139. -/
  | vmin (x : Pfx) (d a b : VFld)
  /-- R139. -/
  | vmax (x : Pfx) (d a b : VFld)
  /-- R139. -/
  | vminn (x : Pfx) (d a b : VFld)
  /-- R139. -/
  | vmaxn (x : Pfx) (d a b : VFld)
  /-- R139. -/
  | vabs (x : Pfx) (d a : VFld)
  /-- R139. -/
  | vand (x : Pfx) (d a b : VFld)
  /-- R139. -/
  | vor (x : Pfx) (d a b : VFld)
  /-- R139. -/
  | vxor (x : Pfx) (d a b : VFld)
  /-- R139. -/
  | vandn (x : Pfx) (d a b : VFld)
  /-- R139. -/
  | vshl (x : Pfx) (d a b : VFld)
  /-- R139. -/
  | vshr (x : Pfx) (d a b : VFld)
  /-- R139. -/
  | vsra (x : Pfx) (d a b : VFld)
  /-- R139. -/
  | vrol (x : Pfx) (d a b : VFld)
  /-- R139. -/
  | vfsh (x : Pfx) (d a b : VFld)
  /-- R139. -/
  | vpopc (x : Pfx) (d a : VFld)
  /-- R139. -/
  | vclz (x : Pfx) (d a : VFld)
  /-- R139. -/
  | vbrev (x : Pfx) (d a : VFld)
  /-- R141. -/
  | vbfe (x : Pfx) (d a b : VFld)
  /-- R141. -/
  | vbfi (x : Pfx) (d a b : VFld)
  /-- R141. -/
  | vclmul (x : Pfx) (d a b : VFld)
  /-- R141. -/
  | vclmulh (x : Pfx) (d a b : VFld)
  /-- R139. -/
  | vsadd (x : Pfx) (d a b : VFld)
  /-- R139. -/
  | vssub (x : Pfx) (d a b : VFld)
  /-- R142. -/
  | vadd64 (x : Pfx) (d a b : VFld)
  /-- R142. -/
  | vsub64 (x : Pfx) (d a b : VFld)
  /-- R139. -/
  | vmov (x : Pfx) (d a : VFld)
  /-- R139. -/
  | vdot4 (x : Pfx) (d a b : VFld)
  /-- R139. -/
  | vdot4n (x : Pfx) (d a b : VFld)
  /-- R143. -/
  | vaddi (x : Pfx) (d a : VFld) (i : BitVec 10)
  /-- R143. -/
  | vandi (x : Pfx) (d a : VFld) (i : BitVec 10)
  /-- R143. -/
  | vori (x : Pfx) (d a : VFld) (i : BitVec 10)
  /-- R143. -/
  | vxori (x : Pfx) (d a : VFld) (i : BitVec 10)
  /-- R143. -/
  | vshli (x : Pfx) (d a : VFld) (i : BitVec 10)
  /-- R143. -/
  | vshri (x : Pfx) (d a : VFld) (i : BitVec 10)
  /-- R143. -/
  | vsrai (x : Pfx) (d a : VFld) (i : BitVec 10)
  /-- R143. -/
  | vmuli (x : Pfx) (d a : VFld) (i : BitVec 10)
  /-- R145. -/
  | fadd (x : Pfx) (d a b : VFld)
  /-- R145. -/
  | fsub (x : Pfx) (d a b : VFld)
  /-- R145. -/
  | fmul (x : Pfx) (d a b : VFld)
  /-- R145. -/
  | ffma (x : Pfx) (d a b : VFld)
  /-- R145. -/
  | ffms (x : Pfx) (d a b : VFld)
  /-- R145. -/
  | fnma (x : Pfx) (d a b : VFld)
  /-- R147. -/
  | fmin (x : Pfx) (d a b : VFld)
  /-- R147. -/
  | fmax (x : Pfx) (d a b : VFld)
  /-- R147. -/
  | fminm (x : Pfx) (d a b : VFld)
  /-- R147. -/
  | fmaxm (x : Pfx) (d a b : VFld)
  /-- R145. -/
  | fabs (x : Pfx) (d a : VFld)
  /-- R145. -/
  | fneg (x : Pfx) (d a : VFld)
  /-- R145. -/
  | fcpys (x : Pfx) (d a b : VFld)
  /-- R146. -/
  | fdot2 (x : Pfx) (d a b : VFld)
  /-- R146. -/
  | hadd2 (x : Pfx) (d a b : VFld)
  /-- R146. -/
  | hmul2 (x : Pfx) (d a b : VFld)
  /-- R146. -/
  | hfma2 (x : Pfx) (d a b : VFld)
  /-- R145. -/
  | fround (x : Pfx) (d a : VFld)
  /-- R145. -/
  | fldexp (x : Pfx) (d a b : VFld)
  /-- R147. -/
  | fgetexp (x : Pfx) (d a : VFld)
  /-- R149. -/
  | vceq (x : Pfx) (d : PReg) (a b : VFld)
  /-- R149. -/
  | vcne (x : Pfx) (d : PReg) (a b : VFld)
  /-- R149. -/
  | vclt (x : Pfx) (d : PReg) (a b : VFld)
  /-- R149. -/
  | vcle (x : Pfx) (d : PReg) (a b : VFld)
  /-- R149. -/
  | vcltn (x : Pfx) (d : PReg) (a b : VFld)
  /-- R149. -/
  | vclen (x : Pfx) (d : PReg) (a b : VFld)
  /-- R149. -/
  | fceq (x : Pfx) (d : PReg) (a b : VFld)
  /-- R149. -/
  | fcne (x : Pfx) (d : PReg) (a b : VFld)
  /-- R149. -/
  | fclt (x : Pfx) (d : PReg) (a b : VFld)
  /-- R149. -/
  | fcle (x : Pfx) (d : PReg) (a b : VFld)
  /-- R149. -/
  | fcun (x : Pfx) (d : PReg) (a b : VFld)
  /-- R150. -/
  | fcls (x : Pfx) (d : PReg) (a b : VFld)
  /-- R151. -/
  | pand (x : Pfx) (d a b : PReg)
  /-- R151. -/
  | por (x : Pfx) (d a b : PReg)
  /-- R151. -/
  | pxor (x : Pfx) (d a b : PReg)
  /-- R151. -/
  | pandn (x : Pfx) (d a b : PReg)
  /-- R151. -/
  | pnot (x : Pfx) (d a : PReg)
  /-- R151. -/
  | vmrg (x : Pfx) (d a : VFld) (b : PReg)
  /-- R152. -/
  | vperm (x : Pfx) (d a b : VFld)
  /-- R152. -/
  | vlane (x : Pfx) (d a b : VFld)
  /-- R153. -/
  | vredadd (x : Pfx) (d : SReg) (a : VFld)
  /-- R153. -/
  | vredmin (x : Pfx) (d : SReg) (a : VFld)
  /-- R153. -/
  | vredmax (x : Pfx) (d : SReg) (a : VFld)
  /-- R153. -/
  | vredminn (x : Pfx) (d : SReg) (a : VFld)
  /-- R153. -/
  | vredmaxn (x : Pfx) (d : SReg) (a : VFld)
  /-- R153. -/
  | vredand (x : Pfx) (d : SReg) (a : VFld)
  /-- R153. -/
  | vredor (x : Pfx) (d : SReg) (a : VFld)
  /-- R153. -/
  | vredxor (x : Pfx) (d : SReg) (a : VFld)
  /-- R154. -/
  | fredadd (x : Pfx) (d : SReg) (a : VFld)
  /-- R154. -/
  | fredmin (x : Pfx) (d : SReg) (a : VFld)
  /-- R154. -/
  | fredmax (x : Pfx) (d : SReg) (a : VFld)
  /-- R155. -/
  | vscan (x : Pfx) (d a : VFld)
  /-- R155. -/
  | vscanx (x : Pfx) (d a : VFld)
  /-- R155. -/
  | fscan (x : Pfx) (d a : VFld)
  /-- R156. -/
  | vcompact (x : Pfx) (d a : VFld)
  /-- R156. -/
  | vexpand (x : Pfx) (d a : VFld)
  /-- R156. -/
  | vmatch (x : Pfx) (d a : VFld)
  /-- R158. -/
  | frcp (x : Pfx) (d a : VFld)
  /-- R158. -/
  | frsq (x : Pfx) (d a : VFld)
  /-- R158. -/
  | fsqrt (x : Pfx) (d a : VFld)
  /-- R158. -/
  | fdiv (x : Pfx) (d a b : VFld)
  /-- R158. -/
  | fexp2 (x : Pfx) (d a : VFld)
  /-- R158. -/
  | flog2 (x : Pfx) (d a : VFld)
  /-- R158. -/
  | fsin (x : Pfx) (d a : VFld)
  /-- R158. -/
  | fcos (x : Pfx) (d a : VFld)
  /-- R158. -/
  | ftanh (x : Pfx) (d a : VFld)
  /-- R158. -/
  | fsig (x : Pfx) (d a : VFld)
  /-- R158. -/
  | ferf (x : Pfx) (d a : VFld)
  /-- R178. -/
  | cvtfi (x : Pfx) (d a : VFld)
  /-- R178. -/
  | cvtfn (x : Pfx) (d a : VFld)
  /-- R178. -/
  | cvtif (x : Pfx) (d a : VFld)
  /-- R178. -/
  | cvtnf (x : Pfx) (d a : VFld)
  /-- R179. -/
  | cvtfh (x : Pfx) (d a : VFld) (h : Fin 128)
  /-- R179. -/
  | cvthf (x : Pfx) (d a : VFld) (h : Fin 128)
  /-- R180. -/
  | cvtf8 (x : Pfx) (d a : VFld) (c : Fin 128)
  /-- R180. -/
  | cvt8f (x : Pfx) (d a : VFld) (c : Fin 128)
  /-- R181. -/
  | fpack4 (x : Pfx) (d a : VFld) (c : Fin 128)
  /-- R181. -/
  | funpk4 (x : Pfx) (d a : VFld) (c : Fin 128)
  /-- R182. -/
  | mxscl (x : Pfx) (d : SReg) (a : VFld)
  /-- R182. -/
  | mxq (x : Pfx) (d a : VFld) (b : SReg)
  /-- R182. -/
  | mxdq (x : Pfx) (d a : VFld) (b : SReg)
  /-- R183. -/
  | srseed (x : Pfx) (a : SReg)
  /-- R188. -/
  | ldI8 (x : Pfx) (m : MFld)
  /-- R188. -/
  | ldN8 (x : Pfx) (m : MFld)
  /-- R188. -/
  | ldI16 (x : Pfx) (m : MFld)
  /-- R188. -/
  | ldN16 (x : Pfx) (m : MFld)
  /-- R188. -/
  | ldB32 (x : Pfx) (m : MFld)
  /-- R188. -/
  | ldB64 (x : Pfx) (m : MFld)
  /-- R188. -/
  | ldB128 (x : Pfx) (m : MFld)
  /-- R192. -/
  | ldm (x : Pfx) (m : MFld)
  /-- R188. -/
  | stB8 (x : Pfx) (m : MFld)
  /-- R188. -/
  | stB16 (x : Pfx) (m : MFld)
  /-- R188. -/
  | stB32 (x : Pfx) (m : MFld)
  /-- R188. -/
  | stB64 (x : Pfx) (m : MFld)
  /-- R188. -/
  | stB128 (x : Pfx) (m : MFld)
  /-- R192. -/
  | stm (x : Pfx) (m : MFld)
  /-- R333. -/
  | sta (x : Pfx) (m : MFld)
  /-- R333. -/
  | sta64 (x : Pfx) (m : MFld)
  /-- R316. -/
  | atomAdd (x : Pfx) (d a b : VFld) (scope : Fin 4)
  /-- R316. -/
  | atomSub (x : Pfx) (d a b : VFld) (scope : Fin 4)
  /-- R316. -/
  | atomMin (x : Pfx) (d a b : VFld) (scope : Fin 4)
  /-- R316. -/
  | atomMax (x : Pfx) (d a b : VFld) (scope : Fin 4)
  /-- R316. -/
  | atomMinn (x : Pfx) (d a b : VFld) (scope : Fin 4)
  /-- R316. -/
  | atomMaxn (x : Pfx) (d a b : VFld) (scope : Fin 4)
  /-- R316. -/
  | atomAnd (x : Pfx) (d a b : VFld) (scope : Fin 4)
  /-- R316. -/
  | atomOr (x : Pfx) (d a b : VFld) (scope : Fin 4)
  /-- R316. -/
  | atomXor (x : Pfx) (d a b : VFld) (scope : Fin 4)
  /-- R316. -/
  | atomXchg (x : Pfx) (d a b : VFld) (scope : Fin 4)
  /-- R316. -/
  | atomCas (x : Pfx) (d a b : VFld) (scope : Fin 4)
  /-- R316. -/
  | atomFadd (x : Pfx) (d a b : VFld) (scope : Fin 4)
  /-- R316. -/
  | atomFmin (x : Pfx) (d a b : VFld) (scope : Fin 4)
  /-- R316. -/
  | atomFmax (x : Pfx) (d a b : VFld) (scope : Fin 4)
  /-- R316. -/
  | atomBfadd2 (x : Pfx) (d a b : VFld) (scope : Fin 4)
  /-- R316. -/
  | atomIncw (x : Pfx) (d a b : VFld) (scope : Fin 4)
  /-- R316. -/
  | redAdd (x : Pfx) (agg : Bool) (a b : VFld) (scope : Fin 4)
  /-- R316. -/
  | redSub (x : Pfx) (agg : Bool) (a b : VFld) (scope : Fin 4)
  /-- R316. -/
  | redMin (x : Pfx) (agg : Bool) (a b : VFld) (scope : Fin 4)
  /-- R316. -/
  | redMax (x : Pfx) (agg : Bool) (a b : VFld) (scope : Fin 4)
  /-- R316. -/
  | redMinn (x : Pfx) (agg : Bool) (a b : VFld) (scope : Fin 4)
  /-- R316. -/
  | redMaxn (x : Pfx) (agg : Bool) (a b : VFld) (scope : Fin 4)
  /-- R316. -/
  | redAnd (x : Pfx) (agg : Bool) (a b : VFld) (scope : Fin 4)
  /-- R316. -/
  | redOr (x : Pfx) (agg : Bool) (a b : VFld) (scope : Fin 4)
  /-- R316. -/
  | redXor (x : Pfx) (agg : Bool) (a b : VFld) (scope : Fin 4)
  /-- R316. -/
  | redFadd (x : Pfx) (agg : Bool) (a b : VFld) (scope : Fin 4)
  /-- R316. -/
  | redFmin (x : Pfx) (agg : Bool) (a b : VFld) (scope : Fin 4)
  /-- R316. -/
  | redFmax (x : Pfx) (agg : Bool) (a b : VFld) (scope : Fin 4)
  /-- R316. -/
  | redBfadd2 (x : Pfx) (agg : Bool) (a b : VFld) (scope : Fin 4)
  /-- R206. -/
  | ldwB32 (x : Pfx) (m : MFld)
  /-- R206. -/
  | ldwB64 (x : Pfx) (m : MFld)
  /-- R206. -/
  | ldwB128 (x : Pfx) (m : MFld)
  /-- R206. -/
  | stwB32 (x : Pfx) (m : MFld)
  /-- R206. -/
  | stwB64 (x : Pfx) (m : MFld)
  /-- R206. -/
  | stwB128 (x : Pfx) (m : MFld)
  /-- R206. -/
  | wadd (x : Pfx) (m : MFld)
  /-- R206. -/
  | wcas (x : Pfx) (m : MFld)
  /-- R233. -/
  | ldo (x : Pfx) (d : VFld) (a : SReg) (b : VFld)
  /-- R233. -/
  | sto (x : Pfx) (d : VFld) (a : SReg) (b : VFld)
  /-- R234. -/
  | ldob (x : Pfx) (d : VFld) (a b : SReg)
  /-- R234. -/
  | stob (x : Pfx) (d : VFld) (a b : SReg)
  /-- R235. -/
  | oinfo (x : Pfx) (d a : SReg) (n : Fin 8)
  /-- R236. -/
  | oprobe (x : Pfx) (d : PReg) (a : VFld) (b : SReg)
  /-- R329. -/
  | fence (kind scope : Fin 4)
  /-- R330. -/
  | pfence (p t : Fin 16)
  /-- R320. -/
  | mwait (y : YPre) (d a b : SReg)
  /-- R339. -/
  | fla
  /-- R204. -/
  | cinv (a : SReg)
  /-- R204. -/
  | cwb (a : SReg)
  /-- R203. -/
  | crsz (d a : SReg)
  /-- R204. -/
  | pref (a : SReg) (l : Fin 2)
  /-- R244. -/
  | cpy (d a : SReg) (n : Fin 8)
  /-- R247. -/
  | cpyb (d a : SReg) (n : Fin 8)
  /-- R245. -/
  | cpyt (d a : SReg) (n : Fin 8)
  /-- R246. -/
  | cpyx (d a : SReg) (n : Fin 8)
  /-- R248. -/
  | gath (d a : SReg) (n : Fin 8)
  /-- R248. -/
  | scat (d a : SReg) (n : Fin 8)
  /-- R248. -/
  | scata (d a : SReg) (n : Fin 8)
  /-- R290. -/
  | mma (d a : SReg)
  /-- R290. -/
  | mxloop (d a : SReg)
  /-- R291. -/
  | mxzero (d a : SReg)
  /-- R293. -/
  | tld (d : VFld) (a : SReg)
  /-- R293. -/
  | tst (d : VFld) (a : SReg)
  /-- R288. -/
  | mxcfg (a : SReg)
  /-- R292. -/
  | mxrel (d a : SReg)
  /-- R269. -/
  | balloc (d : SReg) (a : PReg) (b : SReg)
  /-- R269. -/
  | bfree (a : SReg)
  /-- R269. -/
  | barv (d a : SReg)
  /-- R269. -/
  | barw (a b : SReg)
  /-- R269. -/
  | barx (a b : SReg)
  /-- R265. -/
  | bar
  /-- R266. -/
  | barPx
  /-- R274. -/
  | semaAdd (a b : SReg)
  /-- R274. -/
  | semaSet (a b : SReg)
  /-- R274. -/
  | semw (a b : SReg)
  /-- R263. -/
  | tlrd (d a : SReg)
  /-- R263. -/
  | tlwait (a b : SReg)
  /-- R264. -/
  | waitk (h l : Fin 16)
  /-- R201. -/
  | waitr (p : Fin 4) (a : SReg)
  /-- R79. -/
  | spawn (d : VFld) (a : SReg) (b : VFld)
  /-- R384. -/
  | sendh (d : VFld)
  /-- R385. -/
  | recvq (d : VFld) (a : SReg) (b : PReg)
  /-- R388. -/
  | coll (d a : SReg)
  /-- R386. -/
  | peerq (d : PReg) (a : VFld) (q : Fin 4)
  /-- R78. -/
  | launch (d a : SReg)
  /-- R80. -/
  | preempt (d a b : SReg)
  /-- R80. -/
  | resume (d a b : SReg)
  /-- R396. -/
  | cfgrd (d a : SReg)
  /-- R396. -/
  | cfgwr (a b : SReg)
  /-- R200. -/
  | wait (ld st tl mx : Fin 32)
  /-- R60. -/
  | doorbellWrite (f q : Nat) (tail : Word)
  /-- R60. -/
  | launchRecordTake (q : Nat)
  /-- R60. -/
  | lqstatResume (f q : Nat)
  /-- R231. -/
  | hostWindowRead (f off len : Nat)
  /-- R231. -/
  | hostWindowWrite (f off : Nat) (data : List Byte)
  /-- R63. -/
  | placeWorkgroup (core : Nat) (slots : List Nat) (base : Nat) (areas : List (Nat × Nat))
  /-- R66. -/
  | eprioAge (grid : Bool) (key : Nat)
  /-- R68. -/
  | evictWorkgroup (w : Nat)
  /-- R71. -/
  | saveBegin (w : Nat)
  /-- R71. -/
  | saveComplete (w : Nat)
  /-- R72. -/
  | resumeWorkgroup (w core : Nat) (slots : List Nat) (base : Nat)
  /-- R72. -/
  | resumeComplete (w : Nat)
  /-- R61. -/
  | gridComplete (g : Nat)
  /-- R75. -/
  | regroupBinTimer (core bin : Nat)
  /-- R75. -/
  | regroupStoreRoom (core : Nat)
  /-- R77. -/
  | clusterIdleGate (l : Nat)
  /-- R77. -/
  | clusterUngate (l : Nat)
  /-- R86. -/
  | rulingClassHoldEnd (core : Nat)
  /-- R86. -/
  | classWaitRaise (k : Nat)
  /-- R88. -/
  | urgentCandidate (k : Nat)
  /-- R111. -/
  | yieldEnd (k : Nat)
  /-- R111. -/
  | sleepWake (k : Nat)
  /-- R92. -/
  | spillTransferDone (k : Nat)
  /-- R105. -/
  | trapEnter (k : Nat)
  /-- R107. -/
  | handlerWatchdog (k : Nat)
  /-- R108. -/
  | contextHaltDeadline (n : Nat)
  /-- R108. -/
  | contextFaultReport (n : Nat)
  /-- R406. -/
  | reportVectorTimer (f : Nat)
  /-- R190. -/
  | loadReturn (k op : Nat)
  /-- R190. -/
  | storePerformed (k op : Nat)
  /-- R196. -/
  | waitingTableRetry (k op : Nat)
  /-- R223. -/
  | walkComplete (u n va : Nat)
  /-- R226. -/
  | serviceRecordPost (n : Nat)
  /-- R227. -/
  | osvcServiceDone (n obj sub : Nat)
  /-- R227. -/
  | osvcServiceFail (n obj sub : Nat)
  /-- R224. -/
  | publishRecord (n obj : Nat)
  /-- R229. -/
  | publishMove (n obj sub : Nat)
  /-- R229. -/
  | publishRelease (n obj sub : Nat)
  /-- R225. -/
  | publishEntries (n obj first count : Nat)
  /-- R225. -/
  | publishGranules (n first count : Nat)
  /-- R225. -/
  | publishDone
  /-- R230. -/
  | remoteAccessArrive (r : RemoteReq)
  /-- R241. -/
  | copyStart (w c : Nat)
  /-- R250. -/
  | aonVersionAcquire (w c g : Nat)
  /-- R251. -/
  | verPassEnd (w c g : Nat)
  /-- R252. -/
  | copySliceComplete (w c g : Nat)
  /-- R269. -/
  | barvReleaseDone (k op : Nat)
  /-- R252. -/
  | copyComplete (w c : Nat)
  /-- R262. -/
  | timelineEntryWrite (x : Nat) (v : DWord)
  /-- R295. -/
  | matrixStepStart (k : Nat)
  /-- R297. -/
  | matrixStepComplete (k : Nat)
  /-- R293. -/
  | tileTransferDone (k op : Nat)
  /-- R308. -/
  | homeGets (d line : Nat)
  /-- R308. -/
  | homeGetm (d line : Nat)
  /-- R308. -/
  | homePutm (d line : Nat)
  /-- R308. -/
  | homePute (d line : Nat)
  /-- R308. -/
  | homeWritePerform (rid : ReqId) (da : Nat) (data : List Byte)
  /-- R309. -/
  | snoopInv (d line : Nat)
  /-- R309. -/
  | snoopRecToS (d line : Nat)
  /-- R309. -/
  | snoopRecToI (d line : Nat)
  /-- R310. -/
  | snoopAnswer (d line : Nat)
  /-- R308. -/
  | grantArrive (d line : Nat)
  /-- R307. -/
  | putAck (d line : Nat)
  /-- R311. -/
  | snoopResend (d line : Nat)
  /-- R316. -/
  | atomicPerform (k op lane : Nat)
  /-- R318. -/
  | replayRequest (rid : ReqId) (req : HomeReq)
  /-- R321. -/
  | monitorTimeout (k : Nat)
  /-- R320. -/
  | monitorStatusDeliver (k : Nat)
  /-- R337. -/
  | cumulusAgeExpire (d buf : Nat)
  /-- R337. -/
  | cumulusPacketApply (id : Nat) (bad : List (Nat × Nat × Nat))
  /-- R343. -/
  | cumulusRejectLog
  /-- R346. -/
  | egressDeliver (q : Nat)
  /-- R353. -/
  | rrtWrite (c t : Nat) (v : DWord)
  /-- R360. -/
  | strandFail (c t strand : Nat)
  /-- R359. -/
  | flitReceive (c t seq : Nat) (ok : Bool)
  /-- R359. -/
  | flitAck (c t seq : Nat)
  /-- R354. -/
  | relayForward (k c t : Nat)
  /-- R358. -/
  | strandGate (c t : Nat)
  /-- R358. -/
  | strandWakeDone (c t : Nat)
  /-- R362. -/
  | heartbeatSend (c : Nat)
  /-- R362. -/
  | heartbeatMiss (r c : Nat)
  /-- R362. -/
  | deadDieVerdict (c : Nat)
  /-- R27. -/
  | dieHaltDeadline (n : Nat)
  /-- R27. -/
  | dieReportPost (n : Nat)
  /-- R365. -/
  | wavelengthFail (p w reason : Nat)
  /-- R365. -/
  | laneRemapDone (p lane : Nat)
  /-- R367. -/
  | codewordReceive (p first errs : Nat) (flits : List LinkFlit)
  /-- R370. -/
  | tagGroupVerify (p : Nat) (ok : Bool)
  /-- R369. -/
  | portSessionEstablish (p : Nat) (ok : Bool) (lat : Nat)
  /-- R369. -/
  | sessionRekey (p : Nat)
  /-- R372. -/
  | portEnable (p : Nat) (v : DWord)
  /-- R372. -/
  | portDisable (p : Nat) (v : DWord)
  /-- R373. -/
  | portNarrow (p : Nat) (v : DWord)
  /-- R374. -/
  | portWake (p : Nat) (v : DWord)
  /-- R373. -/
  | portNarrowDone (p : Nat)
  /-- R374. -/
  | portWakeDone (p : Nat)
  /-- R374. -/
  | portAutoWake (p : Nat)
  /-- R373. -/
  | farEndNarrow (p width : Nat)
  /-- R374. -/
  | farEndWake (p width : Nat)
  /-- R376. -/
  | lageUpdate (p w bias mpwr temp hrs : Nat)
  /-- R377. -/
  | timeCounterSend (p : Nat)
  /-- R377. -/
  | timeCounterReceive (p t : Nat)
  /-- R380. -/
  | fabricPacketReceive (p : Nat) (pkt : FabPkt)
  /-- R380. -/
  | fabricRetryTimeout (dst cls seq : Nat)
  /-- R381. -/
  | frgenWrite (v : DWord)
  /-- R381. -/
  | reachabilityRereadDone
  /-- R384. -/
  | sendQueueDepart (core : Nat)
  /-- R384. -/
  | messageDeliver (m : Msg)
  /-- R388. -/
  | collHandoff (n c : Nat)
  /-- R391. -/
  | collComplete (n c : Nat) (peers : List (Nat × List Byte × List Byte))
  /-- R392. -/
  | collAbandon (n c reason : Nat)
  /-- R409. -/
  | coldReset
  /-- R402. -/
  | bootStepDone (ok : Bool) (info : Nat)
  /-- R409. -/
  | deviceReset
  /-- R409. -/
  | functionReset (f : Nat)
  /-- R409. -/
  | contextDisable (n : Nat)
  /-- R404. -/
  | attestationRequest (f : Nat)
  /-- R404. -/
  | attestationDone (f : Nat)
  /-- R407. -/
  | ownClaim (f prio : Nat)
  /-- R407. -/
  | ownRelease (f : Nat)
  /-- R407. -/
  | ownHeartbeat (f : Nat)
  /-- R407. -/
  | ownerTimeout
  /-- R407. -/
  | pcieLinkDown (pd : Nat)
  /-- R410. -/
  | stratusTakeover
  /-- R411. -/
  | powerEstimate (core : Nat) (drop : Bool)
  /-- R413. -/
  | lvEnter (core : Nat)
  /-- R413. -/
  | lvExit (core : Nat)
  /-- R413. -/
  | lvTransitionDone (core : Nat)
  /-- R414. -/
  | powerCapStep (pkg cds mem pho : Nat)
  /-- R415. -/
  | phyLaser (p w : Nat) (on : Bool)
  /-- R415. -/
  | phyLock (p w : Nat)
  /-- R415. -/
  | phyTrain (p w : Nat)
  /-- R415. -/
  | phyLaserOnDone (p w : Nat) (ok : Bool)
  /-- R415. -/
  | phyLockDone (p w : Nat) (ok : Bool)
  /-- R415. -/
  | phyTrainDone (p w : Nat) (ok : Bool) (eyeh eyew : Nat)
  /-- R409. -/
  | lageFlashStore
  /-- R397. -/
  | configRegisterWrite (f ca : Nat) (v : DWord)
  /-- R45. -/
  | illegalWord (word : Word)
  /-- R46. -/
  | fetchFault
  /-- R401. -/
  | contextEnable (n : Nat) (v : DWord)
  /-- R405. -/
  | pcieLinkUp (pd gen : Nat)
  /-- R77. -/
  | clusterPowered (l : Nat)
  /-- R96. -/
  | resultWriteBack (k : Nat)
  /-- R358. -/
  | strandGatingDisable (c : Nat)
deriving DecidableEq, Repr

end Sys2Proof
end

