-- ==== Sys2Proof/WellFormed.lean ====
section
/-! DEFINITION. Which encoded units are legal (check 4 of R45, with the prefix rules of check 3): every field within
the range its rule states. Legality depends on handler mode (R32, R33), given as `h`. -/

namespace Sys2Proof

/-- A field that names a queue register q0-q15 (R32). -/
def isQueue (f : VFld) : Bool := 96 ≤ f.val && f.val < 112
/-- A 32-bit vector destination (R32): h0-h15 only in handler mode. -/
def vdst (h : Bool) (f : VFld) : Bool := f.val < 112 || h
/-- A destination that is no queue: v0-v95, or h0-h15 in handler mode. -/
def vdstNQ (h : Bool) (f : VFld) : Bool := f.val < 96 || (h && 112 ≤ f.val)
/-- A 64-bit source (R33): an even pair, or a broadcast scalar outside handler mode. -/
def pairSrc (h : Bool) (f : VFld) : Bool :=
  if f.val < 96 then f.val % 2 == 0 else 112 ≤ f.val && (!h || f.val % 2 == 0)
/-- A 64-bit destination (R33, R137). -/
def pairDst (h : Bool) (f : VFld) : Bool :=
  f.val % 2 == 0 && (f.val < 96 || (h && 112 ≤ f.val))
/-- A 128-bit operand (R33): four registers from a multiple of 4. -/
def quad (h : Bool) (f : VFld) : Bool :=
  f.val % 4 == 0 && (f.val ≤ 92 || (h && 112 ≤ f.val && f.val ≤ 124))
/-- An address pair, an even register of v0-v94 (R41, R232). -/
def evenV (f : VFld) : Bool := f.val ≤ 94 && f.val % 2 == 0

/-- A legal crossbar field (R36): pattern in [8:6], amount in [5:0]. -/
def xbarOk (f : Fin 512) : Bool :=
  match f.val / 64 with
  | 0 => f.val % 64 == 0
  | 4 => 1 ≤ f.val % 64 && f.val % 64 ≤ 6
  | 7 => false
  | _ => true

/-- The X prefix obeys its own fields' rules (check 3 of R45). -/
def XPre.ok (x : XPre) : Bool :=
  (x.g || (!x.neg && x.pred == 0)) && xbarOk x.xa && xbarOk x.xb && x.rm != 7

/-- X: a crossbar only over a vector source (R36), a rounding mode only where there is a rounding step (R37). -/
def xFits (aV bV rm : Bool) : Option XPre → Bool
  | none => true
  | some x => x.ok && (aV || x.xa == 0) && (bV || x.xb == 0) && (rm || x.rm == 0)

/-- Y of majors 9-15 (R38): E only for a three-source unit, PEEK in bit 0. -/
def yFits (three : Bool) : Option YPre → Bool
  | none => true
  | some y => (three || y.e == 0) && y.imm.toNat < 2

/-- Prefixes of a unit of majors 9-15 without a third source. -/
def pfxV (aV bV rm : Bool) (p : Pfx) : Bool := xFits aV bV rm p.x && yFits false p.y

/-- Prefixes of a three-source unit: without Y the third source is D, which may then name no queue (R137). -/
def pfx3 (rm : Bool) (d : VFld) (p : Pfx) : Bool :=
  xFits true true rm p.x && yFits true p.y && (p.y.isSome || !isQueue d)

/-- E of a register range D-E (R192, R232). -/
def rangeY (d : VFld) (p : Pfx) : Bool :=
  match p.y with
  | none => false
  | some y => d.val ≤ y.e.val && y.e.val < 96 && y.e.val - d.val ≤ 31

/-- Prefixes of majors 16, 17 and 20 (R38, R40). -/
def pfxM (multi : Bool) (d : VFld) (p : Pfx) : Bool :=
  xFits true false false p.x &&
    (if multi then rangeY d p else match p.y with | none => true | some y => y.e == 0)

/-- ORD and SCOPE of the M format (R40). -/
def ordScope (m : MFld) : Bool := m.ord == 1 || m.ord == 2 || m.scope == 0

/-- Prefixes of majors 18 and 19 (R38, R41). -/
def pfxA (p : Pfx) : Bool :=
  xFits true true false p.x && (match p.y with | none => true | some y => y.e == 0 && y.imm.toNat < 4)

/-- The ordering of a reduction (R41): rlx, or rel without the aggregate flag. -/
def redOrd (agg : Bool) (p : Pfx) : Bool :=
  match p.y with
  | none => true
  | some y => y.imm.toNat == 0 || (y.imm.toNat == 2 && !agg)

/-- Prefixes of major 21 (R38, R232): a guard only; Y, with IMM20 zero, exactly where the unit requires it. -/
def pfxG (needY : Bool) (p : Pfx) : Bool :=
  xFits false false false p.x && (match p.y with | none => !needY | some y => needY && y.imm == 0)

/-- The byte and format field of `cvtf8` and `cvt8f` (R176). -/
def cvt8Field (c : Fin 128) : Bool :=
  c.val < 32 && (c.val / 4 != 3 && c.val / 4 != 5 && c.val / 4 != 6)

/-- The unit is legal, in handler mode or outside it. An event is no word, so nothing of it can be illegal. -/
def wellFormed (h : Bool) : Instr → Bool
  | .nop => true
  | .exit => true
  | .trap _ => true
  | .brk _ => true
  | .rte => true
  | .yield => true
  | .ret => true
  | .winb m => (m.val ≤ 12 || 116 ≤ m.val)
  | .vsync => true
  | .sleep _ => true
  | .qcfg _ n => decide (n.val ≤ 16)
  | .qrst _ => true
  | .setfmt i => (i.val % 8 ≤ 4 && i.val / 8 % 4 ≠ 3 && i.val < 4096)
  | .setmode i => (i.val % 8 ≠ 0 && i.val % 8 ≠ 7 && i.val < 1024)
  | .bra _ => true
  | .bz _ _ => true
  | .bnz _ _ => true
  | .bltz _ _ => true
  | .bgez _ _ => true
  | .call f _ => decide (f.val ≤ 12)
  | .calli _ f => decide (f.val ≤ 12)
  | .jmpi _ => true
  | .vbr _ _ _ => true
  | .vbrall _ _ _ => true
  | .vbrany _ _ _ => true
  | .vjoin _ => true
  | .sadd _ _ _ => true
  | .ssub _ _ _ => true
  | .smul _ _ _ => true
  | .smulh _ _ _ => true
  | .smulhn _ _ _ => true
  | .sdiv _ _ _ => true
  | .sdivn _ _ _ => true
  | .srem _ _ _ => true
  | .sremn _ _ _ => true
  | .sand _ _ _ => true
  | .sor _ _ _ => true
  | .sxor _ _ _ => true
  | .sandn _ _ _ => true
  | .sshl _ _ _ => true
  | .sshr _ _ _ => true
  | .ssra _ _ _ => true
  | .srol _ _ _ => true
  | .smin _ _ _ => true
  | .smax _ _ _ => true
  | .sminn _ _ _ => true
  | .smaxn _ _ _ => true
  | .sceq _ _ _ => true
  | .scne _ _ _ => true
  | .sclt _ _ _ => true
  | .scle _ _ _ => true
  | .scltn _ _ _ => true
  | .sclen _ _ _ => true
  | .ssel _ _ _ _ => true
  | .saddi _ _ _ => true
  | .sandi _ _ _ => true
  | .sori _ _ _ => true
  | .sxori _ _ _ => true
  | .sshli _ _ i => decide (i.toNat < 64)
  | .sshri _ _ i => decide (i.toNat < 64)
  | .ssrai _ _ i => decide (i.toNat < 64)
  | .sclti _ _ _ => true
  | .sli _ _ => true
  | .slih _ _ => true
  | .sadpc _ _ => true
  | .mfs _ _ => true
  | .mts _ _ => true
  | .sext _ _ _ => true
  | .sins d _ _ => vdstNQ h d
  | .spopc _ _ => true
  | .sclz _ _ => true
  | .sctz _ _ => true
  | .sbrev _ _ => true
  | .sfirst _ _ => true
  | .sballot _ _ => true
  | .smask _ _ => true
  | .vadd x d _ _ => pfxV true true false x && vdst h d
  | .vsub x d _ _ => pfxV true true false x && vdst h d
  | .vmul x d _ _ => pfxV true true false x && vdst h d
  | .vmulh x d _ _ => pfxV true true false x && vdst h d
  | .vmulhn x d _ _ => pfxV true true false x && vdst h d
  | .vmad x d _ _ => pfx3 false d x && vdst h d
  | .vdiv x d _ _ => pfxV true true false x && vdst h d
  | .vdivn x d _ _ => pfxV true true false x && vdst h d
  | .vrem x d _ _ => pfxV true true false x && vdst h d
  | .vremn x d _ _ => pfxV true true false x && vdst h d
  | .vmin x d _ _ => pfxV true true false x && vdst h d
  | .vmax x d _ _ => pfxV true true false x && vdst h d
  | .vminn x d _ _ => pfxV true true false x && vdst h d
  | .vmaxn x d _ _ => pfxV true true false x && vdst h d
  | .vabs x d _ => pfxV true false false x && vdst h d
  | .vand x d _ _ => pfxV true true false x && vdst h d
  | .vor x d _ _ => pfxV true true false x && vdst h d
  | .vxor x d _ _ => pfxV true true false x && vdst h d
  | .vandn x d _ _ => pfxV true true false x && vdst h d
  | .vshl x d _ _ => pfxV true true false x && vdst h d
  | .vshr x d _ _ => pfxV true true false x && vdst h d
  | .vsra x d _ _ => pfxV true true false x && vdst h d
  | .vrol x d _ _ => pfxV true true false x && vdst h d
  | .vfsh x d _ _ => pfx3 false d x && vdst h d
  | .vpopc x d _ => pfxV true false false x && vdst h d
  | .vclz x d _ => pfxV true false false x && vdst h d
  | .vbrev x d _ => pfxV true false false x && vdst h d
  | .vbfe x d _ _ => pfxV true true false x && vdst h d
  | .vbfi x d _ _ => pfx3 false d x && vdst h d
  | .vclmul x d _ _ => pfxV true true false x && vdst h d
  | .vclmulh x d _ _ => pfxV true true false x && vdst h d
  | .vsadd x d _ _ => pfxV true true false x && vdst h d
  | .vssub x d _ _ => pfxV true true false x && vdst h d
  | .vadd64 x d a b => pfxV true true false x && pairDst h d && pairSrc h a && pairSrc h b
  | .vsub64 x d a b => pfxV true true false x && pairDst h d && pairSrc h a && pairSrc h b
  | .vmov x d _ => pfxV true false false x && vdst h d
  | .vdot4 x d _ _ => pfx3 false d x && vdst h d
  | .vdot4n x d _ _ => pfx3 false d x && vdst h d
  | .vaddi x d _ _ => pfxV true false false x && vdst h d
  | .vandi x d _ _ => pfxV true false false x && vdst h d
  | .vori x d _ _ => pfxV true false false x && vdst h d
  | .vxori x d _ _ => pfxV true false false x && vdst h d
  | .vshli x d _ i => pfxV true false false x && vdst h d && decide (i.toNat < 32)
  | .vshri x d _ i => pfxV true false false x && vdst h d && decide (i.toNat < 32)
  | .vsrai x d _ i => pfxV true false false x && vdst h d && decide (i.toNat < 32)
  | .vmuli x d _ _ => pfxV true false false x && vdst h d
  | .fadd x d _ _ => pfxV true true true x && vdst h d
  | .fsub x d _ _ => pfxV true true true x && vdst h d
  | .fmul x d _ _ => pfxV true true true x && vdst h d
  | .ffma x d _ _ => pfx3 true d x && vdst h d
  | .ffms x d _ _ => pfx3 true d x && vdst h d
  | .fnma x d _ _ => pfx3 true d x && vdst h d
  | .fmin x d _ _ => pfxV true true false x && vdst h d
  | .fmax x d _ _ => pfxV true true false x && vdst h d
  | .fminm x d _ _ => pfxV true true false x && vdst h d
  | .fmaxm x d _ _ => pfxV true true false x && vdst h d
  | .fabs x d _ => pfxV true false false x && vdst h d
  | .fneg x d _ => pfxV true false false x && vdst h d
  | .fcpys x d _ _ => pfxV true true false x && vdst h d
  | .fdot2 x d _ _ => pfx3 true d x && vdst h d
  | .hadd2 x d _ _ => pfxV true true true x && vdst h d
  | .hmul2 x d _ _ => pfxV true true true x && vdst h d
  | .hfma2 x d _ _ => pfx3 true d x && vdst h d
  | .fround x d _ => pfxV true false true x && vdst h d
  | .fldexp x d _ _ => pfxV true true true x && vdst h d
  | .fgetexp x d _ => pfxV true false false x && vdst h d
  | .vceq x _ _ _ => pfxV true true false x
  | .vcne x _ _ _ => pfxV true true false x
  | .vclt x _ _ _ => pfxV true true false x
  | .vcle x _ _ _ => pfxV true true false x
  | .vcltn x _ _ _ => pfxV true true false x
  | .vclen x _ _ _ => pfxV true true false x
  | .fceq x _ _ _ => pfxV true true false x
  | .fcne x _ _ _ => pfxV true true false x
  | .fclt x _ _ _ => pfxV true true false x
  | .fcle x _ _ _ => pfxV true true false x
  | .fcun x _ _ _ => pfxV true true false x
  | .fcls x _ _ _ => pfxV true true false x
  | .pand x _ _ _ => pfxV false false false x
  | .por x _ _ _ => pfxV false false false x
  | .pxor x _ _ _ => pfxV false false false x
  | .pandn x _ _ _ => pfxV false false false x
  | .pnot x _ _ => pfxV false false false x
  | .vmrg x d _ _ => pfxV true false false x && vdstNQ h d
  | .vperm x d _ _ => pfxV true true false x && vdst h d
  | .vlane x d _ _ => pfxV true true false x && vdst h d
  | .vredadd x _ _ => pfxV true false false x
  | .vredmin x _ _ => pfxV true false false x
  | .vredmax x _ _ => pfxV true false false x
  | .vredminn x _ _ => pfxV true false false x
  | .vredmaxn x _ _ => pfxV true false false x
  | .vredand x _ _ => pfxV true false false x
  | .vredor x _ _ => pfxV true false false x
  | .vredxor x _ _ => pfxV true false false x
  | .fredadd x _ _ => pfxV true false true x
  | .fredmin x _ _ => pfxV true false false x
  | .fredmax x _ _ => pfxV true false false x
  | .vscan x d _ => pfxV true false false x && vdst h d
  | .vscanx x d _ => pfxV true false false x && vdst h d
  | .fscan x d _ => pfxV true false true x && vdst h d
  | .vcompact x d _ => pfxV true false false x && vdst h d
  | .vexpand x d _ => pfxV true false false x && vdst h d
  | .vmatch x d _ => pfxV true false false x && pairDst h d
  | .frcp x d _ => pfxV true false false x && vdst h d
  | .frsq x d _ => pfxV true false false x && vdst h d
  | .fsqrt x d _ => pfxV true false true x && vdst h d
  | .fdiv x d _ _ => pfxV true true true x && vdst h d
  | .fexp2 x d _ => pfxV true false false x && vdst h d
  | .flog2 x d _ => pfxV true false false x && vdst h d
  | .fsin x d _ => pfxV true false false x && vdst h d
  | .fcos x d _ => pfxV true false false x && vdst h d
  | .ftanh x d _ => pfxV true false false x && vdst h d
  | .fsig x d _ => pfxV true false false x && vdst h d
  | .ferf x d _ => pfxV true false false x && vdst h d
  | .cvtfi x d _ => pfxV true false true x && vdst h d
  | .cvtfn x d _ => pfxV true false true x && vdst h d
  | .cvtif x d _ => pfxV true false true x && vdst h d
  | .cvtnf x d _ => pfxV true false true x && vdst h d
  | .cvtfh x d _ hf => pfxV true false true x && vdstNQ h d && decide (hf.val < 4)
  | .cvthf x d _ hf => pfxV true false false x && vdst h d && decide (hf.val < 4)
  | .cvtf8 x d _ c => pfxV true false true x && vdstNQ h d && cvt8Field c
  | .cvt8f x d _ c => pfxV true false true x && vdst h d && cvt8Field c
  | .fpack4 x d a c => pfxV true false true x && vdstNQ h d && decide (c.val < 4) && pairSrc h a
  | .funpk4 x d _ c => pfxV true false true x && pairDst h d && decide (c.val < 4)
  | .mxscl x _ _ => pfxV true false false x
  | .mxq x d _ _ => pfxV true false true x && vdstNQ h d
  | .mxdq x d _ _ => pfxV true false true x && vdst h d
  | .srseed x _ => pfxV false false false x
  | .ldI8 x m => pfxM false m.d x && ordScope m && vdstNQ h m.d
  | .ldN8 x m => pfxM false m.d x && ordScope m && vdstNQ h m.d
  | .ldI16 x m => pfxM false m.d x && ordScope m && vdstNQ h m.d
  | .ldN16 x m => pfxM false m.d x && ordScope m && vdstNQ h m.d
  | .ldB32 x m => pfxM false m.d x && ordScope m && vdstNQ h m.d
  | .ldB64 x m => pfxM false m.d x && ordScope m && pairDst h m.d
  | .ldB128 x m => pfxM false m.d x && ordScope m && quad h m.d
  | .ldm x m => pfxM true m.d x && ordScope m
  | .stB8 x m => pfxM false m.d x && ordScope m
  | .stB16 x m => pfxM false m.d x && ordScope m
  | .stB32 x m => pfxM false m.d x && ordScope m
  | .stB64 x m => pfxM false m.d x && ordScope m && pairSrc h m.d
  | .stB128 x m => pfxM false m.d x && ordScope m && quad h m.d
  | .stm x m => pfxM true m.d x && ordScope m
  | .sta x m => pfxM false m.d x && ordScope m && decide (m.ord = 1)
  | .sta64 x m => pfxM false m.d x && ordScope m && pairSrc h m.d && decide (m.ord = 1)
  | .atomAdd x d a _ _ => pfxA x && vdstNQ h d && evenV a
  | .atomSub x d a _ _ => pfxA x && vdstNQ h d && evenV a
  | .atomMin x d a _ _ => pfxA x && vdstNQ h d && evenV a
  | .atomMax x d a _ _ => pfxA x && vdstNQ h d && evenV a
  | .atomMinn x d a _ _ => pfxA x && vdstNQ h d && evenV a
  | .atomMaxn x d a _ _ => pfxA x && vdstNQ h d && evenV a
  | .atomAnd x d a _ _ => pfxA x && vdstNQ h d && evenV a
  | .atomOr x d a _ _ => pfxA x && vdstNQ h d && evenV a
  | .atomXor x d a _ _ => pfxA x && vdstNQ h d && evenV a
  | .atomXchg x d a _ _ => pfxA x && vdstNQ h d && evenV a
  | .atomCas x d a _ _ => pfxA x && vdstNQ h d && evenV a
  | .atomFadd x d a _ _ => pfxA x && vdstNQ h d && evenV a
  | .atomFmin x d a _ _ => pfxA x && vdstNQ h d && evenV a
  | .atomFmax x d a _ _ => pfxA x && vdstNQ h d && evenV a
  | .atomBfadd2 x d a _ _ => pfxA x && vdstNQ h d && evenV a
  | .atomIncw x d a _ _ => pfxA x && vdstNQ h d && evenV a
  | .redAdd x agg a _ _ => pfxA x && redOrd agg x && evenV a
  | .redSub x agg a _ _ => pfxA x && redOrd agg x && evenV a
  | .redMin x agg a _ _ => pfxA x && redOrd agg x && evenV a
  | .redMax x agg a _ _ => pfxA x && redOrd agg x && evenV a
  | .redMinn x agg a _ _ => pfxA x && redOrd agg x && evenV a
  | .redMaxn x agg a _ _ => pfxA x && redOrd agg x && evenV a
  | .redAnd x agg a _ _ => pfxA x && redOrd agg x && evenV a
  | .redOr x agg a _ _ => pfxA x && redOrd agg x && evenV a
  | .redXor x agg a _ _ => pfxA x && redOrd agg x && evenV a
  | .redFadd x agg a _ _ => pfxA x && redOrd agg x && evenV a
  | .redFmin x agg a _ _ => pfxA x && redOrd agg x && evenV a
  | .redFmax x agg a _ _ => pfxA x && redOrd agg x && evenV a
  | .redBfadd2 x agg a _ _ => pfxA x && redOrd agg x && evenV a
  | .ldwB32 x m => pfxM false m.d x && decide (m.scope = 0) && vdstNQ h m.d
  | .ldwB64 x m => pfxM false m.d x && decide (m.scope = 0) && pairDst h m.d
  | .ldwB128 x m => pfxM false m.d x && decide (m.scope = 0) && quad h m.d
  | .stwB32 x m => pfxM false m.d x && decide (m.scope = 0)
  | .stwB64 x m => pfxM false m.d x && decide (m.scope = 0) && pairSrc h m.d
  | .stwB128 x m => pfxM false m.d x && decide (m.scope = 0) && quad h m.d
  | .wadd x m => pfxM false m.d x && decide (m.scope = 0) && vdstNQ h m.d && decide (m.ord ≠ 3)
  | .wcas x m => pfxM false m.d x && decide (m.scope = 0) && pairDst h m.d && decide (m.ord ≠ 3)
  | .ldo x d _ b => pfxG false x && vdstNQ h d && decide (b.val ≤ 91)
  | .sto x _ _ b => pfxG false x && decide (b.val ≤ 91)
  | .ldob x d _ b => pfxG true x && rangeY d x && decide (b.val ≤ 61)
  | .stob x d _ b => pfxG true x && rangeY d x && decide (b.val ≤ 61)
  | .oinfo x _ _ _ => pfxG false x
  | .oprobe x _ a _ => pfxG false x && evenV a
  | .fence kind _ => decide (kind ≠ 0)
  | .pfence p t => decide (p ≠ 0) && decide (t ≠ 0)
  | .mwait y _ _ _ => decide (y.e.val / 16 ≠ 7)
  | .fla => true
  | .cinv _ => true
  | .cwb _ => true
  | .crsz _ _ => true
  | .pref _ _ => true
  | .cpy _ a _ => decide (a.val % 8 = 0 ∧ 8 ≤ a.val ∧ a.val ≤ 48)
  | .cpyb _ a _ => decide (a.val % 8 = 0 ∧ 8 ≤ a.val ∧ a.val ≤ 48)
  | .cpyt _ a _ => decide (a.val % 8 = 0 ∧ 8 ≤ a.val ∧ a.val ≤ 48)
  | .cpyx _ a _ => decide (a.val % 8 = 0 ∧ 8 ≤ a.val ∧ a.val ≤ 48)
  | .gath _ a _ => decide (a.val % 8 = 0 ∧ 8 ≤ a.val ∧ a.val ≤ 48)
  | .scat _ a _ => decide (a.val % 8 = 0 ∧ 8 ≤ a.val ∧ a.val ≤ 48)
  | .scata _ a _ => decide (a.val % 8 = 0 ∧ 8 ≤ a.val ∧ a.val ≤ 48)
  | .mma _ a => decide (a.val % 4 = 0 ∧ 4 ≤ a.val)
  | .mxloop _ a => decide (a.val % 4 = 0 ∧ 4 ≤ a.val)
  | .mxzero _ _ => true
  | .tld d _ => decide (d.val < 96)
  | .tst _ _ => true
  | .mxcfg _ => true
  | .mxrel _ _ => true
  | .balloc _ _ _ => true
  | .bfree _ => true
  | .barv _ _ => true
  | .barw _ _ => true
  | .barx _ _ => true
  | .bar => true
  | .barPx => true
  | .semaAdd _ _ => true
  | .semaSet _ _ => true
  | .semw _ _ => true
  | .tlrd _ _ => true
  | .tlwait _ _ => true
  | .waitk _ _ => true
  | .waitr _ _ => true
  | .spawn d _ _ => decide (d.val % 4 = 0 ∧ d.val ≤ 92)
  | .sendh d => decide (d.val % 8 = 0 ∧ d.val ≤ 88)
  | .recvq d _ _ => decide (d.val % 8 = 0 ∧ d.val ≤ 88)
  | .coll _ a => decide (a.val % 8 = 0 ∧ 8 ≤ a.val ∧ a.val ≤ 48)
  | .peerq _ _ q => decide (q.val < 3)
  | .launch _ _ => true
  | .preempt _ _ _ => true
  | .resume _ _ _ => true
  | .cfgrd _ _ => true
  | .cfgwr _ _ => true
  | .wait _ _ _ _ => true
  | .doorbellWrite _ _ _ => true
  | .launchRecordTake _ => true
  | .lqstatResume _ _ => true
  | .hostWindowRead _ _ _ => true
  | .hostWindowWrite _ _ _ => true
  | .placeWorkgroup _ _ _ _ => true
  | .eprioAge _ _ => true
  | .evictWorkgroup _ => true
  | .saveBegin _ => true
  | .saveComplete _ => true
  | .resumeWorkgroup _ _ _ _ => true
  | .resumeComplete _ => true
  | .gridComplete _ => true
  | .regroupBinTimer _ _ => true
  | .regroupStoreRoom _ => true
  | .clusterIdleGate _ => true
  | .clusterUngate _ => true
  | .rulingClassHoldEnd _ => true
  | .classWaitRaise _ => true
  | .urgentCandidate _ => true
  | .yieldEnd _ => true
  | .sleepWake _ => true
  | .spillTransferDone _ => true
  | .trapEnter _ => true
  | .handlerWatchdog _ => true
  | .contextHaltDeadline _ => true
  | .contextFaultReport _ => true
  | .reportVectorTimer _ => true
  | .loadReturn _ _ => true
  | .storePerformed _ _ => true
  | .waitingTableRetry _ _ => true
  | .walkComplete _ _ _ => true
  | .serviceRecordPost _ => true
  | .osvcServiceDone _ _ _ => true
  | .osvcServiceFail _ _ _ => true
  | .publishRecord _ _ => true
  | .publishMove _ _ _ => true
  | .publishRelease _ _ _ => true
  | .publishEntries _ _ _ _ => true
  | .publishGranules _ _ _ => true
  | .publishDone => true
  | .remoteAccessArrive _ => true
  | .copyStart _ _ => true
  | .aonVersionAcquire _ _ _ => true
  | .verPassEnd _ _ _ => true
  | .copySliceComplete _ _ _ => true
  | .barvReleaseDone _ _ => true
  | .copyComplete _ _ => true
  | .timelineEntryWrite _ _ => true
  | .matrixStepStart _ => true
  | .matrixStepComplete _ => true
  | .tileTransferDone _ _ => true
  | .homeGets _ _ => true
  | .homeGetm _ _ => true
  | .homePutm _ _ => true
  | .homePute _ _ => true
  | .homeWritePerform _ _ _ => true
  | .snoopInv _ _ => true
  | .snoopRecToS _ _ => true
  | .snoopRecToI _ _ => true
  | .snoopAnswer _ _ => true
  | .grantArrive _ _ => true
  | .putAck _ _ => true
  | .snoopResend _ _ => true
  | .atomicPerform _ _ _ => true
  | .replayRequest _ _ => true
  | .monitorTimeout _ => true
  | .monitorStatusDeliver _ => true
  | .cumulusAgeExpire _ _ => true
  | .cumulusPacketApply _ _ => true
  | .cumulusRejectLog => true
  | .egressDeliver _ => true
  | .rrtWrite _ _ _ => true
  | .strandFail _ _ _ => true
  | .flitReceive _ _ _ _ => true
  | .flitAck _ _ _ => true
  | .relayForward _ _ _ => true
  | .strandGate _ _ => true
  | .strandWakeDone _ _ => true
  | .heartbeatSend _ => true
  | .heartbeatMiss _ _ => true
  | .deadDieVerdict _ => true
  | .dieHaltDeadline _ => true
  | .dieReportPost _ => true
  | .wavelengthFail _ _ _ => true
  | .laneRemapDone _ _ => true
  | .codewordReceive _ _ _ _ => true
  | .tagGroupVerify _ _ => true
  | .portSessionEstablish _ _ _ => true
  | .sessionRekey _ => true
  | .portEnable _ _ => true
  | .portDisable _ _ => true
  | .portNarrow _ _ => true
  | .portWake _ _ => true
  | .portNarrowDone _ => true
  | .portWakeDone _ => true
  | .portAutoWake _ => true
  | .farEndNarrow _ _ => true
  | .farEndWake _ _ => true
  | .lageUpdate _ _ _ _ _ _ => true
  | .timeCounterSend _ => true
  | .timeCounterReceive _ _ => true
  | .fabricPacketReceive _ _ => true
  | .fabricRetryTimeout _ _ _ => true
  | .frgenWrite _ => true
  | .reachabilityRereadDone => true
  | .sendQueueDepart _ => true
  | .messageDeliver _ => true
  | .collHandoff _ _ => true
  | .collComplete _ _ _ => true
  | .collAbandon _ _ _ => true
  | .coldReset => true
  | .bootStepDone _ _ => true
  | .deviceReset => true
  | .functionReset _ => true
  | .contextDisable _ => true
  | .attestationRequest _ => true
  | .attestationDone _ => true
  | .ownClaim _ _ => true
  | .ownRelease _ => true
  | .ownHeartbeat _ => true
  | .ownerTimeout => true
  | .pcieLinkDown _ => true
  | .stratusTakeover => true
  | .powerEstimate _ _ => true
  | .lvEnter _ => true
  | .lvExit _ => true
  | .lvTransitionDone _ => true
  | .powerCapStep _ _ _ _ => true
  | .phyLaser _ _ _ => true
  | .phyLock _ _ => true
  | .phyTrain _ _ => true
  | .phyLaserOnDone _ _ _ => true
  | .phyLockDone _ _ _ => true
  | .phyTrainDone _ _ _ _ _ => true
  | .lageFlashStore => true
  | .configRegisterWrite _ _ _ => true
  | .illegalWord _ => true
  | .fetchFault => true
  | .contextEnable _ _ => true
  | .pcieLinkUp _ _ => true
  | .clusterPowered _ => true
  | .resultWriteBack _ => true
  | .strandGatingDisable _ => true

end Sys2Proof
end

