-- ==== Sys2Proof/Decode.lean ====
section
/-! DEFINITION. The decoder (R28-R45), total on any list of words and rejecting by name, and the encoder written from
the same tables. -/

namespace Sys2Proof

/-- Why a unit is no instruction, with the failing word (R45), or that its words end too early. -/
inductive DecodeReject where
  /-- Check 1: MAJ is 29. -/
  | reservedMajor (w : Word)
  /-- Check 2: a prefix after a prefix of its own kind, or X after Y. -/
  | prefixOrder (w : Word)
  /-- Check 3: a prefix breaks its own fields' rules, or its base word's major does not accept it. -/
  | badPrefix (w : Word)
  /-- Check 4: the base word, or a prefix field wrong for it. -/
  | badBase (w : Word)
  /-- The words end before the unit does. -/
  | truncated
deriving DecidableEq, Repr

/-- The failing word that TRAPI holds. -/
def DecodeReject.word : DecodeReject → Word
  | .reservedMajor w | .prefixOrder w | .badPrefix w | .badBase w => w
  | .truncated => 0

/-- MAJ of a word (R28). -/
def majOf (w : Word) : Nat := w.toNat / 2 ^ 27

/-- A 7-bit field as a vector operand field. -/
def vfld (n : Nat) : VFld := Fin.ofNat 128 n
/-- A field as a scalar register; 64-127 are illegal (R34). -/
def sreg? (n : Nat) : Option SReg := if h : n < 64 then some ⟨n, h⟩ else none
/-- A field as a predicate register; 16-127 are illegal (R34). -/
def preg? (n : Nat) : Option PReg := if h : n < 16 then some ⟨n, h⟩ else none
/-- A field as a special register number (R134). -/
def spec? (n : Nat) : Option SpecReg := if h : n < 35 then some ⟨n, h⟩ else none
/-- A field as a queue number in 96-111 (R110). -/
def queue? (n : Nat) : Option (Fin 16) := if h : 96 ≤ n ∧ n < 112 then some ⟨n - 96, by omega⟩ else none
/-- A field as a small unsigned number. -/
def small? (k n : Nat) : Option (Fin k) := if h : n < k then some ⟨n, h⟩ else none
/-- A reserved field must hold the given value (R31). -/
def must (n v : Nat) (r : Option Instr) : Option Instr := if n = v then r else none
/-- A unit that accepts no prefix. -/
def bare (p : Pfx) (r : Option Instr) : Option Instr :=
  match p with
  | ⟨none, none⟩ => r
  | _ => none

/-- The X prefix of a word (R35). -/
def decodeX (w : Word) : XPre :=
  let n := w.toNat
  { g := n / 2 ^ 26 % 2 == 1, neg := n / 2 ^ 25 % 2 == 1, pred := Fin.ofNat 16 (n / 2 ^ 21),
    xa := Fin.ofNat 512 (n / 2 ^ 12), xb := Fin.ofNat 512 (n / 2 ^ 3), rm := Fin.ofNat 8 n }

/-- The Y prefix of a word (R35). -/
def decodeY (w : Word) : YPre :=
  { e := Fin.ofNat 128 (w.toNat / 2 ^ 20), imm := BitVec.ofNat 20 w.toNat }

/-- Major 0 by function code (R42). -/
def decode0 (fn d a b : Nat) : Option Instr :=
  match fn with
  | 0 => must d 0 (must a 0 (must b 0 (do some (.nop))))
  | 1 => must d 0 (must a 0 (must b 0 (do some (.exit))))
  | 2 => must d 0 (must a 0 (do some (.trap (vfld b))))
  | 3 => must d 0 (must a 0 (do some (.brk (vfld b))))
  | 4 => must d 0 (must a 0 (must b 0 (do some (.rte))))
  | 5 => must d 0 (must a 0 (must b 0 (do some (.yield))))
  | 6 => must d 0 (must a 0 (must b 0 (do some (.ret))))
  | 7 => must d 0 (must a 0 (do some (.winb (vfld b))))
  | 8 => must d 0 (must a 0 (must b 0 (do some (.vsync))))
  | 9 => must d 0 (must b 0 (do some (.sleep (← sreg? a))))
  | 10 => must a 0 (do some (.qcfg (← queue? d) (vfld b)))
  | 11 => must d 0 (must b 0 (do some (.qrst (← sreg? a))))
  | 12 => must d 0 (some (.setfmt (Fin.ofNat 16384 (a * 128 + b))))
  | 13 => must d 0 (some (.setmode (Fin.ofNat 16384 (a * 128 + b))))
  | _ => none

/-- Major 3 by function code (R42). -/
def decode3 (fn d a b : Nat) : Option Instr :=
  match fn with
  | 0 => do some (.sadd (← sreg? d) (← sreg? a) (← sreg? b))
  | 1 => do some (.ssub (← sreg? d) (← sreg? a) (← sreg? b))
  | 2 => do some (.smul (← sreg? d) (← sreg? a) (← sreg? b))
  | 3 => do some (.smulh (← sreg? d) (← sreg? a) (← sreg? b))
  | 4 => do some (.smulhn (← sreg? d) (← sreg? a) (← sreg? b))
  | 5 => do some (.sdiv (← sreg? d) (← sreg? a) (← sreg? b))
  | 6 => do some (.sdivn (← sreg? d) (← sreg? a) (← sreg? b))
  | 7 => do some (.srem (← sreg? d) (← sreg? a) (← sreg? b))
  | 8 => do some (.sremn (← sreg? d) (← sreg? a) (← sreg? b))
  | 9 => do some (.sand (← sreg? d) (← sreg? a) (← sreg? b))
  | 10 => do some (.sor (← sreg? d) (← sreg? a) (← sreg? b))
  | 11 => do some (.sxor (← sreg? d) (← sreg? a) (← sreg? b))
  | 12 => do some (.sandn (← sreg? d) (← sreg? a) (← sreg? b))
  | 13 => do some (.sshl (← sreg? d) (← sreg? a) (← sreg? b))
  | 14 => do some (.sshr (← sreg? d) (← sreg? a) (← sreg? b))
  | 15 => do some (.ssra (← sreg? d) (← sreg? a) (← sreg? b))
  | 16 => do some (.srol (← sreg? d) (← sreg? a) (← sreg? b))
  | 17 => do some (.smin (← sreg? d) (← sreg? a) (← sreg? b))
  | 18 => do some (.smax (← sreg? d) (← sreg? a) (← sreg? b))
  | 19 => do some (.sminn (← sreg? d) (← sreg? a) (← sreg? b))
  | 20 => do some (.smaxn (← sreg? d) (← sreg? a) (← sreg? b))
  | 21 => do some (.sceq (← sreg? d) (← sreg? a) (← sreg? b))
  | 22 => do some (.scne (← sreg? d) (← sreg? a) (← sreg? b))
  | 23 => do some (.sclt (← sreg? d) (← sreg? a) (← sreg? b))
  | 24 => do some (.scle (← sreg? d) (← sreg? a) (← sreg? b))
  | 25 => do some (.scltn (← sreg? d) (← sreg? a) (← sreg? b))
  | 26 => do some (.sclen (← sreg? d) (← sreg? a) (← sreg? b))
  | _ => none

/-- Major 8 by function code (R42). -/
def decode8 (fn d a b : Nat) : Option Instr :=
  match fn with
  | 0 => must b 0 (do some (.mfs (← sreg? d) (← spec? a)))
  | 1 => must b 0 (do some (.mts (← spec? d) (← sreg? a)))
  | 2 => do some (.sext (← sreg? d) (vfld a) (← sreg? b))
  | 3 => do some (.sins (vfld d) (← sreg? a) (← sreg? b))
  | 4 => must b 0 (do some (.spopc (← sreg? d) (← sreg? a)))
  | 5 => must b 0 (do some (.sclz (← sreg? d) (← sreg? a)))
  | 6 => must b 0 (do some (.sctz (← sreg? d) (← sreg? a)))
  | 7 => must b 0 (do some (.sbrev (← sreg? d) (← sreg? a)))
  | 8 => must b 0 (do some (.sfirst (← sreg? d) (← preg? a)))
  | 9 => must b 0 (do some (.sballot (← sreg? d) (← preg? a)))
  | 10 => must b 0 (do some (.smask (← preg? d) (← sreg? a)))
  | _ => none

/-- Major 9 by function code (R42). -/
def decode9 (x : Pfx) (fn d a b : Nat) : Option Instr :=
  match fn with
  | 0 => do some (.vadd x (vfld d) (vfld a) (vfld b))
  | 1 => do some (.vsub x (vfld d) (vfld a) (vfld b))
  | 2 => do some (.vmul x (vfld d) (vfld a) (vfld b))
  | 3 => do some (.vmulh x (vfld d) (vfld a) (vfld b))
  | 4 => do some (.vmulhn x (vfld d) (vfld a) (vfld b))
  | 5 => do some (.vmad x (vfld d) (vfld a) (vfld b))
  | 6 => do some (.vdiv x (vfld d) (vfld a) (vfld b))
  | 7 => do some (.vdivn x (vfld d) (vfld a) (vfld b))
  | 8 => do some (.vrem x (vfld d) (vfld a) (vfld b))
  | 9 => do some (.vremn x (vfld d) (vfld a) (vfld b))
  | 10 => do some (.vmin x (vfld d) (vfld a) (vfld b))
  | 11 => do some (.vmax x (vfld d) (vfld a) (vfld b))
  | 12 => do some (.vminn x (vfld d) (vfld a) (vfld b))
  | 13 => do some (.vmaxn x (vfld d) (vfld a) (vfld b))
  | 14 => must b 0 (do some (.vabs x (vfld d) (vfld a)))
  | 15 => do some (.vand x (vfld d) (vfld a) (vfld b))
  | 16 => do some (.vor x (vfld d) (vfld a) (vfld b))
  | 17 => do some (.vxor x (vfld d) (vfld a) (vfld b))
  | 18 => do some (.vandn x (vfld d) (vfld a) (vfld b))
  | 19 => do some (.vshl x (vfld d) (vfld a) (vfld b))
  | 20 => do some (.vshr x (vfld d) (vfld a) (vfld b))
  | 21 => do some (.vsra x (vfld d) (vfld a) (vfld b))
  | 22 => do some (.vrol x (vfld d) (vfld a) (vfld b))
  | 23 => do some (.vfsh x (vfld d) (vfld a) (vfld b))
  | 24 => must b 0 (do some (.vpopc x (vfld d) (vfld a)))
  | 25 => must b 0 (do some (.vclz x (vfld d) (vfld a)))
  | 26 => must b 0 (do some (.vbrev x (vfld d) (vfld a)))
  | 27 => do some (.vbfe x (vfld d) (vfld a) (vfld b))
  | 28 => do some (.vbfi x (vfld d) (vfld a) (vfld b))
  | 29 => do some (.vclmul x (vfld d) (vfld a) (vfld b))
  | 30 => do some (.vclmulh x (vfld d) (vfld a) (vfld b))
  | 31 => do some (.vsadd x (vfld d) (vfld a) (vfld b))
  | 32 => do some (.vssub x (vfld d) (vfld a) (vfld b))
  | 33 => do some (.vadd64 x (vfld d) (vfld a) (vfld b))
  | 34 => do some (.vsub64 x (vfld d) (vfld a) (vfld b))
  | 35 => must b 0 (do some (.vmov x (vfld d) (vfld a)))
  | 36 => do some (.vdot4 x (vfld d) (vfld a) (vfld b))
  | 37 => do some (.vdot4n x (vfld d) (vfld a) (vfld b))
  | _ => none

/-- Major 11 by function code (R42). -/
def decode11 (x : Pfx) (fn d a b : Nat) : Option Instr :=
  match fn with
  | 0 => do some (.fadd x (vfld d) (vfld a) (vfld b))
  | 1 => do some (.fsub x (vfld d) (vfld a) (vfld b))
  | 2 => do some (.fmul x (vfld d) (vfld a) (vfld b))
  | 3 => do some (.ffma x (vfld d) (vfld a) (vfld b))
  | 4 => do some (.ffms x (vfld d) (vfld a) (vfld b))
  | 5 => do some (.fnma x (vfld d) (vfld a) (vfld b))
  | 6 => do some (.fmin x (vfld d) (vfld a) (vfld b))
  | 7 => do some (.fmax x (vfld d) (vfld a) (vfld b))
  | 8 => do some (.fminm x (vfld d) (vfld a) (vfld b))
  | 9 => do some (.fmaxm x (vfld d) (vfld a) (vfld b))
  | 10 => must b 0 (do some (.fabs x (vfld d) (vfld a)))
  | 11 => must b 0 (do some (.fneg x (vfld d) (vfld a)))
  | 12 => do some (.fcpys x (vfld d) (vfld a) (vfld b))
  | 13 => do some (.fdot2 x (vfld d) (vfld a) (vfld b))
  | 14 => do some (.hadd2 x (vfld d) (vfld a) (vfld b))
  | 15 => do some (.hmul2 x (vfld d) (vfld a) (vfld b))
  | 16 => do some (.hfma2 x (vfld d) (vfld a) (vfld b))
  | 17 => must b 0 (do some (.fround x (vfld d) (vfld a)))
  | 18 => do some (.fldexp x (vfld d) (vfld a) (vfld b))
  | 19 => must b 0 (do some (.fgetexp x (vfld d) (vfld a)))
  | _ => none

/-- Major 12 by function code (R42). -/
def decode12 (x : Pfx) (fn d a b : Nat) : Option Instr :=
  match fn with
  | 0 => do some (.vceq x (← preg? d) (vfld a) (vfld b))
  | 1 => do some (.vcne x (← preg? d) (vfld a) (vfld b))
  | 2 => do some (.vclt x (← preg? d) (vfld a) (vfld b))
  | 3 => do some (.vcle x (← preg? d) (vfld a) (vfld b))
  | 4 => do some (.vcltn x (← preg? d) (vfld a) (vfld b))
  | 5 => do some (.vclen x (← preg? d) (vfld a) (vfld b))
  | 6 => do some (.fceq x (← preg? d) (vfld a) (vfld b))
  | 7 => do some (.fcne x (← preg? d) (vfld a) (vfld b))
  | 8 => do some (.fclt x (← preg? d) (vfld a) (vfld b))
  | 9 => do some (.fcle x (← preg? d) (vfld a) (vfld b))
  | 10 => do some (.fcun x (← preg? d) (vfld a) (vfld b))
  | 11 => do some (.fcls x (← preg? d) (vfld a) (vfld b))
  | 12 => do some (.pand x (← preg? d) (← preg? a) (← preg? b))
  | 13 => do some (.por x (← preg? d) (← preg? a) (← preg? b))
  | 14 => do some (.pxor x (← preg? d) (← preg? a) (← preg? b))
  | 15 => do some (.pandn x (← preg? d) (← preg? a) (← preg? b))
  | 16 => must b 0 (do some (.pnot x (← preg? d) (← preg? a)))
  | 17 => do some (.vmrg x (vfld d) (vfld a) (← preg? b))
  | _ => none

/-- Major 13 by function code (R42). -/
def decode13 (x : Pfx) (fn d a b : Nat) : Option Instr :=
  match fn with
  | 0 => do some (.vperm x (vfld d) (vfld a) (vfld b))
  | 1 => do some (.vlane x (vfld d) (vfld a) (vfld b))
  | 2 => must b 0 (do some (.vredadd x (← sreg? d) (vfld a)))
  | 3 => must b 0 (do some (.vredmin x (← sreg? d) (vfld a)))
  | 4 => must b 0 (do some (.vredmax x (← sreg? d) (vfld a)))
  | 5 => must b 0 (do some (.vredminn x (← sreg? d) (vfld a)))
  | 6 => must b 0 (do some (.vredmaxn x (← sreg? d) (vfld a)))
  | 7 => must b 0 (do some (.vredand x (← sreg? d) (vfld a)))
  | 8 => must b 0 (do some (.vredor x (← sreg? d) (vfld a)))
  | 9 => must b 0 (do some (.vredxor x (← sreg? d) (vfld a)))
  | 10 => must b 0 (do some (.fredadd x (← sreg? d) (vfld a)))
  | 11 => must b 0 (do some (.fredmin x (← sreg? d) (vfld a)))
  | 12 => must b 0 (do some (.fredmax x (← sreg? d) (vfld a)))
  | 13 => must b 0 (do some (.vscan x (vfld d) (vfld a)))
  | 14 => must b 0 (do some (.vscanx x (vfld d) (vfld a)))
  | 15 => must b 0 (do some (.fscan x (vfld d) (vfld a)))
  | 16 => must b 0 (do some (.vcompact x (vfld d) (vfld a)))
  | 17 => must b 0 (do some (.vexpand x (vfld d) (vfld a)))
  | 18 => must b 0 (do some (.vmatch x (vfld d) (vfld a)))
  | _ => none

/-- Major 14 by function code (R42). -/
def decode14 (x : Pfx) (fn d a b : Nat) : Option Instr :=
  match fn with
  | 0 => must b 0 (do some (.frcp x (vfld d) (vfld a)))
  | 1 => must b 0 (do some (.frsq x (vfld d) (vfld a)))
  | 2 => must b 0 (do some (.fsqrt x (vfld d) (vfld a)))
  | 3 => do some (.fdiv x (vfld d) (vfld a) (vfld b))
  | 4 => must b 0 (do some (.fexp2 x (vfld d) (vfld a)))
  | 5 => must b 0 (do some (.flog2 x (vfld d) (vfld a)))
  | 6 => must b 0 (do some (.fsin x (vfld d) (vfld a)))
  | 7 => must b 0 (do some (.fcos x (vfld d) (vfld a)))
  | 8 => must b 0 (do some (.ftanh x (vfld d) (vfld a)))
  | 9 => must b 0 (do some (.fsig x (vfld d) (vfld a)))
  | 10 => must b 0 (do some (.ferf x (vfld d) (vfld a)))
  | _ => none

/-- Major 15 by function code (R42). -/
def decode15 (x : Pfx) (fn d a b : Nat) : Option Instr :=
  match fn with
  | 0 => must b 0 (do some (.cvtfi x (vfld d) (vfld a)))
  | 1 => must b 0 (do some (.cvtfn x (vfld d) (vfld a)))
  | 2 => must b 0 (do some (.cvtif x (vfld d) (vfld a)))
  | 3 => must b 0 (do some (.cvtnf x (vfld d) (vfld a)))
  | 4 => do some (.cvtfh x (vfld d) (vfld a) (vfld b))
  | 5 => do some (.cvthf x (vfld d) (vfld a) (vfld b))
  | 6 => do some (.cvtf8 x (vfld d) (vfld a) (vfld b))
  | 7 => do some (.cvt8f x (vfld d) (vfld a) (vfld b))
  | 8 => do some (.fpack4 x (vfld d) (vfld a) (vfld b))
  | 9 => do some (.funpk4 x (vfld d) (vfld a) (vfld b))
  | 10 => must b 0 (do some (.mxscl x (← sreg? d) (vfld a)))
  | 11 => do some (.mxq x (vfld d) (vfld a) (← sreg? b))
  | 12 => do some (.mxdq x (vfld d) (vfld a) (← sreg? b))
  | 13 => must d 0 (must b 0 (do some (.srseed x (← sreg? a))))
  | _ => none

/-- Major 18 by function code (R42). -/
def decode18 (x : Pfx) (fn d a b c : Nat) : Option Instr :=
  match fn with
  | 0 => do some (.atomAdd x (vfld d) (vfld a) (vfld b) (Fin.ofNat 4 c))
  | 1 => do some (.atomSub x (vfld d) (vfld a) (vfld b) (Fin.ofNat 4 c))
  | 2 => do some (.atomMin x (vfld d) (vfld a) (vfld b) (Fin.ofNat 4 c))
  | 3 => do some (.atomMax x (vfld d) (vfld a) (vfld b) (Fin.ofNat 4 c))
  | 4 => do some (.atomMinn x (vfld d) (vfld a) (vfld b) (Fin.ofNat 4 c))
  | 5 => do some (.atomMaxn x (vfld d) (vfld a) (vfld b) (Fin.ofNat 4 c))
  | 6 => do some (.atomAnd x (vfld d) (vfld a) (vfld b) (Fin.ofNat 4 c))
  | 7 => do some (.atomOr x (vfld d) (vfld a) (vfld b) (Fin.ofNat 4 c))
  | 8 => do some (.atomXor x (vfld d) (vfld a) (vfld b) (Fin.ofNat 4 c))
  | 9 => do some (.atomXchg x (vfld d) (vfld a) (vfld b) (Fin.ofNat 4 c))
  | 10 => do some (.atomCas x (vfld d) (vfld a) (vfld b) (Fin.ofNat 4 c))
  | 11 => do some (.atomFadd x (vfld d) (vfld a) (vfld b) (Fin.ofNat 4 c))
  | 12 => do some (.atomFmin x (vfld d) (vfld a) (vfld b) (Fin.ofNat 4 c))
  | 13 => do some (.atomFmax x (vfld d) (vfld a) (vfld b) (Fin.ofNat 4 c))
  | 14 => do some (.atomBfadd2 x (vfld d) (vfld a) (vfld b) (Fin.ofNat 4 c))
  | 15 => do some (.atomIncw x (vfld d) (vfld a) (vfld b) (Fin.ofNat 4 c))
  | _ => none

/-- Major 19 by function code (R42). -/
noncomputable def decode19 (x : Pfx) (fn d a b c : Nat) : Option Instr :=
  match fn with
  | 0 => do some (.redAdd x ((← small? 2 d) == 1) (vfld a) (vfld b) (Fin.ofNat 4 c))
  | 1 => do some (.redSub x ((← small? 2 d) == 1) (vfld a) (vfld b) (Fin.ofNat 4 c))
  | 2 => do some (.redMin x ((← small? 2 d) == 1) (vfld a) (vfld b) (Fin.ofNat 4 c))
  | 3 => do some (.redMax x ((← small? 2 d) == 1) (vfld a) (vfld b) (Fin.ofNat 4 c))
  | 4 => do some (.redMinn x ((← small? 2 d) == 1) (vfld a) (vfld b) (Fin.ofNat 4 c))
  | 5 => do some (.redMaxn x ((← small? 2 d) == 1) (vfld a) (vfld b) (Fin.ofNat 4 c))
  | 6 => do some (.redAnd x ((← small? 2 d) == 1) (vfld a) (vfld b) (Fin.ofNat 4 c))
  | 7 => do some (.redOr x ((← small? 2 d) == 1) (vfld a) (vfld b) (Fin.ofNat 4 c))
  | 8 => do some (.redXor x ((← small? 2 d) == 1) (vfld a) (vfld b) (Fin.ofNat 4 c))
  | 9 => do some (.redFadd x ((← small? 2 d) == 1) (vfld a) (vfld b) (Fin.ofNat 4 c))
  | 10 => do some (.redFmin x ((← small? 2 d) == 1) (vfld a) (vfld b) (Fin.ofNat 4 c))
  | 11 => do some (.redFmax x ((← small? 2 d) == 1) (vfld a) (vfld b) (Fin.ofNat 4 c))
  | 12 => do some (.redBfadd2 x ((← small? 2 d) == 1) (vfld a) (vfld b) (Fin.ofNat 4 c))
  | _ => none

/-- Major 21 by function code (R42). -/
noncomputable def decode21 (x : Pfx) (fn d a b : Nat) : Option Instr :=
  match fn with
  | 0 => do some (.ldo x (vfld d) (← sreg? a) (vfld b))
  | 1 => do some (.sto x (vfld d) (← sreg? a) (vfld b))
  | 2 => do some (.ldob x (vfld d) (← sreg? a) (← sreg? b))
  | 3 => do some (.stob x (vfld d) (← sreg? a) (← sreg? b))
  | 4 => do some (.oinfo x (← sreg? d) (← sreg? a) (← small? 8 b))
  | 5 => do some (.oprobe x (← preg? d) (vfld a) (← sreg? b))
  | _ => none

/-- Major 22 by function code (R42). -/
noncomputable def decode22 (x : Pfx) (fn d a b : Nat) : Option Instr :=
  match fn with
  | 0 => bare x (must d 0 (must a 0 ((if b < 16 then do some (.fence (Fin.ofNat 4 (b / 4)) (Fin.ofNat 4 b)) else none))))
  | 1 => bare x (must d 0 (do some (.pfence (← small? 16 a) (← small? 16 b))))
  | 2 => match x with | ⟨none, some y⟩ => do some (.mwait y (← sreg? d) (← sreg? a) (← sreg? b)) | _ => none
  | 3 => bare x (must d 0 (must a 0 (must b 0 (do some (.fla)))))
  | 4 => bare x (must d 0 (must b 0 (do some (.cinv (← sreg? a)))))
  | 5 => bare x (must d 0 (must b 0 (do some (.cwb (← sreg? a)))))
  | 6 => bare x (must b 0 (do some (.crsz (← sreg? d) (← sreg? a))))
  | 7 => bare x (must d 0 (do some (.pref (← sreg? a) (← small? 2 b))))
  | _ => none

/-- Major 23 by function code (R42). -/
noncomputable def decode23 (fn d a b : Nat) : Option Instr :=
  match fn with
  | 0 => do some (.cpy (← sreg? d) (← sreg? a) (← small? 8 b))
  | 1 => do some (.cpyb (← sreg? d) (← sreg? a) (← small? 8 b))
  | 2 => do some (.cpyt (← sreg? d) (← sreg? a) (← small? 8 b))
  | 3 => do some (.cpyx (← sreg? d) (← sreg? a) (← small? 8 b))
  | 4 => do some (.gath (← sreg? d) (← sreg? a) (← small? 8 b))
  | 5 => do some (.scat (← sreg? d) (← sreg? a) (← small? 8 b))
  | 6 => do some (.scata (← sreg? d) (← sreg? a) (← small? 8 b))
  | _ => none

/-- Major 24 by function code (R42). -/
noncomputable def decode24 (fn d a b : Nat) : Option Instr :=
  match fn with
  | 0 => must b 0 (do some (.mma (← sreg? d) (← sreg? a)))
  | 1 => must b 0 (do some (.mxloop (← sreg? d) (← sreg? a)))
  | 2 => must b 0 (do some (.mxzero (← sreg? d) (← sreg? a)))
  | 3 => must b 0 (do some (.tld (vfld d) (← sreg? a)))
  | 4 => must b 0 (do some (.tst (vfld d) (← sreg? a)))
  | 5 => must d 0 (must b 0 (do some (.mxcfg (← sreg? a))))
  | 6 => must b 0 (do some (.mxrel (← sreg? d) (← sreg? a)))
  | _ => none

/-- Major 25 by function code (R42). -/
noncomputable def decode25 (fn d a b : Nat) : Option Instr :=
  match fn with
  | 0 => do some (.balloc (← sreg? d) (← preg? a) (← sreg? b))
  | 1 => must d 0 (must b 0 (do some (.bfree (← sreg? a))))
  | 2 => must b 0 (do some (.barv (← sreg? d) (← sreg? a)))
  | 3 => must d 0 (do some (.barw (← sreg? a) (← sreg? b)))
  | 4 => must d 0 (do some (.barx (← sreg? a) (← sreg? b)))
  | 5 => (must d 0 (must a 0 (must b 0 (do some (.bar))))) <|> (must d 0 (must a 0 (must b 1 (do some (.barPx)))))
  | 6 => (must d 0 (do some (.semaAdd (← sreg? a) (← sreg? b)))) <|> (must d 1 (do some (.semaSet (← sreg? a) (← sreg? b))))
  | 7 => must d 0 (do some (.semw (← sreg? a) (← sreg? b)))
  | 8 => must b 0 (do some (.tlrd (← sreg? d) (← sreg? a)))
  | 9 => must d 0 (do some (.tlwait (← sreg? a) (← sreg? b)))
  | 10 => must d 0 (do some (.waitk (← small? 16 a) (← small? 16 b)))
  | 11 => must b 0 (do some (.waitr (← small? 4 d) (← sreg? a)))
  | 12 => do some (.spawn (vfld d) (← sreg? a) (vfld b))
  | _ => none

/-- Major 26 by function code (R42). -/
noncomputable def decode26 (fn d a b : Nat) : Option Instr :=
  match fn with
  | 0 => must a 0 (must b 0 (do some (.sendh (vfld d))))
  | 1 => do some (.recvq (vfld d) (← sreg? a) (← preg? b))
  | 2 => must b 0 (do some (.coll (← sreg? d) (← sreg? a)))
  | 3 => do some (.peerq (← preg? d) (vfld a) (← small? 4 b))
  | _ => none

/-- Major 27 by function code (R42). -/
noncomputable def decode27 (fn d a b : Nat) : Option Instr :=
  match fn with
  | 0 => must b 0 (do some (.launch (← sreg? d) (← sreg? a)))
  | 1 => do some (.preempt (← sreg? d) (← sreg? a) (← sreg? b))
  | 2 => do some (.resume (← sreg? d) (← sreg? a) (← sreg? b))
  | 3 => must b 0 (do some (.cfgrd (← sreg? d) (← sreg? a)))
  | 4 => must d 0 (do some (.cfgwr (← sreg? a) (← sreg? b)))
  | _ => none

/-- Major 4, I format (R42). -/
def decode4 (fn3 d a : Nat) (i : BitVec 10) : Option Instr :=
  match fn3 with
  | 0 => do some (.saddi (← sreg? d) (← sreg? a) i)
  | 1 => do some (.sandi (← sreg? d) (← sreg? a) i)
  | 2 => do some (.sori (← sreg? d) (← sreg? a) i)
  | 3 => do some (.sxori (← sreg? d) (← sreg? a) i)
  | 4 => do some (.sshli (← sreg? d) (← sreg? a) i)
  | 5 => do some (.sshri (← sreg? d) (← sreg? a) i)
  | 6 => do some (.ssrai (← sreg? d) (← sreg? a) i)
  | 7 => do some (.sclti (← sreg? d) (← sreg? a) i)
  | _ => none

/-- Major 10, I format (R42). -/
def decode10 (x : Pfx) (fn3 d a : Nat) (i : BitVec 10) : Option Instr :=
  match fn3 with
  | 0 => some (.vaddi x (vfld d) (vfld a) i)
  | 1 => some (.vandi x (vfld d) (vfld a) i)
  | 2 => some (.vori x (vfld d) (vfld a) i)
  | 3 => some (.vxori x (vfld d) (vfld a) i)
  | 4 => some (.vshli x (vfld d) (vfld a) i)
  | 5 => some (.vshri x (vfld d) (vfld a) i)
  | 6 => some (.vsrai x (vfld d) (vfld a) i)
  | 7 => some (.vmuli x (vfld d) (vfld a) i)
  | _ => none

/-- Major 16, M format (R42). -/
def decode16 (x : Pfx) (fn3 : Nat) (m : MFld) : Option Instr :=
  match fn3 with
  | 0 => some (.ldI8 x m)
  | 1 => some (.ldN8 x m)
  | 2 => some (.ldI16 x m)
  | 3 => some (.ldN16 x m)
  | 4 => some (.ldB32 x m)
  | 5 => some (.ldB64 x m)
  | 6 => some (.ldB128 x m)
  | 7 => some (.ldm x m)
  | _ => none

/-- Major 17, M format (R42). -/
def decode17 (x : Pfx) (fn3 : Nat) (m : MFld) : Option Instr :=
  match fn3 with
  | 0 => some (.stB8 x m)
  | 1 => some (.stB16 x m)
  | 2 => some (.stB32 x m)
  | 3 => some (.stB64 x m)
  | 4 => some (.stB128 x m)
  | 5 => some (.stm x m)
  | 6 => some (.sta x m)
  | 7 => some (.sta64 x m)
  | _ => none

/-- Major 20, M format (R42). -/
noncomputable def decode20 (x : Pfx) (fn3 : Nat) (m : MFld) : Option Instr :=
  match fn3 with
  | 0 => some (.ldwB32 x m)
  | 1 => some (.ldwB64 x m)
  | 2 => some (.ldwB128 x m)
  | 3 => some (.stwB32 x m)
  | 4 => some (.stwB64 x m)
  | 5 => some (.stwB128 x m)
  | 6 => some (.wadd x m)
  | 7 => some (.wcas x m)
  | _ => none

/-- Major 1, BR format (R119). -/
def decode1 (kind s6 : Nat) (o : BitVec 18) : Option Instr :=
  match kind with
  | 0 => must s6 0 (some (.bra o))
  | 1 => do some (.bz (← sreg? s6) o)
  | 2 => do some (.bnz (← sreg? s6) o)
  | 3 => do some (.bltz (← sreg? s6) o)
  | 4 => do some (.bgez (← sreg? s6) o)
  | 5 => do some (.call (← small? 64 s6) o)
  | 6 => do some (.calli (← sreg? s6) (← small? 16 o.toNat))
  | 7 => must o.toNat 0 (do some (.jmpi (← sreg? s6)))
  | _ => none

/-- Major 2, VB format (R121). -/
def decode2 (kind p neg : Nat) (o : BitVec 20) : Option Instr :=
  match kind with
  | 0 => do some (.vbr (← preg? p) (neg == 1) o)
  | 1 => do some (.vbrall (← preg? p) (neg == 1) o)
  | 2 => do some (.vbrany (← preg? p) (neg == 1) o)
  | 3 => must p 0 (must neg 0 (some (.vjoin o)))
  | _ => none

/-- Major 3 with its one instruction that accepts Y, `ssel` (R38, R130). -/
def decode3x (x : Pfx) (fn d a b : Nat) : Option Instr :=
  if fn = 27 then
    match x with
    | ⟨none, none⟩ => do some (.ssel (← sreg? d) (← sreg? a) (← sreg? b) none)
    | ⟨none, some y⟩ => must y.imm.toNat 0 (do some (.ssel (← sreg? d) (← sreg? a) (← sreg? b) (some (← sreg? y.e.val))))
    | _ => none
  else bare x (decode3 fn d a b)

/-- A base word with its prefixes, whose major accepts them (check 3 is passed): the instruction, or none where check 4
fails. -/
noncomputable def decodeBase (x : Pfx) (w : Word) : Option Instr :=
  let n := w.toNat
  let d := n / 2 ^ 20 % 128
  let a := n / 2 ^ 13 % 128
  let b := n / 2 ^ 6 % 128
  let fn := n % 64
  let m : MFld := { d := vfld d, sb := Fin.ofNat 64 (n / 2 ^ 14), vo := vfld (n / 2 ^ 7),
                    ord := Fin.ofNat 4 (n / 4), scope := Fin.ofNat 4 n }
  match n / 2 ^ 27 with
  | 0 => decode0 fn d a b
  | 1 => decode1 (n / 2 ^ 18 % 8) (n / 2 ^ 21 % 64) (BitVec.ofNat 18 n)
  | 2 => decode2 (n / 2 ^ 20 % 4) (n / 2 ^ 23 % 16) (n / 2 ^ 22 % 2) (BitVec.ofNat 20 n)
  | 3 => decode3x x fn d a b
  | 4 => decode4 (n / 2 ^ 10 % 8) d a (BitVec.ofNat 10 n)
  | 5 => do some (.sli (← sreg? d) (BitVec.ofNat 20 n))
  | 6 => do some (.slih (← sreg? d) (BitVec.ofNat 20 n))
  | 7 => do some (.sadpc (← sreg? d) (BitVec.ofNat 20 n))
  | 8 => decode8 fn d a b
  | 9 => decode9 x fn d a b
  | 10 => decode10 x (n / 2 ^ 10 % 8) d a (BitVec.ofNat 10 n)
  | 11 => decode11 x fn d a b
  | 12 => decode12 x fn d a b
  | 13 => decode13 x fn d a b
  | 14 => decode14 x fn d a b
  | 15 => decode15 x fn d a b
  | 16 => decode16 x (n / 16 % 8) m
  | 17 => decode17 x (n / 16 % 8) m
  | 18 => decode18 x (fn / 4) d a b (fn % 4)
  | 19 => decode19 x (fn / 4) d a b (fn % 4)
  | 20 => decode20 x (n / 16 % 8) m
  | 21 => decode21 x fn d a b
  | 22 => decode22 x fn d a b
  | 23 => decode23 fn d a b
  | 24 => decode24 fn d a b
  | 25 => decode25 fn d a b
  | 26 => decode26 fn d a b
  | 27 => decode27 fn d a b
  | 28 => must (n % 128) 0 (some (.wait (Fin.ofNat 32 (n / 2 ^ 22)) (Fin.ofNat 32 (n / 2 ^ 17))
            (Fin.ofNat 32 (n / 2 ^ 12)) (Fin.ofNat 32 (n / 2 ^ 7))))
  | _ => none

/-- The majors some function code of which accepts an X prefix (R38, check 3 of R45). -/
def acceptsX (maj : Nat) : Bool := 9 ≤ maj && maj ≤ 21
/-- The majors some function code of which accepts a Y prefix (R38, check 3 of R45). -/
def acceptsY (maj : Nat) : Bool := maj == 3 || (9 ≤ maj && maj ≤ 22)

/-- Checks 1, 3 and 4 of R45 on a unit whose prefixes stand in order. -/
noncomputable def finish (h : Bool) (xw yw : Option Word) (w : Word) : Except DecodeReject Instr :=
  if majOf w = 29 then .error (.reservedMajor w)
  else
    let badX := match xw with | none => false | some v => !((decodeX v).ok && acceptsX (majOf w))
    let badY := match yw with | none => false | some _ => !acceptsY (majOf w)
    if badX then .error (.badPrefix (xw.getD 0))
    else if badY then .error (.badPrefix (yw.getD 0))
    else
      match decodeBase { x := xw.map decodeX, y := yw.map decodeY } w with
      | none => .error (.badBase w)
      | some i => if wellFormed h i then .ok i else .error (.badBase w)

/-- The word is an X prefix (R35). -/
def isXWord (w : Word) : Bool := majOf w == 31
/-- The word is a Y prefix (R35). -/
def isYWord (w : Word) : Bool := majOf w == 30

/-- The word is a prefix. -/
def isPrefix (w : Word) : Bool := isXWord w || isYWord w

/-- The unit at the head of the words, in handler mode or outside it: the instruction and how many words it takes, or
the rejection. The unit's words go up to the first that is no prefix, three at most (R28, DEDUCED, LE 12); a reserved major
among them comes before a misplaced prefix (R45). -/
noncomputable def decode (h : Bool) : List Word → Except DecodeReject (Instr × Nat)
  | [] => .error .truncated
  | w0 :: r0 =>
    if !isPrefix w0 then (finish h none none w0).map (·, 1)
    else match r0 with
      | [] => .error .truncated
      | w1 :: r1 =>
        if !isPrefix w1 then
          (if isXWord w0 then finish h (some w0) none w1 else finish h none (some w0) w1).map (·, 2)
        else match r1 with
          | [] => .error .truncated
          | w2 :: _ =>
            if majOf w2 = 29 then .error (.reservedMajor w2)
            else if isXWord w1 || isYWord w0 then .error (.prefixOrder w1)
            else if isPrefix w2 then .error (.prefixOrder w2)
            else (finish h (some w0) (some w1) w2).map (·, 3)

/-- The instruction whose words, laid out as the opcode table numbers their bits, are `w`; operand words above `nbits`
are zero. Outside handler mode. -/
noncomputable def decodeTableWord (nbits w : Nat) : Option Instr :=
  let n := w % 2 ^ nbits
  match decode false [BitVec.ofNat 32 n, BitVec.ofNat 32 (n / 2 ^ 32), BitVec.ofNat 32 (n / 2 ^ 64)] with
  | .ok (i, _) => some i
  | .error _ => none

/-! ## The encoder -/

/-- A word of the A format (R29). -/
def wordA (maj d a b fn : Nat) : Word := BitVec.ofNat 32 (maj * 2 ^ 27 + d * 2 ^ 20 + a * 2 ^ 13 + b * 2 ^ 6 + fn)
/-- A word of the I format (R29). -/
def wordI (maj d a fn3 : Nat) (i : BitVec 10) : Word :=
  BitVec.ofNat 32 (maj * 2 ^ 27 + d * 2 ^ 20 + a * 2 ^ 13 + fn3 * 2 ^ 10 + i.toNat)
/-- A word of the U format (R29). -/
def wordU (maj d : Nat) (i : BitVec 20) : Word := BitVec.ofNat 32 (maj * 2 ^ 27 + d * 2 ^ 20 + i.toNat)
/-- A word of the BR format (R29). -/
def wordBR (s6 kind o : Nat) : Word := BitVec.ofNat 32 (2 ^ 27 + s6 * 2 ^ 21 + kind * 2 ^ 18 + o)
/-- A word of the VB format (R29). -/
def wordVB (p : Nat) (neg : Bool) (kind : Nat) (o : BitVec 20) : Word :=
  BitVec.ofNat 32 (2 * 2 ^ 27 + p * 2 ^ 23 + neg.toNat * 2 ^ 22 + kind * 2 ^ 20 + o.toNat)
/-- A word of the M format (R29). -/
def wordM (maj fn3 : Nat) (m : MFld) : Word :=
  BitVec.ofNat 32 (maj * 2 ^ 27 + m.d.val * 2 ^ 20 + m.sb.val * 2 ^ 14 + m.vo.val * 2 ^ 7 + fn3 * 2 ^ 4
    + m.ord.val * 4 + m.scope.val)
/-- The X prefix word (R35). -/
def wordX (x : XPre) : Word :=
  BitVec.ofNat 32 (31 * 2 ^ 27 + x.g.toNat * 2 ^ 26 + x.neg.toNat * 2 ^ 25 + x.pred.val * 2 ^ 21
    + x.xa.val * 2 ^ 12 + x.xb.val * 2 ^ 3 + x.rm.val)
/-- The Y prefix word (R35). -/
def wordY (y : YPre) : Word := BitVec.ofNat 32 (30 * 2 ^ 27 + y.e.val * 2 ^ 20 + y.imm.toNat)
/-- The prefix words, X before Y (R28). -/
def wordsP (p : Pfx) (w : Word) : List Word :=
  (match p.x with | none => [] | some x => [wordX x]) ++ (match p.y with | none => [] | some y => [wordY y]) ++ [w]

/-- The words of a unit, prefixes first; an event has none. -/
def encode : Instr → List Word
  | .nop => [wordA 0 0 0 0 0]
  | .exit => [wordA 0 0 0 0 1]
  | .trap n => [wordA 0 0 0 n.val 2]
  | .brk n => [wordA 0 0 0 n.val 3]
  | .rte => [wordA 0 0 0 0 4]
  | .yield => [wordA 0 0 0 0 5]
  | .ret => [wordA 0 0 0 0 6]
  | .winb m => [wordA 0 0 0 m.val 7]
  | .vsync => [wordA 0 0 0 0 8]
  | .sleep a => [wordA 0 0 a.val 0 9]
  | .qcfg q n => [wordA 0 (96 + q.val) 0 n.val 10]
  | .qrst a => [wordA 0 0 a.val 0 11]
  | .setfmt i => [wordA 0 0 (i.val / 128) (i.val % 128) 12]
  | .setmode i => [wordA 0 0 (i.val / 128) (i.val % 128) 13]
  | .bra o => [wordBR 0 0 o.toNat]
  | .bz a o => [wordBR a.val 1 o.toNat]
  | .bnz a o => [wordBR a.val 2 o.toNat]
  | .bltz a o => [wordBR a.val 3 o.toNat]
  | .bgez a o => [wordBR a.val 4 o.toNat]
  | .call f o => [wordBR f.val 5 o.toNat]
  | .calli a f => [wordBR a.val 6 f.val]
  | .jmpi a => [wordBR a.val 7 0]
  | .vbr p neg o => [wordVB p.val neg 0 o]
  | .vbrall p neg o => [wordVB p.val neg 1 o]
  | .vbrany p neg o => [wordVB p.val neg 2 o]
  | .vjoin o => [wordVB 0 false 3 o]
  | .sadd d a b => [wordA 3 d.val a.val b.val 0]
  | .ssub d a b => [wordA 3 d.val a.val b.val 1]
  | .smul d a b => [wordA 3 d.val a.val b.val 2]
  | .smulh d a b => [wordA 3 d.val a.val b.val 3]
  | .smulhn d a b => [wordA 3 d.val a.val b.val 4]
  | .sdiv d a b => [wordA 3 d.val a.val b.val 5]
  | .sdivn d a b => [wordA 3 d.val a.val b.val 6]
  | .srem d a b => [wordA 3 d.val a.val b.val 7]
  | .sremn d a b => [wordA 3 d.val a.val b.val 8]
  | .sand d a b => [wordA 3 d.val a.val b.val 9]
  | .sor d a b => [wordA 3 d.val a.val b.val 10]
  | .sxor d a b => [wordA 3 d.val a.val b.val 11]
  | .sandn d a b => [wordA 3 d.val a.val b.val 12]
  | .sshl d a b => [wordA 3 d.val a.val b.val 13]
  | .sshr d a b => [wordA 3 d.val a.val b.val 14]
  | .ssra d a b => [wordA 3 d.val a.val b.val 15]
  | .srol d a b => [wordA 3 d.val a.val b.val 16]
  | .smin d a b => [wordA 3 d.val a.val b.val 17]
  | .smax d a b => [wordA 3 d.val a.val b.val 18]
  | .sminn d a b => [wordA 3 d.val a.val b.val 19]
  | .smaxn d a b => [wordA 3 d.val a.val b.val 20]
  | .sceq d a b => [wordA 3 d.val a.val b.val 21]
  | .scne d a b => [wordA 3 d.val a.val b.val 22]
  | .sclt d a b => [wordA 3 d.val a.val b.val 23]
  | .scle d a b => [wordA 3 d.val a.val b.val 24]
  | .scltn d a b => [wordA 3 d.val a.val b.val 25]
  | .sclen d a b => [wordA 3 d.val a.val b.val 26]
  | .ssel d a b none => [wordA 3 d.val a.val b.val 27]
  | .ssel d a b (some e) => [wordY { e := vfld e.val, imm := 0 }, wordA 3 d.val a.val b.val 27]
  | .saddi d a i => [wordI 4 d.val a.val 0 i]
  | .sandi d a i => [wordI 4 d.val a.val 1 i]
  | .sori d a i => [wordI 4 d.val a.val 2 i]
  | .sxori d a i => [wordI 4 d.val a.val 3 i]
  | .sshli d a i => [wordI 4 d.val a.val 4 i]
  | .sshri d a i => [wordI 4 d.val a.val 5 i]
  | .ssrai d a i => [wordI 4 d.val a.val 6 i]
  | .sclti d a i => [wordI 4 d.val a.val 7 i]
  | .sli d i => [wordU 5 d.val i]
  | .slih d i => [wordU 6 d.val i]
  | .sadpc d i => [wordU 7 d.val i]
  | .mfs d r => [wordA 8 d.val r.val 0 0]
  | .mts r a => [wordA 8 r.val a.val 0 1]
  | .sext d a b => [wordA 8 d.val a.val b.val 2]
  | .sins d a b => [wordA 8 d.val a.val b.val 3]
  | .spopc d a => [wordA 8 d.val a.val 0 4]
  | .sclz d a => [wordA 8 d.val a.val 0 5]
  | .sctz d a => [wordA 8 d.val a.val 0 6]
  | .sbrev d a => [wordA 8 d.val a.val 0 7]
  | .sfirst d a => [wordA 8 d.val a.val 0 8]
  | .sballot d a => [wordA 8 d.val a.val 0 9]
  | .smask d a => [wordA 8 d.val a.val 0 10]
  | .vadd x d a b => wordsP x (wordA 9 d.val a.val b.val 0)
  | .vsub x d a b => wordsP x (wordA 9 d.val a.val b.val 1)
  | .vmul x d a b => wordsP x (wordA 9 d.val a.val b.val 2)
  | .vmulh x d a b => wordsP x (wordA 9 d.val a.val b.val 3)
  | .vmulhn x d a b => wordsP x (wordA 9 d.val a.val b.val 4)
  | .vmad x d a b => wordsP x (wordA 9 d.val a.val b.val 5)
  | .vdiv x d a b => wordsP x (wordA 9 d.val a.val b.val 6)
  | .vdivn x d a b => wordsP x (wordA 9 d.val a.val b.val 7)
  | .vrem x d a b => wordsP x (wordA 9 d.val a.val b.val 8)
  | .vremn x d a b => wordsP x (wordA 9 d.val a.val b.val 9)
  | .vmin x d a b => wordsP x (wordA 9 d.val a.val b.val 10)
  | .vmax x d a b => wordsP x (wordA 9 d.val a.val b.val 11)
  | .vminn x d a b => wordsP x (wordA 9 d.val a.val b.val 12)
  | .vmaxn x d a b => wordsP x (wordA 9 d.val a.val b.val 13)
  | .vabs x d a => wordsP x (wordA 9 d.val a.val 0 14)
  | .vand x d a b => wordsP x (wordA 9 d.val a.val b.val 15)
  | .vor x d a b => wordsP x (wordA 9 d.val a.val b.val 16)
  | .vxor x d a b => wordsP x (wordA 9 d.val a.val b.val 17)
  | .vandn x d a b => wordsP x (wordA 9 d.val a.val b.val 18)
  | .vshl x d a b => wordsP x (wordA 9 d.val a.val b.val 19)
  | .vshr x d a b => wordsP x (wordA 9 d.val a.val b.val 20)
  | .vsra x d a b => wordsP x (wordA 9 d.val a.val b.val 21)
  | .vrol x d a b => wordsP x (wordA 9 d.val a.val b.val 22)
  | .vfsh x d a b => wordsP x (wordA 9 d.val a.val b.val 23)
  | .vpopc x d a => wordsP x (wordA 9 d.val a.val 0 24)
  | .vclz x d a => wordsP x (wordA 9 d.val a.val 0 25)
  | .vbrev x d a => wordsP x (wordA 9 d.val a.val 0 26)
  | .vbfe x d a b => wordsP x (wordA 9 d.val a.val b.val 27)
  | .vbfi x d a b => wordsP x (wordA 9 d.val a.val b.val 28)
  | .vclmul x d a b => wordsP x (wordA 9 d.val a.val b.val 29)
  | .vclmulh x d a b => wordsP x (wordA 9 d.val a.val b.val 30)
  | .vsadd x d a b => wordsP x (wordA 9 d.val a.val b.val 31)
  | .vssub x d a b => wordsP x (wordA 9 d.val a.val b.val 32)
  | .vadd64 x d a b => wordsP x (wordA 9 d.val a.val b.val 33)
  | .vsub64 x d a b => wordsP x (wordA 9 d.val a.val b.val 34)
  | .vmov x d a => wordsP x (wordA 9 d.val a.val 0 35)
  | .vdot4 x d a b => wordsP x (wordA 9 d.val a.val b.val 36)
  | .vdot4n x d a b => wordsP x (wordA 9 d.val a.val b.val 37)
  | .vaddi x d a i => wordsP x (wordI 10 d.val a.val 0 i)
  | .vandi x d a i => wordsP x (wordI 10 d.val a.val 1 i)
  | .vori x d a i => wordsP x (wordI 10 d.val a.val 2 i)
  | .vxori x d a i => wordsP x (wordI 10 d.val a.val 3 i)
  | .vshli x d a i => wordsP x (wordI 10 d.val a.val 4 i)
  | .vshri x d a i => wordsP x (wordI 10 d.val a.val 5 i)
  | .vsrai x d a i => wordsP x (wordI 10 d.val a.val 6 i)
  | .vmuli x d a i => wordsP x (wordI 10 d.val a.val 7 i)
  | .fadd x d a b => wordsP x (wordA 11 d.val a.val b.val 0)
  | .fsub x d a b => wordsP x (wordA 11 d.val a.val b.val 1)
  | .fmul x d a b => wordsP x (wordA 11 d.val a.val b.val 2)
  | .ffma x d a b => wordsP x (wordA 11 d.val a.val b.val 3)
  | .ffms x d a b => wordsP x (wordA 11 d.val a.val b.val 4)
  | .fnma x d a b => wordsP x (wordA 11 d.val a.val b.val 5)
  | .fmin x d a b => wordsP x (wordA 11 d.val a.val b.val 6)
  | .fmax x d a b => wordsP x (wordA 11 d.val a.val b.val 7)
  | .fminm x d a b => wordsP x (wordA 11 d.val a.val b.val 8)
  | .fmaxm x d a b => wordsP x (wordA 11 d.val a.val b.val 9)
  | .fabs x d a => wordsP x (wordA 11 d.val a.val 0 10)
  | .fneg x d a => wordsP x (wordA 11 d.val a.val 0 11)
  | .fcpys x d a b => wordsP x (wordA 11 d.val a.val b.val 12)
  | .fdot2 x d a b => wordsP x (wordA 11 d.val a.val b.val 13)
  | .hadd2 x d a b => wordsP x (wordA 11 d.val a.val b.val 14)
  | .hmul2 x d a b => wordsP x (wordA 11 d.val a.val b.val 15)
  | .hfma2 x d a b => wordsP x (wordA 11 d.val a.val b.val 16)
  | .fround x d a => wordsP x (wordA 11 d.val a.val 0 17)
  | .fldexp x d a b => wordsP x (wordA 11 d.val a.val b.val 18)
  | .fgetexp x d a => wordsP x (wordA 11 d.val a.val 0 19)
  | .vceq x d a b => wordsP x (wordA 12 d.val a.val b.val 0)
  | .vcne x d a b => wordsP x (wordA 12 d.val a.val b.val 1)
  | .vclt x d a b => wordsP x (wordA 12 d.val a.val b.val 2)
  | .vcle x d a b => wordsP x (wordA 12 d.val a.val b.val 3)
  | .vcltn x d a b => wordsP x (wordA 12 d.val a.val b.val 4)
  | .vclen x d a b => wordsP x (wordA 12 d.val a.val b.val 5)
  | .fceq x d a b => wordsP x (wordA 12 d.val a.val b.val 6)
  | .fcne x d a b => wordsP x (wordA 12 d.val a.val b.val 7)
  | .fclt x d a b => wordsP x (wordA 12 d.val a.val b.val 8)
  | .fcle x d a b => wordsP x (wordA 12 d.val a.val b.val 9)
  | .fcun x d a b => wordsP x (wordA 12 d.val a.val b.val 10)
  | .fcls x d a b => wordsP x (wordA 12 d.val a.val b.val 11)
  | .pand x d a b => wordsP x (wordA 12 d.val a.val b.val 12)
  | .por x d a b => wordsP x (wordA 12 d.val a.val b.val 13)
  | .pxor x d a b => wordsP x (wordA 12 d.val a.val b.val 14)
  | .pandn x d a b => wordsP x (wordA 12 d.val a.val b.val 15)
  | .pnot x d a => wordsP x (wordA 12 d.val a.val 0 16)
  | .vmrg x d a b => wordsP x (wordA 12 d.val a.val b.val 17)
  | .vperm x d a b => wordsP x (wordA 13 d.val a.val b.val 0)
  | .vlane x d a b => wordsP x (wordA 13 d.val a.val b.val 1)
  | .vredadd x d a => wordsP x (wordA 13 d.val a.val 0 2)
  | .vredmin x d a => wordsP x (wordA 13 d.val a.val 0 3)
  | .vredmax x d a => wordsP x (wordA 13 d.val a.val 0 4)
  | .vredminn x d a => wordsP x (wordA 13 d.val a.val 0 5)
  | .vredmaxn x d a => wordsP x (wordA 13 d.val a.val 0 6)
  | .vredand x d a => wordsP x (wordA 13 d.val a.val 0 7)
  | .vredor x d a => wordsP x (wordA 13 d.val a.val 0 8)
  | .vredxor x d a => wordsP x (wordA 13 d.val a.val 0 9)
  | .fredadd x d a => wordsP x (wordA 13 d.val a.val 0 10)
  | .fredmin x d a => wordsP x (wordA 13 d.val a.val 0 11)
  | .fredmax x d a => wordsP x (wordA 13 d.val a.val 0 12)
  | .vscan x d a => wordsP x (wordA 13 d.val a.val 0 13)
  | .vscanx x d a => wordsP x (wordA 13 d.val a.val 0 14)
  | .fscan x d a => wordsP x (wordA 13 d.val a.val 0 15)
  | .vcompact x d a => wordsP x (wordA 13 d.val a.val 0 16)
  | .vexpand x d a => wordsP x (wordA 13 d.val a.val 0 17)
  | .vmatch x d a => wordsP x (wordA 13 d.val a.val 0 18)
  | .frcp x d a => wordsP x (wordA 14 d.val a.val 0 0)
  | .frsq x d a => wordsP x (wordA 14 d.val a.val 0 1)
  | .fsqrt x d a => wordsP x (wordA 14 d.val a.val 0 2)
  | .fdiv x d a b => wordsP x (wordA 14 d.val a.val b.val 3)
  | .fexp2 x d a => wordsP x (wordA 14 d.val a.val 0 4)
  | .flog2 x d a => wordsP x (wordA 14 d.val a.val 0 5)
  | .fsin x d a => wordsP x (wordA 14 d.val a.val 0 6)
  | .fcos x d a => wordsP x (wordA 14 d.val a.val 0 7)
  | .ftanh x d a => wordsP x (wordA 14 d.val a.val 0 8)
  | .fsig x d a => wordsP x (wordA 14 d.val a.val 0 9)
  | .ferf x d a => wordsP x (wordA 14 d.val a.val 0 10)
  | .cvtfi x d a => wordsP x (wordA 15 d.val a.val 0 0)
  | .cvtfn x d a => wordsP x (wordA 15 d.val a.val 0 1)
  | .cvtif x d a => wordsP x (wordA 15 d.val a.val 0 2)
  | .cvtnf x d a => wordsP x (wordA 15 d.val a.val 0 3)
  | .cvtfh x d a h => wordsP x (wordA 15 d.val a.val h.val 4)
  | .cvthf x d a h => wordsP x (wordA 15 d.val a.val h.val 5)
  | .cvtf8 x d a c => wordsP x (wordA 15 d.val a.val c.val 6)
  | .cvt8f x d a c => wordsP x (wordA 15 d.val a.val c.val 7)
  | .fpack4 x d a c => wordsP x (wordA 15 d.val a.val c.val 8)
  | .funpk4 x d a c => wordsP x (wordA 15 d.val a.val c.val 9)
  | .mxscl x d a => wordsP x (wordA 15 d.val a.val 0 10)
  | .mxq x d a b => wordsP x (wordA 15 d.val a.val b.val 11)
  | .mxdq x d a b => wordsP x (wordA 15 d.val a.val b.val 12)
  | .srseed x a => wordsP x (wordA 15 0 a.val 0 13)
  | .ldI8 x m => wordsP x (wordM 16 0 m)
  | .ldN8 x m => wordsP x (wordM 16 1 m)
  | .ldI16 x m => wordsP x (wordM 16 2 m)
  | .ldN16 x m => wordsP x (wordM 16 3 m)
  | .ldB32 x m => wordsP x (wordM 16 4 m)
  | .ldB64 x m => wordsP x (wordM 16 5 m)
  | .ldB128 x m => wordsP x (wordM 16 6 m)
  | .ldm x m => wordsP x (wordM 16 7 m)
  | .stB8 x m => wordsP x (wordM 17 0 m)
  | .stB16 x m => wordsP x (wordM 17 1 m)
  | .stB32 x m => wordsP x (wordM 17 2 m)
  | .stB64 x m => wordsP x (wordM 17 3 m)
  | .stB128 x m => wordsP x (wordM 17 4 m)
  | .stm x m => wordsP x (wordM 17 5 m)
  | .sta x m => wordsP x (wordM 17 6 m)
  | .sta64 x m => wordsP x (wordM 17 7 m)
  | .atomAdd x d a b scope => wordsP x (wordA 18 d.val a.val b.val (0 * 4 + scope.val))
  | .atomSub x d a b scope => wordsP x (wordA 18 d.val a.val b.val (1 * 4 + scope.val))
  | .atomMin x d a b scope => wordsP x (wordA 18 d.val a.val b.val (2 * 4 + scope.val))
  | .atomMax x d a b scope => wordsP x (wordA 18 d.val a.val b.val (3 * 4 + scope.val))
  | .atomMinn x d a b scope => wordsP x (wordA 18 d.val a.val b.val (4 * 4 + scope.val))
  | .atomMaxn x d a b scope => wordsP x (wordA 18 d.val a.val b.val (5 * 4 + scope.val))
  | .atomAnd x d a b scope => wordsP x (wordA 18 d.val a.val b.val (6 * 4 + scope.val))
  | .atomOr x d a b scope => wordsP x (wordA 18 d.val a.val b.val (7 * 4 + scope.val))
  | .atomXor x d a b scope => wordsP x (wordA 18 d.val a.val b.val (8 * 4 + scope.val))
  | .atomXchg x d a b scope => wordsP x (wordA 18 d.val a.val b.val (9 * 4 + scope.val))
  | .atomCas x d a b scope => wordsP x (wordA 18 d.val a.val b.val (10 * 4 + scope.val))
  | .atomFadd x d a b scope => wordsP x (wordA 18 d.val a.val b.val (11 * 4 + scope.val))
  | .atomFmin x d a b scope => wordsP x (wordA 18 d.val a.val b.val (12 * 4 + scope.val))
  | .atomFmax x d a b scope => wordsP x (wordA 18 d.val a.val b.val (13 * 4 + scope.val))
  | .atomBfadd2 x d a b scope => wordsP x (wordA 18 d.val a.val b.val (14 * 4 + scope.val))
  | .atomIncw x d a b scope => wordsP x (wordA 18 d.val a.val b.val (15 * 4 + scope.val))
  | .redAdd x agg a b scope => wordsP x (wordA 19 (if agg then 1 else 0) a.val b.val (0 * 4 + scope.val))
  | .redSub x agg a b scope => wordsP x (wordA 19 (if agg then 1 else 0) a.val b.val (1 * 4 + scope.val))
  | .redMin x agg a b scope => wordsP x (wordA 19 (if agg then 1 else 0) a.val b.val (2 * 4 + scope.val))
  | .redMax x agg a b scope => wordsP x (wordA 19 (if agg then 1 else 0) a.val b.val (3 * 4 + scope.val))
  | .redMinn x agg a b scope => wordsP x (wordA 19 (if agg then 1 else 0) a.val b.val (4 * 4 + scope.val))
  | .redMaxn x agg a b scope => wordsP x (wordA 19 (if agg then 1 else 0) a.val b.val (5 * 4 + scope.val))
  | .redAnd x agg a b scope => wordsP x (wordA 19 (if agg then 1 else 0) a.val b.val (6 * 4 + scope.val))
  | .redOr x agg a b scope => wordsP x (wordA 19 (if agg then 1 else 0) a.val b.val (7 * 4 + scope.val))
  | .redXor x agg a b scope => wordsP x (wordA 19 (if agg then 1 else 0) a.val b.val (8 * 4 + scope.val))
  | .redFadd x agg a b scope => wordsP x (wordA 19 (if agg then 1 else 0) a.val b.val (9 * 4 + scope.val))
  | .redFmin x agg a b scope => wordsP x (wordA 19 (if agg then 1 else 0) a.val b.val (10 * 4 + scope.val))
  | .redFmax x agg a b scope => wordsP x (wordA 19 (if agg then 1 else 0) a.val b.val (11 * 4 + scope.val))
  | .redBfadd2 x agg a b scope => wordsP x (wordA 19 (if agg then 1 else 0) a.val b.val (12 * 4 + scope.val))
  | .ldwB32 x m => wordsP x (wordM 20 0 m)
  | .ldwB64 x m => wordsP x (wordM 20 1 m)
  | .ldwB128 x m => wordsP x (wordM 20 2 m)
  | .stwB32 x m => wordsP x (wordM 20 3 m)
  | .stwB64 x m => wordsP x (wordM 20 4 m)
  | .stwB128 x m => wordsP x (wordM 20 5 m)
  | .wadd x m => wordsP x (wordM 20 6 m)
  | .wcas x m => wordsP x (wordM 20 7 m)
  | .ldo x d a b => wordsP x (wordA 21 d.val a.val b.val 0)
  | .sto x d a b => wordsP x (wordA 21 d.val a.val b.val 1)
  | .ldob x d a b => wordsP x (wordA 21 d.val a.val b.val 2)
  | .stob x d a b => wordsP x (wordA 21 d.val a.val b.val 3)
  | .oinfo x d a n => wordsP x (wordA 21 d.val a.val n.val 4)
  | .oprobe x d a b => wordsP x (wordA 21 d.val a.val b.val 5)
  | .fence kind scope => [wordA 22 0 0 (kind.val * 4 + scope.val) 0]
  | .pfence p t => [wordA 22 0 p.val t.val 1]
  | .mwait y d a b => [wordY y, wordA 22 d.val a.val b.val 2]
  | .fla => [wordA 22 0 0 0 3]
  | .cinv a => [wordA 22 0 a.val 0 4]
  | .cwb a => [wordA 22 0 a.val 0 5]
  | .crsz d a => [wordA 22 d.val a.val 0 6]
  | .pref a l => [wordA 22 0 a.val l.val 7]
  | .cpy d a n => [wordA 23 d.val a.val n.val 0]
  | .cpyb d a n => [wordA 23 d.val a.val n.val 1]
  | .cpyt d a n => [wordA 23 d.val a.val n.val 2]
  | .cpyx d a n => [wordA 23 d.val a.val n.val 3]
  | .gath d a n => [wordA 23 d.val a.val n.val 4]
  | .scat d a n => [wordA 23 d.val a.val n.val 5]
  | .scata d a n => [wordA 23 d.val a.val n.val 6]
  | .mma d a => [wordA 24 d.val a.val 0 0]
  | .mxloop d a => [wordA 24 d.val a.val 0 1]
  | .mxzero d a => [wordA 24 d.val a.val 0 2]
  | .tld d a => [wordA 24 d.val a.val 0 3]
  | .tst d a => [wordA 24 d.val a.val 0 4]
  | .mxcfg a => [wordA 24 0 a.val 0 5]
  | .mxrel d a => [wordA 24 d.val a.val 0 6]
  | .balloc d a b => [wordA 25 d.val a.val b.val 0]
  | .bfree a => [wordA 25 0 a.val 0 1]
  | .barv d a => [wordA 25 d.val a.val 0 2]
  | .barw a b => [wordA 25 0 a.val b.val 3]
  | .barx a b => [wordA 25 0 a.val b.val 4]
  | .bar => [wordA 25 0 0 0 5]
  | .barPx => [wordA 25 0 0 1 5]
  | .semaAdd a b => [wordA 25 0 a.val b.val 6]
  | .semaSet a b => [wordA 25 1 a.val b.val 6]
  | .semw a b => [wordA 25 0 a.val b.val 7]
  | .tlrd d a => [wordA 25 d.val a.val 0 8]
  | .tlwait a b => [wordA 25 0 a.val b.val 9]
  | .waitk h l => [wordA 25 0 h.val l.val 10]
  | .waitr p a => [wordA 25 p.val a.val 0 11]
  | .spawn d a b => [wordA 25 d.val a.val b.val 12]
  | .sendh d => [wordA 26 d.val 0 0 0]
  | .recvq d a b => [wordA 26 d.val a.val b.val 1]
  | .coll d a => [wordA 26 d.val a.val 0 2]
  | .peerq d a q => [wordA 26 d.val a.val q.val 3]
  | .launch d a => [wordA 27 d.val a.val 0 0]
  | .preempt d a b => [wordA 27 d.val a.val b.val 1]
  | .resume d a b => [wordA 27 d.val a.val b.val 2]
  | .cfgrd d a => [wordA 27 d.val a.val 0 3]
  | .cfgwr a b => [wordA 27 0 a.val b.val 4]
  | .wait ld st tl mx => [BitVec.ofNat 32 (28 * 2 ^ 27 + ld.val * 2 ^ 22 + st.val * 2 ^ 17 + tl.val * 2 ^ 12 + mx.val * 2 ^ 7)]
  | .doorbellWrite _ _ _ => []
  | .launchRecordTake _ => []
  | .lqstatResume _ _ => []
  | .hostWindowRead _ _ _ => []
  | .hostWindowWrite _ _ _ => []
  | .placeWorkgroup _ _ _ _ => []
  | .eprioAge _ _ => []
  | .evictWorkgroup _ => []
  | .saveBegin _ => []
  | .saveComplete _ => []
  | .resumeWorkgroup _ _ _ _ => []
  | .resumeComplete _ => []
  | .gridComplete _ => []
  | .regroupBinTimer _ _ => []
  | .regroupStoreRoom _ => []
  | .clusterIdleGate _ => []
  | .clusterUngate _ => []
  | .rulingClassHoldEnd _ => []
  | .classWaitRaise _ => []
  | .urgentCandidate _ => []
  | .yieldEnd _ => []
  | .sleepWake _ => []
  | .spillTransferDone _ => []
  | .trapEnter _ => []
  | .handlerWatchdog _ => []
  | .contextHaltDeadline _ => []
  | .contextFaultReport _ => []
  | .reportVectorTimer _ => []
  | .loadReturn _ _ => []
  | .storePerformed _ _ => []
  | .waitingTableRetry _ _ => []
  | .walkComplete _ _ _ => []
  | .serviceRecordPost _ => []
  | .osvcServiceDone _ _ _ => []
  | .osvcServiceFail _ _ _ => []
  | .publishRecord _ _ => []
  | .publishMove _ _ _ => []
  | .publishRelease _ _ _ => []
  | .publishEntries _ _ _ _ => []
  | .publishGranules _ _ _ => []
  | .publishDone => []
  | .remoteAccessArrive _ => []
  | .copyStart _ _ => []
  | .aonVersionAcquire _ _ _ => []
  | .verPassEnd _ _ _ => []
  | .copySliceComplete _ _ _ => []
  | .barvReleaseDone _ _ => []
  | .copyComplete _ _ => []
  | .timelineEntryWrite _ _ => []
  | .matrixStepStart _ => []
  | .matrixStepComplete _ => []
  | .tileTransferDone _ _ => []
  | .homeGets _ _ => []
  | .homeGetm _ _ => []
  | .homePutm _ _ => []
  | .homePute _ _ => []
  | .homeWritePerform _ _ _ => []
  | .snoopInv _ _ => []
  | .snoopRecToS _ _ => []
  | .snoopRecToI _ _ => []
  | .snoopAnswer _ _ => []
  | .grantArrive _ _ => []
  | .putAck _ _ => []
  | .snoopResend _ _ => []
  | .atomicPerform _ _ _ => []
  | .replayRequest _ _ => []
  | .monitorTimeout _ => []
  | .monitorStatusDeliver _ => []
  | .cumulusAgeExpire _ _ => []
  | .cumulusPacketApply _ _ => []
  | .cumulusRejectLog => []
  | .egressDeliver _ => []
  | .rrtWrite _ _ _ => []
  | .strandFail _ _ _ => []
  | .flitReceive _ _ _ _ => []
  | .flitAck _ _ _ => []
  | .relayForward _ _ _ => []
  | .strandGate _ _ => []
  | .strandWakeDone _ _ => []
  | .heartbeatSend _ => []
  | .heartbeatMiss _ _ => []
  | .deadDieVerdict _ => []
  | .dieHaltDeadline _ => []
  | .dieReportPost _ => []
  | .wavelengthFail _ _ _ => []
  | .laneRemapDone _ _ => []
  | .codewordReceive _ _ _ _ => []
  | .tagGroupVerify _ _ => []
  | .portSessionEstablish _ _ _ => []
  | .sessionRekey _ => []
  | .portEnable _ _ => []
  | .portDisable _ _ => []
  | .portNarrow _ _ => []
  | .portWake _ _ => []
  | .portNarrowDone _ => []
  | .portWakeDone _ => []
  | .portAutoWake _ => []
  | .farEndNarrow _ _ => []
  | .farEndWake _ _ => []
  | .lageUpdate _ _ _ _ _ _ => []
  | .timeCounterSend _ => []
  | .timeCounterReceive _ _ => []
  | .fabricPacketReceive _ _ => []
  | .fabricRetryTimeout _ _ _ => []
  | .frgenWrite _ => []
  | .reachabilityRereadDone => []
  | .sendQueueDepart _ => []
  | .messageDeliver _ => []
  | .collHandoff _ _ => []
  | .collComplete _ _ _ => []
  | .collAbandon _ _ _ => []
  | .coldReset => []
  | .bootStepDone _ _ => []
  | .deviceReset => []
  | .functionReset _ => []
  | .contextDisable _ => []
  | .attestationRequest _ => []
  | .attestationDone _ => []
  | .ownClaim _ _ => []
  | .ownRelease _ => []
  | .ownHeartbeat _ => []
  | .ownerTimeout => []
  | .pcieLinkDown _ => []
  | .stratusTakeover => []
  | .powerEstimate _ _ => []
  | .lvEnter _ => []
  | .lvExit _ => []
  | .lvTransitionDone _ => []
  | .powerCapStep _ _ _ _ => []
  | .phyLaser _ _ _ => []
  | .phyLock _ _ => []
  | .phyTrain _ _ => []
  | .phyLaserOnDone _ _ _ => []
  | .phyLockDone _ _ _ => []
  | .phyTrainDone _ _ _ _ _ => []
  | .lageFlashStore => []
  | .configRegisterWrite _ _ _ => []
  | .illegalWord _ => []
  | .fetchFault => []
  | .contextEnable _ _ => []
  | .pcieLinkUp _ _ => []
  | .clusterPowered _ => []
  | .resultWriteBack _ => []
  | .strandGatingDisable _ => []

end Sys2Proof
end

