-- ==== Sys2Proof/Machine/Maps.lean ====
section
/-! DEFINITION. The plain data helpers every table of the machine is read and written with: number-keyed maps with
strictly rising keys, sparse byte memory in canonical form, lanes of a vector register, little-endian words. -/

namespace Sys2Proof.Machine

/-! ### Tables keyed by number -/

/-- The entry at key `n`. -/
def mapGet? {α : Type} : NMap α → Nat → Option α
  | [], _ => none
  | (k, v) :: r, n => if k = n then some v else mapGet? r n

/-- The entry at key `n`, or the table's default. -/
def mapGet {α : Type} (m : NMap α) (n : Nat) (d : α) : α := (mapGet? m n).getD d

/-- Put `v` at key `n`, keys kept strictly rising. -/
def mapSet {α : Type} : NMap α → Nat → α → NMap α
  | [], n, v => [(n, v)]
  | (k, w) :: r, n, v =>
    if n < k then (n, v) :: (k, w) :: r
    else if n = k then (n, v) :: r
    else (k, w) :: mapSet r n v

/-- Remove key `n`. -/
def mapDel {α : Type} : NMap α → Nat → NMap α
  | [], _ => []
  | (k, w) :: r, n => if k = n then r else (k, w) :: mapDel r n

/-- Change the entry at key `n`, if there is one. -/
def mapMod {α : Type} (m : NMap α) (n : Nat) (f : α → α) : NMap α :=
  match mapGet? m n with
  | some v => mapSet m n (f v)
  | none => m

/-- Change every entry. -/
def mapAll {α : Type} (m : NMap α) (f : Nat → α → α) : NMap α := m.map fun kv => (kv.1, f kv.1 kv.2)

/-- The keys whose entry meets a test, in rising order. -/
def mapKeys {α : Type} (m : NMap α) (f : Nat → α → Bool) : List Nat :=
  (m.filter fun kv => f kv.1 kv.2).map Prod.fst

/-! ### Sparse bytes -/

/-- Bytes by address: strictly rising addresses, no entry equal to 0, the value an unlisted address reads as. -/
abbrev Mem := List Host.Cell

/-- Read one byte; an unlisted address reads 0. -/
def memRead : Mem → Nat → Byte
  | [], _ => 0
  | (k, v) :: r, a => if k = a then v else memRead r a

/-- Write one byte, the canonical form kept: writing 0 removes the entry. -/
def memWrite : Mem → Nat → Byte → Mem
  | [], a, b => if b = 0 then [] else [(a, b)]
  | (k, v) :: r, a, b =>
    if a < k then (if b = 0 then (k, v) :: r else (a, b) :: (k, v) :: r)
    else if a = k then (if b = 0 then r else (a, b) :: r)
    else (k, v) :: memWrite r a b

/-- Every address of the list is above `lo`, addresses rise strictly and no byte is 0. -/
def memRising : Nat → Mem → Bool
  | _, [] => true
  | lo, (k, v) :: r => decide (lo ≤ k) && decide (v ≠ 0) && memRising (k + 1) r

/-- The canonical form of a sparse memory. -/
def memWf (m : Mem) : Bool := memRising 0 m

/-- The same form under the name by which it is spoken of elsewhere. -/
abbrev Memory.wf (m : Mem) : Bool := memWf m

/-- Write a list of bytes from an address up. -/
def memWriteBytes (m : Mem) (a : Nat) : List Byte → Mem
  | [] => m
  | b :: bs => memWriteBytes (memWrite m a b) (a + 1) bs

/-- `n` bytes from an address up. -/
def memReadBytes (m : Mem) (a n : Nat) : List Byte := (List.range n).map fun i => memRead m (a + i)

/-- Drop every byte at or above an address. -/
def memTrim (m : Mem) (a : Nat) : Mem := m.filter fun c => c.1 < a

/-! ### Little-endian numbers (R1) -/

/-- The number of a little-endian byte list. -/
def leNat : List Byte → Nat
  | [] => 0
  | b :: r => b.toNat + 256 * leNat r

/-- The `n` low bytes of a number, little-endian. -/
def leBytes : Nat → Nat → List Byte
  | 0, _ => []
  | n + 1, v => BitVec.ofNat 8 v :: leBytes n (v / 256)

/-- Bits [lo, lo + n) of a number. -/
def bitsOf (v lo n : Nat) : Nat := v / 2 ^ lo % 2 ^ n

/-- Whether bit `i` of a number is 1. -/
def bitOf (v i : Nat) : Bool := v / 2 ^ i % 2 == 1

/-- The number whose bit i is `f i`, for i below `n`. -/
def natOfBits (n : Nat) (f : Nat → Bool) : Nat :=
  (List.range n).foldr (fun i acc => acc + (if f i then 2 ^ i else 0)) 0

/-- A 64-bit mask from a test on lanes. -/
def maskOf (f : Nat → Bool) : DWord := BitVec.ofNat 64 (natOfBits 64 f)

/-- Lane `i` of a 64-bit mask. -/
def laneBit (m : DWord) (i : Nat) : Bool := m.getLsbD i

/-- The two's-complement reading of the low `n` bits of a number. -/
def sextNat (n v : Nat) : Int :=
  let w := v % 2 ^ n
  if w < 2 ^ (n - 1) then (w : Int) else (w : Int) - 2 ^ n

/-! ### Lanes -/

/-- The lanes of one register. -/
def laneIdx : List Nat := List.range 64

/-- Lane `i`; a missing lane reads zero. -/
def laneGet (l : Lanes) (i : Nat) : Word := l.getD i 0

/-- A register from its lanes. -/
def lanesOf (f : Nat → Word) : Lanes := laneIdx.map f

/-- The zero register. -/
def zeroLanes : Lanes := []

/-- Element `n` of a register list. -/
def regGet {w : Nat} (l : List (BitVec w)) (n : Nat) : BitVec w := l.getD n 0

/-- `n` zeros. -/
def zeros (w n : Nat) : List (BitVec w) := List.replicate n 0

end Sys2Proof.Machine
end

