-- ==== Sys2Proof/Machine/State.lean ====
section
/-! DEFINITION. The state of the machine, as plain data: every register, memory, table and queue the spec names, with
its value at reset. Where the spec states no reset value the value is zero (DESIGN CHOICE, LE 3). -/

namespace Sys2Proof.Machine

/-- Why a step stops the machine. -/
inductive Fault where
  /-- Raised by `step` once the device holds reset: both port dies are lost (R24) or the boot has failed for good
  (R402). Safe: nothing runs on a device that holds reset. -/
  | holdsReset
deriving DecidableEq, Repr

/-- Why an instruction has no meaning. -/
inductive Refusal where
  /-- Raised only by an arm of `exec` that no meaning has been written for. Safe: the model stops. -/
  | notModelled (mnemonic : String)
deriving DecidableEq, Repr

/-- Who issues next (R12): a resident group, by its key, or the Stratus core. -/
inductive Agent where
  | grp (k : Nat)
  | stratus
deriving DecidableEq, Repr

/-! ### Groups -/

/-- A return stack entry (R93, R100): return PC and frame ÷ 8. -/
structure RetEnt where
  pc : DWord
  frame : Nat
deriving DecidableEq, Repr

/-- A reconvergence stack entry (R93, R101): kind D or J, PC, EXM, FMT. -/
structure RecEnt where
  kindD : Bool
  pc : DWord
  exm : DWord
  fmt : DWord
deriving DecidableEq, Repr

/-- A queue entry: reserved at issue, filled at write-back (R96). -/
structure QEnt where
  lanes : Lanes
  filled : Bool
deriving DecidableEq, Repr

/-- Queue register qn (R96): its depth and its entries, oldest first. -/
structure QReg where
  depth : Nat := 0
  ents : List QEnt := []
deriving DecidableEq, Repr

/-- A register a result goes to. Vector registers are named by stack position, so that a moved window does not change
what an outstanding access targets (R90). -/
inductive Dst where
  | pos (p : Nat)
  | h (n : Nat)
  | s (n : Nat)
  | bank (n : Nat)
  | p (n : Nat)
  | none
deriving DecidableEq, Repr

/-- Where a byte of an access lies after translation. -/
inductive Place where
  /-- A device address. -/
  | da (a : Nat)
  /-- An offset into the workgroup's WGM. -/
  | wgm (o : Nat)
  /-- Out of shape under a guard: reads zero, writes nothing (R218). -/
  | gone
  /-- A byte of a remote object (R230): peer, its context and object, the offset. -/
  | remote (peer rctx ronum off : Nat)
deriving DecidableEq, Repr

/-- A trap with the values of its registers (R102, R103). -/
structure Trap where
  cause : Nat
  deferred : Bool := false
  a : DWord := 0
  pc : DWord := 0
  i : DWord := 0
  resume : DWord := 0
deriving DecidableEq, Repr

/-- A recorded deferred fault (R104): its trap, without the resume PC, and the registers the faulting access targets. -/
structure PFault where
  /-- Program order of the faulting access (its operation's name). -/
  id : Nat := 0
  /-- The unit of the faulting access: its earlier registers complete before the trap is taken (R193); 0 for none. -/
  unit : Nat := 0
  trap : Trap
  targets : List Dst
deriving DecidableEq, Repr

/-- The counter an operation is counted in (R198). -/
inductive Ctr where
  | ld | st | tl | mx | none
deriving DecidableEq, Repr

/-- What an outstanding operation does when it is performed. -/
inductive OpKind where
  /-- A load of `size` bytes a lane, `sx` sign-extended below 32 bits (R188, R206, R233, R234). -/
  | load (size : Nat) (sx : Bool)
  /-- A store (R188, R206, R233, R234). -/
  | store
  | wadd
  | wcas
  /-- An atomic returning the old value (R314). -/
  | atom (op : Nat)
  /-- A reduction (R314). -/
  | red (op : Nat)
  /-- An aggregated element until its Cumulus unit accepts it (R333). -/
  | agg (op : Nat) (wide : Bool)
  | launch
  | preempt
  | resume
  | crsz
  | cfgrd
  | cfgwr
  | sendh
  | recvq
  | tld
  | tst
  /-- A matrix unit (R287). -/
  | matrix
  /-- The read of `mwait` held in translation (R320). -/
  | mwait
  /-- The release of a `barv` (R269). -/
  | barvRel
  /-- A result written back after its latency only: oinfo, tlrd and the like. -/
  | value
deriving DecidableEq, Repr

/-- One lane's part of an access: the register offset it belongs to, the lane, its VA, its bytes' places and, for a
store or an atomic, its data bytes. -/
structure LaneAcc where
  reg : Nat := 0
  lane : Nat
  va : DWord
  places : List Place := []
  data : List Byte := []
  done : Bool := false
  /-- Coordinates of the element (R233, R234). -/
  co : List Int := []
  /-- A remote lane's request (R208), the bytes its response brought, and the fault it reported: cause, WHY, object. -/
  rid : Nat := 0
  resp : Option (List Byte) := none
  bad : Option (Nat × Nat × Nat) := none
  /-- The bytes of local objects it names, as object × 2^52 + storage offset: known before its frame is (R190). -/
  spots : List Nat := []
  /-- In a unit with remote lanes, the fault of this local lane: cause, TRAPA, TRAPI (R191). -/
  lfault : Option (Nat × DWord × DWord) := none
deriving DecidableEq, Repr

/-- What a parked or held operation waits for. -/
inductive Await where
  /-- Translated; nothing to wait for. -/
  | flight
  /-- Parked in the waiting table on a residency miss of (object, sub-tile), since a TNS (R194). -/
  | parked (obj sub va tns : Nat)
  /-- Held in translation: a fourth miss or a unit of major 21 (R194, R226). -/
  | held (obj sub va : Nat)
deriving DecidableEq, Repr

/-- An outstanding operation of a group (R198, R199), in issue order. -/
structure Op where
  id : Nat
  /-- The unit it belongs to: the id of its first operation (one waiting-table entry, R194). -/
  unit : Nat := 0
  pc : DWord := 0
  maj : Nat := 0
  fn : Nat := 0
  ctr : Ctr := .none
  kind : OpKind := .value
  /-- Bytes and alignment of a lane's access (R185). -/
  size : Nat := 4
  align : Nat := 1
  /-- Permission the access needs (R220), and whether it is a write. -/
  need : Nat := 0
  wr : Bool := false
  /-- Ordering (R189, R317): acquire, release, scope; cache use: 0 through the L1, 1 past it, 2 stream. -/
  acq : Bool := false
  rel : Bool := false
  scope : Nat := 0
  l1 : Nat := 0
  /-- ORD as encoded, and the D field (R197). -/
  ord : Nat := 0
  dnum : Nat := 0
  /-- Register number that `ldm` and `stm` report (R193). -/
  multi : Option Nat := none
  dst : List Dst := []
  accs : List LaneAcc := []
  /-- Registers kept in use (R195), and whether the data came from a queue (R197). -/
  keeps : List Dst := []
  dq : Bool := false
  wait : Await := .flight
  /-- It has waited for a service: those of a group are performed in their order (R196). -/
  parked : Bool := false
  /-- Its service ended: 1 translate again, 2 the service failed (R227). -/
  again : Nat := 0
  arg : List DWord := []
  result : DWord := 0
  performed : Bool := false
  done : Bool := false
deriving DecidableEq, Repr

/-- SPC (R94). -/
structure Spc where
  pos : Nat := 0
  dir : Bool := false
  stk : Nat := 0
  act : Bool := false
  /-- The spill engine's access is parked on a residency miss of (object, sub-tile). -/
  park : Option (Nat × Nat) := none
deriving DecidableEq, Repr

/-- A matrix unit in a group's queue (R287). -/
structure MxUnit where
  num : Nat
  op : Nat
  desc : List DWord
  pc : DWord
  /-- The matrix configuration read at issue. -/
  arg : DWord := 0
  /-- Steps started and steps completed. -/
  started : Nat := 0
  step : Nat := 0
  /-- The step that faulted: it and the later ones are not performed (R298). -/
  bad : Option Nat := none
  /-- The slot tags that the steps in progress found as they started, oldest first (R298, R302). -/
  tags : List Nat := []
deriving DecidableEq, Repr

/-- A group (R90-R109, R123-R128, R198): its registers, window, queues, masks, stacks, trap state, outstanding
operations and waits. The handler bank's registers are held with the group that holds the bank (R105). -/
structure Group where
  wg : Nat := 0
  idx : Nat := 0
  slot : Nat := 0
  ctx : Nat := 0
  pc : DWord := 0
  exm : DWord := allOnes
  mode : DWord := 1
  fmt : DWord := 0
  wb : Nat := 0
  low : Nat := 0
  high : Nat := 96
  n : Nat := 128
  vreg : NMap Lanes := []
  queues : List QReg := List.replicate 16 {}
  qtr : Nat := 0
  qwh : Nat := 0
  s : List DWord := List.replicate 64 0
  p : List DWord := List.replicate 16 0
  bank : List DWord := List.replicate 8 0
  h : NMap Lanes := []
  ret : List RetEnt := []
  retSp : Nat := 0
  recs : List RecEnt := []
  recSp : Nat := 0
  spc : Spc := {}
  trapc : DWord := 0
  trapa : DWord := 0
  trappc : DWord := 0
  trapi : DWord := 0
  handler : DWord := 0
  inH : Bool := false
  /-- When it entered the handler, and the name the next access took then. -/
  hTns : Nat := 0
  hId : Nat := 0
  bankWait : Option Trap := none
  bankOrder : Nat := 0
  faults : List PFault := []
  /-- A pending AGG and a pending PEER (R344). -/
  agg : Bool := false
  peerP : Bool := false
  ops : List Op := []
  park : Nat := 0
  woken : Bool := false
  /-- The waiting instruction's operands and, for sleep, its wake time (R74). -/
  parkArg : List DWord := []
  parkTns : Nat := 0
  /-- Cycles for which `yield` still holds the group back, that of its issue included (R111). -/
  yielding : Nat := 0
  urgent : Bool := false
  /-- Cycles its candidate has been ready without issuing (R82, R88), and those of them that it was its partition's first
  candidate, whatever its class (R86). -/
  streak : Nat := 0
  firstN : Nat := 0
  /-- PC of the unit issued last outside handler mode: an SPF of the transfer it caused names it (R103). -/
  upc : DWord := 0
  /-- The handler it is in was entered with cause DIE (R27). -/
  dieH : Bool := false
  mxc : DWord := 0
  nis : Nat := 0
  mtl : Nat := 0
  mxq : List MxUnit := []
  cpn : Nat := 0
  dirtyMask : Nat := 0
  wgid : DWord := 0
  lvc : List DWord := List.replicate 8 0
  prm : DWord := 0
  pb : Nat := 0
  spb : Nat := 0
  privu : Nat := 0
  /-- Monitor operand state of an armed mwait (R320): its status once delivered. -/
  monStatus : Option Nat := none
  iparked : Option (Nat × Nat) := none
  exiting : Bool := false
  /-- The `fla` at its PC has issued and waits (R339, R349). -/
  flaWait : Bool := false
  /-- WB at the issue of each access recorded in the image, whose register numbers count from it, and the access's name, which
orders it among the group's slices of copies (DEDUCED, LE 13). -/
  waitWb : List Nat := []
  waitId : List Nat := []
  halted : Bool := false
deriving DecidableEq, Repr

/-! ### Launch records, grids, workgroups -/

/-- A launch record's fields (R55). -/
structure LRec where
  entry : DWord := 0
  param : DWord := 0
  handler : DWord := 0
  allot : Nat := 4
  wgmw : Nat := 0
  privu : Nat := 0
  prio : Nat := 0
  qcls : Nat := 0
  ctx : Nat := 0
  nlev : Nat := 1
  tsrows : Nat := 0
  bslots : Nat := 0
  serial : Bool := false
  ctln : Nat := 0
  fcoord : Nat := 0
  cval : DWord := 0
  qd : List Nat := List.replicate 16 0
  /-- (EXT, DOM, SCP) of each level below NLEV. -/
  lev : List (Nat × Nat × Nat) := []
deriving DecidableEq, Repr

/-- A grid table entry (R60-R66): the record, who launched it, its place in the order of launches, the lowest workgroup
not yet placed, workgroups live, and the waiting state its unplaced workgroups share. -/
structure Grid where
  lrec : LRec := {}
  /-- Queue n, or 64 + the launching workgroup's key. -/
  src : Nat := 0
  taken : Nat := 0
  nextW : Nat := 0
  total : Nat := 0
  live : Nat := 0
  waitTns : Nat := 0
  eprio : Nat := 0
  /-- Groups spawned from the grid and not ended. -/
  spawned : Nat := 0
  /-- (cluster-level or die-level instance index, its cluster or die) once fixed (R56). -/
  confined : NMap Nat := []
  /-- Unplaced workgroups held off placement (R80): all or none, and the exceptions by WGID. -/
  heldAll : Bool := false
  heldX : List Nat := []
  /-- Workgroups from `nextW` on that were placed out of order. -/
  placed : List Nat := []
deriving DecidableEq, Repr

/-- States of a workgroup (R70). -/
inductive WgState where
  | waiting | resident | saving | swapped | resuming | exited
deriving DecidableEq, Repr

/-- A slice of a copy (R238-R254): who supplied it and with what, whether it has been handed to the engine, and how far
the engine has come with it. -/
structure CopySlice where
  grp : Nat
  fn : Nat
  tok : Nat
  pc : DWord
  desc : List DWord
  /-- Name of the unit in its group's program order: accesses named before it come first (R243). -/
  opId : Nat
  handed : Bool := false
  /-- AID of the barrier it names, as found when it was handed (R270). -/
  aid : Option Nat := none
  /-- Source bytes whose destination has been written, and those read after them. -/
  pos : Nat := 0
  stage : List Byte := []
  /-- The list entry at work: its index, X and Y (R248). -/
  ent : Option (Nat × Nat × Nat) := none
  /-- An all-or-nothing slice's destinations and version word as translated in its first step; whether the low bit of a
  remote version word is its own, and whether its last value is written (R250). -/
  dst : List Place := []
  vps : List Place := []
  vlow : Bool := false
  fin : Bool := false
  /-- The peers have been asked to translate its remote destinations (R250). -/
  asked : Bool := false
  /-- Version acquired by an all-or-nothing slice, or read at the start of a version-checked pass (R250, R251). -/
  ver : Option Nat := none
  passed : Bool := false
  /-- A remote read that the engine waits for with its VA, its data, and remote writes not yet acknowledged with theirs. -/
  rwait : Option Nat := none
  rva : Nat := 0
  rdata : Option (List Byte) := none
  racks : List (Nat × Nat) := []
  done : Bool := false
deriving DecidableEq, Repr

/-- A copy in progress of a workgroup (R241, R242, R252). -/
structure Copy where
  num : Nat
  slices : List CopySlice := []
  started : Bool := false
  /-- Its place in the order of starts, and the cluster of its engine (R242, R255). -/
  seq : Nat := 0
  clu : Nat := 0
  done : Bool := false
deriving DecidableEq, Repr

/-- A transaction barrier (R267, R268). -/
structure TxBar where
  /-- Its handle. -/
  reg : Nat
  phase : Nat := 0
  expa : Nat := 0
  pend : Nat := 0
  tx : Int := 0
  refs : Nat := 0
  aid : Nat := 0
deriving DecidableEq, Repr

/-- A workgroup (R63, R70, R74, R205, R258-R275, R279-R281). -/
structure Workgroup where
  grid : Nat := 0
  ctx : Nat := 0
  state : WgState := .waiting
  held : Bool := false
  core : Nat := 0
  ngrp : Nat := 1
  /-- Slot-lane base of the tile store (R281). -/
  base : Nat := 0
  allot : Nat := 4
  wgmw : Nat := 0
  tsrows : Nat := 0
  bslots : Nat := 0
  prio : Nat := 0
  eprio : Nat := 0
  qcls : Nat := 0
  wgid : DWord := 0
  /-- A spawned workgroup: its bin's entry, key and deposits (R75, R76). -/
  spawnKey : Option Nat := none
  entry : DWord := 0
  deps : List (List Word) := []
  waitTns : Nat := 0
  residentTns : Nat := 0
  /-- Chosen for eviction or by `preempt`, its save not begun (R68, R80). -/
  evict : Bool := false
  /-- `preempt` chose it: its save does not depend on the head of the waiting order (R80). -/
  preempted : Bool := false
  /-- The head of the waiting order, by grid, WGID and wait start, for which its eviction was last withheld and counted (R65). -/
  withheld : Option (Nat × Nat × Nat) := none
  ctl : Nat := 0
  tok : List Nat := List.replicate 8 0
  tokUsed : Nat := 0
  copies : List Copy := []
  wgm : Mem := []
  /-- Tile store cells, row × 512 + column (R279). -/
  tiles : NMap Word := []
  /-- B-store bytes, slot × 2^17 + offset: data from 0, scales from 65,536 (R280), and slot tags. -/
  bst : Mem := []
  btag : NMap Nat := []
  barArr : List Nat := []
  barPhase : Nat := 0
  bars : List TxBar := []
  semas : NMap Nat := []
  /-- `barv` releases outstanding: group key, operation and AID (R269); barriers allocated so far (R268). -/
  barvRel : List (Nat × Nat × Nat) := []
  acnt : Nat := 0
  /-- Save slot in use, SAVETNS, completions applied to the image (R74). -/
  saveSlot : Option Nat := none
  saveTns : Nat := 0
  cplc : Nat := 0
  /-- Cluster of the last placement. -/
  clu : Nat := 0
  /-- Copy units issued by its groups that have ended, by index (R275). -/
  gone : NMap Nat := []
deriving DecidableEq, Repr

/-! ### Cores, clusters, dies -/

/-- A record as the walker last checked it (R212, R223): its 64 bytes, or why it is invalid. -/
structure RecLine where
  words : List DWord
  /-- When it was used last, by its cache's count of uses (R223). -/
  used : Nat := 0
deriving DecidableEq, Repr

/-- A regroup bin (R75). -/
structure Bin where
  ctx : Nat
  grid : Nat
  entry : DWord
  key : Word
  deps : List (List Word) := []
  start : Nat := 0
  /-- Order of its first deposit. -/
  ord : Nat := 0
  closed : Bool := false
deriving DecidableEq, Repr

/-- A sub-tile entry as the walker last read it, and when it was used last (R223). -/
structure EntLine where
  word : DWord
  used : Nat := 0
deriving DecidableEq, Repr

/-- The translation caches of a core or a port die (R223): records by context × 2^24 + object, sub-tile entries by
(context × 2^24 + object) × 2^32 + sub-tile. -/
structure TrCache where
  recs : NMap RecLine := []
  ents : NMap EntLine := []
  /-- Uses counted so far. -/
  uses : Nat := 0
  /-- Walks in progress: (context, VA). -/
  walks : List (Nat × Nat) := []
deriving DecidableEq, Repr

/-- A message in a core's send queue (R384): its group, `sendh` operation and lane. -/
structure SendEnt where
  grp : Nat
  op : Nat
  lane : Nat
  msg : Msg
deriving DecidableEq, Repr

/-- A core (R8, R86-R89, R105-R107, R202, R401, R411-R414). -/
structure Core where
  cyc : Nat := 0
  /-- Time of the cycles counted so far, in units of 5 ps: what lies between it and now are idle cycles (R85). -/
  busy : Nat := 0
  cls : List Nat := [0, 0, 0, 0]
  rc : Nat := 1
  hold : Nat := 0
  clsq : Nat := 4
  clsw : Nat := 64
  clsh : Nat := 32
  hwdt : Nat := 10000
  sptmr : Nat := 4
  lv : Bool := false
  trn : Bool := false
  lvTarget : Bool := false
  lvEntries : Nat := 0
  lvCap : Bool := false
  /-- Its own memory-bound cycles ask for low-voltage mode (R413). -/
  lvOwn : Bool := false
  /-- When the transition under way began. -/
  lvTns : Nat := 0
  /-- A resident group had LD of 1 or more when the cycles were last counted; a group issues in the cycle under way (R413). -/
  memWait : Bool := false
  issues : Bool := false
  /-- Memory-bound cycles and cycles by microsecond, newest first (R413). -/
  bound : List (Nat × Nat × Nat) := []
  /-- Units issued by context in this and the last estimates' intervals of 100 ns, newest first (R411). -/
  units : List (NMap Nat) := []
  bins : NMap Bin := []
  l1 : NMap (List Byte) := []
  tr : TrCache := {}
  icache : NMap Word := []
  sendq : List SendEnt := []
  filler : Bool := false
  fillerCtx : Nat := 0
  /-- When the drop began that filler is issued for (R411). -/
  fillTns : Nat := 0
  /-- Cycles of the interval that filler still takes: of I and F (C2), and of S (C3) (R411). -/
  fill2 : Nat := 0
  fill3 : Nat := 0
  /-- Order in which groups came to wait for a handler bank. -/
  bankSeq : Nat := 0
  /-- Occupied first execute stages by partition × 8 + pipe (X 0, I 1, F 2, S 3, M 4): cycles left and class (R81). -/
  pipes : NMap (Nat × Nat) := []
  /-- Cycles for which a partition's I pipe accepts no integer division (R138). -/
  divs : NMap Nat := []
  /-- The candidate of each partition that lost in the last cycle (R83), and the partitions in which nothing issues in the
  next cycle (R84). -/
  lost : NMap Nat := []
  solo : List Nat := []
deriving DecidableEq, Repr

/-- Gating of a cluster (R77): powered, gating begun or done, the gating reversed. -/
inductive Gate where
  | powered | gating | ungating
deriving DecidableEq, Repr

/-- A cluster (R77, R295). -/
structure Cluster where
  gate : Gate := .powered
  idleTns : Nat := 0
  idle : Bool := true
  clidle : Nat := 50
  dispatch : Bool := false
  rr : Nat := 0
deriving DecidableEq, Repr

/-- States of a die cache line (R307). -/
inductive LineSt where
  | I | S | SWT | E | M | IS | IM | SM | WP
deriving DecidableEq, Repr

/-- A Cumulus entry with its side record (R332): `word` is the device address of a home entry's word or the byte offset
of a peer entry's; `grps` are the groups whose elements it holds. -/
structure CuEntry where
  ctx : Nat
  op : Nat
  pair : Bool := false
  wide : Bool := false
  exact : Bool := true
  word : Nat
  rctx : Nat := 0
  ronum : Nat := 0
  val : Word
  va : DWord := 0
  pc : DWord := 0
  wgid : DWord := 0
  gidx : Nat := 0
  cnt : Nat := 1
  grps : List Nat := []
deriving DecidableEq, Repr

/-- A Cumulus buffer (R331): the peer of a peer buffer, its entries in order, when its age started, and when it last
accepted. -/
structure CuBuf where
  peer : Nat := 0
  ents : List CuEntry := []
  start : Nat := 0
  last : Nat := 0
deriving DecidableEq, Repr

/-- A line of a die cache: its state, when it was used last by the cache's count of uses (R188, R307), and the number of the
write-back that a line in WP has sent (R318). -/
structure DieLine where
  st : LineSt := .I
  used : Nat := 0
  put : Nat := 0
deriving DecidableEq, Repr

/-- A compute die or a port die: its die cache (262,144 lines in 16,384 sets of 16, R8) with its uses so far, Cumulus buffers
and age limit. -/
structure Die where
  lines : NMap DieLine := []
  uses : Nat := 0
  bufs : NMap CuBuf := []
  aget : Nat := 1000
  dead : Bool := false
  verdictTns : Nat := 0
deriving DecidableEq, Repr

/-! ### Contexts -/

/-- Why a context no longer runs (R26, R27, R108). -/
inductive StopSt where
  | running
  /-- Faulted at a TNS: the report's words, and whether it was posted. -/
  | faulted (tns : Nat) (t : Trap) (wgid : DWord) (slot : Nat) (posted : Bool)
  /-- DIE at a TNS: the dies, whether a group has reached a fault point since, whether the report was posted. -/
  | die (tns : Nat) (dies : List Nat) (reached posted : Bool)
deriving DecidableEq, Repr

/-- Limits of R64. -/
structure Quota where
  gs : Nat := 0
  rf : Nat := 0
  wgm : Nat := 0
  ts : Nat := 0
  bs : Nat := 0
deriving DecidableEq, Repr

/-- An outstanding residency service (R226). -/
structure Service where
  obj : Nat
  sub : Nat
  src : Nat
  wr : Bool
  unit : Nat
  va : Nat
  posted : Bool := false
deriving DecidableEq, Repr

/-- A context (R25, R64, R210, R261, R382, R387, R401). -/
structure Ctx where
  en : Bool := false
  sys : Bool := false
  host : Nat := 0
  slice : Nat := 20
  privobj : Nat := 0
  saveb : DWord := 0
  slotkb : Nat := 0
  nslot : Nat := 0
  slots : List Nat := []
  orb : DWord := 0
  otdr : DWord := 0
  otsq : DWord := 0
  sqHead : Word := 0
  sqTail : Word := 0
  tlcfg : DWord := 0
  exact : Bool := true
  aflb : DWord := 0
  aflh : Word := 0
  aflt : Word := 0
  afll : Word := 0
  msglost : Word := 0
  quota : Quota := {}
  mrq : List DWord := List.replicate 16 0
  mrqh : List Word := List.replicate 16 0
  mrqt : List Word := List.replicate 16 0
  ccomm : NMap DWord := []
  cseq : NMap Nat := []
  enrg : Nat := 0
  /-- The part of ENRG below 1 µJ, in hundredths of a pJ (R412). -/
  enrgPj : Nat := 0
  diem : Nat := 0
  ktl : Nat := 0
  kis : Nat := 0
  spawnSer : Nat := 0
  stop : StopSt := .running
  services : List Service := []
  moving : List (Nat × Nat) := []
  invalid : List Nat := []
deriving DecidableEq, Repr

/-- A launch queue (R60). -/
structure LQueue where
  en : Bool := false
  ctx : Nat := 0
  logn : Nat := 0
  base : DWord := 0
  head : Word := 0
  tail : Word := 0
  state : Nat := 0
  code : Nat := 0
  index : Word := 0
deriving DecidableEq, Repr

/-! ### Home slices -/

/-- Directory state of a line (R308). -/
inductive DirSt where
  | U
  /-- The state went with a lost memory die: the first request recalls the line from every die (R305). -/
  | L
  | S (mask : Nat)
  | X (owner : Nat)
deriving DecidableEq, Repr

/-- A snoop of a request in progress (R308-R311): to a die, its kind (0 Inv, 1 Rec-to-S, 2 Rec-to-I), when last sent,
whether it has arrived, whether its answer brings the line's data, and whether it is answered. -/
structure Snoop where
  die : Nat
  kind : Nat
  sent : Nat
  arrived : Bool := false
  data : Bool := false
  gone : Bool := false
  answered : Bool := false
deriving DecidableEq, Repr

/-- A request in progress at a line's home slice (R306): its kind (0 GetS, 1 GetM, 2 Put), its die, its snoops, and the
grant in flight. -/
structure LineReq where
  kind : Nat
  die : Nat
  snoops : List Snoop := []
  grant : Option LineSt := none
  ack : Bool := false
deriving DecidableEq, Repr

/-- An armed monitor (R320): slice, context, group, word, comparison, value, deadline (0 none), order of arming, and the object
and sub-tile its address was translated through (R321). -/
structure Monitor where
  slice : Nat
  ctx : Nat
  grp : Nat
  da : Nat
  cmp : Nat
  val : Word
  deadline : Nat
  order : Nat
  obj : Nat := 0
  sub : Nat := 0
deriving DecidableEq, Repr

/-- A monitor status on its way to a group (R320, R321). -/
structure MonMsg where
  grp : Nat
  status : Nat
deriving DecidableEq, Repr

/-- A write-back in flight to a line's home slice (R307, R310, R318): its die, its line, with data (PutM) or without (PutE), and
its number. -/
structure Put where
  die : Nat
  line : Nat
  dirty : Bool
  seq : Nat := 0
deriving DecidableEq, Repr

/-- An entry of a replay filter (R318): a request identifier, the address it named, the word it returned. -/
structure FiltEnt where
  rid : ReqId
  da : Nat
  word : Word
deriving DecidableEq, Repr

/-- The home slices of the device (R303-R321): home caches, directory, requests in progress, write-backs in flight, dirty bytes
held by an M owner, monitors, statuses under way, replay filter and lost memory dies in the order of their verdicts. -/
structure Home where
  /-- Home caches by slice × 64 + set: lines, the one used last first, and whether HBM still lacks the line (R304, R306). -/
  cache : NMap (List (Nat × Bool)) := []
  puts : List Put := []
  dir : NMap DirSt := []
  busy : NMap LineReq := []
  dirty : List Host.Cell := []
  mons : List Monitor := []
  msgs : List MonMsg := []
  /-- Replay filter by slice (R318). -/
  filter : NMap (List FiltEnt) := []
  lost : List Nat := []
  /-- Lines of lost memory dies that have been asked for since their slices moved (R305). -/
  asked : List Nat := []
deriving DecidableEq, Repr

/-! ### Cumulus -/

/-- A Cumulus packet that has left its unit (R337): its die, its buffer's bit in the dirty masks, its peer when the
bit is 32 or more, and its entries. -/
structure CuPkt where
  id : Nat
  src : Nat
  bit : Nat
  peer : Nat := 0
  ents : List CuEntry
  /-- Requests to the peer not yet answered, and the entries it rejected so far: index, WHY and its own WHY. -/
  parts : List Nat := []
  bad : List (Nat × Nat × Nat) := []
deriving DecidableEq, Repr

/-- A rejected element on its way to a fault log (R343), with the buffer it went through. -/
structure CuRej where
  ent : CuEntry
  /-- High word of a `sta64`. -/
  hi : Word := 0
  src : Nat
  bit : Nat
  peer : Nat := 0
  why : Nat
  dwhy : Nat := 0
deriving DecidableEq, Repr

/-- An egress queue slot (R342, R345): its registers and the records appended and not yet delivered. -/
structure Egress where
  base : DWord := 0
  peer : Nat := 0
  state : Nat := 0
  /-- An append found the slot full: refusing until it is empty. -/
  full : Bool := false
  head : Word := 0
  tail : Word := 0
  recs : List CuEntry := []
deriving DecidableEq, Repr

/-! ### Rainbow router -/

/-- What a packet over the interposer carries (R356, R362; DESIGN CHOICE, LE 26): a heartbeat's number, or a message between a die
cache and a home slice about a line. -/
inductive RMsg where
  | heartbeat (n : Nat)
  | snoop (die line : Nat)
  | answer (die line : Nat)
  | grant (die line : Nat)
  | put (die line : Nat)
  | putAck (die line : Nat)
deriving DecidableEq, Repr

/-- A flit's worth of a packet from chiplet `src` to `dst` (R354, R356): its first-hop channel (0 requests, 1 responses, 2 snoops and
answers), whether it is part of a data packet, whether it is the packet's last flit, and its place in the order in which its source
has sent to its destination (R355). -/
structure RPkt where
  src : Nat
  dst : Nat
  vc : Nat
  msg : RMsg
  data : Bool := false
  last : Bool := true
  ord : Nat := 0
deriving DecidableEq, Repr

/-- A flit in the retry buffer of a pair (R359): its sequence number, its channel on this hop (R356), the strands it is striped over,
and what it brings. -/
structure RFlit where
  seq : Nat
  vc : Nat
  strands : Nat
  pkt : RPkt
deriving DecidableEq, Repr

/-- Pair (c, t) of chiplets (R350-R363): its RRT entry, failed and gated strands (bit p for Ap, 6 + p for Bp), failed
checks, the retry buffer, the next sequence number to send and to accept, packets from c to t that wait at c, packets from c that relay
t has accepted, the first-hop channel whose turn comes next, the wake under way and the last traffic. -/
structure Pair where
  mode : Nat := 0
  /-- RLY; set at interposer training (R352). -/
  rly : Nat := 0
  auto : Bool := true
  fail : Nat := 0
  gated : Nat := 0
  crce : Nat := 0
  retry : List RFlit := []
  next : Nat := 0
  expect : Nat := 0
  held : List RPkt := []
  atRelay : List RPkt := []
  turn : Nat := 0
  turn2 : Nat := 0
  sent : Nat := 0
  bad : List (Nat × Nat) := []
  auto5 : Option Nat := none
  wrote5 : Option Nat := none
  waking : Option Nat := none
  idle : Nat := 0
deriving DecidableEq, Repr

/-- The chiplet's part of the router (R358, R362): gating configuration, heartbeat number and time, when it last saw a heartbeat
of each chiplet, whether it has been reported silent, and the verdict. -/
structure Chiplet where
  idle : Nat := 2000
  wakeq : Nat := 8
  gen : Bool := true
  hbSeq : Nat := 0
  hbTns : Nat := 0
  seen : NMap Nat := []
  reported : Bool := false
  dead : Bool := false
deriving DecidableEq, Repr

/-! ### Shofer ports and the fabric -/

/-- A port (R364-R377): its registers and what its two directions hold. -/
structure Port where
  cfg : DWord := 0
  width : Nat := 0
  wtgt : Nat := 0
  state : Nat := 0
  skida : Bool := false
  wakes : Nat := 0
  lmap : DWord := 0x76543210
  pfec : DWord := 0
  prpl : DWord := 0
  ptime : DWord := 0
  /-- First and second words of LAGE by wavelength; MAPD is computed from LMAP. -/
  lage : NMap DWord := []
  lageH : NMap DWord := []
  phyctl : NMap DWord := []
  physt : NMap DWord := []
  /-- Bring-up is under way. -/
  bring : Bool := false
  session : Bool := false
  keygen : Nat := 0
  tagCount : Nat := 0
  /-- Flits queued for transmission (TXQ counts them); sent and not yet acknowledged; the next number to send. -/
  txWait : List LinkFlit := []
  txRetry : List LinkFlit := []
  txSeq : Nat := 0
  /-- Data flits sent of the tag group under way, and tag groups sent under the session's keys (R366, R369). -/
  inGroup : Nat := 0
  txTags : Nat := 0
  /-- The next number to accept, whether a replay has been requested, and accepted flits of groups not yet verified. -/
  rxSeq : Nat := 0
  rxGap : Bool := false
  tagHeld : List LinkFlit := []
  tagFails : Nat := 0
  /-- Verified flits of a packet not complete yet, and packets received. -/
  asm : List (List Byte) := []
  rxq : List FabPkt := []
  /-- Skid mode: stores released before their tag verified, and those released from a group that then failed. -/
  early : List FabPkt := []
  again : List (Nat × Nat × Nat) := []
  /-- Lanes being remapped: lane, wavelength, width to return to. -/
  remaps : List (Nat × Nat × Nat) := []
  /-- Why wavelengths have failed (R406), and the wavelengths that uncorrectable codewords of the last ms were traced to (R365). -/
  why : NMap Nat := []
  uncor : List (Nat × Nat) := []
  /-- When the ring lock and the eye training of wavelengths began (R415). -/
  lockTns : NMap Nat := []
  trainTns : NMap Nat := []
  /-- Widths requested while a change is under way. -/
  pending : List Nat := []
  changeTns : Nat := 0
  lastSend : Nat := 0
deriving DecidableEq, Repr

/-- A packet not yet acknowledged end to end (R380): the rail it last left on, if any reaches its device, and when, with the
context that its flits are charged to (R412). -/
structure TxPkt where
  pkt : FabPkt
  ctx : Option Nat := none
  rail : Option Nat := none
  tns : Nat := 0
deriving DecidableEq, Repr

/-- A message that the delivery unit holds (R384): from a local `sendh` lane, or the packet it came in. -/
structure InMsg where
  msg : Msg
  src : Option (Nat × Nat × Nat) := none
  rid : Option ReqId := none
deriving DecidableEq, Repr

/-- Fabric and collective state (R377-R393). -/
structure Fabric where
  dev : Nat := 0
  domain : List Nat := []
  /-- Next SEQ and unacknowledged packets by destination × 8 + class. -/
  txSeq : NMap Nat := []
  unacked : NMap (List TxPkt) := []
  /-- Expected SEQ and reorder store by source × 8 + class. -/
  rxSeq : NMap Nat := []
  reorder : NMap (List FabPkt) := []
  frmb : DWord := 0
  frgen : Word := 0
  /-- The reachability table as last read: every rail reaches every device, or the table's bytes. -/
  reachAll : Bool := true
  reach : Mem := []
  rereading : Bool := false
  /-- Packets that wait for the window, with the context they are charged to. -/
  out : List (Option Nat × FabPkt) := []
  /-- Turn of the ties between rails. -/
  turn : Nat := 0
  inbox : List InMsg := []
deriving DecidableEq, Repr

/-- A party, other than a group's access, that waits for a residency service or has made requests for remote bytes (R226,
R230): a slice of a copy, an access of another device, an access of a host window, a collective, a launch queue at its next
record, a `launch` or `recvq` by its operation's name, a message. -/
inductive Party where
  | slice (wk copy i : Nat)
  | remote (r : RemoteReq)
  | win (f : Nat) (data : Option (List Byte)) (off len : Nat)
  | coll (ctx num : Nat)
  | queue (q : Nat)
  | op (id : Nat)
  | msg (m : InMsg)
deriving DecidableEq, Repr

/-- A party that waits for the service of (context, object, sub-tile) since its access at a VA missed (R226). -/
structure SvcWait where
  who : Party
  ctx : Nat
  obj : Nat
  sub : Nat
  va : Nat
  wr : Bool
deriving DecidableEq, Repr

/-- A request of a party for bytes of a remote object (R15, R230): what it names, its name, and its response or fault. -/
structure RemIO where
  who : Party
  wr : Bool
  peer : Nat
  rctx : Nat
  obj : Nat
  off : Nat
  len : Nat
  id : Nat
  resp : Option (List Byte) := none
  bad : Option (Nat × Nat × Nat) := none
deriving DecidableEq, Repr

/-- A collective in progress (R388-R392). -/
structure Coll where
  num : Nat
  ctx : Nat
  comm : Nat
  grp : Nat
  pc : DWord
  desc : List DWord
  /-- Name of the unit in its group's program order, and who the group was. -/
  opId : Nat := 0
  wgid : DWord := 0
  slot : Nat := 0
  cseq : Nat := 0
  handed : Bool := false
  done : Bool := false
deriving DecidableEq, Repr

/-! ### Stratus, hosts, device -/

/-- An event that Stratus logs with its TNS (R9, R24, R353, R354, R360): 0 a write naming a reserved chiplet or a bad routing entry, 1 the loss of a
strand, 2 the loss of a sentinel A0, 3 a pair without a route, 4 the failure of a wavelength, 5 a lane's remap; and what it concerns. -/
structure LogEnt where
  tns : Nat
  kind : Nat
  args : List Nat
deriving DecidableEq, Repr

/-- What Stratus has besides its scalar registers (R394-R398, R402, R410). -/
structure Stratus where
  code : Mem := []
  data : Mem := []
  active : Nat := 48
  standby : Bool := false
  halted : Bool := true
  /-- When it last halted. -/
  haltTns : Nat := 0
  sleepTo : Nat := 0
  /-- Time of its cycles counted so far, in units of 5 ps. -/
  busy : Nat := 0
  rollback : Nat := 0
  /-- The image slots of the board flash, as the board brings them (PRESUMED, LE 15). -/
  slotA : Mem := []
  slotB : Mem := []
  /-- Its log, oldest first, and the faults of host windows that it has counted (R231; DESIGN CHOICE, LE 48). -/
  log : List LogEnt := []
  winFaults : Nat := 0
  /-- HRS and AIDX of each wavelength, port × 16 + wavelength, as last stored in flash (R409). -/
  flash : NMap (Nat × Nat) := []
deriving DecidableEq, Repr

/-- A host function (R401, R404-R407). -/
structure HostFn where
  hwin : DWord := 0
  rptb : DWord := 0
  rptlog : Nat := 0
  rpth : Word := 0
  rptt : Word := 0
  up : Bool := false
  gen : Nat := 0
  lost : Nat := 0
  attcmd : DWord := 0
  attstat : DWord := 0
  attn : List DWord := List.replicate 4 0
  attrsp : List DWord := List.replicate 32 0
  vecPending : Bool := false
  vecTns : Nat := 0
  vectors : Nat := 0
  /-- Times vector 1 was sent. -/
  vectors1 : Nat := 0
  /-- Window completions: value, or none for a completer abort. -/
  completions : List (Option (List Byte)) := []
  /-- Window accesses held by a residency miss: write data (none for a read), offset, length. -/
  heldWin : List (Option (List Byte) × Nat × Nat) := []
deriving DecidableEq, Repr

/-- A report (R406): its type, context, chiplet, TNS and arguments. -/
structure Report where
  type : Nat
  ctx : Nat := 0
  chip : Nat := 0
  tns : Nat := 0
  args : List DWord := []
deriving DecidableEq, Repr

/-- An ownership claim (R407). -/
structure Claim where
  f : Nat
  prio : Nat
  order : Nat
deriving DecidableEq, Repr

/-- A publish in progress (R224, R225), and the name the next request took when it started. -/
structure Publish where
  op : Nat
  ctx : Nat
  obj : Nat
  first : Nat
  count : Nat
  since : Nat := 0
deriving DecidableEq, Repr

/-- The device-wide registers and tables (R60, R89, R224, R262, R400). -/
structure Device where
  tns : Nat := 0
  tfrac : Nat := 0
  /-- Nanoseconds that TNS was stepped forward by the pod's timebase (R377): they are no cycles. -/
  skip : Nat := 0
  memOpen : Bool := false
  tl : NMap DWord := []
  opub0 : DWord := 0
  opub1 : DWord := 0
  opState : Nat := 0
  opCode : Nat := 0
  pub : Option Publish := none
  osvc : DWord := 0
  rev : Nat := 0
  bootStep : Nat := 1
  bootCode : Nat := 0
  bootSlot : Nat := 0
  bootReady : Bool := false
  fwver : Word := 0
  ownFn : Nat := 0
  ownHeld : Bool := false
  ownEpoch : Word := 0
  claims : List Claim := []
  claimSeq : Nat := 0
  ownBeat : Nat := 0
  /-- STERR0-STERR7 (R400). -/
  sterr : List DWord := List.replicate 8 0
  shape : Bool := true
  lven : Bool := true
  lvthr : Nat := 75
  lvext : Nat := 50
  lvwin : Nat := 5
  pcap : Nat := 6000
  pwrpt : List Nat := [0, 0, 0, 0]
  penrg : Nat := 0
  reports : List Report := []
  /-- Dead-die verdicts: chiplet and TNS. -/
  verdicts : List (Nat × Nat) := []
  reset : Bool := false
  /-- Sequence of grids taken (R62). -/
  takenSeq : Nat := 0
  /-- When the package power was last sampled (R414). -/
  lastTime : Nat := 0
deriving DecidableEq, Repr

/-- What the unit issued last occupies and reads (R81, R84): its pipe, the class it imposes, the physical vector registers
it reads, whether it is an integer division (R138), and whether it is a `balloc` or a `semw` (R278). -/
structure Issued where
  pipe : Nat
  cls : Nat
  reads : List Nat := []
  div : Bool := false
  balloc : Bool := false
  semw : Bool := false
deriving DecidableEq, Repr

/-- The whole machine. -/
structure State where
  /-- Events that come next, first first (DESIGN CHOICE, LE 1). -/
  agenda : List Instr
  /-- Who issues, and who issues after it in the cycle under way (R83). -/
  cur : Agent
  plan : List Agent
  /-- The agent whose cycle is under way: a core, or 256 for Stratus. -/
  cyc : Option Nat
  /-- What the unit just issued occupies and reads. -/
  issued : Option Issued
  /-- The current candidate was not ready when last tried (DESIGN CHOICE, LE 1). -/
  stalled : Bool
  /-- Cycles since an event last came, and cycles in a row without a ready candidate (DESIGN CHOICE, LE 1). -/
  turn : Nat
  tried : Nat
  /-- How many events have come by themselves: they come in turn (DESIGN CHOICE, LE 1). -/
  came : Nat
  /-- Fresh names for workgroups, operations and packets (DESIGN CHOICE, LE 4). -/
  nextId : Nat
  /-- Counter of free values taken (DESIGN CHOICE, LE 5). -/
  fresh : Nat
  dev : Device
  /-- Device memory at its home slices (R23, R303). -/
  mem : Mem
  groups : NMap Group
  wgs : NMap Workgroup
  grids : NMap Grid
  lq : NMap LQueue
  ctxs : NMap Ctx
  classes : NMap Quota
  cores : NMap Core
  clusters : NMap Cluster
  dies : NMap Die
  /-- Translation caches of the port dies and directory entries of the walkers (R223), by die. -/
  ptr : NMap TrCache
  gdir : NMap (NMap DWord)
  home : Home
  cuPkts : List CuPkt
  cuRejs : List CuRej
  egress : NMap Egress
  pairs : NMap Pair
  chips : NMap Chiplet
  ports : NMap Port
  fab : Fabric
  colls : List Coll
  /-- Remote accesses held at this device by a residency miss (R208). -/
  remHeld : List RemoteReq
  /-- Parties that wait for residency services, and their requests for remote bytes (R226, R230). -/
  svcWaits : List SvcWait
  rio : List RemIO
  /-- The Stratus core's registers, held as a group's are (R394). -/
  sgrp : Group
  str : Stratus
  hosts : NMap HostFn
deriving DecidableEq, Repr

/-- The Stratus core's registers after reset: MODE zero (DESIGN CHOICE, LE 3), nothing else set. -/
def stratusReset : Group :=
  { mode := 0, exm := allOnes, n := 0, high := 0 }

/-- The machine right after a cold reset (R402, R409): nothing resident, memory zero, every register at the value its
rule states, zero where none is stated (DESIGN CHOICE, LE 3). -/
def State.reset : State :=
  { agenda := [], cur := .stratus, plan := [], cyc := none, issued := none, stalled := false, turn := 0, tried := 0, came := 0, nextId := 1,
    fresh := 0, dev := {}, mem := [], groups := [], wgs := [], grids := [], lq := [], ctxs := [], classes := [], cores := [], clusters := [], dies := [], ptr := [],
    gdir := [], home := {}, cuPkts := [], cuRejs := [], egress := [], pairs := [], chips := [], ports := [], fab := {},
    colls := [], remHeld := [], svcWaits := [], rio := [], sgrp := stratusReset, str := {}, hosts := [] }

end Sys2Proof.Machine
end

