-- ==== Sys2Proof/Machine/Ops.lean ====
section
/-! DEFINITION. The named operations over the machine's tables, registers and memory, and taking an exception. -/

namespace Sys2Proof.Machine

/-- What a step answers. -/
abbrev Out := Host.Outcome State Fault Refusal

/-! ### Tables -/

/-- Core `c`. -/
def State.core (s : State) (c : Nat) : Core := mapGet s.cores c {}
/-- Replace core `c`. -/
def State.setCore (s : State) (c : Nat) (v : Core) : State := { s with cores := mapSet s.cores c v }
/-- Change core `c`. -/
def State.modCore (s : State) (c : Nat) (f : Core → Core) : State := s.setCore c (f (s.core c))
/-- Cluster `l`. -/
def State.cluster (s : State) (l : Nat) : Cluster := mapGet s.clusters l {}
/-- Replace cluster `l`. -/
def State.setCluster (s : State) (l : Nat) (v : Cluster) : State := { s with clusters := mapSet s.clusters l v }
/-- Die `d`, by chiplet number (0-15 compute, 48-49 port). -/
def State.die (s : State) (d : Nat) : Die := mapGet s.dies d {}
/-- Replace die `d`. -/
def State.setDie (s : State) (d : Nat) (v : Die) : State := { s with dies := mapSet s.dies d v }
/-- Context `n`. -/
def State.ctx (s : State) (n : Nat) : Ctx := mapGet s.ctxs n {}
/-- Replace context `n`. -/
def State.setCtx (s : State) (n : Nat) (v : Ctx) : State := { s with ctxs := mapSet s.ctxs n v }
/-- Change context `n`. -/
def State.modCtx (s : State) (n : Nat) (f : Ctx → Ctx) : State := s.setCtx n (f (s.ctx n))
/-- Launch queue `n`. -/
def State.queue (s : State) (n : Nat) : LQueue := mapGet s.lq n {}
/-- Replace launch queue `n`. -/
def State.setQueue (s : State) (n : Nat) (v : LQueue) : State := { s with lq := mapSet s.lq n v }
/-- Port `p`. -/
def State.port (s : State) (p : Nat) : Port := mapGet s.ports p {}
/-- Replace port `p`. -/
def State.setPort (s : State) (p : Nat) (v : Port) : State := { s with ports := mapSet s.ports p v }
/-- Pair (c, t) of chiplets. -/
def State.pair (s : State) (c t : Nat) : Pair := mapGet s.pairs (c * 64 + t) {}
/-- Replace pair (c, t). -/
def State.setPair (s : State) (c t : Nat) (v : Pair) : State := { s with pairs := mapSet s.pairs (c * 64 + t) v }
/-- Chiplet `c`'s router part. -/
def State.chip (s : State) (c : Nat) : Chiplet := mapGet s.chips c {}
/-- Replace chiplet `c`'s router part. -/
def State.setChip (s : State) (c : Nat) (v : Chiplet) : State := { s with chips := mapSet s.chips c v }
/-- Host function `f`. -/
def State.host (s : State) (f : Nat) : HostFn := mapGet s.hosts f {}
/-- Replace host function `f`. -/
def State.setHost (s : State) (f : Nat) (v : HostFn) : State := { s with hosts := mapSet s.hosts f v }
/-- Egress queue slot `q`. -/
def State.egr (s : State) (q : Nat) : Egress := mapGet s.egress q {}
/-- Replace egress queue slot `q`. -/
def State.setEgr (s : State) (q : Nat) (v : Egress) : State := { s with egress := mapSet s.egress q v }
/-- The group of a key. -/
def State.grp? (s : State) (k : Nat) : Option Group := mapGet? s.groups k
/-- Replace the group of a key. -/
def State.setGrp (s : State) (k : Nat) (g : Group) : State := { s with groups := mapSet s.groups k g }
/-- Change the group of a key, if there is one. -/
def State.modGrp (s : State) (k : Nat) (f : Group → Group) : State := { s with groups := mapMod s.groups k f }
/-- The workgroup of a key. -/
def State.wg? (s : State) (w : Nat) : Option Workgroup := mapGet? s.wgs w
/-- Replace the workgroup of a key. -/
def State.setWg (s : State) (w : Nat) (v : Workgroup) : State := { s with wgs := mapSet s.wgs w v }
/-- Change the workgroup of a key, if there is one. -/
def State.modWg (s : State) (w : Nat) (f : Workgroup → Workgroup) : State := { s with wgs := mapMod s.wgs w f }
/-- Change the device registers. -/
def State.modDev (s : State) (f : Device → Device) : State := { s with dev := f s.dev }
/-- Change the home slices. -/
def State.modHome (s : State) (f : Home → Home) : State := { s with home := f s.home }

/-- Record that the candidate of `cur` is not ready: nothing else changes (R82). -/
def State.stall (s : State) : State := { s with stalled := true }

/-- Stratus error counter i, saturating (R400). -/
def State.count (s : State) (i : Nat) : State :=
  s.modDev fun d => { d with sterr := d.sterr.set i (if regGet d.sterr i = allOnes then allOnes else regGet d.sterr i + 1) }

/-- Stratus logs an event with its TNS. -/
def State.logged (s : State) (kind : Nat) (args : List Nat) : State :=
  { s with str := { s.str with log := s.str.log ++ [{ tns := s.dev.tns, kind := kind, args := args }] } }

/-- A fresh name (DESIGN CHOICE, LE 4). -/
def State.fresh1 (s : State) : Nat × State := (s.nextId, { s with nextId := s.nextId + 1 })

/-- A value the spec leaves open, and the counter moved on (DESIGN CHOICE, LE 5). -/
def State.freeValue (s : State) : DWord × State := (Config.freeWord s.fresh, { s with fresh := s.fresh + 1 })

/-! ### Numbers of places (R9, R10) -/

/-- The global core number of a global group number. -/
def coreOfSlot (n : Nat) : Nat := n / 128
/-- The partition of a global group number. -/
def partOfSlot (n : Nat) : Nat := n / 16 % 8
/-- The compute die of a core. -/
def dieOfCore (c : Nat) : Nat := c / 16
/-- The cluster of a core. -/
def clusterOfCore (c : Nat) : Nat := c / 4
/-- The core of a group. -/
def Group.core (g : Group) : Nat := coreOfSlot g.slot
/-- The compute die of a group. -/
def Group.die (g : Group) : Nat := dieOfCore g.core
/-- The key of group `i` of workgroup `w` (model's name). -/
def gkey (w i : Nat) : Nat := w * 16 + i

/-- The groups of workgroup `w` that have not ended, by key. -/
def State.groupsOf (s : State) (w : Nat) : List Nat := mapKeys s.groups fun _ g => g.wg = w
/-- Whether system privilege holds in context `n` (R58). -/
def State.sysCtx (s : State) (n : Nat) : Bool := (s.ctx n).sys

/-! ### Scalar and predicate registers (R34, R105, R123) -/

/-- s[r]: s0 reads zero; in handler mode s56-s63 are the banked copies. -/
def Group.readS (g : Group) (r : Nat) : DWord :=
  if r = 0 then 0 else if g.inH ∧ 56 ≤ r then regGet g.bank (r - 56) else regGet g.s r

/-- s[r] := v: a write to s0 is discarded. -/
def Group.writeS (g : Group) (r : Nat) (v : DWord) : Group :=
  if r = 0 then g
  else if g.inH ∧ 56 ≤ r then { g with bank := g.bank.set (r - 56) v }
  else { g with s := g.s.set r v }

/-- p[r]: p0 reads all ones. -/
def Group.readP (g : Group) (r : Nat) : DWord := if r = 0 then allOnes else regGet g.p r

/-- p[r] := v: a write to p0 is discarded. -/
def Group.writeP (g : Group) (r : Nat) (v : DWord) : Group :=
  if r = 0 then g else { g with p := g.p.set r v }

/-- The register a scalar destination names now. -/
def Group.sDst (g : Group) (r : Nat) : Dst :=
  if r = 0 then .none else if g.inH ∧ 56 ≤ r then .bank (r - 56) else .s r

/-! ### Vector registers and the window (R90-R92) -/

/-- Registers held by queues. -/
def Group.qtot (g : Group) : Nat := (g.queues.map QReg.depth).sum
/-- Registers for stack positions. -/
def Group.res (g : Group) : Nat := g.n - g.qtot
/-- Whether a stack position is resident. -/
def Group.isRes (g : Group) (p : Nat) : Bool := g.low ≤ p && p < g.high
/-- A stack position's register; one that is not resident reads zero (R94). -/
def Group.readPos (g : Group) (p : Nat) : Lanes := if g.isRes p then mapGet g.vreg p zeroLanes else zeroLanes
/-- Write a stack position; one that is not resident discards the write (R94). -/
def Group.writePos (g : Group) (p : Nat) (l : Lanes) : Group :=
  if g.isRes p then { g with vreg := mapSet g.vreg p l } else g
/-- vn of the window. -/
def Group.readV (g : Group) (n : Nat) : Lanes := g.readPos (g.wb + n)
/-- vn of the window := l. -/
def Group.writeV (g : Group) (n : Nat) (l : Lanes) : Group := g.writePos (g.wb + n) l

/-- Lanes of `m` from `f`, the others from `old`. -/
def mergeLanes (m : DWord) (old : Lanes) (f : Nat → Word) : Lanes :=
  lanesOf fun i => if laneBit m i then f i else laneGet old i

/-- Read a destination register. -/
def Group.readDst (g : Group) : Dst → Lanes
  | .pos p => g.readPos p
  | .h n => mapGet g.h n zeroLanes
  | _ => zeroLanes

/-- Write lanes `m` of a vector destination. -/
def Group.writeDst (g : Group) (d : Dst) (m : DWord) (f : Nat → Word) : Group :=
  match d with
  | .pos p => g.writePos p (mergeLanes m (g.readPos p) f)
  | .h n => { g with h := mapSet g.h n (mergeLanes m (mapGet g.h n zeroLanes) f) }
  | _ => g

/-- Write a scalar or predicate destination. -/
def Group.writeSDst (g : Group) (d : Dst) (v : DWord) : Group :=
  match d with
  | .s n => { g with s := g.s.set n v }
  | .bank n => { g with bank := g.bank.set n v }
  | .p n => g.writeP n v
  | _ => g

/-- Drop resident registers outside [low, high). -/
def Group.trimV (g : Group) : Group := { g with vreg := g.vreg.filter fun kv => g.isRes kv.1 }

/-- Start the spill engine's next transfer of the window, if one is due (R92): a window below LOW fills, more than RES
resident positions spill. -/
def Group.kick (g : Group) : Group :=
  if g.spc.act then g
  else if g.wb < g.low then { g with spc := { pos := g.low - 1, dir := true, stk := 0, act := true } }
  else if g.res < g.high - g.low then { g with spc := { pos := g.low, dir := false, stk := 0, act := true } }
  else g

/-- WB moves (R92): HIGH rises to hold the window, and the spill engine starts what is due. -/
def Group.setWb (g : Group) (w : Nat) : Group := ({ g with wb := w, high := max g.high (w + 96) } : Group).kick

/-- SPC as `mfs` reads it (R94). -/
def Spc.bits (c : Spc) : DWord :=
  BitVec.ofNat 64 (c.pos % 2 ^ 14 + (if c.dir then 2 ^ 14 else 0) + c.stk * 2 ^ 15 + if c.act then 2 ^ 17 else 0)

/-- Whether WB may become `w` (R93). -/
def wbOk (w : Int) : Bool := 0 ≤ w && w + 96 ≤ 16384

/-! ### Counters and outstanding operations (R198, R199) -/

/-- The value of a counter: the operations on it that have not finished in issue order. -/
def Group.counter (g : Group) (c : Ctr) : Nat := (g.ops.filter fun o => o.ctr = c).length

/-- Drop, of each counter, the leading operations that are done (R199). -/
def dropDone : List Op → List Ctr → List Op
  | [], _ => []
  | o :: r, block =>
    if o.done && !(o.ctr ≠ .none && o.ctr ∈ block) then dropDone r block
    else o :: dropDone r (o.ctr :: block)

/-- Add an outstanding operation. -/
def Group.addOp (g : Group) (o : Op) : Group := { g with ops := g.ops ++ [o] }

/-- Change the operation named `id`. -/
def Group.modOp (g : Group) (id : Nat) (f : Op → Op) : Group :=
  { g with ops := g.ops.map fun o => if o.id = id then f o else o }

/-- The operation named `id`. -/
def Group.op? (g : Group) (id : Nat) : Option Op := g.ops.find? fun o => o.id = id

/-- The operation named `id` has finished. -/
def Group.finishOp (g : Group) (id : Nat) : Group :=
  let g := g.modOp id fun o => { o with done := true, performed := true, wait := .flight, keeps := [] }
  { g with ops := dropDone g.ops [] }

/-- Registers that an outstanding operation still writes. -/
def Group.pending (g : Group) : List Dst :=
  g.ops.flatMap fun o => if o.performed then [] else o.dst.filter fun d => d ≠ .none

/-- Registers that a store keeps in use (R195). -/
def Group.kept (g : Group) : List Dst := g.ops.flatMap fun o => o.keeps

/-- Whether an operation of the group is held in translation (R194). -/
def Group.holding (g : Group) : Bool :=
  g.ops.any fun o => match o.wait with | .held .. => true | _ => false

/-- Waiting-table entries the group uses (R194): units, not registers. -/
def Group.parkedCount (g : Group) : Nat :=
  (((g.ops.filter fun o => match o.wait with | .parked .. => true | _ => false).map Op.unit).eraseDups).length

/-! ### The L1 pool (R189, R202) -/

/-- Ways of a core that resident workgroups hold as WGM. -/
def State.wgmWays (s : State) (c : Nat) : Nat :=
  ((s.wgs.filter fun kv => kv.2.core = c && kv.2.state ≠ .waiting && kv.2.state ≠ .swapped).map fun kv => kv.2.wgmw).sum

/-- Lines the L1 of a core can hold. -/
def State.l1Room (s : State) (c : Nat) : Nat := (16 - s.wgmWays c) * 256

/-- Ways pass to WGM: lines beyond the cache's room are lost, the lowest first (DESIGN CHOICE, LE 18). -/
def State.l1Trim (s : State) (c : Nat) : State := s.modCore c fun v => { v with l1 := v.l1.drop (v.l1.length - s.l1Room c) }

/-- Invalidate every L1 line of a core (an acquire of DIE scope or wider). -/
def State.l1Clear (s : State) (c : Nat) : State := s.modCore c fun v => { v with l1 := [] }
/-- Invalidate one L1 line of a core. -/
def State.l1Drop (s : State) (c line : Nat) : State := s.modCore c fun v => { v with l1 := mapDel v.l1 line }
/-- Update a byte of an L1 line that is present (R189). -/
def State.l1Write (s : State) (c a : Nat) (b : Byte) : State :=
  s.modCore c fun v => { v with l1 := mapMod v.l1 (a / 128) fun l => l.set (a % 128) b }

/-! ### Time and the Pinwheel clock (R81, R85, R86, R89) -/

/-- Period of a class in units of 5 ps, low-voltage mode times 1.6. -/
def period (cls : Nat) (lv : Bool) : Nat :=
  match cls, lv with
  | 1, false => 80 | 2, false => 100 | 3, false => 125 | _, false => 160
  | 1, true => 128 | 2, true => 160 | 3, true => 200 | _, true => 256

/-- First-stage cycles of a pipe (R81): X 0, I 1, F 2, S 3, M 4. -/
def stageCycles (pipe : Nat) : Nat := if pipe = 1 ∨ pipe = 2 then 2 else if pipe = 3 then 4 else 1

/-- Advance the device timebase by units of 5 ps. -/
def Device.advance (d : Device) (u : Nat) : Device :=
  { d with tns := d.tns + (d.tfrac + u) / 200, tfrac := (d.tfrac + u) % 200 }

/-- Time in units of 5 ps, forward steps of TNS apart. -/
def Device.now5 (d : Device) : Nat := 200 * (d.tns - d.skip) + d.tfrac

/-- Charge energy to a context, in hundredths of a pJ; ENRG carries whole µJ (R412). -/
def State.energy (s : State) (n e : Nat) : State :=
  s.modCtx n fun c => { c with enrg := (c.enrg + (c.enrgPj + e) / 100000000) % 2 ^ 64, enrgPj := (c.enrgPj + e) % 100000000 }

/-- Energy of one first-stage cycle of a pipe in hundredths of a pJ (R412). -/
def pipeEnergy (pipe : Nat) (low : Bool) : Nat :=
  let e := [200, 4000, 5500, 7000, 1000].getD pipe 0
  if low then e * 45 / 100 else e

/-- What of a span of time filler takes, in cycles of class C3 and of class C2 (R411). -/
def Core.fillIn (v : Core) (u : Nat) : Nat × Nat :=
  let n3 := min v.fill3 (u / period 3 v.lv)
  (n3, min v.fill2 ((u - n3 * period 3 v.lv) / period 2 v.lv))

/-- Whether the group's workgroup is resident. -/
def State.residentGrp (s : State) (g : Group) : Bool :=
  match s.wg? g.wg with | some w => w.state = .resident | none => false

/-- Whether a resident group of core `c` has LD of 1 or more (R413). -/
def State.memWaits (s : State) (c : Nat) : Bool :=
  s.groups.any fun kv => kv.2.core = c && s.residentGrp kv.2 && 1 ≤ kv.2.counter .ld

/-- Memory-bound cycles and cycles by microsecond, newest first, with `n` cycles more in a microsecond (R413); 1,000
microseconds are kept. -/
def countUs (l : List (Nat × Nat × Nat)) (us n : Nat) (bound : Bool) : List (Nat × Nat × Nat) :=
  let b := if bound then n else 0
  match l with
  | (u, x, y) :: r => if u = us then (u, x + b, y + n) :: r else ((us, b, n) :: l).take 1001
  | [] => [(us, b, n)]

/-- `n` cycles spread over a span of time in units of 5 ps, of its last 1,000 microseconds. -/
def countSpan (l : List (Nat × Nat × Nat)) (t0 t1 n : Nat) (bound : Bool) : List (Nat × Nat × Nat) :=
  let a := t0 / 200000
  let z := t1 / 200000
  if a = z then (if n = 0 then l else countUs l a n bound)
  else
    let first := max a (z - 1000)
    (List.range (z + 1 - first)).foldl (fun m i =>
      let us := first + i
      countUs m us (n * (min t1 (200000 * (us + 1)) - max t0 (200000 * us)) / (t1 - t0)) bound) l

/-- RC and its hold after `n` cycles without a candidate: once the hold has run out, RC is C1 (R86). -/
def Core.idled (v : Core) (n : Nat) : Core := { v with hold := v.hold - n, rc := if v.hold < n then 1 else v.rc }

/-- Energy of `n2` filler cycles in I and F and `n3` in S goes to the departing tenant while it exists (R411, R412). -/
def State.fillEnergy (s : State) (v : Core) (n2 n3 : Nat) : State :=
  let low := v.lv && !v.trn
  if (s.ctx v.fillerCtx).en then s.energy v.fillerCtx (n2 * (pipeEnergy 1 low + pipeEnergy 2 low) + n3 * pipeEnergy 3 low) else s

/-- Count the cycles of core `c` without a unit up to now, as its periods or its power change: C1 but where filler runs
(R85, R411); a core whose cluster is not powered adds none (R89). They are memory-bound as the groups were when the span began (R413;
DESIGN CHOICE, LE 27). -/
def State.settleCore (s : State) (c : Nat) : State :=
  let v := s.core c
  let on := (s.cluster (clusterOfCore c)).gate = .powered
  let (n3, n2) := v.fillIn (s.dev.now5 - v.busy)
  (if on then s.fillEnergy v n2 n3 else s).modCore c fun v =>
    let now := { v with busy := max v.busy s.dev.now5 }
    if !on then now
    else
      let n1 := (s.dev.now5 - (v.busy + n3 * period 3 v.lv + n2 * period 2 v.lv)) / period 1 v.lv
      { now.idled (n1 + n2 + n3) with
                 cyc := v.cyc + n1 + n2 + n3, fill2 := v.fill2 - n2, fill3 := v.fill3 - n3,
                 cls := [v.cls.getD 0 0 + n1, v.cls.getD 1 0 + n2, v.cls.getD 2 0 + n3, v.cls.getD 3 0],
                 bound := if s.dev.lven then countSpan v.bound v.busy s.dev.now5 (n1 + n2 + n3) v.memWait else v.bound,
                 memWait := s.memWaits c }

/-- TNS reaches at least `t` (a timer's event). -/
def State.atLeast (s : State) (t : Nat) : State := s.modDev fun d => if d.tns < t then { d with tns := t, tfrac := 0 } else d

/-- A core starts to leave: the voltage rises first. -/
def State.lvOut (s : State) (core : Nat) : State :=
  s.modCore core fun v => { v with trn := true, lvTarget := false, lvTns := s.dev.tns }

/-- A core's own wish for low-voltage mode is set. -/
def State.lvWish (s : State) (core : Nat) (b : Bool) : State := s.modCore core fun v => { v with lvOwn := b }

/-- A core in low-voltage mode starts to leave when a candidate is urgent, unless the package cap holds it (R413, R414). -/
def State.leaveLv (s : State) (core : Nat) : State :=
  let v := s.core core
  if v.lv && v.lvTarget && !v.lvCap then (s.lvOut core).lvWish core false else s

/-- Whether a unit is one that F executes (R81). -/
def isFloat (maj fn : Nat) : Bool :=
  maj = 11 || (maj = 12 && 6 ≤ fn && fn ≤ 11) || (maj = 13 && ((10 ≤ fn && fn ≤ 12) || fn = 15))

/-- The pipe of a unit (R81): X 0, I 1, F 2, S 3, M 4. -/
def pipeOf (maj fn : Nat) : Nat :=
  if maj ≤ 8 then 0 else if isFloat maj fn then 2 else if maj ≤ 13 then 1 else if maj ≤ 15 then 3 else 4

/-- The pipe a unit takes: a unit of F takes I when F is busy (R81). -/
def pipeTaken (pipe : Nat) (fBusy : Bool) : Nat := if pipe = 2 ∧ fBusy then 1 else pipe

/-- A unit of a context is counted in the newest interval. -/
def bumpUnits (l : List (NMap Nat)) (ctx : Nat) : List (NMap Nat) :=
  match l with
  | [] => [[(ctx, 1)]]
  | m :: r => mapSet m ctx (mapGet m ctx 0 + 1) :: r

/-- Whether the first stage of a pipe of a partition is occupied. -/
def Core.occupied (v : Core) (part pipe : Nat) : Bool := (mapGet? v.pipes (part * 8 + pipe)).isSome

/-- A unit of partition `part` of core `c` occupies the first stage of the pipe it takes with its class (R81, R85), and its
energy goes to its context (R412). -/
def State.charge (s : State) (c part ctx pipe cls : Nat) : State :=
  let v := s.core c
  let p := pipeTaken pipe (v.occupied part 2)
  (s.setCore c { v with pipes := mapSet v.pipes (part * 8 + p) (stageCycles p, cls), units := bumpUnits v.units ctx }).energy ctx
    (stageCycles p * pipeEnergy p (v.lv && !v.trn))

/-- An integer division has issued: for the 16 cycles after this one the partition's I pipe accepts no other (R138). -/
def State.divides (s : State) (c part : Nat) : State := s.modCore c fun v => { v with divs := mapSet v.divs part 17 }

/-- The unit `i` of group `g` has issued. -/
def State.paid (s : State) (g : Group) (i : Issued) : State :=
  let s1 := if i.div then s.divides g.core (partOfSlot g.slot) else s
  { s1.charge g.core (partOfSlot g.slot) g.ctx i.pipe i.cls with issued := some i }

/-! ### Stopping a context (R26, R27, R108) -/

/-- Whether a party is an engine's work for a group: a slice of a copy, a collective, or a `launch` or `recvq`. -/
def Party.engine : Party → Bool
  | .slice .. => true
  | .coll .. => true
  | .op .. => true
  | _ => false

/-- The engine work of context `n` is discarded: matrix queues, copies, collectives, monitors and
their statuses on the way. -/
def State.dropWork (s : State) (n : Nat) : State :=
  { s with
    svcWaits := s.svcWaits.filter fun w => !(w.ctx = n && w.who.engine),
    groups := mapAll s.groups fun _ g => if g.ctx = n then { g with mxq := [] } else g,
    wgs := mapAll s.wgs fun _ w => if w.ctx = n then { w with copies := [] } else w,
    colls := s.colls.filter fun c => c.ctx ≠ n,
    home := { s.home with
      mons := s.home.mons.filter fun m => m.ctx ≠ n,
      msgs := s.home.msgs.filter fun m => match s.grp? m.grp with | some g => g.ctx ≠ n | none => true } }

/-- A context fault (R108): the faulting group halts, the context stops taking work. A second one adds nothing. -/
def State.contextFault (s : State) (k : Nat) (g : Group) (t : Trap) : State :=
  let s1 := s.setGrp k { g with halted := true }
  match (s.ctx g.ctx).stop with
  | .running =>
    (s1.dropWork g.ctx).modCtx g.ctx fun c => { c with stop := .faulted s.dev.tns t g.wgid g.slot false }
  | _ => s1

/-! ### Taking a trap (R104, R105, R107) -/

/-- The group that holds the handler bank of a partition, if any. A halted group runs no handler any more and holds none
(DEDUCED, LE 40). -/
def State.bankHolder (s : State) (c part : Nat) : Option Nat :=
  (s.groups.find? fun kv => kv.2.inH && !kv.2.halted && kv.2.core = c && partOfSlot kv.2.slot = part).map Prod.fst

/-- The groups that wait for the handler bank of a partition (R107). -/
def State.bankWaiters (s : State) (c part : Nat) : NMap Group :=
  s.groups.filter fun kv => kv.2.bankWait.isSome && !kv.2.halted && kv.2.core = c && partOfSlot kv.2.slot = part

/-- The group first in line for a partition's handler bank: in the order of the traps, the lower slot on a tie (R107). -/
def State.nextWaiter (s : State) (c part : Nat) : Option (Nat × Group) :=
  (s.bankWaiters c part).foldl (fun b kv => match b with
    | some x => if kv.2.bankOrder < x.2.bankOrder || (kv.2.bankOrder = x.2.bankOrder && kv.2.slot < x.2.slot) then some kv else b
    | none => some kv) none

/-- Enter the handler (R105, steps 2 to 4), at a time and with the name the next access takes. -/
def Group.enterHandler (g : Group) (t : Trap) (tns next : Nat) : Group :=
  { g with
    trapc := BitVec.ofNat 64 (t.cause + if t.deferred then 256 else 0), trapa := t.a, trappc := t.pc, trapi := t.i,
    h := [], bank := [0, 0, 0, 0, 0, 0, g.exm, t.resume], exm := allOnes, pc := g.handler, inH := true, hTns := tns, hId := next,
    bankWait := none, dieH := t.cause = 0x0F,
    qtr := if t.cause = 3 then t.i.toNat % 16 else g.qtr, qwh := if t.cause = 3 then t.a.toNat % 4 else g.qwh }

/-- Whether a context is stopped by a context fault or DIE. -/
def Ctx.stopped (c : Ctx) : Bool := match c.stop with | .running => false | _ => true

/-- Take a trap in group `k` (R105, R106, R108) of a context that is not stopped: a context fault in handler mode or
without a handler; otherwise entry, or a place in the line for the partition's handler bank (R107). -/
def State.trapIn (s : State) (k : Nat) (g : Group) (t : Trap) : State :=
  let g := { g with park := 0, woken := false, parkArg := [], exiting := false, flaWait := false }
  if g.inH then
    s.contextFault k g { cause := 0x13, a := BitVec.ofNat 64 t.cause, pc := t.pc, i := t.i }
  else if g.handler = 0 then s.contextFault k g t
  else if (s.bankHolder g.core (partOfSlot g.slot)).isNone && (s.bankWaiters g.core (partOfSlot g.slot)).isEmpty then
    s.setGrp k (g.enterHandler t s.dev.tns s.nextId)
  else
    let v := s.core g.core
    (s.setCore g.core { v with bankSeq := v.bankSeq + 1 }).setGrp k { g with bankWait := some t, bankOrder := v.bankSeq }

/-- Whether the group runs the handler of its context's DIE trap (R27). -/
def Group.inDie (g : Group) : Bool := g.inH && g.dieH

/-- A group reaches a fault point after its context's DIE verdict (R27, steps 2 and 3): the first enters its handler if it
has one and is not in it; every other group halts. -/
def State.dieAtFaultPoint (s : State) (k : Nat) (g : Group) : State :=
  match (s.ctx g.ctx).stop with
  | .die tns ds reached posted =>
    let s1 := if !reached && g.handler ≠ 0 && !g.inH then
        s.trapIn k { g with bankWait := none } { cause := 0x0F, a := BitVec.ofNat 64 (ds.headD 0), pc := g.pc, resume := g.pc }
      else s.setGrp k { g with halted := true, bankWait := none }
    s1.modCtx g.ctx fun c => { c with stop := .die tns ds true posted }
  | _ => s

/-- Take a trap in group `k`: a group of a context stopped by a fault halts without entering a handler (R108), and DIE
comes before any other trap (R27, R109). -/
def State.takeTrap (s : State) (k : Nat) (g : Group) (t : Trap) : State :=
  match (s.ctx g.ctx).stop with
  | .running => s.trapIn k g t
  | .faulted .. => s.setGrp k { g with halted := true, bankWait := none }
  | .die .. => if g.inDie then s.trapIn k g t else s.dieAtFaultPoint k g

/-- The group first in line for a partition's free handler bank enters its handler, or halts if its context has
stopped meanwhile (R27, R107, R108). -/
def State.passBank (s : State) (c part : Nat) : State :=
  if (s.bankHolder c part).isSome then s
  else match s.nextWaiter c part with
    | none => s
    | some (k, g) =>
      match g.bankWait with
      | none => s
      | some t =>
        if !(match s.wg? g.wg with | some w => w.state = .resident | none => false) then s
        else match (s.ctx g.ctx).stop with
          | .running => s.setGrp k (g.enterHandler t s.dev.tns s.nextId)
          | .faulted .. => s.setGrp k { g with halted := true, bankWait := none }
          | .die .. => if t.cause = 0x0F then s.setGrp k (g.enterHandler t s.dev.tns s.nextId) else s.dieAtFaultPoint k g

/-- The return from a trap (R114): EXM and PC from the banked s62 and s63; the bank is free. -/
def Group.leaveHandler (g : Group) : Group :=
  { g with exm := regGet g.bank 6, pc := regGet g.bank 7, inH := false, dieH := false, urgent := false }

/-- Whether the context's DIE trap still has no handler entered. -/
def Ctx.diePending (c : Ctx) : Option Nat := match c.stop with | .die _ ds false _ => ds.head? | _ => none

/-- Whether a DIE verdict of the group's context acts on it at a fault point; the group that runs its handler goes on
(R27). -/
def State.dieWaits (s : State) (g : Group) : Bool := !g.inDie && match (s.ctx g.ctx).stop with | .die .. => true | _ => false

/-- Insert a fault in program order. -/
def insFault (f : PFault) : List PFault → List PFault
  | [] => [f]
  | x :: r => if f.id < x.id then f :: x :: r else x :: insFault f r

/-- The recorded faults that may be taken: in handler mode those of the handler's own accesses, the others wait for
`rte` (R104, R106). -/
def Group.takable (g : Group) : List PFault := if g.inH then g.faults.filter fun f => g.hId ≤ f.id else g.faults

/-- Whether the registers below the faulting one of its unit have completed (R193). -/
def Group.lowerDone (g : Group) (f : PFault) : Bool :=
  f.unit = 0 || g.ops.all fun o => o.unit ≠ f.unit || f.id ≤ o.id || o.performed

/-- Take a recorded fault (R104). -/
def State.takeFault (s : State) (k : Nat) (g : Group) (f : PFault) : State :=
  s.takeTrap k { g with faults := g.faults.erase f } { f.trap with deferred := true, resume := g.pc }

/-- Whether the group is parked where a fault recorded later is taken at once: at a wait on the synchronization engine,
or past a `bar` whose phase has completed (R104). -/
def Group.parkedToTake (g : Group) : Bool := g.park = 2 || g.park = 4 || g.park = 5 || g.park = 6 || g.park = 10

/-- A parked group takes its earliest fault, once the registers below it have completed (R104, R193). -/
def State.takeParked (s : State) (k : Nat) : State :=
  match s.grp? k with
  | none => s
  | some g =>
    if s.residentGrp g && g.parkedToTake then
      match g.takable with
      | f :: _ => if g.lowerDone f then s.takeFault k g f else s
      | [] => s
    else s

/-- Record a deferred fault (R104). A group parked at a wait on the synchronization engine is unparked to take it
there. -/
def State.recordFault (s : State) (k : Nat) (g : Group) (f : PFault) : State :=
  (s.setGrp k { g with faults := insFault f g.faults }).takeParked k

/-! ### Idle clusters (R77) -/

/-- Whether a workgroup holds the resources of R63. -/
def Workgroup.holds (w : Workgroup) : Bool := w.state ≠ .waiting && w.state ≠ .swapped

/-- Whether a cluster is idle (R77). -/
def State.clusterIdle (s : State) (l : Nat) : Bool :=
  (s.wgs.all fun kv => !(kv.2.holds && clusterOfCore kv.2.core = l) && !(kv.2.copies.any fun c => c.started && !c.done && c.clu = l)) &&
    (List.range 4).all fun i => !(s.core (4 * l + i)).filler

/-- The idle timer of a cluster starts as it becomes idle and is cleared as it stops being idle (R77). -/
def State.noteIdle (s : State) (l : Nat) : State :=
  let c := s.cluster l
  if c.idle = s.clusterIdle l then s else s.setCluster l { c with idle := s.clusterIdle l, idleTns := s.dev.tns }

/-! ### A group's end (R63, R112) -/

/-- Every group of the workgroup has ended: it exits (R70), and its grid has one live workgroup less (R61). Its WGM,
tile rows and B-store slots stay until its copies are done (R256). -/
def State.exitWg (s : State) (w : Nat) (v : Workgroup) : State :=
  let s1 := if v.copies.isEmpty then { s with wgs := mapDel s.wgs w } else s.setWg w { v with state := .exited }
  ({ s1 with grids := mapMod s1.grids v.grid fun gr =>
      if v.spawnKey.isSome then { gr with spawned := gr.spawned - 1 } else { gr with live := gr.live - 1 } } : State).noteIdle
    (clusterOfCore v.core)

/-- The built-in barrier's phase completes when every group not ended has arrived (R265): the arrived groups go on. -/
def State.barCheck (s : State) (w : Nat) : State :=
  match s.wg? w with
  | none => s
  | some v =>
    let ks := s.groupsOf w
    let waiting := ks.filter fun k => match s.grp? k with | some g => v.barArr.contains g.idx | none => false
    if v.barArr.isEmpty || waiting.length ≠ ks.length then s
    else
      let s1 := s.setWg w { v with barArr := [], barPhase := (v.barPhase + 1) % 2 ^ 32 }
      let held := ks.filter fun k => match s.grp? k with | some g => g.park = 1 | none => false
      held.foldl (fun t k => match t.grp? k with
        | some g => (t.setGrp k { g with park := if g.takable.isEmpty then 0 else 10, parkArg := [] }).takeParked k
        | none => t) s1

/-- Group `k` ends: its slot, registers and handler bank are free (R63, R106, R112). -/
def State.endGroup (s : State) (k : Nat) (g : Group) : State :=
  let s1 := ({ s with groups := mapDel s.groups k } : State).modWg g.wg fun v => { v with gone := mapSet v.gone g.idx g.cpn }
  let s2 := match s1.wg? g.wg with
    | none => s1
    | some v => if (s1.groupsOf g.wg).isEmpty then s1.exitWg g.wg v else s1.barCheck g.wg
  if g.inH then s2.passBank g.core (partOfSlot g.slot) else s2

end Sys2Proof.Machine
end

