-- ==== Sys2Proof/Machine/Routes.lean ====
section
/-! DEFINITION. The strands of a pair of chiplets and the way from one chiplet to another (R350-R354). -/

namespace Sys2Proof.Machine

/-! ### Strands (R350-R352) -/

/-- Strands of a mask, in the order A0-A5, B0-B5. -/
def strandsOf (m : Nat) : List Nat := (List.range 12).filter fun i => bitOf m i
/-- All strands of the bands that MODE names (R352): both, A only, B only; both for relay. -/
def bandMask (mode : Nat) : Nat := if mode = 1 then 0x3F else if mode = 2 then 0xFC0 else 0xFFF
/-- Strands of a pair that have not failed. -/
def Pair.good (v : Pair) : Nat := 0xFFF &&& (0xFFF ^^^ v.fail)
/-- Strands of a pair that are neither failed nor gated (R350). -/
def Pair.usable (v : Pair) : Nat := v.good &&& (0xFFF ^^^ v.gated)

/-- The sentinel strand (R351): A0, else B0, else the first that has not failed; 15 when none. -/
def Pair.sentinel (v : Pair) : Nat :=
  if !bitOf v.fail 0 then 0 else if !bitOf v.fail 6 then 6 else (strandsOf v.good).headD 15

/-- Whether a packet is sent direct (R354): MODE is not relay and a named band holds a strand that has not failed; with AUTO = 0 a
band without a usable strand counts as failed (R353). -/
def Pair.direct (v : Pair) : Bool := v.mode ≠ 3 && ((if v.auto then v.good else v.usable) &&& bandMask v.mode) ≠ 0

/-! ### Routes (R354) -/

/-- Whether chiplet k can relay from c to t (R354). -/
def State.canRelay (s : State) (c k t : Nat) : Bool :=
  k < 50 && k ≠ c && k ≠ t && !(s.chip k).dead && (s.pair c k).good ≠ 0 && (s.pair k t).good ≠ 0

/-- The relay of a packet from c to t (R354). -/
def State.relayOf (s : State) (c t : Nat) : Option Nat :=
  let r := (s.pair c t).rly
  if s.canRelay c r t then some r else (List.range 50).find? fun k => s.canRelay c k t

/-- The chiplet that traffic from c to t goes to first: t, a relay, or none (R354). -/
def State.wayOut (s : State) (c t : Nat) : Option Nat := if (s.pair c t).direct then some t else s.relayOf c t

/-- Whether chiplets c and t can reach each other now (R354): a request and its response each have a route. -/
def State.routed (s : State) (c t : Nat) : Bool := c = t || ((s.wayOut c t).isSome && (s.wayOut t c).isSome)

end Sys2Proof.Machine
end

