-- ==== Sys2Proof/Machine/Home.lean ====
section
/-! DEFINITION. Device memory at its home slices: where an address lives, what a slice and a die cache hold, and what a read
or a write of a line does with every copy of it (R16, R303-R312, R318, R320, R323). -/

namespace Sys2Proof.Machine

/-! ### Where an address lives (R303-R305) -/

/-- The fold of a row number (F of R303). -/
def foldL (l : Nat) : Nat :=
  Nat.xor (l % 32) (Nat.xor (l / 2 ^ 5 % 32) (Nat.xor (l / 2 ^ 10 % 32)
    (Nat.xor (l / 2 ^ 15 % 32) (Nat.xor (l / 2 ^ 20 % 32) (l / 2 ^ 25 % 8)))))

/-- Whether MD`n` is a parity die of row L (R304). -/
def parityDie (l n : Nat) : Bool := n = l % 16 || n = 16 + Nat.xor (l % 16) 8

/-- The interleave positions of row L that hold data in Guarded mode, ascending (e of R303). -/
def dataPlaces (l : Nat) : List Nat := (List.range 32).filter fun v => !parityDie l (Nat.xor v (foldL l))

/-- Row and memory die of a device address (R303). -/
def homeRow (isOpen : Bool) (da : Nat) : Nat × Nat :=
  if isOpen then
    let l := da / 2 ^ 13 % 2 ^ 28
    (l, Nat.xor (da / 2 ^ 8 % 32) (foldL l))
  else
    let g := da / 256
    let l := g / 30
    (l, Nat.xor ((dataPlaces l).getD (g % 30) 0) (foldL l))

/-- The memory die of a device address. -/
def homeDie (isOpen : Bool) (da : Nat) : Nat := (homeRow isOpen da).2

/-- The byte of a device address within its die's 64 GiB (R303). -/
def homeOffset (isOpen : Bool) (da : Nat) : Nat := (homeRow isOpen da).1 * 256 + da % 256

/-- The home slice number on its die (R303). -/
def homeSlice (isOpen : Bool) (da : Nat) : Nat :=
  let l := (homeRow isOpen da).1
  Nat.xor (l % 2 ^ 16) (l / 2 ^ 16 % 2 ^ 12) % 160

/-- The serving die of memory die `n` (R305): itself, or the first live one in the order of R305. -/
def servingDie (lost : List Nat) (n : Nat) : Nat :=
  if lost.contains n then
    (((List.range 16).map fun k => Nat.xor n (16 + k)).find? fun m => !lost.contains m).getD n
  else n

/-- The global number of the slice that serves a device address now (R10, R303, R305). -/
def State.sliceOf (s : State) (da : Nat) : Nat :=
  servingDie s.home.lost (homeDie s.dev.memOpen da) * 160 + homeSlice s.dev.memOpen da

/-- The chiplet of the memory die whose slice serves a line. -/
def State.homeChip (s : State) (line : Nat) : Nat := 16 + s.sliceOf (line * 128) / 160

/-- Whether chiplet `c` and the home slices of lines can reach each other (R354). -/
def State.linesRouted (s : State) (c : Nat) (ls : List Nat) : Bool := ls.all fun l => s.routed c (s.homeChip l)

/-- Whether a device address is memory (R23). -/
def State.isMem (s : State) (a : Nat) : Bool := if s.dev.memOpen then a < 0x20000000000 else a < 0x1E000000000

/-- The device addresses, in ascending order, of the data bytes of a stripe group (0 MD0-MD15, 1 MD16-MD31) of row L at one
offset of their granules in Guarded mode (R304). -/
def stripeBytes (grp l off : Nat) : List Nat :=
  ((List.range 30).filter fun j => homeDie false ((l * 30 + j) * 256) / 16 = grp).map fun j => (l * 30 + j) * 256 + off

/-- Exclusive or of bytes. -/
def xorBytes (l : List Byte) : Byte := l.foldr (fun a b => a ^^^ b) 0

/-- A byte of a parity granule in Guarded mode: the xor of the data granules of its group at the same offset (R304). Every
write updates the parity with the line, so what the parity granule holds follows from the data and is no state of its own. -/
def State.parityByte (s : State) (grp l off : Nat) : Byte := xorBytes ((stripeBytes grp l off).map (memRead s.mem))

/-- What a read of a byte on a lost die returns in Guarded mode: the xor of the parity and of the group's other data granules
(R305). It is the byte that `State.mem` holds (`Laws.rebuilt_eq`), so reads need no case for a lost die. -/
def State.rebuilt (s : State) (da : Nat) : Byte :=
  let row := homeRow false da
  s.parityByte (row.2 / 16) row.1 (da % 256) ^^^
    xorBytes (((stripeBytes (row.2 / 16) row.1 (da % 256)).filter fun b => b ≠ da).map (memRead s.mem))

/-! ### The tables of a slice and of a die cache (R306, R307, R318) -/

/-- The current value of a byte: the M owner's newer byte, or the home's. -/
def State.rdByte (s : State) (a : Nat) : Byte := (mapGet? s.home.dirty a).getD (memRead s.mem a)
/-- `n` bytes of device memory at their current value. -/
def State.rdBytes (s : State) (a n : Nat) : List Byte := (List.range n).map fun i => s.rdByte (a + i)
/-- A little-endian word of device memory. -/
def State.rdNat (s : State) (a n : Nat) : Nat := leNat (s.rdBytes a n)

/-- Whether the directory state of a line went with a lost memory die, and the line has not been asked for since (R305). -/
def State.dirLost (s : State) (line : Nat) : Bool :=
  !s.home.lost.isEmpty && s.home.lost.contains (homeDie s.dev.memOpen (line * 128)) && !s.home.asked.contains line
/-- Directory state of a line. -/
def State.dirOf (s : State) (line : Nat) : DirSt := (mapGet? s.home.dir line).getD (if s.dirLost line then .L else .U)
/-- Set the directory state of a line; U is not listed. A lost die's line has then been asked for (R305). -/
def State.setDir (s : State) (line : Nat) (d : DirSt) : State :=
  s.modHome fun h => { h with dir := if d = .U then mapDel h.dir line else mapSet h.dir line d,
                              asked := if s.dirLost line then line :: h.asked else h.asked }
/-- A die's state of a line. -/
def State.lineOf (s : State) (d line : Nat) : LineSt := (mapGet (s.die d).lines line {}).st
/-- Set a die's state of a line; I is not listed. -/
def State.setLine (s : State) (d line : Nat) (st : LineSt) : State :=
  let v := s.die d
  s.setDie d { v with lines := if st = .I then mapDel v.lines line else mapSet v.lines line { mapGet v.lines line {} with st := st } }
/-- A die's line is used now; a stream access places it least recently used (R188). -/
def State.touchLine (s : State) (d line : Nat) (stream : Bool) : State :=
  let v := s.die d
  s.setDie d { v with uses := v.uses + 1, lines := mapMod v.lines line fun l => { l with used := if stream then 0 else v.uses + 1 } }
/-- Whether a monitor is armed on the line (R312). -/
def State.monitored (s : State) (line : Nat) : Bool := s.home.mons.any fun m => m.da / 128 = line

/-- The set of its slice's directory, or with `n` sets of its home cache, that a line goes to (DESIGN CHOICE, LE 18). -/
def State.homeSet (s : State) (n line : Nat) : Nat :=
  s.sliceOf (line * 128) * n + (2 * ((homeRow s.dev.memOpen (line * 128)).1 / 160) + line % 2) % n

/-- Lines with a directory entry, or a request in progress that will need one, in the set of a line (R306). -/
def State.dirSet (s : State) (line : Nat) : List Nat :=
  ((s.home.dir.map Prod.fst ++ s.home.busy.map Prod.fst).eraseDups).filter fun l => s.homeSet 256 l = s.homeSet 256 line

/-- Whether a slice's filter has room: 4,096 entries (R306, R318). -/
def State.filterRoom (s : State) (slice : Nat) : Bool := (mapGet s.home.filter slice []).length < 4096

/-- Whether a request for a line can start: no other is in progress for it (R306), the directory has an entry for it or
one that can be freed, and the filter takes a write-back that it meets (R310, R318). -/
def State.lineFree (s : State) (line : Nat) : Bool :=
  (mapGet? s.home.busy line).isNone &&
  (s.home.dir.length + s.home.busy.length < 16 || (mapGet? s.home.dir line).isSome || (s.dirSet line).length < 16 ||
    (s.dirSet line).any fun l => (mapGet? s.home.busy l).isNone) &&
  s.home.puts.all fun p => p.line ≠ line || !p.dirty || s.filterRoom (s.sliceOf (line * 128))

/-- The filter entry of a request identifier at a slice. -/
def State.filterGet (s : State) (slice : Nat) (rid : ReqId) : Option Word :=
  ((mapGet s.home.filter slice []).find? fun e => e.rid = rid).map FiltEnt.word

/-- Record a request at the slice of its address, with its returned word (R318). -/
def State.filterAdd (s : State) (da : Nat) (rid : ReqId) (w : Word) : State :=
  let k := s.sliceOf da
  s.modHome fun h => { h with filter := mapSet h.filter k (mapGet h.filter k [] ++ [{ rid := rid, da := da, word := w }]) }

/-- The sources release their requests: the entries go (R318). -/
def State.filterDrop (s : State) (rids : List ReqId) : State :=
  s.modHome fun h =>
    { h with filter := (h.filter.map fun kv => (kv.1, kv.2.filter fun e => !rids.contains e.rid)).filter fun kv => !kv.2.isEmpty }

/-- Whether a write of a line can be performed at its home slice: the line is free, and the filter takes its identifier
(R306, R318). A write whose response returns in the step that performs it leaves no entry behind (DEDUCED, LE 69). -/
def State.writeRoom (s : State) (line : Nat) : Bool := s.lineFree line && s.filterRoom (s.sliceOf (line * 128))

/-- Whether a die's store to a line can be performed: at the home slice when the line is monitored (R312). -/
def State.storeRoom (s : State) (line : Nat) : Bool := if s.monitored line then s.writeRoom line else s.lineFree line

/-- A home slice uses a line: it comes first in its set of the home cache, and the sixteen used last stay. In Open mode a
written line stays dirty until it is evicted, which brings it to HBM; in Guarded mode HBM is written with it (R304, R306). -/
def State.homeUse (s : State) (line : Nat) (wr : Bool) : State :=
  let k := s.homeSet 64 line
  let set := mapGet s.home.cache k []
  let dirty := s.dev.memOpen && (wr || set.contains (line, true))
  s.modHome fun h => { h with cache := mapSet h.cache k (((line, dirty) :: set.filter fun e => e.1 ≠ line).take 16) }

/-! ### Moving lines (R306-R310) -/

/-- Bring a line's newer bytes home (a recall or a write-back, R308-R310): the slice's cache holds them, dirty in Open mode
(R304). -/
def State.flushLine (s : State) (line : Nat) : State :=
  let mine := s.home.dirty.filter fun c => c.1 / 128 = line
  let s1 : State := { s with mem := mine.foldl (fun m c => memWrite m c.1 c.2) s.mem,
                             home := { s.home with dirty := s.home.dirty.filter fun c => c.1 / 128 ≠ line } }
  if mine.isEmpty then s1 else s1.homeUse line true

/-- Dies of a mask. -/
def diesOf (mask : Nat) : List Nat := (List.range 16).filter fun d => bitOf mask d

/-- Change the request in progress for a line. -/
def State.modReq (s : State) (line : Nat) (f : LineReq → LineReq) : State :=
  s.modHome fun h => { h with busy := mapMod h.busy line f }

/-- The request identifier of a die's write-back (R318; its requester number, DESIGN CHOICE, LE 20). -/
def putRid (die seq : Nat) : ReqId := { src := die, req := 2 ^ 15 + 130, seq := seq % 2 ^ 24 }

/-- A Put in flight reaches the home: its data are the line's and its identifier is recorded, the owner's entry goes, and it
answers a snoop it crosses, whose Gone no longer counts (R308, R310, R318). The die stays in WP until its PutAck. -/
def State.landPut (s : State) (p : Put) : State :=
  let s1 := s.modHome fun h => { h with puts := h.puts.filter fun x => !(x.die = p.die && x.line = p.line) }
  let s2 := if p.dirty then ((s1.flushLine p.line).homeUse p.line true).filterAdd (p.line * 128) (putRid p.die p.seq) 0 else s1
  let s3 := if s2.dirOf p.line = .X p.die then s2.setDir p.line .U else s2
  s3.modReq p.line fun q => { q with snoops := q.snoops.map fun n => if n.die = p.die then { n with answered := true } else n }

/-- A die has the acknowledgment of its write-back of a line: the line goes, and its request is released (R307, R318). -/
def State.putAcked (s : State) (d line : Nat) : State :=
  (s.setLine d line .I).filterDrop [putRid d (mapGet (s.die d).lines line {}).put]

/-- A request that meets a write-back of its line waits for it (R310): the Puts in flight are received, and the dies that sent
them have their acknowledgments. -/
def State.quiet (s : State) (line : Nat) : State :=
  let s1 := (s.home.puts.filter fun p => p.line = line).foldl State.landPut s
  (mapKeys s1.dies fun _ v => (mapGet v.lines line {}).st = .WP).foldl (fun t d => t.putAcked d line) s1

/-- A home slice whose directory state went with a lost die recalls the line from all sixteen dies (R305). -/
def State.recallAll (s : State) (line : Nat) : State :=
  ((List.range 16).foldl (fun t d => t.setLine d line .I) (s.flushLine line)).setDir line .U

/-- Every copy of a line is recalled or invalidated, as a write performed at the home needs (R308); a write-through
writer keeps its copy. -/
def State.recall (s0 : State) (line : Nat) (writer : Option Nat) : State :=
  let s := (s0.quiet line).flushLine line
  match s.dirOf line with
  | .U => s
  | .L => s.recallAll line
  | .X o => (s.setLine o line .I).setDir line .U
  | .S m =>
    let s1 := ((diesOf m).filter fun d => some d ≠ writer).foldl (fun t e => t.setLine e line .I) s
    match writer with
    | some d => if bitOf m d then s1.setDir line (.S (2 ^ d)) else s1.setDir line .U
    | none => s1.setDir line .U

/-- Free a directory entry for a line that has none and whose set is full: the first line without a request in progress is
recalled or invalidated wherever it is held (R306; which one, DESIGN CHOICE, LE 18). -/
def State.dirRoom (s : State) (line : Nat) : State :=
  if s.home.dir.length < 16 || (mapGet? s.home.dir line).isSome || (s.dirSet line).length < 16 then s
  else match (s.dirSet line).find? fun l => (mapGet? s.home.busy l).isNone with
    | some v => s.recall v none
    | none => s

/-- Whether a line of a die cache may leave it: it is not under way, and the filter takes the write-back of one in M (R307, R318). -/
def State.evictable (s : State) (kv : Nat × DieLine) : Bool :=
  (kv.2.st = .S || kv.2.st = .SWT || kv.2.st = .E || (kv.2.st = .M && s.filterRoom (s.sliceOf (kv.1 * 128)))) &&
    (mapGet? s.home.busy kv.1).isNone

/-- Whether a die cache has ways for lines (R8): of each set as many as do not stand in it yet, free or to be freed. -/
def State.waysFree (s : State) (d : Nat) (ls : List Nat) : Bool :=
  let v := s.die d
  v.lines.length + ls.length ≤ 16 ||
    (let new := ls.filter fun l => (mapGet? v.lines l).isNone
     new.all fun l =>
       let set := v.lines.filter fun kv => kv.1 % 16384 = l % 16384
       (new.filter fun x => x % 16384 = l % 16384).length + set.length ≤
         16 + (set.filter fun kv => s.evictable kv && !ls.contains kv.1).length)

/-- Free a way of a die cache for a line it does not hold: its set's least recently used line that is not under way leaves,
S and S-WT without a word to the home, E and M by a write-back (R307). -/
def State.dieRoom (s : State) (d line : Nat) : State :=
  let v := s.die d
  if v.lines.length < 16 || (mapGet? v.lines line).isSome then s
  else
    let set := v.lines.filter fun kv => kv.1 % 16384 = line % 16384
    if set.length < 16 then s
    else
      let out := set.filter s.evictable
      match out.find? fun kv => out.all fun x => kv.2.used ≤ x.2.used with
      | none => s
      | some (l, x) =>
        if x.st = .E || x.st = .M then (((s.flushLine l).homeUse l (x.st = .M)).setDir l .U).setLine d l .I
        else s.setLine d l .I

/-- A die takes a line in a state, in a way of its set; with none to be had it does not keep it (R8). -/
def State.takeLine (s : State) (d line : Nat) (st : LineSt) (stream : Bool) : State :=
  if s.waysFree d [line] then ((s.dieRoom d line).setLine d line st).touchLine d line stream else s

/-- The die cache of `d` obtains a readable copy of a line (GetS of R308, with its snoops). -/
def State.getS (s0 : State) (d line : Nat) (stream : Bool := false) : State :=
  let s := s0.quiet line
  if s.lineOf d line ≠ .I then s.touchLine d line stream
  else
    let s1 := (s.dirRoom line).homeUse line false
    let mon := s1.monitored line
    let mine : LineSt := if mon then .SWT else .S
    let fresh (t : State) : State :=
      if mon then (t.takeLine d line .SWT stream).setDir line (.S (2 ^ d)) else (t.takeLine d line .E stream).setDir line (.X d)
    match s1.dirOf line with
    | .U => fresh s1
    | .L => fresh (s1.recallAll line)
    | .S m => (s1.takeLine d line mine stream).setDir line (.S (if bitOf m d then m else m + 2 ^ d))
    | .X o => if o = d then fresh (s1.flushLine line)
              else (((s1.flushLine line).setLine o line .S).takeLine d line mine stream).setDir line (.S (2 ^ o + 2 ^ d))

/-- The die cache of `d` obtains a line in M (GetM of R308, with its snoops), an M owner's bytes with it; a monitored line comes in
S-WT. -/
def State.getM (s0 : State) (d line : Nat) (stream : Bool := false) : State :=
  let s := s0.quiet line
  let st := s.lineOf d line
  if st = .M || (st = .SWT && s.monitored line) then s.touchLine d line stream
  else
    let s1 := s.dirRoom line
    let s2 := match s1.dirOf line with
      | .U => s1.homeUse line false
      | .L => (s1.recallAll line).homeUse line false
      | .S m => (((diesOf m).filter (· ≠ d)).foldl (fun (t : State) e => t.setLine e line .I) s1).homeUse line false
      | .X o => if o = d then s1 else s1.setLine o line .I
    if s.monitored line then ((s2.flushLine line).takeLine d line .SWT stream).setDir line (.S (2 ^ d))
    else (s2.takeLine d line .M stream).setDir line (.X d)

/-! ### Requests message by message (R306-R311) -/

/-- A snoop to a die, sent now. -/
def State.snoop (s : State) (die kind : Nat) : Snoop := { die := die, kind := kind, sent := s.dev.tns }

/-- Once every snoop of a line's request is answered, the directory takes its new state and the grant leaves (R308). -/
def State.lineStep (s : State) (line : Nat) : State :=
  match mapGet? s.home.busy line with
  | none => s
  | some q =>
    if q.grant.isSome || q.snoops.any fun n => !n.answered then s
    else
      let mon := s.monitored line
      let give (t : State) (st : LineSt) (d : DirSt) : State :=
        (((if st = .SWT then t.flushLine line else t).modReq line fun q => { q with grant := some st }).setDir line d).homeUse line false
      if q.kind = 0 then
        match s.dirOf line with
        | .S m => give s (if mon then .SWT else .S) (.S (if bitOf m q.die then m else m + 2 ^ q.die))
        | .X o => give s (if mon then .SWT else .S) (.S (if o = q.die then 2 ^ o else 2 ^ o + 2 ^ q.die))
        | _ => if mon then give s .SWT (.S (2 ^ q.die)) else give s .E (.X q.die)
      else if mon then give s .SWT (.S (2 ^ q.die)) else give s .M (.X q.die)

/-- The first snoop to a die for a line that has not arrived. -/
def State.openSnoop (s : State) (d line kind : Nat) : Bool :=
  match mapGet? s.home.busy line with
  | some q => q.snoops.any fun n => n.die = d && n.kind = kind && !n.arrived && !n.answered
  | none => false

/-- A snoop has arrived; `gone` when the die was in WP, `data` when its answer brings the line's data. -/
def State.arriveSnoop (s : State) (d line : Nat) (gone : Bool) (data : Bool := false) : State :=
  s.modReq line fun q => { q with snoops := q.snoops.map fun n =>
    if n.die = d && !n.arrived then { n with arrived := true, gone := gone, data := data } else n }

/-- An Inv arrives: the die acknowledges, and an upgrade it waits for becomes a request for the data (R309). -/
def State.invSnoop (s : State) (d line : Nat) : State :=
  if !s.openSnoop d line 0 then s
  else
    let s1 := s.arriveSnoop d line false
    match s.lineOf d line with
    | .S => s1.setLine d line .I
    | .SWT => s1.setLine d line .I
    | .SM => s1.setLine d line .IM
    | _ => s1

/-- A recall arrives: E acknowledges, M answers with its data, which are on their way until the home has the answer, WP answers
Gone (R309); a recall sent to all sixteen dies (R305) also takes a clean copy away. -/
def State.recallSnoop (s : State) (d line kind : Nat) (after : LineSt) : State :=
  if !s.openSnoop d line kind then s
  else match s.lineOf d line with
    | .E => (s.arriveSnoop d line false).setLine d line after
    | .M => (s.arriveSnoop d line false true).setLine d line after
    | .WP => s.arriveSnoop d line true
    | .S => (s.arriveSnoop d line false).setLine d line after
    | .SWT => (s.arriveSnoop d line false).setLine d line after
    | _ => s.arriveSnoop d line false

/-- The home takes the answer of a snoop that has arrived: data that it brings are the line's at home, or go with the grant of M
(R308, R311). A Gone still waits for its Put (R310). -/
def State.answerSnoop (s : State) (d line : Nat) : State :=
  let home := (mapGet? s.home.busy line).any fun q => q.kind ≠ 1 && q.snoops.any fun n => n.die = d && n.arrived && n.data && !n.answered
  ((if home then s.flushLine line else s).modReq line fun q => { q with snoops := q.snoops.map fun n =>
    if n.die = d && n.arrived && !n.gone then { n with answered := true } else n }).lineStep line

/-- The grant of a line's request reaches its die, and the request is over (R308). -/
def State.arriveGrant (s : State) (d line : Nat) : State :=
  match mapGet? s.home.busy line with
  | some q =>
    (match q.grant with
     | some st => if q.die = d then (s.takeLine d line st false).modHome fun h => { h with busy := mapDel h.busy line } else s
     | none => s)
  | none => s

/-- The request in progress for a line is carried through: what its slice waits for arrives, then the grant (R306). -/
def State.settleLine (s : State) (line : Nat) : State :=
  match mapGet? s.home.busy line with
  | none => s
  | some q =>
    let s1 := q.snoops.foldl (fun t n =>
      let t1 := match n.kind with
        | 0 => t.invSnoop n.die line
        | 1 => t.recallSnoop n.die line 1 .S
        | _ => t.recallSnoop n.die line 2 .I
      (((t1.home.puts.filter fun p => p.line = line).foldl State.landPut t1).answerSnoop n.die line)) (s.lineStep line)
    s1.arriveGrant q.die line

/-! ### Writes (R190, R308, R312, R320) -/

/-- Whether a monitor's comparison is met by a word (R319). -/
def cmpMet (cmp : Nat) (w v : Word) : Bool :=
  match cmp with
  | 0 => w = v
  | 1 => w ≠ v
  | 2 => v.toNat ≤ w.toNat
  | 3 => w.toNat < v.toNat
  | 4 => v.toInt ≤ w.toInt
  | 5 => w.toInt < v.toInt
  | _ => w &&& v ≠ 0

/-- Evaluate every monitor armed on a line (R320): a met one returns status 0 and is freed. -/
def State.evalMons (s : State) (line : Nat) : State :=
  let met := s.home.mons.filter fun m =>
    m.da / 128 = line && cmpMet m.cmp (BitVec.ofNat 32 (s.rdNat m.da 4)) m.val
  s.modHome fun h =>
    { h with mons := h.mons.filter (fun m => !(met.any fun x => x.order = m.order)),
             msgs := h.msgs ++ met.map fun m => { grp := m.grp, status := 0 } }

/-- Lines of a span of device addresses. -/
def spanLines (da n : Nat) : List Nat := ((List.range n).map fun i => (da + i) / 128).eraseDups

/-- Write bytes at the home slice as one write (R308): a request in progress for a line comes first (R306); copies recalled,
bytes written, monitors evaluated. -/
def State.homeWrite (s : State) (writer : Option Nat) (a : Nat) (bs : List Byte) : State :=
  let lines := spanLines a bs.length
  let s1 := lines.foldl (fun t l => ((t.settleLine l).recall l writer).homeUse l true) s
  let s2 := { s1 with mem := memWriteBytes s1.mem a bs }
  lines.foldl (fun t l => t.evalMons l) s2

/-- Consecutive device bytes as runs: address and bytes. -/
def daRuns : List (Place × Byte) → List (Nat × List Byte)
  | [] => []
  | (.da a, b) :: r =>
    (match daRuns r with
     | (a1, bs) :: t => if a1 = a + 1 && a1 % 128 ≠ 0 then (a, b :: bs) :: t else (a, [b]) :: (a1, bs) :: t
     | [] => [(a, [b])])
  | _ :: r => daRuns r

/-- A die's store of bytes of one line, as one write: in its cache in M, or at the home when the line is monitored (R190, R312). -/
def State.dieWrite (s : State) (d a : Nat) (bs : List Byte) (stream : Bool := false) : State :=
  let line := a / 128
  let s1 := s.getM d line stream
  if s1.monitored line then s1.homeWrite (some d) a bs
  else s1.modHome fun h => { h with dirty := bs.zipIdx.foldl (fun m p => mapSet m (a + p.2) p.1) h.dirty }

/-! ### The L1 pool (R189) -/

/-- Allocate an L1 line with the bytes the die cache holds now; the lowest line leaves when the L1 is full (DESIGN CHOICE, LE 18). -/
def State.l1Fill (s : State) (c line : Nat) : State :=
  if s.l1Room c = 0 then s
  else s.modCore c fun v =>
    let l1 := if v.l1.length < s.l1Room c then v.l1 else v.l1.drop 1
    { v with l1 := mapSet l1 line (s.rdBytes (line * 128) 128) }

end Sys2Proof.Machine
end

