-- ==== Sys2Proof/Machine/Report.lean ====
section
/-! DEFINITION. Reports to hosts (R406): the ring of a function, its vectors, and the routing of a report. -/

namespace Sys2Proof.Machine

/-- Entries of a function's report ring; none below the least LOG of R401. -/
def HostFn.ringLog (h : HostFn) : Nat := bitsOf h.rptb.toNat 48 4

/-- Vector 0 is due: sent at once when 10 µs have passed since the last, else kept pending (R406). -/
def HostFn.signal (h : HostFn) (tns : Nat) : HostFn :=
  if h.vectors = 0 || h.vecTns + 10000 ≤ tns then { h with vectors := h.vectors + 1, vecTns := tns, vecPending := false }
  else { h with vecPending := true }

/-- The 64 bytes of a report numbered `seq` in its ring. -/
def Report.bytes (r : Report) (seq : Nat) : List Byte :=
  leBytes 8 (seq % 2 ^ 32 + r.type * 2 ^ 32 + r.ctx * 2 ^ 40 + r.chip * 2 ^ 48) ++ leBytes 8 r.tns ++
    (List.range 5).flatMap (fun i => leBytes 8 (regGet r.args i).toNat) ++ leBytes 8 0

/-- Write a report into function f's ring and raise RPTT; a full ring drops it (R406). A ring not configured drops it
too (DESIGN CHOICE, LE 21). -/
def State.ringPost (s : State) (f : Nat) (r : Report) : State :=
  let h := s.host f
  if h.ringLog < 4 || 2 ^ h.ringLog ≤ (h.rptt - h.rpth).toNat then
    s.setHost f { h with lost := min 65535 (h.lost + 1) }
  else
    let a := h.rptb.toNat % 2 ^ 48 + 64 * (h.rptt.toNat % 2 ^ h.ringLog)
    let s1 := s.homeWrite none a (r.bytes h.rptt.toNat)
    let h1 := { h with rptt := h.rptt + 1 }
    s1.setHost f ((if r.type = 3 then { h1 with vectors1 := h1.vectors1 + 1 } else h1).signal s.dev.tns)

/-- Post a report (R406): context reports to the function CTXCFG.HOST names if attached, all others to the owner;
without an owner it is held, the oldest of 256 dropped. -/
def State.post (s : State) (r0 : Report) : State :=
  let r := { r0 with tns := s.dev.tns }
  let mine := (s.ctx r.ctx).host
  if (r.type = 1 || r.type = 2 || r.type = 3 || r.type = 9) && (s.host mine).up then s.ringPost mine r
  else if s.dev.ownHeld then s.ringPost s.dev.ownFn r
  else s.modDev fun d => { d with reports := (if 256 ≤ d.reports.length then d.reports.drop 1 else d.reports) ++ [r] }

/-- The held reports go to the owner, once there is one. -/
def State.postHeld (s : State) : State :=
  if s.dev.ownHeld then
    s.dev.reports.foldl (fun t r => t.ringPost t.dev.ownFn r) (s.modDev fun d => { d with reports := [] })
  else s

end Sys2Proof.Machine
end

