-- ==== Sys2Proof/Machine/Image.lean ====
section
/-! DEFINITION. The save image of a workgroup (R74, R197, R275, R282, R300): its size and its bytes. A completion of
a workgroup that is swapped out changes its image's bytes (R17, R277), and a resume restores the records from them. -/

namespace Sys2Proof.Machine

/-- Bytes of the image of a workgroup of `n` groups (R74, R282). -/
def imageSize (n allot wgmw tsrows bslots : Nat) : Nat :=
  256 + n * 2048 + n * allot * 8192 + wgmw * 32768 + tsrows * 2048 + bslots * 65536 + 4096 + n * 512 + n * 2048 +
    bslots * 4097

/-- A field of `v` at byte offset `o`, bit `lo`. -/
def fieldAt (o lo v : Nat) : Nat := v * 2 ^ (8 * o + lo)

/-- Section offsets of R74: groups, registers, WGM, tile rows, B-store slots, synchronization, matrix, waiting table,
scales. -/
def imageOffs (n allot wgmw tsrows bslots : Nat) : List Nat :=
  let a := 256
  let b := a + n * 2048
  let c := b + n * allot * 8192
  let d := c + wgmw * 32768
  let e := d + tsrows * 2048
  let f := e + bslots * 65536
  let g := f + 4096
  let h := g + n * 512
  [a, b, c, d, e, f, g, h, h + n * 2048]

/-- The image header, with its STATE. -/
def Workgroup.header (w : Workgroup) (st : Nat) : Nat :=
  1 + fieldAt 0 8 st + fieldAt 0 12 (if w.held then 1 else 0) + fieldAt 0 13 w.ngrp + fieldAt 0 18 w.ctx +
    fieldAt 0 24 w.prio + fieldAt 0 27 w.eprio + fieldAt 0x08 0 w.wgid.toNat + fieldAt 0x10 0 w.grid +
    fieldAt 0x18 0 w.saveTns + fieldAt 0x20 0 (w.allot + w.wgmw * 2 ^ 6 + w.tsrows * 2 ^ 11 + w.bslots * 2 ^ 22) +
    fieldAt 0x20 32 w.clu + fieldAt 0x28 0 (imageSize w.ngrp w.allot w.wgmw w.tsrows w.bslots) +
    (((imageOffs w.ngrp w.allot w.wgmw w.tsrows w.bslots).take 8).zipIdx.map fun p => fieldAt (0x30 + 4 * p.2) 0 (p.1 % 2 ^ 32)).sum +
    fieldAt 0x50 0 w.ctl + (w.tok.zipIdx.map fun p => fieldAt (0x58 + 8 * p.2) 0 p.1).sum + fieldAt 0x98 0 w.cplc

/-- A sum of 64-bit words from an offset up. -/
def wordsFrom (o : Nat) (l : List DWord) : Nat := (l.zipIdx.map fun p => fieldAt (o + 8 * p.2) 0 p.1.toNat).sum

/-- A return stack entry as it lies in memory (R93). -/
def RetEnt.word (e : RetEnt) : Nat := e.pc.toNat % 2 ^ 52 + e.frame % 16 * 2 ^ 52
/-- A reconvergence stack entry as it lies in memory (R93). -/
def RecEnt.words (e : RecEnt) : List DWord :=
  [BitVec.ofNat 64 (e.pc.toNat / 2 * 2 + if e.kindD then 1 else 0), e.exm, e.fmt]

/-- A group record (R74). -/
def Group.record (g : Group) : Nat :=
  wordsFrom 0 [g.pc, g.exm, g.mode, g.fmt, BitVec.ofNat 64 g.wb, g.spc.bits, g.trapc, g.trapa, g.trappc, g.trapi,
    BitVec.ofNat 64 g.mtl] +
  fieldAt 0x58 0 ((if g.park ≤ 9 then g.park else 0) + (if g.woken then 16 else 0) + g.ret.length * 2 ^ 5 + g.recs.length * 2 ^ 10 +
    (if g.agg then 2 ^ 16 else 0) + if g.peerP then 2 ^ 17 else 0) +
  fieldAt 0x60 0 (g.qtr * 2 ^ 32 + g.qwh * 2 ^ 36 +
    natOfBits 16 (fun n => !(g.queues.getD n {}).ents.isEmpty) +
    natOfBits 16 (fun n => (g.queues.getD n {}).depth ≠ 0 && (g.queues.getD n {}).ents.length = (g.queues.getD n {}).depth) * 2 ^ 16) +
  wordsFrom 0x68 g.lvc + wordsFrom 0xA8 (g.s.drop 1) + wordsFrom 0x2A0 (g.p.drop 1) +
  (g.ret.zipIdx.map fun p => fieldAt (0x318 + 8 * p.2) 0 p.1.word).sum +
  (g.recs.zipIdx.map fun p => wordsFrom (0x398 + 24 * p.2) p.1.words).sum +
  wordsFrom 0x698 (g.parkArg.take 4) +
  fieldAt 0x6B8 0 (g.n + g.qtot * 2 ^ 11 + g.low * 2 ^ 22 + g.high * 2 ^ 36) +
  (g.queues.zipIdx.map fun p => fieldAt (0x6C0 + p.2) 0 p.1.depth + fieldAt (0x6D0 + p.2) 0 p.1.ents.length).sum +
  fieldAt 0x6E0 0 (g.retSp + g.recSp * 2 ^ 16)

/-- The bytes of one register. -/
def lanesBytes (l : Lanes) : List Byte := laneIdx.flatMap fun i => leBytes 4 (laneGet l i).toNat

/-- The queue entry held in a physical register of the queue part, if any. -/
def queuePhys (qs : List QReg) (r : Nat) : Option Lanes :=
  match qs with
  | [] => none
  | q :: t => if r < q.depth then (q.ents[r]?).map QEnt.lanes else queuePhys t (r - q.depth)

/-- Physical register r of a group (R74, R84). -/
def Group.phys (g : Group) (r : Nat) : Lanes :=
  if r < g.res then
    let p := g.low + (r + g.res - g.low % g.res) % g.res
    if p < g.high then g.readPos p else zeroLanes
  else (queuePhys g.queues (r - g.res)).getD zeroLanes

/-- The matrix area of a group (R300). -/
def Group.matrixArea (g : Group) : Nat :=
  g.mxc.toNat + fieldAt 8 0 g.nis +
    (g.mxq.zipIdx.map fun p =>
      let o := 0x40 + 56 * p.2
      fieldAt o 0 (p.1.pc.toNat / 4 % 2 ^ 50 + p.1.op * 2 ^ 50 + 2 ^ 53) + fieldAt (o + 8) 0 p.1.num +
        fieldAt (o + 0x10) 0 (p.1.arg.toNat % 2 ^ 34 + p.1.step * 2 ^ 52) + wordsFrom (o + 0x18) p.1.desc).sum

/-- The units of a group parked in the waiting table, each with its operations in order (R194). -/
def Group.parkedUnits (g : Group) : List (List Op) :=
  let isP (o : Op) : Bool := match o.wait with | .parked .. => true | _ => false
  ((g.ops.filter isP).map Op.unit).eraseDups.map fun u => g.ops.filter fun o => isP o && o.unit = u

/-- One entry of the waiting-table area (R197). VO and DATA of a lane whose LMASK bit is clear are zero (DESIGN CHOICE, LE 79). -/
def waitEntry (us : List Op) : Nat :=
  match us with
  | [] => 0
  | o :: _ =>
    let last := us.getLast?.getD o
    let w := match o.wait with | .parked _ _ va t => (va, t) | _ => (0, 0)
    let base := regGet o.arg 0
    o.pc.toNat + fieldAt 8 0 base.toNat + fieldAt 0x10 0 (natOfBits 64 fun i => o.accs.any fun a => a.lane = i && !a.done) +
      fieldAt 0x18 0 (o.maj + o.fn * 2 ^ 5 + o.ord * 2 ^ 8 + o.scope * 2 ^ 10 + o.dnum * 2 ^ 12 + last.dnum * 2 ^ 19 +
        if o.dq then 2 ^ 26 else 0) +
      fieldAt 0x20 0 w.1 + fieldAt 0x28 0 w.2 +
      (o.accs.map fun a => fieldAt (0x40 + 4 * a.lane) 0 ((a.va - base).toNat % 2 ^ 32) +
        (if o.dq then fieldAt (0x140 + 4 * a.lane) 0 (leNat (a.data.take 4)) else 0)).sum

/-- The waiting-table area of a group (R197). -/
def Group.waitArea (g : Group) : Nat :=
  let us := g.parkedUnits
  us.length + (us.zipIdx.map fun p => waitEntry p.1 * 2 ^ (8 * (0x40 + 0x240 * p.2))).sum

/-- The slices of copies not started, with their copy number (R255). -/
def Workgroup.looseSlices (w : Workgroup) : List (Nat × CopySlice) :=
  (w.copies.filter fun c => !c.started).flatMap fun c => c.slices.map fun l => (c.num, l)

/-- The synchronization area (R275); `cpn` are the groups' copy counts. -/
def Workgroup.syncArea (w : Workgroup) (cpn : Nat → Nat) : Nat :=
  w.bars.length + w.looseSlices.length * 2 ^ 7 + natOfBits 16 (fun g => w.barArr.contains g) * 2 ^ 16 + w.barPhase * 2 ^ 32 +
    fieldAt 8 0 (natOfBits 64 fun n => (mapGet? w.semas n).isSome) + fieldAt 0x10 0 w.acnt +
    ((List.range 16).map fun g => fieldAt (0x40 + 8 * g) 0 (cpn g)).sum +
    (w.semas.map fun kv => fieldAt (0xC0 + 4 * kv.1) 0 kv.2).sum +
    (w.bars.zipIdx.map fun p =>
      fieldAt (0x1C0 + 16 * p.2) 0 (p.1.phase + p.1.pend * 2 ^ 32 + p.1.expa * 2 ^ 40 + p.1.refs * 2 ^ 48 + p.1.reg * 2 ^ 56) +
        fieldAt (0x1C8 + 16 * p.2) 0 ((p.1.tx % 2 ^ 48).toNat + p.1.aid * 2 ^ 48)).sum +
    (w.looseSlices.zipIdx.map fun p =>
      let l := p.1.2
      fieldAt (0x5C0 + 80 * p.2) 0 p.1.1 + fieldAt (0x5C8 + 80 * p.2) 0 (l.grp + l.fn * 2 ^ 4 + l.tok * 2 ^ 7) +
        wordsFrom (0x5D0 + 80 * p.2) l.desc).sum

/-- Lines of a workgroup's image. -/
def Workgroup.imageLines (w : Workgroup) : Nat := (imageSize w.ngrp w.allot w.wgmw w.tsrows w.bslots + 127) / 128

/-- Device address of a workgroup's image. -/
def State.imageBase (s : State) (w : Workgroup) : Nat :=
  (s.ctx w.ctx).saveb.toNat % 2 ^ 48 + (w.saveSlot.getD 0) * ((s.ctx w.ctx).slotkb * 1024)

/-- Write the header of a workgroup's image. -/
def State.writeHeader (s : State) (w : Workgroup) (st : Nat) : State :=
  s.homeWrite none (s.imageBase w) (leBytes 256 (w.header st))

/-- Write the image of a workgroup, its header last with STATE 1; its context is charged for its lines (R71, R74, R412). -/
def State.writeImage (s : State) (wk : Nat) : State :=
  match s.wg? wk with
  | none => s
  | some w =>
    let base := s.imageBase w
    let off := imageOffs w.ngrp w.allot w.wgmw w.tsrows w.bslots
    let at_ (i : Nat) : Nat := base + off.getD i 0
    let grp (i : Nat) : Option Group := s.grp? (gkey wk i)
    let put (t : State) (a : Nat) (bs : List Byte) : State := t.homeWrite none a bs
    let s1 := (List.range w.ngrp).foldl (fun t i =>
      match grp i with
      | none => put t (at_ 0 + 2048 * i) (leBytes 2048 (fieldAt 0x58 0 9))
      | some g =>
        let t1 := put t (at_ 0 + 2048 * i) (leBytes 2048 g.record)
        let t2 := (List.range (32 * w.allot)).foldl (fun u r =>
          put u (at_ 1 + i * w.allot * 8192 + 256 * r) (lanesBytes (g.phys r))) t1
        let t3 := put t2 (at_ 6 + 512 * i) (leBytes 512 g.matrixArea)
        put t3 (at_ 7 + 2048 * i) (leBytes 2048 g.waitArea)) s
    let s2 := put s1 (at_ 2) (memReadBytes w.wgm 0 (w.wgmw * 32768))
    let s3 := put s2 (at_ 3) ((List.range (w.tsrows * 512)).flatMap fun c => leBytes 4 (mapGet w.tiles c 0).toNat)
    let s4 := (List.range w.bslots).foldl (fun t n =>
      let t1 := put t (at_ 4 + 65536 * n) (memReadBytes w.bst (n * 2 ^ 17) 65536)
      let t2 := put t1 (at_ 8 + 4096 * n) (memReadBytes w.bst (n * 2 ^ 17 + 65536) 4096)
      put t2 (at_ 8 + 4096 * w.bslots + n) (leBytes 1 (mapGet w.btag n 15))) s3
    let s5 := put s4 (at_ 5) (leBytes 4096 (w.syncArea fun i => (grp i).elim (mapGet w.gone i 0) Group.cpn))
    (s5.writeHeader w 1).energy w.ctx (110000 * w.imageLines)

/-! ### Reading an image back (R72, R277) -/

/-- The bytes of a span of device memory now, as sparse memory from address 0. -/
def State.spanMem (s : State) (a n : Nat) : Mem :=
  let cells := (s.mem ++ s.home.dirty).filter fun c => a ≤ c.1 && c.1 < a + n
  cells.foldl (fun m c => memWrite m (c.1 - a) c.2) []

/-- Device address of a section of a workgroup's image. -/
def State.imageAt (s : State) (w : Workgroup) (i : Nat) : Nat :=
  s.imageBase w + (imageOffs w.ngrp w.allot w.wgmw w.tsrows w.bslots).getD i 0

/-- A 64-bit word of a record held as one number. -/
def wordAt (n o : Nat) : Nat := bitsOf n (8 * o) 64

/-- Barrier record b of a synchronization area (R275). -/
def barAt (syn b : Nat) : TxBar :=
  let v := wordAt syn (0x1C0 + 16 * b)
  let t := wordAt syn (0x1C8 + 16 * b)
  { reg := bitsOf v 56 8, phase := v % 2 ^ 32, pend := bitsOf v 32 8, expa := bitsOf v 40 8, refs := bitsOf v 48 8,
    aid := t / 2 ^ 48, tx := sextNat 48 (t % 2 ^ 48) }

/-- The records that an image's header and synchronization area hold (R74, R275). -/
def Workgroup.fromSync (w : Workgroup) (hdr syn : Nat) : Workgroup :=
  { w with
    ctl := wordAt hdr 0x50, tok := (List.range 8).map fun i => wordAt hdr (0x58 + 8 * i), cplc := wordAt hdr 0x98,
    bars := (List.range (bitsOf syn 0 7)).map (barAt syn), barArr := (List.range 16).filter fun g => bitOf syn (16 + g),
    barPhase := bitsOf syn 32 32, acnt := wordAt syn 0x10 % 2 ^ 16,
    semas := ((List.range 64).filter fun n => bitOf (wordAt syn 8) n).map fun n => (n, bitsOf syn (8 * (0xC0 + 4 * n)) 32) }

/-- Whether a workgroup's records are in its image. -/
def Workgroup.imaged (w : Workgroup) : Bool := w.state = .swapped || w.state = .resuming

/-- The records of a workgroup whose image holds them, as the image has them now: what a completion changes (R17, R277). -/
def State.pull (s : State) (wk : Nat) : State :=
  match s.wg? wk with
  | some w => if w.imaged then s.setWg wk (w.fromSync (s.rdNat (s.imageBase w) 256) (s.rdNat (s.imageAt w 5) 4096)) else s
  | none => s

/-- Write `n` bytes of a number into device memory. -/
def State.putNat (s : State) (a n v : Nat) : State := s.homeWrite none a (leBytes n v)

/-- The fields of R277 go back to the image: CTL, CPLC, the semaphores' values and the barrier records. -/
def State.push (s : State) (wk : Nat) : State :=
  match s.wg? wk with
  | none => s
  | some w =>
    if !w.imaged then s
    else
      let h := s.imageBase w
      let y := s.imageAt w 5
      let syn := w.syncArea fun _ => 0
      let s1 := (s.putNat (h + 0x50) 8 w.ctl).putNat (h + 0x98) 8 w.cplc
      let s2 := w.semas.foldl (fun t kv => t.putNat (y + 0xC0 + 4 * kv.1) 4 kv.2) s1
      (List.range w.bars.length).foldl (fun t b => t.putNat (y + 0x1C0 + 16 * b) 16 (bitsOf syn (8 * (0x1C0 + 16 * b)) 128)) s2

/-- A completion was applied to a workgroup that is not resident: CPLC counts it, and its image's bytes follow (R17,
R277). -/
def State.applied (s : State) (wk : Nat) : State :=
  match s.wg? wk with
  | none => s
  | some w =>
    if w.state = .saving || w.imaged then (s.setWg wk { w with cplc := w.cplc + 1 }).push wk else s

/-- WOKEN of a group's record in the image (R71). -/
def State.pushWoken (s : State) (k : Nat) : State :=
  match s.grp? k with
  | none => s
  | some g =>
    match s.wg? g.wg with
    | none => s
    | some w =>
      let a := s.imageAt w 0 + 2048 * g.idx + 0x58
      let v := s.rdNat a 1
      if w.imaged && !bitOf v 4 then s.putNat a 1 (v + 16) else s

/-- HOLD of a workgroup's image header (R74, R80). -/
def State.pushHold (s : State) (wk : Nat) : State :=
  match s.wg? wk with
  | none => s
  | some w =>
    let a := s.imageBase w + 1
    let v := s.rdNat a 1
    if w.imaged then s.putNat a 1 (v % 16 + (if w.held then 16 else 0) + v / 32 * 32) else s

end Sys2Proof.Machine
end

