-- ==== Sys2Proof/Machine/Operands.lean ====
section
/-! DEFINITION. Operand forms: vector operand fields, pairs, the crossbar, queue heads, the active lanes, vector
destinations (R32-R39, R96, R97, R136). -/

namespace Sys2Proof

/-- X.XA of a unit; identity without an X prefix. -/
def Pfx.xa (p : Pfx) : Fin 512 := (p.x.map XPre.xa).getD 0
/-- X.XB of a unit. -/
def Pfx.xb (p : Pfx) : Fin 512 := (p.x.map XPre.xb).getD 0
/-- X.RM of a unit; 0 without an X prefix. -/
def Pfx.rm (p : Pfx) : Nat := (p.x.map fun x => x.rm.val).getD 0
/-- Y.IMM20 of a unit; 0 without a Y prefix. -/
def Pfx.imm (p : Pfx) : BitVec 20 := (p.y.map YPre.imm).getD 0
/-- PEEK (R38). -/
def Pfx.peek (p : Pfx) : Bool := p.imm.getLsbD 0
/-- Words of a unit with these prefixes. -/
def Pfx.len (p : Pfx) : Nat := 1 + (if p.x.isSome then 1 else 0) + if p.y.isSome then 1 else 0

end Sys2Proof

namespace Sys2Proof.Machine

/-- The source lane that lane `i` reads under a crossbar field, or none for the value 0 (R36). -/
def xbarLane (x : Fin 512) (i : Nat) : Option Nat :=
  let amt := x.val % 64
  match x.val / 64 with
  | 1 => some ((i + amt) % 64)
  | 2 => some amt
  | 3 => some (Nat.xor i amt)
  | 4 => some (i / 2 ^ amt * 2 ^ amt + (2 ^ amt - 1 - i % 2 ^ amt))
  | 5 => if i + amt ≤ 63 then some (i + amt) else none
  | 6 => if amt ≤ i then some (i - amt) else none
  | _ => some i

/-- A register's lane through a crossbar field. -/
def xbar (x : Fin 512) (f : Nat → Word) (i : Nat) : Word := ((xbarLane x i).map f).getD 0

/-- Lanes the X guard lets through (R35). -/
def guardMask (p : Pfx) (g : Group) : DWord :=
  match p.x with
  | some x => if x.g then (if x.neg then ~~~ (g.readP x.pred.val) else g.readP x.pred.val) else allOnes
  | none => allOnes

/-- The active lanes of a vector unit (R35, R136). -/
def activeMask (p : Pfx) (g : Group) : DWord := g.exm &&& guardMask p g

/-- The lanes of queue n's head; an empty queue reads zero. -/
def Group.head (g : Group) (n : Nat) : Lanes :=
  match (g.queues.getD n {}).ents with
  | e :: _ => e.lanes
  | [] => zeroLanes

/-- A vector operand's lanes before the crossbar (R32): window, queue head, or broadcast scalar or handler bank. -/
def Group.src (g : Group) (f : VFld) (i : Nat) : Word :=
  if f.val < 96 then laneGet (g.readV f.val) i
  else if f.val < 112 then laneGet (g.head (f.val - 96)) i
  else if g.inH then laneGet (mapGet g.h (f.val - 112) zeroLanes) i
  else (g.readS (f.val - 112)).setWidth 32

/-- The high word of a 64-bit operand named by its even member (R33). -/
def Group.srcHi (g : Group) (f : VFld) (i : Nat) : Word :=
  if 112 ≤ f.val ∧ g.inH = false then ((g.readS (f.val - 112)) >>> 32).setWidth 32
  else g.src (f + 1) i

/-- A 64-bit operand's lane, both words through one crossbar mapping (R36). -/
def Group.src64 (g : Group) (f : VFld) (x : Fin 512) (i : Nat) : DWord :=
  (xbar x (g.srcHi f) i) ++ (xbar x (g.src f) i)

/-- The registers a vector source reads (R82). -/
def Group.vReg (g : Group) (f : VFld) : Dst :=
  if f.val < 96 then .pos (g.wb + f.val)
  else if f.val < 112 then .none
  else if g.inH then .h (f.val - 112)
  else g.sDst (f.val - 112)

/-- The register a vector destination names; a queue is no register. -/
def Group.vDst (g : Group) (f : VFld) : Dst :=
  if f.val < 96 then .pos (g.wb + f.val) else if f.val < 112 then .none else .h (f.val - 112)

/-- The fields of the pair a 64-bit operand names: one field for a broadcast scalar. -/
def pairFields (g : Group) (f : VFld) : List VFld := if 112 ≤ f.val ∧ g.inH = false then [f] else [f, f + 1]

/-- The fields of the four registers of a 128-bit operand. -/
def quadFields (f : VFld) : List VFld := [f, f + 1, f + 2, f + 3]

/-- The fields D to E of a register range. -/
def rangeFields (d e : Nat) : List VFld := (List.range (e + 1 - d)).map fun k => Fin.ofNat 128 (d + k)

/-- The queue numbers among fields. -/
def queuesOf (l : List VFld) : List Nat :=
  (l.filter fun f => 96 ≤ f.val && f.val < 112).map fun f => f.val - 96

/-- Pop one entry of queue n. -/
def Group.popQ (g : Group) (n : Nat) : Group :=
  let q := g.queues.getD n {}
  { g with queues := g.queues.set n { q with ents := q.ents.drop 1 } }

/-- Reserve an entry of queue n with what the write-back will fill in (R96). -/
def Group.pushQ (g : Group) (n : Nat) (l : Lanes) : Group :=
  let q := g.queues.getD n {}
  { g with queues := g.queues.set n { q with ents := q.ents ++ [{ lanes := l, filled := false }] } }

/-- Write lanes `m` of a vector destination field from `f`: a queue gets a whole entry, inactive lanes zero (R96,
R136); nothing is pushed when no lane is active. -/
def Group.writeF (g : Group) (d : VFld) (m : DWord) (f : Nat → Word) : Group :=
  if 96 ≤ d.val ∧ d.val < 112 then
    (if m = 0 then g else g.pushQ (d.val - 96) (mergeLanes m zeroLanes f))
  else g.writeDst (g.vDst d) m f

/-- Write bits `m` of a predicate register (R148). -/
def Group.writePBits (g : Group) (d : Nat) (m : DWord) (f : Nat → Bool) : Group :=
  g.writeP d ((g.readP d &&& ~~~ m) ||| (maskOf f &&& m))

/-- The queue checks of R97, in their order: the trap of the first that fails. -/
def queueCheck (g : Group) (srcs dsts : List Nat) (peek someActive : Bool) : Option (Nat × Nat) :=
  let all := srcs ++ dsts
  let depth (n : Nat) : Nat := (g.queues.getD n {}).depth
  let occ (n : Nat) : Nat := (g.queues.getD n {}).ents.length
  match (List.range 16).find? fun n => all.contains n && depth n = 0 with
  | some n => some (3, n)
  | none =>
    if !someActive then none
    else match (List.range 16).find? fun n => srcs.contains n && occ n = 0 with
      | some n => some (0, n)
      | none =>
        match (List.range 16).find? fun n =>
            dsts.contains n && depth n ≤ occ n - (if srcs.contains n && !peek then 1 else 0) with
        | some n => some (1, n)
        | none => none

/-- Whether every queue head read has been filled (R96). -/
def headsFilled (g : Group) (srcs : List Nat) : Bool :=
  srcs.all fun n => match (g.queues.getD n {}).ents with | e :: _ => e.filled | [] => true

end Sys2Proof.Machine
end

