-- ==== Sys2Proof/Machine/Float.lean ====
section
/-! DEFINITION. Number formats and rounding (R144-R147, R158-R175): exact values, the one rounding each result takes,
stochastic draws, narrow formats, EM8, and the special functions rounded once to nearest. -/

namespace Sys2Proof.Machine

/-! ### Sticky flags, by their MODE bits (R164) -/

/-- MODE.NV. -/
def flNV : Nat := 32
/-- MODE.DZ. -/
def flDZ : Nat := 64
/-- MODE.OF. -/
def flOF : Nat := 128
/-- MODE.UF. -/
def flUF : Nat := 256
/-- MODE.NX. -/
def flNX : Nat := 512

/-- A result's bits and the flags it raises. -/
abbrev FRes := Nat × Nat

/-! ### Formats (R160) -/

/-- A format with infinities and NaNs. -/
structure FFmt where
  w : Nat
  eb : Nat
  mb : Nat
  bias : Int
  cnan : Nat
deriving DecidableEq, Repr

/-- FP32. -/
def fp32 : FFmt := { w := 32, eb := 8, mb := 23, bias := 127, cnan := 0x7FC00000 }
/-- FP16. -/
def fp16 : FFmt := { w := 16, eb := 5, mb := 10, bias := 15, cnan := 0x7E00 }
/-- BF16. -/
def bf16 : FFmt := { w := 16, eb := 8, mb := 7, bias := 127, cnan := 0x7FC0 }

/-- Exponent of the smallest subnormal. -/
def FFmt.qmin (f : FFmt) : Int := 1 - f.bias - f.mb
/-- The infinity's magnitude bits. -/
def FFmt.infPat (f : FFmt) : Nat := (2 ^ f.eb - 1) * 2 ^ f.mb
/-- The sign bit's weight. -/
def FFmt.sbit (f : FFmt) : Nat := 2 ^ (f.w - 1)

/-- A value read from a format, or an exact intermediate: a finite one is (−1)^neg × m × 2^e. -/
inductive FVal where
  | nan (sig : Bool)
  | inf (neg : Bool)
  | fin (neg : Bool) (m : Nat) (e : Int)
deriving DecidableEq, Repr

/-- The value of a bit pattern. -/
def FFmt.unpack (f : FFmt) (b : Nat) : FVal :=
  let neg := b / f.sbit % 2 == 1
  let e := b / 2 ^ f.mb % 2 ^ f.eb
  let m := b % 2 ^ f.mb
  if e = 2 ^ f.eb - 1 then (if m = 0 then .inf neg else .nan (m < 2 ^ (f.mb - 1)))
  else if e = 0 then .fin neg m f.qmin
  else .fin neg (2 ^ f.mb + m) (f.qmin + e - 1)

/-- Read FP32 under MODE.FTZ: a subnormal is the zero of its sign (R144). -/
def rd32 (ftz : Bool) (b : Nat) : FVal :=
  match fp32.unpack b with
  | .fin neg m e => if ftz && m < 2 ^ 23 then .fin neg 0 e else .fin neg m e
  | v => v

/-- Read BF16 under MODE.FTZ (R146). -/
def rdBf (ftz : Bool) (b : Nat) : FVal :=
  match bf16.unpack b with
  | .fin neg m e => if ftz && m < 2 ^ 7 then .fin neg 0 e else .fin neg m e
  | v => v

/-! ### Rounding (R168, R170) -/

/-- The draw of R170 from SEED, position and K. -/
def draw (seed j k : Nat) : Nat :=
  let M := 2 ^ 32
  let x0 := (seed + 0x9E3779B9 * (j + 1) + 0x27D4EB2F * k) % M
  let x1 := (Nat.xor x0 (x0 / 2 ^ 16) * 0x85EBCA6B) % M
  let x2 := (Nat.xor x1 (x1 / 2 ^ 13) * 0xC2B2AE35) % M
  Nat.xor x2 (x2 / 2 ^ 16) / 2 ^ 8

/-- How a rounding is done: its mode (1 rne to 6 rsr), SEED and position (R168-R170). -/
structure Rnd where
  rm : Nat
  seed : Nat := 0
  j : Nat := 0
deriving DecidableEq, Repr

/-- Whether hi is chosen over lo: the grid number of lo is `n`, v lies r / 2^k of a step beyond it (a little more when
`sticky`), and `kpat` is lo's bit pattern. -/
def roundsUp (c : Rnd) (neg : Bool) (n r k : Nat) (sticky : Bool) (kpat : Nat) : Bool :=
  let half := 2 ^ k
  match c.rm with
  | 2 => false
  | 3 => !neg && (r ≠ 0 || sticky)
  | 4 => neg && (r ≠ 0 || sticky)
  | 5 => half ≤ 2 * r
  | 6 =>
    let u := draw c.seed c.j kpat
    u * half < r * 2 ^ 24 || (u * half = r * 2 ^ 24 && sticky)
  | _ => half < 2 * r || (2 * r = half && (sticky || n % 2 = 1))

/-- Bit length. -/
def bitLen (n : Nat) : Nat := if n = 0 then 0 else Nat.log2 n + 1

/-- A magnitude m × 2^e cut on the grid of step 2^q: the grid number, the remainder and its denominator's exponent. -/
def cutAt (m : Nat) (e q : Int) : Nat × Nat × Nat :=
  if q < e then (m * 2 ^ (e - q).toNat, 0, 1)
  else let k := (q - e).toNat; (m / 2 ^ k, m % 2 ^ k, k)

/-- The pattern of the lower neighbour of a non-zero magnitude on a grid of `mb` fraction bits whose smallest step is
2^qmin, counted on with the exponent unbounded above. -/
def loPat (mb : Nat) (qmin : Int) (m : Nat) (e : Int) : Nat :=
  let q := max (e + (bitLen m : Int) - 1 - mb) qmin
  (q - qmin).toNat * 2 ^ mb + (cutAt m e q).1

/-- Round a non-zero magnitude on that grid: its pattern and whether it is inexact. -/
def roundMag (c : Rnd) (mb : Nat) (qmin : Int) (sbit : Nat) (neg : Bool) (m : Nat) (e : Int) (sticky : Bool) :
    Nat × Bool :=
  let q := max (e + (bitLen m : Int) - 1 - mb) qmin
  let (n, r, k) := cutAt m e q
  let lo := loPat mb qmin m e
  let up := roundsUp c neg n r k sticky (lo + if neg then sbit else 0)
  (lo + (if up then 1 else 0), r ≠ 0 || sticky)

/-- Whether the magnitude is tiny: rounded with the exponent unbounded it lies below 2^emin (R144). The rounding has one
draw (R170): `kpat` is the pattern that the result's own rounding draws with. -/
def isTiny (c : Rnd) (mb : Nat) (emin : Int) (neg : Bool) (m : Nat) (e : Int) (sticky : Bool) (kpat : Nat) : Bool :=
  let top := e + (bitLen m : Int) - 1
  if emin ≤ top then false
  else if top < emin - 1 then true
  else
    let (n, r, k) := cutAt m e (top - mb)
    let up := roundsUp c neg n r k sticky kpat
    n + (if up then 1 else 0) < 2 ^ (mb + 1)

/-- An exact result before its rounding. -/
inductive Ex where
  | nan (nv : Bool)
  | inf (neg : Bool)
  | zero (neg : Bool)
  | num (neg : Bool) (m : Nat) (e : Int) (sticky : Bool)
deriving DecidableEq, Repr

/-- Whether an overflow in a mode gives the largest finite value (R144, R171). -/
def toMax (rm : Nat) (neg : Bool) : Bool := rm == 2 || (rm == 3 && neg) || (rm == 4 && !neg)

/-- Round an exact result to a format with infinities (R144): the bits and the flags. -/
def FFmt.round (f : FFmt) (c : Rnd) (ftz : Bool) (x : Ex) : FRes :=
  let sg (neg : Bool) : Nat := if neg then f.sbit else 0
  match x with
  | .nan nv => (f.cnan, if nv then flNV else 0)
  | .inf neg => (sg neg + f.infPat, 0)
  | .zero neg => (sg neg, 0)
  | .num neg m e sticky =>
    if m = 0 && !sticky then (sg neg, 0)
    else
      let tiny := isTiny c f.mb (f.qmin + f.mb) neg m e sticky (loPat f.mb f.qmin m e + sg neg)
      if ftz && tiny then (sg neg, flUF + flNX)
      else
        let (p, ix) := roundMag c f.mb f.qmin f.sbit neg m e sticky
        if f.infPat ≤ p then
          (sg neg + (if toMax c.rm neg then f.infPat - 1 else f.infPat), flOF + flNX)
        else (sg neg + p, if ix then (if tiny then flUF + flNX else flNX) else 0)

/-! ### Exact arithmetic -/

/-- Any of the values is a NaN: the result is a NaN, invalid when one is signalling (R144). -/
def nanOf : List FVal → Option Ex
  | [] => none
  | l => if l.any (fun v => match v with | .nan _ => true | _ => false)
         then some (.nan (l.any fun v => match v with | .nan s => s | _ => false)) else none

/-- Negate exactly. -/
def FVal.neg : FVal → FVal
  | .nan s => .nan s
  | .inf n => .inf !n
  | .fin n m e => .fin (!n) m e

/-- A finite value as an integer multiple of 2^q, q at most its exponent. -/
def finInt (neg : Bool) (m : Nat) (e q : Int) : Int :=
  let v : Int := m * 2 ^ (e - q).toNat
  if neg then -v else v

/-- The exact sum of two values (R144): sign of an exact zero by the mode. -/
def addV (rm : Nat) (x y : FVal) : Ex :=
  match nanOf [x, y] with
  | some r => r
  | none =>
    match x, y with
    | .inf a, .inf b => if a = b then .inf a else .nan true
    | .inf a, _ => .inf a
    | _, .inf b => .inf b
    | .fin a m e, .fin b n d =>
      let q := min e d
      let s := finInt a m e q + finInt b n d q
      if s = 0 then .zero (if m = 0 && n = 0 && a == b then a else rm == 4)
      else .num (s < 0) s.natAbs q false
    | _, _ => .nan false

/-- The exact product, and whether it is an invalid 0 × ∞. -/
def mulV (x y : FVal) : FVal × Bool :=
  match x, y with
  | .nan s, .nan t => (.nan (s || t), false)
  | .nan s, _ => (.nan s, false)
  | _, .nan s => (.nan s, false)
  | .inf a, .inf b => (.inf (a != b), false)
  | .inf a, .fin b n _ => if n = 0 then (.nan true, true) else (.inf (a != b), false)
  | .fin a m _, .inf b => if m = 0 then (.nan true, true) else (.inf (a != b), false)
  | .fin a m e, .fin b n d => (.fin (a != b) (m * n) (e + d), false)

/-- An exact value as a result. -/
def FVal.ex : FVal → Ex
  | .nan s => .nan s
  | .inf n => .inf n
  | .fin n m e => if m = 0 then .zero n else .num n m e false

/-- x × y + z with one rounding to come (R145). -/
def fmaV (rm : Nat) (x y z : FVal) : Ex :=
  match mulV x y with
  | (_, true) => .nan true
  | (p, false) => addV rm p z

/-- The exact quotient of finite values, y not zero: 80 bits and a sticky bit. -/
def divFin (a : Bool) (m : Nat) (e : Int) (b : Bool) (n : Nat) (d : Int) : Ex :=
  if m = 0 then .zero (a != b)
  else .num (a != b) (m * 2 ^ 80 / n) (e - d - 80) (m * 2 ^ 80 % n ≠ 0)

/-- Integer square root, bit by bit from `k` down. -/
def isqrtFrom (n : Nat) : Nat → Nat → Nat
  | 0, r => r
  | k + 1, r => let t := r + 2 ^ k; isqrtFrom n k (if t * t ≤ n then t else r)

/-- Integer square root. -/
def isqrt (n : Nat) : Nat := isqrtFrom n (bitLen n / 2 + 1) 0

/-- √(m × 2^e) with 80 bits and a sticky bit. -/
def sqrtFin (m : Nat) (e : Int) : Ex :=
  let (m1, e1) := if e % 2 = 0 then (m, e) else (2 * m, e - 1)
  let v := m1 * 2 ^ 160
  let r := isqrt v
  .num false r (e1 / 2 - 80) (r * r ≠ v)

/-! ### FP32 units (R145-R150, R157) -/

/-- The modes a float unit reads at issue (R128, R144). -/
structure FMode where
  rm : Nat
  ftz : Bool
  sat : Bool
  seed : Nat
deriving DecidableEq, Repr

/-- The rounding of position `j`. -/
def FMode.rnd (c : FMode) (j : Nat) : Rnd := { rm := c.rm, seed := c.seed, j := j }

/-- fadd. -/
def fAdd (c : FMode) (j a b : Nat) : FRes := fp32.round (c.rnd j) c.ftz (addV c.rm (rd32 c.ftz a) (rd32 c.ftz b))
/-- fsub. -/
def fSub (c : FMode) (j a b : Nat) : FRes :=
  fp32.round (c.rnd j) c.ftz (addV c.rm (rd32 c.ftz a) (rd32 c.ftz b).neg)
/-- fmul. -/
def fMul (c : FMode) (j a b : Nat) : FRes := fp32.round (c.rnd j) c.ftz (mulV (rd32 c.ftz a) (rd32 c.ftz b)).1.ex
/-- ffma, ffms and fnma: the product or the addend negated. -/
def fFma (c : FMode) (np nz : Bool) (j a b z : Nat) : FRes :=
  let x := rd32 c.ftz a
  let w := rd32 c.ftz z
  fp32.round (c.rnd j) c.ftz (fmaV c.rm (if np then x.neg else x) (rd32 c.ftz b) (if nz then w.neg else w))

/-- Compare two numbers that are not NaN, −0 below +0 when `zs`. -/
def fLt (zs : Bool) (x y : FVal) : Bool :=
  match x, y with
  | .inf a, .inf b => a && !b
  | .inf a, _ => a
  | _, .inf b => !b
  | .fin a m e, .fin b n d =>
    let q := min e d
    let u := finInt a m e q
    let v := finInt b n d q
    u < v || (zs && u = v && m = 0 && a && !b)
  | _, _ => false

/-- Whether a value is a NaN. -/
def FVal.isNan : FVal → Bool
  | .nan _ => true
  | _ => false
/-- Whether a value is a signalling NaN. -/
def FVal.isSig : FVal → Bool
  | .nan s => s
  | _ => false

/-- The bits of an input after MODE.FTZ. -/
def flushed (ftz : Bool) (b : Nat) : Nat := if ftz && b % 2 ^ 31 < 2 ^ 23 then b / 2 ^ 31 * 2 ^ 31 else b

/-- fmin, fmax, fminm and fmaxm (R147): `mx` the greater, `m` the NaN-propagating forms. -/
def fMinMax (ftz mx m : Bool) (a b : Nat) : FRes :=
  let x := rd32 ftz a
  let y := rd32 ftz b
  let nv := if x.isSig || y.isSig then flNV else 0
  if x.isNan && y.isNan then (fp32.cnan, nv)
  else if x.isNan then (if m then fp32.cnan else flushed ftz b, nv)
  else if y.isNan then (if m then fp32.cnan else flushed ftz a, nv)
  else
    let first := if mx then !fLt true x y else !fLt true y x
    (if first then flushed ftz a else flushed ftz b, nv)

/-- fround (R145): to an integral value in the unit's mode. -/
def fRound (c : FMode) (j a : Nat) : FRes :=
  match rd32 c.ftz a with
  | .nan s => (fp32.cnan, if s then flNV else 0)
  | .inf n => ((if n then fp32.sbit else 0) + fp32.infPat, 0)
  | .fin neg m e =>
    if 0 ≤ e || m = 0 then (flushed c.ftz a, 0)
    else
      let (n, r, k) := cutAt m e 0
      let lo := (fp32.round { rm := 2 } false (if n = 0 then .zero neg else .num neg n 0 false)).1
      let up := roundsUp (c.rnd j) neg n r k false lo
      let v := n + if up then 1 else 0
      ((fp32.round { rm := 2 } false (if v = 0 then .zero neg else .num neg v 0 false)).1, if r ≠ 0 then flNX else 0)

/-- fldexp (R145): x × 2^sb. A step of more than 400 binades rounds as 400 does. -/
def fLdexp (c : FMode) (j a : Nat) (sb : Int) : FRes :=
  let t := max (-400) (min 400 sb)
  match rd32 c.ftz a with
  | .fin neg m e => fp32.round (c.rnd j) c.ftz (if m = 0 then .zero neg else .num neg m (e + t) false)
  | v => fp32.round (c.rnd j) c.ftz v.ex

/-- fgetexp (R147). -/
def fGetexp (ftz : Bool) (a : Nat) : FRes :=
  match rd32 ftz a with
  | .nan _ => (0x7FFFFFFF, flNV)
  | .inf _ => (0x7FFFFFFF, 0)
  | .fin _ m e => if m = 0 then (0x80000000, flNV)
                  else (((e + (bitLen m : Int) - 1) % 2 ^ 32).toNat, 0)

/-- A packed FP16 half of hadd2, hmul2 and hfma2 (R146): op 0 add, 1 mul, 2 fma. -/
def hOp (c : FMode) (op j a b z : Nat) : FRes :=
  let x := fp16.unpack a
  let y := fp16.unpack b
  fp16.round (c.rnd j) false
    (match op with
     | 0 => addV c.rm x y
     | 1 => (mulV x y).1.ex
     | _ => fmaV c.rm x y (fp16.unpack z))

/-- Both halves of a packed unit in lane i (R146, R170). -/
def hOp2 (c : FMode) (op i a b z : Nat) : FRes :=
  let lo := hOp c op i (a % 65536) (b % 65536) (z % 65536)
  let hi := hOp c op (64 + i) (a / 65536) (b / 65536) (z / 65536)
  (lo.1 + 65536 * hi.1, Nat.lor lo.2 hi.2)

/-- The exact sum of three values: NaN if any is or if infinities oppose. -/
def add3 (rm : Nat) (x y z : FVal) : Ex :=
  match nanOf [x, y, z] with
  | some r => r
  | none =>
    let infs := [x, y, z].filterMap fun v => match v with | .inf n => some n | _ => none
    match infs with
    | n :: r => if r.all (· = n) then .inf n else .nan true
    | [] =>
      match x, y, z with
      | .fin a m e, .fin b n d, .fin c k f =>
        let q := min e (min d f)
        let s := finInt a m e q + finInt b n d q + finInt c k f q
        if s = 0 then .zero (if m = 0 && n = 0 && k = 0 && a == b && b == c then a else rm == 4)
        else .num (s < 0) s.natAbs q false
      | _, _, _ => .nan false

/-- fdot2 (R146): two BF16 products and an FP32 addend, one rounding. A quiet NaN beside opposing infinities gives the NaN
without NV; beside a 0 × ∞ product it does not keep NV away (DESIGN CHOICE, LE 60). -/
def fDot2 (c : FMode) (j a b z : Nat) : FRes :=
  let r (v : Nat) := rdBf c.ftz v
  let xs := [r (a % 65536), r (b % 65536), r (a / 65536), r (b / 65536), rd32 c.ftz z]
  let p0 := mulV (r (a % 65536)) (r (b % 65536))
  let p1 := mulV (r (a / 65536)) (r (b / 65536))
  fp32.round (c.rnd j) c.ftz
    (if p0.2 || p1.2 then .nan true
     else if xs.any FVal.isNan then .nan (xs.any FVal.isSig)
     else add3 c.rm p0.1 p1.1 (rd32 c.ftz z))

/-- A float compare (R149): kind 0 eq, 1 ne, 2 lt, 3 le, 4 unordered. -/
def fCmp (ftz : Bool) (kind a b : Nat) : Bool × Nat :=
  let x := rd32 ftz a
  let y := rd32 ftz b
  let un := x.isNan || y.isNan
  let sig := if x.isSig || y.isSig then flNV else 0
  let lt := fLt false x y
  let gt := fLt false y x
  match kind with
  | 0 => (!un && !lt && !gt, sig)
  | 1 => (un || lt || gt, sig)
  | 2 => (!un && lt, if un then flNV else 0)
  | 3 => (!un && !gt, if un then flNV else 0)
  | _ => (un, sig)

/-- The class bit of a value (R150). -/
def fClass (ftz : Bool) (a : Nat) : Nat :=
  match rd32 ftz a with
  | .nan s => if s then 0 else 1
  | .inf n => if n then 2 else 9
  | .fin n m _ => if m = 0 then (if n then 5 else 6) else if m < 2 ^ 23 then (if n then 4 else 7) else (if n then 3 else 8)

/-- fdiv (R158). -/
def fDiv (c : FMode) (j a b : Nat) : FRes :=
  let x := rd32 c.ftz a
  let y := rd32 c.ftz b
  match nanOf [x, y] with
  | some r => fp32.round (c.rnd j) c.ftz r
  | none =>
    match x, y with
    | .inf _, .inf _ => (fp32.cnan, flNV)
    | .inf n, .fin b _ _ => ((if n != b then fp32.sbit else 0) + fp32.infPat, 0)
    | .fin n _ _, .inf b => (if n != b then fp32.sbit else 0, 0)
    | .fin n m e, .fin b k d =>
      if k = 0 then (if m = 0 then (fp32.cnan, flNV) else ((if n != b then fp32.sbit else 0) + fp32.infPat, flDZ))
      else fp32.round (c.rnd j) c.ftz (divFin n m e b k d)
    | _, _ => (fp32.cnan, 0)

/-- fsqrt (R158). -/
def fSqrt (c : FMode) (j a : Nat) : FRes :=
  match rd32 c.ftz a with
  | .nan s => (fp32.cnan, if s then flNV else 0)
  | .inf n => if n then (fp32.cnan, flNV) else (fp32.infPat, 0)
  | .fin n m e =>
    if m = 0 then (if n then fp32.sbit else 0, 0)
    else if n then (fp32.cnan, flNV)
    else fp32.round (c.rnd j) c.ftz (sqrtFin m e)

/-! ### Narrow formats (R160-R162, R171-R173) -/

/-- A narrow floating format: fraction bits, smallest exponent, largest finite pattern, sign weight. -/
structure NFmt where
  mb : Nat
  qmin : Int
  maxPat : Nat
  sbit : Nat
deriving DecidableEq, Repr

/-- E4M3. -/
def e4m3 : NFmt := { mb := 3, qmin := -9, maxPat := 0x7E, sbit := 0x80 }
/-- E5M2. -/
def e5m2 : NFmt := { mb := 2, qmin := -16, maxPat := 0x7B, sbit := 0x80 }
/-- E2M1. -/
def e2m1 : NFmt := { mb := 1, qmin := -1, maxPat := 7, sbit := 8 }

/-- Round to a narrow floating format (R171); `fmt` is FMT.NF's number: 0 e4m3, 1 e5m2, 3 e2m1. -/
def narrowF (fmt : Nat) (c : Rnd) (sat : Bool) (x : Ex) : FRes :=
  let f := if fmt = 0 then e4m3 else if fmt = 1 then e5m2 else e2m1
  let sg (neg : Bool) : Nat := if neg then f.sbit else 0
  match x with
  | .nan nv => if fmt = 0 then (0x7F, if nv then flNV else 0) else if fmt = 1 then (0x7E, if nv then flNV else 0)
               else (0, flNV)
  | .inf neg =>
    if fmt = 0 then (if sat then sg neg + 0x7E else 0x7F, flNV)
    else if fmt = 1 then (sg neg + (if sat then 0x7B else 0x7C), 0)
    else (sg neg + 7, flNV)
  | .zero neg => (sg neg, 0)
  | .num neg m e sticky =>
    if m = 0 && !sticky then (sg neg, 0)
    else
      let (p, ix) := roundMag c f.mb f.qmin f.sbit neg m e sticky
      if f.maxPat < p then
        (if toMax c.rm neg || sat || fmt = 3 then sg neg + f.maxPat
         else if fmt = 0 then 0x7F else sg neg + 0x7C, flOF + flNX)
      else
        let tiny := isTiny c f.mb (f.qmin + f.mb) neg m e sticky (loPat f.mb f.qmin m e + sg neg)
        (sg neg + p, if ix then (if tiny then flUF + flNX else flNX) else 0)

/-- Round to an integer between bounds (R168, R171, R178): the integer, and flags. The draw's K is a pattern of `w` bits
(R170). -/
def roundInt (c : Rnd) (w : Nat) (lo hi : Int) (x : Ex) : Int × Nat :=
  match x with
  | .nan _ => (0, flNV)
  | .inf neg => (if neg then lo else hi, flNV)
  | .zero _ => (0, 0)
  | .num neg m e sticky =>
    let (n, r, k) := cutAt m e 0
    let s : Int := if neg then -(n : Int) else n
    let kp := max lo (min hi s)
    let up := roundsUp c neg n r k sticky (kp % 2 ^ w).toNat
    let a : Int := n + if up then 1 else 0
    let v := if neg then -a else a
    if v < lo then (lo, flNV) else if hi < v then (hi, flNV)
    else (v, if r ≠ 0 || sticky then flNX else 0)

/-- Length of the run of bits of an EM8 body equal to its bit 6, from bit `i` down. -/
def emRun (b : Nat) (first : Bool) : Nat → Nat
  | 0 => if bitOf b 0 = first then 1 else 0
  | i + 1 => if bitOf b (i + 1) = first then emRun b first i + 1 else 0

/-- An EM8 body's magnitude as m × 2^e (R162); body 0 is zero. -/
def emVal (b : Nat) : Nat × Int :=
  if b = 0 then (0, 0)
  else
    let first := bitOf b 6
    let m := emRun b first 6
    let k : Int := if first then m - 1 else -(m : Int)
    let t := 6 - m
    let e : Int := if 1 ≤ t && bitOf b (5 - m) then 1 else 0
    let w := t - 1
    let f := b % 2 ^ w
    (2 ^ w + f, 2 * k + e - w)

/-- Whether magnitude m × 2^e (a little more when `sticky`) is at least n × 2^d. -/
def magLe (n : Nat) (d : Int) (m : Nat) (e : Int) : Bool :=
  let q := min d e
  n * 2 ^ (d - q).toNat ≤ m * 2 ^ (e - q).toNat

/-- Round to EM8 (R172): nearest, ties to an even body, always saturating. -/
def toEm8 (x : Ex) : FRes :=
  let sg (neg : Bool) : Nat := if neg then 0x80 else 0
  match x with
  | .nan nv => (0x80, if nv then flNV else 0)
  | .inf neg => (sg neg + 0x7F, 0)
  | .zero _ => (0, 0)
  | .num neg m e sticky =>
    let big := magLe 1 12 m e && !(magLe m e 1 12 && !sticky)
    if big then (sg neg + 0x7F, flOF + flNX)
    else if !magLe 1 (-13) m e then (0, flUF + flNX)
    else if !magLe 1 (-12) m e then (sg neg + 1, flUF + flNX)
    else
      let lo := ((List.range 128).filter fun b => 1 ≤ b && (let v := emVal b; magLe v.1 v.2 m e)).foldl max 1
      let v := emVal lo
      let exact := magLe m e v.1 v.2 && !sticky
      if exact then (sg neg + lo, 0)
      else
        let h := emVal (lo + 1)
        let q := min v.2 (min h.2 e)
        let mid := v.1 * 2 ^ (v.2 - q).toNat + h.1 * 2 ^ (h.2 - q).toNat
        let tw := 2 * m * 2 ^ (e - q).toNat
        let up := mid < tw || (mid = tw && (sticky || lo % 2 = 1))
        (sg neg + lo + (if up then 1 else 0), flNX)

/-- Convert an exact value to a narrow format by FMT.NF's number (R171, R172): 4 is INT8. -/
def narrow (fmt : Nat) (c : Rnd) (sat : Bool) (x : Ex) : FRes :=
  if fmt = 2 then toEm8 x
  else if fmt = 4 then let r := roundInt c 8 (-128) 127 x; ((r.1 % 256).toNat, r.2)
  else narrowF fmt c sat x

/-- The value of a narrow code (R173). -/
def widenVal (fmt b : Nat) : FVal :=
  match fmt with
  | 0 => if b % 128 = 0x7F then .nan false
         else let e := b / 8 % 16
              .fin (bitOf b 7) (if e = 0 then b % 8 else 8 + b % 8) (if e = 0 then -9 else (e : Int) - 10)
  | 1 => let e := b / 4 % 32
         if e = 31 then (if b % 4 = 0 then .inf (bitOf b 7) else .nan false)
         else .fin (bitOf b 7) (if e = 0 then b % 4 else 4 + b % 4) (if e = 0 then -16 else (e : Int) - 17)
  | 2 => if b = 0x80 then .nan false else let v := emVal (b % 128); .fin (bitOf b 7) v.1 v.2
  | 3 => let e := b / 2 % 4
         .fin (bitOf b 3) (if e = 0 then b % 2 else 2 + b % 2) (if e = 0 then -1 else (e : Int) - 2)
  | _ => let v := sextNat 8 b; .fin (v < 0) v.natAbs 0

/-- The quotient of a value by the per-tensor scale (R174), exact with a sticky bit; a scale of ±0, ±∞ or NaN makes
every input a NaN, here a quiet one, also where the value or the scale is a signalling NaN (DESIGN CHOICE, LE 61). -/
def scaledEx (x t : FVal) : Ex :=
  match t with
  | .fin b n d =>
    if n = 0 then .nan false
    else match x with
      | .fin a m e => divFin a m e b n d
      | .inf a => .inf (a != b)
      | .nan s => .nan s
  | _ => .nan false

end Sys2Proof.Machine
end

