-- ==== Sys2Proof/Machine/Special.lean ====
section
/-! DEFINITION. The nine special functions whose value R159 fixes: the exact mathematical result rounded once to
nearest. Irrational results are computed to 600 fraction bits before that rounding (UNVERIFIED, LE 19: no result is
known to need more). -/

namespace Sys2Proof.Machine

/-- Fraction bits of the fixed-point evaluations. -/
def fxP : Nat := 600
/-- One in fixed point. -/
def fxOne : Int := 2 ^ 600
/-- π in fixed point. -/
def fxPi : Int := 13036087627152999135228793149325883706411451860641517059512692589349356927284956232122985947124868324260373329126004229970251138265841936145774751301626362401504686637351871636910347
/-- ln 2 in fixed point. -/
def fxLn2 : Int := 2876225017259457803941422075936356235510355236981739542476444676843237809403636166587937224051855780383968483986161182568312219414999934030440139693377154550791842205675450932055002
/-- 2/√π in fixed point. -/
def fxTwoRtPi : Int := 4682226921463796869065104033352649461822054761635049477513105971544918182174125773946519532609730414156635934846258462047629048236548543431364252112015421591885595519791210473997801

/-- Product in fixed point. -/
def fxMul (a b : Int) : Int := a * b / fxOne
/-- Quotient in fixed point. -/
def fxDiv (a b : Int) : Int := a * fxOne / b
/-- A finite value in fixed point. -/
def fxOf (neg : Bool) (m : Nat) (e : Int) : Int :=
  let s : Int := if 0 ≤ e + 600 then m * 2 ^ (e + 600).toNat else m / 2 ^ (-(e + 600)).toNat
  if neg then -s else s

/-- Sum of the terms of e^x from term number `k` on. -/
def expTerms (x : Int) : Nat → Nat → Int → Int
  | 0, _, _ => 0
  | f + 1, k, t => t + expTerms x f (k + 1) (fxMul t x / (k + 1))

/-- e^x for a fixed-point x of magnitude at most 200: halved eight times, summed, squared back. -/
def fxExp (x : Int) : Int :=
  let r := expTerms (x / 256) 130 0 fxOne
  (List.range 8).foldl (fun v _ => fxMul v v) r

/-- Sum of t^(2k+1)/(2k+1) from `k` on, `t` the current power. -/
def atanhTerms (t2 : Int) : Nat → Nat → Int → Int
  | 0, _, _ => 0
  | f + 1, k, t => t / (2 * k + 1) + atanhTerms t2 f (k + 1) (fxMul t t2)

/-- ln of a fixed-point number in [1/2, 2]. -/
def fxLn (m : Int) : Int :=
  let t := fxDiv (m - fxOne) (m + fxOne)
  2 * atanhTerms (fxMul t t) 200 0 t

/-- Alternating sine or cosine terms from power `k` on. -/
def sinTerms (x2 : Int) : Nat → Nat → Int → Int
  | 0, _, _ => 0
  | f + 1, k, t => t - sinTerms x2 f (k + 2) (fxMul t x2 / ((k + 1) * (k + 2)))

/-- sin and cos of a fixed-point number: reduced by multiples of π/2. -/
def fxSinCos (x : Int) : Int × Int :=
  let h := fxPi / 2
  let k := (2 * x + h) / (2 * h)
  let r := x - k * h
  let r2 := fxMul r r
  let s := sinTerms r2 90 1 r
  let c := sinTerms r2 90 0 fxOne
  match (k % 4).toNat with
  | 0 => (s, c) | 1 => (c, -s) | 2 => (-s, -c) | _ => (-c, s)

/-- Terms of erf from n on: (−1)^n x^(2n+1) / (n! (2n+1)). -/
def erfTerms (x2 : Int) : Nat → Nat → Int → Int
  | 0, _, _ => 0
  | f + 1, n, t => t / (2 * n + 1) - erfTerms x2 f (n + 1) (fxMul t x2 / (n + 1))

/-- The bits of a fixed-point result rounded once to nearest (R159): tiny results are zero under FTZ. -/
def fxRound (ftz : Bool) (v : Int) : Nat :=
  (fp32.round { rm := 1 } ftz (if v = 0 then .num false 1 (-2000) true else .num (v < 0) v.natAbs (-600) true)).1

/-- A special function on FP32 bits (R158): its NaN rule, then its own. -/
def special (ftz : Bool) (a : Nat) (f : Bool → Nat → Int → FRes) (inf : Bool → FRes) : FRes :=
  match rd32 ftz a with
  | .nan s => (fp32.cnan, if s then flNV else 0)
  | .inf n => inf n
  | .fin n m e => f n m e

/-- ±∞ bits. -/
def infBits (neg : Bool) : Nat := fp32.infPat + if neg then fp32.sbit else 0
/-- ±0 bits. -/
def zeroBits (neg : Bool) : Nat := if neg then fp32.sbit else 0
/-- ±1 bits. -/
def oneBits (neg : Bool) : Nat := 0x3F800000 + if neg then fp32.sbit else 0

/-- frcp. -/
def sRcp (ftz : Bool) (a : Nat) : FRes :=
  special ftz a
    (fun n m e => if m = 0 then (infBits n, flDZ)
      else let r := fp32.round { rm := 1 } ftz (divFin false 1 0 n m e)
           (r.1, if r.1 % 2 ^ 31 = fp32.infPat then flOF else 0))
    (fun n => (zeroBits n, 0))

/-- frsq. -/
def sRsq (ftz : Bool) (a : Nat) : FRes :=
  special ftz a
    (fun n m e => if m = 0 then (infBits n, flDZ)
      else if n then (fp32.cnan, flNV)
      else
        let (m1, e1) := if e % 2 = 0 then (m, e) else (2 * m, e - 1)
        let r := isqrt (2 ^ 200 / m1)
        ((fp32.round { rm := 1 } ftz (.num false r (-100 - e1 / 2) (r * r * m1 ≠ 2 ^ 200))).1, 0))
    (fun n => if n then (fp32.cnan, flNV) else (0, 0))

/-- fexp2. -/
def sExp2 (ftz : Bool) (a : Nat) : FRes :=
  special ftz a
    (fun n m e =>
      if m = 0 then (oneBits false, 0)
      else if !n && magLe 128 0 m e then (infBits false, flOF)
      else if n && magLe 150 0 m e then (0, 0)
      else
        let x := fxOf n m e
        let k := x / fxOne
        let f := x - k * fxOne
        if 0 ≤ e + 40 && f = 0 then ((fp32.round { rm := 1 } ftz (.num false 1 k false)).1, 0)
        else
          let v := fxExp (fxMul f fxLn2)
          ((fp32.round { rm := 1 } ftz (.num false v.natAbs (k - 600) true)).1, 0))
    (fun n => if n then (0, 0) else (infBits false, 0))

/-- flog2. -/
def sLog2 (ftz : Bool) (a : Nat) : FRes :=
  special ftz a
    (fun n m e =>
      if m = 0 then (infBits true, flDZ)
      else if n then (fp32.cnan, flNV)
      else
        let t := bitLen m
        let k := e + t - 1
        if m = 2 ^ (t - 1) then
          ((fp32.round { rm := 1 } ftz (if k = 0 then .zero false else .num (k < 0) k.natAbs 0 false)).1, 0)
        else
          let mant : Int := m * 2 ^ (601 - t)
          let (mant, k) := if 3 * fxOne < 2 * mant then (mant / 2, k + 1) else (mant, k)
          (fxRound ftz (k * fxOne + fxDiv (fxLn mant) fxLn2), 0))
    (fun n => if n then (fp32.cnan, flNV) else (infBits false, 0))

/-- fsin. -/
def sSin (ftz : Bool) (a : Nat) : FRes :=
  special ftz a (fun n m e => if m = 0 then (zeroBits n, 0) else (fxRound ftz (fxSinCos (fxOf n m e)).1, 0))
    (fun _ => (fp32.cnan, flNV))

/-- fcos. -/
def sCos (ftz : Bool) (a : Nat) : FRes :=
  special ftz a (fun n m e => if m = 0 then (oneBits false, 0) else (fxRound ftz (fxSinCos (fxOf n m e)).2, 0))
    (fun _ => (fp32.cnan, flNV))

/-- ftanh. -/
def sTanh (ftz : Bool) (a : Nat) : FRes :=
  special ftz a
    (fun n m e =>
      if m = 0 then (zeroBits n, 0)
      else if magLe 32 0 m e then (oneBits n, 0)
      else
        let w := fxExp (2 * fxOf n m e)
        (fxRound ftz (fxDiv (w - fxOne) (w + fxOne)), 0))
    (fun n => (oneBits n, 0))

/-- fsig. -/
def sSig (ftz : Bool) (a : Nat) : FRes :=
  special ftz a
    (fun n m e =>
      if m = 0 then (0x3F000000, 0)
      else if magLe 128 0 m e then (if n then 0 else oneBits false, 0)
      else
        let w := fxExp (fxOf n m e)
        (fxRound ftz (fxDiv w (w + fxOne)), 0))
    (fun n => (if n then 0 else oneBits false, 0))

/-- ferf. -/
def sErf (ftz : Bool) (a : Nat) : FRes :=
  special ftz a
    (fun n m e =>
      if m = 0 then (zeroBits n, 0)
      else if magLe 5 0 m e then (oneBits n, 0)
      else
        let x := fxOf n m e
        (fxRound ftz (fxMul fxTwoRtPi (erfTerms (fxMul x x) 260 0 x)), 0))
    (fun n => (oneBits n, 0))

end Sys2Proof.Machine
end

