-- ==== Sys2Proof/Machine/Flags.lean ====
section
/-! DEFINITION. MODE and FMT: their fields, the values a write takes, the sticky flags a unit raises (R164-R169). -/

namespace Sys2Proof.Machine

/-- MODE.RM (R164). -/
def Group.modeRm (g : Group) : Nat := g.mode.toNat % 8
/-- MODE.SAT. -/
def Group.modeSat (g : Group) : Bool := g.mode.getLsbD 3
/-- MODE.FTZ. -/
def Group.modeFtz (g : Group) : Bool := g.mode.getLsbD 4
/-- MODE.SEED. -/
def Group.seed (g : Group) : Nat := g.mode.toNat / 2 ^ 32
/-- FMT.NF (R165). -/
def Group.nf (g : Group) : Nat := g.fmt.toNat % 8
/-- FMT.SCM. -/
def Group.scm (g : Group) : Nat := g.fmt.toNat / 8 % 4
/-- FMT.SREG. -/
def Group.sreg (g : Group) : Nat := g.fmt.toNat / 32 % 64
/-- FMT.SR. -/
def Group.fmtSr (g : Group) : Bool := g.fmt.getLsbD 11

/-- The modes of a float unit with X.RM = rm (R144, R169). -/
def Group.fmode (g : Group) (rm : Nat) : FMode :=
  { rm := if rm = 0 then g.modeRm else rm, ftz := g.modeFtz, sat := g.modeSat, seed := g.seed }

/-- The modes of a narrow conversion: rsr under FMT.SR when X.RM is 0 (R169). -/
def Group.nmode (g : Group) (rm : Nat) : FMode :=
  { g.fmode rm with rm := if rm = 0 then (if g.fmtSr then 6 else g.modeRm) else rm }

/-- Raise sticky flags (R144, R164). -/
def Group.raise (g : Group) (fl : Nat) : Group := { g with mode := g.mode ||| BitVec.ofNat 64 fl }

/-- The value MODE takes from `mts` (R166). -/
def mtsMode (v : DWord) : DWord :=
  let rm := v.toNat % 8
  BitVec.ofNat 64 (v.toNat / 2 ^ 32 * 2 ^ 32 + v.toNat / 8 % 128 * 8 + if rm = 0 || rm = 7 then 1 else rm)

/-- The value FMT takes from `mts` (R166). -/
def mtsFmt (v : DWord) : DWord :=
  let nf := v.toNat % 8
  let scm := v.toNat / 8 % 4
  BitVec.ofNat 64 (v.toNat / 32 % 128 * 32 + (if scm = 3 then 0 else scm) * 8 + if 5 ≤ nf then 0 else nf)

end Sys2Proof.Machine
end

