-- ==== Sys2Proof/Machine/Issue.lean ====
section
/-! DEFINITION. Issuing a unit (R82, R97, R104, R106, R109): what is decided before a unit has any effect, in order, and
how its own effect is then taken. Every encoded instruction's meaning is one call of `issue`. -/

namespace Sys2Proof.Machine

/-- What the issue of a unit needs to know of it: its class and words, and every register it reads and writes. -/
structure Uop where
  maj : Nat
  cls : Nat
  /-- The base word, for TRAPI. -/
  base : Word
  pfx : Pfx := Pfx.none
  /-- PEEK of majors 9-15 (R38). -/
  peek : Bool := false
  vr : List VFld := []
  /-- Vector sources that are 64-bit pairs (R33). -/
  vr2 : List VFld := []
  vw : List VFld := []
  /-- Destinations read for the lanes that the unit keeps (R176). -/
  vk : List VFld := []
  sr : List Nat := []
  sw : List Nat := []
  /-- Reads s[FMT.SREG] when FMT.SCM = 2 (R166, R174). -/
  tscale : Bool := false
  pr : List Nat := []
  pw : List Nat := []
  /-- A fault point (R104). -/
  fp : Bool := false
  /-- Traps HND in handler mode (R106). -/
  hnd : Bool := false
  /-- Privileged (R44). -/
  priv : Bool := false
  /-- Runs on Stratus (R394). -/
  str : Bool := false
deriving DecidableEq, Repr

/-- The outcome of a unit's own effect. -/
inductive Eff where
  /-- The group after the unit. -/
  | grp (g : Group)
  /-- The machine after the unit. -/
  | st (s : State)
  /-- A precise trap; the unit has no effect. -/
  | trap (t : Trap)
  /-- Not ready: nothing happens (R82). -/
  | wait
  /-- Not ready, but the engines it waits on have been set to work (fla, exit). -/
  | waitSt (s : State)

/-- A unit's effect: the machine, the agent's key, the active lanes, the group before the unit, and the group with the
queues popped and the PC past the unit. -/
abbrev Effect := State → Nat → DWord → Group → Group → Eff

/-- The class a unit imposes: raised to C2 by a non-identity crossbar pattern (R43). -/
def Uop.cost (u : Uop) : Nat := if u.pfx.xa.val / 64 = 0 ∧ u.pfx.xb.val / 64 = 0 then u.cls else max 2 u.cls

/-- The active lanes of a unit; units of majors 0-8 take every lane as active (R96, R99). -/
def Uop.active (u : Uop) (g : Group) : DWord := if u.maj ≤ 8 then allOnes else activeMask u.pfx g

/-- The registers a unit reads. -/
def Uop.reads (u : Uop) (g : Group) : List Dst :=
  u.vr.map g.vReg ++ (u.vr2.flatMap (pairFields g)).map g.vReg ++ u.sr.map g.sDst ++ u.pr.map Dst.p ++
    (if u.tscale && g.scm = 2 then [g.sDst g.sreg] else []) ++
    (match u.pfx.x with | some x => if x.g then [.p x.pred.val] else [] | none => [])

/-- The registers a unit writes. -/
def Uop.writes (u : Uop) (g : Group) : List Dst := u.vw.map g.vDst ++ u.sw.map g.sDst ++ u.pw.map Dst.p

/-- Whether two register lists meet; s0 and p0, whose writes are discarded, are in neither (R34, R82). -/
def dstMeet (a b : List Dst) : Bool := a.any fun d => d ≠ .none && d ≠ .p 0 && b.contains d

/-- Whether the group may have a ready candidate at all (R67, R82, R107). -/
def Group.canIssue (g : Group) : Bool :=
  !g.halted && g.park = 0 && g.bankWait.isNone && (!g.spc.act || g.inH) && g.iparked.isNone

/-- The readiness conditions on registers and held accesses (R82, R96, R194, R195). -/
def Uop.ready (u : Uop) (g : Group) : Bool :=
  !dstMeet (u.reads g ++ u.writes g) g.pending && !dstMeet (u.writes g) g.kept &&
    headsFilled g (queuesOf u.vr) &&
    !(g.holding && ((16 ≤ u.maj && u.maj ≤ 19) || u.maj = 21))

/-- Whether the unit is a fault point for a recorded fault (R104). -/
def Uop.faultPoint (u : Uop) (g : Group) : Bool :=
  u.fp || g.takable.any fun f => dstMeet (u.reads g ++ u.writes g) f.targets

/-- A precise trap of a unit, its resume PC the unit's own. -/
def Uop.preciseTrap (u : Uop) (g : Group) (cause : Nat) (a : DWord) : Trap :=
  { cause := cause, a := a, pc := g.pc, i := u.base.setWidth 64, resume := g.pc }

/-- The QUE trap of a failed check (R97, R103). -/
def queTrap (g : Group) (c : Nat × Nat) : Trap :=
  { cause := 3, a := BitVec.ofNat 64 c.1, pc := g.pc, i := BitVec.ofNat 64 c.2, resume := g.pc }

/-- The group past a unit: queues popped (unless PEEK, or no lane is active), PC after the unit's words. -/
def Uop.past (u : Uop) (g : Group) : Group :=
  let g1 := if u.peek || u.active g = 0 then g else (queuesOf u.vr).eraseDups.foldl Group.popQ g
  { g1 with pc := g.pc + BitVec.ofNat 64 (4 * u.pfx.len), urgent := false, upc := if g.inH then g.upc else g.pc }

/-- The physical vector registers behind vector fields, each once (R84). -/
def Group.physReads (g : Group) (l : List VFld) : List Nat :=
  (l.filterMap fun f => if f.val < 96 then some ((g.wb + f.val) % g.res) else none).eraseDups

/-- What a unit occupies and reads as it issues (R81, R84). -/
def Uop.issuedAs (u : Uop) (g : Group) : Issued :=
  { pipe := pipeOf u.maj (u.base.toNat % 64), cls := u.cost, reads := g.physReads (u.vr ++ u.vr2.flatMap (pairFields g) ++ if u.active g = allOnes then [] else u.vk),
    div := u.maj = 9 && 6 ≤ u.base.toNat % 64 && u.base.toNat % 64 ≤ 9, balloc := u.maj = 25 && u.base.toNat % 64 = 0, semw := u.maj = 25 && u.base.toNat % 64 = 7 }

/-- A unit that has had its effect occupies its pipe. -/
def State.issuedUnit (s : State) (u : Uop) (g : Group) : State := s.paid g (u.issuedAs g)

/-- Take a unit's own effect. -/
def applyEff (u : Uop) (k : Nat) (g : Group) (s : State) : Eff → State
  | .grp g1 => (s.setGrp k g1).issuedUnit u g
  | .st s1 => s1.issuedUnit u g
  | .trap t => s.takeTrap k g t
  | .wait => s.stall
  | .waitSt s1 => s1.stall

/-- Whether a unit's effect is that it is not ready, by a condition of its own (R82). -/
def Eff.waits : Eff → Bool
  | .wait => true
  | _ => false

/-- Whether a unit's own outcome comes before its queue checks: it waits, or traps ILL (R82, R109). -/
def Eff.first : Eff → Bool
  | .wait => true
  | .waitSt _ => true
  | .trap t => t.cause = 1
  | _ => false

/-- Issue a unit of group `k`: residency, a pending DIE or deferred fault at a fault point, readiness, the handler-mode
restriction, privilege, an ILL of its own, the queue checks, then the effect. -/
def issueGrp (u : Uop) (eff : Effect) (k : Nat) (g : Group) (s : State) : State :=
  if !(g.canIssue && s.residentGrp g) then s.stall
  else if u.faultPoint g && s.dieWaits g then s.dieAtFaultPoint k g
  else
    match g.takable, u.faultPoint g with
    | f :: _, true => if g.lowerDone f then s.takeFault k g f else s.stall
    | _, _ =>
      let e := eff s k (u.active g) g (u.past g)
      if !u.ready g || e.waits then s.stall
      else if u.hnd && g.inH then
        s.contextFault k g { cause := 0x13, a := 0, pc := g.pc, i := u.base.setWidth 64 }
      else if u.priv && !s.sysCtx g.ctx then s.takeTrap k g (u.preciseTrap g 2 0)
      else
        match if e.first then none else queueCheck g (queuesOf u.vr) (queuesOf u.vw) u.peek (u.active g ≠ 0) with
        | some c => s.takeTrap k g (queTrap g c)
        | none => applyEff u k g s e

/-! ### Stratus (R394, R395) -/

/-- A Stratus trap (R394): handler mode at code address 0x100; in handler mode the firmware restarts from boot step 4
with a type 11 report. -/
def State.stratusTrap (s : State) (t : Trap) : State :=
  let g := s.sgrp
  if g.inH then
    let s1 := { s with sgrp := { stratusReset with s := g.s, p := g.p, mode := g.mode }, str := { s.str with halted := true, haltTns := s.dev.tns } }
    (s1.modDev fun d => { d with bootStep := 4, bootReady := false }).post { type := 11, chip := s.str.active }
  else { s with sgrp := { g.enterHandler t s.dev.tns s.nextId with pc := 0x100 } }



/-- Issue a unit on Stratus: units outside its subset trap ILL (R394). -/
def issueStr (u : Uop) (eff : Effect) (s : State) : State :=
  let g := s.sgrp
  if s.str.halted || (s.die s.str.active).dead then s.stall
  else if s.dev.tns < s.str.sleepTo then s.stall
  else if !u.str then s.stratusTrap (u.preciseTrap g 1 0)
  else
    let past := { g with pc := g.pc + BitVec.ofNat 64 (4 * u.pfx.len) }
    match eff s 0 allOnes g past with
    | .grp g1 => { s with sgrp := g1 }
    | .st s1 => s1
    | .trap t => s.stratusTrap t
    | .wait => s.stall
    | .waitSt s1 => s1.stall

/-- Issue a unit at the current agent with its effect in a group and its effect on Stratus. -/
def issue2 (u : Uop) (eff strEff : Effect) (s : State) : Out :=
  .next (match s.cur with
    | .stratus => issueStr u strEff s
    | .grp k => match s.grp? k with
      | some g => issueGrp u eff k g s
      | none => s.stall)

/-- Issue a unit at the current agent. -/
def issue (u : Uop) (eff : Effect) (s : State) : Out := issue2 u eff eff s

/-! ### Spaces for results -/

/-- Whether a counter has room for `n` more (R126, R198). -/
def Group.room (g : Group) (c : Ctr) (n : Nat) : Bool := g.counter c + n ≤ 255

/-- The two words of a scalar, as a 64-bit address with bits [63:52] set (R22). -/
def badVA (v : DWord) : Bool := v.toNat ≥ 2 ^ 52

end Sys2Proof.Machine
end

