-- ==== Sys2Proof/Machine/Fabric.lean ====
section
/-! DEFINITION. Sending over the fabric (R366, R368, R379-R381): which devices are reachable, the flits of a packet, its
sequence number, window and rail. The layout of RID, of OPND and of the payload within a packet is the model's (DESIGN CHOICE, LE 20). -/

namespace Sys2Proof.Machine

/-- Whether rail `p` reaches device `d` (R381): its port is up, narrowing or waking, and its bit was set. -/
def State.railTo (s : State) (d p : Nat) : Bool :=
  (s.port p).state ≠ 0 && (s.fab.reachAll || bitOf (memRead s.fab.reach ((4096 * p + d) / 8)).toNat (d % 8))

/-- Whether a device is reachable (R381). -/
def State.reachable (s : State) (d : Nat) : Bool := d = s.fab.dev || (List.range 32).any fun p => s.railTo d p

/-- Whether a peer device has no route (R345, R381). -/
def State.disconnected (s : State) (peer : Nat) : Bool := !s.reachable peer

/-- The tables of R380 are keyed by device × 8 + class. -/
def fabKey (dev cls : Nat) : Nat := dev * 8 + cls

/-! ### Flits (R366, R379) -/

/-- The 64 bytes of a packet's header flit (R379), and its payload flits. -/
def pktFlits (p : FabPkt) : List (List Byte) :=
  let n := min 4 ((p.payload.length + 63) / 64)
  (leBytes 1 p.type ++ leBytes 1 n ++ leBytes 2 p.src ++ leBytes 2 p.dst ++ leBytes 1 p.rctx ++ leBytes 1 p.cls ++
    leBytes 4 p.seq ++ leBytes 8 (p.rid.seq % 2 ^ 24 + p.rid.req % 2 ^ 16 * 2 ^ 24 + p.rid.src % 2 ^ 16 * 2 ^ 40) ++
    leBytes 3 p.ronum ++ [0] ++ leBytes 7 p.off ++ [0] ++ (List.range 32).map fun i => p.opnd.getD i 0) ::
  (List.range n).map fun i => (List.range 64).map fun j => p.payload.getD (64 * i + j) 0

/-- The tag flit of a group (R366): its integrity tag, whose bytes are not modelled, the number of the next flit that this end accepts,
and whether it requests a replay (their places, DESIGN CHOICE, LE 20). -/
def Port.tagFlit (v : Port) : LinkFlit :=
  { kind := .tag, seq := v.txSeq % 65536, payload := List.replicate 16 0 ++ leBytes 2 v.rxSeq ++ [if v.rxGap then 1 else 0] }

/-- A tag group has been closed under the session's keys: before the counter of either direction reaches 2^40, new keys take effect
(R369). -/
def Port.countTag (v : Port) (sent : Bool) : Port :=
  let n := (if sent then v.txTags else v.tagCount) + 1
  if n = 2 ^ 40 - 1 then { v with keygen := v.keygen + 1, txTags := 0, tagCount := 0 }
  else if sent then { v with txTags := n } else { v with tagCount := n }

/-- Send waiting flits while fewer than 512 are unacknowledged: every five data flits, and the last ones, are followed
by a tag flit (R366, R368). -/
def Port.pumpAux : Nat → Port → Port
  | 0, v => v
  | fuel + 1, v =>
    if 512 ≤ v.txRetry.length then v
    else
      let next (f : LinkFlit) : Port := { v with txRetry := v.txRetry ++ [f], txSeq := (v.txSeq + 1) % 65536 }
      match v.txWait with
      | [] => if v.inGroup = 0 then v else (({ next v.tagFlit with inGroup := 0 } : Port).countTag true)
      | f :: r =>
        Port.pumpAux fuel
          (if v.inGroup = 5 then ({ next v.tagFlit with inGroup := 0 } : Port).countTag true
           else { next { f with seq := v.txSeq % 65536 } with txWait := r, inGroup := v.inGroup + 1 })

/-- Send what the port may send: nothing while it is down or its lane 0 is being remapped (R365). -/
def Port.pump (v : Port) : Port :=
  if v.state = 0 || v.remaps.any (fun m => m.1 = 0) then v else v.pumpAux (2 * v.txWait.length + 2)

/-! ### Packets (R380) -/

/-- The rail a packet to device `d` takes (R380): one that reaches it, with the shortest queue, ties in turn; another
than `avoid` when there is one. -/
def State.pickRail (s : State) (d : Nat) (avoid : Option Nat) : Option Nat :=
  let ok := (List.range 32).filter fun p => s.railTo d p
  let cands := if ok.any (fun p => some p ≠ avoid) then ok.filter fun p => some p ≠ avoid else ok
  let len (p : Nat) : Nat := (s.port p).txWait.length
  let least := cands.foldl (fun a p => min a (len p)) (2 ^ 32)
  let ties := cands.filter fun p => len p = least
  match ties.find? fun p => s.fab.turn ≤ p with
  | some p => some p
  | none => ties.head?

/-- Put a packet's flits on the rail picked for it; without a rail it stays unsent. -/
def State.putOnRail (s : State) (p : FabPkt) (avoid : Option Nat) : Option Nat × State :=
  match s.pickRail p.dst avoid with
  | none => (none, s)
  | some r =>
    let v := s.port r
    let fl : List LinkFlit := (pktFlits p).map fun b => { kind := .data, seq := 0, payload := b }
    (some r, (({ s with fab := { s.fab with turn := r + 1 } } : State).setPort r
      ({ v with txWait := v.txWait ++ fl, lastSend := s.dev.tns } : Port).pump))

/-- The flits of a packet that is sent are charged to a context (R412). -/
def State.flitEnergy (s : State) (ctx : Option Nat) (p : FabPkt) : State :=
  match ctx with | some n => s.energy n (40000 * (pktFlits p).length) | none => s

/-- Packets that are waiting for the window are sent while fewer than 4,096 are unacknowledged to their destination and
class (R380). -/
def State.fabDrain (s : State) : List (Option Nat × FabPkt) → State
  | [] => s
  | e :: r =>
    let p := e.2
    let k := fabKey p.dst p.cls
    let un := (mapGet? s.fab.unacked k).getD []
    if 4096 ≤ un.length then
      let t := State.fabDrain s r
      { t with fab := { t.fab with out := e :: t.fab.out } }
    else
      let n := mapGet s.fab.txSeq k 0
      let q := { p with seq := n }
      let (rail, s1) := (s.flitEnergy e.1 q).putOnRail q none
      State.fabDrain { s1 with fab := { s1.fab with
        txSeq := mapSet s.fab.txSeq k ((n + 1) % 2 ^ 32),
        unacked := mapSet s.fab.unacked k (un ++ [{ pkt := q, ctx := e.1, rail := rail, tns := s.dev.tns }]) } } r

/-- Send a packet for a party of context `ctx`: it takes its SEQ and is kept until acknowledged (R380); its flits are
charged to the context each time they are sent (R412). -/
def State.fabSend (s : State) (ctx : Option Nat) (p : FabPkt) : State :=
  ({ s with fab := { s.fab with out := [] } } : State).fabDrain (s.fab.out ++ [(ctx, p)])

/-- An end-to-end acknowledgment of a packet (R380): never sequenced or acknowledged itself, charged to the context that the
packet names (DESIGN CHOICE, LE 20). -/
def State.fabAck (s : State) (p : FabPkt) : State :=
  let a : FabPkt := { type := 8, src := s.fab.dev, dst := p.src, rctx := p.rctx, cls := p.cls, seq := p.seq, rid := p.rid,
                      ronum := 0, off := 0, opnd := [], payload := [] }
  ((s.flitEnergy (some p.rctx) a).putOnRail a none).2

end Sys2Proof.Machine
end

