-- ==== Sys2Proof/Machine/Atom.lean ====
section
/-! DEFINITION. The arithmetic unit of a home slice (R314, R315) and the Cumulus buffers: accepting an element,
combining, leaving (R331-R341). -/

namespace Sys2Proof.Machine

/-- The home slice's rounding: nearest even, subnormals kept, no flags (R315). -/
def homeMode : FMode := { rm := 1, ftz := false, sat := false, seed := 0 }

/-- A BF16 addition of one half (R315). -/
def bfAdd (a b : Nat) : Nat := (bf16.round { rm := 1 } false (addV 1 (bf16.unpack a) (bf16.unpack b))).1

/-- The operation of major 19 numbering on word and operand (R314): 0 add to 12 bfadd2. -/
def redOp (op : Nat) (w b : Word) : Word :=
  match op with
  | 0 => w + b
  | 1 => w - b
  | 2 => if w.toInt ≤ b.toInt then w else b
  | 3 => if w.toInt < b.toInt then b else w
  | 4 => if w.toNat ≤ b.toNat then w else b
  | 5 => if w.toNat < b.toNat then b else w
  | 6 => w &&& b
  | 7 => w ||| b
  | 8 => w ^^^ b
  | 9 => BitVec.ofNat 32 (fAdd homeMode 0 w.toNat b.toNat).1
  | 10 => BitVec.ofNat 32 (fMinMax false false false w.toNat b.toNat).1
  | 11 => BitVec.ofNat 32 (fMinMax false true false w.toNat b.toNat).1
  | _ => BitVec.ofNat 32 (bfAdd (w.toNat % 65536) (b.toNat % 65536) + 65536 * bfAdd (w.toNat / 65536) (b.toNat / 65536))

/-- The operation of major 18 numbering (R314); `c` is cas's comparand. -/
def atomOp (op : Nat) (w b c : Word) : Word :=
  if op ≤ 8 then redOp op w b
  else match op with
    | 9 => b
    | 10 => if w = c then b else w
    | 11 => redOp 9 w b
    | 12 => redOp 10 w b
    | 13 => redOp 11 w b
    | 14 => redOp 12 w b
    | _ => if b.toNat ≤ w.toNat then 0 else w + 1

/-! ### Cumulus -/

/-- Whether the entry takes the element in (R336). -/
def cuJoins (e x : CuEntry) : Bool :=
  e.word = x.word && e.ronum = x.ronum && e.rctx = x.rctx && e.ctx = x.ctx && e.op = x.op &&
  (if x.op = 13 then e.wide == x.wide && e.pair == x.pair
   else x.op ≤ 8 || (!e.exact && !x.exact))

/-- The element's value combined into the entry (R336). -/
def cuCombine (e x : CuEntry) : CuEntry :=
  { e with
    val := if x.op = 13 then x.val else if x.op = 1 then e.val + x.val else redOp x.op e.val x.val,
    cnt := e.cnt + 1, grps := (e.grps ++ x.grps).eraseDups }

/-- The place of the latest entry of a word in a buffer's entries. -/
def cuLatest (ents : List CuEntry) (word ronum rctx : Nat) : Option Nat :=
  (List.range ents.length).reverse.find? fun i => ents[i]?.any fun e => e.word = word && e.ronum = ronum && e.rctx = rctx

/-- Whether entry `i` takes the element in (R336); of a `sta64` both entries do or neither, so that its words stay together
(R332). -/
def cuTakes (ents : List CuEntry) (i : Nat) (x : CuEntry) : Bool :=
  (ents[i]?.any fun e => cuJoins e x) &&
    (!x.wide ||
      if x.pair then 0 < i && (cuLatest ents (x.word - 4) x.ronum x.rctx = some (i - 1)) && ents[i - 1]?.any fun l => l.wide && !l.pair
      else (cuLatest ents (x.word + 4) x.ronum x.rctx = some (i + 1)) && ents[i + 1]?.any fun h => h.wide && h.pair)

/-- Put an element into a buffer's entries: into the latest entry of its word when that joins, else appended (R336). -/
def cuPlace (ents : List CuEntry) (x : CuEntry) : List CuEntry :=
  match cuLatest ents x.word x.ronum x.rctx with
  | some i => if cuTakes ents i x then ents.modify i fun e => cuCombine e x else ents ++ [x]
  | none => ents ++ [x]

/-- The dirty mask a group should have: buffers and packets of its die, and rejections not yet logged, that hold an
element of it (R338, R344). -/
def State.dirtyOf (s : State) (d k : Nat) : Nat :=
  natOfBits 96 fun b =>
    (match mapGet? (s.die d).bufs b with | some v => v.ents.any fun e => e.grps.contains k | none => false) ||
    (s.cuPkts.any fun p => p.src = d && p.bit = b && p.ents.any fun e => e.grps.contains k) ||
    s.cuRejs.any fun r => r.src = d && r.bit = b && r.ent.grps.contains k

/-- Bring the dirty masks of a die's groups up to date (R338). -/
def State.syncDirty (s : State) (d : Nat) : State :=
  { s with groups := mapAll s.groups fun k g => if g.die = d then { g with dirtyMask := s.dirtyOf d k } else g }

/-- The 128 bits of an entry for a peer (R332). -/
def CuEntry.peerBits (e : CuEntry) : Nat :=
  e.val.toNat + e.op * 2 ^ 32 + (if e.pair then 2 ^ 36 else 0) + (if e.exact then 2 ^ 37 else 0) + e.ctx * 2 ^ 38 +
    e.word / 4 % 2 ^ 50 * 2 ^ 48 + e.ronum * 2 ^ 98 + e.rctx * 2 ^ 122

/-- Add an element that was not performed to the list the fault log takes from; the high word of a `sta64` joins its low
word (R343). -/
def addRej (l : List CuRej) (r : CuRej) : List CuRej :=
  match l.getLast? with
  | some p =>
    if r.ent.pair && p.ent.wide && !p.ent.pair && p.ent.word + 4 = r.ent.word && p.ent.ctx = r.ent.ctx && p.why = r.why
    then l.dropLast ++ [{ p with hi := r.ent.val }] else l ++ [r]
  | none => l ++ [r]

/-- Append one element to its peer's egress queue, or refuse it (R345, R346). -/
def State.egressAppend (s : State) (src bit peer : Nat) (e : CuEntry) : State :=
  let refuse (s : State) (why : Nat) : State :=
    { s with cuRejs := addRej s.cuRejs { ent := e, src := src, bit := bit, peer := peer, why := why } }
  let slot := (List.range 64).find? fun q => (s.egr q).state ≠ 0 && (s.egr q).peer = peer
  let slot' := match slot with
    | some q => some q
    | none => (List.range 64).find? fun q => (s.egr q).state = 0 && (s.egr q).base.toNat % 2 ^ 48 ≠ 0
  match slot' with
  | none => refuse s 7
  | some q =>
    let v := s.egr q
    let n := 2 ^ (v.base.toNat / 2 ^ 48 % 32)
    if v.state = 3 || v.full then refuse s 6
    else if n < v.recs.length + (if e.wide && !e.pair then 2 else 1) then
      refuse (s.setEgr q { v with peer := peer, state := 3, full := true }) 6
    else
      let bytes := leBytes 16 e.peerBits ++ leBytes 8 (e.pc.toNat % 2 ^ 52 + e.gidx * 2 ^ 52) ++ leBytes 8 e.wgid.toNat
      let a := v.base.toNat % 2 ^ 48 + 32 * (v.tail.toNat % n)
      (s.setEgr q { v with peer := peer, state := if v.state = 0 then 1 else v.state, tail := v.tail + 1,
                           recs := v.recs ++ [{ e with grps := [] }] }).homeWrite none a bytes

/-- Send entries to a peer, sixteen to a packet (R379), `base` the index of the first; the requests' names. -/
def State.sendEntries (s : State) (d peer base : Nat) : List (List CuEntry) → List Nat × State
  | [] => ([], s)
  | es :: r =>
    let (id, s1) := s.fresh1
    let e0 := es.head?
    let (ids, s2) := (s1.fabSend (e0.map CuEntry.ctx)
      { type := 4, src := s.fab.dev, dst := peer, rctx := (e0.map CuEntry.rctx).getD 0, cls := 0, seq := 0,
        rid := { src := 64 + s.fab.dev, req := 2 ^ 15 + 64 + d, seq := id }, ronum := 0, off := 0, opnd := leBytes 2 base,
        payload := es.flatMap fun e => leBytes 16 e.peerBits }).sendEntries d peer (base + es.length) r
    (id :: ids, s2)

/-- Entries in packets of at most sixteen, a `sta64`'s words together. -/
def cuParts : Nat → List CuEntry → List (List CuEntry)
  | 0, _ => []
  | fuel + 1, l =>
    if l.isEmpty then []
    else
      let n := if (l[16]?).any (fun e => e.pair) then 15 else 16
      l.take n :: cuParts fuel (l.drop n)

/-- A packet of entries leaves a Cumulus unit (R337). -/
def State.cuSend (s : State) (d b peer : Nat) (ents : List CuEntry) : State :=
  let (id, s1) := s.fresh1
  let (ids, s2) := if b < 32 then (([] : List Nat), s1) else s1.sendEntries d peer 0 (cuParts 40 ents)
  { s2 with cuPkts := s2.cuPkts ++ [{ id := id, src := d, bit := b, peer := peer, ents := ents, parts := ids }] }

/-- Buffer `b` of die `d` leaves as one packet and is empty (R337); for a disconnected peer, or behind the records its
egress slot still holds, its entries go to the egress queue instead (R345, R346). -/
def State.cuLeave (s : State) (d b : Nat) : State :=
  match mapGet? (s.die d).bufs b with
  | none => s
  | some v =>
    let s1 := s.setDie d { s.die d with bufs := mapDel (s.die d).bufs b }
    if v.ents.isEmpty then s1
    else if 32 ≤ b && (s.disconnected v.peer || (List.range 64).any fun q => (s.egr q).state ≠ 0 && (s.egr q).peer = v.peer) then
      (v.ents.foldl (fun t e => t.egressAppend d b v.peer e) s1).syncDirty d
    else s1.cuSend d b v.peer v.ents

/-- Every buffer in the group's dirty mask leaves (R337, R339). -/
def State.cuFlush (s : State) (g : Group) : State :=
  (List.range 96).foldl (fun t b => if bitOf g.dirtyMask b then t.cuLeave g.die b else t) s

/-- The peer buffer of a peer (R331): its own, a free one, or the one accepted into least recently, which leaves. -/
def State.peerBuf (s : State) (d peer : Nat) : Nat × State :=
  let bufs := (s.die d).bufs
  match bufs.find? fun kv => 32 ≤ kv.1 && kv.2.peer = peer with
  | some kv => (kv.1, s)
  | none =>
    match (List.range 64).find? fun b => (mapGet? bufs (32 + b)).isNone with
    | some b => (32 + b, s)
    | none =>
      let old := (bufs.filter fun kv => 32 ≤ kv.1).foldl
        (fun (best : Nat × Nat) kv => if kv.2.last < best.2 then (kv.1, kv.2.last) else best) (32, 2 ^ 64)
      (old.1, s.cuLeave d old.1)

/-- accept of R336: element `x`, for its home buffer or (with a peer) its peer buffer; `need` new entries stand
together. The buffer leaves when its 32nd entry is filled. -/
def State.cuAccept (s : State) (d : Nat) (peer : Option Nat) (need : Nat) (x : CuEntry) : State :=
  let (b, s0) := match peer with
    | some p => s.peerBuf d p
    | none => (homeDie s.dev.memOpen x.word, s)
  let old := ((mapGet? (s0.die d).bufs b).getD {}).ents
  let s1 := if 32 < old.length + need && (cuPlace old x).length ≠ old.length then s0.cuLeave d b else s0
  let v := (mapGet? (s1.die d).bufs b).getD {}
  let (ord, s2) := s1.fresh1
  let v1 : CuBuf := { peer := peer.getD 0, ents := cuPlace v.ents x,
                      start := if v.ents.isEmpty then s.dev.tns else v.start, last := ord }
  let s3 := s2.setDie d { s2.die d with bufs := mapSet (s2.die d).bufs b v1 }
  (if 32 ≤ v1.ents.length then s3.cuLeave d b else s3).syncDirty d

end Sys2Proof.Machine
end

