-- ==== Sys2Proof/Machine/Control.lean ====
section
/-! DEFINITION. Majors 0, 1 and 2: control, scalar branches and calls, divergence (R110-R121). -/

namespace Sys2Proof.Machine

/-- A unit of major 0. -/
def u0 (fn d a b : Nat) : Uop := { maj := 0, cls := 1, base := wordA 0 d a b fn }

/-- The unit does nothing but pass. -/
def passEff : Effect := fun _ _ _ _ g1 => .grp g1

/-- nop (R111). -/
def execNop (s : State) : Out := issue { u0 0 0 0 0 with str := true } passEff s

/-- exit (R112): waits for the group's operations and matrix units, makes its Cumulus buffers leave, takes a pending
AGG or PEER (R344), then ends the group. -/
def exitEff : Effect := fun s k _ g _ =>
  if !g.ops.isEmpty || !g.mxq.isEmpty then .waitSt (s.modGrp k fun h => { h with exiting := true })
  else if g.dirtyMask ≠ 0 then .waitSt ((s.cuFlush g).modGrp k fun h => { h with exiting := true })
  else if g.agg || g.peerP then
    .st ((s.takeTrap k (if g.agg then { g with agg := false } else { g with peerP := false })
      { cause := if g.agg then 9 else 10, a := ((s.ctx g.ctx).aflt).setWidth 64, pc := g.pc, i := 0, resume := g.pc }))
  else .st (s.endGroup k g)

/-- exit. -/
def execExit (s : State) : Out := issue { u0 1 0 0 0 with fp := true } exitEff s

/-- trap n and brk n (R113): a precise trap that resumes at the next unit. -/
def trapEff (u : Uop) (cause n : Nat) : Effect := fun _ _ _ g g1 =>
  .trap { u.preciseTrap g cause (BitVec.ofNat 64 n) with resume := g1.pc }

/-- trap n. -/
def execTrap (n : Fin 128) (s : State) : Out :=
  let u := { u0 2 0 0 n.val with str := true }
  issue u (trapEff u 0x11 n.val) s

/-- brk n. -/
def execBrk (n : Fin 128) (s : State) : Out :=
  let u := { u0 3 0 0 n.val with str := true }
  issue u (trapEff u 0x10 n.val) s

/-- Whether a resume PC is one that `rte` accepts (R114). -/
def pcOk (v : DWord) : Bool := v.toNat % 4 = 0 && v.toNat < 2 ^ 52

/-- rte (R114): the bank passes to the next waiting group. -/
def rteEff (u : Uop) : Effect := fun s k _ g _ =>
  if !g.inH then .trap (u.preciseTrap g 1 0)
  else if !pcOk (regGet g.bank 7) then
    .st (s.contextFault k g { cause := 0x13, a := 0, pc := g.pc, i := u.base.setWidth 64 })
  else .st ((s.setGrp k g.leaveHandler).passBank g.core (partOfSlot g.slot))

/-- rte on Stratus: a failed check is a trap in handler mode (R394). -/
def rteStr (u : Uop) : Effect := fun _ _ _ g _ =>
  if !g.inH then .trap (u.preciseTrap g 1 0)
  else if !pcOk (regGet g.bank 7) then .trap (u.preciseTrap g 0x13 0)
  else .grp g.leaveHandler

/-- rte. -/
def execRte (s : State) : Out :=
  let u := { u0 4 0 0 0 with str := true }
  issue2 u (rteEff u) (rteStr u) s

/-- yield (R111): out of the order for 8 cycles at most; no effect on Stratus. -/
def execYield (s : State) : Out :=
  issue2 { u0 5 0 0 0 with hnd := true, str := true } (fun _ _ _ _ g1 => .grp { g1 with yielding := 9 }) passEff s

/-- A unit has the spill engine spill or fill a stack first and issues after that (R93; DEDUCED, LE 74). -/
def State.startStack (s : State) (k : Nat) (g : Group) (pos : Nat) (dir : Bool) (stk : Nat) : State :=
  s.setGrp k { g with spc := { pos := pos, dir := dir, stk := stk, act := true }, upc := g.pc }

/-- ret (R100, R115): pops a frame, first filling from the spill area; on an empty stack it acts as exit. -/
def retEff (u : Uop) : Effect := fun s k m g g1 =>
  match g.ret.getLast? with
  | some e =>
    if wbOk ((g.wb : Int) - 8 * e.frame) then
      .grp (({ g1 with ret := g.ret.dropLast, pc := e.pc } : Group).setWb (g.wb - 8 * e.frame))
    else .trap { u.preciseTrap g 0x0E 0 with i := g.spc.bits }
  | none =>
    if g.retSp = 0 then exitEff s k m g g1 else .waitSt (s.startStack k g (g.retSp - 1) true 1)

/-- ret on Stratus (R394). -/
def retStr (u : Uop) : Effect := fun _ _ _ g g1 =>
  match g.ret.getLast? with
  | some e => .grp { g1 with ret := g.ret.dropLast, pc := e.pc }
  | none => .trap (u.preciseTrap g 1 0)

/-- ret. -/
def execRet (s : State) : Out :=
  let u := { u0 6 0 0 0 with fp := true, hnd := true, str := true }
  issue2 u (retEff u) (retStr u) s

/-- A limit breach traps SPF before any effect (R93). -/
def spfTrap (u : Uop) (g : Group) : Eff := .trap { u.preciseTrap g 0x0E 0 with i := g.spc.bits }

/-- winb m (R115). -/
def winbEff (u : Uop) (m : Int) : Effect := fun _ _ _ g g1 =>
  if wbOk ((g.wb : Int) + 8 * m) then .grp (g1.setWb ((g.wb : Int) + 8 * m).toNat) else spfTrap u g

/-- winb. -/
def execWinb (m : Fin 128) (s : State) : Out :=
  let u := { u0 7 0 0 m.val with hnd := true }
  issue u (winbEff u (sextNat 7 m.val)) s

/-- vsync (R116). -/
def vsyncEff (u : Uop) : Effect := fun s k _ g g1 =>
  match g.recs.getLast? with
  | some e =>
    .grp { g1 with recs := g.recs.dropLast, exm := e.exm, fmt := e.fmt, pc := if e.kindD then e.pc else e.pc + 4 }
  | none =>
    if g.recSp = 0 then .trap (u.preciseTrap g 1 0)
    else .waitSt (s.startStack k g (g.recSp - 1) true 2)

/-- vsync. -/
def execVsync (s : State) : Out :=
  let u := { u0 8 0 0 0 with fp := true, hnd := true }
  issue u (vsyncEff u) s

/-- sleep (R111): parks until TNS ≥ T + s[A]. -/
def sleepEff (a : SReg) : Effect := fun s _ _ g g1 =>
  let v := g.readS a.val
  if v = 0 then .grp g1
  else .grp { g1 with park := 7, parkArg := [v], parkTns := s.dev.tns }

/-- sleep on Stratus: stalls it until then (R394). -/
def sleepStr (a : SReg) : Effect := fun s _ _ g g1 =>
  .st { s with sgrp := g1, str := { s.str with sleepTo := if g.readS a.val = 0 then 0 else s.dev.tns + (g.readS a.val).toNat } }

/-- sleep. -/
def execSleep (a : SReg) (s : State) : Out :=
  issue2 { u0 9 0 a.val 0 with sr := [a.val], hnd := true, str := true } (sleepEff a) (sleepStr a) s

/-- qcfg (R117). -/
def qcfgEff (q d : Nat) : Effect := fun _ _ _ g g1 =>
  if g.n - 96 < g.qtot - (g.queues.getD q {}).depth + d then .trap (queTrap g (2, q))
  else .grp ({ g1 with queues := g.queues.set q { depth := d } } : Group).kick

/-- qcfg. -/
def execQcfg (q : Fin 16) (n : Fin 128) (s : State) : Out :=
  issue { u0 10 (96 + q.val) 0 n.val with hnd := true } (qcfgEff q.val n.val) s

/-- qrst (R117): each queue whose bit is set is emptied. -/
def qrstEff (a : SReg) : Effect := fun _ _ _ g g1 =>
  .grp { g1 with queues := g.queues.zipIdx.map fun p =>
    if (g.readS a.val).getLsbD p.2 then { p.1 with ents := [] } else p.1 }

/-- qrst. -/
def execQrst (a : SReg) (s : State) : Out :=
  issue { u0 11 0 a.val 0 with sr := [a.val], hnd := true } (qrstEff a) s

/-- setfmt (R118, R166). -/
def execSetfmt (i : Fin 16384) (s : State) : Out :=
  issue { u0 12 0 (i.val / 128) (i.val % 128) with str := true }
    (fun _ _ _ _ g1 => .grp { g1 with fmt := BitVec.ofNat 64 i.val }) s

/-- setmode (R118, R166). -/
def execSetmode (i : Fin 16384) (s : State) : Out :=
  issue { u0 13 0 (i.val / 128) (i.val % 128) with str := true }
    (fun _ _ _ _ g1 => .grp { g1 with mode := BitVec.ofNat 64 i.val }) s

/-! ### Major 1 (R119, R120) -/

/-- A unit of major 1; every one is a fault point. -/
def u1 (kind s6 o : Nat) : Uop := { maj := 1, cls := 1, base := wordBR s6 kind o, fp := true, str := true }

/-- PC + 4 × a signed offset. -/
def branchTo (g : Group) (off : Int) : DWord := g.pc + BitVec.ofInt 64 (4 * off)

/-- A branch taken under a condition. -/
def branchEff (o : BitVec 18) (c : Group → Bool) : Effect := fun _ _ _ g g1 =>
  .grp (if c g then { g1 with pc := branchTo g o.toInt } else g1)

/-- bra. -/
def execBra (o : BitVec 18) (s : State) : Out := issue (u1 0 0 o.toNat) (branchEff o fun _ => true) s
/-- bz. -/
def execBz (a : SReg) (o : BitVec 18) (s : State) : Out :=
  issue { u1 1 a.val o.toNat with sr := [a.val] } (branchEff o fun g => g.readS a.val = 0) s
/-- bnz. -/
def execBnz (a : SReg) (o : BitVec 18) (s : State) : Out :=
  issue { u1 2 a.val o.toNat with sr := [a.val] } (branchEff o fun g => g.readS a.val ≠ 0) s
/-- bltz. -/
def execBltz (a : SReg) (o : BitVec 18) (s : State) : Out :=
  issue { u1 3 a.val o.toNat with sr := [a.val] } (branchEff o fun g => (g.readS a.val).msb) s
/-- bgez. -/
def execBgez (a : SReg) (o : BitVec 18) (s : State) : Out :=
  issue { u1 4 a.val o.toNat with sr := [a.val] } (branchEff o fun g => !(g.readS a.val).msb) s

/-- A call (R120): pushes (PC + 4, f ÷ 8), moves WB, goes to the target; onto a full resident stack it first has the eight
oldest entries spilled (R93); a misaligned target traps ALN. Where the call breaks a limit of R93 as well, the spec gives no order: ALN is taken (DESIGN CHOICE, LE 58). -/
def callEff (u : Uop) (f8 : Nat) (target : Group → DWord) : Effect := fun s k _ g g1 =>
  let t := target g
  if t.toNat % 4 ≠ 0 then .trap (u.preciseTrap g 4 t)
  else if !wbOk (g.wb + 8 * f8) || 4096 ≤ g.ret.length + g.retSp then spfTrap u g
  else if 16 ≤ g.ret.length then .waitSt (s.startStack k g g.retSp false 1)
  else .grp (({ g1 with ret := g.ret ++ [{ pc := g.pc + 4, frame := f8 }], pc := t } : Group).setWb (g.wb + 8 * f8))

/-- A call on Stratus (R394): no frame, a return stack of 64 entries. -/
def callStr (u : Uop) (f8 : Nat) (target : Group → DWord) : Effect := fun _ _ _ g g1 =>
  let t := target g
  if f8 ≠ 0 then .trap (u.preciseTrap g 1 0)
  else if t.toNat % 4 ≠ 0 then .trap (u.preciseTrap g 4 t)
  else if 64 ≤ g.ret.length then .trap (u.preciseTrap g 0x0E 0)
  else .grp { g1 with ret := g.ret ++ [{ pc := g.pc + 4, frame := 0 }], pc := t }

/-- call. -/
def execCall (f : Fin 64) (o : BitVec 18) (s : State) : Out :=
  let u := { u1 5 f.val o.toNat with hnd := true }
  issue2 u (callEff u f.val fun g => branchTo g o.toInt) (callStr u f.val fun g => branchTo g o.toInt) s

/-- calli. -/
def execCalli (a : SReg) (f : Fin 16) (s : State) : Out :=
  let u := { u1 6 a.val f.val with hnd := true, sr := [a.val] }
  issue2 u (callEff u f.val fun g => g.readS a.val) (callStr u f.val fun g => g.readS a.val) s

/-- jmpi (R120). -/
def jmpiEff (u : Uop) (a : SReg) : Effect := fun _ _ _ g g1 =>
  if (g.readS a.val).toNat % 4 ≠ 0 then .trap (u.preciseTrap g 4 (g.readS a.val))
  else .grp { g1 with pc := g.readS a.val }

/-- jmpi. -/
def execJmpi (a : SReg) (s : State) : Out :=
  let u := { u1 7 a.val 0 with sr := [a.val] }
  issue u (jmpiEff u a) s

/-! ### Major 2 (R121) -/

/-- A unit of major 2; every one is a fault point. -/
def u2 (p : PReg) (neg : Bool) (kind : Nat) (o : BitVec 20) : Uop :=
  { maj := 2, cls := 1, base := wordVB p.val neg kind o, fp := true, pr := [p.val] }

/-- The lanes that take the branch (R121). -/
def takenMask (g : Group) (p : PReg) (neg : Bool) : DWord :=
  g.exm &&& (if neg then ~~~ (g.readP p.val) else g.readP p.val)

/-- Push a reconvergence entry, by R93: onto a full resident stack, the eight oldest entries are spilled first. -/
def pushRec (u : Uop) (s : State) (k : Nat) (g g1 : Group) (e : RecEnt) : Eff :=
  if 4096 ≤ g.recs.length + g.recSp then spfTrap u g
  else if 32 ≤ g.recs.length then .waitSt (s.startStack k g g.recSp false 2)
  else .grp { g1 with recs := g.recs ++ [e] }

/-- vbr. -/
def vbrEff (u : Uop) (p : PReg) (neg : Bool) (o : BitVec 20) : Effect := fun s k _ g g1 =>
  let t := takenMask g p neg
  let f := g.exm &&& ~~~ t
  if t = 0 then .grp g1
  else if f = 0 then .grp { g1 with pc := branchTo g o.toInt }
  else pushRec u s k g { g1 with exm := f } { kindD := true, pc := branchTo g o.toInt, exm := t, fmt := g.fmt }

/-- vbr. -/
def execVbr (p : PReg) (neg : Bool) (o : BitVec 20) (s : State) : Out :=
  let u := { u2 p neg 0 o with hnd := true }
  issue u (vbrEff u p neg o) s

/-- vbrall: goes to the target when EXM ≠ 0 and every active lane takes it. -/
def execVbrall (p : PReg) (neg : Bool) (o : BitVec 20) (s : State) : Out :=
  issue (u2 p neg 1 o)
    (fun _ _ _ g g1 => .grp (if g.exm ≠ 0 ∧ g.exm &&& ~~~ takenMask g p neg = 0
      then { g1 with pc := branchTo g o.toInt } else g1)) s

/-- vbrany: goes to the target when some active lane takes it. -/
def execVbrany (p : PReg) (neg : Bool) (o : BitVec 20) (s : State) : Out :=
  issue (u2 p neg 2 o)
    (fun _ _ _ g g1 => .grp (if takenMask g p neg ≠ 0 then { g1 with pc := branchTo g o.toInt } else g1)) s

/-- vjoin: pushes J(target, EXM, FMT). -/
def vjoinEff (u : Uop) (o : BitVec 20) : Effect := fun s k _ g g1 =>
  pushRec u s k g g1 { kindD := false, pc := branchTo g o.toInt, exm := g.exm, fmt := g.fmt }

/-- vjoin. -/
def execVjoin (o : BitVec 20) (s : State) : Out :=
  let u := { u2 0 false 3 o with pr := [], hnd := true }
  issue u (vjoinEff u o) s

end Sys2Proof.Machine
end

