-- ==== Sys2Proof/Machine/Translate.lean ====
section
/-! DEFINITION. Object translation (R210-R222): the granule directory, object records and their checks, addresses
within an object, guards, permissions, sub-tile entries, and where each byte of an access lies. -/

namespace Sys2Proof.Machine

/-! ### Object records (R212-R214) -/

/-- A record's 512 bits. -/
structure Rec where
  bits : Nat
deriving DecidableEq, Repr

/-- Bits [lo, lo + n) of byte offset `o` of a record. -/
def Rec.at (r : Rec) (o lo n : Nat) : Nat := (r.bits >>> (8 * o + lo)) % 2 ^ n
/-- KIND: 0 linear, 1 tensor, 2 remote, 3 code. -/
def Rec.kind (r : Rec) : Nat := r.at 0 0 2
/-- PERM: R 1, W 2, X 4, A 8, H 16, S 32. -/
def Rec.perm (r : Rec) : Nat := r.at 0 2 6
/-- EF. -/
def Rec.ef (r : Rec) : Nat := r.at 0 8 4
/-- RANK as stored. -/
def Rec.rank (r : Rec) : Nat := r.at 0 12 3
/-- LAYOUT. -/
def Rec.layout (r : Rec) : Nat := r.at 0 15 2
/-- GUARD: 0 fault, 1 zero, 2 clamp. -/
def Rec.guard (r : Rec) : Nat := r.at 0 17 2
/-- STLOG. -/
def Rec.stlog (r : Rec) : Nat := r.at 0 19 5
/-- TLA. -/
def Rec.tla (r : Rec) : Nat := r.at 0 24 4
/-- TLB. -/
def Rec.tlb (r : Rec) : Nat := r.at 0 28 4
/-- VAG. -/
def Rec.vag (r : Rec) : Nat := r.at 8 0 31
/-- LENG. -/
def Rec.leng (r : Rec) : Nat := r.at 8 31 31
/-- FTP. -/
def Rec.ftp (r : Rec) : Nat := r.at 16 0 48
/-- EXTn. -/
def Rec.ext (r : Rec) (n : Nat) : Nat := r.at (24 + 4 * n) 0 32
/-- STRn, n from 1. -/
def Rec.str (r : Rec) (n : Nat) : Nat := r.at (44 + 5 * (n - 1)) 0 40
/-- Element bytes (R213); 1 for a linear or code object. -/
def Rec.es (r : Rec) : Nat := if r.kind = 1 then [1, 2, 4, 8, 16, 1, 2, 4, 2, 2, 1, 1, 1, 1, 1, 1].getD r.ef 1 else 1
/-- SZ: the product of the extents, or the length in bytes (R214). -/
def Rec.sz (r : Rec) : Nat :=
  if r.kind = 1 then (List.range r.rank).foldl (fun a n => a * r.ext n) r.es else r.at 24 0 48
/-- The first byte's VA. -/
def Rec.base (r : Rec) : Nat := r.vag * 2 ^ 21
/-- The rank a coordinate access sees: 1 for a linear or code object (R233). -/
def Rec.crank (r : Rec) : Nat := if r.kind = 1 then r.rank else 1
/-- The extent a coordinate access sees; 1 from the rank up (R233, R234). -/
def Rec.cext (r : Rec) (n : Nat) : Nat :=
  if r.kind = 1 then (if n < r.rank then r.ext n else 1) else if n = 0 then r.sz else 1

/-- A record from its words. -/
def recOf (w : List DWord) : Rec := { bits := w.foldr (fun d acc => d.toNat + 2 ^ 64 * acc) 0 }

/-- The checks of R214 with the codes of R224: 0 passes. -/
def Rec.check (r : Rec) (isOpen : Bool) : Nat :=
  let dims := List.range 5
  let field := r.ef = 15 || r.guard = 3 || r.at 8 62 2 ≠ 0 || r.at 16 48 16 ≠ 0 || r.leng = 0
  if r.kind = 2 then
    if field || r.stlog ≠ 0 || r.ftp ≠ 0 || r.ef ≠ 0 || r.rank ≠ 0 || r.layout ≠ 0 || r.guard ≠ 0 || r.tla ≠ 0 ||
      r.tlb ≠ 0 || r.bits >>> 234 ≠ 0 then 2 else 0
  else if field || r.stlog < 12 || 24 < r.stlog || r.ftp % 8 ≠ 0 ||
      (if isOpen then 0x20000000000 else 0x1E000000000) ≤ r.ftp then 2
  else if r.kind ≠ 1 then
    if r.ef ≠ 0 || r.rank ≠ 0 || r.layout ≠ 0 || r.tla ≠ 0 || r.tlb ≠ 0 || r.bits >>> 240 ≠ 0 then 2
    else if r.sz % 4 ≠ 0 then 3
    else if r.leng * 2 ^ 21 < r.sz then 4 else 0
  else if r.rank = 0 || 5 < r.rank || (dims.any fun n => (n < r.rank && r.ext n = 0) || (r.rank ≤ n && r.ext n ≠ 0)) ||
      (dims.any fun n => 1 ≤ n && r.rank ≤ n && r.str n ≠ 0) || (r.layout ≠ 0 && r.rank < 2) ||
      (r.layout ≠ 2 && (r.tla ≠ 0 || r.tlb ≠ 0)) then 2
  else if (dims.any fun n => 1 ≤ n && n < r.rank && r.str n % r.es ≠ 0) ||
      (r.layout = 2 && (r.str 1 ≠ 0 || 2 ^ r.tlb * r.es % 16 ≠ 0)) || (r.layout = 3 && r.str 1 % 128 ≠ 0) then 3
  else if r.leng * 2 ^ 21 < r.sz then 4 else 0

/-! ### Lookup (R211, R223) -/

/-- A party that translates: the core 0-255 or 256 + port die whose caches serve it, its context, whether it has
system privilege, and the (object, sub-tile) whose service has failed for it (R227). -/
structure Xl where
  u : Nat
  ctx : Nat
  sys : Bool
  failed : Option (Nat × Nat) := none
deriving DecidableEq, Repr

/-- The translation caches of a core or port die. -/
def State.trc (s : State) (u : Nat) : TrCache := if u < 256 then (s.core u).tr else mapGet s.ptr (u - 256) {}

/-- Change the translation caches of a core or port die. -/
def State.modTr (s : State) (u : Nat) (f : TrCache → TrCache) : State :=
  if u < 256 then s.modCore u fun c => { c with tr := f c.tr }
  else { s with ptr := mapSet s.ptr (u - 256) (f (mapGet s.ptr (u - 256) {})) }

/-- The compute die whose walker serves a core or port die. -/
def State.walkDie (s : State) (u : Nat) : Nat :=
  if u < 256 then u / 16
  else
    let d := if u = 304 then 0 else 8
    if (s.die d).dead then ((List.range 16).find? fun e => !(s.die e).dead).getD d else d

/-- Key of a level-1 directory entry in a walker's store. -/
def dirKey1 (ctx va : Nat) : Nat := ctx * 2 ^ 32 + va / 2 ^ 36
/-- Key of a level-2 directory entry in a walker's store. -/
def dirKey2 (ctx va : Nat) : Nat := 2 ^ 60 + ctx * 2 ^ 32 + va / 2 ^ 21
/-- Key of a record. -/
def recKey (ctx obj : Nat) : Nat := ctx * 2 ^ 24 + obj
/-- Key of a sub-tile entry. -/
def entKey (ctx obj sub : Nat) : Nat := recKey ctx obj * 2 ^ 32 + sub

/-- The level-1 entry of a VA: the walker's copy, or memory. -/
def State.dir1 (s : State) (x : Xl) (va : Nat) : Nat :=
  match mapGet? (mapGet s.gdir (s.walkDie x.u) []) (dirKey1 x.ctx va) with
  | some v => v.toNat
  | none => s.rdNat ((s.ctx x.ctx).otdr.toNat % 2 ^ 48 + 8 * (va / 2 ^ 36)) 8

/-- The level-2 entry of a VA under a level-1 entry. -/
def State.dir2 (s : State) (x : Xl) (va e1 : Nat) : Nat :=
  match mapGet? (mapGet s.gdir (s.walkDie x.u) []) (dirKey2 x.ctx va) with
  | some v => v.toNat
  | none => s.rdNat (bitsOf e1 12 36 * 2 ^ 12 + 4 * (va / 2 ^ 21 % 2 ^ 15)) 4

/-- A record's words in memory. -/
def State.recMem (s : State) (ctx obj : Nat) : List DWord :=
  (List.range 8).map fun i => BitVec.ofNat 64 (s.rdNat ((s.ctx ctx).orb.toNat % 2 ^ 48 + 64 * obj + 8 * i) 8)

/-- A record as a party sees it: the cached copy, or memory. -/
def State.recWords (s : State) (x : Xl) (obj : Nat) : List DWord :=
  match mapGet? (s.trc x.u).recs (recKey x.ctx obj) with
  | some l => l.words
  | none => s.recMem x.ctx obj

/-- The outcome of a lookup: WHY and object of an OBJ fault, or the object and its record. -/
inductive Look where
  | bad (why obj : Nat)
  | ok (obj : Nat) (r : Rec)
deriving DecidableEq, Repr

/-- The record of an object, checked (R214). -/
def State.recLook (s : State) (x : Xl) (obj : Nat) : Look :=
  let r := recOf (s.recWords x obj)
  if r.check s.dev.memOpen ≠ 0 || (s.ctx x.ctx).invalid.contains obj then .bad 5 obj else .ok obj r

/-- ORTLOG. -/
def Ctx.ortlog (c : Ctx) : Nat := bitsOf c.orb.toNat 48 5

/-- The object of a VA (R211). -/
def State.look (s : State) (x : Xl) (va : Nat) : Look :=
  if 0xF000000000000 ≤ va then .bad 1 0
  else
    let e1 := s.dir1 x va
    if e1 % 2 = 0 || bitsOf e1 1 11 ≠ 0 || bitsOf e1 48 16 ≠ 0 then .bad 2 0
    else
      let e2 := s.dir2 x va e1
      if !bitOf e2 31 || bitsOf e2 24 7 ≠ 0 || 2 ^ (s.ctx x.ctx).ortlog ≤ e2 % 2 ^ 24 then .bad 3 0
      else match s.recLook x (e2 % 2 ^ 24) with
        | .bad w o => .bad w o
        | .ok obj r =>
          if va / 2 ^ 21 < r.vag || r.vag + r.leng ≤ va / 2 ^ 21 then .bad 4 obj else .ok obj r

/-! ### Addresses within an object (R216, R217) -/

/-- Storage offset of an element's first byte. -/
def Rec.soff (r : Rec) (c : List Nat) : Nat :=
  let k (n : Nat) : Nat := c.getD n 0
  let es := r.es
  let rest := k 2 * r.str 2 + k 3 * r.str 3 + k 4 * r.str 4
  if r.kind ≠ 1 then k 0
  else match r.layout with
    | 0 => k 0 * es + k 1 * r.str 1 + rest
    | 1 => k 1 * es + k 0 * r.str 1 + rest
    | 2 =>
      let ta := 2 ^ r.tla
      let tb := 2 ^ r.tlb
      let nt := (r.ext 0 + tb - 1) / tb
      (k 1 / ta * nt + k 0 / tb) * (ta * tb * es) + k 1 % ta * tb * es + k 0 % tb * es + rest
    | _ => Nat.xor (k 0 * es + k 1 * r.str 1 + rest) (k 1 % 8 * 16)

/-- Coordinates of a tensor's logical byte offset, the outermost unbounded (R216). -/
def Rec.coordsAux (r : Rec) : Nat → Nat → Nat → List Nat
  | 0, _, _ => []
  | fuel + 1, n, e =>
    if n + 1 = r.rank then [e] else (e % r.ext n) :: r.coordsAux fuel (n + 1) (e / r.ext n)

/-- Coordinates of a logical byte offset. -/
def Rec.coords (r : Rec) (o : Nat) : List Nat := r.coordsAux 5 0 (o / r.es)

/-- Storage offset of a logical byte offset in shape. -/
def Rec.byteOff (r : Rec) (o : Nat) : Nat := if r.kind = 1 then r.soff (r.coords o) + o % r.es else o

/-- Storage offset of the clamped element's byte (R218). -/
def Rec.clampOff (r : Rec) (o : Nat) : Nat :=
  r.soff ((r.coords o).zipIdx.map fun p => min p.1 (r.ext p.2 - 1)) + o % r.es

/-- The run a logical byte offset lies in (R217). -/
def Rec.run (r : Rec) (o : Nat) : Nat × Nat :=
  if r.kind ≠ 1 then (0, 0)
  else
    let row := r.ext 0 * r.es
    let run := match r.layout with | 0 => row | 1 => r.es | 2 => 2 ^ r.tlb * r.es | _ => 16
    (o / row, o % row / run)

/-- The logical byte offset of an element in shape. -/
def Rec.logical (r : Rec) (c : List Nat) : Nat :=
  ((List.range 5).reverse.foldl (fun e n => e * r.cext n + c.getD n 0) 0) * r.es

/-! ### Sub-tile entries (R215, R219, R229) -/

/-- Where a byte at a storage offset is. -/
inductive BytePl where
  | at (a : Nat)
  /-- Guarded away. -/
  | gone
  /-- RESF with a WHY: 1 the service failed, 2 the entry is BAD or has a reserved bit set. -/
  | resf (why : Nat)
  /-- The frame lies outside memory: OBJ with WHY 6. -/
  | out
  | miss (sub : Nat)
  /-- A moving sub-tile: held without a service. -/
  | hold (sub : Nat)
deriving DecidableEq, Repr

/-- The WHY of a byte that answers RESF. -/
def BytePl.resfWhy : BytePl → Option Nat
  | .resf w => some w
  | _ => none

/-- Whether the byte's access must wait for its sub-tile. -/
def BytePl.waits : BytePl → Bool
  | .miss _ => true
  | .hold _ => true
  | _ => false

/-- A sub-tile entry as a party sees it. -/
def State.entry (s : State) (x : Xl) (obj : Nat) (r : Rec) (sub : Nat) : Nat :=
  match mapGet? (s.trc x.u).ents (entKey x.ctx obj sub) with
  | some v => v.word.toNat
  | none => s.rdNat (r.ftp + 8 * sub) 8

/-- The byte at a storage offset. -/
def State.bytePl (s : State) (x : Xl) (obj : Nat) (r : Rec) (soff : Nat) : BytePl :=
  let sub := soff / 2 ^ r.stlog
  if x.failed = some (obj, sub) then .resf 1
  else if (s.ctx x.ctx).moving.contains (obj, sub) then .hold sub
  else
    let e := s.entry x obj r sub
    if bitOf e 2 || bitsOf e 3 9 ≠ 0 || bitsOf e 48 16 ≠ 0 then .resf 2
    else if !bitOf e 0 then .miss sub
    else
      let a := bitsOf e 12 36 * 2 ^ 12
      if bitOf e 1 then .hold sub
      else if !s.isMem (a + 2 ^ r.stlog - 1) then .out
      else .at (a + soff % 2 ^ r.stlog)

/-! ### Permissions and the outcome of an access (R218, R220, R221) -/

/-- WHY of the PERM fault of an access that needs permissions `need` (and, for a fetch, KIND code). -/
def Rec.permWhy (r : Rec) (need : Nat) (fetch sys : Bool) : Option Nat :=
  let lacks (b : Nat) : Bool := bitOf need b && !bitOf r.perm b
  if lacks 0 then some 1
  else if lacks 1 then some 2
  else if lacks 2 || (fetch && r.kind ≠ 3) then some 3
  else if lacks 3 then some 4
  else if bitOf r.perm 5 && !sys then some 5
  else if lacks 4 then some 6
  else none

/-- What translation answers for one lane's access. -/
inductive XR where
  | ok (places : List Place)
  /-- Cause, WHY and object. -/
  | fault (cause why obj : Nat)
  /-- A residency miss: object, sub-tile and the VA of the first missing byte. -/
  | miss (obj sub va : Nat)
  /-- A moving sub-tile. -/
  | hold (obj sub va : Nat)
deriving DecidableEq, Repr

/-- Decide an access from its bytes' storage offsets (none: guarded away): OBJ, PERM, OOS, RESF, then a miss (R221). -/
def State.settle (s : State) (x : Xl) (obj : Nat) (r : Rec) (need : Nat) (fetch oos : Bool) (va : Nat → Nat)
    (offs : List (Option Nat)) : XR :=
  let ps := offs.map fun o => match o with | some o => s.bytePl x obj r o | none => .gone
  if ps.contains .out then .fault 5 6 obj
  else match r.permWhy need fetch x.sys with
    | some w => .fault 6 w obj
    | none =>
      if oos && r.guard = 0 then .fault 7 1 obj
      else match ps.findSome? BytePl.resfWhy with
        | some w => .fault 8 w obj
        | none =>
          match ps.zipIdx.find? (fun (p : BytePl × Nat) => p.1.waits) with
          | some (.miss sub, i) => .miss obj sub (va i)
          | some (.hold sub, i) => .hold obj sub (va i)
          | _ => .ok (ps.map fun p => match p with | .at a => .da a | _ => .gone)

/-- Whether a device may be reached as a peer of the load-store domain (R20, R221 WHY 7). -/
def State.inDomain (s : State) (peer : Nat) : Bool := s.fab.domain.contains peer

/-- A generic access of `n` bytes at VA `va` in object space (R216-R220, R230); `wr` for stores, atomics and
reductions. Runs (R217) are those of lane accesses, checked only of one in shape: one that passes SZ is guarded byte by byte
(R218; DESIGN CHOICE, LE 64). -/
def State.xlateIn (s : State) (x : Xl) (obj : Nat) (r : Rec) (need : Nat) (wr fetch : Bool) (va n : Nat)
    (runs : Bool := true) : XR :=
  let o := va - r.base
  if r.kind = 2 then
    let peer := r.at 24 0 12
    if !s.inDomain peer then .fault 5 7 obj
    else match r.permWhy need fetch x.sys with
      | some w => .fault 6 w obj
      | none => .ok ((List.range n).map fun i => .remote peer (r.at 24 12 6) (r.at 24 18 24) (o + i))
  else
    let oos := r.sz < o + n
    if runs && !oos && r.run o ≠ r.run (o + n - 1) then .fault 4 0 obj
    else
      s.settle x obj r need fetch oos (fun i => va + i) ((List.range n).map fun i =>
        if !oos then some (r.byteOff (o + i))
        else if r.guard = 2 && r.kind = 1 && !wr then some (r.clampOff (o + i))
        else none)

/-- Whether a word of an object lies out of shape, and its object and sub-tile (R215, R218). -/
def Rec.wordVia (r : Rec) (obj off : Nat) : Bool × Nat × Nat := (decide (r.sz < off + 4), obj, r.byteOff off / 2 ^ r.stlog)

/-- The same of a word at a VA. -/
def State.wordVia (s : State) (x : Xl) (va : Nat) : Bool × Nat × Nat :=
  match s.look x va with
  | .ok ob r => if r.kind = 2 then (false, ob, 0) else r.wordVia ob (va - r.base)
  | .bad .. => (false, 0, 0)

/-- A generic access at a VA. -/
def State.xlate (s : State) (x : Xl) (need : Nat) (wr fetch : Bool) (va n : Nat) (runs : Bool := true) : XR :=
  match s.look x va with
  | .bad w o => .fault 5 w o
  | .ok obj r => s.xlateIn x obj r need wr fetch va n runs

/-- `n` bytes, each byte `i` a byte of an element named by its coordinates (R233, R234); each element guarded whole
(R218). -/
def State.xlateElems (s : State) (x : Xl) (obj : Nat) (r : Rec) (need : Nat) (wr : Bool) (f : Nat → List Int × Nat)
    (n : Nat) : XR :=
  let inShape (c : List Int) : Bool :=
    (List.range 5).all fun k => (decide (0 ≤ c.getD k 0)) && (decide (c.getD k 0 < (r.cext k : Int)))
  let cc (c : List Int) : List Nat := (List.range 5).map fun k => min (c.getD k 0).toNat (r.cext k - 1)
  let is := List.range n
  s.settle x obj r need false (is.any fun i => !inShape (f i).1)
    (fun i => r.base + r.logical (cc (f i).1) + (f i).2)
    (is.map fun i =>
      if inShape (f i).1 || (r.guard = 2 && r.kind = 1 && !wr) then some (r.soff (cc (f i).1) + (f i).2) else none)

/-- Bytes at offsets of a context's private object with system permission (R186, R219); `va` names the access. -/
def State.xlatePriv (s : State) (u ctx need : Nat) (va : Nat) (offs : List Nat) (failed : Option (Nat × Nat) := none) : XR :=
  let x : Xl := { u := u, ctx := ctx, sys := true, failed := failed }
  match s.recLook x (s.ctx ctx).privobj with
  | .bad w ob => .fault 5 w ob
  | .ok obj r =>
    let oos := offs.any fun o => decide (r.sz ≤ o)
    s.settle x obj r need false oos (fun i => va + i)
      (offs.map fun o => if oos then none else some (r.byteOff o))

/-- Offset in the private object of byte `o` of lane `i`'s private slice (R186). -/
def privOff (pb i o : Nat) : Nat := pb + 256 * (o / 4) + 4 * i + o % 4

/-! ### Walks (R223) -/

/-- Whether a translation of `va` finds its record and entry cached: their keys. -/
def State.trKeys (s : State) (x : Xl) (va : Nat) : Option (Nat × Nat) :=
  match s.look x va with
  | .bad .. => none
  | .ok obj r =>
    let o := va - r.base
    some (recKey x.ctx obj, entKey x.ctx obj (if r.kind = 2 || r.sz ≤ o then 0 else r.byteOff o / 2 ^ r.stlog))

/-- Walks in progress at the walker of a die (R223). -/
def State.walksAt (s : State) (d : Nat) : Nat :=
  (s.cores.map fun kv => if kv.1 / 16 = d then kv.2.tr.walks.length else 0).sum +
    (s.ptr.map fun kv => if s.walkDie (kv.1 + 256) = d then kv.2.walks.length else 0).sum

/-- A translation of `va` uses its caches (R223): the record and the entry become the ones used last; when one is
missing a walk starts, of at most 64 at a time. -/
def State.startWalk (s : State) (x : Xl) (va : Nat) : State :=
  match s.trKeys x va with
  | none => s
  | some (rk, ek) =>
    let t := s.trc x.u
    let miss := (mapGet? t.recs rk).isNone || (mapGet? t.ents ek).isNone
    s.modTr x.u fun t =>
      { t with
        uses := t.uses + 1,
        recs := mapMod t.recs rk fun l => { l with used := t.uses },
        ents := mapMod t.ents ek fun l => { l with used := t.uses },
        walks := if miss && !t.walks.contains (x.ctx, va) && s.walksAt (s.walkDie x.u) < 64 then t.walks ++ [(x.ctx, va)] else t.walks }

/-- Put an entry into a walker's store of `cap` directory entries; the lowest key leaves a full one (DESIGN CHOICE, LE 18). -/
def capSet {α : Type} (m : NMap α) (cap n : Nat) (v : α) : NMap α :=
  mapSet (if (mapGet? m n).isSome || m.length < cap then m else m.drop 1) n v

/-- Put an entry into a cache of `cap` entries; the least recently used one leaves a full one (R223). -/
def lruSet {α : Type} (used : α → Nat) (m : NMap α) (cap n : Nat) (v : α) : NMap α :=
  let old : Option (Nat × α) := m.foldl (fun b e => match b with
    | some x => if used e.2 < used x.2 then some e else some x
    | none => some e) none
  mapSet (if (mapGet? m n).isSome || m.length < cap then m else match old with | some e => mapDel m e.1 | none => m) n v

/-- A residency miss at an access: opens a service for (context, object, sub-tile) unless one is outstanding (R226). -/
def State.openService (s : State) (ctx obj sub src : Nat) (wr : Bool) (unit va : Nat) : State :=
  s.modCtx ctx fun c =>
    if c.services.any fun v => v.obj = obj && v.sub = sub then c
    else { c with services := c.services ++ [{ obj := obj, sub := sub, src := src, wr := wr, unit := unit, va := va }] }

end Sys2Proof.Machine
end

