-- ==== Sys2Proof/Machine/Remote.lean ====
section
/-! DEFINITION. The requests of remote accesses (R208, R230, R379): one packet for each peer, object and line. -/

namespace Sys2Proof.Machine

/-- The remote place of an access, if it has one: peer, destination context, remote object and byte offset. -/
def LaneAcc.remote (a : LaneAcc) : Option (Nat × Nat × Nat × Nat) :=
  match a.places.head? with
  | some (.remote p c o f) => some (p, c, o, f)
  | _ => none

/-- The packet TYPE of an operation's request (R379). -/
def reqType (k : OpKind) : Nat :=
  match k with
  | .store => 1
  | .atom _ => 2
  | .red _ => 3
  | _ => 0

/-- Elements in pieces of `n`, `fuel` pieces at most. -/
def piecesOf {α : Type} (n : Nat) : Nat → List α → List (List α)
  | 0, _ => []
  | _, [] => []
  | fuel + 1, l => l.take n :: piecesOf n fuel (l.drop n)

/-- Operation, operand and byte mask of a request header (R379; their places in OPND, DESIGN CHOICE, LE 20): the operation, the
bytes of each access or operand (0: the mask's bytes are one access), the mask of the line's bytes, or how many operands follow. -/
def reqOpnd (op size mask : Nat) : List Byte := leBytes 1 op ++ leBytes 1 size ++ leBytes 16 mask

/-- The mask of the bytes of a line from `off` on. -/
def byteMask (off n : Nat) : Nat := (2 ^ n - 1) * 2 ^ (off % 128)

/-- An operand of an atomic or a reduction: the word of the line, and its bytes. -/
def opPart (off : Nat) (bs : List Byte) : List Byte := leBytes 1 (off % 128 / 4) ++ bs

/-- The offset of a lane's access in its remote object. -/
def LaneAcc.remOff (a : LaneAcc) : Nat := (a.remote.map fun q => q.2.2.2).getD 0

/-- The access of its line that a lane's is: lanes of a load or a store that name the same bytes share it (R188, R208). -/
def LaneAcc.lineSlot (a : LaneAcc) : Nat := a.remOff % 128 / max 1 a.places.length

/-- OPND and payload of the request of lanes of one line, of a read or a write: the bytes they name, and for a write the line's
bytes, of the highest lane that names them (R188, R379). -/
def lineReq (op : Nat) (wr : Bool) (ls : List LaneAcc) : List Byte × List Byte :=
  let mask := ls.foldl (fun m a => m ||| byteMask a.remOff a.places.length) 0
  let data : NMap Byte := ls.foldl (fun m a => (a.data.zipIdx.foldl (fun (t : NMap Byte) p => mapSet t (a.remOff % 128 + p.2) p.1) m)) []
  (reqOpnd op ((ls.head?.map fun a => a.places.length).getD 0) mask, if wr then (List.range 128).map fun i => mapGet data i 0 else [])

/-- OPND and payload of the request of lanes of one line, of an atomic or a reduction: their operands, lane by lane. -/
def opsReq (op : Nat) (ls : List LaneAcc) : List Byte × List Byte :=
  (reqOpnd op ((ls.head?.map fun a => a.data.length).getD 4) ls.length, ls.flatMap fun a => opPart a.remOff a.data)

/-- Key of the request of a remote lane. -/
def LaneAcc.reqKey (a : LaneAcc) : Option Nat :=
  a.remote.map fun q => ((q.1 * 64 + q.2.1) * 2 ^ 24 + q.2.2.1) * 2 ^ 52 + q.2.2.2 / 128

/-- Keys of the requests of an operation's remote lanes: ascending peer, then object, then line (R208). -/
def reqKeys (accs : List LaneAcc) : List Nat :=
  ((accs.filterMap LaneAcc.reqKey).foldl (fun (m : NMap Unit) k => mapSet m k ()) []).map Prod.fst

/-- The lanes of a line by the packets that carry them (R379): one, but for the operands of an atomic or a reduction beyond two
flits, which go in several (DESIGN CHOICE, LE 20). -/
def pktLanes (type : Nat) (ls : List LaneAcc) : List (List LaneAcc) :=
  if type ≤ 1 then [ls] else piecesOf (if type = 2 then 14 else 25) ls.length ls

/-- Send one packet with lanes of an operation's request. -/
def State.sendPart (k key : Nat) (p : State × Op) (ls : List LaneAcc) : State × Op :=
  let o := p.2
  let (id, s1) := p.1.fresh1
  let type := reqType o.kind
  let op := match o.kind with | .atom n => n | .red n => n | _ => 0
  let body := if type ≤ 1 then lineReq op (type = 1) ls else opsReq op ls
  let g := p.1.grp? k
  (s1.fabSend (g.map Group.ctx)
    { type := type, src := s1.fab.dev, dst := key / 2 ^ 82, rctx := key / 2 ^ 76 % 64, cls := 0, seq := 0,
      rid := { src := 64 + s1.fab.dev, req := g.elim 0 Group.slot, seq := id }, ronum := key / 2 ^ 52 % 2 ^ 24,
      off := key % 2 ^ 52 * 128, opnd := body.1, payload := body.2 },
   { o with accs := o.accs.map fun a => if ls.any fun b => b.lane = a.lane && b.reg = a.reg then { a with rid := id } else a })

/-- Send the requests of an operation's remote lanes, one for each distinct (peer, object, line) (R208). -/
def State.sendReqs (s : State) (k : Nat) (o : Op) : List Nat → State × Op
  | [] => (s, o)
  | key :: r =>
    let (s1, o1) := (pktLanes (reqType o.kind) (o.accs.filter fun a => a.reqKey == some key)).foldl (State.sendPart k key) (s, o)
    State.sendReqs s1 k o1 r

/-- Whether an operation has remote lanes whose requests have not left. -/
def Op.unsent (o : Op) : Bool := o.accs.any fun a => a.remote.isSome && a.rid = 0

/-- The peers of the remote lanes whose requests have not left. -/
def Op.unsentPeers (o : Op) : List Nat := o.accs.filterMap fun a => if a.rid = 0 then a.remote.map fun q => q.1 else none

/-- Send an operation's remote lanes. -/
def State.sendRemote (s : State) (k : Nat) (o : Op) : State × Op := s.sendReqs k o (reqKeys o.accs)

end Sys2Proof.Machine
end

