-- ==== Sys2Proof/Machine/Span.lean ====
section
/-! DEFINITION. Accesses of parties that are no group's lanes: host windows, collective engines, rings, launch records, copies and
remote devices (R14, R15, R226, R230). How they reach bytes of a context's objects, wait for a residency service, and send
requests to the device of a remote object. -/

namespace Sys2Proof.Machine

/-! ### Waiting for a service (R226, R227) -/

/-- Whether a party waits for a service. -/
def State.waits (s : State) (p : Party) : Bool := s.svcWaits.any fun w => w.who = p

/-- A party's access misses residency: it opens or joins the service and waits (R226). -/
def State.parkOn (s : State) (p : Party) (ctx obj sub src : Nat) (wr : Bool) (unit va : Nat) : State :=
  { s.openService ctx obj sub src wr unit va with
    svcWaits := s.svcWaits ++ [{ who := p, ctx := ctx, obj := obj, sub := sub, va := va, wr := wr }] }

/-- A party is through with its access: nothing of its waits and requests is kept. -/
def State.release (s : State) (p : Party) : State :=
  { s with svcWaits := s.svcWaits.filter fun w => w.who ≠ p, rio := s.rio.filter fun e => e.who ≠ p }

/-! ### Reaching bytes -/

/-- What reaching a span of a context's object space answers; a fault and a wait carry the VA of the byte. -/
inductive Span where
  | ok (ps : List Place)
  | fault (cause why obj va : Nat)
  | miss (obj sub va : Nat)
  | hold
deriving DecidableEq, Repr

/-- Reach `n` bytes from a VA byte by byte: the first fault counts, then the first miss or moving sub-tile. -/
def State.span (s : State) (x : Xl) (need : Nat) (wr : Bool) (va n : Nat) : Span :=
  let rs := (List.range n).map fun i => (s.xlate x need wr false (va + i) 1, va + i)
  match rs.find? fun r => match r.1 with | .fault .. => true | _ => false with
  | some (.fault c w o, a) => .fault c w o a
  | _ =>
    match rs.find? fun r => match r.1 with | .miss .. => true | .hold .. => true | _ => false with
    | some (.miss o b a, _) => .miss o b a
    | some _ => .hold
    | none => .ok (rs.map fun r => match r.1 with | .ok (p :: _) => p | _ => .gone)

/-- The bytes at places of the device; those guarded away read zero. -/
def State.spanRead (s : State) (ps : List Place) : List Byte := ps.map fun p => match p with | .da a => s.rdByte a | _ => 0

/-- Write bytes at places of the device, at their home slices, a run as one write. -/
def State.spanWrite (s : State) (ps : List Place) (bs : List Byte) : State :=
  (daRuns (ps.zip bs)).foldl (fun t p => t.homeWrite none p.1 p.2) s

/-- How many lines of device memory hold the places. -/
def lineCount (ps : List Place) : Nat :=
  (ps.filterMap fun p => match p with | .da a => some (a / 128) | _ => none).eraseDups.length

/-- Context `n` is charged for the lines that serve the places (R412). -/
def State.spanEnergy (s : State) (n : Nat) (ps : List Place) : State := s.energy n (110000 * lineCount ps)

/-- The translator of the port die that serves the device's deliveries: PD0, or PD1 when PD0 is lost (R384). -/
def State.pdXl (s : State) (n : Nat) : Xl :=
  { u := if (s.die 48).dead then 305 else 304, ctx := n, sys := s.sysCtx n }

/-! ### Requests for remote bytes (R15, R208, R230) -/

/-- Consecutive remote bytes of one line, with the index of the first. -/
structure RemRun where
  peer : Nat
  rctx : Nat
  obj : Nat
  off : Nat
  len : Nat
  idx : Nat
deriving DecidableEq, Repr

/-- The remote bytes among places, as runs within lines; `i` is the index of the first place. -/
def remRuns (i : Nat) : List Place → List RemRun
  | [] => []
  | .remote p c o f :: r =>
    (match remRuns (i + 1) r with
     | x :: t =>
       if x.peer = p && x.rctx = c && x.obj = o && x.off = f + 1 && x.idx = i + 1 && x.off % 128 ≠ 0 then
         { x with off := f, len := x.len + 1, idx := i } :: t
       else { peer := p, rctx := c, obj := o, off := f, len := 1, idx := i } :: x :: t
     | [] => [{ peer := p, rctx := c, obj := o, off := f, len := 1, idx := i }])
  | _ :: r => remRuns (i + 1) r

/-- A request of an engine `req` for a run of remote bytes: a read, a write, or an operation (R379). A write of operation 1 is
translated and writes nothing (R250; DESIGN CHOICE, LE 20). -/
def State.runReq (s : State) (ctx req type op : Nat) (r : RemRun) (bs : List Byte) : Nat × State :=
  let (id, s1) := s.fresh1
  (id, s1.fabSend (some ctx)
    { type := type, src := s.fab.dev, dst := r.peer, rctx := r.rctx, cls := 0, seq := 0,
      rid := { src := 64 + s.fab.dev, req := req, seq := id }, ronum := r.obj, off := r.off / 128 * 128,
      opnd := if type ≤ 1 then reqOpnd op 0 (byteMask r.off r.len) else reqOpnd op bs.length 1,
      payload := if type ≤ 1 then bs else opPart r.off bs })

/-- The requester number of the port dies' engines (DESIGN CHOICE, LE 20). -/
def pdReq : Nat := 2 ^ 15 + 128

/-- The request that a party has made for a run. -/
def State.ioOf (s : State) (p : Party) (wr : Bool) (r : RemRun) : Option RemIO :=
  s.rio.find? fun e => e.who = p && e.wr == wr && e.peer = r.peer && e.rctx = r.rctx && e.obj = r.obj && e.off = r.off && e.len = r.len

/-- Send a party's request for a run, once. -/
def State.askRun (s : State) (p : Party) (ctx : Nat) (wr : Bool) (bs : List Byte) (r : RemRun) : State :=
  if (s.ioOf p wr r).isSome then s
  else
    let (id, s1) := s.runReq ctx pdReq (if wr then 1 else 0) 0 r (if wr then (bs.drop r.idx).take r.len else [])
    { s1 with rio := s1.rio ++ [{ who := p, wr := wr, peer := r.peer, rctx := r.rctx, obj := r.obj, off := r.off, len := r.len,
                                  id := id }] }

/-- What reading or writing places answers. -/
inductive Io where
  | ok (bs : List Byte)
  /-- A remote byte faulted: cause, WHY, object, and the index of its run's first byte. -/
  | bad (cause why obj idx : Nat)
  | wait (s : State)

/-- The answers of a party's requests for runs: the first fault, a wait, or all the bytes. -/
def State.runsDone (s : State) (p : Party) (ctx : Nat) (wr : Bool) (bs : List Byte) (runs : List RemRun) : Io :=
  match runs.findSome? fun r => ((s.ioOf p wr r).bind RemIO.bad).map fun b => (b, r.idx) with
  | some (b, i) => .bad b.1 b.2.1 b.2.2 i
  | none =>
    if runs.all fun r => ((s.ioOf p wr r).bind RemIO.resp).isSome then .ok []
    else .wait (runs.foldl (fun t r => t.askRun p ctx wr bs r) s)

/-- A party reads places: local bytes now, remote ones from the responses of its requests. -/
def State.spanIn (s : State) (p : Party) (ctx : Nat) (ps : List Place) : Io :=
  let runs := remRuns 0 ps
  match s.runsDone p ctx false [] runs with
  | .ok _ => .ok (ps.zipIdx.map fun q => match q.1 with
    | .da a => s.rdByte a
    | .remote .. =>
      (match runs.find? fun r => r.idx ≤ q.2 && q.2 < r.idx + r.len with
       | some r => (((s.ioOf p false r).bind RemIO.resp).getD []).getD (q.2 - r.idx) 0
       | none => 0)
    | _ => 0)
  | e => e

/-- A party writes places: its remote bytes by requests, all acknowledged before it writes the local ones. -/
def State.spanOut (s : State) (p : Party) (ctx : Nat) (ps : List Place) (bs : List Byte) : Io := s.runsDone p ctx true bs (remRuns 0 ps)

/-- The response of a port die's request arrives. -/
def State.respIo (s : State) (n cause why obj : Nat) (data : List Byte) : State :=
  { s with rio := s.rio.map fun e =>
      if e.id % 2 ^ 24 = n then
        (if cause = 0 then { e with resp := some data } else { e with bad := some (cause, why, obj) })
      else e }

/-- TRAPI of a fault of such a party's remote access, with RMT, beside WR, WHY and the object (R221, R230). -/
def remTrapI (wr : Bool) (why obj : Nat) : Nat := 128 + (if wr then 64 else 0) + why * 512 + obj * 65536

end Sys2Proof.Machine
end

