-- ==== Sys2Proof/Machine/Access.lean ====
section
/-! DEFINITION. The life of a memory access (R184-R201, R205, R233, R234, R335): its lanes resolved whole at issue, a
deferred fault, parking, retry, ordering against the group's other accesses, and being performed. -/

namespace Sys2Proof.Machine

/-! ### Resolving the lanes of an operation -/

/-- What resolving one lane answers. -/
inductive LRes where
  | ok (places : List Place)
  | fault (cause : Nat) (a i : DWord)
  | miss (obj sub va : Nat)
  | hold (obj sub va : Nat)
deriving DecidableEq, Repr

/-- TRAPI of a translation fault (R221), or the register number of `ldm` and `stm` (R193). -/
def Op.trapI (o : Op) (lane reg cause why obj : Nat) (rmt : Bool) : DWord :=
  match o.multi with
  | some j => BitVec.ofNat 64 j
  | none =>
    if cause = 4 then BitVec.ofNat 64 lane
    else BitVec.ofNat 64 (lane + (if o.wr then 2 ^ 6 else 0) + (if rmt then 2 ^ 7 else 0) + why * 2 ^ 9 + obj * 2 ^ 16 +
      if o.maj = 21 then reg * 2 ^ 40 else 0)

/-- TRAPA of a fault: the lane's VA, or s[A] for major 21 (R221). -/
def Op.trapA (o : Op) (a : LaneAcc) : DWord := if o.maj = 21 then regGet o.arg 0 else a.va

/-- A fault whose TRAPI is only the lane number, as the load-store unit reports it (R185, R186, R205). Of `ldm` and `stm` it is
the register number (R193), for a window's OOS too, where R186 names the lane (DESIGN CHOICE, LE 63). -/
def Op.laneFault (o : Op) (a : LaneAcc) (cause : Nat) : LRes :=
  .fault cause a.va (match o.multi with | some j => BitVec.ofNat 64 j | none => BitVec.ofNat 64 a.lane)

/-- What translation answered, as the lane's result. -/
def Op.ofXR (o : Op) (a : LaneAcc) : XR → LRes
  | .ok ps => .ok ps
  | .fault c w ob => .fault c (o.trapA a) (o.trapI a.lane a.reg c w ob false)
  | .miss ob sub va => .miss ob sub va
  | .hold ob sub va => .hold ob sub va

/-- WGM bytes of a workgroup. -/
def State.wgmSize (s : State) (w : Nat) : Nat := match s.wg? w with | some v => v.wgmw * Config.wayBytes | none => 0

/-- The translator of a group. -/
def State.xl (s : State) (g : Group) : Xl := { u := g.core, ctx := g.ctx, sys := s.sysCtx g.ctx }

/-- The (object, sub-tile) that a waiting operation waits for, when its service has failed (R227). -/
def Op.failed (o : Op) : Option (Nat × Nat) :=
  if o.again ≠ 2 then none
  else match o.wait with
    | .parked ob sub _ _ => some (ob, sub)
    | .held ob sub _ => some (ob, sub)
    | .flight => none

/-- The translator of an operation of a group. -/
def State.xlOp (s : State) (g : Group) (o : Op) : Xl := { s.xl g with failed := o.failed }

/-- Whether an operation is of the kinds that fault on a window address (R186, R335). -/
def Op.noWindow (o : Op) : Bool :=
  o.maj = 18 || o.maj = 19 || (match o.kind with | .agg .. => true | _ => false)

/-- A lane of major 21: element access (R233, R234). -/
def State.resolveElem (s : State) (g : Group) (o : Op) (a : LaneAcc) : LRes :=
  let x := s.xlOp g o
  let va := (regGet o.arg 0).toNat
  match s.look x va with
  | .bad w ob => o.ofXR a (.fault 5 w ob)
  | .ok ob r =>
    if r.kind = 2 then o.ofXR a (.fault 5 8 ob)
    else if o.fn ≤ 1 then
      if 4 < r.es then o.ofXR a (.fault 5 8 ob)
      else
        let c := (List.range 5).map fun n => if n < r.crank then a.co.getD n 0 else 0
        o.ofXR a (s.xlateElems x ob r o.need o.wr (fun i => (c, i)) r.es)
    else if (a.co.getD 0 0 * r.es) % 4 ≠ 0 then o.ofXR a (.fault 4 0 ob)
    else
      let c := (List.range 5).map fun n => (if n < r.crank then a.co.getD n 0 else 0) + if n = 1 then (a.reg : Int) else 0
      o.ofXR a (s.xlateElems x ob r o.need o.wr
        (fun t => (c.set 0 (c.getD 0 0 + ((4 * a.lane + t) / r.es : Nat)), (4 * a.lane + t) % r.es)) 4)

/-- One lane of an operation: alignment, then the WGM path, the windows, or translation (R184-R186, R191, R205). -/
def State.resolve (s : State) (g : Group) (o : Op) (a : LaneAcc) : LRes :=
  let va := a.va.toNat
  if o.maj = 21 then s.resolveElem g o a
  else if va % o.align ≠ 0 then o.laneFault a 4
  else if o.maj = 20 then
    if s.wgmSize g.wg < va + o.size then o.laneFault a 7 else .ok ((List.range o.size).map fun i => .wgm (va + i))
  else if 0xF000000000000 ≤ va ∧ va < 0xF200000000000 then
    if o.noWindow then o.laneFault a 5
    else
      let off := va % 2 ^ 44
      if va < 0xF100000000000 then
        if 16 * g.privu < off + o.size then o.laneFault a 7
        else o.ofXR a (s.xlatePriv g.core g.ctx o.need va ((List.range o.size).map fun i => privOff g.pb a.lane (off + i)) o.failed)
      else if s.wgmSize g.wg < off + o.size then o.laneFault a 7
      else .ok ((List.range o.size).map fun i => .wgm (off + i))
  else o.ofXR a (s.xlate (s.xlOp g o) o.need o.wr false va o.size)

/-- The bytes of the context's objects that a lane names, whatever their frames (R190). Bytes of two objects that share a frame
are known to be the same only once they are translated (DESIGN CHOICE, LE 65). -/
def State.laneSpots (s : State) (g : Group) (o : Op) (a : LaneAcc) : List Nat :=
  let va := a.va.toNat
  let key (ob off : Nat) : Nat := ob * 2 ^ 52 + off
  if o.maj = 20 || o.maj = 21 || 0xF100000000000 ≤ va then []
  else if 0xF000000000000 ≤ va then
    match s.recLook (s.xl g) (s.ctx g.ctx).privobj with
    | .ok ob r => (List.range o.size).map fun i => key ob (r.byteOff (privOff g.pb a.lane (va % 2 ^ 44 + i)))
    | .bad .. => []
  else match s.look (s.xl g) va with
    | .ok ob r =>
      let off := va - r.base
      (List.range o.size).map fun i => key ob (if r.kind = 2 then off + i else if off + o.size ≤ r.sz then r.byteOff (off + i) else if r.kind = 1 then r.clampOff (off + i) else off + i)
    | .bad .. => []

/-- What deciding an operation whole answers (R191): its lanes as far as they are known, with the fault, or with what it
waits for. -/
inductive Dec where
  | ok (accs : List LaneAcc)
  | fault (t : Trap)
  | miss (accs : List LaneAcc) (obj sub va : Nat)
  | hold (accs : List LaneAcc) (obj sub va : Nat)
deriving DecidableEq, Repr

/-- Whether a lane's result is a fault. -/
def LRes.isFault : LRes → Bool
  | .fault .. => true
  | _ => false

/-- Whether a lane's result makes the operation wait. -/
def LRes.waits : LRes → Bool
  | .miss .. => true
  | .hold .. => true
  | _ => false

/-- The places of a lane that are known without a translation here: bytes of WGM (R186, R205) and of remote objects (R230). -/
def LRes.known : LRes → List Place
  | .ok (.wgm n :: r) => .wgm n :: r
  | .ok (.remote p c o f :: r) => .remote p c o f :: r
  | _ => []

/-- What one lane of an operation answers: the fault that a failed service has given it already (R227), or its translation. -/
def State.laneRes (s : State) (g : Group) (o : Op) (a : LaneAcc) : LRes :=
  match a.lfault with
  | some (c, x, i) => .fault c x i
  | none => s.resolve g o a

/-- The fault that a lane has once its service has failed. -/
def LRes.failure (o : Op) : LRes → Option (Nat × DWord × DWord)
  | .fault c a i => if o.failed.isSome then some (c, a, i) else none
  | _ => none

/-- The lanes of an operation that waits: the bytes they name, their places in WGM and at peers, and the faults of a failed
service. -/
def State.partly (s : State) (g : Group) (o : Op) : List LaneAcc :=
  o.accs.map fun a =>
    let r := s.laneRes g o a
    { a with places := r.known, spots := s.laneSpots g o a, lfault := (r.failure o).or a.lfault }

/-- Whether a lane's result is at a remote object. -/
def LRes.remote : LRes → Bool
  | .ok (.remote .. :: _) => true
  | _ => false

/-- Decide every lane: the first lane that faults is reported; a miss counts only when none faults (R191, R221). In a unit
with a remote lane the lanes are performed independently, so that the fault is kept until the remote lanes have answered
(R191); an aggregating unit with a local fault accepts no lane (R335). -/
def State.decideOp (s : State) (g : Group) (o : Op) : Dec :=
  let rs := o.accs.map fun a => (a, s.laneRes g o a)
  let split := (rs.any fun p => p.2.remote) && !(match o.kind with | .agg .. => true | _ => false)
  match split, rs.find? fun p => p.2.isFault with
  | false, some (_, .fault c a i) => .fault { cause := c, deferred := true, a := a, pc := o.pc, i := i }
  | _, _ =>
    match rs.find? fun p => p.2.waits with
    | some (_, .miss ob sub va) => .miss (s.partly g o) ob sub va
    | some (_, .hold ob sub va) => .hold (s.partly g o) ob sub va
    | _ => .ok (rs.map fun p => match p.2 with
      | .ok ps => { p.1 with places := ps, spots := s.laneSpots g o p.1 }
      | .fault c a i => { p.1 with places := [], lfault := some (c, a, i) }
      | _ => p.1)

/-- The load kind of `ldo`: the size and extension of the element's format (R213, R233). -/
def State.fixKind (s : State) (g : Group) (o : Op) : Op :=
  if o.maj = 21 && o.fn ≤ 1 then
    match s.look (s.xl g) (regGet o.arg 0).toNat with
    | .ok _ r => match o.kind with
      | .load .. => { o with size := r.es, kind := .load r.es (r.kind = 1 && (r.ef = 5 || r.ef = 6)) }
      | _ => { o with size := r.es }
    | .bad .. => o
  else o

/-! ### Accepting Cumulus elements (R333-R336) -/

/-- The elements of one lane of a `sta`, `sta64` or `red.agg`: their places and words. -/
def laneElems (o : Op) (op : Nat) (a : LaneAcc) : List (Place × Nat × Bool × Nat) :=
  let w := leNat a.data
  match a.places with
  | .gone :: _ => []
  | p :: _ =>
    if op = 13 ∧ o.size = 8 then [(p, w % 2 ^ 32, false, 2), (a.places.getD 4 .gone, w / 2 ^ 32, true, 1)] else [(p, w, false, 1)]
  | [] => []

/-- Accept an element; its local line leaves the core's L1 (R323). -/
def State.acceptElem (s : State) (k : Nat) (g : Group) (o : Op) (op : Nat) (a : LaneAcc)
    (e : Place × Nat × Bool × Nat) : State :=
  let base : CuEntry :=
    { ctx := g.ctx, op := op, pair := e.2.2.1, wide := o.size = 8, exact := (s.ctx g.ctx).exact, word := 0,
      val := BitVec.ofNat 32 e.2.1, va := a.va + (if e.2.2.1 then 4 else 0), pc := o.pc, wgid := g.wgid, gidx := g.idx,
      grps := [k] }
  match e.1 with
  | .da d => (s.l1Drop g.core (d / 128)).cuAccept g.die none e.2.2.2 { base with word := d }
  | .remote p c ob f => s.cuAccept g.die (some p) e.2.2.2 { base with word := f, rctx := c, ronum := ob }
  | _ => s

/-- Accept every lane of an aggregating operation, in ascending order. -/
def State.acceptAll (s : State) (k : Nat) (g : Group) (o : Op) (op : Nat) : State :=
  o.accs.foldl (fun t a => (laneElems o op a).foldl (fun u e => u.acceptElem k g o op a e) t) s

/-! ### When an operation may be performed (R189, R190, R317) -/

/-- Whether an operation is an access of the generic or WGM path, or of configuration space (R398). -/
def Op.isAcc (o : Op) : Bool :=
  match o.kind with
  | .load .. => true
  | .store => true
  | .wadd => true
  | .wcas => true
  | .atom _ => true
  | .red _ => true
  | .recvq => true
  | .cfgrd => true
  | .cfgwr => true
  | _ => false

/-- Whether an operation aggregates: until its elements are accepted it is ordered as an access (R190, R341). -/
def Op.isAgg (o : Op) : Bool := match o.kind with | .agg .. => true | _ => false

/-- Whether two operations touch a common byte: by place when both are translated, else by the bytes of objects they name;
an element access that is not translated may touch any (R190). -/
def opsOverlap (o p : Op) : Bool :=
  o.accs.any fun a => p.accs.any fun b =>
    (a.places.any fun q => q ≠ .gone && b.places.contains q) ||
      ((a.places.isEmpty || b.places.isEmpty) && ((a.spots.any fun q => b.spots.contains q) || o.maj = 21 || p.maj = 21))

/-- Lines of device memory that an operation touches. -/
def Op.lines (o : Op) : List Nat :=
  (o.accs.flatMap fun a => a.places.filterMap fun p => match p with | .da d => some (d / 128) | _ => none).eraseDups

/-- Lines of objects that an operation names. -/
def Op.spotLines (o : Op) : List Nat := (o.accs.flatMap fun a => a.spots.map (· / 128)).eraseDups

/-- Whether an operation reads or writes words other than through the L1, whose lines then leave it (R323). -/
def Op.bypasses (o : Op) : Bool :=
  match o.kind with
  | .load .. => o.l1 = 1
  | .atom _ => true
  | .red _ => true
  | .agg .. => true
  | _ => false

/-- Whether an operation reads the L1 (R189). -/
def Op.readsL1 (o : Op) : Bool := match o.kind with | .load .. => o.l1 ≠ 1 | _ => false

/-- The operations of a group issued before one, and not yet performed. -/
def Group.before (g : Group) (o : Op) : List Op := (g.ops.takeWhile fun p => p.id ≠ o.id).filter fun p => !p.performed

/-- Whether an earlier operation that is not performed yet holds back a later one: by an order it or the later one asks for
(R189, R317), by a common byte (R190), as a lower register of one unit (R192), as an earlier entry of the waiting table
(R196), or by a line that must leave the L1 before the later one reads it (R323). -/
def Op.holdsBack (p o : Op) : Bool :=
  (p.isAcc && (p.acq || o.rel)) || ((p.isAcc || p.isAgg) && opsOverlap p o) || (o.rel && 1 ≤ o.scope && p.isAgg) ||
    (p.unit ≠ 0 && p.unit = o.unit) || (p.parked && o.parked && (p.wait = .flight || p.again ≠ 0)) ||
    (p.bypasses && o.readsL1 &&
      ((p.lines.any fun l => o.lines.contains l) || (p.lines.isEmpty && p.spotLines.any fun l => o.spotLines.contains l)))

/-- Whether the group's earlier operations let this one be performed now. -/
def Group.mayPerform (g : Group) (o : Op) : Bool :=
  !o.performed && o.wait == .flight && (g.before o).all fun p => !p.holdsBack o

/-- Whether the operation's release still has Cumulus buffers to flush (R20). -/
def Group.mustFlush (g : Group) (o : Op) : Bool := o.rel && 1 ≤ o.scope && g.dirtyMask ≠ 0

/-- Whether the requests of an operation's remote lanes may leave now: it may be performed, its release has no buffer to
flush, and earlier requests to the same peers have left (R208). -/
def Group.maySend (g : Group) (o : Op) : Bool :=
  o.unsent && g.mayPerform o && !g.mustFlush o &&
    (g.before o).all fun p => p.unsentPeers.all fun n => !o.unsentPeers.contains n

/-! ### Adding the operations of a unit -/

/-- Accept an aggregating operation once no earlier access holds it (R190, R335). -/
def State.acceptOp (s : State) (k : Nat) (g : Group) (o : Op) (op : Nat) : State :=
  if g.mayPerform o then (s.acceptAll k g o op).modGrp k fun g => g.finishOp o.id else s

/-- An operation whose lanes are all translated goes on its way: an aggregating one is accepted as soon as it may be
(R335); remote lanes are sent as soon as they may be (R208); the others stay outstanding. -/
def State.launchOp (s : State) (k : Nat) (o : Op) : State :=
  match s.grp? k with
  | none => s
  | some g =>
    match o.kind with
    | .agg op _ => s.acceptOp k g o op
    | _ =>
      if g.maySend o then
        let (s1, o1) := s.sendRemote k o
        s1.modGrp k fun g => g.modOp o.id fun _ => o1
      else s

/-- The waiting state of a unit that misses or is held at (object, sub-tile): a waiting-table entry for majors 16 and
17 while the group has fewer than three, else held in translation (R194, R226). An atomic or a plain reduction that misses
is held as a unit of major 21 is (DESIGN CHOICE, LE 62). -/
def awaitOf (g : Group) (o : Op) (obj sub va tns : Nat) : Await :=
  if (o.maj = 16 || o.maj = 17) && g.parkedCount < 3 then .parked obj sub va tns else .held obj sub va

/-- Whether `p` is operation `o` or a later one of its unit. -/
def Op.from (o p : Op) : Bool := p.id = o.id || (o.unit ≠ 0 && p.unit = o.unit && o.id ≤ p.id)

/-- An operation that ends without its effect: its counter falls in issue order (R198, R199). -/
def Op.ended (o : Op) : Op := { o with done := true, performed := true, wait := .flight, keeps := [] }

/-- An operation that waits as `w` says, with its lanes as far as they are known. -/
def State.toWait (s : State) (g : Group) (w : Await) (o : Op) : Op :=
  { o with wait := w, again := 0, parked := true, accs := s.partly g o }

/-- Operation `o` of a group and the later ones of its unit end without effect (R193). -/
def Group.endUnit (g : Group) (o : Op) : Group :=
  { g with ops := dropDone (g.ops.map fun p => if o.from p then p.ended else p) [] }

/-- The registers that an operation of a group and the later ones of its unit target (R193). -/
def Group.targetsOf (g : Group) (o : Op) : List Dst := (g.ops.filter fun p => o.from p).flatMap Op.dst

/-- Add the operations of one unit in register order (R191, R193): those before the first fault or miss go on; a fault
is recorded against the registers of it and the later ones; a miss leaves it and the later ones waiting. -/
def State.addOps (s : State) (k : Nat) : List Op → State
  | [] => s
  | o :: r =>
    match s.grp? k with
    | none => s
    | some g =>
      let later (w : Await) : Group := { g with ops := g.ops ++ (o :: r).map (s.toWait g w) }
      match s.decideOp g o with
      | .fault t =>
        s.recordFault k { g with ops := dropDone (g.ops ++ (o :: r).map Op.ended) [] }
          { id := o.id, unit := o.unit, trap := t, targets := (o :: r).flatMap Op.dst }
      | .ok accs =>
        let o1 := s.fixKind g { o with accs := accs, keeps := [] }
        ((s.setGrp k (g.addOp o1)).launchOp k o1).addOps k r
      | .miss _ ob sub va =>
        (s.openService g.ctx ob sub 0 o.wr g.core va).setGrp k (later (awaitOf g o ob sub va s.dev.tns))
      | .hold _ ob sub va => s.setGrp k (later (awaitOf g o ob sub va s.dev.tns))

/-- The VA in object space whose record and entry translate a lane: that of major 21's object, of the private object for a
private window; none for WGM. -/
def State.walkVa (s : State) (g : Group) (o : Op) (a : LaneAcc) : Option Nat :=
  let va := a.va.toNat
  if o.maj = 20 || 0xF100000000000 ≤ va then none
  else if o.maj = 21 then some (regGet o.arg 0).toNat
  else if 0xF000000000000 ≤ va then
    match s.recLook (s.xl g) (s.ctx g.ctx).privobj with
    | .ok _ r => some (r.base + privOff g.pb a.lane (va % 2 ^ 44))
    | .bad .. => none
  else some va

/-- The translations of an operation's lanes use the core's caches (R223). -/
def State.useCaches (s : State) (g : Group) (o : Op) : State :=
  (((o.accs.filterMap fun a => (s.walkVa g o a).map (· / 128)).eraseDups).foldl (fun t l => t.startWalk (s.xl g) (l * 128)) s)

/-- Issue the operations of a unit: `mk id` are its operations, named from the fresh name up; the group is already past
the unit. -/
def State.issueOps (s : State) (k : Nat) (g1 : Group) (n : Nat) (mk : Nat → List Op) : State :=
  let s1 := { s with nextId := s.nextId + max 1 n }.setGrp k g1
  let ops := mk s.nextId
  (ops.foldl (fun t o => t.useCaches g1 o) s1).addOps k ops

/-! ### Performing -/

/-- A load brings a line where it reads it from (R189): the L1, filled on a miss, or the die cache. -/
def State.prepLine (s : State) (c d mode line : Nat) : State :=
  match mode with
  | 0 => if (mapGet? (s.core c).l1 line).isSome then s else (s.getS d line).l1Fill c line
  | 1 => (s.getS d line).l1Drop c line
  | _ => if (mapGet? (s.core c).l1 line).isSome then s else s.getS d line true

/-- The value a load reads at a place; `i` is the byte's index in its lane. -/
def State.readPlace (s : State) (g : Group) (mode : Nat) (a : LaneAcc) (i : Nat) : Place → Byte
  | .da d =>
    if mode = 1 then s.rdByte d
    else match mapGet? (s.core g.core).l1 (d / 128) with
      | some l => l.getD (d % 128) 0
      | none => s.rdByte d
  | .wgm o => match s.wg? g.wg with | some w => memRead w.wgm o | none => 0
  | .gone => 0
  | .remote .. => (a.resp.getD []).getD i 0

/-- The bytes of every lane of a load. -/
def State.loadLanes (s : State) (g : Group) (o : Op) : List (LaneAcc × List Byte) :=
  o.accs.map fun a => (a, a.places.zipIdx.map fun p => s.readPlace g o.l1 a p.2 p.1)

/-- The words a lane's bytes give a register range (R188). -/
def wordsOf (size : Nat) (sx : Bool) (bs : List Byte) : List Word :=
  if size < 4 then [if sx then BitVec.ofInt 32 (sextNat (8 * size) (leNat bs)) else BitVec.ofNat 32 (leNat bs)]
  else (List.range (size / 4)).map fun j => BitVec.ofNat 32 (leNat (bs.drop (4 * j)) % 2 ^ 32)

/-- Write lane words into destination registers: word j of a lane with register offset `reg` into `dst[reg + j]`. -/
def Group.writeWords (g : Group) (dst : List Dst) (ws : List (Nat × Nat × List Word)) : Group :=
  (dst.zipIdx).foldl (fun (h : Group) p =>
    let mine : NMap Word := ws.foldl (fun (m : NMap Word) w =>
      if w.1 ≤ p.2 ∧ p.2 < w.1 + w.2.2.length then mapSet m w.2.1 (w.2.2.getD (p.2 - w.1) 0) else m) []
    h.writeDst p.1 (maskOf fun i => (mapGet? mine i).isSome) (fun i => mapGet mine i 0)) g

/-- A run of bytes that a store writes to one line of device memory, through the L1 (R188, R189). -/
def State.storeRun (s : State) (g : Group) (mode a : Nat) (bs : List Byte) : State :=
  let s1 := s.dieWrite g.die a bs (mode = 2)
  if mode = 2 then s1.l1Drop g.core (a / 128) else bs.zipIdx.foldl (fun t p => t.l1Write g.core (a + p.2) p.1) s1

/-- One lane's bytes of a store reach their places: a line's bytes as one write (R188-R190, R320). -/
def State.storeLane (s : State) (g : Group) (mode : Nat) (ps : List Place) (bs : List Byte) : State :=
  let s1 := s.modWg g.wg fun w => (ps.zip bs).foldl (fun v p => match p.1 with | .wgm o => { v with wgm := memWrite v.wgm o p.2 } | _ => v) w
  (daRuns (ps.zip bs)).foldl (fun t p => t.storeRun g mode p.1 p.2) s1

/-- The store of every lane, ascending (R188). -/
def State.storeLanes (s : State) (g : Group) (o : Op) : State :=
  o.accs.foldl (fun t a => t.storeLane g o.l1 a.places a.data) s

/-- A WGM atomic of one lane: the old word and the machine after it (R206). -/
def State.wgmAtomic (s : State) (g : Group) (a : LaneAcc) (cas : Bool) : Word × State :=
  match a.places.head?, s.wg? g.wg with
  | some (.wgm o), some w =>
    let old : Word := BitVec.ofNat 32 (leNat (memReadBytes w.wgm o 4))
    let v : Word := BitVec.ofNat 32 (leNat (a.data.take 4))
    let nw : Word := if cas then (if old = v then BitVec.ofNat 32 (leNat (a.data.drop 4)) else old) else old + v
    (old, s.setWg g.wg { w with wgm := memWriteBytes w.wgm o (leBytes 4 nw.toNat) })
  | _, _ => (0, s)

/-- `wadd` and `wcas`: every lane in ascending order as one step; the old words come back. -/
def State.wgmLanes (s : State) (g : Group) (cas : Bool) : List LaneAcc → List (Nat × Nat × List Word) × State
  | [] => ([], s)
  | a :: r =>
    let (old, s1) := s.wgmAtomic g a cas
    let (l, s2) := State.wgmLanes s1 g cas r
    ((a.reg, a.lane, [old]) :: l, s2)

/-- Whether every remote lane of an operation has its response. -/
def Op.answered (o : Op) : Bool := o.accs.all fun a => a.remote.isNone || a.resp.isSome

/-- Energy of the lines that a load or a store obtains from their home slices (R412). -/
def State.served (s : State) (g : Group) (o : Op) (held : LineSt → Bool) : State :=
  let n := (o.lines.filter fun l => !held (s.lineOf g.die l) && !(o.l1 = 0 && !o.wr && (mapGet? (s.core g.core).l1 l).isSome)).length
  s.energy g.ctx (110000 * n)

/-- Whether the lines of an operation are free, the die cache of its group has ways for them, and its die and their home slices
reach each other (R8, R306, R354). -/
def State.linesReady (s : State) (g : Group) (ls : List Nat) : Bool :=
  (ls.all fun l => s.lineFree l) && s.waysFree g.die ls && s.linesRouted g.die ls

/-- A load, `wadd` or `wcas` returns: its value is bound, its registers are written, its counter falls in order; an
acquire of DIE scope or wider empties the L1 (R189, R190). -/
def State.returnLoad (s : State) (k : Nat) (g : Group) (o : Op) : State :=
  if !g.mayPerform o || !o.answered || !s.linesReady g o.lines then s
  else if g.mustFlush o then s.cuFlush g
  else
    let s1 := o.lines.foldl (fun t l => t.prepLine g.core g.die o.l1 l) (s.served g o fun st => st ≠ .I)
    let (ws, s2) := match o.kind with
      | .wadd => s1.wgmLanes g false o.accs
      | .wcas => s1.wgmLanes g true o.accs
      | .load size sx =>
        ((s1.loadLanes g o).map fun (p : LaneAcc × List Byte) => (p.1.reg, p.1.lane, wordsOf size sx p.2), s1)
      | _ => ([], s1)
    let s3 := if o.acq && 1 ≤ o.scope then s2.l1Clear g.core else s2
    s3.setGrp k ((g.writeWords o.dst ws).finishOp o.id)

/-- A store is performed and its counter falls in order (R190). -/
def State.performStore (s : State) (k : Nat) (g : Group) (o : Op) : State :=
  if !g.mayPerform o || !o.answered || !(o.lines.all fun l => s.storeRoom l) || !s.waysFree g.die o.lines ||
      !s.linesRouted g.die o.lines then s
  else if g.mustFlush o then s.cuFlush g
  else ((s.served g o fun st => st = .M || st = .E).storeLanes g o).modGrp k fun h => h.finishOp o.id

/-! ### Retry after service (R196, R227, R229) -/

/-- Whether an earlier operation of the group also has its service ended. -/
def Group.againBefore (g : Group) (o : Op) : Bool := (g.ops.takeWhile fun p => p.id ≠ o.id).any fun p => p.again ≠ 0

/-- The lane whose access waited at a VA, else the first (R227). -/
def Op.laneAt (o : Op) (va : Nat) : LaneAcc :=
  (o.accs.find? fun a => a.va.toNat ≤ va && va < a.va.toNat + o.size).getD (o.accs.headD { lane := 0, va := BitVec.ofNat 64 va })

/-- The VA of the byte that an operation waits for. -/
def Op.waitVa (o : Op) : Nat :=
  match o.wait with
  | .parked _ _ va _ => va
  | .held _ _ va => va
  | .flight => 0

/-- A waiting operation is translated again: performed on its way, a deferred fault, or waiting still (R196). Of one whose service
failed, the lanes in the failed sub-tile fault; with no lane there any more, the lane that waited does (R227). -/
def State.retryOp (s : State) (k : Nat) (g : Group) (o : Op) : State :=
  let g0 := { g with ops := g.ops.map fun p => if p.unit = o.unit then { p with wait := .flight } else p }
  let still (ob sub va : Nat) : Group :=
    { g with ops := g.ops.map fun p => if o.from p then s.toWait g (awaitOf g0 o ob sub va s.dev.tns) p else p }
  let fault (t : Trap) : State := s.recordFault k (g.endUnit o) { id := o.id, unit := o.unit, trap := t, targets := g.targetsOf o }
  match o.failed, o.accs.any fun a => (s.laneRes g o a).isFault with
  | some (ob, _), false =>
    let l := o.laneAt o.waitVa
    fault { cause := 8, deferred := true, a := o.trapA l, pc := o.pc, i := o.trapI l.lane l.reg 8 1 ob false }
  | _, _ =>
    match s.decideOp g o with
    | .fault t => fault t
    | .ok accs =>
      let o1 := s.fixKind g { o with accs := accs, wait := .flight, again := 0, keeps := [] }
      let s1 := (((s.useCaches g o).setGrp k (g.modOp o.id fun _ => o1))).launchOp k o1
      s1.modGrp k fun h => { h with ops := h.ops.map fun p => if p.unit = o.unit && o.id < p.id && p.wait ≠ .flight
        then { p with again := 1 } else p }
    | .miss _ ob sub va => (s.openService g.ctx ob sub 0 o.wr g.core va).setGrp k (still ob sub va)
    | .hold _ ob sub va => s.setGrp k (still ob sub va)

end Sys2Proof.Machine
end

