-- ==== Sys2Proof/Machine/LoadStore.lean ====
section
/-! DEFINITION. Majors 16, 17, 20 and 28, and `waitr`, `cinv`, `cwb`, `crsz`, `pref` (R184-R206, R333). -/

namespace Sys2Proof.Machine

/-- The active lanes as a list, ascending. -/
def lanesOn (m : DWord) : List Nat := laneIdx.filter fun i => laneBit m i

/-- s[SB] + sext(IMM20), the part of an address that all lanes share (R184, R197). -/
def memBase (x : Pfx) (m : MFld) (g : Group) : DWord := g.readS m.sb.val + x.imm.signExtend 64

/-- addr[i] of R184. -/
def memAddr (x : Pfx) (m : MFld) (g : Group) (i : Nat) : DWord :=
  let o : DWord := if m.vo.val = 112 then 0 else (xbar x.xa (g.src m.vo) i).signExtend 64
  memBase x m g + o

/-- A unit of the M format. -/
def uM (maj fn : Nat) (x : Pfx) (m : MFld) : Uop :=
  { maj := maj, cls := 1, base := wordM maj fn m, pfx := x, vr := if m.vo.val = 112 then [] else [m.vo], sr := [m.sb.val] }

/-- n fields from a field on. -/
def fieldsFrom (d : VFld) (n : Nat) : List VFld := (List.range n).map fun k => d + Fin.ofNat 128 k

/-- The operation of a load of majors 16 and 20 (R189, R198). -/
def loadOp (maj fn size : Nat) (sx : Bool) (g : Group) (m : MFld) (id : Nat) : Op :=
  { id := id, unit := id, pc := g.pc, maj := maj, fn := fn, ctr := .ld, kind := .load size sx, size := size, align := size,
    need := 1, acq := m.ord.val = 2, scope := m.scope.val, ord := m.ord.val, dnum := m.d.val,
    l1 := if m.ord.val = 3 then 2 else if m.ord.val ≠ 0 ∧ m.scope.val ≠ 0 then 1 else 0 }

/-- A load of `size` bytes a lane into `n` registers (R188). -/
def loadUnit (maj fn size n : Nat) (sx : Bool) (x : Pfx) (m : MFld) (s : State) : Out :=
  issue { uM maj fn x m with vw := fieldsFrom m.d n }
    (fun s k act g g1 =>
      if !g.room .ld 1 then .wait
      else .st (s.issueOps k g1 1 fun id =>
        [{ loadOp maj fn size sx g m id with
            arg := [memBase x m g], dst := (fieldsFrom m.d n).map g.vDst,
            accs := (lanesOn act).map fun i => { lane := i, va := memAddr x m g i } }])) s

/-- ld.i8. -/
def execLdI8 (x : Pfx) (m : MFld) (s : State) : Out := loadUnit 16 0 1 1 true x m s
/-- ld.n8. -/
def execLdN8 (x : Pfx) (m : MFld) (s : State) : Out := loadUnit 16 1 1 1 false x m s
/-- ld.i16. -/
def execLdI16 (x : Pfx) (m : MFld) (s : State) : Out := loadUnit 16 2 2 1 true x m s
/-- ld.n16. -/
def execLdN16 (x : Pfx) (m : MFld) (s : State) : Out := loadUnit 16 3 2 1 false x m s
/-- ld.b32. -/
def execLdB32 (x : Pfx) (m : MFld) (s : State) : Out := loadUnit 16 4 4 1 false x m s
/-- ld.b64. -/
def execLdB64 (x : Pfx) (m : MFld) (s : State) : Out := loadUnit 16 5 8 2 false x m s
/-- ld.b128. -/
def execLdB128 (x : Pfx) (m : MFld) (s : State) : Out := loadUnit 16 6 16 4 false x m s
/-- ldw.b32. -/
def execLdwB32 (x : Pfx) (m : MFld) (s : State) : Out := loadUnit 20 0 4 1 false x m s
/-- ldw.b64. -/
def execLdwB64 (x : Pfx) (m : MFld) (s : State) : Out := loadUnit 20 1 8 2 false x m s
/-- ldw.b128. -/
def execLdwB128 (x : Pfx) (m : MFld) (s : State) : Out := loadUnit 20 2 16 4 false x m s

/-- The last register of a range, Y.E. -/
def Pfx.last (x : Pfx) : Nat := (x.y.map fun y => y.e.val).getD 0

/-- ldm (R192, R193): one operation for each register, ascending. -/
def execLdm (x : Pfx) (m : MFld) (s : State) : Out :=
  let n := Pfx.last x + 1 - m.d.val
  issue { uM 16 7 x m with vw := rangeFields m.d.val (Pfx.last x) }
    (fun s k act g g1 =>
      if !g.room .ld n then .wait
      else .st (s.issueOps k g1 n fun id => (List.range n).map fun j =>
        { loadOp 16 7 4 false g m (id + j) with
            unit := id, multi := some (m.d.val + j), dnum := m.d.val + j,
            arg := [memBase x m g + BitVec.ofNat 64 (4 * j)], dst := [g.vDst (m.d + Fin.ofNat 128 j)],
            accs := (lanesOn act).map fun i => { lane := i, va := memAddr x m g i + BitVec.ofNat 64 (4 * j) } })) s

/-- The bytes of lane `i` of a 32-, 64- or 128-bit source (R33, R188). -/
def srcBytes (g : Group) (d : VFld) (size i : Nat) : List Byte :=
  if size ≤ 4 then leBytes size (g.src d i).toNat
  else if size = 8 then leBytes 4 (g.src d i).toNat ++ leBytes 4 (g.srcHi d i).toNat
  else (quadFields d).flatMap fun f => leBytes 4 (g.src f i).toNat

/-- Whether a field names a queue. -/
def isQ (d : VFld) : Bool := 96 ≤ d.val && d.val < 112

/-- The operation of a store of majors 17 and 20. -/
def storeOp (maj fn size : Nat) (g : Group) (m : MFld) (id : Nat) : Op :=
  { id := id, unit := id, pc := g.pc, maj := maj, fn := fn, ctr := .st, kind := .store, size := size, align := size,
    need := 2, wr := true, rel := m.ord.val = 2, scope := m.scope.val, ord := m.ord.val, dnum := m.d.val,
    l1 := if m.ord.val = 3 then 2 else 0, dq := isQ m.d }

/-- A unit that stores: D is a source of one, two or four registers. -/
def uStore (maj fn size : Nat) (x : Pfx) (m : MFld) : Uop :=
  let u := uM maj fn x m
  if size = 8 then { u with vr2 := [m.d] } else { u with vr := u.vr ++ (if size ≤ 4 then [m.d] else quadFields m.d) }

/-- The registers a store keeps in use while it waits (R195): those D names. -/
def keepsOf (g : Group) (d : VFld) (size : Nat) : List Dst :=
  ((if size ≤ 4 then [d] else if size = 8 then pairFields g d else quadFields d).map g.vReg).filter fun x => x ≠ .none

/-- A store of `size` bytes a lane (R188). -/
def storeUnit (maj fn size : Nat) (x : Pfx) (m : MFld) (s : State) : Out :=
  issue (uStore maj fn size x m)
    (fun s k act g g1 =>
      if !g.room .st 1 then .wait
      else .st (s.issueOps k g1 1 fun id =>
        [{ storeOp maj fn size g m id with
            arg := [memBase x m g], keeps := keepsOf g m.d size,
            accs := (lanesOn act).map fun i =>
              { lane := i, va := memAddr x m g i, data := srcBytes g m.d size i } }])) s

/-- st.b8. -/
def execStB8 (x : Pfx) (m : MFld) (s : State) : Out := storeUnit 17 0 1 x m s
/-- st.b16. -/
def execStB16 (x : Pfx) (m : MFld) (s : State) : Out := storeUnit 17 1 2 x m s
/-- st.b32. -/
def execStB32 (x : Pfx) (m : MFld) (s : State) : Out := storeUnit 17 2 4 x m s
/-- st.b64. -/
def execStB64 (x : Pfx) (m : MFld) (s : State) : Out := storeUnit 17 3 8 x m s
/-- st.b128. -/
def execStB128 (x : Pfx) (m : MFld) (s : State) : Out := storeUnit 17 4 16 x m s
/-- stw.b32. -/
def execStwB32 (x : Pfx) (m : MFld) (s : State) : Out := storeUnit 20 3 4 x m s
/-- stw.b64. -/
def execStwB64 (x : Pfx) (m : MFld) (s : State) : Out := storeUnit 20 4 8 x m s
/-- stw.b128. -/
def execStwB128 (x : Pfx) (m : MFld) (s : State) : Out := storeUnit 20 5 16 x m s

/-- stm (R192, R193). -/
def execStm (x : Pfx) (m : MFld) (s : State) : Out :=
  let n := Pfx.last x + 1 - m.d.val
  let u := uM 17 5 x m
  issue { u with vr := u.vr ++ rangeFields m.d.val (Pfx.last x) }
    (fun s k act g g1 =>
      if !g.room .st n then .wait
      else .st (s.issueOps k g1 n fun id => (List.range n).map fun j =>
        { storeOp 17 5 4 g m (id + j) with
            unit := id, multi := some (m.d.val + j), dnum := m.d.val + j,
            arg := [memBase x m g + BitVec.ofNat 64 (4 * j)], keeps := [g.vDst (m.d + Fin.ofNat 128 j)],
            accs := (lanesOn act).map fun i =>
              { lane := i, va := memAddr x m g i + BitVec.ofNat 64 (4 * j),
                data := srcBytes g (m.d + Fin.ofNat 128 j) 4 i } })) s

/-- sta and sta64 (R333, R335): accepted by the Cumulus unit, or parked as a store. -/
def staUnit (fn size : Nat) (x : Pfx) (m : MFld) (s : State) : Out :=
  issue (uStore 17 fn size x m)
    (fun s k act g g1 =>
      if !g.room .st 1 then .wait
      else .st (s.issueOps k g1 1 fun id =>
        [{ storeOp 17 fn size g m id with
            kind := .agg 13 (size = 8), need := 10, rel := false, arg := [memBase x m g], keeps := keepsOf g m.d size,
            accs := (lanesOn act).map fun i =>
              { lane := i, va := memAddr x m g i, data := srcBytes g m.d size i } }])) s

/-- sta. -/
def execSta (x : Pfx) (m : MFld) (s : State) : Out := staUnit 6 4 x m s
/-- sta64. -/
def execSta64 (x : Pfx) (m : MFld) (s : State) : Out := staUnit 7 8 x m s

/-- wadd and wcas (R206): `n` registers of D are read and the first receives the old word. -/
def wgmAtomUnit (fn n : Nat) (kind : OpKind) (x : Pfx) (m : MFld) (s : State) : Out :=
  let u := uM 20 fn x m
  issue { u with vr := u.vr ++ fieldsFrom m.d n, vw := [m.d] }
    (fun s k act g g1 =>
      if !g.room .ld 1 then .wait
      else .st (s.issueOps k g1 1 fun id =>
        [{ loadOp 20 fn 4 false g m id with
            kind := kind, l1 := 0, rel := m.ord.val = 2, scope := 0, dst := [g.vDst m.d],
            accs := (lanesOn act).map fun i =>
              { lane := i, va := memAddr x m g i,
                data := (fieldsFrom m.d n).flatMap fun f => leBytes 4 (g.src f i).toNat } }])) s

/-- wadd. -/
def execWadd (x : Pfx) (m : MFld) (s : State) : Out := wgmAtomUnit 6 1 .wadd x m s
/-- wcas. -/
def execWcas (x : Pfx) (m : MFld) (s : State) : Out := wgmAtomUnit 7 2 .wcas x m s

/-! ### Waits (R200, R201) -/

/-- wait: ready when every counter is at most its limit; 31 is always met. -/
def execWait (ld st tl mx : Fin 32) (s : State) : Out :=
  issue { maj := 28, cls := 1, fp := true,
          base := BitVec.ofNat 32 (28 * 2 ^ 27 + ld.val * 2 ^ 22 + st.val * 2 ^ 17 + tl.val * 2 ^ 12 + mx.val * 2 ^ 7) }
    (fun _ _ _ g g1 =>
      let met (c : Ctr) (l : Fin 32) : Bool := l.val = 31 || g.counter c ≤ l.val
      if met .ld ld && met .st st && met .tl tl && met .mx mx then .grp g1 else .wait) s

/-- The counter that a path number names (R201). -/
def ctrOf (p : Nat) : Ctr := match p with | 0 => .ld | 1 => .st | 2 => .tl | _ => .mx

/-- waitr. -/
def execWaitr (p : Fin 4) (a : SReg) (s : State) : Out :=
  issue { maj := 25, cls := 1, fp := true, hnd := true, sr := [a.val], base := wordA 25 p.val a.val 0 11 }
    (fun _ _ _ g g1 => if g.counter (ctrOf p.val) ≤ (g.readS a.val).toNat then .grp g1 else .wait) s

/-! ### Caches and the size of WGM (R203, R204) -/

/-- A unit of major 22. -/
def u22 (fn d a b : Nat) : Uop := { maj := 22, cls := 1, base := wordA 22 d a b fn }

/-- The device address of a VA in object space, when it is translated without a fault or a miss. -/
def State.daOf (s : State) (g : Group) (need : Nat) (va : DWord) : Option Nat :=
  let x := { s.xl g with sys := need = 0 || s.sysCtx g.ctx }
  if 0xF000000000000 ≤ va.toNat then none
  else match s.xlate x need false false va.toNat 1 with
    | .ok (.da d :: _) => some d
    | _ => none

/-- cinv: s0 names every line. -/
def execCinv (a : SReg) (s : State) : Out :=
  issue2 { u22 4 0 a.val 0 with sr := [a.val], str := true }
    (fun s k _ g g1 =>
      let s1 := s.setGrp k g1
      if a = 0 then .st (s1.l1Clear g.core)
      else match s.daOf g 0 (g.readS a.val) with
        | some d => .st (s1.l1Drop g.core (d / 128))
        | none => .st s1) passEff s

/-- cwb: a line held in M is written home and kept clean. -/
def execCwb (a : SReg) (s : State) : Out :=
  issue2 { u22 5 0 a.val 0 with sr := [a.val], str := true }
    (fun s k _ g g1 =>
      let s1 := s.setGrp k g1
      match s.daOf g 0 (g.readS a.val) with
      | some d =>
        if s.lineOf g.die (d / 128) = .M then .st ((s1.flushLine (d / 128)).setLine g.die (d / 128) .E)
        else .st s1
      | none => .st s1) passEff s

/-- crsz (R203): performed in LOAD_RETURN order after the group's earlier accesses. -/
def execCrsz (d a : SReg) (s : State) : Out :=
  issue { u22 6 d.val a.val 0 with sr := [a.val], sw := [d.val] }
    (fun s k _ g g1 =>
      if !g.room .ld 1 then .wait
      else .st (({ s with nextId := s.nextId + 1 }).setGrp k (g1.addOp
        { id := s.nextId, unit := s.nextId, pc := g.pc, maj := 22, fn := 6, ctr := .ld, kind := .crsz,
          dst := [g.sDst d.val], arg := [g.readS a.val] }))) s

/-- pref: brings a line into the L1 and the die cache, or the die cache only; its context is charged for one that its home slice
serves (R412). -/
def execPref (a : SReg) (l : Fin 2) (s : State) : Out :=
  issue2 { u22 7 0 a.val l.val with sr := [a.val], str := true }
    (fun s k _ g g1 =>
      let s1 := s.setGrp k g1
      match s.daOf g 1 (g.readS a.val) with
      | some d =>
        if s.linesReady g [d / 128] then
          let s2 := if s.lineOf g.die (d / 128) = .I then s1.energy g.ctx 110000 else s1
          .st (if l.val = 0 then (s2.getS g.die (d / 128)).l1Fill g.core (d / 128) else s2.getS g.die (d / 128))
        else .wait
      | none => .st s1) passEff s

end Sys2Proof.Machine
end

