-- ==== Sys2Proof/Machine/Atomics.lean ====
section
/-! DEFINITION. Majors 18 and 19: atomics and reductions (R313-R317, R334). -/

namespace Sys2Proof.Machine

/-- The address of lane `i` from the pair A (R316). -/
def pairAddr (x : Pfx) (a : VFld) (g : Group) (i : Nat) : DWord := g.src64 a x.xa i

/-- The value of lane `i` of B after its crossbar. -/
def bVal (x : Pfx) (b : VFld) (g : Group) (i : Nat) : Word := xbar x.xb (g.src b) i

/-- An atomic (R313, R316): performed lane by lane at its home slices; the old words return to D. -/
def atomUnit (n : Nat) (x : Pfx) (d a b : VFld) (scope : Fin 4) (s : State) : Out :=
  let od := x.imm.toNat % 4
  issue { maj := 18, cls := 1, base := wordA 18 d.val a.val b.val (4 * n + scope.val), pfx := x,
          vr := if n = 10 then [b, d] else [b], vr2 := [a], vw := [d] }
    (fun s k act g g1 =>
      if !g.room .ld 1 then .wait
      else .st (s.issueOps k g1 1 fun id =>
        [{ id := id, unit := id, pc := g.pc, maj := 18, fn := 4 * n + scope.val, ctr := .ld, kind := .atom n, size := 4,
           align := 4, need := 10, wr := true, acq := od % 2 = 1, rel := 2 ≤ od, scope := scope.val, l1 := 1,
           dst := [g.vDst d],
           accs := (lanesOn act).map fun i =>
             { lane := i, va := pairAddr x a g i,
               data := leBytes 4 (bVal x b g i).toNat ++ leBytes 4 (g.src d i).toNat } }])) s

/-- A reduction (R313, R316), or with the aggregate flag elements for Cumulus (R334). -/
def redUnit (n : Nat) (x : Pfx) (agg : Bool) (a b : VFld) (scope : Fin 4) (s : State) : Out :=
  let od := x.imm.toNat % 4
  issue { maj := 19, cls := 1, base := wordA 19 (if agg then 1 else 0) a.val b.val (4 * n + scope.val), pfx := x,
          vr := [b], vr2 := [a] }
    (fun s k act g g1 =>
      if !g.room .st 1 then .wait
      else .st (s.issueOps k g1 1 fun id =>
        [{ id := id, unit := id, pc := g.pc, maj := 19, fn := 4 * n + scope.val, ctr := .st,
           kind := if agg then .agg n false else .red n, size := 4, align := 4, need := 10, wr := true,
           rel := 2 ≤ od, scope := scope.val, l1 := 1,
           accs := (lanesOn act).map fun i =>
             { lane := i, va := pairAddr x a g i, data := leBytes 4 (bVal x b g i).toNat } }])) s

/-- atom.add. -/
def execAtomAdd (x : Pfx) (d a b : VFld) (scope : Fin 4) (s : State) : Out := atomUnit 0 x d a b scope s
/-- atom.sub. -/
def execAtomSub (x : Pfx) (d a b : VFld) (scope : Fin 4) (s : State) : Out := atomUnit 1 x d a b scope s
/-- atom.min. -/
def execAtomMin (x : Pfx) (d a b : VFld) (scope : Fin 4) (s : State) : Out := atomUnit 2 x d a b scope s
/-- atom.max. -/
def execAtomMax (x : Pfx) (d a b : VFld) (scope : Fin 4) (s : State) : Out := atomUnit 3 x d a b scope s
/-- atom.minn. -/
def execAtomMinn (x : Pfx) (d a b : VFld) (scope : Fin 4) (s : State) : Out := atomUnit 4 x d a b scope s
/-- atom.maxn. -/
def execAtomMaxn (x : Pfx) (d a b : VFld) (scope : Fin 4) (s : State) : Out := atomUnit 5 x d a b scope s
/-- atom.and. -/
def execAtomAnd (x : Pfx) (d a b : VFld) (scope : Fin 4) (s : State) : Out := atomUnit 6 x d a b scope s
/-- atom.or. -/
def execAtomOr (x : Pfx) (d a b : VFld) (scope : Fin 4) (s : State) : Out := atomUnit 7 x d a b scope s
/-- atom.xor. -/
def execAtomXor (x : Pfx) (d a b : VFld) (scope : Fin 4) (s : State) : Out := atomUnit 8 x d a b scope s
/-- atom.xchg. -/
def execAtomXchg (x : Pfx) (d a b : VFld) (scope : Fin 4) (s : State) : Out := atomUnit 9 x d a b scope s
/-- atom.cas. -/
def execAtomCas (x : Pfx) (d a b : VFld) (scope : Fin 4) (s : State) : Out := atomUnit 10 x d a b scope s
/-- atom.fadd. -/
def execAtomFadd (x : Pfx) (d a b : VFld) (scope : Fin 4) (s : State) : Out := atomUnit 11 x d a b scope s
/-- atom.fmin. -/
def execAtomFmin (x : Pfx) (d a b : VFld) (scope : Fin 4) (s : State) : Out := atomUnit 12 x d a b scope s
/-- atom.fmax. -/
def execAtomFmax (x : Pfx) (d a b : VFld) (scope : Fin 4) (s : State) : Out := atomUnit 13 x d a b scope s
/-- atom.bfadd2. -/
def execAtomBfadd2 (x : Pfx) (d a b : VFld) (scope : Fin 4) (s : State) : Out := atomUnit 14 x d a b scope s
/-- atom.incw. -/
def execAtomIncw (x : Pfx) (d a b : VFld) (scope : Fin 4) (s : State) : Out := atomUnit 15 x d a b scope s
/-- red.add. -/
def execRedAdd (x : Pfx) (agg : Bool) (a b : VFld) (scope : Fin 4) (s : State) : Out := redUnit 0 x agg a b scope s
/-- red.sub. -/
def execRedSub (x : Pfx) (agg : Bool) (a b : VFld) (scope : Fin 4) (s : State) : Out := redUnit 1 x agg a b scope s
/-- red.min. -/
def execRedMin (x : Pfx) (agg : Bool) (a b : VFld) (scope : Fin 4) (s : State) : Out := redUnit 2 x agg a b scope s
/-- red.max. -/
def execRedMax (x : Pfx) (agg : Bool) (a b : VFld) (scope : Fin 4) (s : State) : Out := redUnit 3 x agg a b scope s
/-- red.minn. -/
def execRedMinn (x : Pfx) (agg : Bool) (a b : VFld) (scope : Fin 4) (s : State) : Out := redUnit 4 x agg a b scope s
/-- red.maxn. -/
def execRedMaxn (x : Pfx) (agg : Bool) (a b : VFld) (scope : Fin 4) (s : State) : Out := redUnit 5 x agg a b scope s
/-- red.and. -/
def execRedAnd (x : Pfx) (agg : Bool) (a b : VFld) (scope : Fin 4) (s : State) : Out := redUnit 6 x agg a b scope s
/-- red.or. -/
def execRedOr (x : Pfx) (agg : Bool) (a b : VFld) (scope : Fin 4) (s : State) : Out := redUnit 7 x agg a b scope s
/-- red.xor. -/
def execRedXor (x : Pfx) (agg : Bool) (a b : VFld) (scope : Fin 4) (s : State) : Out := redUnit 8 x agg a b scope s
/-- red.fadd. -/
def execRedFadd (x : Pfx) (agg : Bool) (a b : VFld) (scope : Fin 4) (s : State) : Out := redUnit 9 x agg a b scope s
/-- red.fmin. -/
def execRedFmin (x : Pfx) (agg : Bool) (a b : VFld) (scope : Fin 4) (s : State) : Out := redUnit 10 x agg a b scope s
/-- red.fmax. -/
def execRedFmax (x : Pfx) (agg : Bool) (a b : VFld) (scope : Fin 4) (s : State) : Out := redUnit 11 x agg a b scope s
/-- red.bfadd2. -/
def execRedBfadd2 (x : Pfx) (agg : Bool) (a b : VFld) (scope : Fin 4) (s : State) : Out := redUnit 12 x agg a b scope s

/-! ### At the home slice (R314, R316, R318) -/

/-- One atomic step at a word's home slice (R316): the old word, and the machine with the new one. -/
def State.homeAtomic (s : State) (rid : ReqId) (da op : Nat) (b c : Word) : Word × State :=
  let s1 := s.recall (da / 128) none
  let w : Word := BitVec.ofNat 32 (s1.rdNat da 4)
  let nw := atomOp op w b c
  (w, (s1.homeWrite none da (leBytes 4 nw.toNat)).filterAdd da rid w)

/-- The request identifier of a lane of an operation. -/
def laneRid (g : Group) (o : Op) (lane : Nat) : ReqId := { src := g.die, req := g.slot, seq := (o.id * 64 + lane) % 2 ^ 24 }

/-- The number of `atom` for an operation of a reduction (R314). -/
def atomOfRed (n : Nat) : Nat := if n ≤ 8 then n else n + 2

/-- Whether a lane of an atomic has been performed, or needs nothing. -/
def LaneAcc.settled (a : LaneAcc) : Bool := a.done || a.resp.isSome || a.lfault.isSome || a.places.head? = some .gone

/-- A home slice performs one lane of an atomic or reduction (R316). -/
def State.atomLane (s : State) (k : Nat) (g : Group) (o : Op) (lane : Nat) : State :=
  match o.accs.find? fun a => a.lane = lane with
  | none => s
  | some a =>
    match a.places.head? with
    | some (.da d) =>
      let op := match o.kind with | .atom n => some n | .red n => some (atomOfRed n) | _ => none
      let earlier := o.accs.any fun b => b.lane < lane && !b.settled && b.places.head? = some (.da d)
      match op with
      | none => s
      | some n =>
        if a.settled || earlier || !g.mayPerform o || !s.writeRoom (d / 128) || !s.linesRouted g.die [d / 128] then s
        else if g.mustFlush o then s.cuFlush g
        else
          let (w, s1) := s.homeAtomic (laneRid g o lane) d n (BitVec.ofNat 32 (leNat (a.data.take 4)))
            (BitVec.ofNat 32 (leNat (a.data.drop 4)))
          ((s1.energy g.ctx 110000).l1Drop g.core (d / 128)).modGrp k fun h => h.modOp o.id fun p =>
            { p with accs := p.accs.map fun b =>
              if b.lane = lane then { b with done := true, resp := some (leBytes 4 w.toNat) } else b }
    | _ => s

/-- An atomic whose lanes have all been performed returns (R316, R317). -/
def State.returnAtom (s : State) (k : Nat) (g : Group) (o : Op) : State :=
  if o.performed || o.wait ≠ .flight || !(o.accs.all fun a => a.settled) then s
  else
    let ws := o.accs.map fun a => (0, a.lane, [BitVec.ofNat 32 (leNat ((a.resp.getD []).take 4))])
    let s1 := if o.acq && 1 ≤ o.scope then s.l1Clear g.core else s
    (s1.filterDrop (o.accs.map fun a => laneRid g o a.lane)).setGrp k ((g.writeWords o.dst ws).finishOp o.id)

/-- A reduction whose lanes have all been performed: ST falls (R317). -/
def State.doneRed (s : State) (k : Nat) (g : Group) (o : Op) : State :=
  if o.performed || o.wait ≠ .flight || !(o.accs.all fun a => a.settled) then s
  else (s.filterDrop (o.accs.map fun a => laneRid g o a.lane)).setGrp k (g.finishOp o.id)

/-- ATOMIC_PERFORM (R316). -/
def execAtomicPerform (k op lane : Nat) (s : State) : Out :=
  .next (match s.grp? k with
    | some g => (match g.op? op with | some o => s.atomLane k g o lane | none => s)
    | none => s)

end Sys2Proof.Machine
end

