-- ==== Sys2Proof/Machine/Router.lean ====
section
/-! DEFINITION. The interposer (R350-R361): strands, sentinels, the relay routing table, and how a packet goes from its source
chiplet to its destination, flit by flit. -/

namespace Sys2Proof.Machine

/-! ### The routing table (R352, R353) -/

/-- RSTS (R352). -/
def Pair.rsts (v : Pair) : DWord :=
  BitVec.ofNat 64 (v.fail + v.gated * 2 ^ 12 + v.sentinel * 2 ^ 24 + (if v.direct then 0 else 2 ^ 28) + v.crce * 2 ^ 32)

/-- RRT (R352). -/
def State.rrt (s : State) (c t : Nat) : DWord :=
  let v := s.pair c t
  BitVec.ofNat 64 (v.mode + v.rly * 4 + if v.auto then 256 else 0)

/-- The pairs as interposer training leaves them (R352): MODE 0, and RLY the lowest live chiplet that is neither end (DESIGN
CHOICE, LE 3); what has failed has failed until the device is reset (R360). -/
def State.trained (s : State) : NMap Pair :=
  (List.range 50).flatMap fun c => (List.range 50).filterMap fun t =>
    if c = t then none
    else
      let v : Pair := { rly := ((List.range 50).find? fun k => k ≠ c && k ≠ t && !(s.chip k).dead).getD 0, idle := s.dev.tns }
      some (c * 64 + t, { v with fail := (s.pair c t).fail })

/-- MODE as the strand logic narrows it (R353). -/
def Pair.narrow (v : Pair) : Pair :=
  let a := v.good &&& 0x3F
  let b := v.good &&& 0xFC0
  if !v.auto || v.mode = 3 then v
  else if a = 0 && b = 0 then { v with mode := 3 }
  else if a = 0 then { v with mode := 2 }
  else if b = 0 then { v with mode := 1 }
  else v

/-- The narrower of an automatic mode and a written one (R363): one band that fails leaves the automatic mode. -/
def narrower (a m : Nat) : Nat := if a = 0 then m else if m = 3 then 3 else a

/-- A write to an entry of the routing table at time `now` (R352, R353, R363): an automatic change of the same cycle stays where it
is the narrower. -/
def Pair.written (v : Pair) (m r : Nat) (auto : Bool) (now : Nat) : Pair :=
  ({ v with mode := if v.auto5 = some now then narrower v.mode m else m, rly := r, auto := auto,
            wrote5 := if v.auto then some now else none } : Pair).narrow

/-- Start a wake of a pair's gated strands (R358). -/
def Pair.wake (v : Pair) (tns : Nat) : Pair :=
  if v.gated ≠ 0 && v.waking.isNone then { v with waking := some tns } else v

/-! ### Routes (R354, R355) -/

/-- The chiplet that a packet goes to first: its destination, a relay, or none (R354). What only the sentinel carries goes direct
while a strand is left (R351, R362). -/
def State.routeOf (s : State) (p : RPkt) : Option Nat :=
  if p.vc = 2 && (s.pair p.src p.dst).good ≠ 0 then some p.dst else s.wayOut p.src p.dst

/-- The routes of the packets of a channel from c to t that are on their way: not acknowledged at t, nor given up (R355). -/
def State.routesInUse (s : State) (p : RPkt) : List Nat :=
  let mine (q : RPkt) : Bool := q.src = p.src && q.dst = p.dst && q.vc = p.vc
  s.pairs.flatMap fun kv =>
    (kv.2.retry.filterMap fun f => if mine f.pkt then some (if kv.1 / 64 = p.src then kv.1 % 64 else kv.1 / 64) else none) ++
      (kv.2.atRelay.filterMap fun q => if mine q then some (kv.1 % 64) else none)

/-! ### Channels and credits (R356) -/

/-- Flits that the receiver of a pair has not accepted. -/
def Pair.unseen (v : Pair) : List RFlit := v.retry.dropWhile fun f => f.seq ≠ v.expect

/-- Packets at relay `k` that wait to be forwarded to `t`. -/
def State.toForward (s : State) (k t : Nat) : List RPkt :=
  s.pairs.flatMap fun kv => if kv.1 % 64 = k then kv.2.atRelay.filter fun p => p.dst = t else []

/-- The first-hop channel of the packets that relay `k` forwards to `t` next: VC2 as VC5, then VC0 and VC1 in turn (R351, R357). -/
def State.nextFwd (s : State) (k t : Nat) : Nat :=
  let l := s.toForward k t
  if l.any fun p => p.vc = 2 then 2
  else if l.any fun p => p.vc = (s.pair k t).turn2 then (s.pair k t).turn2
  else 1 - (s.pair k t).turn2

/-- Packets under way to relay `k` that it will forward to `t`. -/
def State.comingBy (s : State) (k t : Nat) : List RPkt :=
  s.pairs.flatMap fun kv => if kv.1 % 64 = k && k ≠ t then (kv.2.unseen.map RFlit.pkt).filter fun p => p.dst = t else []

/-- Receive buffers of channel `vc` of pair (c, t) that are taken: by flits under way, on a first hop by what the relay has not
forwarded, on a second hop by what the relay has or has coming, for which a credit is held before it is sent (R356). -/
def State.taken (s : State) (c t vc : Nat) : Nat :=
  ((s.pair c t).unseen.filter fun f => f.vc = vc).length +
    if vc < 3 then ((s.pair c t).atRelay.filter fun p => p.vc = vc).length
    else ((s.toForward c t ++ s.comingBy c t).filter fun p => p.vc + 3 = vc).length

/-- Whether the sender of a pair holds a credit of a channel (R356). -/
def State.hasCredit (s : State) (c t vc : Nat) : Bool := s.taken c t vc < Config.channelRoom vc + 1

/-- Whether relay `k` accepts a packet: it holds a second-hop credit for it (R356). -/
def State.relayTakes (s : State) (k : Nat) (p : RPkt) : Bool := s.taken k p.dst (p.vc + 3) ≤ Config.channelRoom (p.vc + 3) + 1

/-! ### Sending (R351, R357-R359) -/

/-- The strands that a flit is striped over (R350, R351, R354): the sentinel alone for VC2 and VC5; else the usable ones of the bands
named, and the sentinel while none is usable. -/
def Pair.stripe (v : Pair) (bands vc : Nat) : Nat :=
  if vc % 3 = 2 || v.usable &&& bands = 0 then 2 ^ v.sentinel else v.usable &&& bands

/-- A flit enters the retry buffer of pair (c, t) and leaves on its strands; it triggers a wake when none of them is usable, when
the pair's queue has reached WAKEQ flits, or when it is a response that carries data (R311, R358). Heartbeats do not keep a pair's other strands from
gating (DEDUCED, LE 73). -/
def State.putFlit (s : State) (c t vc bands : Nat) (p : RPkt) : State :=
  let v := s.pair c t
  let v1 := { v with retry := v.retry ++ [{ seq := v.next, vc := vc, strands := v.stripe bands vc, pkt := p }],
                     next := (v.next + 1) % 4096,
                     idle := match p.msg with | .heartbeat _ => v.idle | _ => s.dev.tns }
  let wakes := v.usable &&& bands = 0 || (p.data && p.vc ≠ 0) || (s.chip c).wakeq ≤ v1.unseen.length + v1.held.length
  s.setPair c t (if wakes then v1.wake s.dev.tns else v1)

/-- Where packet `p` can go from its source now: its route is known, its pair has room and a credit, no packet of its channel is on
another route, and nothing that the source relays goes before it (R354-R357, R359). -/
def State.hopOf (s : State) (p : RPkt) : Option Nat :=
  match s.routeOf p with
  | none => none
  | some k =>
    if (s.pair p.src k).retry.length < 256 && s.hasCredit p.src k p.vc && (k = p.dst || s.hasCredit k p.dst (p.vc + 3)) &&
        (s.routesInUse p).all (· = k) &&
        !((s.toForward p.src k).any fun q => p.vc ≠ 2 || q.vc = 2) then some k
    else none

/-- The next packet from c to t that can leave, with its hop, by a list of channels: VC2 first, then VC0 and VC1 in turn (R357). -/
def State.nextOut (s : State) (c t : Nat) (vcs : List Nat) : Option (RPkt × Nat) :=
  let v := s.pair c t
  (vcs.map fun q => if q = 2 then 2 else if q = 0 then v.turn else 1 - v.turn).findSome? fun q =>
    (v.held.find? fun p => p.vc = q).bind fun p => (s.hopOf p).map fun k => (p, k)

/-- Send what can be sent of the packets from c to t that wait. -/
def State.pump (s : State) (c t : Nat) (vcs : List Nat) : Nat → State
  | 0 => s
  | fuel + 1 => match s.nextOut c t vcs with
    | none => s
    | some (p, k) =>
      let v := s.pair c t
      let s1 := s.setPair c t { v with held := v.held.erase p, turn := if p.vc = 2 then v.turn else 1 - p.vc }
      (s1.putFlit c k p.vc (if k = t then bandMask v.mode else 0xFFF) p).pump c t vcs fuel

/-- Every packet that waits tries to leave, those of VC2 first (R357). -/
def State.pumpAll (s : State) : State :=
  let all (vcs : List Nat) (s0 : State) : State :=
    s0.pairs.foldl (fun u kv =>
      if kv.2.held.isEmpty then u else u.pump (kv.1 / 64) (kv.1 % 64) vcs kv.2.held.length) s0
  all [0, 1] (all [2] s)

/-- A packet takes its place among those that wait at its source, in the order in which they were sent (R355). -/
def insPkt (p : RPkt) (l : List RPkt) : List RPkt := (l.filter fun q => q.ord < p.ord) ++ p :: l.filter fun q => p.ord ≤ q.ord

/-- A pair wakes its gated strands when its queue has reached WAKEQ flits, or when none of the strands that its mode names is usable
(R358). -/
def State.wakeIf (s : State) (c t : Nat) : State :=
  let v := s.pair c t
  if (s.chip c).wakeq ≤ v.unseen.length + v.held.length || (v.mode ≠ 3 && v.usable &&& bandMask v.mode = 0) then
    s.setPair c t (v.wake s.dev.tns)
  else s

/-- A packet leaves chiplet c for t, as one flit or, with a line's data, as two (DESIGN CHOICE, LE 26); one without a route is held and
the pair reported to Stratus (R354). To a dead chiplet nothing is sent (R362). -/
def State.sendPkt (s : State) (p : RPkt) : State :=
  if (s.chip p.src).dead || (s.chip p.dst).dead then s
  else
    let v := s.pair p.src p.dst
    let p1 := { p with ord := v.sent + 1 }
    let new := if p.data then [{ p with last := false, ord := v.sent }, p1] else [p1]
    let s1 := (s.setPair p.src p.dst { v with held := v.held ++ new, sent := v.sent + 2 }).wakeIf p.src p.dst
    (if (s.routeOf p).isNone then s1.logged 3 [p.src, p.dst] else s1).pump p.src p.dst [2, 0, 1] (v.held.length + 2)

/-- Whether a message is still on its way. -/
def State.onWay (s : State) (m : RMsg) : Bool :=
  s.pairs.any fun kv => (kv.2.held.any fun p => p.msg = m) || (kv.2.atRelay.any fun p => p.msg = m) ||
    kv.2.unseen.any fun f => f.pkt.msg = m

/-! ### Giving up (R361) -/

/-- Packets that are given up wait at their sources again, ahead of newer ones, and pairs without a route are reported; those from or
to a dead chiplet are gone (R354, R355, R361, R362). -/
def State.resend (s : State) (l : List RPkt) : State :=
  let live := l.filter fun p => !(s.chip p.src).dead && !(s.chip p.dst).dead
  let s1 := live.foldl
    (fun u p => let v := u.pair p.src p.dst; u.setPair p.src p.dst { v with held := insPkt p v.held }) s
  ((live.filter fun p => (s.routeOf p).isNone).map fun p => (p.src, p.dst)).eraseDups.foldl (fun u x => u.logged 3 [x.1, x.2]) s1

/-- Everything that a pair's flits bring. -/
def Pair.inFlight (v : Pair) : List RPkt := v.retry.map RFlit.pkt

/-- The unacknowledged flits of pair (c, t), and what c would have forwarded on it, are given up and resent (R361). -/
def State.giveUp (s : State) (c t : Nat) : State :=
  let v := s.pair c t
  let back := v.inFlight ++ s.toForward c t
  let s1 : State := { s with pairs := mapAll s.pairs fun k w =>
    if k % 64 = c then { w with atRelay := w.atRelay.filter fun p => p.dst ≠ t } else w }
  ((s1.setPair c t { s1.pair c t with retry := [], expect := v.next }).resend back).pumpAll

/-- A verdict on chiplet x (R362, R363): what it sent and what was held for it is gone; what was on its way through it is given up
and resent. -/
def State.cutOff (s : State) (x : Nat) : State :=
  let touches (k : Nat) : Bool := k % 64 = x || k / 64 = x
  let back := s.pairs.flatMap fun kv => if touches kv.1 then kv.2.inFlight ++ kv.2.atRelay else []
  let cut (k : Nat) (v : Pair) : Pair :=
    if touches k then { v with held := [], retry := [], expect := v.next, atRelay := [] }
    else { v with atRelay := v.atRelay.filter fun p => p.dst ≠ x }
  (({ s with pairs := mapAll s.pairs cut } : State).resend back).pumpAll

end Sys2Proof.Machine
end

