-- ==== Sys2Proof/Machine/ObjUnits.lean ====
section
/-! DEFINITION. Major 21 (R232-R236). -/

namespace Sys2Proof.Machine

/-- A unit of major 21. -/
def u21 (fn : Nat) (x : Pfx) (d a b : Nat) : Uop := { maj := 21, cls := 1, base := wordA 21 d a b fn, pfx := x }

/-- The five coordinates of lane `i`: the words of vB to vB+4, sign-extended (R233). -/
def elemCo (g : Group) (b : VFld) (i : Nat) : List Int := (fieldsFrom b 5).map fun f => (g.src f i).toInt

/-- ldo (R233). -/
def execLdo (x : Pfx) (d : VFld) (a : SReg) (b : VFld) (s : State) : Out :=
  issue { u21 0 x d.val a.val b.val with sr := [a.val], vr := fieldsFrom b 5, vw := [d] }
    (fun s k act g g1 =>
      if !g.room .ld 1 then .wait
      else .st (s.issueOps k g1 1 fun id =>
        [{ id := id, unit := id, pc := g.pc, maj := 21, fn := 0, ctr := .ld, kind := .load 4 false, need := 1,
           dst := [g.vDst d], arg := [g.readS a.val],
           accs := (lanesOn act).map fun i => { lane := i, va := g.readS a.val, co := elemCo g b i } }])) s

/-- sto (R233). -/
def execSto (x : Pfx) (d : VFld) (a : SReg) (b : VFld) (s : State) : Out :=
  issue { u21 1 x d.val a.val b.val with sr := [a.val], vr := d :: fieldsFrom b 5 }
    (fun s k act g g1 =>
      if !g.room .st 1 then .wait
      else .st (s.issueOps k g1 1 fun id =>
        [{ id := id, unit := id, pc := g.pc, maj := 21, fn := 1, ctr := .st, kind := .store, need := 2, wr := true,
           arg := [g.readS a.val], dq := isQ d, keeps := keepsOf g d 4,
           accs := (lanesOn act).map fun i =>
             { lane := i, va := g.readS a.val, co := elemCo g b i, data := leBytes 4 (g.src d i).toNat } }])) s

/-- The origin of `ldob` and `stob`: c0 to c4 from s[B] to s[B+2] (R234). -/
def origin (g : Group) (b : Nat) : List Int :=
  (List.range 5).map fun n => sextNat 32 ((g.readS (b + n / 2)).toNat / 2 ^ (32 * (n % 2)))

/-- The lanes of a block transfer: registers ascending, and in each the lanes ascending. -/
def blockAccs (g : Group) (d : VFld) (n : Nat) (a b : SReg) (act : DWord) (store : Bool) : List LaneAcc :=
  (List.range n).flatMap fun k => (lanesOn act).map fun i =>
    { reg := k, lane := i, va := g.readS a.val, co := origin g b.val,
      data := if store then leBytes 4 (g.src (d + Fin.ofNat 128 k) i).toNat else [] }

/-- ldob (R234). -/
def execLdob (x : Pfx) (d : VFld) (a b : SReg) (s : State) : Out :=
  let n := Pfx.last x + 1 - d.val
  issue { u21 2 x d.val a.val b.val with
            sr := [a.val, b.val, b.val + 1, b.val + 2], vw := rangeFields d.val (Pfx.last x) }
    (fun s k act g g1 =>
      if !g.room .tl 1 then .wait
      else .st (s.issueOps k g1 1 fun id =>
        [{ id := id, unit := id, pc := g.pc, maj := 21, fn := 2, ctr := .tl, kind := .load 4 false, need := 1,
           dst := (rangeFields d.val (Pfx.last x)).map g.vDst, arg := [g.readS a.val],
           accs := blockAccs g d n a b act false }])) s

/-- stob (R234). -/
def execStob (x : Pfx) (d : VFld) (a b : SReg) (s : State) : Out :=
  let n := Pfx.last x + 1 - d.val
  issue { u21 3 x d.val a.val b.val with
            sr := [a.val, b.val, b.val + 1, b.val + 2], vr := rangeFields d.val (Pfx.last x) }
    (fun s k act g g1 =>
      if !g.room .tl 1 then .wait
      else .st (s.issueOps k g1 1 fun id =>
        [{ id := id, unit := id, pc := g.pc, maj := 21, fn := 3, ctr := .tl, kind := .store, need := 2, wr := true,
           arg := [g.readS a.val], keeps := (rangeFields d.val (Pfx.last x)).map g.vDst,
           accs := blockAccs g d n a b act true }])) s

/-- The word of a record that `oinfo` returns (R235). -/
def State.oinfoWord (s : State) (g : Group) (va : DWord) (n : Nat) : DWord :=
  match s.look (s.xl g) va.toNat with
  | .bad .. => 0
  | .ok ob _ => if n = 2 && !s.sysCtx g.ctx then 0 else regGet (s.recWords (s.xl g) ob) n

/-- oinfo (R235): the word is that of the record at issue; s[D] is pending until written back. -/
def execOinfo (x : Pfx) (d a : SReg) (n : Fin 8) (s : State) : Out :=
  issue { u21 4 x d.val a.val n.val with sr := [a.val], sw := [d.val] }
    (fun s k _ g g1 =>
      .st (({ s with nextId := s.nextId + 1 }.startWalk (s.xl g) (g.readS a.val).toNat).setGrp k (g1.addOp
        { id := s.nextId, unit := s.nextId, pc := g.pc, maj := 21, fn := 4, kind := .value, dst := [g.sDst d.val],
          result := s.oinfoWord g (g.readS a.val) n.val }))) s

/-- Whether a sub-tile is resident, not moving and not failed (R215, R229). -/
def State.resident (s : State) (x : Xl) (obj : Nat) (r : Rec) (sub : Nat) : Bool :=
  let e := s.entry x obj r sub
  bitOf e 0 && !bitOf e 1 && !bitOf e 2 && !(s.ctx x.ctx).moving.contains (obj, sub)

/-- Whether a VA passes every check of `oprobe` (R236). -/
def State.probe (s : State) (g : Group) (va need : Nat) : Bool :=
  if 0xF000000000000 ≤ va then
    (va < 0xF100000000000 && va % 2 ^ 44 < 16 * g.privu) ||
      (0xF100000000000 ≤ va && va < 0xF200000000000 && va % 2 ^ 44 < s.wgmSize g.wg)
  else match s.look (s.xl g) va with
    | .bad .. => false
    | .ok ob r =>
      r.kind ≠ 2 && (List.range 4).all (fun b => !bitOf need b || bitOf r.perm b) && (!bitOf need 2 || r.kind = 3) &&
        decide (va - r.base < r.sz) &&
        s.resident (s.xl g) ob r (r.byteOff (va - r.base) / 2 ^ r.stlog)

/-- oprobe (R236). -/
def execOprobe (x : Pfx) (d : PReg) (a : VFld) (b : SReg) (s : State) : Out :=
  issue { u21 5 x d.val a.val b.val with sr := [b.val], vr2 := [a], pr := [d.val], pw := [d.val] }
    (fun s _ act g g1 => .grp (g1.writePBits d.val act fun i =>
      s.probe g (g.src64 a 0 i).toNat ((g.readS b.val).toNat % 16))) s

end Sys2Proof.Machine
end

