-- ==== Sys2Proof/Machine/Fences.lean ====
section
/-! DEFINITION. `fence`, `pfence`, `fla` and `mwait`, and the events of monitors (R319-R321, R329, R330, R339). -/

namespace Sys2Proof.Machine

/-- Whether an operation is a load or an atomic that returns a value. -/
def Op.returns (o : Op) : Bool :=
  match o.kind with
  | .load .. => true
  | .wadd => true
  | .wcas => true
  | .atom _ => true
  | .recvq => true
  | _ => false

/-- Whether the operation has a lane on the generic path, or is not translated yet. -/
def Op.onGen (o : Op) : Bool :=
  o.accs.isEmpty || o.accs.any fun a => a.places.isEmpty || a.places.any fun p => match p with | .wgm _ => false | _ => true

/-- Whether the operation has a lane on the WGM path. -/
def Op.onWgm (o : Op) : Bool := o.accs.any fun a => a.places.any fun p => match p with | .wgm _ => true | _ => false

/-- The pending AGG or PEER trap of a group at a fence, `fla` or `exit` (R344), and the group without it. -/
def State.aggTrap (s : State) (g : Group) : Option (Group × Trap) :=
  if g.agg then some ({ g with agg := false }, { cause := 9, a := (s.ctx g.ctx).aflt.setWidth 64, pc := g.pc, resume := g.pc })
  else if g.peerP then
    some ({ g with peerP := false }, { cause := 10, a := (s.ctx g.ctx).aflt.setWidth 64, pc := g.pc, resume := g.pc })
  else none

/-- Go on past a fence or `fla` whose wait has ended, or take the pending AGG or PEER there (R344). -/
def passOrAgg (s : State) (k : Nat) (g : Group) (after : State) : Eff :=
  match s.aggTrap g with
  | some (g', t) => .st (s.takeTrap k g' t)
  | none => .st after

/-- fence (R329): it waits for the earlier accesses its kind names; a release of DIE scope or wider flushes the group's
Cumulus buffers; an acquire of DIE scope or wider empties the L1. -/
def execFence (kind scope : Fin 4) (s : State) : Out :=
  issue2 { u22 0 0 0 (scope.val + 4 * kind.val) with fp := true, str := true }
    (fun s k _ g g1 =>
      let acq := kind.val % 2 = 1
      let rel := 2 ≤ kind.val
      let open_ := g.ops.filter fun o => !o.performed
      if (acq && open_.any Op.returns) || (rel && open_.any Op.isAcc) then .wait
      else if rel && 1 ≤ scope.val && open_.any Op.isAgg then .wait
      else if rel && 1 ≤ scope.val && g.dirtyMask ≠ 0 then .waitSt (s.cuFlush g)
      else
        let s1 := s.setGrp k g1
        passOrAgg s k g (if acq && 1 ≤ scope.val then s1.l1Clear g.core else s1)) passEff s

/-- pfence (R330): ready once the conditions of its source paths hold. -/
def execPfence (p t : Fin 16) (s : State) : Out :=
  issue2 { u22 1 0 p.val t.val with fp := true, str := true }
    (fun s _ _ g g1 =>
      let open_ := g.ops.filter fun o => !o.performed && o.isAcc
      let gen := !bitOf p.val 0 || !open_.any Op.onGen
      let wgm := !bitOf p.val 1 || !open_.any fun o => o.onWgm && (match o.kind with | .load .. => false | _ => true)
      let mx := !bitOf p.val 2 || g.mxq.isEmpty
      let cp := !bitOf p.val 3 || (match s.wg? g.wg with | some w => g.cpn ≤ w.ctl | none => true)
      if gen && wgm && mx && cp then .grp g1 else .wait) passEff s

/-- fla (R339): every buffer of the dirty mask leaves; ready once the mask is clear and the group's aggregating units have
been accepted (it orders later units after the group's aggregated elements). While it waits it has issued (R349). -/
def execFla (s : State) : Out :=
  let waits (t : State) (k : Nat) : Eff := .waitSt (t.modGrp k fun h => { h with flaWait := true })
  issue2 { u22 3 0 0 0 with fp := true, str := true }
    (fun s k _ g g1 => if g.dirtyMask ≠ 0 then waits (s.cuFlush g) k
      else if g.ops.any fun o => !o.performed && o.isAgg then waits s k
      else passOrAgg s k { g with flaWait := false } (s.setGrp k { g1 with flaWait := false })) passEff s

/-! ### Monitors -/

/-- Give a monitor's status to its group's queue of statuses. -/
def State.monStatus (s : State) (k st : Nat) : State :=
  s.modHome fun h => { h with msgs := h.msgs ++ [{ grp := k, status := st }] }

/-- Arm at the word's home slice in one step (R312, R320), under the name `k` in context `n`, a word reached through sub-tile
`via.2` of object `via.1`: met at once gives status 0;
otherwise an entry, evicting the one armed earliest when the slice's 32 are in use. A request in progress for the line comes
first (R306), and so does a write-back of it. -/
def State.armAt (s : State) (k n da : Nat) (via : Nat × Nat) (cmp : Nat) (v : Word) (deadline : Nat) : State :=
  let s0 := (s.settleLine (da / 128)).quiet (da / 128)
  if cmpMet cmp (BitVec.ofNat 32 (s0.rdNat da 4)) v then s0.monStatus k 0
  else
    let slice := s0.sliceOf da
    let mine := s0.home.mons.filter fun m => m.slice = slice
    let s1 := if mine.length < 32 then s0
      else match mine.head? with
        | some m => (s0.modHome fun h => { h with mons := h.mons.filter fun x => x.order ≠ m.order }).monStatus m.grp 2
        | none => s0
    let line := da / 128
    let s2 := if s1.monitored line then s1
      else match s1.dirOf line with
        | .X o => (((s1.flushLine line).homeUse line true).setLine o line .S).setDir line (.S (2 ^ o))
        | .L => s1.recallAll line
        | _ => s1
    let (ord, s3) := s2.fresh1
    s3.modHome fun h => { h with mons := h.mons ++
      [{ slice := slice, ctx := n, grp := k, da := da, cmp := cmp, val := v, deadline := deadline, order := ord,
         obj := via.1, sub := via.2 }] }

/-- Arm for a group of this device: the line leaves its L1. -/
def State.armMon (s : State) (k : Nat) (g : Group) (da : Nat) (via : Nat × Nat) (cmp : Nat) (v : Word) (deadline : Nat) : State :=
  (s.l1Drop g.core (da / 128)).armAt k g.ctx da via cmp v deadline

/-- The operation of an `mwait`: its word as one 4-byte read (R320). -/
def mwaitOp (g : Group) (id : Nat) (va : DWord) (arg : List DWord) : Op :=
  { id := id, unit := id, pc := g.pc, maj := 22, fn := 2, ctr := .none, kind := .mwait, size := 4, align := 4, need := 1,
    scope := 2, l1 := 1, accs := [{ lane := 0, va := va }], arg := arg }

/-- The word of an `mwait` is translated: arm at its home, or answer status 3 out of shape; a remote word is armed by a
request to its home device (R320, R321). The group stays parked; the operation is over. -/
def State.mwaitGo (s : State) (k : Nat) (g : Group) (o : Op) (places : List Place) : State :=
  let s1 := s.setGrp k (g.finishOp o.id)
  match places.head? with
  | some (.da d) =>
    s1.armMon k g d (s.wordVia (s.xl g) (regGet o.arg 5).toNat).2 (regGet o.arg 1).toNat ((regGet o.arg 0).setWidth 32) (regGet o.arg 3).toNat
  | some (.remote p c ob f) =>
    if s.disconnected p then
      let tr : Trap := { cause := 0x0C, deferred := true, a := regGet o.arg 5, pc := o.pc, i := 2 }
      s1.recordFault k { (g.finishOp o.id) with park := 0, parkArg := [] } { id := o.id, targets := [], trap := tr }
    else
      let (id, s2) := s1.fresh1
      (s2.modGrp k fun h => { h with parkArg := h.parkArg ++ [BitVec.ofNat 64 id] }).fabSend (some g.ctx)
        { type := 0, src := s.fab.dev, dst := p, rctx := c, cls := 0, seq := 0,
          rid := { src := 64 + s.fab.dev, req := g.slot, seq := id }, ronum := ob, off := f,
          opnd := [0xFF, BitVec.ofNat 8 (regGet o.arg 1).toNat] ++ leBytes 4 (regGet o.arg 0).toNat ++
            leBytes 8 (regGet o.arg 3).toNat, payload := [] }
  | _ => s1.monStatus k 3

/-- Decide an `mwait`, at issue or after service: `g` is the group parked at it (R320). -/
def State.mwaitTry (s : State) (k : Nat) (g : Group) (o : Op) : State :=
  match s.decideOp g o with
  | .fault t => s.recordFault k { (g.finishOp o.id) with park := 0, parkArg := [] } { id := o.id, trap := t, targets := [] }
  | .ok accs =>
    s.mwaitGo k g o (if (s.wordVia (s.xl g) (regGet o.arg 5).toNat).1 then [.gone] else (accs.headD { lane := 0, va := 0 }).places)
  | .miss _ ob sub va =>
    (s.openService g.ctx ob sub 0 false g.core va).setGrp k
      (g.modOp o.id fun p => { p with wait := .held ob sub va, again := 0 })
  | .hold _ ob sub va => s.setGrp k (g.modOp o.id fun p => { p with wait := .held ob sub va, again := 0 })

/-- mwait (R319-R321). -/
def execMwait (y : YPre) (d a b : SReg) (s : State) : Out :=
  let u : Uop := { u22 2 d.val a.val b.val with
    pfx := { x := none, y := some y }, hnd := true, sr := [a.val, b.val], sw := [d.val], pw := [y.e.val % 16] }
  issue u
    (fun s k _ g g1 =>
      let va := g.readS a.val
      if 0xF000000000000 ≤ va.toNat ∧ va.toNat < 0xF200000000000 then
        .trap { u.preciseTrap g 0x0C va with i := 1 }
      else
        let t := y.imm.toNat
        let arg : List DWord := [g.readS b.val &&& 0xFFFFFFFF, BitVec.ofNat 64 (y.e.val / 16),
          BitVec.ofNat 64 (y.e.val % 16), BitVec.ofNat 64 (if t = 0 then 0 else s.dev.tns + 1000 * t),
          BitVec.ofNat 64 d.val, va]
        let o := mwaitOp g s.nextId va arg
        let g2 := { (g1.addOp o) with park := 3, parkArg := arg, parkTns := s.dev.tns }
        .st (({ s with nextId := s.nextId + 1 }.setGrp k g2).mwaitTry k g2 o)) s

/-- A monitor status takes effect in a resident group (R320): p[P], s[D], the wake, and the acquire at DEV scope. -/
def State.giveStatus (s : State) (k : Nat) (g : Group) (st : Nat) : State :=
  let p := (regGet g.parkArg 2).toNat % 16
  let g1 := (g.writeP p (if st = 0 then allOnes else 0)).writeS ((regGet g.parkArg 4).toNat % 64) (BitVec.ofNat 64 st)
  (s.l1Clear g.core).setGrp k { g1 with park := 0, parkArg := [], monStatus := none, woken := false }

/-- The name under which a remote group's monitor is armed at this device: its request's identifier (DESIGN CHOICE, LE 20). -/
def remoteMon (r : ReqId) : Nat := 2 ^ 60 + r.src % 2 ^ 16 * 2 ^ 40 + r.req % 2 ^ 16 * 2 ^ 24 + r.seq % 2 ^ 24

/-- The status of a remote group's monitor goes back to its device. -/
def State.answerMon (s : State) (k st : Nat) : State :=
  let rid : ReqId := { src := bitsOf k 40 16, req := bitsOf k 24 16, seq := k % 2 ^ 24 }
  s.fabSend none
    { type := 5, src := s.fab.dev, dst := rid.src - 64, rctx := 0, cls := 1, seq := 0, rid := rid, ronum := 0, off := 0,
      opnd := [], payload := leBytes 5 0 ++ leBytes 8 st }

/-- Whether a group waits for a remote monitor whose peer is disconnected (R321). -/
def State.monPeerLost (s : State) (g : Group) : Bool :=
  g.park = 3 && g.monStatus.isNone && 7 ≤ g.parkArg.length &&
    match s.xlate (s.xl g) 1 false false (regGet g.parkArg 5).toNat 4 with
    | .ok (.remote p _ _ _ :: _) => s.disconnected p
    | _ => false

/-- A status reaches its group, unless its context is stopped (R320, R26, R71). -/
def State.statusTo (s : State) (k st : Nat) : State :=
  match s.grp? k with
  | none => s
  | some g =>
    if g.park ≠ 3 || (s.ctx g.ctx).stopped then s
    else if s.residentGrp g then s.giveStatus k g st
    else ((s.setGrp k { g with monStatus := some st, woken := true }).applied g.wg).pushWoken k

/-- MONITOR_STATUS_DELIVER (R320, R71): the group's oldest status, or eviction by the loss of its peer; a group that is
swapped out finds it on resume; a remote group's goes to its device. -/
def execMonitorStatusDeliver (k : Nat) (s : State) : Out :=
  .next (match s.home.msgs.find? fun m => m.grp = k with
    | none => (match s.grp? k with
      | some g => if s.monPeerLost g then s.statusTo k 2 else s
      | none => s)
    | some m =>
      let i := s.home.msgs.findIdx fun m => m.grp = k
      let s1 := s.modHome fun h => { h with msgs := h.msgs.eraseIdx i }
      if 2 ^ 60 ≤ k then s1.answerMon k m.status else s1.statusTo k m.status)

/-- MONITOR_TIMEOUT (R321): the group's armed entry reaches its deadline; a met comparison gives 0, otherwise 1. -/
def execMonitorTimeout (k : Nat) (s : State) : Out :=
  .next (match s.home.mons.find? fun m => m.grp = k && m.deadline ≠ 0 with
    | none => s
    | some m =>
      let s1 := (s.atLeast m.deadline).modHome fun h => { h with mons := h.mons.filter fun x => x.order ≠ m.order }
      s1.monStatus k (if cmpMet m.cmp (BitVec.ofNat 32 (s.rdNat m.da 4)) m.val then 0 else 1))

end Sys2Proof.Machine
end

