-- ==== Sys2Proof/Machine/SyncUnits.lean ====
section
/-! DEFINITION. Major 25 of the synchronization engine: timelines, tokens, the built-in barrier, transaction barriers and
semaphores (R258-R274). -/

namespace Sys2Proof.Machine

/-- A unit of major 25 (R259): it traps HND in handler mode. -/
def u25 (fn d a b : Nat) : Uop := { maj := 25, cls := 1, base := wordA 25 d a b fn, hnd := true }

/-! ### Records -/

/-- Store entry of set timeline x of a context (R262). -/
def State.tlIndex (s : State) (ctx x : Nat) : Nat := (s.ctx ctx).tlcfg.toNat % 65536 + x
/-- Timelines in a context's set. -/
def State.tlCount (s : State) (ctx : Nat) : Nat := bitsOf (s.ctx ctx).tlcfg.toNat 16 17

/-- Whether a timeline selector is legal (R261). -/
def State.selOk (s : State) (g : Group) (sel : DWord) : Bool :=
  let v := sel.toNat
  bitsOf v 3 29 = 0 && (if v % 8 ≤ 2 then v / 2 ^ 32 = 0
    else v % 8 = 3 && decide (1 ≤ v / 2 ^ 32) && decide (v / 2 ^ 32 < s.tlCount g.ctx))

/-- The value of a named timeline (R258, R261). -/
def State.tlValue (s : State) (g : Group) (sel : DWord) : Nat :=
  match sel.toNat % 8 with
  | 0 => (s.wg? g.wg).elim 0 Workgroup.ctl
  | 1 => g.mtl
  | 2 => (s.ctx g.ctx).ktl
  | _ => (mapGet s.dev.tl (s.tlIndex g.ctx (sel.toNat / 2 ^ 32)) 0).toNat

/-- The barrier of a handle in a workgroup. -/
def Workgroup.bar? (w : Workgroup) (h : Nat) : Option TxBar := w.bars.find? fun b => b.reg = h

/-- Whether every token of the mask `m` is done (R264). -/
def Workgroup.tokensDone (w : Workgroup) (m : Nat) : Bool :=
  (List.range 8).all fun n => !bitOf m n || !bitOf w.tokUsed n || decide (w.tok.getD n 0 ≤ w.ctl)

/-- Whether the wait of a parked group is satisfied (R260). -/
def State.waitMet (s : State) (g : Group) : Bool :=
  let a := regGet g.parkArg 0
  let b := regGet g.parkArg 1
  match s.wg? g.wg with
  | none => false
  | some w =>
    match g.park with
    | 2 => (match w.bar? a.toNat with
      | some t => let d := (t.phase + 2 ^ 32 - b.toNat % 2 ^ 32) % 2 ^ 32; decide (1 ≤ d) && decide (d < 2 ^ 31)
      | none => false)
    | 4 => decide (b.toNat ≤ s.tlValue g a)
    | 5 => w.tokensDone a.toNat
    | 6 => decide (b.toNat % 2 ^ 32 ≤ mapGet w.semas (a.toNat % 64) 0)
    | _ => false

/-- Whether a wait's acquire is of DIE scope or wider (R260, R263, R264, R269, R274): all but one on MTL. -/
def Group.wideWait (g : Group) : Bool := !(g.park = 4 && (regGet g.parkArg 0).toNat % 8 = 1)

/-- A wait completes: the group goes on past its unit, and the L1 is emptied by a wide acquire. -/
def State.endWait (s : State) (k : Nat) (g : Group) : State :=
  (if g.wideWait then s.l1Clear g.core else s).setGrp k { g with park := 0, parkArg := [], pc := g.pc + 4 }

/-- Whether the group's workgroup is being saved. -/
def State.savingGrp (s : State) (g : Group) : Bool := match s.wg? g.wg with | some w => w.state = .saving | none => false

/-- Evaluate every parked wait again (R260), as a change of a record asks; a group that wakes during a save is saved runnable
(R73). -/
def State.syncWake (s : State) : State :=
  (mapKeys s.groups fun _ g => 2 ≤ g.park && g.park ≤ 6 && g.park ≠ 3).foldl (fun t k =>
    match t.grp? k with
    | some g => if (t.residentGrp g || t.savingGrp g) && t.waitMet g then t.endWait k g else t
    | none => t) s

/-- Whether an earlier access of the group holds a release of WGP scope back (R265). -/
def Group.accOpen (g : Group) : Bool := g.ops.any fun o => !o.performed && o.isAcc

/-- A unit that waits (R260): evaluated at issue; unmet, the group parks at the unit. -/
def waitUnit (u : Uop) (park : Nat) (arg : Group → List DWord) (pre : State → Nat → Group → Option Eff) (s : State) : Out :=
  issue { u with fp := true }
    (fun s k _ g _ =>
      match pre s k g with
      | some e => e
      | none =>
        let g2 := { g with park := park, parkArg := arg g }
        if s.waitMet g2 then .st (s.endWait k g2)
        else .st (s.setGrp k { g2 with parkTns := s.dev.tns })) s

/-- An ILL trap of a bad timeline selector (R261). -/
def selTrap (u : Uop) (g : Group) (a : DWord) : Eff := .trap (u.preciseTrap g 1 a)

/-- tlrd (R263): the value at issue; s[D] is pending until written back. -/
def execTlrd (d a : SReg) (s : State) : Out :=
  let u := { u25 8 d.val a.val 0 with sr := [a.val], sw := [d.val] }
  issue u
    (fun s k _ g g1 =>
      let sel := g.readS a.val
      if !s.selOk g sel then selTrap u g sel
      else
        let s1 := { s with nextId := s.nextId + 1 }.setGrp k (g1.addOp
          { id := s.nextId, unit := s.nextId, pc := g.pc, maj := 25, fn := 8, kind := .value, dst := [g.sDst d.val],
            result := BitVec.ofNat 64 (s.tlValue g sel) })
        .st (if sel.toNat % 8 = 1 then s1 else s1.l1Clear g.core)) s

/-- tlwait (R263). -/
def execTlwait (a b : SReg) (s : State) : Out :=
  let u := { u25 9 0 a.val b.val with sr := [a.val, b.val] }
  waitUnit u 4 (fun g => [g.readS a.val, g.readS b.val])
    (fun s _ g => if s.selOk g (g.readS a.val) then none else some (selTrap u g (g.readS a.val))) s

/-- waitk (R264). -/
def execWaitk (h l : Fin 16) (s : State) : Out :=
  waitUnit (u25 10 0 h.val l.val) 5 (fun _ => [BitVec.ofNat 64 (h.val * 16 + l.val)]) (fun _ _ _ => none) s

/-! ### The built-in barrier (R265, R266) -/

/-- A group arrives: it parks past the unit, and the phase completes when every group not ended has arrived. -/
def State.arrive (s : State) (k : Nat) (g g1 : Group) : State :=
  ((s.setGrp k { g1 with park := 1, parkTns := s.dev.tns }).modWg g.wg fun w =>
    { w with barArr := w.barArr ++ [g.idx] }).barCheck g.wg

/-- bar (R265): the arrival is a release of WGP scope. -/
def execBar (s : State) : Out :=
  issue { u25 5 0 0 0 with fp := true }
    (fun s k _ g g1 => if g.accOpen then .wait else .st (s.arrive k g g1)) s

/-- Whether a copy that the group issued still has to read WGM or the tile store, in any of its slices, those not supplied yet
included (R266). -/
def State.copyReads (s : State) (g : Group) : Bool :=
  match s.wg? g.wg with
  | none => false
  | some w => w.copies.any fun c => (c.slices.any fun l => l.grp = g.idx) && (!c.started || c.slices.any fun l =>
      !l.done && (bitsOf (regGet l.desc 0).toNat 52 2 = 1 || bitsOf (regGet l.desc 0).toNat 52 2 = 2 ||
        (l.fn = 1 && bitsOf (regGet l.desc 6).toNat 52 2 = 1)))

/-- bar.px (R266): also after the group's matrix steps and copies have finished reading. -/
def execBarPx (s : State) : Out :=
  issue { u25 5 0 0 1 with fp := true }
    (fun s k _ g g1 =>
      if g.accOpen || !g.mxq.isEmpty || s.copyReads g then .wait else .st (s.arrive k g g1)) s

/-! ### Transaction barriers (R267-R272) -/

/-- A BAR trap (R272). -/
def barTrap (u : Uop) (g : Group) (why : Nat) (a : DWord) : Trap :=
  { u.preciseTrap g 0x0B a with i := BitVec.ofNat 64 why }

/-- Transaction barriers held on a core. -/
def State.barsOn (s : State) (c : Nat) : Nat :=
  ((s.wgs.filter fun kv => kv.2.core = c && kv.2.state ≠ .waiting && kv.2.state ≠ .swapped).map fun kv => kv.2.bars.length).sum

/-- The lowest handle a workgroup does not hold. -/
def Workgroup.freeHandle (w : Workgroup) : Nat := ((List.range 64).find? fun h => (w.bar? h).isNone).getD 64

/-- Replace a barrier. -/
def Workgroup.setBar (w : Workgroup) (b : TxBar) : Workgroup :=
  { w with bars := w.bars.map fun x => if x.reg = b.reg then b else x }

/-- The barrier's phase completes when nothing is pending (R268). -/
def Workgroup.barDone (w : Workgroup) (b : TxBar) : Workgroup :=
  if b.pend = 0 ∧ b.tx = 0 ∧ (w.barvRel.any fun r => r.2.2 = b.aid) = false then
    w.setBar { b with phase := (b.phase + 1) % 2 ^ 32, pend := b.expa }
  else w.setBar b

/-- balloc (R269). -/
def execBalloc (d : SReg) (a : PReg) (b : SReg) (s : State) : Out :=
  let u := { u25 0 d.val a.val b.val with sr := [b.val], sw := [d.val], pw := [a.val] }
  issue u
    (fun s k _ g g1 =>
      let v := (g.readS b.val).toNat
      if 2 ^ 16 ≤ v ∨ v % 256 = 0 ∨ v / 256 = 0 then .trap (barTrap u g 6 (g.readS b.val))
      else match s.wg? g.wg with
        | none => .wait
        | some w =>
          if 64 ≤ w.bars.length ∨ 256 ≤ s.barsOn g.core then .grp ((g1.writeS d.val allOnes).writeP a.val 0)
          else
            let h := w.freeHandle
            let bar : TxBar := { reg := h, expa := v % 256, pend := v % 256, refs := v / 256, aid := w.acnt }
            .st ((s.setWg g.wg { w with bars := w.bars ++ [bar], acnt := (w.acnt + 1) % 65536 }).setGrp k
              ((g1.writeS d.val (BitVec.ofNat 64 h)).writeP a.val allOnes))) s

/-- Units that name a held barrier: BAR 1 otherwise. -/
def barUnit (u : Uop) (a : SReg) (f : State → Nat → Group → Group → Workgroup → TxBar → Eff) (s : State) : Out :=
  issue u
    (fun s k _ g g1 =>
      match s.wg? g.wg with
      | none => .wait
      | some w =>
        match (if (g.readS a.val).toNat < 64 then w.bar? (g.readS a.val).toNat else none) with
        | none => .trap (barTrap u g 1 (g.readS a.val))
        | some b => f s k g g1 w b) s

/-- Groups parked on a freed barrier are released and trap BAR 2 at their `barw` (R271). -/
def State.barFreed (s : State) (w h : Nat) : State :=
  (mapKeys s.groups fun _ g => g.wg = w && g.park = 2 && (regGet g.parkArg 0).toNat = h).foldl (fun t k =>
    match t.grp? k with
    | some g => t.takeTrap k g { cause := 0x0B, a := regGet g.parkArg 0, pc := g.pc, i := 2, resume := g.pc }
    | none => t) s

/-- bfree (R269, R271). -/
def execBfree (a : SReg) (s : State) : Out :=
  barUnit { u25 1 0 a.val 0 with sr := [a.val] } a
    (fun s k g g1 w b =>
      let s1 := s.setGrp k g1
      if b.refs ≤ 1 then
        .st ((s1.setWg g.wg { w with bars := w.bars.filter fun x => x.reg ≠ b.reg }).barFreed g.wg b.reg)
      else .st (s1.setWg g.wg (w.setBar { b with refs := b.refs - 1 }))) s

/-- barv (R269): PEND falls at issue; the arrival counts once its release is done. -/
def execBarv (d a : SReg) (s : State) : Out :=
  let u := { u25 2 d.val a.val 0 with sr := [a.val], sw := [d.val] }
  barUnit u a
    (fun s k g g1 w b =>
      if b.pend = 0 then .trap (barTrap u g 3 (g.readS a.val))
      else
        let o : Op := { id := s.nextId, unit := s.nextId, pc := g.pc, maj := 25, fn := 2, kind := .barvRel,
                        arg := [BitVec.ofNat 64 b.aid] }
        let g2 := (g1.writeS d.val (BitVec.ofNat 64 b.phase)).addOp o
        .st (({ s with nextId := s.nextId + 1 }.setGrp k g2).setWg g.wg
          { (w.setBar { b with pend := b.pend - 1 }) with barvRel := w.barvRel ++ [(k, o.id, b.aid)] })) s

/-- BARV_RELEASE_DONE (R268, R269): the group's earlier accesses have been performed; the arrival counts. -/
def execBarvReleaseDone (k op : Nat) (s : State) : Out :=
  .next (match s.grp? k with
    | none => s
    | some g =>
      match g.op? op with
      | none => s
      | some o =>
        if o.kind ≠ .barvRel || (g.before o).any Op.isAcc then s
        else
          let s1 := s.setGrp k (g.finishOp op)
          match s1.wg? g.wg with
          | none => s1
          | some w =>
            let w1 := { w with barvRel := w.barvRel.filter fun r => !(r.1 = k && r.2.1 = op) }
            (s1.setWg g.wg (match w1.bars.find? fun b => b.aid = (regGet o.arg 0).toNat with
              | some b => w1.barDone b
              | none => w1)).syncWake)

/-- barw (R269). -/
def execBarw (a b : SReg) (s : State) : Out :=
  let u := { u25 3 0 a.val b.val with sr := [a.val, b.val] }
  waitUnit u 2 (fun g => [g.readS a.val, g.readS b.val])
    (fun s _ g => match s.wg? g.wg with
      | some w => if (g.readS a.val).toNat < 64 ∧ (w.bar? (g.readS a.val).toNat).isSome then none
                  else some (.trap (barTrap u g 1 (g.readS a.val)))
      | none => some .wait) s

/-- Whether a transaction count is in TX's range (R268). -/
def txOk (v : Int) : Bool := decide (-(2 ^ 47 : Int) ≤ v) && decide (v < 2 ^ 47)

/-- barx (R269). -/
def execBarx (a b : SReg) (s : State) : Out :=
  let u := { u25 4 0 a.val b.val with sr := [a.val, b.val] }
  barUnit u a
    (fun s k g g1 w t =>
      let v := t.tx + (g.readS b.val).toInt
      if !txOk v then .trap (barTrap u g 4 (g.readS a.val))
      else .st (((s.setGrp k g1).setWg g.wg (w.barDone { t with tx := v })).syncWake)) s

/-! ### Semaphores (R273, R274) -/

/-- Semaphore registers in use on a core. -/
def State.semasOn (s : State) (c : Nat) : Nat :=
  ((s.wgs.filter fun kv => kv.2.core = c && kv.2.state ≠ .waiting && kv.2.state ≠ .swapped).map fun kv => kv.2.semas.length).sum

/-- Name semaphore n of a workgroup: it takes a register of the core at its first naming; none when none is free. -/
def State.nameSema (s : State) (w : Nat) (n : Nat) : Option State :=
  match s.wg? w with
  | none => none
  | some v =>
    if (mapGet? v.semas n).isSome then some s
    else if 64 ≤ s.semasOn v.core then none
    else some (s.setWg w { v with semas := mapSet v.semas n 0 })

/-- Change a semaphore's value and evaluate the waits on it. -/
def State.semaSet (s : State) (w n : Nat) (f : Nat → Nat) : State :=
  (s.modWg w fun v => { v with semas := mapSet v.semas n (f (mapGet v.semas n 0) % 2 ^ 32) }).syncWake

/-- sema.add and sema.set: a release of WGP scope, then the value changes. -/
def semaUnit (u : Uop) (a b : SReg) (f : Nat → Nat → Nat) (s : State) : Out :=
  issue { u with sr := [a.val, b.val] }
    (fun s k _ g g1 =>
      let n := (g.readS a.val).toNat % 64
      match s.nameSema g.wg n with
      | none => .wait
      | some s1 =>
        if g.accOpen then .wait
        else .st ((s1.setGrp k g1).semaSet g.wg n fun v => f v ((g.readS b.val).toNat % 2 ^ 32))) s

/-- sema.add. -/
def execSemaAdd (a b : SReg) (s : State) : Out := semaUnit (u25 6 0 a.val b.val) a b (· + ·) s
/-- sema.set. -/
def execSemaSet (a b : SReg) (s : State) : Out := semaUnit (u25 6 1 a.val b.val) a b (fun _ v => v) s

/-- semw (R273, R274). -/
def execSemw (a b : SReg) (s : State) : Out :=
  issue { u25 7 0 a.val b.val with sr := [a.val, b.val], fp := true }
    (fun s k _ g _ =>
      match s.nameSema g.wg ((g.readS a.val).toNat % 64) with
      | none => .wait
      | some s1 =>
        let g2 := { g with park := 6, parkArg := [g.readS a.val, g.readS b.val] }
        if s1.waitMet g2 then .st (s1.endWait k g2) else .st (s1.setGrp k { g2 with parkTns := s.dev.tns })) s

end Sys2Proof.Machine
end

