-- ==== Sys2Proof/Machine/CopyUnits.lean ====
section
/-! DEFINITION. Major 23 and the copy engine (R237-R256): the descriptor and its checks, supplying a slice, the moves of
each kind, version words, faults and completion. -/

namespace Sys2Proof.Machine

/-! ### The descriptor (R238) -/

/-- Bits of descriptor register n. -/
def CopySlice.fld (l : CopySlice) (n lo w : Nat) : Nat := bitsOf (regGet l.desc n).toNat lo w
/-- Source space. -/
def CopySlice.ssp (l : CopySlice) : Nat := l.fld 0 52 2
/-- Destination space. -/
def CopySlice.dsp (l : CopySlice) : Nat := l.fld 1 52 2
/-- SADDR. -/
def CopySlice.saddr (l : CopySlice) : Nat := l.fld 0 0 52
/-- DADDR. -/
def CopySlice.daddr (l : CopySlice) : Nat := l.fld 1 0 52
/-- RLEN. -/
def CopySlice.rlen (l : CopySlice) : Nat := l.fld 2 0 32
/-- ROWS. -/
def CopySlice.rows (l : CopySlice) : Nat := l.fld 2 32 32
/-- SPITCH. -/
def CopySlice.spitch (l : CopySlice) : Int := sextNat 40 (l.fld 4 0 40)
/-- DPITCH. -/
def CopySlice.dpitch (l : CopySlice) : Int := sextNat 40 (l.fld 5 0 40)
/-- NENT. -/
def CopySlice.nent (l : CopySlice) : Nat := l.fld 7 0 24
/-- Bytes of an element format (R213). -/
def efBytes (ef : Nat) : Nat := [1, 2, 4, 8, 16, 1, 2, 4, 2, 2, 1, 1, 1, 1, 1, 1].getD ef 1
/-- EF. -/
def CopySlice.ef (l : CopySlice) : Nat := l.fld 3 26 4
/-- DF. -/
def CopySlice.df (l : CopySlice) : Nat := l.fld 3 30 4
/-- AON. -/
def CopySlice.aon (l : CopySlice) : Bool := l.fld 3 0 1 = 1
/-- VER. -/
def CopySlice.verf (l : CopySlice) : Bool := l.fld 3 1 1 = 1
/-- BEN. -/
def CopySlice.ben (l : CopySlice) : Bool := l.fld 3 2 1 = 1
/-- SEN. -/
def CopySlice.sen (l : CopySlice) : Bool := l.fld 3 11 1 = 1
/-- SCL. -/
def CopySlice.scl (l : CopySlice) : Bool := l.fld 3 38 1 = 1
/-- Elements per row of a `cpyb` box: two in a byte of e2m1 (R247). -/
def CopySlice.nElem (l : CopySlice) : Nat := if l.ef = 13 then 2 * l.rlen else l.rlen / efBytes l.ef

/-- Greatest size of a space (R240); the object space ends where the windows begin (R22). -/
def spaceMax (sp : Nat) : Nat := [0xF000000000000, 524288, 2097152, 3145728].getD sp 0

/-- A number is a multiple of n. -/
def multOf (n : Nat) (v : Int) : Bool := v % (n : Int) = 0

/-- The fields of s[A + 3] that a kind may set: AON and VER, EF, DF RM SAT, SCL, AOP (R239, R244-R248). -/
def copyFlagsOk (l : CopySlice) : Bool :=
  let k := l.fn
  (k = 0 || l.fld 3 0 2 = 0) && !(l.aon && l.verf) &&
  (if k = 0 || k = 4 || k = 5 || k = 6 then l.ef = 0
   else if k = 1 then [5, 8, 9, 10, 11, 12, 13].contains l.ef
   else if k = 2 then l.ef ≤ 14 && l.ef ≠ 4 && l.ef ≠ 13
   else [5, 7, 8, 9, 10, 11, 12].contains l.ef) &&
  (if k = 3 then [5, 7, 8, 9, 10, 11, 12].contains l.df && 1 ≤ l.fld 3 34 3 && l.fld 3 34 3 ≤ 5
   else l.df = 0 && l.fld 3 34 4 = 0) &&
  (if k = 1 then (!l.scl || [10, 11, 13].contains l.ef) else !l.scl) &&
  (if k = 6 then l.fld 3 39 4 ≤ 4 else l.fld 3 39 4 = 0)

/-- The spaces a kind allows (R239). -/
def copySpacesOk (l : CopySlice) : Bool :=
  let s := l.ssp
  let d := l.dsp
  match l.fn with
  | 0 => s ≤ 2
  | 1 => s ≤ 1 && d = 3
  | 2 => s ≤ 2 && d ≤ 2
  | 3 => s ≤ 2 && d ≤ 2
  | 4 => s = 0 && d ≤ 2
  | 5 => s ≤ 2 && d = 0
  | _ => s ≤ 1 && d = 0

/-- The alignments and box rules of a kind (R245-R248). -/
def copyAlignOk (l : CopySlice) : Bool :=
  match l.fn with
  | 1 =>
    l.daddr % 65536 = 0 && decide ((l.rlen : Int) = l.dpitch) && l.rows * l.rlen ≤ 65536 &&
      (if l.scl then l.rows % 32 = 0 && l.rows / 32 * l.nElem ≤ 4096 && l.fld 6 52 2 ≤ 1 && l.fld 6 54 10 = 0 &&
        l.fld 6 0 52 < spaceMax (l.fld 6 52 2) && l.fld 7 40 24 = 0
       else regGet l.desc 6 = 0 && regGet l.desc 7 = 0)
  | 2 =>
    let es := efBytes l.ef
    l.rlen % es = 0 && l.saddr % es = 0 && l.daddr % es = 0 && multOf es l.spitch && multOf es l.dpitch
  | 3 =>
    let a := efBytes l.ef
    let b := efBytes l.df
    l.rlen % a = 0 && l.saddr % a = 0 && multOf a l.spitch && l.daddr % b = 0 && multOf b l.dpitch
  | 6 => l.rlen % 4 = 0 && l.saddr % 4 = 0 && l.daddr % 4 = 0 && multOf 4 l.spitch && multOf 4 l.dpitch
  | _ => true

/-- The checks of R240 on the values read. -/
def copyOk (l : CopySlice) : Bool :=
  let list := 4 ≤ l.fn
  let verw := l.fn = 0 && (l.aon || l.verf)
  l.fld 0 54 10 = 0 && l.fld 1 54 10 = 0 && l.fld 3 43 21 = 0 && l.fld 4 40 24 = 0 && l.fld 5 40 24 = 0 &&
  copyFlagsOk l && copySpacesOk l &&
  l.saddr < spaceMax l.ssp && l.daddr < spaceMax l.dsp &&
  (l.ben || l.fld 3 3 8 = 0) && (l.sen || l.fld 3 12 14 = 0) &&
  copyAlignOk l &&
  (!l.aon || l.rows * l.rlen ≤ 65536) &&
  (if l.fn = 1 then true
   else if list then (regGet l.desc 6).toNat % 8 = 0 && l.fld 7 24 40 = 0
   else if verw then (regGet l.desc 6).toNat % 8 = 0 && regGet l.desc 7 = 0
   else regGet l.desc 6 = 0 && regGet l.desc 7 = 0)

/-! ### Supplying a slice (R241-R243, R276) -/

/-- A unit of major 23 (R237). -/
def u23 (fn : Nat) (d a : SReg) (n : Fin 8) : Uop :=
  { maj := 23, cls := 1, base := wordA 23 d.val a.val n.val fn, hnd := true,
    sr := (List.range 8).map fun i => a.val + i, sw := [d.val] }

/-- Whether the group's accesses before a unit have been performed, so that its slice can be handed over (R243). -/
def Group.handable (g : Group) (opId : Nat) : Bool := !g.ops.any fun o => o.id < opId && !o.performed && o.isAcc

/-- The slice with what it finds when it is handed to the engine: the AID of its barrier (R270). -/
def CopySlice.hand (l : CopySlice) (w : Workgroup) : CopySlice :=
  { l with handed := true, aid := if l.ben then (w.bar? (l.fld 3 3 8)).map TxBar.aid else none }

/-- Put a slice into the workgroup's copy number k. -/
def Workgroup.addSlice (w : Workgroup) (k : Nat) (l : CopySlice) : Workgroup :=
  if w.copies.any fun c => c.num = k then
    { w with copies := w.copies.map fun c => if c.num = k then { c with slices := c.slices ++ [l] } else c }
  else { w with copies := w.copies ++ [{ num := k, slices := [l] }] }

/-- Whether every group of a workgroup that has not ended has supplied its slice of a copy (R241). -/
def State.supplied (s : State) (wk : Nat) (c : Copy) : Bool :=
  (s.groupsOf wk).all fun k => match s.grp? k with | some g => c.slices.any fun l => l.grp = g.idx | none => true

/-- Start copy k if it is supplied whole (R241): it takes its place in its engine's order (R242). -/
def State.startCopy (s : State) (wk k : Nat) : State :=
  match s.wg? wk with
  | none => s
  | some w =>
    match w.copies.find? fun c => c.num = k with
    | none => s
    | some c =>
      if c.started || !s.supplied wk c then s
      else
        let (n, s1) := s.fresh1
        s1.setWg wk { w with copies := w.copies.map fun x => if x.num = k then { x with started := true, seq := n, clu := w.clu } else x }

/-- A copy unit: the checks, then the slice of the group's next copy. -/
def copyUnit (fn : Nat) (d a : SReg) (n : Fin 8) (s : State) : Out :=
  let u := u23 fn d a n
  issue u
    (fun s k _ g g1 =>
      match s.wg? g.wg with
      | none => .wait
      | some w =>
        let num := g.cpn + 1
        let l : CopySlice := { grp := g.idx, fn := fn, tok := n.val, pc := g.pc, opId := s.nextId,
                               desc := (List.range 8).map fun i => g.readS (a.val + i) }
        if !(w.copies.any fun c => c.num = num) && 16 ≤ (w.copies.filter fun c => !c.done).length then .wait
        else if 2 ≤ (w.copies.filter fun c => c.num ≠ num && !c.started && !s.supplied g.wg c).length then .wait
        else if !copyOk l then .trap (u.preciseTrap g 1 0)
        else
          let sem := if l.sen then s.nameSema g.wg (l.fld 3 12 6) else some s
          match sem with
          | none => .wait
          | some s1 =>
            let w1 := (s1.wg? g.wg).getD w
            let l1 := if g.handable l.opId then l.hand w1 else l
            let w2 := { w1.addSlice num l1 with tok := w1.tok.set n.val (max (w1.tok.getD n.val 0) num),
                                                tokUsed := if bitOf w1.tokUsed n.val then w1.tokUsed else w1.tokUsed + 2 ^ n.val }
            .st ((({ s1 with nextId := s1.nextId + 1 }.setWg g.wg w2).setGrp k
              { (g1.writeS d.val (BitVec.ofNat 64 num)) with cpn := num }).startCopy g.wg num)) s

/-- cpy (R244). -/
def execCpy (d a : SReg) (n : Fin 8) (s : State) : Out := copyUnit 0 d a n s
/-- cpyb (R247). -/
def execCpyb (d a : SReg) (n : Fin 8) (s : State) : Out := copyUnit 1 d a n s
/-- cpyt (R245). -/
def execCpyt (d a : SReg) (n : Fin 8) (s : State) : Out := copyUnit 2 d a n s
/-- cpyx (R246). -/
def execCpyx (d a : SReg) (n : Fin 8) (s : State) : Out := copyUnit 3 d a n s
/-- gath (R248). -/
def execGath (d a : SReg) (n : Fin 8) (s : State) : Out := copyUnit 4 d a n s
/-- scat (R248). -/
def execScat (d a : SReg) (n : Fin 8) (s : State) : Out := copyUnit 5 d a n s
/-- scata (R248). -/
def execScata (d a : SReg) (n : Fin 8) (s : State) : Out := copyUnit 6 d a n s

/-! ### Bytes of the engine's spaces -/

/-- What reaching bytes of a space answers. -/
inductive CRes (α : Type) where
  | ok (v : α)
  | fault (cause : Nat) (a i : DWord)
  /-- Held: a service opened, a request sent, or nothing. -/
  | hold (s : State)

/-- TRAPA of a copy fault: the VA, or the address with its space (R254). -/
def copyTrapA (sp a : Nat) : DWord := BitVec.ofNat 64 (a + sp * 2 ^ 52)

/-- TRAPI of a copy fault (R221, R254). -/
def copyTrapI (wr : Bool) (why obj : Nat) : DWord := BitVec.ofNat 64 ((if wr then 64 else 0) + why * 512 + obj * 65536)

/-- The size of a space of a workgroup (R238). -/
def Workgroup.spaceSize (w : Workgroup) (sp : Nat) : Nat :=
  match sp with
  | 1 => w.wgmw * Config.wayBytes
  | 2 => w.tsrows * 2048
  | 4 => w.bslots * 131072
  | _ => w.bslots * 65536

/-- Where `n` bytes at an address of a space are: device or remote places in object space, else the address. An address
of object space with a bit above 51 set is no VA (R22, R221). -/
def State.cplaces (s : State) (who : Party) (w : Workgroup) (sp : Nat) (a : Int) (n need : Nat) (wr whole : Bool) : CRes (List Place) :=
  let va := (a % 2 ^ 52).toNat
  if sp = 0 then
    let x : Xl := { u := w.core, ctx := w.ctx, sys := s.sysCtx w.ctx }
    let one (v m : Nat) : XR := s.xlate x need wr false v m
    let rs := if whole then [(va, one va n)] else (List.range n).map fun i => (va + i, one (va + i) 1)
    if a < 0 ∨ 2 ^ 52 ≤ a then .fault 5 (BitVec.ofInt 64 a) (copyTrapI wr 1 0)
    else match rs.find? fun p => match p.2 with | .fault .. => true | _ => false with
    | some (v, .fault c why ob) => .fault c (BitVec.ofNat 64 v) (copyTrapI wr why ob)
    | _ =>
      match rs.find? fun p => match p.2 with | .miss .. => true | .hold .. => true | _ => false with
      | some (_, .miss ob sub v) => .hold (s.parkOn who w.ctx ob sub 3 wr w.clu v)
      | some _ => .hold s
      | none =>
        let ps := rs.flatMap fun p => match p.2 with | .ok ps => ps | _ => []
        if (ps.all fun p => match p with
            | .da d => (if wr then s.writeRoom (d / 128) else s.lineFree (d / 128)) && s.linesRouted (w.clu / 4) [d / 128]
            | _ => true) then .ok ps
        else .hold s
  else if a < 0 ∨ (w.spaceSize sp : Int) < a + n then
    let bad := if a < 0 then va else (max a (w.spaceSize sp)).toNat
    .fault 7 (copyTrapA sp bad) (copyTrapI wr 1 0)
  else .ok ((List.range n).map fun i => .wgm (va + i))

/-- Read bytes of a space at their places; remote ones come from the response. -/
def State.cread (s : State) (w : Workgroup) (sp : Nat) (ps : List Place) (resp : List Byte) : List Byte :=
  ps.zipIdx.map fun p =>
    match p.1 with
    | .da d => s.rdByte d
    | .wgm o =>
      (match sp with
       | 1 => memRead w.wgm o
       | 2 => ((mapGet w.tiles (o / 2048 * 512 + o % 2048 / 4) 0) >>> (8 * (o % 4))).setWidth 8
       | _ => memRead w.bst (o / 65536 * 2 ^ 17 + o % 65536))
    | .gone => 0
    | .remote .. => resp.getD p.2 0

/-- Write one byte of a workgroup's space. -/
def Workgroup.cwrite (w : Workgroup) (sp o : Nat) (b : Byte) : Workgroup :=
  match sp with
  | 1 => { w with wgm := memWrite w.wgm o b }
  | 2 =>
    let k := o / 2048 * 512 + o % 2048 / 4
    let v := mapGet w.tiles k 0
    let sh := 8 * (o % 4)
    let nv : Word := (v &&& ~~~ ((0xFF : Word) <<< sh)) ||| ((b.setWidth 32) <<< sh)
    { w with tiles := if nv = 0 then mapDel w.tiles k else mapSet w.tiles k nv }
  | 3 => { w with bst := memWrite w.bst (o / 65536 * 2 ^ 17 + o % 65536) b }
  | _ => { w with bst := memWrite w.bst o b }

/-- Write bytes of a space at their places (R244, R308: a copy write is performed at the home), a run of bytes at once. -/
def State.cwrite (s : State) (wk sp : Nat) (ps : List Place) (bs : List Byte) : State :=
  let s1 := (daRuns (ps.zip bs)).foldl (fun t p => t.homeWrite none p.1 p.2) s
  s1.modWg wk fun w => (ps.zip bs).foldl (fun v p => match p.1 with | .wgm o => v.cwrite sp o p.2 | _ => v) w

/-! ### The moves of a slice: the source is read in order, aligned word by aligned word, and each move writes what of an
aligned destination word its row gives (R244) -/

/-- Bytes that a slice reads from its source, row by row. -/
def CopySlice.total (l : CopySlice) : Nat :=
  match l.fn with
  | 1 => l.rows * l.rlen + if l.scl then l.rows / 32 * l.nElem else 0
  | 4 => l.nent * l.rows * l.rlen
  | 5 => l.nent * l.rows * l.rlen
  | 6 => l.nent * l.rows * l.rlen
  | _ => l.rows * l.rlen

/-- Whether source byte k is a scale of `cpyb`. -/
def CopySlice.isScale (l : CopySlice) (k : Nat) : Bool := l.fn = 1 && l.rows * l.rlen ≤ k

/-- Bytes of a destination row of `cpyt`: one element of each source row (R245). -/
def CopySlice.tRow (l : CopySlice) : Nat := l.rows * efBytes l.ef

/-- Byte k of what a slice moves: its space, its address at the source, and how many bytes follow it there; `x`, `y` are the entry
of a `gath` (R248). `cpyt` moves destination row by destination row (DESIGN CHOICE, LE 68). -/
def CopySlice.srcAt (l : CopySlice) (k x y : Nat) : Nat × Int × Nat :=
  if l.isScale k then
    let j := k - l.rows * l.rlen
    let n := l.nElem
    (l.fld 6 52 2, (l.fld 6 0 52 : Int) + (j / n : Nat) * sextNat 40 (l.fld 7 0 40) + (j % n : Nat), n - j % n)
  else if l.fn = 2 then
    let es := efBytes l.ef
    let b := k % l.tRow
    (l.ssp, (l.saddr : Int) + (b / es : Nat) * l.spitch + (k / l.tRow * es + b % es : Nat), es - b % es)
  else
    let b := k % l.rlen
    let row := if l.fn = 4 then y + k / l.rlen % l.rows else k / l.rlen
    (l.ssp, (l.saddr : Int) + (row : Nat) * l.spitch + ((if l.fn = 4 then x else 0) + b : Nat), l.rlen - b)

/-- Whether byte k of what a slice moves is the first of a row at its source. -/
def CopySlice.srcFirst (l : CopySlice) (k : Nat) : Bool := if l.fn = 2 then k < l.tRow && k % efBytes l.ef = 0 else k % max 1 l.rlen = 0

/-- Whether it is the first of a row at its destination. -/
def CopySlice.dstFirst (l : CopySlice) (k : Nat) : Bool := if l.fn = 2 then k % max 1 l.tRow = 0 else k % max 1 l.rlen = 0

/-- A move: how many source bytes it takes, and its destination's space, address and bytes. -/
structure Move where
  n : Nat
  ds : Nat
  da : Int
  dn : Nat
deriving DecidableEq, Repr

/-- Bytes left of the aligned word at an address. -/
def wordRest (a : Int) : Nat := (4 - a % 4).toNat

/-- The move at byte k of what a slice moves, given the list entry it belongs to (R244-R248): the bytes of one aligned word of the
destination, so that a word is written whole (R253). A `cpyt` goes on by rows of its destination, which are the rows that a fault
leaves written (R254; DESIGN CHOICE, LE 68). -/
def CopySlice.move (l : CopySlice) (k x y : Nat) : Move :=
  let rw := k / l.rlen
  let b := k % l.rlen
  let upTo (ds : Nat) (da : Int) (rest : Nat) : Move := let n := min (wordRest da) rest; { n := n, ds := ds, da := da, dn := n }
  if l.isScale k then
    let j := k - l.rows * l.rlen
    upTo 4 (l.daddr / 65536 * 2 ^ 17 + 65536 + j : Nat) (l.total - k)
  else match l.fn with
    | 2 =>
      upTo l.dsp (l.daddr + (k / l.tRow : Nat) * l.dpitch + (k % l.tRow : Nat)) (l.tRow - k % l.tRow)
    | 3 =>
      let a := efBytes l.ef
      let d := efBytes l.df
      let da : Int := l.daddr + rw * l.dpitch + (b / a * d : Nat)
      let m := min (wordRest da / d) ((l.rlen - b) / a)
      { n := m * a, ds := l.dsp, da := da, dn := m * d }
    | 5 => upTo l.dsp (l.daddr + (y + rw % l.rows : Nat) * l.dpitch + (x + b : Nat)) (l.rlen - b)
    | 6 => upTo l.dsp (l.daddr + (y + rw % l.rows : Nat) * l.dpitch + (x + b : Nat)) (l.rlen - b)
    | _ => upTo l.dsp (l.daddr + rw * l.dpitch + b) (l.rlen - b)

/-- A number of `cpyx`'s source format as a value (R173, R246). -/
def copyVal (ef b : Nat) : FVal :=
  match ef with
  | 5 => widenVal 4 b
  | 7 => fp32.unpack b
  | 8 => fp16.unpack b
  | 9 => bf16.unpack b
  | 10 => widenVal 0 b
  | 11 => widenVal 1 b
  | _ => widenVal 2 b

/-- An element converted by `cpyx` (R246). -/
def copyConv (l : CopySlice) (b : Nat) : Nat :=
  let rm : Rnd := { rm := l.fld 3 34 3 }
  let sat := l.fld 3 37 1 = 1
  let x := (copyVal l.ef b).ex
  match l.df with
  | 5 => (narrow 4 rm sat x).1
  | 7 => (fp32.round rm false x).1
  | 8 => (fp16.round rm false x).1
  | 9 => (bf16.round rm false x).1
  | 10 => (narrow 0 rm sat x).1
  | 11 => (narrow 1 rm sat x).1
  | _ => (narrow 2 rm sat x).1

/-- The reduction of AOP, as `red` numbers it (R248, R314). -/
def aopRed (aop : Nat) : Nat := [0, 9, 12, 2, 3].getD aop 0

/-- Change slice `c`, `i` of a workgroup. -/
def State.modSlice (s : State) (wk c i : Nat) (f : CopySlice → CopySlice) : State :=
  s.modWg wk fun w => { w with copies := w.copies.map fun x =>
    if x.num = c then { x with slices := x.slices.mapIdx fun j l => if j = i then f l else l } else x }

/-- Slice i of copy c of a workgroup. -/
def Workgroup.slice? (w : Workgroup) (c i : Nat) : Option CopySlice :=
  match w.copies.find? fun x => x.num = c with
  | some x => x.slices[i]?
  | none => none

/-- Whether places need a response before they can be read. -/
def needsResp (ps : List Place) : Bool := ps.any fun p => match p with | .remote .. => true | _ => false

/-- A request of a copy for remote bytes (R15, R230): a read, or a write of given bytes; its name. -/
def State.copyReq (s : State) (w : Workgroup) (type op : Nat) (ps : List Place) (bs : List Byte) : Nat × State :=
  match (remRuns 0 ps).head? with
  | some r => s.runReq w.ctx (2 ^ 15 + w.clu) type op r bs
  | none => (0, s)

/-- The outcome of a piece of engine work. -/
inductive Run where
  | go (s : State)
  | fault (s : State) (cause : Nat) (a i : DWord)
  | hold (s : State)

/-- Energy of reaching the places of a move (R412): a device memory line is charged at its first byte of each row. -/
def lineEnergy (ps : List Place) (first : Bool) : Nat :=
  match ps.head? with
  | some (.da d) => if first || d % 128 < ps.length then 110000 else 0
  | _ => 0

/-- An unfinished slice of a copy that has started, whose slices have all been handed over, that waits for no service (R226) and is
among the 64 its engine performs (R242, R243), with its workgroup as its engine's cluster sees it. -/
def State.work? (s : State) (wk c i : Nat) : Option (Workgroup × CopySlice) :=
  match s.wg? wk with
  | none => none
  | some w =>
    match w.copies.find? fun x => x.num = c with
    | none => none
    | some cp =>
      match cp.slices[i]? with
      | none => none
      | some l =>
        let ahead := (s.wgs.map fun kv => (kv.2.copies.filter fun x => x.started && !x.done && x.clu = cp.clu && x.seq < cp.seq).length).sum
        if cp.started && cp.slices.all CopySlice.handed && !l.done && ahead < 64 && !s.waits (.slice wk c i) then some ({ w with clu := cp.clu, core := 4 * cp.clu }, l) else none

/-- Read bytes at places whose requests go out from VA `va`: what is there, or nothing while a remote read is under way. -/
def State.readFor (s : State) (wk : Nat) (w : Workgroup) (c i : Nat) (l : CopySlice) (sp va : Nat) (ps : List Place) :
    Option (List Byte) × State :=
  if !needsResp ps then (some (s.cread w sp ps []), s)
  else match l.rdata with
    | some d => (some (s.cread w sp ps d), s.modSlice wk c i fun x => { x with rdata := none, rwait := none })
    | none =>
      if l.rwait.isSome then (none, s)
      else
        let (id, s1) := s.copyReq w 0 0 ps []
        (none, s1.modSlice wk c i fun x => { x with rwait := some id, rva := va })

/-- The entry of a list kind that source byte k belongs to: read once, as a DEV-scope load (R248); (0, 0) for the other
kinds. -/
def State.listEntry (s : State) (wk : Nat) (w : Workgroup) (c i : Nat) (l : CopySlice) (k : Nat) : CRes (State × Nat × Nat) :=
  let e := k / (l.rows * l.rlen)
  let known := match l.ent with | some (e', x, y) => if e' = e then some (x, y) else none | none => none
  let a : Int := (l.fld 6 0 64 : Int) + (8 * e : Nat)
  if l.fn < 4 then .ok (s, 0, 0)
  else match known with
    | some (x, y) => .ok (s, x, y)
    | none =>
      match s.cplaces (.slice wk c i) w 0 a 8 1 false false with
      | .fault cs a t => .fault cs a t
      | .hold s1 => .hold s1
      | .ok ps =>
        match s.readFor wk w c i l 0 a.toNat ps with
        | (none, s1) => .hold s1
        | (some bs, s1) =>
          let v := leNat bs
          .ok (s1.modSlice wk c i fun z => { z with ent := some (e, v / 2 ^ 32, v % 2 ^ 32) }, v / 2 ^ 32, v % 2 ^ 32)

/-- Read source bytes of a slice, an aligned word at a time, until `n` bytes are staged. -/
def State.fillStage (wk c i n : Nat) : Nat → State → Run
  | 0, s => .go s
  | fuel + 1, s =>
    match s.work? wk c i with
    | none => .hold s
    | some (w, l) =>
      let k := l.pos + l.stage.length
      if n ≤ l.stage.length then .go s
      else
        let (_, x, y) := l.ent.getD (0, 0, 0)
        let (sp, a, rest) := l.srcAt k x y
        let m := min (wordRest a) rest
        match s.cplaces (.slice wk c i) w sp a m 1 false false with
        | .fault cs b t => .fault s cs b t
        | .hold s1 => .hold s1
        | .ok ps =>
          match s.readFor wk w c i l sp (a % 2 ^ 52).toNat ps with
          | (none, s1) => .hold s1
          | (some bs, s1) =>
            State.fillStage wk c i n fuel ((s1.energy w.ctx (lineEnergy ps (l.srcFirst k))).modSlice wk c i fun z =>
              { z with stage := z.stage ++ bs })

/-- The bytes a move writes from the bytes it takes: converted by `cpyx` (R246). -/
def CopySlice.outBytes (l : CopySlice) (bs : List Byte) : List Byte :=
  if l.fn ≠ 3 then bs
  else
    let a := efBytes l.ef
    (List.range (bs.length / a)).flatMap fun e => leBytes (efBytes l.df) (copyConv l (leNat ((bs.drop (a * e)).take a)))

/-- Write the bytes of a move at its places: a reduction for `scata`, a request for remote bytes (R244, R248). -/
def State.putMove (s : State) (wk : Nat) (w : Workgroup) (c i : Nat) (l : CopySlice) (ds va : Nat) (qs : List Place)
    (out : List Byte) : State :=
  let aop := aopRed (l.fld 3 39 4)
  if needsResp qs then
    let (id, s1) := s.copyReq w (if l.fn = 6 then 3 else 1) aop qs out
    s1.modSlice wk c i fun x => { x with racks := x.racks ++ [(id, va)] }
  else if l.fn = 6 then
    match qs.head? with
    | some (.da d) =>
      let s1 := s.recall (d / 128) none
      let old : Word := BitVec.ofNat 32 (s1.rdNat d 4)
      s1.homeWrite none d (leBytes 4 (redOp aop old (BitVec.ofNat 32 (leNat out))).toNat)
    | _ => s
  else s.cwrite wk ds qs out

/-- Perform the next move of slice (c, i): its entry and source bytes read, its destination translated and written. -/
def State.doMove (s : State) (wk c i : Nat) : Run :=
  match s.work? wk c i with
  | none => .hold s
  | some (w, l) =>
    match s.listEntry wk w c i l l.pos with
    | .fault cs a t => .fault s cs a t
    | .hold t => .hold t
    | .ok (s1, x, y) =>
      let m := l.move l.pos x y
      if l.fn = 6 ∧ x % 4 ≠ 0 then .fault s1 4 (BitVec.ofNat 64 (m.da % 2 ^ 52).toNat) (BitVec.ofNat 64 (l.pos / (l.rows * l.rlen)))
      else match State.fillStage wk c i m.n m.n s1 with
        | .fault t cs a x => .fault t cs a x
        | .hold t => .hold t
        | .go t =>
          match t.work? wk c i, t.cplaces (.slice wk c i) w m.ds m.da m.dn (if l.fn = 6 then 10 else 2) true (l.fn = 6) with
          | none, _ => .hold t
          | _, .fault cs a x => .fault t cs a x
          | _, .hold u => .hold u
          | some (_, l1), .ok qs =>
            let out := l1.outBytes (l1.stage.take m.n)
            let t1 := (t.energy w.ctx (400 * m.dn + lineEnergy qs (l.dstFirst l.pos))).putMove wk w c i l1 m.ds
              (m.da % 2 ^ 52).toNat qs out
            .go (t1.modSlice wk c i fun z => { z with pos := z.pos + m.n, stage := z.stage.drop m.n })

/-- Perform moves from the slice's position on, while they go (R244-R248, R254). -/
def State.runMoves (wk c i : Nat) : Nat → State → Run
  | 0, s => .go s
  | fuel + 1, s =>
    match s.work? wk c i with
    | none => .hold s
    | some (_, l) =>
      if l.total ≤ l.pos then .go s
      else match s.doMove wk c i with
        | .go t => State.runMoves wk c i fuel t
        | r => r

/-! ### Completion and faults (R252, R254, R270) -/

/-- Record a deferred fault for group `idx` of a workgroup, if it has not ended. -/
def State.faultGroup (s : State) (wk idx : Nat) (f : PFault) : State :=
  match s.grp? (gkey wk idx) with
  | some g => s.recordFault (gkey wk idx) g f
  | none => s

/-- A deferred BAR trap of a copy goes to the lowest group that has not ended, or becomes a context fault (R270). Its TRAPPC is the
PC of the slice whose completion raises it (R272; DESIGN CHOICE, LE 80). -/
def State.copyBar (s : State) (wk : Nat) (w : Workgroup) (l : CopySlice) (why bh : Nat) : State :=
  let t : Trap := { cause := 0x0B, deferred := true, a := BitVec.ofNat 64 bh, pc := l.pc, i := BitVec.ofNat 64 why }
  match (s.groupsOf wk).head? with
  | some k => (match s.grp? k with
    | some g => s.recordFault k g { id := l.opId, trap := t, targets := [] }
    | none => s)
  | none =>
    match (s.ctx w.ctx).stop with
    | .running => (s.dropWork w.ctx).modCtx w.ctx fun c => { c with stop := .faulted s.dev.tns t w.wgid 0 false }
    | _ => s

/-- The slice that supplies BEN, BH, SEN, SEM and SEMV: the lowest group index (R241). -/
def Copy.lead (c : Copy) : Option CopySlice :=
  c.slices.foldl (fun best l => match best with
    | some b => if l.grp < b.grp then some l else some b
    | none => some l) none

/-- Planned bytes of a slice (R252). -/
def CopySlice.planned (l : CopySlice) : Nat := if l.fn = 3 then l.total / efBytes l.ef * efBytes l.df else l.total

/-- The tag that a `cpyb` slice leaves in its slot (R280). -/
def Workgroup.tagSlot (w : Workgroup) (l : CopySlice) : Workgroup :=
  if l.fn = 1 then { w with btag := mapSet w.btag (l.daddr / 65536) (l.ef + if l.scl then 16 else 0) } else w

/-- A slice has completed: its slot is tagged, and its planned bytes leave its barrier's pending bytes (R252, R270,
R280). -/
def State.sliceDone (s : State) (wk c i : Nat) : State :=
  let s := s.pull wk
  let s0 := match (s.wg? wk).bind fun w => w.slice? c i with
    | some l => s.modWg wk fun w => w.tagSlot l
    | none => s
  let s1 := s0.modSlice wk c i fun l => { l with done := true, stage := [], dst := [], vps := [] }
  match s1.wg? wk with
  | none => s1
  | some w =>
    match w.copies.find? fun x => x.num = c with
    | none => s1
    | some cp =>
      match cp.lead, cp.slices[i]? with
      | some ld, some l =>
        if !ld.ben then s1
        else
          let bh := ld.fld 3 3 8
          match (match ld.aid with | some a => w.bars.find? (fun (b : TxBar) => b.aid = a) | none => (none : Option TxBar)) with
          | none => (s1.applied wk).copyBar wk w l 5 bh
          | some b =>
            let v := b.tx - (l.planned : Int)
            if !txOk v then s1.copyBar wk w l 4 bh
            else ((s1.setWg wk (w.barDone { b with tx := v })).applied wk).syncWake
      | _, _ => s1

/-- A slice ends with a fault, reported to the group that supplied it (R254). -/
def State.sliceFault (s : State) (wk c i : Nat) (l : CopySlice) (cause : Nat) (a t : DWord) : State :=
  (s.sliceDone wk c i).faultGroup wk l.grp
    { id := l.opId, targets := [], trap := { cause := cause, deferred := true, a := a, pc := l.pc, i := t } }

/-- The 8-byte version word of a slice (R250, R251): its places. -/
def State.verPlaces (s : State) (who : Party) (w : Workgroup) (l : CopySlice) : CRes (List Place) :=
  s.cplaces who w 0 (l.fld 6 0 64 : Int) 8 (if l.aon then 11 else 1) l.aon false

/-- The version word read at its places; nothing while a remote read is under way. -/
def State.readVer (s : State) (wk : Nat) (w : Workgroup) (c i : Nat) (l : CopySlice) (ps : List Place) : Option Nat × State :=
  let (r, s1) := s.readFor wk w c i l 0 (l.fld 6 0 52) ps
  (r.map leNat, s1)

/-- Write a version word at its places. -/
def State.setVer (s : State) (wk : Nat) (w : Workgroup) (c i : Nat) (l : CopySlice) (ps : List Place) (v : Nat) : State :=
  s.putMove wk w c i { l with fn := 0 } 0 (l.fld 6 0 52) ps (leBytes 8 v)

/-- The destinations of a slice's moves from source byte k on, all translated; no fault or hold performs any (R250
step 1). -/
def State.destsFrom (s : State) (who : Party) (w : Workgroup) (l : CopySlice) : Nat → Nat → CRes (List Place)
  | 0, _ => .ok []
  | fuel + 1, k =>
    if l.total ≤ k then .ok []
    else
      let m := l.move k 0 0
      match s.cplaces who w m.ds m.da m.dn 2 true false with
      | .fault c a t => .fault c a t
      | .hold t => .hold t
      | .ok ps => match s.destsFrom who w l fuel (k + m.n) with
        | .ok qs => .ok (ps ++ qs)
        | r => r

/-- The first fault or hold of the translations of a slice's source bytes from k on, without reading any. -/
def State.srcsFrom (s : State) (who : Party) (w : Workgroup) (l : CopySlice) : Nat → Nat → CRes Unit
  | 0, _ => .ok ()
  | fuel + 1, k =>
    if l.total ≤ k then .ok ()
    else
      let (sp, a, rest) := l.srcAt k 0 0
      let n := min (wordRest a) rest
      match s.cplaces who w sp a n 1 false false with
      | .fault c a t => .fault c a t
      | .hold t => .hold t
      | .ok _ => s.srcsFrom who w l fuel (k + n)

/-- Write the staged data of an all-or-nothing slice at the destinations translated in its first step (R250 step 4). -/
def State.writeStaged (wk : Nat) (w : Workgroup) (c i : Nat) (l : CopySlice) : Nat → Nat → List Place → List Byte → State → State
  | 0, _, _, _, s => s
  | fuel + 1, k, ps, bs, s =>
    if l.total ≤ k then s
    else
      let m := l.move k 0 0
      State.writeStaged wk w c i l fuel (k + m.n) (ps.drop m.dn) (bs.drop m.n)
        (s.putMove wk w c i l m.ds (m.da % 2 ^ 52).toNat (ps.take m.dn) (bs.take m.n))

/-- The version is the slice's, `v` its even value: the data are written (R250 steps 3 and 4). -/
def State.aonWrite (s : State) (wk : Nat) (w : Workgroup) (c i : Nat) (l : CopySlice) (v : Nat) : State :=
  (State.writeStaged wk w c i l l.total 0 l.dst l.stage s).modSlice wk c i fun z =>
    { z with ver := some v, pos := l.total, stage := [] }

/-- Bytes of an engine's staging store in use (R250). -/
def State.stagedOn (s : State) (clu : Nat) : Nat :=
  (s.wgs.map fun kv => (kv.2.copies.map fun c => if c.started && c.clu = clu then
    (c.slices.map fun l => if l.fn = 0 && l.aon && !l.stage.isEmpty then l.total else 0).sum else 0).sum).sum

/-- The peers of a slice's remote destinations are asked to translate them, `ds` its destinations in order (R250 step 1). -/
def State.askDests (s : State) (wk : Nat) (w : Workgroup) (c i : Nat) (l : CopySlice) (ds : List Place) : State :=
  (remRuns 0 ds).foldl (fun t r =>
    let (id, t1) := t.runReq w.ctx (2 ^ 15 + w.clu) 1 1 r []
    let va := (l.daddr : Int) + (r.idx / max 1 l.rlen : Nat) * l.dpitch + (r.idx % max 1 l.rlen : Nat)
    t1.modSlice wk c i fun z => { z with racks := z.racks ++ [(id, (va % 2 ^ 52).toNat)] })
    (s.modSlice wk c i fun z => { z with asked := true })

/-- AON_VERSION_ACQUIRE (R250): everything translated, the box read into the staging store, then the version word, once
even, made odd in one step and the data written. Remote destinations are translated at their peers first. A remote version
word is taken by an atomic `or` of its low bit. A slice of no bytes takes and raises its version word too (DESIGN CHOICE, LE 81). -/
def execAonVersionAcquire (wk c i : Nat) (s : State) : Out :=
  .next (match s.work? wk c i with
    | none => s
    | some (w, l) =>
      if l.fn ≠ 0 || !l.aon || l.ver.isSome then s
      else if l.vps.isEmpty then
        (match s.srcsFrom (.slice wk c i) w l l.total 0, s.destsFrom (.slice wk c i) w l l.total 0, s.verPlaces (.slice wk c i) w l with
         | .fault cs a x, _, _ => s.sliceFault wk c i l cs a x
         | .hold t, _, _ => t
         | _, .fault cs a x, _ => s.sliceFault wk c i l cs a x
         | _, .hold t, _ => t
         | _, _, .fault cs a x => s.sliceFault wk c i l cs a x
         | _, _, .hold t => t
         | .ok _, .ok ds, .ok ps =>
           if !l.asked && needsResp ds then s.askDests wk w c i l ds
           else if !l.racks.isEmpty || (l.stage.isEmpty && 2 ^ 20 < s.stagedOn w.clu + l.total) then s
           else match State.fillStage wk c i l.total l.total s with
           | .fault t cs a x => t.sliceFault wk c i l cs a x
           | .hold t => t
           | .go t => t.modSlice wk c i fun z => { z with dst := ds, vps := ps })
      else if !needsResp l.vps then
        (if !(l.vps.all fun p => match p with | .da d => s.writeRoom (d / 128) | _ => true) then s
         else
           let v := leNat (s.cread w 0 l.vps [])
           if v % 2 = 1 then s else (s.setVer wk w c i l l.vps ((v + 1) % 2 ^ 64)).aonWrite wk w c i l v)
      else if !l.vlow then
        (match l.rdata with
         | some d => s.modSlice wk c i fun z => { z with rdata := none, rwait := none, vlow := leNat (d.take 1) % 2 = 0 }
         | none =>
           if l.rwait.isSome then s
           else
             let (id, s1) := s.copyReq w 2 7 (l.vps.take 4) (leBytes 8 1)
             s1.modSlice wk c i fun z => { z with rwait := some id, rva := l.fld 6 0 52 })
      else match s.readVer wk w c i l l.vps with
        | (some v, s1) => s1.aonWrite wk w c i l (v - 1)
        | (none, s1) => s1)

/-- VER_PASS_END (R251): a pass begins with an even version word and copies the box; at its end the word is read again,
and the pass is repeated on a mismatch. -/
def execVerPassEnd (wk c i : Nat) (s : State) : Out :=
  .next (match s.work? wk c i with
    | none => s
    | some (w, l) =>
      if l.fn ≠ 0 || !l.verf || l.passed then s
      else match l.ver with
        | none =>
          (match s.verPlaces (.slice wk c i) w l with
           | .fault cs a x => s.sliceFault wk c i l cs a x
           | .hold t => t
           | .ok ps => match s.readVer wk w c i l ps with
             | (some v, t) => if v % 2 = 1 then t else t.modSlice wk c i fun x => { x with ver := some v, pos := 0, stage := [] }
             | (none, t) => t)
        | some v1 =>
          match State.runMoves wk c i l.total s with
          | .fault t cs a x => t.sliceFault wk c i l cs a x
          | .hold t => t
          | .go t =>
            match t.work? wk c i with
            | none => t
            | some (w', l') =>
              match t.verPlaces (.slice wk c i) w' l' with
              | .fault cs a x => t.sliceFault wk c i l cs a x
              | .hold t' => t'
              | .ok ps => match t.readVer wk w' c i l' ps with
                | (some v2, t') => t'.modSlice wk c i fun x => if v1 = v2 then { x with passed := true } else { x with ver := none }
                | (none, t') => t')

/-- COPY_SLICE_COMPLETE (R252): the slice's moves are performed and it completes, or ends with its fault; it waits at a
miss, at a move and for remote acknowledgments. An all-or-nothing slice completes once its version word is even again. -/
def execCopySliceComplete (wk c i : Nat) (s : State) : Out :=
  .next (match s.work? wk c i with
    | none => s
    | some (w, l) =>
      if l.fn = 0 && l.aon then
        (match l.ver with
         | none => s
         | some v =>
           if !l.racks.isEmpty then s
           else if l.fin then s.sliceDone wk c i
           else if !(l.vps.all fun p => match p with | .da d => s.writeRoom (d / 128) | _ => true) then s
           else
             let s1 := (s.setVer wk w c i l l.vps ((v + 2) % 2 ^ 64)).modSlice wk c i fun z => { z with fin := true }
             if needsResp l.vps then s1 else s1.sliceDone wk c i)
      else if l.fn = 0 && l.verf then (if l.passed && l.racks.isEmpty then s.sliceDone wk c i else s)
      else match State.runMoves wk c i l.total s with
        | .fault t cs a x => t.sliceFault wk c i l cs a x
        | .hold t => t
        | .go t =>
          match t.work? wk c i with
          | some (_, l') => if l'.racks.isEmpty then t.sliceDone wk c i else t
          | none => t)

/-- The slices of a workgroup's copies of which `f` holds, whose groups' earlier accesses are performed, are handed to the engine
(R243, R255). -/
def State.handSlices (s : State) (wk : Nat) (f : Copy → Bool) : State :=
  s.modWg wk fun w =>
    let hand (l : CopySlice) : CopySlice :=
      if l.handed then l
      else match s.grp? (gkey wk l.grp) with
        | some g => if g.handable l.opId then l.hand w else l
        | none => l.hand w
    { w with copies := w.copies.map fun x => if f x then { x with slices := x.slices.map hand } else x }

/-- COPY_START (R241-R243): the copy starts once every group that has not ended has supplied its slice; slices whose
group's earlier accesses are performed are handed to the engine. -/
def execCopyStart (wk c : Nat) (s : State) : Out :=
  let s1 := s.startCopy wk c
  .next (match s1.wg? wk with
    | none => s1
    | some w => s1.handSlices wk fun x =>
        x.num = c && (x.started || w.state = .resident) && w.state ≠ .swapped && w.state ≠ .resuming)

/-- CTL rises over every copy completed in order (R252). -/
def Workgroup.raiseCtl (w : Workgroup) : Nat → Workgroup
  | 0 => w
  | n + 1 =>
    if w.copies.any fun c => c.num = w.ctl + 1 && c.done then
      ({ w with ctl := w.ctl + 1, copies := w.copies.filter fun c => c.num ≠ w.ctl + 1 } : Workgroup).raiseCtl n
    else w

/-- Whether the groups of an exited workgroup have left nothing of it at work: it is gone (R256). -/
def State.reap (s : State) (wk : Nat) : State :=
  match s.wg? wk with
  | some w => (if w.state = .exited && w.copies.isEmpty then ({ s with wgs := mapDel s.wgs wk } : State) else s).noteIdle w.clu
  | none => s

/-- COPY_COMPLETE (R252): all slices have completed: the semaphore is signalled and CTL rises in order; for a workgroup
that is not resident the completion goes to its image (R17, R277). -/
def execCopyComplete (wk c : Nat) (s : State) : Out :=
  let s := s.pull wk
  .next (match s.wg? wk with
    | none => s
    | some w =>
      match w.copies.find? fun x => x.num = c with
      | none => s
      | some cp =>
        if !cp.started || cp.done || !(cp.slices.all fun l => l.done) then s
        else
          let s1 := match cp.lead with
            | some l => if l.sen then (s.semaSet wk (l.fld 3 12 6) fun v => v + l.fld 3 18 8).applied wk else s
            | none => s
          let ctl (t : State) : Nat := (t.wg? wk).elim 0 Workgroup.ctl
          let s2 := s1.modWg wk fun w =>
            ({ w with copies := w.copies.map (fun x => if x.num = c then { x with done := true } else x) } : Workgroup).raiseCtl 16
          ((if ctl s1 < ctl s2 then s2.applied wk else s2).reap wk).syncWake)

end Sys2Proof.Machine
end

