-- ==== Sys2Proof/Machine/Restore.lean ====
section
/-! DEFINITION. Save images read back (R72, R74, R197, R275, R282, R300): what the hardware keeps of a workgroup that is
swapped out, and the records that a resume restores from the image's bytes. -/

namespace Sys2Proof.Machine

/-! ### What is kept of a group that is swapped out -/

/-- Whether an operation is recorded in the image (R197, R299) or taken up again on resume (R320), rather than drained (R71). -/
def Op.saved (g : Group) (o : Op) : Bool :=
  match o.wait with
  | .parked .. => true
  | _ => o.kind = .mwait || o.kind = .matrix ||
      (o.kind = .barvRel && (g.before o).any fun p => match p.wait with | .parked .. => true | _ => false)

/-- WB at the issue of a recorded access: its first register's stack position less its number (LE 13). -/
def Op.issueWb (o : Op) : Nat :=
  match (o.dst ++ o.keeps).head? with
  | some (.pos p) => p - o.dnum
  | _ => 0

/-- What is kept beside the image of a group that is swapped out (DEDUCED, LE 13): who and where it is, its handler, launch
values and private areas, what it waits for, its recorded faults, and the operations that are not in the image. -/
def Group.husk (g : Group) : Group :=
  { wg := g.wg, idx := g.idx, slot := g.slot, ctx := g.ctx, n := g.n, handler := g.handler, wgid := g.wgid, prm := g.prm,
    pb := g.pb, spb := g.spb, privu := g.privu, monStatus := g.monStatus, park := g.park, woken := g.woken, parkArg := g.parkArg,
    parkTns := g.parkTns, faults := g.faults, cpn := g.cpn, upc := g.upc, waitWb := g.parkedUnits.map fun u => (u.head?.map Op.issueWb).getD 0,
    waitId := g.parkedUnits.map fun u => (u.head?.map Op.id).getD 0,
    ops := g.ops.filter fun o => !o.done && o.kind ≠ .matrix && match o.wait with | .parked .. => false | _ => true }

/-! ### Group records (R74) -/

/-- A group as its record, its matrix area and its registers restore it over what was kept of it. -/
def Group.restored (g : Group) (raw mx cpn : Nat) (reg : Nat → Lanes) : Group :=
  let w (o : Nat) : DWord := BitVec.ofNat 64 (wordAt raw o)
  let st := wordAt raw 0x58
  let al := wordAt raw 0x6B8
  let spc := wordAt raw 0x28
  let qst := wordAt raw 0x60
  let sp := wordAt raw 0x6E0
  let low := bitsOf al 22 14
  let high := bitsOf al 36 14
  let res := bitsOf al 0 11 - bitsOf al 11 11
  let dep (i : Nat) : Nat := bitsOf raw (8 * (0x6C0 + i)) 8
  let occ (i : Nat) : Nat := bitsOf raw (8 * (0x6D0 + i)) 8
  let first (i : Nat) : Nat := res + ((List.range i).map dep).sum
  { g with
    pc := w 0, exm := w 8, mode := w 0x10 &&& 0xFFFFFFFF000003FF, fmt := w 0x18 &&& 0xFFF, wb := bitsOf raw (8 * 0x20) 14,
    spc := { pos := bitsOf spc 0 14, dir := bitOf spc 14, stk := bitsOf spc 15 2, act := bitOf spc 17 },
    trapc := w 0x30 &&& 0x1FF, trapa := w 0x38, trappc := w 0x40, trapi := w 0x48, mtl := wordAt raw 0x50,
    park := if g.park = 10 then 10 else bitsOf st 0 4, woken := bitOf st 4, agg := bitOf st 16, peerP := bitOf st 17,
    qtr := bitsOf qst 32 4, qwh := bitsOf qst 36 2,
    lvc := (List.range 8).map fun i => w (0x68 + 8 * i),
    s := 0 :: (List.range 63).map fun i => w (0xA8 + 8 * i), p := 0 :: (List.range 15).map fun i => w (0x2A0 + 8 * i),
    ret := (List.range (bitsOf st 5 5)).map fun i =>
      let v := wordAt raw (0x318 + 8 * i)
      { pc := BitVec.ofNat 64 (bitsOf v 0 52), frame := bitsOf v 52 4 },
    recs := (List.range (bitsOf st 10 6)).map fun i =>
      let o := 0x398 + 24 * i
      { kindD := bitOf (wordAt raw o) 0, pc := BitVec.ofNat 64 (wordAt raw o / 2 * 2), exm := w (o + 8), fmt := w (o + 16) &&& 0xFFF },
    parkArg := g.parkArg.zipIdx.map fun p => if p.2 < 4 then w (0x698 + 8 * p.2) else p.1,
    n := bitsOf al 0 11, low := low, high := high, retSp := bitsOf sp 0 13, recSp := bitsOf sp 16 13,
    queues := (List.range 16).map fun i =>
      { depth := dep i, ents := (List.range (occ i)).map fun j => { lanes := reg (first i + j), filled := true } },
    vreg := (List.range (min res (high - low))).map fun i => (low + i, reg ((low + i) % max 1 res)),
    mxc := BitVec.ofNat 64 (wordAt mx 0), nis := wordAt mx 8, cpn := cpn,
    mxq := (List.range 8).filterMap fun e =>
      let o := 0x40 + 56 * e
      let v := wordAt mx o
      let op := bitsOf v 50 3
      let cfg := wordAt mx (o + 0x10)
      if bitOf v 53 then
        some { num := wordAt mx (o + 8), op := op, desc := (List.range (match op with | 0 => 2 | 1 => 4 | _ => 1)).map fun i =>
                 BitVec.ofNat 64 (wordAt mx (o + 0x18 + 8 * i)),
               pc := BitVec.ofNat 64 (4 * bitsOf v 0 50), arg := BitVec.ofNat 64 (bitsOf cfg 0 34), started := bitsOf cfg 52 12,
               step := bitsOf cfg 52 12 }
      else none }

/-! ### The waiting-table area (R197) -/

/-- Bytes a lane moves by a unit of major 16 or 17. -/
def lsSize (maj fn : Nat) : Nat := if maj = 16 then [1, 1, 2, 2, 4, 8, 16, 4].getD fn 4 else [1, 2, 4, 8, 16, 4, 4, 8].getD fn 4

/-- The operations of entry e of a group's waiting-table area, named from `id` up: addresses from BASE and VO, data from
the captured queue words or the restored registers, at the window of its issue. -/
def Group.entryOps (g : Group) (area e id : Nat) : List Op :=
  let at_ (x : Nat) : Nat := wordAt area (0x40 + 0x240 * e + x)
  let word (x : Nat) : Nat := bitsOf area (8 * (0x40 + 0x240 * e + x)) 32
  let c := at_ 0x18
  let maj := bitsOf c 0 5
  let fn := bitsOf c 5 3
  let first := bitsOf c 12 7
  let gw : Group := { g with pc := BitVec.ofNat 64 (at_ 0), wb := g.waitWb.getD e g.wb }
  let base : DWord := BitVec.ofNat 64 (at_ 8)
  let lanes := laneIdx.filter fun i => bitOf (at_ 0x10) i
  let multi := (maj = 16 && fn = 7) || (maj = 17 && fn = 5)
  let size := lsSize maj fn
  (List.range (bitsOf c 19 7 + 1 - first)).map fun k =>
    let m : MFld := { d := Fin.ofNat 128 (first + k), sb := 0, vo := 112, ord := Fin.ofNat 4 (bitsOf c 8 2), scope := Fin.ofNat 4 (bitsOf c 10 2) }
    let off := BitVec.ofNat 64 (4 * k)
    let va (i : Nat) : DWord := base + (BitVec.ofNat 32 (word (0x40 + 4 * i))).signExtend 64 + off
    let o : Op := if maj = 16 then
        { loadOp 16 fn size (fn = 0 || fn = 2) gw m (id + k) with dst := (fieldsFrom m.d (if multi then 1 else max 1 (size / 4))).map gw.vDst }
      else
        { storeOp 17 fn size gw m (id + k) with
            kind := if 6 ≤ fn then .agg 13 (size = 8) else .store, need := if 6 ≤ fn then 10 else 2, rel := fn < 6 && m.ord.val = 2,
            keeps := if bitOf c 26 then [] else keepsOf gw m.d size, dq := bitOf c 26 }
    { o with
      unit := id, multi := if multi then some (first + k) else none, dnum := first + k, arg := [base + off],
      wait := .parked 0 0 (at_ 0x20 % 2 ^ 52) (at_ 0x28), parked := true, again := 1,
      accs := lanes.map fun i =>
        { lane := i, va := va i,
          data := if maj = 16 then [] else if bitOf c 26 then leBytes size (word (0x140 + 4 * i)) else srcBytes gw m.d size i } }

/-- The recorded accesses of a group, in their recorded order and under their names, before the operations that were kept; the moved matrix units
count in MX again (R197, R299). -/
def State.restoreOps (s : State) (k area : Nat) : State :=
  match s.grp? k with
  | none => s
  | some g =>
    let ops := (List.range (min 3 (area % 4))).flatMap fun e => g.entryOps area e (g.waitId.getD e (s.nextId + 64 * e))
    let mx : List Op := (g.mxq.filter fun m => m.op ≠ 3).zipIdx.map fun p =>
      { id := s.nextId + 256 + p.2, unit := s.nextId + 256 + p.2, pc := p.1.pc, maj := 24, fn := p.1.op, ctr := .mx, kind := .matrix,
        arg := [BitVec.ofNat 64 p.1.num] }
    ({ s with nextId := s.nextId + 512 } : State).setGrp k { g with ops := ops ++ g.ops ++ mx, waitWb := [], waitId := [] }

/-! ### The workgroup's sections (R74, R275, R282) -/

/-- Sparse words of a span of bytes. -/
def wordsOfMem (m : Mem) : NMap Word :=
  m.foldl (fun (t : NMap Word) c => mapSet t (c.1 / 4) (mapGet t (c.1 / 4) 0 ||| (((c.2.setWidth 32 : Word)) <<< (8 * (c.1 % 4))))) []

/-- Slice record c of a synchronization area: its copy and what it supplies. -/
def sliceAt (syn c : Nat) : Nat × CopySlice :=
  let v := wordAt syn (0x5C8 + 80 * c)
  (wordAt syn (0x5C0 + 80 * c),
    { grp := v % 16, fn := bitsOf v 4 3, tok := bitsOf v 7 3, pc := 0, opId := 0,
      desc := (List.range 8).map fun i => BitVec.ofNat 64 (wordAt syn (0x5D0 + 80 * c + 8 * i)) })

/-- The partial copies as the image's slice records give them: each slice keeps the PC and name it was issued with (LE 13),
and is to be handed again (R255). -/
def Workgroup.restoreSlices (w : Workgroup) (syn : Nat) : Workgroup :=
  let ls := (List.range (bitsOf syn 7 5)).map (sliceAt syn)
  { w with copies := w.copies.filterMap fun c =>
      if c.started then some c
      else
        let mine := (ls.filter fun p => p.1 = c.num).map fun p =>
          match c.slices.find? fun l => l.grp = p.2.grp with
          | some l => { p.2 with pc := l.pc, opId := l.opId }
          | none => p.2
        if mine.isEmpty then none else some { c with slices := mine } }

/-- The workgroup's records and spaces as its image holds them. -/
def State.restoreWg (s : State) (w : Workgroup) : Workgroup :=
  let syn := s.rdNat (s.imageAt w 5) 4096
  let bst := s.spanMem (s.imageAt w 4) (w.bslots * 65536)
  let scl := s.spanMem (s.imageAt w 8) (w.bslots * 4096)
  let tags := s.rdBytes (s.imageAt w 8 + 4096 * w.bslots) w.bslots
  let w1 := (w.fromSync (s.rdNat (s.imageBase w) 256) syn).restoreSlices syn
  { w1 with
    wgm := s.spanMem (s.imageAt w 2) (w.wgmw * Config.wayBytes),
    tiles := wordsOfMem (s.spanMem (s.imageAt w 3) (w.tsrows * 2048)),
    bst := scl.foldl (fun m c => memWrite m (c.1 / 4096 * 2 ^ 17 + 65536 + c.1 % 4096) c.2)
      (bst.foldl (fun m c => memWrite m (c.1 / 65536 * 2 ^ 17 + c.1 % 65536) c.2) []),
    btag := (tags.zipIdx.filter fun p => p.1.toNat ≠ 15).map fun p => (p.2, p.1.toNat) }

/-- Every record of a workgroup is restored from its image, whose lines its context is charged for (R72 step 2, R412); a group
recorded as exited is not. -/
def State.restore (s : State) (wk : Nat) : State :=
  match s.wg? wk with
  | none => s
  | some w =>
    let syn := s.rdNat (s.imageAt w 5) 4096
    let s1 := (s.setWg wk (s.restoreWg w)).energy w.ctx (110000 * w.imageLines)
    (s.groupsOf wk).foldl (fun t k => match t.grp? k with
      | none => t
      | some g =>
        let raw := s.rdNat (s.imageAt w 0 + 2048 * g.idx) 2048
        let regs := s.spanMem (s.imageAt w 1 + g.idx * w.allot * 8192) (w.allot * 8192)
        let reg (r : Nat) : Lanes := lanesOf fun i => BitVec.ofNat 32 (leNat (memReadBytes regs (256 * r + 4 * i) 4))
        if bitsOf (wordAt raw 0x58) 0 4 = 9 then { t with groups := mapDel t.groups k }
        else (t.setGrp k (g.restored raw (s.rdNat (s.imageAt w 6 + 512 * g.idx) 512) (wordAt syn (0x40 + 8 * g.idx)) reg)).restoreOps k
          (s.rdNat (s.imageAt w 7 + 2048 * g.idx) 2048)) s1

end Sys2Proof.Machine
end

