-- ==== Sys2Proof/Machine/WorkDist.lean ====
section
/-! DEFINITION. The work distributor (R55-R80): launch records and their checks, the waiting order, placement, eviction,
saves and resumes, grid completion, the regroup unit, cluster gating; `spawn`, and the work of `launch`, `preempt`,
`resume` and `crsz`. -/

namespace Sys2Proof.Machine

/-! ### Launch records (R55-R57, R60) -/

/-- A field of a launch record held as one number. -/
def lfld (n o lo w : Nat) : Nat := bitsOf n (8 * o + lo) w

/-- The fields of a launch record. -/
def parseLaunch (n : Nat) : LRec :=
  { entry := BitVec.ofNat 64 (lfld n 0 0 64), param := BitVec.ofNat 64 (lfld n 8 0 64),
    handler := BitVec.ofNat 64 (lfld n 0x10 0 64), allot := lfld n 0x18 0 6, wgmw := lfld n 0x18 6 5,
    privu := lfld n 0x18 11 13, prio := lfld n 0x18 24 3, qcls := lfld n 0x18 27 4, ctx := lfld n 0x1C 0 6,
    nlev := lfld n 0x1C 6 4, tsrows := lfld n 0x1C 10 11, bslots := lfld n 0x1C 21 6, serial := lfld n 0x1C 27 1 = 1,
    ctln := lfld n 0x20 0 32, fcoord := lfld n 0x24 0 32, cval := BitVec.ofNat 64 (lfld n 0x28 0 64),
    qd := (List.range 16).map fun i => lfld n (0x30 + i) 0 8,
    lev := (List.range (lfld n 0x1C 6 4)).map fun i =>
      (lfld n (0x40 + 8 * i) 0 32, lfld n (0x40 + 8 * i) 32 3, lfld n (0x40 + 8 * i) 36 3) }

/-- The product of the extents of the levels whose domain meets a test. -/
def LRec.extents (r : LRec) (p : Nat → Bool) : Nat := r.lev.foldl (fun a l => if p l.2.1 then a * l.1 else a) 1
/-- G: groups of a workgroup. -/
def LRec.groups (r : LRec) : Nat := r.extents (· == 1)
/-- W: workgroups of the grid. -/
def LRec.total (r : LRec) : Nat := r.extents fun d => 2 ≤ d && d ≤ 5

/-- Code 1: a non-zero reserved field (R55). -/
def launchReserved (n : Nat) : Bool :=
  let nlev := lfld n 0x1C 6 4
  lfld n 0x18 31 1 ≠ 0 || lfld n 0x1C 28 4 ≠ 0 || lfld n 0x80 0 1024 ≠ 0 ||
    (List.range 8).any fun i =>
      if nlev ≤ i then lfld n (0x40 + 8 * i) 0 64 ≠ 0
      else lfld n (0x40 + 8 * i) 35 1 ≠ 0 || lfld n (0x40 + 8 * i) 39 25 ≠ 0

/-- Code 2: a field outside its range, or ENTRY misaligned (R55, R262). -/
def LRec.badRange (r : LRec) (tlcnt : Nat) : Bool :=
  r.entry.toNat % 4 ≠ 0 || 2 ^ 52 ≤ r.entry.toNat || r.allot < 4 || 32 < r.allot || 16 < r.wgmw || 4096 < r.privu ||
    r.nlev = 0 || 8 < r.nlev || 1024 < r.tsrows || 48 < r.bslots || r.qd.any (fun d => 16 < d) ||
    r.lev.any (fun l => l.1 = 0 || l.2.1 = 7 || 5 ≤ l.2.2) || (r.ctln ≠ 0 && tlcnt ≤ r.ctln)

/-- The least SCP of a level, given the domain of the next one (R57). -/
def leastScp (dom : Nat) (next : Option Nat) : Nat :=
  if dom = 6 then 4
  else match next with
    | none => 3
    | some 6 => 4 | some 5 => 3 | some 4 => 2 | some 3 => 2 | some 2 => 1 | _ => 0

/-- Whether domains never decrease and scopes suffice, level by level (R56, R57). -/
def levelsOk : List (Nat × Nat × Nat) → Bool
  | [] => true
  | l :: r =>
    (match r with | [] => true | m :: _ => decide (l.2.1 ≤ m.2.1)) &&
      decide (leastScp l.2.1 (r.head?.map fun m => m.2.1) ≤ l.2.2) && levelsOk r

/-- Code 3: the hierarchy breaks R56 or R57. -/
def LRec.badLevels (r : LRec) : Bool :=
  let fab := r.lev.filter fun l => l.2.1 = 6
  (r.lev.head?.map fun l => l.2.1) ≠ some 0 || !levelsOk r.lev || r.extents (· == 0) ≠ 64 || 16 < r.groups ||
    2 ^ 40 < r.total || 1 < fab.length ||
    (match fab.head? with | some l => 4096 < l.1 || l.1 ≤ r.fcoord | none => r.fcoord ≠ 0)

/-- Code 4: queue depths. -/
def LRec.badQueues (r : LRec) : Bool := 32 * r.allot - 96 < r.qd.sum

/-- Whether the needs of one workgroup exceed limits outright (R64). -/
def LRec.over (r : LRec) (q : Quota) : Bool :=
  q.gs < r.groups || q.rf < r.groups * r.allot || q.wgm < r.wgmw || q.ts < r.tsrows || q.bs < r.bslots

/-- The code of a record in context `n` (R60): the lowest that applies; `same` is false when CTX differs from the
queue's. -/
def State.launchCode (s : State) (n : Nat) (same : Bool) (raw : Nat) (r : LRec) (full : Bool) : Nat :=
  let c := s.ctx n
  if launchReserved raw then 1
  else if r.badRange (s.tlCount n) then 2
  else if r.badLevels then 3
  else if r.badQueues then 4
  else if !same || !c.en then 5
  else if r.over c.quota || r.over (mapGet s.classes r.qcls {}) then 6
  else if full then 7
  else if c.slotkb * 1024 < imageSize r.groups r.allot r.wgmw r.tsrows r.bslots then 9
  else 0

/-- The work distributor's read of a launch record. -/
inductive RecRead where
  /-- The record as one number. -/
  | raw (n : Nat)
  /-- Some byte cannot be read. -/
  | bad
  /-- It waits for a residency service or for the bytes of a remote object, or a sub-tile moves. -/
  | wait (s : State)

/-- The 256 bytes of a launch record at a VA of a context, read for a party through PD0's caches. A residency miss waits for
its service (DESIGN CHOICE, LE 22); a record in a remote object is read by requests (R15, R230). -/
def State.readRecord (s : State) (who : Party) (n va unit : Nat) : RecRead :=
  if s.waits who then .wait s
  else match s.span { u := 304, ctx := n, sys := s.sysCtx n } 1 false va 256 with
    | .fault .. => .bad
    | .miss ob sub a => .wait (s.parkOn who n ob sub 0 false unit a)
    | .hold => .wait s
    | .ok ps => match s.spanIn who n ps with
      | .ok bs => .raw (leNat bs)
      | .bad .. => .bad
      | .wait t => .wait t

/-- The lowest key not in use. -/
def freeKey {α : Type} : NMap α → Nat → Nat
  | [], n => n
  | (k, _) :: r, n => if k = n then freeKey r (n + 1) else n

/-- Enter an accepted grid (R60, R66). -/
def State.enterGrid (s : State) (src : Nat) (r : LRec) : State :=
  let g : Grid := { lrec := r, src := src, taken := s.dev.takenSeq, total := r.total, waitTns := s.dev.tns, eprio := r.prio }
  ({ s with grids := mapSet s.grids (freeKey s.grids 0) g } : State).modDev fun d => { d with takenSeq := d.takenSeq + 1 }

/-- A queue halts with a code; a rejected record leaves its position (R60). -/
def State.haltQueue (s : State) (q code : Nat) (idx : Option Word) : State :=
  let v := s.queue q
  (s.release (.queue q)).setQueue q { v with state := 2, code := code, index := idx.getD v.index }

/-- A doorbell write (R60): no configured queue is counted, an overrun halts with code 10. On a queue that is halted already, an
overrun replaces CODE and leaves INDEX (DESIGN CHOICE, LE 66). -/
def State.doorbell (s : State) (q : Nat) (tail : Word) : State :=
  let v := s.queue q
  if !v.en then s.count 1
  else if 2 ^ v.logn < (tail - v.head).toNat then s.haltQueue q 10 none
  else s.setQueue q { v with tail := tail }

/-- Whether a queue's next record may be taken now. -/
def State.queueReady (s : State) (v : LQueue) : Bool :=
  v.en && v.state = 1 && v.head ≠ v.tail && !(s.ctx v.ctx).stopped && s.grids.length < 4096

/-- The read of the next record of queue q. -/
def State.headRecord (s : State) (q : Nat) : RecRead :=
  let v := s.queue q
  s.readRecord (.queue q) v.ctx (v.base.toNat % 2 ^ 52 + 256 * (v.head.toNat % 2 ^ v.logn)) 48

/-- LAUNCH_RECORD_TAKE (R60). -/
def execLaunchRecordTake (q : Nat) (s : State) : Out :=
  let v := s.queue q
  .next (if !s.queueReady v then s
    else
      let s1 := (s.release (.queue q)).setQueue q { v with head := v.head + 1 }
      match s.headRecord q with
      | .bad => s1.haltQueue q 8 (some v.head)
      | .wait t => t
      | .raw raw =>
        let r := parseLaunch raw
        match s.launchCode v.ctx (r.ctx = v.ctx) raw r false with
        | 0 => s1.enterGrid q r
        | c => s1.haltQueue q c (some v.head))

/-! ### The waiting order (R62, R66) -/

/-- A workgroup that waits: its place in the order, and its key when it is swapped out or spawned. -/
structure Wait where
  eprio : Nat
  since : Nat
  grid : Nat
  wgid : Nat
  key : Option Nat
deriving DecidableEq, Repr

/-- The order of R66. -/
def Wait.before (a b : Wait) : Bool :=
  if a.eprio ≠ b.eprio then b.eprio < a.eprio
  else if a.since ≠ b.since then a.since < b.since
  else if a.grid ≠ b.grid then a.grid < b.grid
  else a.wgid < b.wgid

/-- The first of a list in the order of R66. -/
def firstWait (l : List Wait) : Option Wait :=
  l.foldl (fun (best : Option Wait) w => match best with
    | some b => if w.before b then some w else some b
    | none => some w) none

/-- Whether an unplaced workgroup of a grid is held (R80). -/
def Grid.isHeld (g : Grid) (n : Nat) : Bool := g.heldAll != g.heldX.contains n

/-- The lowest unplaced workgroup that is not held. -/
def Grid.next? (g : Grid) : Option Nat :=
  let ok (n : Nat) : Bool := g.nextW ≤ n && n < g.total && !g.placed.contains n && !g.isHeld n
  let cands := if g.heldAll then g.heldX else (List.range (g.placed.length + g.heldX.length + 1)).map (· + g.nextW)
  (cands.filter ok).foldl (fun (best : Option Nat) n => match best with
    | some b => some (min b n)
    | none => some n) none

/-- Whether SERIAL lets a grid be placed (R62). -/
def State.serialOk (s : State) (g : Grid) : Bool :=
  !g.lrec.serial || !(s.grids.any fun kv => kv.2.src = g.src && kv.2.taken < g.taken)

/-- Whether a context takes placements. -/
def State.ctxOpen (s : State) (n : Nat) : Bool := (s.ctx n).en && !(s.ctx n).stopped

/-- Workgroups that wait for placement: of each grid the one that `pick` names, and the swapped-out and spawned ones. -/
def State.waitingBy (s : State) (pick : Grid → Option Nat) : List Wait :=
  (s.grids.filterMap fun kv =>
    if s.ctxOpen kv.2.lrec.ctx && s.serialOk kv.2 then
      (pick kv.2).map fun n => { eprio := kv.2.eprio, since := kv.2.waitTns, grid := kv.1, wgid := n, key := none }
    else none) ++
  s.wgs.filterMap fun kv =>
    let w := kv.2
    if (w.state = .swapped || w.state = .waiting) && !w.held && s.ctxOpen w.ctx then
      some { eprio := w.eprio, since := w.waitTns, grid := w.grid, wgid := w.wgid.toNat, key := some kv.1 }
    else none

/-- The workgroups among which is the head of the waiting order: of each grid its next one, and the swapped-out and spawned
ones. -/
def State.waiting (s : State) : List Wait := s.waitingBy Grid.next?

/-! ### Resources (R63, R64, R281) -/

/-- What a workgroup needs at a placement. -/
structure Need where
  n : Nat
  allot : Nat
  wgmw : Nat
  tsrows : Nat
  bslots : Nat
  ctx : Nat
  qcls : Nat
  bars : Nat := 0
  semas : Nat := 0
deriving DecidableEq, Repr

/-- The needs of a waiting workgroup; of a swapped one, for its groups that have not ended. -/
def State.need (s : State) (w : Wait) : Need :=
  match w.key with
  | none =>
    let r := (mapGet s.grids w.grid {}).lrec
    { n := r.groups, allot := r.allot, wgmw := r.wgmw, tsrows := r.tsrows, bslots := r.bslots, ctx := r.ctx, qcls := r.qcls }
  | some k =>
    let v := (s.wg? k).getD {}
    { n := if v.state = .waiting then 1 else (s.groupsOf k).length, allot := v.allot, wgmw := v.wgmw, tsrows := v.tsrows,
      bslots := v.bslots, ctx := v.ctx, qcls := v.qcls, bars := v.bars.length, semas := v.semas.length }

/-- Groups whose workgroup holds resources. -/
def State.placedGroups (s : State) : List Group :=
  (s.groups.filter fun kv => match s.wg? kv.2.wg with | some w => w.holds | none => false).map Prod.snd

/-- The use of the resources of R64 by the workgroups that meet a test. -/
def State.usage (s : State) (p : Workgroup → Bool) : Quota :=
  let ws := (s.wgs.filter fun kv => kv.2.holds && p kv.2).map Prod.snd
  let gs := s.placedGroups.filter fun g => match s.wg? g.wg with | some w => p w | none => false
  { gs := gs.length, rf := (gs.map fun g => g.n / 32).sum, wgm := (ws.map Workgroup.wgmw).sum,
    ts := (ws.map Workgroup.tsrows).sum, bs := (ws.map Workgroup.bslots).sum }

/-- Whether a use and a need stay within limits. -/
def quotaFits (u lim : Quota) (d : Need) : Bool :=
  u.gs + d.n ≤ lim.gs && u.rf + d.n * d.allot ≤ lim.rf && u.wgm + d.wgmw ≤ lim.wgm && u.ts + d.tsrows ≤ lim.ts &&
    u.bs + d.bslots ≤ lim.bs

/-- Whether the context's and the class's quotas allow a placement. -/
def State.quotaOk (s : State) (d : Need) : Bool :=
  quotaFits (s.usage fun w => w.ctx = d.ctx) (s.ctx d.ctx).quota d &&
    quotaFits (s.usage fun w => w.qcls = d.qcls) (mapGet s.classes d.qcls {}) d

/-- B-store slots in use on a slot lane of a cluster (R281). -/
def State.laneSlots (s : State) (l lane : Nat) : Nat :=
  ((s.wgs.filter fun kv => kv.2.holds && clusterOfCore kv.2.core = l).map fun kv =>
    ((List.range kv.2.bslots).filter fun n => (n + kv.2.base) % 12 = lane).length).sum

/-- Whether the free slots of a cluster fit the pattern of base b. -/
def State.slotsFit (s : State) (l b n : Nat) : Bool :=
  (List.range 12).all fun lane => s.laneSlots l lane + ((List.range n).filter fun w => (w + b) % 12 = lane).length ≤ 4

/-- Register units in use in a partition of a core. -/
def State.unitsUsed (s : State) (core part : Nat) : Nat :=
  ((s.placedGroups.filter fun g => g.core = core && partOfSlot g.slot = part).map fun g => g.n / 32).sum

/-- Whether a slot of a core is taken. -/
def State.slotUsed (s : State) (core i : Nat) : Bool := s.placedGroups.any fun g => g.slot = core * 128 + i

/-- Whether a core, its slots and a base fit a need (R63, R64, R281), the cluster powered and the die alive. -/
def State.fitsAt (s : State) (d : Need) (core : Nat) (slots : List Nat) (base : Nat) : Bool :=
  let l := clusterOfCore core
  let mates := (s.wgs.filter fun kv => kv.2.holds && clusterOfCore kv.2.core = l).map Prod.snd
  core < 256 && !(s.die (dieOfCore core)).dead && (s.cluster l).gate = .powered &&
    slots.length = d.n && slots.eraseDups = slots && slots.all (fun i => i < 128 && !s.slotUsed core i) &&
    (List.range 8).all (fun p => s.unitsUsed core p + d.allot * (slots.filter fun i => i / 16 = p).length ≤ 64) &&
    s.wgmWays core + d.wgmw ≤ 16 && (mates.map Workgroup.tsrows).sum + d.tsrows ≤ 1024 && base < 12 &&
    s.slotsFit l base d.bslots && s.barsOn core + d.bars ≤ 256 && s.semasOn core + d.semas ≤ 64 && s.quotaOk d

/-! ### Confinement to a cluster or a die (R56) -/

/-- Workgroups of an instance of level n: the extents of the workgroup-numbering levels below it. -/
def LRec.below (r : LRec) (n : Nat) : Nat := (r.lev.take n).foldl (fun a l => if 2 ≤ l.2.1 && l.2.1 ≤ 5 then a * l.1 else a) 1

/-- The instances of cluster-level and die-level elements that workgroup `wgid` belongs to: their keys, and whether the
level is a cluster level. -/
def LRec.instances (r : LRec) (wgid : Nat) : List (Nat × Bool) :=
  (r.lev.zipIdx).filterMap fun p =>
    if p.1.2.1 = 3 ∨ p.1.2.1 = 4 then some (p.2 * 2 ^ 40 + wgid / r.below p.2, p.1.2.1 = 3) else none

/-- The first instance of a workgroup that is fixed to another cluster or die than a core's: its key. -/
def Grid.elsewhere (g : Grid) (wgid core : Nat) : Option Nat :=
  ((g.lrec.instances wgid).find? fun i => match mapGet? g.confined i.1 with
    | some v => v ≠ if i.2 then clusterOfCore core else dieOfCore core
    | none => false).map Prod.fst

/-- The lowest unplaced workgroup from `n` up that is not held and may use a core: past one fixed elsewhere, the search goes
on at the end of the instance that fixes it. -/
def Grid.search (g : Grid) (core : Nat) : Nat → Nat → Option Nat
  | 0, _ => none
  | fuel + 1, n =>
    if g.total ≤ n then none
    else if g.placed.contains n || g.isHeld n then g.search core fuel (n + 1)
    else match g.elsewhere n core with
      | some i => g.search core fuel ((i % 2 ^ 40 + 1) * g.lrec.below (i / 2 ^ 40))
      | none => some n

/-- The lowest unplaced workgroup of a grid that is not held and may use a core. -/
def Grid.nextOn (g : Grid) (core : Nat) : Option Nat :=
  if g.heldAll then
    (g.heldX.filter fun n => g.nextW ≤ n && n < g.total && !g.placed.contains n && (g.elsewhere n core).isNone).min?
  else g.search core (g.confined.length + g.placed.length + g.heldX.length + 1) g.nextW

/-- Whether a waiting workgroup may use a core under R56. -/
def State.mayUse (s : State) (w : Wait) (core : Nat) : Bool :=
  match mapGet? s.grids w.grid with
  | none => true
  | some g =>
    if (w.key.bind s.wg?).elim false (fun v => v.spawnKey.isSome) then true
    else (g.elsewhere w.wgid core).isNone

/-- Fix the instances of a placed workgroup. -/
def Grid.confine (g : Grid) (wgid core : Nat) : Grid :=
  { g with confined := (g.lrec.instances wgid).foldl (fun m i =>
      mapSet m i.1 (if i.2 then clusterOfCore core else dieOfCore core)) g.confined }

/-! ### Private areas (R417) -/

/-- Bytes of the spill area of a group. -/
def spillBytes : Nat := 0x420000

/-- The parts of a context's private object in use: start and end. -/
def State.privUsed (s : State) (n : Nat) : List (Nat × Nat) :=
  s.groups.flatMap fun kv => if kv.2.ctx = n then
      [(kv.2.pb, kv.2.pb + 1024 * kv.2.privu), (kv.2.spb, kv.2.spb + spillBytes)] else []

/-- Bytes of a context's private object. -/
def State.privSize (s : State) (n : Nat) : Nat :=
  match s.recLook { u := 304, ctx := n, sys := true } (s.ctx n).privobj with
  | .ok _ r => r.sz
  | .bad .. => 0

/-- Whether a span is disjoint from every used one. -/
def spanFree (used : List (Nat × Nat)) (a b : Nat) : Bool := used.all fun u => b ≤ u.1 || u.2 ≤ a || a = b || u.1 = u.2

/-- Whether areas (PB, SPB) are placed as R417 asks. -/
def areasOk (size privu : Nat) : List (Nat × Nat) → List (Nat × Nat) → Bool
  | _, [] => true
  | used, (pb, spb) :: r =>
    let p := (pb, pb + 1024 * privu)
    let q := (spb, spb + spillBytes)
    pb % 256 = 0 && spb % 128 = 0 && p.2 ≤ size && q.2 ≤ size && spanFree used p.1 p.2 &&
      spanFree (p :: used) q.1 q.2 && areasOk size privu (p :: q :: used) r

/-! ### Choosing a placement (model's choice, first fit) -/

/-- Slots of a core for a need, partition by partition from slot 0 up. -/
def State.pickSlots (s : State) (d : Need) (core : Nat) : List Nat :=
  ((List.range 128).foldl (fun (acc : List Nat) i =>
    if acc.length < d.n && !s.slotUsed core i &&
        s.unitsUsed core (i / 16) + d.allot * ((acc.filter fun j => j / 16 = i / 16).length + 1) ≤ 64 then acc ++ [i] else acc) [])

/-- Areas for `n` groups: each at the lowest multiple of 256 from the end of some used part. -/
def pickAreas (size privu : Nat) : Nat → List (Nat × Nat) → List (Nat × Nat)
  | 0, _ => []
  | n + 1, used =>
    let spots := (0 :: used.map fun u => (u.2 + 255) / 256 * 256)
    let low (len : Nat) (us : List (Nat × Nat)) (sp : List Nat) : Nat :=
      (sp.filter fun a => spanFree us a (a + len) && decide (a + len ≤ size)).foldl min size
    let pb := low (1024 * privu) used spots
    let u1 := (pb, pb + 1024 * privu) :: used
    let spb := low spillBytes u1 (0 :: u1.map fun u => (u.2 + 255) / 256 * 256)
    (pb, spb) :: pickAreas size privu n ((spb, spb + spillBytes) :: u1)

/-- Slots and a base that fit a waiting workgroup on a core that it may use, the lowest. -/
def State.placeOn (s : State) (w : Wait) (core : Nat) : Option (List Nat × Nat) :=
  if s.mayUse w core then
    let slots := s.pickSlots (s.need w) core
    (List.range 12).findSome? fun b => if s.fitsAt (s.need w) core slots b then some (slots, b) else none
  else none

/-- A core, slots and base that fit a waiting workgroup, the lowest. -/
def State.findPlace (s : State) (w : Wait) : Option (Nat × List Nat × Nat) :=
  if !s.quotaOk (s.need w) then none
  else (List.range 256).findSome? fun core => (s.placeOn w core).map fun p => (core, p)

/-- The workgroup that core `core` serves next (R66): the head of the order if it may use the core, otherwise the first of
those that may use it, a grid's later workgroups among them, that fits there. -/
def State.nextFor (s : State) (core : Nat) : Option Wait :=
  match firstWait s.waiting with
  | none => none
  | some h =>
    if s.mayUse h core then (if (s.placeOn h core).isSome then some h else none)
    else firstWait ((s.waitingBy fun g => g.nextOn core).filter fun w => (s.placeOn w core).isSome)

/-! ### Starting groups (R58, R59, R76) -/

/-- Coordinates of an index over the levels that meet a test: level n gets its digit. -/
def coordsOver (p : Nat → Bool) : List (Nat × Nat × Nat) → Nat → List Nat
  | [], _ => []
  | l :: r, v => if p l.2.1 then v % l.1 :: coordsOver p r (v / l.1) else 0 :: coordsOver p r v

/-- LVC0-LVC7 of a launched group (R58). -/
def LRec.lvcs (r : LRec) (wgid idx : Nat) : List DWord :=
  let gs := coordsOver (· == 1) r.lev idx
  let ws := coordsOver (fun d => 2 ≤ d && d ≤ 5) r.lev wgid
  (List.range 8).map fun n =>
    match r.lev[n]? with
    | some l => BitVec.ofNat 64 ((if l.2.1 = 6 then r.fcoord else gs.getD n 0 + ws.getD n 0) + l.1 * 2 ^ 32)
    | none => 0

/-- A group as it starts (R59). -/
def startGroup (r : LRec) (wk idx slot : Nat) (wgid : DWord) (area : Nat × Nat) : Group :=
  { wg := wk, idx := idx, slot := slot, ctx := r.ctx, pc := r.entry, n := 32 * r.allot,
    queues := r.qd.map fun d => { depth := d },
    s := [0, r.param, wgid, BitVec.ofNat 64 idx] ++ List.replicate 60 0,
    handler := r.handler, wgid := wgid, lvc := r.lvcs wgid.toNat idx, prm := r.param, pb := area.1, spb := area.2,
    privu := r.privu }

/-- A spawned group as it starts (R76). -/
def startSpawned (r : LRec) (wk slot : Nat) (w : Workgroup) (area : Nat × Nat) : Group :=
  let c := w.deps.length
  let key := w.spawnKey.getD 0
  let g := startGroup r wk 0 slot w.wgid area
  { g with
    pc := w.entry, s := [0, r.param, w.wgid, BitVec.ofNat 64 key] ++ List.replicate 60 0,
    exm := maskOf fun i => i < c,
    vreg := (List.range 4).map fun j => (j, lanesOf fun i => (w.deps.getD i []).getD j 0),
    lvc := [BitVec.ofNat 64 (64 * 2 ^ 32), BitVec.ofNat 64 (key + c * 2 ^ 32), 0, 0, 0, 0, 0, 0] }

/-- DIEM gets the bit of a die (R25). -/
def State.setDiem (s : State) (n d : Nat) : State :=
  s.modCtx n fun c => if bitOf c.diem d then c else { c with diem := c.diem + 2 ^ d }

/-- What every placement does to the core and its cluster: DIEM, the ways of WGM, the acquire of a start (R65, R202,
R322). A resume empties the core's L1 as a start does (DESIGN CHOICE, LE 75). -/
def State.onCore (s : State) (ctx core : Nat) : State :=
  (((s.setDiem ctx (dieOfCore core)).l1Clear core).setCluster (clusterOfCore core)
    { s.cluster (clusterOfCore core) with idle := false, dispatch := false })

/-- The workgroup that a placement on a core takes, if it fits as `fit` asks (R66). -/
def State.candidate (s : State) (core : Nat) (fit : Wait → Bool) : Option Wait := (s.nextFor core).filter fit

/-- Place an unplaced or spawned workgroup. -/
def State.placeNew (s : State) (w : Wait) (core : Nat) (slots : List Nat) (base : Nat) (areas : List (Nat × Nat)) : State :=
  match mapGet? s.grids w.grid with
  | none => s
  | some g =>
    let r := g.lrec
    let slot (i : Nat) : Nat := core * 128 + slots.getD i 0
    match w.key with
    | some k =>
      (match s.wg? k with
       | none => s
       | some v =>
         let v1 := { v with state := .resident, core := core, base := base, clu := clusterOfCore core, eprio := v.prio,
                            residentTns := s.dev.tns, deps := [] }
         ((s.setWg k v1).setGrp (gkey k 0) (startSpawned r k (slot 0) v (areas.headD (0, 0)))).onCore v.ctx core)
    | none =>
      let (k, s1) := s.fresh1
      let v : Workgroup :=
        { grid := w.grid, ctx := r.ctx, state := .resident, core := core, ngrp := r.groups, base := base, allot := r.allot,
          wgmw := r.wgmw, tsrows := r.tsrows, bslots := r.bslots, prio := r.prio, eprio := r.prio, qcls := r.qcls,
          wgid := BitVec.ofNat 64 w.wgid, residentTns := s.dev.tns, clu := clusterOfCore core }
      let nw := if w.wgid = g.nextW then g.nextW + 1 else g.nextW
      let pl := if w.wgid = g.nextW then g.placed else g.placed ++ [w.wgid]
      let skip := ((List.range pl.length).find? fun i => !pl.contains (nw + i)).getD pl.length
      let g1 := { g.confine w.wgid core with
                    nextW := nw + skip, placed := pl.filter fun n => nw + skip ≤ n, live := g.live + 1 }
      let s2 := { s1.setWg k v with grids := mapSet s1.grids w.grid g1 }
      ((List.range r.groups).foldl (fun t i =>
        t.setGrp (gkey k i) (startGroup r k i (slot i) v.wgid (areas.getD i (0, 0)))) s2).onCore r.ctx core

/-- PLACE_WORKGROUP (R63, R66). -/
def execPlaceWorkgroup (core : Nat) (slots : List Nat) (base : Nat) (areas : List (Nat × Nat)) (s : State) : Out :=
  let fit (w : Wait) : Bool := s.fitsAt (s.need w) core slots base
  .next (match s.candidate core fit with
    | none => s
    | some w =>
      let d := s.need w
      let privu := (mapGet s.grids w.grid {}).lrec.privu
      let isNew := match w.key.bind s.wg? with | some v => v.state = .waiting | none => true
      if isNew && areas.length = d.n && areasOk (s.privSize d.ctx) privu (s.privUsed d.ctx) areas then
        (s.placeNew w core slots base areas).l1Trim core
      else s)

/-! ### Aging and eviction (R66, R68) -/

/-- A context's slice in ns. -/
def State.sliceNs (s : State) (n : Nat) : Nat := (s.ctx n).slice * 10000

/-- The effective priority after waiting, and the TNS of its next rise. -/
def agedDue (slice since prio eprio : Nat) : Nat := since + 8 * slice * (eprio + 1 - prio)

/-- EPRIO_AGE (R66): eight more slices have been waited by a grid's unplaced workgroups or by a workgroup. -/
def execEprioAge (grid : Bool) (key : Nat) (s : State) : Out :=
  .next (if grid then
      match mapGet? s.grids key with
      | some g =>
        if 7 ≤ g.eprio || g.next?.isNone then s
        else { s.atLeast (agedDue (s.sliceNs g.lrec.ctx) g.waitTns g.lrec.prio g.eprio) with
                 grids := mapSet s.grids key { g with eprio := g.eprio + 1 } }
      | none => s
    else
      match s.wg? key with
      | some w =>
        if 7 ≤ w.eprio || !(w.state = .swapped || w.state = .waiting) then s
        else (s.atLeast (agedDue (s.sliceNs w.ctx) w.waitTns w.prio w.eprio)).setWg key { w with eprio := w.eprio + 1 }
      | none => s)

/-- Whether a workgroup is parked, and since when (R67). -/
def State.parkedSince (s : State) (w : Nat) : Option Nat :=
  let gs := (s.groupsOf w).filterMap s.grp?
  if !gs.isEmpty && gs.all fun g => g.park ≠ 0 then some (gs.foldl (fun a g => max a g.parkTns) 0) else none

/-- Whether a group of the workgroup is in handler mode or waits for the bank. -/
def State.inTrap (s : State) (w : Nat) : Bool :=
  (s.groupsOf w).any fun k => match s.grp? k with | some g => g.inH || g.bankWait.isSome | none => false

/-- The lowest free save slot of a context (R65). -/
def State.freeSaveSlot (s : State) (n : Nat) : Option Nat :=
  let c := s.ctx n
  let k := ((List.range (c.slots.length + 1)).find? fun i => !c.slots.contains i).getD 0
  if k < c.nslot then some k else none

/-- What of a need exceeds limits beside a use, and is reduced by a workgroup of `n` groups. -/
def quotaHelped (u lim : Quota) (d : Need) (v : Workgroup) (n : Nat) : Bool :=
  (lim.gs < u.gs + d.n && 0 < n) || (lim.rf < u.rf + d.n * d.allot && 0 < n) || (lim.wgm < u.wgm + d.wgmw && 0 < v.wgmw) ||
    (lim.ts < u.ts + d.tsrows && 0 < v.tsrows) || (lim.bs < u.bs + d.bslots && 0 < v.bslots)

/-- Whether evicting workgroup `w` frees space on a core that head `h` may use, or quota that it lacks (R68). -/
def State.helps (s : State) (h : Wait) (w : Nat) (v : Workgroup) : Bool :=
  let d := s.need h
  let n := (s.groupsOf w).length
  s.mayUse h v.core || (v.ctx = d.ctx && quotaHelped (s.usage fun x => x.ctx = d.ctx) (s.ctx d.ctx).quota d v n) ||
    (v.qcls = d.qcls && quotaHelped (s.usage fun x => x.qcls = d.qcls) (mapGet s.classes d.qcls {}) d v n)

/-- Eligible victims for a head, with a slot or not (R68). -/
def State.victims (s : State) (h : Wait) : List (Nat × Workgroup) :=
  s.wgs.filter fun kv =>
    kv.2.state = .resident && !kv.2.evict && kv.2.eprio ≤ h.eprio && !s.inTrap kv.1 && s.helps h kv.1 kv.2

/-- The tier-1 victims: parked longer than their slice. -/
def State.tier1 (s : State) (h : Wait) : List (Nat × Workgroup) :=
  (s.victims h).filter fun kv => match s.parkedSince kv.1 with
    | some t => t + s.sliceNs kv.2.ctx < s.dev.tns
    | none => false

/-- The tier-2 victims: once the head has waited a slice, those resident for a slice. -/
def State.tier2 (s : State) (h : Wait) : List (Nat × Workgroup) :=
  if h.since + s.sliceNs (s.need h).ctx ≤ s.dev.tns then
    (s.victims h).filter fun kv => kv.2.residentTns + s.sliceNs kv.2.ctx ≤ s.dev.tns
  else []

/-- Save slots of a context that are free, those for which a workgroup is marked already apart (R65, R68). -/
def State.slotsLeft (s : State) (n : Nat) : Nat :=
  (s.ctx n).nslot - (s.ctx n).slots.length - (s.wgs.filter fun kv => kv.2.ctx = n && kv.2.evict && kv.2.state = .resident).length

/-- Whether a workgroup can have a save slot of its context: one that is marked needs a free one, another one that none waits
for (R65). -/
def State.slotFree (s : State) (v : Workgroup) : Bool :=
  if v.evict then (s.freeSaveSlot v.ctx).isSome else 0 < s.slotsLeft v.ctx

/-- Put a victim in its place by a time. -/
def insVictim (x : Nat × Nat × Workgroup) : List (Nat × Nat × Workgroup) → List (Nat × Nat × Workgroup)
  | [] => [x]
  | y :: r => if x.1 < y.1 then x :: y :: r else y :: insVictim x r

/-- The victims for a head in the order of their evictions, by key: longest parked of tier 1, then longest resident of
tier 2 (R68). -/
def State.victimOrder (s : State) (h : Wait) : List (Nat × Workgroup) :=
  let sort (l : List (Nat × Nat × Workgroup)) : List (Nat × Workgroup) := (l.foldl (fun m x => insVictim x m) []).map Prod.snd
  let one := sort ((s.tier1 h).map fun kv => ((s.parkedSince kv.1).getD 0, kv))
  one ++ (sort ((s.tier2 h).map fun kv => (kv.2.residentTns, kv))).filter fun kv => !one.any fun x => x.1 = kv.1

/-- The victim whose turn it is: the first whose context has a save slot free. -/
def State.victim? (s : State) (h : Wait) : Option Nat := ((s.victimOrder h).find? fun kv => s.slotFree kv.2).map Prod.fst

/-- The evictions that are due and withheld for want of a save slot: those of the victims before the one whose turn it
is (R65). -/
def State.withheldFor (s : State) (h : Wait) : List (Nat × Workgroup) := (s.victimOrder h).takeWhile fun kv => !s.slotFree kv.2

/-- The machine as it will be once the saves under way are over: their workgroups swapped out. A workgroup that is marked but
cannot be saved now, for want of a save slot or because it is in a handler, does not count among them. -/
def State.afterSaves (s : State) : State :=
  { s with wgs := mapAll s.wgs fun k w =>
      if w.state = .saving || (w.evict && w.state = .resident && s.slotFree w && !s.inTrap k) then { w with state := .swapped } else w }

/-- Whether head `h` can be placed neither now nor after the saves under way (R68). -/
def State.headStuck (s : State) (h : Wait) : Bool := (s.findPlace h).isNone && (s.afterSaves.findPlace h).isNone

/-- EVICT_WORKGROUP (R65, R68): the victim whose turn it is, while the head can be placed neither now nor after the saves
under way; an eviction that is due and that only the want of a save slot withholds is counted, once for each head. -/
def execEvictWorkgroup (w : Nat) (s : State) : Out :=
  .next (match firstWait s.waiting with
    | none => s
    | some h =>
      if !s.headStuck h then s
      else if s.victim? h = some w then s.modWg w fun v => { v with evict := true }
      else match (s.withheldFor h).find? fun kv => kv.1 = w with
        | some (_, v) =>
          if v.withheld ≠ some (h.grid, h.wgid, h.since) then
            (s.setWg w { v with withheld := some (h.grid, h.wgid, h.since) }).count 4
          else s
        | none => s)

/-- Whether the save of a marked workgroup is still wanted: by `preempt`, or because the head can be placed neither now nor
after the other saves (R68, R80). -/
def State.saveWanted (s : State) (w : Nat) (v : Workgroup) : Bool :=
  v.preempted || match firstWait s.waiting with
    | some h => (s.setWg w { v with evict := false }).headStuck h
    | none => false

/-! ### Save and resume (R70-R73) -/

/-- SAVE_BEGIN (R71 step 1): issue stops at a unit boundary; copies supplied whole have started (R257). Without a free save
slot the workgroup stays marked and waits for one (DESIGN CHOICE, LE 67). Once the head it was to be evicted for can be placed, its
eviction is withdrawn (R68). -/
def execSaveBegin (w : Nat) (s : State) : Out :=
  .next (match s.wg? w with
    | none => s
    | some v =>
      if !v.evict || v.state ≠ .resident then s
      else if !s.saveWanted w v then s.setWg w { v with evict := false }
      else match s.freeSaveSlot v.ctx with
      | none => s
      | some k =>
        if s.inTrap w then s
        else
          let s1 := v.copies.foldl (fun t c => t.startCopy w c.num) s
          let s2 := s1.modWg w fun x => { x with state := .saving, evict := false, preempted := false, saveSlot := some k, saveTns := s.dev.tns }
          (s.groupsOf w).foldl (fun t g => match t.grp? g with | some x => t.cuFlush x | none => t)
            (s2.modCtx v.ctx fun c => { c with slots := c.slots ++ [k] }))

/-- Whether a group's work has drained but for its Cumulus buffers (R71 steps 2 and 5, R74). The spill engine stops between two
positions, and its SPC is saved (R95). An issued access that R190 orders behind a parked one is neither cancelled nor recorded:
the save waits for both (R197; DESIGN CHOICE, LE 78). -/
def Group.drained (g : Group) : Bool :=
  (g.ops.all fun o => o.done || o.saved g) && (g.mxq.all fun m => m.started = m.step) &&
    g.queues.all fun q => q.ents.all fun e => e.filled

/-- Whether a slice writes one of the workgroup's own spaces, or still reads one (R255). -/
def CopySlice.usesOwn (l : CopySlice) : Bool :=
  !l.done && (l.dsp ≠ 0 || l.fn = 1 ||
    (l.ssp ≠ 0 && (l.pos + l.stage.length < l.total || (l.fn = 0 && l.verf && !l.passed))))

/-- Whether a started copy holds a save up: a slice not handed over yet, or one that uses the workgroup's own spaces (R255). -/
def Copy.own (c : Copy) : Bool := c.started && !c.done && c.slices.any fun l => !l.done && (!l.handed || l.usesOwn)

/-- The slices that only read the workgroup's own spaces finish their reads (R255). -/
def State.finishReads (s : State) (wk : Nat) : State :=
  match s.wg? wk with
  | none => s
  | some w =>
    (w.copies.flatMap fun c => c.slices.zipIdx.map fun p => (c.num, p.2, p.1)).foldl (fun t p =>
      let l := p.2.2
      if l.handed && l.usesOwn && l.dsp = 0 && l.fn ≠ 1 && !l.aon && !l.verf then
        match State.fillStage wk p.1 p.2.1 (l.total - l.pos) (l.total - l.pos) t with
        | .go u => u
        | _ => t
      else t) s

/-- The groups at an `exit` whose work is over end during the save (R73, R112). -/
def State.endExiting (s : State) (wk : Nat) : State :=
  (s.groupsOf wk).foldl (fun t k => match t.grp? k with
    | some g => if g.exiting && g.ops.isEmpty && g.mxq.isEmpty && g.dirtyMask = 0 && g.faults.isEmpty && !g.agg && !g.peerP
        then t.endGroup k g else t
    | none => t) s

/-- An `fla` that waits when a save starts has its flush from the save, and its group resumes after it (R349); with a trap
pending it is taken there (R344). -/
def State.passFlas (s : State) (wk : Nat) : State :=
  (s.groupsOf wk).foldl (fun t k => t.modGrp k fun g =>
    if g.flaWait && g.dirtyMask = 0 && !g.agg && !g.peerP && g.ops.all (fun o => o.performed || !o.isAgg) then
      { g with flaWait := false, pc := g.pc + 4 }
    else { g with flaWait := false }) s

/-- A save slot is free again. -/
def State.freeSlot (s : State) (n : Nat) (slot : Option Nat) : State :=
  s.modCtx n fun c => { c with slots := c.slots.filter fun i => some i ≠ slot }

/-- SAVE_COMPLETE (R71 steps 2 to 7): the work has drained, the Cumulus buffers filled meanwhile have been flushed as `fla`
flushes them, and the image is written. What is in the image is kept nowhere else. -/
def execSaveComplete (w : Nat) (s : State) : Out :=
  .next (match s.wg? w with
    | none => s
    | some v0 =>
      let gs (t : State) : List Group := (t.groupsOf w).filterMap t.grp?
      if v0.state ≠ .saving || !((gs s).all Group.drained) then s
      else if (gs s).any fun g => g.dirtyMask ≠ 0 then (gs s).foldl (fun t g => t.cuFlush g) s
      else
        let s0 := ((s.endExiting w).passFlas w).finishReads w
        match s0.wg? w with
        | none => s0.freeSlot v0.ctx v0.saveSlot
        | some v =>
          if (gs s0).isEmpty then (s0.modWg w fun x => { x with saveSlot := none }).freeSlot v0.ctx v0.saveSlot
          else if v.copies.any Copy.own then s0
          else
            let s1 := s0.writeImage w
            let s2 := (s1.groupsOf w).foldl (fun t k => t.modGrp k Group.husk) s1
            let v1 : Workgroup :=
              { v with state := .swapped, waitTns := v.saveTns, eprio := v.prio, wgm := [], tiles := [], bst := [], btag := [] }
            ((s2.setWg w v1).syncDirty (dieOfCore v.core)).noteIdle (clusterOfCore v.core))

/-- RESUME_WORKGROUP (R72): a swapped-out workgroup is placed, its header rewritten with STATE 2. -/
def execResumeWorkgroup (w core : Nat) (slots : List Nat) (base : Nat) (s : State) : Out :=
  let fit (x : Wait) : Bool := x.key = some w && s.fitsAt (s.need x) core slots base
  .next (match s.candidate core fit, s.wg? w with
    | some _, some v =>
      if v.state ≠ .swapped then s
      else
        let v0 := v.fromSync (s.rdNat (s.imageBase v) 256) (s.rdNat (s.imageAt v 5) 4096)
        let v1 := { v0 with state := .resuming, core := core, base := base, clu := clusterOfCore core, eprio := v.prio,
                            residentTns := s.dev.tns, withheld := none }
        let s1 := (s.writeHeader v1 2).setWg w v1
        let s2 := (s.groupsOf w).zipIdx.foldl (fun t p =>
          t.modGrp p.1 fun g => { g with slot := core * 128 + slots.getD p.2 0 }) s1
        (s2.onCore v.ctx core).l1Trim core
    | _, _ => s)

/-- The recorded accesses of a group, and an `mwait` whose read was not translated yet, are reissued in their order (R72,
R197, R228, R320); of a unit one of whose registers waits again, the later ones wait with it (R193). -/
def State.reissue (s : State) (k : Nat) (ids : List Nat) : State :=
  ids.foldl (fun t id => match t.grp? k with
    | some g => (match g.op? id with
      | some o =>
        (match o.wait, (g.before o).any fun p => p.unit ≠ 0 && p.unit = o.unit && p.wait ≠ .flight with
         | .flight, _ => t
         | _, true => t
         | _, false => if o.kind = .mwait then t.mwaitTry k g o else t.retryOp k g { o with again := 1 })
      | none => t)
    | none => t) s

/-- What a resumed group finds (R71, R72, R104, R277): its monitor's status, a fault recorded while it waited. -/
def State.resumeGrp (s : State) (k : Nat) : State :=
  match s.grp? k with
  | none => s
  | some g0 =>
    let slept := g0.park = 7 && g0.woken
    let g : Group := { g0 with iparked := none, spc := { g0.spc with park := none }, woken := g0.woken && !slept,
                               park := if slept then 0 else g0.park, parkArg := if slept then [] else g0.parkArg }
    let s1 := (s.setGrp k g).reissue k (g.ops.map Op.id)
    match s1.grp? k with
    | none => s1
    | some g1 =>
      match g1.monStatus with
      | some st => s1.giveStatus k g1 st
      | none => s1.takeParked k

/-- RESUME_COMPLETE (R72): every record is restored from the image, the cancelled accesses are reissued, the partial copies' slices
are handed to the engine again (R255), the workgroup is resident and its image slot free. -/
def execResumeComplete (w : Nat) (s : State) : Out :=
  .next (match s.wg? w with
    | none => s
    | some v =>
      if v.state ≠ .resuming then s
      else
        let s1 := ((s.restore w).modWg w fun x =>
          { x with state := .resident, saveSlot := none, residentTns := s.dev.tns, cplc := 0 }).freeSlot v.ctx v.saveSlot
        let s2 := ((s1.groupsOf w).foldl (fun t k => t.resumeGrp k) s1).handSlices w fun _ => true
        (s2.barCheck w).syncWake)

/-! ### Grid completion (R61) -/

/-- Raise timeline x of a context to at least v (R262). -/
def State.raiseTl (s : State) (n x v : Nat) : State :=
  let i := s.tlIndex n x
  if (mapGet s.dev.tl i 0).toNat < v then
    (s.modDev fun d => { d with tl := mapSet d.tl i (BitVec.ofNat 64 v) }).syncWake
  else s

/-- GRID_COMPLETE (R61). A grid of a stopped context does not complete (R26, R27). -/
def execGridComplete (n : Nat) (s : State) : Out :=
  .next (match mapGet? s.grids n with
    | none => s
    | some g =>
      if g.nextW < g.total || (s.ctx g.lrec.ctx).stopped || g.live ≠ 0 || g.spawned ≠ 0 || s.wgs.any (fun kv => kv.2.grid = n) ||
        s.cores.any (fun kv => kv.2.bins.any fun b => b.2.grid = n) then s
      else
        let s1 := { s with grids := mapDel s.grids n }
        if g.lrec.ctln = 0 then s1 else s1.raiseTl g.lrec.ctx g.lrec.ctln g.lrec.cval.toNat)

/-! ### The regroup unit (R75, R79) -/

/-- Spawned groups of a context that wait for their first placement. -/
def State.storeCount (s : State) (n : Nat) : Nat :=
  (s.wgs.filter fun kv => kv.2.ctx = n && kv.2.state = .waiting).length

/-- A bin forms its group, which joins the pending store; none when the store is full. -/
def State.formBin (s : State) (core bin : Nat) : Option State :=
  match mapGet? (s.core core).bins bin with
  | none => some s
  | some b =>
    if Config.pendingStore ≤ s.storeCount b.ctx then none
    else
      let r := (mapGet s.grids b.grid {}).lrec
      let (k, s1) := s.fresh1
      let w : Workgroup :=
        { grid := b.grid, ctx := b.ctx, state := .waiting, allot := r.allot, prio := r.prio, eprio := r.prio, qcls := r.qcls,
          wgid := BitVec.ofNat 64 ((s.ctx b.ctx).spawnSer % 2 ^ 63 + 2 ^ 63), spawnKey := some b.key.toNat, entry := b.entry,
          deps := b.deps, waitTns := s.dev.tns }
      let s2 := (s1.setWg k w).modCore core fun c => { c with bins := mapDel c.bins bin }
      some ({ s2 with grids := mapMod s2.grids b.grid fun g => { g with spawned := g.spawned + 1 } }.modCtx b.ctx fun c =>
        { c with spawnSer := c.spawnSer + 1 })

/-- A new bin for a deposit: a free one, or the open bin with the oldest first deposit, whose group forms. -/
def State.newBin (s : State) (core : Nat) : Option (Nat × State) :=
  let bins := (s.core core).bins
  match (List.range Config.binsPerCore).find? fun i => (mapGet? bins i).isNone with
  | some i => some (i, s)
  | none =>
    let old := (bins.filter fun b => !b.2.closed).foldl (fun (best : Option (Nat × Bin)) b => match best with
      | some x => if b.2.ord < x.2.ord then some b else some x
      | none => some b) none
    match old with
    | some (i, _) => (s.formBin core i).map fun t => (i, t)
    | none => none

/-- One deposit (R75); none when it is refused. -/
def State.deposit (s : State) (core : Nat) (b : Bin) (d : List Word) : Option State :=
  let same (x : Bin) : Bool := !x.closed && x.ctx = b.ctx && x.grid = b.grid && x.entry = b.entry && x.key = b.key
  let put (t : State) (i : Nat) (x : Bin) : Option State :=
    let t1 := t.modCore core fun c => { c with bins := mapSet c.bins i { x with deps := x.deps ++ [d] } }
    if x.deps.length + 1 = 64 then t1.formBin core i else some t1
  match (s.core core).bins.find? fun x => same x.2 with
  | some (i, x) => put s i x
  | none =>
    match s.newBin core with
    | none => none
    | some (i, t) =>
      let (ord, t1) := t.fresh1
      put t1 i { b with start := s.dev.tns, ord := ord }

/-- The deposits of a `spawn`, by ascending lane; none when the unit is refused whole. -/
def State.deposits (s : State) (core : Nat) : List (Bin × List Word) → Option State
  | [] => some s
  | x :: r => match s.deposit core x.1 x.2 with
    | some t => t.deposits core r
    | none => none

/-- The deposits of a group at a `spawn` whose payload base, entry and key field are given. -/
def spawnList (g : Group) (grid : Nat) (d : VFld) (a : SReg) (b : VFld) : List (Bin × List Word) :=
  (lanesOn g.exm).map fun i =>
    ({ ctx := g.ctx, grid := grid, entry := g.readS a.val, key := g.src b i }, (fieldsFrom d 4).map fun f => g.src f i)

/-- spawn (R79): a release at DEV scope, then every active lane deposits, or the group parks refused at the unit (R75; its PC
and its park argument: DESIGN CHOICE, LE 28). -/
def execSpawn (d : VFld) (a : SReg) (b : VFld) (s : State) : Out :=
  let u := { u25 12 d.val a.val b.val with vr := b :: fieldsFrom d 4, sr := [a.val] }
  issue u
    (fun s k _ g g1 =>
      let va := g.readS a.val
      if va.toNat % 4 ≠ 0 then .trap (u.preciseTrap g 4 va)
      else if badVA va then .trap (u.preciseTrap g 5 va)
      else if g.ops.any (fun o => !o.performed && (o.isAcc || o.isAgg)) then .wait
      else if g.dirtyMask ≠ 0 then .waitSt (s.cuFlush g)
      else match (s.setGrp k g1).deposits g.core (spawnList g ((s.wg? g.wg).elim 0 Workgroup.grid) d a b) with
        | some t => .st t
        | none => .st (s.setGrp k { g with park := 8, parkTns := s.dev.tns,
                                           parkArg := [va, BitVec.ofNat 64 d.val, BitVec.ofNat 64 a.val, BitVec.ofNat 64 b.val] })) s

/-- Time a bin's timer ends. -/
def State.binDue (s : State) (core : Nat) (b : Bin) : Nat := b.start + (s.core core).sptmr * 1000

/-- REGROUP_BIN_TIMER (R75): the bin forms its group, or closes when the store is full. -/
def execRegroupBinTimer (core bin : Nat) (s : State) : Out :=
  .next (match mapGet? (s.core core).bins bin with
    | none => s
    | some b =>
      if b.closed then s
      else
        let s1 := s.atLeast (s.binDue core b)
        match s1.formBin core bin with
        | some t => t
        | none => s1.modCore core fun c => { c with bins := mapSet c.bins bin { b with closed := true } })

/-- A refused `spawn` that can now be done completes whole. -/
def State.retrySpawn (s : State) (k : Nat) : State :=
  match s.grp? k with
  | none => s
  | some g =>
    if g.park ≠ 8 || !s.residentGrp g then s
    else
      let fld (i : Nat) : Nat := (regGet g.parkArg i).toNat
      let l := spawnList g ((s.wg? g.wg).elim 0 Workgroup.grid) (Fin.ofNat 128 (fld 1)) (Fin.ofNat 64 (fld 2)) (Fin.ofNat 128 (fld 3))
      let qs := queuesOf [Fin.ofNat 128 (fld 3)]
      let g1 := if g.exm = 0 then g else qs.foldl Group.popQ g
      match (s.setGrp k { g1 with park := 0, parkArg := [], pc := g.pc + 4 }).deposits g.core l with
      | some t => t
      | none => s

/-- Insert a bin by the order of its first deposit. -/
def insBin (b : Nat × Bin) : List (Nat × Bin) → List (Nat × Bin)
  | [] => [b]
  | x :: r => if b.2.ord ≤ x.2.ord then b :: x :: r else x :: insBin b r

/-- REGROUP_STORE_ROOM (R75): closed bins form their groups, the one with the oldest first deposit first (DESIGN CHOICE, LE 70),
then refused spawns complete. -/
def execRegroupStoreRoom (core : Nat) (s : State) : Out :=
  let closed := ((s.core core).bins.filter fun b => b.2.closed).foldr (fun b l => insBin b l) []
  let s1 := closed.foldl (fun t b => (t.formBin core b.1).getD t) s
  .next ((mapKeys s.groups fun _ g => g.park = 8 && g.core = core).foldl (fun t k => t.retrySpawn k) s1)

/-! ### Cluster gating (R77) -/

/-- Whether a workgroup that is served next is dispatched to cluster `l` now. -/
def State.dispatches (s : State) (l : Nat) : Bool :=
  (List.range 4).any fun i => match (s.nextFor (4 * l + i)).bind s.findPlace with
    | some (core, _) => clusterOfCore core = l
    | none => false

/-- CLUSTER_IDLE_GATE (R77): the idle timer reaches CLIDLE. A dispatch to the cluster in the same cycle wins: the request
is cancelled and the timer cleared. -/
def execClusterIdleGate (l : Nat) (s : State) : Out :=
  let c := s.cluster l
  .next (if c.gate ≠ .powered || !c.idle || !s.clusterIdle l then s
    else if s.dispatches l then s.setCluster l { c with idleTns := s.dev.tns }
    else
      let s1 := s.atLeast (c.idleTns + c.clidle * 1000)
      ((List.range 4).foldl (fun t i => t.settleCore (4 * l + i)) s1).setCluster l { c with gate := .gating })

/-- Whether a workgroup that finds no powered core would be placed on cluster `l` if that were powered. -/
def State.wantsCluster (s : State) (l : Nat) : Bool :=
  let t := s.setCluster l { s.cluster l with gate := .powered }
  (List.range 4).any fun i => match t.nextFor (4 * l + i) with
    | some w => (s.findPlace w).isNone
    | none => false

/-- CLUSTER_UNGATE (R77): a dispatch to a gated cluster reverses its gating. -/
def execClusterUngate (l : Nat) (s : State) : Out :=
  let c := s.cluster l
  .next (if c.gate = .gating && s.wantsCluster l then s.setCluster l { c with gate := .ungating, dispatch := true } else s)

/-- CLUSTER_POWERED (R77): the cluster is powered again; its cores counted no cycle meanwhile (R89). -/
def execClusterPowered (l : Nat) (s : State) : Out :=
  let c := s.cluster l
  .next (if c.gate = .ungating then
      (List.range 4).foldl (fun t i => t.modCore (4 * l + i) fun v => { v with busy := s.dev.now5 })
        (s.setCluster l { c with gate := .powered, dispatch := false, idleTns := s.dev.tns })
    else s)

/-! ### launch, preempt and resume, and crsz as they return (R78, R80, R203) -/

/-- A code is written to the destination of an operation, which ends. -/
def State.giveCode (s : State) (k : Nat) (o : Op) (c : DWord) : State :=
  s.modGrp k fun g => (o.dst.foldl (fun h d => h.writeSDst d c) g).finishOp o.id

/-- The code of `launch` (operation `id`), none while its record waits to be read, and the machine after it (R78). -/
def State.doLaunch (s : State) (g : Group) (id va : Nat) : Option Nat × State :=
  match s.readRecord (.op id) g.ctx va g.core with
  | .bad => (some 8, s.release (.op id))
  | .wait t => (none, t)
  | .raw raw =>
    let r0 := parseLaunch raw
    let p := match s.wg? g.wg with | some w => w.prio | none => 0
    let r := { r0 with ctx := g.ctx, prio := min r0.prio p }
    match s.launchCode g.ctx true raw r (4096 ≤ s.grids.length) with
    | 0 => (some 0, (s.release (.op id)).enterGrid (64 + g.wg) r)
    | c => (some c, s.release (.op id))

/-- Whether a workgroup is named by an operand of `preempt` or `resume`. -/
def namedWg (a : DWord) (wgid : DWord) (w : Workgroup) : Bool :=
  w.ctx = a.toNat % 64 && w.state ≠ .exited && (a.getLsbD 8 || w.wgid = wgid)

/-- Whether a grid has an unplaced workgroup of a WGID. -/
def Grid.unplaced (g : Grid) (n : Nat) : Bool := g.nextW ≤ n && n < g.total && !g.placed.contains n

/-- The code of `preempt` and `resume` (R80); `res` for `resume`. The lowest that applies; bits [7:6] of
the operand, of which R80 says nothing, count as reserved (DESIGN CHOICE, LE 23). -/
def State.preemptCode (s : State) (g : Group) (a wgid : DWord) (res : Bool) : Nat :=
  let n := a.toNat % 64
  let any := s.wgs.any (fun kv => namedWg a wgid kv.2) || s.grids.any fun kv => kv.2.lrec.ctx = n && kv.2.unplaced wgid.toNat
  if !(s.ctx n).en then 1
  else if !a.getLsbD 8 && !any then 2
  else if a.toNat / 2 ^ 10 ≠ 0 || bitsOf a.toNat 6 2 ≠ 0 || (res && a.getLsbD 9) then 3
  else if match s.wg? g.wg with | some w => namedWg a wgid w | none => false then 4
  else 0

/-- Hold or release the named workgroups off placement (R80). -/
def State.holdNamed (s : State) (a wgid : DWord) (h : Bool) : State :=
  let n := a.toNat % 64
  { s with
    wgs := mapAll s.wgs fun _ w => if namedWg a wgid w then { w with held := h } else w,
    grids := mapAll s.grids fun _ g =>
      if g.lrec.ctx ≠ n then g
      else if a.getLsbD 8 then { g with heldAll := h, heldX := [] }
      else if g.unplaced wgid.toNat && g.isHeld wgid.toNat ≠ h then
        (if g.heldX.contains wgid.toNat then { g with heldX := g.heldX.filter (· ≠ wgid.toNat) }
         else { g with heldX := g.heldX ++ [wgid.toNat] })
      else g }

/-- The images of the named workgroups that are swapped out say whether they are held (R74, R80). -/
def State.holdImages (s : State) (a wgid : DWord) : State :=
  (mapKeys s.wgs fun _ w => namedWg a wgid w).foldl (fun t k => t.pushHold k) s

/-- `preempt` takes effect (R80): resident ones are marked for their save, with HOLD all are held. -/
def State.doPreempt (s : State) (a wgid : DWord) : State :=
  let mark (w : Workgroup) : Workgroup := if namedWg a wgid w && w.state = .resident then { w with evict := true, preempted := true } else w
  let s1 := { s with wgs := mapAll s.wgs fun _ w => mark w }
  if a.getLsbD 9 then (s1.holdNamed a wgid true).holdImages a wgid else s1

/-- Whether every named workgroup is swapped out or was not resident (R80). -/
def State.preemptDone (s : State) (a wgid : DWord) : Bool :=
  s.wgs.all fun kv => !(namedWg a wgid kv.2 && (kv.2.evict || kv.2.state = .saving))

/-- The code of `crsz` and the machine after it (R203). Where several codes apply the lowest is given, and a shrink has no quota
to exceed (DESIGN CHOICE, LE 23). -/
def State.doCrsz (s : State) (g : Group) (n : Nat) : Nat × State :=
  match s.wg? g.wg with
  | none => (0, s)
  | some w =>
    let more (lim u : Quota) : Bool := lim.wgm < u.wgm - w.wgmw + n
    if 16 < n then (1, s)
    else if w.wgmw < n && (more (s.ctx w.ctx).quota (s.usage fun v => v.ctx = w.ctx) ||
        more (mapGet s.classes w.qcls {}) (s.usage fun v => v.qcls = w.qcls)) then (2, s)
    else if 16 < s.wgmWays w.core - w.wgmw + n then (3, s)
    else (0, (s.setWg g.wg { w with wgmw := n, wgm := memTrim w.wgm (n * Config.wayBytes) }).l1Trim w.core)

end Sys2Proof.Machine
end

