-- ==== Sys2Proof/Machine/MatrixUnits.lean ====
section
/-! DEFINITION. Major 24 and the matrix engine (R279-R301): the units and their checks, the steps, their start and
completion, `tld` and `tst`. -/

namespace Sys2Proof.Machine

/-! ### The descriptor (R283, R289) -/

/-- A field of a descriptor register of a unit. -/
def MxUnit.fld (m : MxUnit) (n lo w : Nat) : Nat := bitsOf (regGet m.desc n).toNat lo w
/-- AF of the configuration the unit read. -/
def MxUnit.af (m : MxUnit) : Nat := m.arg.toNat % 16
/-- AMX. -/
def MxUnit.amx (m : MxUnit) : Bool := bitOf m.arg.toNat 4
/-- N columns. -/
def MxUnit.cols (m : MxUnit) : Nat := 256 / 2 ^ bitsOf m.arg.toNat 5 2
/-- M rows. -/
def MxUnit.rows (m : MxUnit) : Nat := 16 * (bitsOf m.arg.toNat 7 3 + 1)
/-- Bytes between A rows. -/
def MxUnit.apitch (m : MxUnit) : Nat := 16 * bitsOf m.arg.toNat 10 12
/-- Bytes between rows of A scales. -/
def MxUnit.aspitch (m : MxUnit) : Nat := 8 * bitsOf m.arg.toNat 22 12
/-- K (R284). -/
def MxUnit.depth (m : MxUnit) : Nat := if m.af = 0 then 512 else if m.af ≤ 4 then 256 else 128
/-- CROW. -/
def MxUnit.crow (m : MxUnit) : Nat := m.fld 1 0 10
/-- CCOL as a column. -/
def MxUnit.ccol (m : MxUnit) : Nat := 64 * m.fld 1 10 3
/-- Whether A lies in the tile store. -/
def MxUnit.aTile (m : MxUnit) : Bool := m.fld 0 44 1 = 1
/-- Steps of the unit. -/
def MxUnit.total (m : MxUnit) : Nat := if m.op = 1 then m.fld 2 0 12 else 1
/-- AOFF of step i (R290). -/
def MxUnit.aoff (m : MxUnit) (i : Nat) : Int := m.fld 0 0 22 + if m.op = 1 then i * sextNat 16 (m.fld 2 12 16) else 0
/-- ASOFF of step i. -/
def MxUnit.asoff (m : MxUnit) (i : Nat) : Int := m.fld 0 22 22 + if m.op = 1 then i * sextNat 12 (m.fld 2 28 12) else 0
/-- The B-store slot of step i; the SLOT field when there is no slot. -/
def MxUnit.slot (m : MxUnit) (bslots i : Nat) : Nat :=
  if m.op = 1 && bslots ≠ 0 then (m.fld 1 16 6 + i * m.fld 2 40 6) % bslots else m.fld 1 16 6
/-- The rectangle of `mxzero`: first row, rows, first column, columns (R291). -/
def MxUnit.rect (m : MxUnit) : Nat × Nat × Nat × Nat := (m.fld 0 0 10, m.fld 0 10 11, 64 * m.fld 0 21 3, 64 * m.fld 0 24 4)

/-- Whether a value is legal in MXC (R288). -/
def mxcOk (v : Nat) : Bool := v / 2 ^ 34 = 0 && v % 16 ≤ 6 && (!bitOf v 4 || v % 16 ≤ 2) && bitsOf v 5 2 ≠ 3

/-- The rules of R289, R291 and R292 on the values read. -/
def MxUnit.ok (m : MxUnit) : Bool :=
  match m.op with
  | 2 => let (_, nr, cc, nc) := m.rect
         1 ≤ nr && nr ≤ 1024 && 64 ≤ nc && cc + nc ≤ 512 && m.fld 0 28 36 = 0
  | 3 => m.fld 0 6 26 = 0
  | _ =>
    m.fld 0 45 19 = 0 && m.fld 0 0 4 = 0 && m.fld 0 22 3 = 0 && (m.amx || m.fld 0 22 22 = 0) &&
    m.fld 1 13 3 = 0 && m.fld 1 38 26 = 0 && m.ccol + m.cols ≤ 512 && m.fld 1 16 6 ≤ 47 &&
    (m.fld 1 23 1 = 1 || m.fld 1 24 14 = 0) &&
    (m.op = 0 ||
      (1 ≤ m.fld 2 0 12 && m.fld 2 12 4 = 0 && m.fld 2 28 3 = 0 && (m.amx || m.fld 2 28 12 = 0) && m.fld 2 40 6 ≤ 47 &&
        m.fld 2 61 3 = 0 && m.fld 3 32 32 = 0 && (m.fld 2 46 1 = 1 || (m.fld 2 47 14 = 0 && m.fld 3 0 32 = 0))))

/-- The semaphores a unit names (R290, R292). -/
def MxUnit.sems (m : MxUnit) : List Nat :=
  match m.op with
  | 2 => []
  | 3 => [m.fld 0 0 6]
  | _ => (if m.fld 1 23 1 = 1 then [m.fld 1 24 6] else []) ++ (if m.op = 1 && m.fld 2 46 1 = 1 then [m.fld 2 47 6] else [])

/-! ### The units (R286-R293) -/

/-- A unit of major 24. -/
def u24 (fn d a : Nat) : Uop := { maj := 24, cls := 1, base := wordA 24 d a 0 fn, hnd := true }

/-- Name semaphores one after the other. -/
def State.nameSemas (s : State) (w : Nat) : List Nat → Option State
  | [] => some s
  | n :: r => match s.nameSema w n with
    | some t => t.nameSemas w r
    | none => none

/-- Whether a WGM store or atomic, or a tile transfer, of the group holds a matrix unit back (R294). -/
def Group.holdsMatrix (g : Group) : Bool :=
  g.ops.any fun o => !o.performed &&
    (o.kind = .tld || o.kind = .tst || (o.onWgm && match o.kind with | .load .. => false | _ => true))

/-- A matrix unit of kind `op` with `n` descriptor registers (R287). -/
def mxUnit (op n : Nat) (d a : SReg) (s : State) : Out :=
  let u := { u24 (if op = 3 then 6 else op) d.val a.val with
               sr := (List.range n).map fun i => a.val + i, sw := [d.val] }
  issue u
    (fun s k _ g g1 =>
      let m : MxUnit := { num := g.nis + 1, op := op, desc := (List.range n).map fun i => g.readS (a.val + i),
                          pc := g.pc, arg := g.mxc }
      if 8 ≤ g.mxq.length || g.holdsMatrix || (op ≠ 3 && !g.room .mx 1) then .wait
      else if !m.ok then .trap (u.preciseTrap g 1 0)
      else match s.nameSemas g.wg m.sems with
        | none => .wait
        | some s1 =>
          let o : Op := { id := s.nextId, unit := s.nextId, pc := g.pc, maj := 24, fn := op, ctr := .mx, kind := .matrix,
                          arg := [BitVec.ofNat 64 m.num] }
          let g2 := { (g1.writeS d.val (BitVec.ofNat 64 m.num)) with nis := m.num, mxq := g.mxq ++ [m] }
          .st (({ s1 with nextId := s1.nextId + 1 } : State).setGrp k (if op = 3 then g2 else g2.addOp o))) s

/-- mma (R290). -/
def execMma (d a : SReg) (s : State) : Out := mxUnit 0 2 d a s
/-- mxloop (R290). -/
def execMxloop (d a : SReg) (s : State) : Out := mxUnit 1 4 d a s
/-- mxzero (R291). -/
def execMxzero (d a : SReg) (s : State) : Out := mxUnit 2 1 d a s
/-- mxrel (R292). -/
def execMxrel (d a : SReg) (s : State) : Out := mxUnit 3 1 d a s

/-- mxcfg (R288). -/
def execMxcfg (a : SReg) (s : State) : Out :=
  let u := { u24 5 0 a.val with sr := [a.val] }
  issue u (fun _ _ _ g g1 =>
    if mxcOk (g.readS a.val).toNat then .grp { g1 with mxc := g.readS a.val } else .trap (u.preciseTrap g 1 0)) s

/-- Whether two byte spans meet. -/
def spansMeet (a b n m : Int) : Bool := a < b + m && b < a + n

/-- Whether a unit in the queue writes, or reads as A, a cell of row `row`, columns 64·cg to 64·cg + 63 (R294). -/
def MxUnit.touches (m : MxUnit) (row cg : Nat) : Bool :=
  let inRect (r n c k : Nat) : Bool := r ≤ row && row < r + n && c < 64 * cg + 64 && 64 * cg < c + k
  match m.op with
  | 2 => let (r, n, c, k) := m.rect; inRect r n c k
  | 3 => false
  | _ =>
    inRect m.crow m.rows m.ccol m.cols ||
      (m.aTile && (List.range m.total).any fun i => (List.range m.rows).any fun r =>
        spansMeet (m.aoff i + r * m.apitch) (row * 2048 + cg * 256) 256 256 ||
          (m.amx && spansMeet (m.asoff i + r * m.aspitch) (row * 2048 + cg * 256) (m.depth / 32) 256))

/-- TRAPI of a matrix fault (R298). -/
def mxTrapI (why step : Nat) : DWord := BitVec.ofNat 64 (why + 2 ^ 13 + step * 2 ^ 45)

/-- tld and tst (R293): accepted at issue once their cells are settled (R294), with their row checked there. -/
def tileUnit (fn : Nat) (u : Uop) (d : VFld) (a : SReg) (s : State) : Out :=
  issue u
    (fun s k act g g1 =>
      let v := (g.readS a.val).toNat
      let row := v % 1024
      let cg := bitsOf v 10 3
      if !g.room .tl 1 || g.mxq.any (fun m => m.touches row cg) then .wait
      else if v / 2 ^ 13 ≠ 0 then .trap (u.preciseTrap g 1 0)
      else
        let s1 := { s with nextId := s.nextId + 1 }
        let rows := match s.wg? g.wg with | some w => w.tsrows | none => 0
        let dst := if fn = 3 then [g.vDst d] else []
        if rows ≤ row then
          let o : Op := { id := s.nextId, unit := s.nextId, pc := g.pc, maj := 24, fn := fn, ctr := .tl }
          .st (s1.recordFault k { g1 with ops := dropDone (g1.ops ++ [o.ended]) [] }
            { id := s.nextId, targets := dst,
              trap := { cause := 7, deferred := true, a := BitVec.ofNat 64 row, pc := g.pc, i := mxTrapI 6 0 } })
        else
          .st (s1.setGrp k (g1.addOp
            { id := s.nextId, unit := s.nextId, pc := g.pc, maj := 24, fn := fn, ctr := .tl,
              kind := if fn = 3 then .tld else .tst, dst := dst, arg := [BitVec.ofNat 64 row, BitVec.ofNat 64 cg],
              accs := (lanesOn act).map fun i =>
                { lane := i, va := 0, data := if fn = 3 then [] else leBytes 4 (g.src d i).toNat } }))) s

/-- tld. -/
def execTld (d : VFld) (a : SReg) (s : State) : Out :=
  tileUnit 3 { u24 3 d.val a.val with sr := [a.val], vw := [d] } d a s
/-- tst. -/
def execTst (d : VFld) (a : SReg) (s : State) : Out :=
  tileUnit 4 { u24 4 d.val a.val with sr := [a.val], vr := [d] } d a s

/-! ### Cells -/

/-- A cell of the tile store (R279). -/
def Workgroup.cell (w : Workgroup) (r c : Nat) : Word := mapGet w.tiles (r * 512 + c) 0
/-- Write a cell; a zero cell is not listed. -/
def Workgroup.setCell (w : Workgroup) (r c : Nat) (v : Word) : Workgroup :=
  { w with tiles := if v = 0 then mapDel w.tiles (r * 512 + c) else mapSet w.tiles (r * 512 + c) v }

/-- Whether events may still act on the group's outstanding work: its workgroup is resident or its save is draining. -/
def State.live (s : State) (g : Group) : Bool :=
  match s.wg? g.wg with | some w => w.state = .resident || w.state = .saving | none => false

/-- TILE_TRANSFER_DONE (R293): the row segment moves and TL falls. -/
def execTileTransferDone (k op : Nat) (s : State) : Out :=
  .next (match s.grp? k with
    | none => s
    | some g =>
      match g.op? op, s.wg? g.wg with
      | some o, some w =>
        let row := (regGet o.arg 0).toNat
        let col (i : Nat) : Nat := 64 * (regGet o.arg 1).toNat + i
        if o.performed || !s.live g || (g.before o).any (fun p => p.kind = .tld || p.kind = .tst) then s
        else match o.kind with
          | .tld =>
            s.setGrp k ((o.dst.foldl (fun (h : Group) d => h.writeDst d (maskOf fun i => o.accs.any fun a => a.lane = i)
              (fun i => w.cell row (col i))) g).finishOp op)
          | .tst =>
            (s.setWg g.wg (o.accs.foldl (fun v a => v.setCell row (col a.lane) (BitVec.ofNat 32 (leNat a.data))) w)).setGrp k
              (g.finishOp op)
          | _ => s
      | _, _ => s)

/-! ### A step (R284, R285, R298) -/

/-- The EF codes of slots that an A format accepts (R284). -/
def efOk (af ef : Nat) : Bool :=
  match af with
  | 0 => ef = 13
  | 4 => ef = 5
  | 5 => ef = 8 || ef = 9
  | 6 => ef = 8 || ef = 9
  | _ => ef = 10 || ef = 11 || ef = 12

/-- The number of the A space: WGM or the tile store. -/
def MxUnit.asp (m : MxUnit) : Nat := if m.aTile then 2 else 1

/-- The first byte of rows of `len` bytes that lies outside a space of `size` bytes, rows in order (R298). -/
def firstOut (base : Int) (pitch len rows size : Nat) : Option Int :=
  (List.range rows).findSome? fun r =>
    let a : Int := base + (r * pitch : Nat)
    if a < 0 then some a else if (size : Int) < a + len then some (max a size) else none

/-- The fault of starting step i, if any: WHY and TRAPA (R298), the lowest WHY. -/
def mxCheck (w : Workgroup) (m : MxUnit) (i : Nat) : Option (Nat × DWord) :=
  match m.op with
  | 2 => let (r, n, _, _) := m.rect
         if w.tsrows < r + n then some (7, BitVec.ofNat 64 r) else none
  | 3 => none
  | _ =>
    let size := w.spaceSize m.asp
    let slot := m.slot w.bslots i
    if w.tsrows < m.crow + m.rows then some (1, BitVec.ofNat 64 m.crow)
    else match firstOut (m.aoff i) m.apitch 256 m.rows size with
      | some a => some (2, BitVec.ofInt 64 a)
      | none =>
        match (if m.amx then firstOut (m.asoff i) m.aspitch (m.depth / 32) m.rows size else none) with
        | some a => some (3, BitVec.ofInt 64 a)
        | none =>
          if w.bslots ≤ slot then some (4, BitVec.ofNat 64 slot)
          else if efOk m.af (mapGet w.btag slot 15 % 16) then none
          else some (5, BitVec.ofNat 64 slot)

/-- A byte of WGM (1), the tile store (2) or the B-store (3) of a workgroup. -/
def Workgroup.byteAt (w : Workgroup) (sp o : Nat) : Nat :=
  match sp with
  | 1 => (memRead w.wgm o).toNat
  | 2 => (w.cell (o / 2048) (o % 2048 / 4)).toNat / 2 ^ (8 * (o % 4)) % 256
  | _ => (memRead w.bst (o / 65536 * 2 ^ 17 + o % 65536)).toNat

/-- Element k of a run of elements of `w8` eighths of 4 bits at byte o: nibbles (1), bytes (2) or halves (4). -/
def Workgroup.elemAt (w : Workgroup) (sp o width k : Nat) : Nat :=
  match width with
  | 1 => w.byteAt sp (o + k / 2) / 16 ^ (k % 2) % 16
  | 2 => w.byteAt sp (o + k)
  | _ => w.byteAt sp (o + 2 * k) + 256 * w.byteAt sp (o + 2 * k + 1)

/-- Nibbles of an element of an A format. -/
def afWidth (af : Nat) : Nat := if af = 0 then 1 else if af ≤ 4 then 2 else 4

/-- An A element's value (R283). -/
def afVal (af b : Nat) : FVal :=
  match af with
  | 0 => widenVal 3 b
  | 1 => widenVal 0 b
  | 2 => widenVal 1 b
  | 3 => widenVal 2 b
  | 4 => widenVal 4 b
  | 5 => fp16.unpack b
  | _ => bf16.unpack b

/-- A B element's value, by the slot's EF (R213, R284). -/
def efVal (ef b : Nat) : FVal :=
  match ef with
  | 5 => widenVal 4 b
  | 8 => fp16.unpack b
  | 9 => bf16.unpack b
  | 10 => widenVal 0 b
  | 11 => widenVal 1 b
  | 12 => widenVal 2 b
  | _ => widenVal 3 b

/-- A block's exact sum (R175): whether a NaN, +∞ or −∞ came up, and m × 2^e. -/
structure BlockSum where
  nan : Bool := false
  pinf : Bool := false
  ninf : Bool := false
  m : Int := 0
  e : Int := 0
deriving DecidableEq, Repr

/-- Add one product. -/
def BlockSum.add (b : BlockSum) (x y : FVal) : BlockSum :=
  match (mulV x y).1 with
  | .nan _ => { b with nan := true }
  | .inf n => if n then { b with ninf := true } else { b with pinf := true }
  | .fin n m e =>
    let q := min b.e e
    { b with m := b.m * 2 ^ (b.e - q).toNat + finInt n m e q, e := q }

/-- The scaled block's value; `sc` is the sum of the scale exponents, none for a scale of 0xFF. -/
def BlockSum.val (b : BlockSum) (sc : Option Int) : FVal :=
  match sc with
  | none => .nan false
  | some k =>
    if b.nan || (b.pinf && b.ninf) then .nan false
    else if b.pinf then .inf false
    else if b.ninf then .inf true
    else .fin (decide (b.m < 0)) b.m.natAbs (b.e + k)

/-- `accumulate` of R175 on FP32 bits. -/
def mxAccum (x : Word) (d : FVal) : Word :=
  BitVec.ofNat 32 (fp32.round { rm := 1 } false (addV 1 (fp32.unpack x.toNat) d)).1

/-- The exponent of an E8M0 scale: code − 127; none for 0xFF. -/
def scaleExp (c : Nat) : Option Int := if c = 255 then none else some ((c : Int) - 127)

/-- The cell (r, n) of step i after the step (R285), by the slot tag it found as it started (R302). -/
def stepCell (w : Workgroup) (m : MxUnit) (i r n : Nat) : Word :=
  let slot := m.slot w.bslots i
  let tag := m.tags.headD (mapGet w.btag slot 15)
  let x0 : Word := if m.fld 1 22 1 = 1 && i = 0 then 0 else w.cell (m.crow + r) (m.ccol + n)
  let width := afWidth m.af
  let a (k : Nat) : FVal := afVal m.af (w.elemAt m.asp ((m.aoff i).toNat + r * m.apitch) width k)
  let b (k : Nat) : FVal := efVal (tag % 16) (w.elemAt 3 (slot * 65536) width (k * m.cols + n))
  (List.range (m.depth / 32)).foldl (fun x j =>
    let d := (List.range 32).foldl (fun (s : BlockSum) k => s.add (a (32 * j + k)) (b (32 * j + k))) {}
    if m.af = 4 then x + BitVec.ofInt 32 (d.m * 2 ^ d.e.toNat)
    else
      let sa := if m.amx then scaleExp (w.byteAt m.asp ((m.asoff i).toNat + r * m.aspitch + j)) else some 0
      let sb := if bitOf tag 4 then scaleExp (memRead w.bst (slot * 2 ^ 17 + 65536 + j * m.cols + n)).toNat else some 0
      mxAccum x (d.val (sa.bind fun p => sb.map fun q => p + q))) x0

/-- The workgroup after step i of a unit that is performed. -/
def Workgroup.doStep (w : Workgroup) (m : MxUnit) (i : Nat) : Workgroup :=
  match m.op with
  | 2 => let (r, n, c, k) := m.rect
         (List.range n).foldl (fun v p => (List.range k).foldl (fun u q => u.setCell (r + p) (c + q) 0) v) w
  | 3 => w
  | _ => (List.range m.rows).foldl (fun v r => (List.range m.cols).foldl (fun u n =>
           u.setCell (m.crow + r) (m.ccol + n) (stepCell w m i r n)) v) w

/-! ### Starting and completing steps (R295, R297) -/

/-- The position in a group's queue of its first unit with a step not started, `mxrel` aside. -/
def firstUnstarted : List MxUnit → Nat → Option (Nat × MxUnit)
  | [], _ => none
  | m :: r, i => if m.op ≠ 3 && m.started < m.total then some (i, m) else firstUnstarted r (i + 1)

/-- Whether step i of a unit is performed, no step up to it having faulted (R298). -/
def MxUnit.performs (m : MxUnit) (i : Nat) : Bool := match m.bad with | some b => decide (i < b) | none => true

/-- Steps in progress on a slot lane of a cluster. -/
def State.laneBusy (s : State) (l lane : Nat) : Nat :=
  (s.groups.map fun kv => match s.wg? kv.2.wg with
    | some w =>
      if w.holds && clusterOfCore w.core = l then
        (kv.2.mxq.map fun m => if m.op ≤ 1 then
          ((List.range (m.started - m.step)).filter fun j => m.performs (m.step + j) && (m.slot w.bslots (m.step + j) + w.base) % 12 = lane).length else 0).sum
      else 0
    | none => 0).sum

/-- Whether the next step of a group's queue is startable (R295): its gate met, its slot lane with a free row buffer. -/
def State.startable (s : State) (g : Group) : Bool :=
  match firstUnstarted g.mxq 0, s.wg? g.wg with
  | some (_, m), some w =>
    let i := m.started
    let gate := m.op ≠ 1 || m.fld 2 46 1 = 0 ||
      (m.fld 3 0 32 + i * m.fld 2 53 8) % 2 ^ 32 ≤ mapGet w.semas (m.fld 2 47 6) 0
    let lane := (m.slot w.bslots i + w.base) % 12
    w.state = .resident && gate && (m.op = 2 || s.laneBusy (clusterOfCore w.core) lane < 2)
  | _, _ => false

/-- The group of a cluster that the engine serves next: round-robin by global slot after the last served (R295). -/
def State.nextMatrix (s : State) (l : Nat) : Option Nat :=
  let rr := (s.cluster l).rr
  (s.groups.foldl (fun (best : Option (Nat × Nat)) kv =>
    if clusterOfCore kv.2.core = l && s.startable kv.2 then
      let d := (kv.2.slot + 512 - (rr + 1) % 512) % 512
      match best with
      | some b => if d < b.2 then some (kv.1, d) else some b
      | none => some (kv.1, d)
    else best) none).map Prod.fst

/-- MATRIX_STEP_START (R295, R298): the checks are made; a faulting step stops its unit. -/
def execMatrixStepStart (k : Nat) (s : State) : Out :=
  .next (match s.grp? k with
    | none => s
    | some g =>
      let l := clusterOfCore g.core
      if s.nextMatrix l ≠ some k then s
      else match firstUnstarted g.mxq 0, s.wg? g.wg with
        | some (i, m), some w =>
          let s1 := s.setCluster l { s.cluster l with rr := g.slot % 512 }
          match mxCheck w m m.started with
          | none =>
            let tag := mapGet w.btag (m.slot w.bslots m.started) 15
            s1.setGrp k { g with mxq := g.mxq.set i { m with started := m.started + 1, tags := m.tags ++ [tag] } }
          | some (why, a) =>
            let g1 := { g with mxq := g.mxq.set i { m with started := m.total, bad := some m.started } }
            let name := ((g.ops.find? fun o => o.kind = .matrix && (regGet o.arg 0).toNat = m.num).map Op.id).getD 0
            s1.recordFault k g1 { id := name, targets := [], trap := { cause := 7, deferred := true, a := a, pc := m.pc, i := mxTrapI why m.started } }
        | _, _ => s)

/-- Energy of a step in hundredths of a pJ (R412). -/
def MxUnit.energy (m : MxUnit) : Nat :=
  if 2 ≤ m.op then 0 else m.rows * m.cols * m.depth * (if m.af = 0 then 2 else if m.af ≤ 4 then 4 else 8)

/-- The unit at the head of a queue completes: MX falls, MTL rises to its number (R297). -/
def State.unitDone (s : State) (k : Nat) (m : MxUnit) : State :=
  match s.grp? k with
  | none => s
  | some g =>
    let g1 := { g with mxq := g.mxq.drop 1, mtl := m.num }
    let g2 := match g1.ops.find? fun o => o.kind = .matrix && (regGet o.arg 0).toNat = m.num with
      | some o => g1.finishOp o.id
      | none => g1
    ((s.setGrp k g2).applied g.wg).syncWake

/-- Add to a semaphore from the engine. -/
def State.mxSignal (s : State) (w n v : Nat) : State := (s.semaSet w n fun x => x + v).applied w

/-- MATRIX_STEP_COMPLETE (R297): the group's oldest step in progress writes its cells and signals, or the `mxrel` at
the head adds, during a save too when a step behind it has started (R299); a unit whose steps are done leaves the queue. -/
def execMatrixStepComplete (k : Nat) (s : State) : Out :=
  .next (match s.grp? k with
    | none => s
    | some g =>
      match g.mxq.head?, s.wg? g.wg with
      | some m, some w =>
        if !s.live g then s
        else if m.op = 3 then
          (if w.state = .resident || g.mxq.any (fun x => x.step < x.started) then
            ((s.semaSet g.wg (m.fld 0 0 6) fun v => v + m.fld 0 32 32).applied g.wg).unitDone k m
           else s)
        else if m.started ≤ m.step then s
        else
          let s1 := if m.performs m.step then (s.setWg g.wg (w.doStep m m.step)).energy g.ctx m.energy else s
          let s2 := if m.op ≤ 1 && m.fld 1 23 1 = 1 then s1.mxSignal g.wg (m.fld 1 24 6) (m.fld 1 30 8) else s1
          let m1 := { m with step := m.step + 1, tags := m.tags.drop 1 }
          let s3 := s2.modGrp k fun h => { h with mxq := h.mxq.set 0 m1 }
          if m1.step < m.total then s3 else s3.unitDone k m1
      | _, _ => s)

end Sys2Proof.Machine
end

