-- ==== Sys2Proof/Machine/FabricUnits.lean ====
section
/-! DEFINITION. Major 26 (R382-R393): messages and their rings, `peerq`, collectives, and their events. -/

namespace Sys2Proof.Machine

/-- A unit of major 26: no prefix, HND in handler mode (R383). -/
def u26 (fn d a b : Nat) : Uop := { maj := 26, cls := 1, base := wordA 26 d a b fn, hnd := true }

/-! ### sendh (R384) -/

/-- sendh (R384): one message per active lane enters the core's send queue. -/
def execSendh (d : VFld) (s : State) : Out :=
  issue { u26 0 d.val 0 0 with vr := fieldsFrom d 8 }
    (fun s k act g g1 =>
      let ls := lanesOn act
      let c := s.core g.core
      if !g.room .st 1 || 256 < c.sendq.length + ls.length then .wait
      else if ls.isEmpty then .grp g1
      else
        let word (j i : Nat) : Word := g.src (d + Fin.ofNat 128 j) i
        let msg (i : Nat) : Msg :=
          { src := s.fab.dev, dst := (word 0 i).toNat % 4096, ctx := g.ctx, rq := bitsOf (word 0 i).toNat 12 4,
            words := (List.range 8).map fun j => word j i }
        let s1 := (s.setCore g.core { c with sendq := c.sendq ++ ls.map fun i =>
          { grp := k, op := s.nextId, lane := i, msg := msg i } })
        .st (({ s1 with nextId := s.nextId + 1 } : State).setGrp k (g1.addOp
          { id := s.nextId, unit := s.nextId, pc := g.pc, maj := 26, fn := 0, ctr := .st, kind := .sendh, scope := 3,
            rel := true, accs := ls.map fun i => { lane := i, va := 0 } }))) s

/-- MSGLOST of a context rises, saturating (R382). -/
def State.msgLost (s : State) (n : Nat) : State :=
  s.modCtx n fun c => { c with msglost := if c.msglost = 0xFFFFFFFF then c.msglost else c.msglost + 1 }

/-- A lane of a `sendh` is appended or discarded; with the last one ST falls (R384). -/
def State.sentLane (s : State) (k op lane : Nat) : State :=
  s.modGrp k fun g =>
    let g1 := g.modOp op fun o => { o with accs := o.accs.map fun a => if a.lane = lane then { a with done := true } else a }
    match g1.op? op with
    | some o => if o.accs.all fun a => a.done then g1.finishOp op else g1
    | none => g1

/-- Whether the accesses of a group before an operation let a SYS release end, Cumulus flush apart (R384, R388). -/
def Group.released (g : Group) (id : Nat) : Bool :=
  !g.ops.any fun o => o.id < id && !o.performed && (o.isAcc || o.isAgg)

/-- A message leaves (R384): to this device's delivery unit, as a packet, or discarded when its device is unreachable. -/
def State.sendMsg (s : State) (e : SendEnt) : State :=
  let m := e.msg
  if !s.reachable m.dst then (s.msgLost m.ctx).sentLane e.grp e.op e.lane
  else if m.dst = s.fab.dev then
    { s with fab := { s.fab with inbox := s.fab.inbox ++ [{ msg := m, src := some (e.grp, e.op, e.lane) }] } }
  else
    let (id, s1) := s.fresh1
    let slot := (s.grp? e.grp).elim 0 Group.slot
    (s1.modGrp e.grp fun g => g.modOp e.op fun o =>
      { o with accs := o.accs.map fun a => if a.lane = e.lane then { a with rid := id } else a }).fabSend (some m.ctx)
      { type := 6, src := s.fab.dev, dst := m.dst, rctx := m.ctx, cls := 0, seq := 0,
        rid := { src := 64 + s.fab.dev, req := slot, seq := id }, ronum := 0, off := 0, opnd := [],
        payload := m.words.flatMap fun w => leBytes 4 w.toNat }

/-- The first message of a send queue whose group lets it leave. -/
def State.nextSend (s : State) (core : Nat) : Option SendEnt :=
  (s.core core).sendq.find? fun e => match s.grp? e.grp with | some g => g.released e.op | none => true

/-- SEND_QUEUE_DEPART (R384): after the group's SYS release the message leaves the queue. -/
def execSendQueueDepart (core : Nat) (s : State) : Out :=
  .next (match s.nextSend core with
    | none => s
    | some e =>
      match s.grp? e.grp with
      | some g =>
        if g.dirtyMask ≠ 0 then s.cuFlush g
        else (s.modCore core fun c => { c with sendq := c.sendq.erase e }).sendMsg e
      | none => s.modCore core fun c => { c with sendq := c.sendq.erase e })

/-! ### Rings (R382, R384, R385) -/

/-- VA of a receive ring; 0 when the queue is not configured. -/
def Ctx.ringVa (c : Ctx) (q : Nat) : Nat := (regGet c.mrq q).toNat % 2 ^ 52
/-- LOG of a receive ring. -/
def Ctx.ringLog (c : Ctx) (q : Nat) : Nat := bitsOf (regGet c.mrq q).toNat 52 5
/-- VA of a record of a ring. -/
def Ctx.ringSlot (c : Ctx) (q n : Nat) : Nat := c.ringVa q + 64 + 32 * (n % 2 ^ c.ringLog q)

/-- A message is dealt with at its destination: its sender learns it (R384). -/
def State.msgDone (s : State) (e : InMsg) : State :=
  let s1 := { s with fab := { s.fab with inbox := s.fab.inbox.erase e } }
  match e.src, e.rid with
  | some (k, op, lane), _ => s1.sentLane k op lane
  | none, some r =>
    s1.fabSend (some e.msg.ctx)
      { type := 5, src := s.fab.dev, dst := e.msg.src, rctx := e.msg.ctx, cls := 1, seq := 0, rid := r, ronum := 0, off := 0,
        opnd := [], payload := [] }
  | none, none => s1

/-- A message reaches a span of its ring: what to do with its places, or that it waits or is lost (R384). The service record of
a residency miss has SRC 6 and the chiplet of the port die that delivers as UNIT (DESIGN CHOICE, LE 22). -/
def State.ringSpan (s : State) (e : InMsg) (va n : Nat) (lost : State) (go : List Place → State) : State :=
  let x := s.pdXl e.msg.ctx
  match s.span x 3 true va n with
  | .fault .. => lost
  | .miss ob sub a => s.parkOn (.msg e) e.msg.ctx ob sub 6 true (if x.u = 304 then 48 else 49) a
  | .hold => s
  | .ok ps => go ps

/-- A write of a message's delivery is done, its remote bytes acknowledged, before `go`; or it waits, or the message is lost
(R384). -/
def State.ringWrite (s : State) (e : InMsg) (ps : List Place) (bs : List Byte) (lost : State) (go : State → State) : State :=
  match s.spanOut (.msg e) e.msg.ctx ps bs with
  | .bad .. => lost
  | .wait t => t
  | .ok _ => go ((s.spanWrite ps bs).spanEnergy e.msg.ctx ps)

/-- Append a message to its ring (R384): one that cannot be appended is discarded and counted; a residency miss holds
it; a ring in a remote object is reached by requests. TAIL is raised once the record is written. -/
def State.appendMsg (s : State) (e : InMsg) : State :=
  let m := e.msg
  let c := s.ctx m.ctx
  let lost : State := ((s.release (.msg e)).msgLost m.ctx).msgDone e
  let done (t : State) : State := (t.release (.msg e)).msgDone e
  if s.waits (.msg e) then s
  else if c.ringVa m.rq = 0 || !c.en then lost
  else s.ringSpan e (c.ringVa m.rq) 24 lost fun ps =>
    match s.spanIn (.msg e) m.ctx ps with
    | .bad .. => lost
    | .wait t => t
    | .ok bs =>
      let fld (i : Nat) : Nat := leNat ((bs.drop (8 * i)).take 8)
      let t := fld 0
      if 2 ^ c.ringLog m.rq ≤ (t + 2 ^ 64 - fld 1) % 2 ^ 64 then
        s.ringWrite e (ps.drop 16) (leBytes 8 (fld 2 + 1)) lost done
      else s.ringSpan e (c.ringSlot m.rq t) 32 lost fun qs =>
        let w0 : Word := BitVec.ofNat 32 (m.src % 4096 + m.rq * 4096)
        let bytes := (w0 :: m.words.drop 1).flatMap fun w => leBytes 4 w.toNat
        s.ringWrite e qs bytes lost fun u => u.ringWrite e (ps.take 8) (leBytes 8 (t + 1)) lost done

/-- MESSAGE_DELIVER (R384): the oldest held copy of the message, behind none for its ring. -/
def execMessageDeliver (m : Msg) (s : State) : Out :=
  .next (match s.fab.inbox.find? fun e => e.msg.ctx = m.ctx && e.msg.rq = m.rq with
    | some e => if e.msg = m then s.appendMsg e else s
    | none => s)

/-! ### recvq (R385) -/

/-- recvq (R385): it raises LD; the messages are popped as it returns. -/
def execRecvq (d : VFld) (a : SReg) (b : PReg) (s : State) : Out :=
  issue { u26 1 d.val a.val b.val with sr := [a.val], vw := fieldsFrom d 8, pr := [b.val], pw := [b.val] }
    (fun s k act g g1 =>
      if !g.room .ld 1 then .wait
      else .st (({ s with nextId := s.nextId + 1 } : State).setGrp k (g1.addOp
        { id := s.nextId, unit := s.nextId, pc := g.pc, maj := 26, fn := 1, ctr := .ld, kind := .recvq, acq := true,
          rel := true, scope := 3, dst := (fieldsFrom d 8).map g.vDst ++ [.p b.val],
          arg := [g.readS a.val &&& 15, act, BitVec.ofNat 64 b.val] }))) s

/-- What the memory of a ring answers a `recvq`: done with the machine after it, a fault, a miss, a wait for remote bytes. -/
inductive Recv where
  | done (s : State)
  | fault (t : Trap)
  | miss (obj sub va : Nat)
  | hold
  | io (s : State)

/-- Translate spans for a `recvq`, each with its lane and VA: the first fault counts, then the first miss. -/
def State.recvSpan (s : State) (g : Group) (o : Op) (need : Nat) (wr : Bool) (l : List (Nat × Nat × Nat))
    (go : List Place → Recv) : Recv :=
  let rs := l.map fun p => (p.1, s.span (s.xl g) need wr p.2.1 p.2.2)
  match rs.findSome? fun r => match r.2 with | .fault c w ob a => some (r.1, c, w, ob, a) | _ => none with
  | some (lane, c, w, ob, a) =>
    .fault { cause := c, deferred := true, a := BitVec.ofNat 64 a, pc := o.pc,
             i := BitVec.ofNat 64 (lane + (if wr then 64 else 0) + w * 512 + ob * 65536) }
  | none =>
    match rs.findSome? fun r => match r.2 with | .miss ob sub v => some (some (ob, sub, v)) | .hold => some none | _ => none with
    | some (some (ob, sub, v)) => .miss ob sub v
    | some none => .hold
    | none => go (rs.flatMap fun r => match r.2 with | .ok ps => ps | _ => [])

/-- Go on with the bytes of places, remote ones among them (R230). -/
def recvIo (o : Op) (wr : Bool) (va : Nat → Nat) (lane : Nat → Nat) (r : Io) (go : List Byte → Recv) : Recv :=
  match r with
  | .ok bs => go bs
  | .wait t => .io t
  | .bad c w ob i =>
    .fault { cause := c, deferred := true, a := BitVec.ofNat 64 (va i), pc := o.pc, i := BitVec.ofNat 64 (lane i + remTrapI wr w ob) }

/-- Pop for a `recvq` (R385). -/
def State.recvTry (s : State) (k : Nat) (g : Group) (o : Op) : Recv :=
  let q := (regGet o.arg 0).toNat
  let act := regGet o.arg 1
  let b := (regGet o.arg 2).toNat
  let c := s.ctx g.ctx
  let who : Party := .op o.id
  let finish (t : State) (h : Group) : Recv := .done (((t.release who).l1Clear g.core).setGrp k (h.finishOp o.id))
  if c.ringVa q = 0 then finish s (g.writePBits b act fun _ => false)
  else s.recvSpan g o 1 false [(0, c.ringVa q, 16)] fun hd =>
    recvIo o false (fun i => c.ringVa q + i) (fun _ => 0) (s.spanIn who g.ctx hd) fun bs =>
      let h := leNat (bs.drop 8)
      let ls := lanesOn act
      let m := min ((leNat (bs.take 8) + 2 ^ 64 - h) % 2 ^ 64) ls.length
      let got := ls.take m
      let slot (i : Nat) : Nat := c.ringSlot q (h + i)
      s.recvSpan g o 1 false (got.zipIdx.map fun p => (p.1, slot p.2, 32)) fun ps =>
        recvIo o false (fun i => slot (i / 32) + i % 32) (fun i => got.getD (i / 32) 0) (s.spanIn who g.ctx ps) fun data =>
          let ws : List (Nat × Nat × List Word) :=
            got.zipIdx.map fun p => (0, p.1, wordsOf 32 false ((data.drop (32 * p.2)).take 32))
          let g1 := (g.writeWords (o.dst.take 8) ws).writePBits b act fun i => got.contains i
          let s1 := s.spanEnergy g.ctx (hd ++ ps)
          if m = 0 then finish s1 g1
          else s.recvSpan g o 2 true [(0, c.ringVa q + 8, 8)] fun hw =>
            recvIo o true (fun i => c.ringVa q + 8 + i) (fun _ => 0) (s.spanOut who g.ctx hw (leBytes 8 (h + m))) fun _ =>
              finish (s1.spanWrite hw (leBytes 8 (h + m))) g1

/-- A `recvq` is tried: it returns, takes its deferred fault, or is held as a unit of major 21 is (R226, R385). -/
def State.recvGo (s : State) (k : Nat) (g : Group) (o : Op) : State :=
  if o.wait = .flight && !g.mayPerform o then s
  else if o.wait = .flight && g.mustFlush o then s.cuFlush g
  else match s.recvTry k g o with
    | .done t => t
    | .fault t => (s.release (.op o.id)).recordFault k (g.endUnit o) { id := o.id, trap := t, targets := o.dst }
    | .io t => t
    | .miss ob sub va =>
      (s.openService g.ctx ob sub 0 false g.core va).setGrp k
        (g.modOp o.id fun p => { p with wait := .held ob sub va, again := 0 })
    | .hold => s.setGrp k (g.modOp o.id fun p => { p with wait := .held 0 0 0, again := 0 })

/-! ### peerq (R386) -/

/-- peerq (R386). -/
def execPeerq (d : PReg) (a : VFld) (q : Fin 4) (s : State) : Out :=
  issue { u26 3 d.val a.val q.val with vr := [a], pr := [d.val], pw := [d.val] }
    (fun s _ act g g1 =>
      .grp (g1.writePBits d.val act fun i =>
        let dev := (g.src a i).toNat % 4096
        match q.val with
        | 0 => s.reachable dev
        | 1 => (List.range 64).any fun n => (s.egr n).state ≠ 0 && (s.egr n).peer = dev
        | _ => s.inDomain dev)) s

/-! ### Collectives (R387-R392) -/

/-- Field of a descriptor register of a collective. -/
def collFld (l : List DWord) (n lo w : Nat) : Nat := bitsOf (regGet l n).toNat lo w

/-- NRANK of a communicator. -/
def Ctx.nrank (c : Ctx) (m : Nat) : Nat := bitsOf (mapGet c.ccomm m 0).toNat 1 12
/-- RANK. -/
def Ctx.rank (c : Ctx) (m : Nat) : Nat := bitsOf (mapGet c.ccomm m 0).toNat 13 12
/-- Device of a rank. -/
def Ctx.rankDev (c : Ctx) (m r : Nat) : Nat :=
  let v := (mapGet c.ccomm m 0).toNat
  bitsOf v 25 12 + r * bitsOf v 37 12

/-- Check 1 of R388 on the descriptor. -/
def collLegal (l : List DWord) : Bool :=
  let f := collFld l
  let kind := f 3 0 3
  let ef := f 3 5 4
  let scl := f 3 27 1 = 1
  f 0 52 12 = 0 && f 1 52 12 = 0 && f 2 40 24 = 0 && f 3 28 36 = 0 && f 4 52 12 = 0 && f 5 52 12 = 0 &&
    f 6 0 64 = 0 && f 7 0 64 = 0 && kind ≤ 4 && f 3 3 2 ≠ 3 && (kind ≤ 1 || f 3 3 2 = 0) && (kind = 4 || f 3 15 12 = 0) &&
    ef ≠ 15 && !(ef = 13 && f 2 0 40 % 2 = 1) &&
    (!scl || ((ef = 10 || ef = 11 || ef = 13) && f 2 0 40 % 32 = 0)) && (scl || (f 4 0 52 = 0 && f 5 0 52 = 0))

/-- coll (R388). -/
def execColl (d a : SReg) (s : State) : Out :=
  let u := { u26 2 d.val a.val 0 with sr := (List.range 8).map fun i => a.val + i, sw := [d.val] }
  issue u
    (fun s k _ g g1 =>
      let l := (List.range 8).map fun i => g.readS (a.val + i)
      let f := collFld l
      let c := s.ctx g.ctx
      let m := f 3 9 6
      let col (i : Nat) : Eff := .trap { u.preciseTrap g 0x0D (g.readS a.val) with i := BitVec.ofNat 64 i }
      if !collLegal l then .trap (u.preciseTrap g 1 0)
      else if f 3 0 3 ≤ 1 && ((f 3 5 4 ≠ 7 && f 3 5 4 ≠ 9) || f 3 27 1 = 1) then col 1
      else if (mapGet c.ccomm m 0).toNat % 2 = 0 || c.nrank m ≤ f 3 15 12 then col 2
      else
        let j := mapGet c.cseq m 0 + 1
        let x : Coll := { num := c.kis + 1, ctx := g.ctx, comm := m, grp := k, pc := g.pc, desc := l, opId := s.nextId,
                          wgid := g.wgid, slot := g.slot, cseq := j }
        .st ((({ s with nextId := s.nextId + 1, colls := s.colls ++ [x] } : State).setGrp k
          (g1.writeS d.val (BitVec.ofNat 64 (c.kis + 1)))).modCtx g.ctx fun c =>
            { c with kis := c.kis + 1, cseq := mapSet c.cseq m j })) s

/-- Collective c of context n. -/
def State.coll? (s : State) (n c : Nat) : Option Coll := s.colls.find? fun x => x.ctx = n && x.num = c

/-- Change a collective. -/
def State.modColl (s : State) (n c : Nat) (f : Coll → Coll) : State :=
  { s with colls := s.colls.map fun x => if x.ctx = n && x.num = c then f x else x }

/-- COLL_HANDOFF (R388): once the group's SYS release ends, the collective goes to the engines. -/
def execCollHandoff (n c : Nat) (s : State) : Out :=
  .next (match s.coll? n c with
    | none => s
    | some x =>
      if x.handed then s
      else match s.grp? x.grp with
        | some g =>
          if !g.released x.opId then s
          else if g.dirtyMask ≠ 0 then s.cuFlush g
          else s.modColl n c fun x => { x with handed := true }
        | none => s.modColl n c fun x => { x with handed := true })

/-- KTL rises over every collective completed in order, and waits see it (R391). -/
def State.raiseKtl (s : State) (n : Nat) : State :=
  let open_ := s.colls.filter fun x => x.ctx = n && !x.done
  let k := match open_ with | x :: _ => x.num - 1 | [] => (s.ctx n).kis
  (({ s with colls := s.colls.filter fun x => !(x.ctx = n && x.done && x.num ≤ k) } : State).modCtx n
    fun c => { c with ktl := max c.ktl k }).syncWake

/-- A deferred COL or access fault of a collective goes to its group, or is a context fault when that has exited
(R392). -/
def State.collFault (s : State) (x : Coll) (cause : Nat) (a i : DWord) : State :=
  let t : Trap := { cause := cause, deferred := true, a := a, pc := x.pc, i := i }
  match s.grp? x.grp with
  | some g => s.recordFault x.grp g { id := x.opId, trap := t, targets := [] }
  | none =>
    match (s.ctx x.ctx).stop with
    | .running => (s.dropWork x.ctx).modCtx x.ctx fun c => { c with stop := .faulted s.dev.tns t x.wgid x.slot false }
    | _ => s

/-- A collective ends on this device. -/
def State.endColl (s : State) (n c : Nat) : State := (s.modColl n c fun x => { x with done := true }).raiseKtl n

/-- Bytes of `n` elements of a format (R213); two e2m1 elements are a byte. -/
def elemBytes (ef n : Nat) : Nat := if ef = 13 then n / 2 else n * efBytes ef

/-- The operation of a reduction on FP32 words (R390). -/
def collOp (red : Nat) (a b : Nat) : Nat :=
  match red with
  | 0 => (fAdd homeMode 0 a b).1
  | 1 => (fMinMax false false false a b).1
  | _ => (fMinMax false true false a b).1

/-- Combine in order. -/
def collChain (red : Nat) : List Nat → Nat
  | [] => 0
  | v :: r => r.foldl (collOp red) v

/-- The reduction of one element, from (device, FP32 word) by ascending device: within leaves, then over leaves
(R390). -/
def collReduce (red : Nat) (l : List (Nat × Nat)) : Nat :=
  let leaves := (l.map fun p => p.1 / 64).eraseDups
  collChain red (leaves.map fun f => collChain red ((l.filter fun p => p.1 / 64 = f).map Prod.snd))

/-- An element of a reducing collective as an FP32 word, and back (R390). -/
def collWiden (ef v : Nat) : Nat := if ef = 9 then v * 65536 else v
/-- The destination's element: the word, rounded to BF16 with ties to even; a NaN is the canonical one. -/
def collNarrow (ef v : Nat) : Nat :=
  if ef = 9 then (bf16.round { rm := 1 } false (fp32.unpack v).ex).1 else if (fp32.unpack v).isNan then fp32.cnan else v

/-- The reduced block from the blocks of every member, as (device, bytes) by ascending device. -/
def collBlock (red ef count : Nat) (blocks : List (Nat × List Byte)) : List Byte :=
  let es := efBytes ef
  (List.range count).flatMap fun e =>
    leBytes es (collNarrow ef (collReduce red (blocks.map fun b => (b.1, collWiden ef (leNat ((b.2.drop (e * es)).take es))))))

/-- What the engine writes on this device (R389): block numbers with their bytes, given this member's own source
blocks and, by rank, each peer's block for this device. -/
def collResult (kind red ef count rank root : Nat) (dev : Nat → Nat) (own : Nat → List Byte)
    (peers : List (Nat × List Byte)) : List (Nat × List Byte) :=
  let sort (l : List (Nat × List Byte)) : List (Nat × List Byte) :=
    l.foldl (fun (m : NMap (List Byte)) p => mapSet m p.1 p.2) []
  match kind with
  | 0 => [(0, collBlock red ef count (sort ((rank, own 0) :: peers) |>.map fun p => (dev p.1, p.2)))]
  | 1 => [(0, collBlock red ef count (sort ((rank, own rank) :: peers) |>.map fun p => (dev p.1, p.2)))]
  | 2 => sort ((rank, own 0) :: peers)
  | 3 => sort ((rank, own rank) :: peers)
  | _ => if rank = root then [(0, own 0)] else (peers.filter fun p => p.1 = root).map fun p => (0, p.2)

/-- The source blocks a member of `n` reads itself, its peers' blocks of a reduce-scatter or an all-to-all among them (R389). -/
def collSources (kind n rank root : Nat) : List Nat :=
  match kind with
  | 0 => [0]
  | 1 => List.range n
  | 2 => [0]
  | 3 => List.range n
  | _ => if rank = root then [0] else []

/-- Run over spans of a collective: all translated, else the first fault or wait. -/
def State.collSpans (s : State) (x : Xl) (need : Nat) (wr : Bool) : List (Nat × Nat) → Span
  | [] => .ok []
  | p :: r =>
    match s.span x need wr p.1 p.2 with
    | .ok ps => (match s.collSpans x need wr r with
      | .ok qs => .ok (ps ++ qs)
      | e => e)
    | e => e

/-- COLL_COMPLETE (R389-R391): the peers' blocks have come in, by rank with data and scales; the source is read, the
destination written whole, KTL rises in order. Remote bytes of either are reached by requests (R15). -/
def execCollComplete (n c : Nat) (peers : List (Nat × List Byte × List Byte)) (s : State) : Out :=
  .next (match s.coll? n c with
    | none => s
    | some x =>
      let f := collFld x.desc
      let cx := s.ctx n
      let kind := f 3 0 3
      let ef := f 3 5 4
      let count := f 2 0 40
      let root := f 3 15 12
      let rank := cx.rank x.comm
      let scl := f 3 27 1 = 1
      let bl := elemBytes ef count
      let sl := if scl then count / 32 else 0
      let need := if kind = 4 then (if rank = root then [] else [root])
        else (List.range (cx.nrank x.comm)).filter fun r => r ≠ rank
      let good := need.all fun r => peers.any fun p => p.1 = r && p.2.1.length = bl && p.2.2.length = sl
      let ps := need.map fun r => (peers.find? fun p => p.1 = r).getD (r, [], [])
      let who : Party := .coll n c
      if !x.handed || x.done || !good || s.waits who then s
      else
        let xl := s.pdXl n
        let src := collSources kind (cx.nrank x.comm) rank root
        let red := f 3 3 2
        let dev := cx.rankDev x.comm
        let fault (cause a i : Nat) : State :=
          ((s.release who).collFault x cause (BitVec.ofNat 64 a) (BitVec.ofNat 64 i)).endColl n c
        let unit := if xl.u = 304 then 48 else 49
        let reach (wr : Bool) (l : List (Nat × Nat)) (go : List Place → State) : State :=
          match s.collSpans xl (if wr then 2 else 1) wr l with
          | .fault ca w ob a => fault ca a ((if wr then 64 else 0) + w * 512 + ob * 65536)
          | .miss ob sub va => s.parkOn who n ob sub 4 wr unit va
          | .hold => s
          | .ok ps => go ps
        let io (wr : Bool) (l : List (Nat × Nat)) (r : Io) (go : List Byte → State) : State :=
          match r with
          | .bad ca w ob i => fault ca ((l.flatMap fun p => (List.range p.2).map (p.1 + ·)).getD i 0) (remTrapI wr w ob)
          | .wait t => t
          | .ok bs => go bs
        let from_ := src.map (fun b => (f 0 0 52 + b * bl, bl)) ++ src.map fun b => (f 4 0 52 + b * sl, sl)
        reach false from_ fun sp => io false from_ (s.spanIn who n sp) fun bytes =>
          let own (b : Nat) : List Byte := (bytes.drop (b * bl)).take bl
          let ownS (b : Nat) : List Byte := (bytes.drop (src.length * bl + b * sl)).take sl
          let res := collResult kind red ef count rank root dev own (ps.map fun p => (p.1, p.2.1))
          let resS := if scl then collResult kind red ef count rank root dev ownS (ps.map fun p => (p.1, p.2.2)) else []
          let dest := res.map (fun b => (f 1 0 52 + b.1 * bl, bl)) ++ resS.map fun b => (f 5 0 52 + b.1 * sl, sl)
          let out := res.flatMap Prod.snd ++ resS.flatMap Prod.snd
          reach true dest fun dp => io true dest (s.spanOut who n dp out) fun _ =>
            ((((s.spanWrite dp out).energy n (400 * (bytes.length + out.length))).spanEnergy n (sp ++ dp)).release who).endColl n c)

/-- Whether a member of a collective's communicator has become unreachable (R392). -/
def State.collCut (s : State) (x : Coll) : Bool :=
  let c := s.ctx x.ctx
  (List.range (c.nrank x.comm)).any fun r => r ≠ c.rank x.comm && !s.reachable (c.rankDev x.comm r)

/-- COLL_ABANDON (R392): the members disagree, or a member was lost or faulted; nothing of the destination is
written, and nothing of the collective waits any more. -/
def execCollAbandon (n c reason : Nat) (s : State) : Out :=
  .next (match s.coll? n c with
    | none => s
    | some x =>
      if x.done || !(reason = 3 || reason = 4) then s
      else ((s.release (.coll n c)).collFault x 0x0D (BitVec.ofNat 64 c) (BitVec.ofNat 64 reason)).endColl n c)

end Sys2Proof.Machine
end

