-- ==== Sys2Proof/Machine/Fetch.lean ====
section
/-! DEFINITION. Fetching a unit's words (R46, R222, R395) and the class a fetched unit imposes (R42, R43). -/

namespace Sys2Proof.Machine

/-- What fetching a unit answers: its words, a fault (cause, VA of the word, TRAPI), or a miss. -/
inductive Fetched where
  | ok (ws : List Word)
  | fault (cause : Nat) (a i : DWord)
  | miss (obj sub va : Nat)
  | hold (obj sub va : Nat)
deriving DecidableEq, Repr

/-- Key of an instruction cache word: context, object, VA (DEDUCED, LE 9). -/
def icKey (ctx obj va : Nat) : Nat := recKey ctx obj * 2 ^ 52 + va

/-- One word at a VA, as a translator fetches it for a group (R222): the instruction cache's copy, else memory. -/
def State.fetchAs (s : State) (x : Xl) (g : Group) (va : DWord) : Fetched :=
  match s.xlate x 4 false true va.toNat 4 with
  | .fault c w ob => .fault c va (BitVec.ofNat 64 (256 + w * 512 + ob * 65536))
  | .miss ob sub a => .miss ob sub a
  | .hold ob sub a => .hold ob sub a
  | .ok ps =>
    let ob := match s.look x va.toNat with | .ok ob _ => ob | .bad .. => 0
    match mapGet? (s.core g.core).icache (icKey g.ctx ob va.toNat) with
    | some w => .ok [w]
    | none => .ok [BitVec.ofNat 32 (leNat (s.spanRead ps))]

/-- One word at a VA, as the group fetches it. -/
def State.fetch1 (s : State) (g : Group) (va : DWord) : Fetched := s.fetchAs (s.xl g) g va

/-- One word of the Stratus code SRAM (R395): 2 MiB from address 0. -/
def State.fetchStr (s : State) (va : DWord) : Fetched :=
  if va.toNat + 4 ≤ 0x200000 then .ok [BitVec.ofNat 32 (leNat (memReadBytes s.str.code va.toNat 4))]
  else .fault 5 va (BitVec.ofNat 64 (256 + 512))

/-- Fetch a unit whole with the words that `get` answers: up to the first word that is no prefix, three at most (R28, R46;
DEDUCED, LE 12). -/
def fetchUnit (get : DWord → Fetched) (pc : DWord) : Fetched :=
  match get pc with
  | .ok [w0] =>
    if !isPrefix w0 then .ok [w0]
    else match get (pc + 4) with
      | .ok [w1] =>
        if !isPrefix w1 then .ok [w0, w1]
        else match get (pc + 8) with
          | .ok [w2] => .ok [w0, w1, w2]
          | r => r
      | r => r
  | r => r

/-- The unit at a group's PC. -/
def State.fetchGrp (s : State) (g : Group) : Fetched := fetchUnit (s.fetch1 g) g.pc

/-- A word enters an instruction cache of 32,768 words (R8); the lowest leaves when it is full (DESIGN CHOICE, LE 18). -/
def icPut (m : NMap Word) (k : Nat) (w : Word) : NMap Word :=
  mapSet (if m.length < 32768 || (mapGet? m k).isSome then m else m.drop 1) k w

/-- The words of a fetched unit enter the core's instruction cache; the group's context is charged for each line of which
the cache held no word (R412). -/
def State.fillI (s : State) (g : Group) (ws : List Word) : State :=
  let c := s.core g.core
  let keys := ws.zipIdx.map fun p =>
    let va := (g.pc + BitVec.ofNat 64 (4 * p.2)).toNat
    (icKey g.ctx (match s.look (s.xl g) va with | .ok ob _ => ob | .bad .. => 0) va, p.1)
  let new := ((keys.map fun p => p.1 / 128).eraseDups.filter fun l => !c.icache.any fun e => e.1 / 128 = l).length
  let t := s.setCore g.core { c with icache := keys.foldl (fun m p => icPut m p.1 p.2) c.icache }
  if new = 0 then t else t.energy g.ctx (110000 * new)

/-- The class of a base word by major and function (R42). -/
def baseClass (maj fn fn3 : Nat) : Nat :=
  let within (a b : Nat) : Bool := a ≤ fn && fn ≤ b
  match maj with
  | 3 => if within 2 4 || within 17 26 then 2 else if within 5 8 then 4 else 1
  | 4 => if fn3 = 7 then 2 else 1
  | 9 => if within 2 5 || within 10 13 || within 36 37 then 2 else if within 6 9 then 4 else if within 29 30 then 3 else 1
  | 10 => if fn3 = 7 then 2 else 1
  | 11 => if within 10 12 then 1 else 2
  | 12 => if within 12 17 then 1 else 2
  | 13 => if within 3 6 || within 10 12 || fn = 15 || fn = 18 then 2 else 1
  | 14 => if within 2 3 then 4 else 3
  | 15 => if fn = 0 || fn = 2 || fn = 4 || fn = 5 then 2 else if fn = 13 then 1 else 3
  | _ => 1

/-- The class of a unit's words (R43). -/
def wordsClass (ws : List Word) : Nat :=
  match ws.getLast? with
  | none => 1
  | some w =>
    let c := baseClass (majOf w) (w.toNat % 64) (bitsOf w.toNat 10 3)
    match ws.head? with
    | some x => if isXWord x && ((decodeX x).xa.val / 64 ≠ 0 || (decodeX x).xb.val / 64 ≠ 0) then max 2 c else c
    | none => c

/-- The class of a group's candidate; 1 when it cannot be fetched. -/
def State.candClass (s : State) (g : Group) : Nat := match s.fetchGrp g with | .ok ws => wordsClass ws | _ => 1

/-- The base word of the candidate's unit, if its words are a unit. -/
noncomputable def State.candBase (s : State) (g : Group) : Option Word :=
  match s.fetchGrp g with
  | .ok ws => match decode g.inH ws with | .ok _ => ws.getLast? | .error _ => none
  | _ => none

/-- The pipe that the candidate's unit needs (R81). -/
noncomputable def State.candPipe (s : State) (g : Group) : Option Nat := (s.candBase g).map fun w => pipeOf (majOf w) (w.toNat % 64)

/-- Whether the candidate's unit is an integer division (R138). -/
noncomputable def State.candDiv (s : State) (g : Group) : Bool :=
  (s.candBase g).any fun w => majOf w = 9 && 6 ≤ w.toNat % 64 && w.toNat % 64 ≤ 9

end Sys2Proof.Machine
end

