-- ==== Sys2Proof/Machine/SeqEvents.lean ====
section
/-! DEFINITION. Events of the group sequencer (R45, R46, R86-R88, R92-R96, R105-R108, R111, R406): arbitration, the end of
`yield` and `sleep`, the spill engine, entry into handlers, context faults, written-back results. -/

namespace Sys2Proof.Machine

/-! ### Arbitration and the Pinwheel clock -/

/-- Whether a group may have a candidate now. -/
def State.mayIssue (s : State) (g : Group) : Bool := g.canIssue && s.residentGrp g

/-- Raise a core's ruling class; a raise starts a hold (R86). -/
def State.raiseClass (s : State) (c cls : Nat) : State :=
  s.modCore c fun v => if v.rc < cls then { v with rc := cls, hold := v.clsh } else v

/-- RC without a hold: the greater of C1 and the lesser of RC and the highest class of the core's ready candidates
(R86). -/
def Core.decay (v : Core) (top : Nat) : Core := if v.hold = 0 then { v with rc := max 1 (min v.rc top) } else v

/-- RULING_CLASS_HOLD_END (R86): once no hold runs, RC falls to the highest class among the core's candidates. -/
def execRulingClassHoldEnd (core : Nat) (s : State) : Out :=
  let top := s.groups.foldl (fun a kv => if kv.2.core = core && s.mayIssue kv.2 then max a (s.candClass kv.2) else a) 1
  .next (s.modCore core fun v => v.decay top)

/-- Whether a group's candidate has been its partition's first for CLSW cycles, whatever its class (R86). -/
def State.waitedClsw (s : State) (g : Group) : Bool := (s.core g.core).clsw ≤ g.firstN

/-- Whether a group has had a ready candidate in each of the last 16 cycles without issuing (R88). -/
def Group.isUrgent (g : Group) : Bool := 16 ≤ g.streak

/-- CLASS_WAIT_RAISE (R86): the candidate of group k has waited CLSW cycles. -/
def execClassWaitRaise (k : Nat) (s : State) : Out :=
  .next (match s.grp? k with
    | some g => if s.mayIssue g && s.waitedClsw g then s.raiseClass g.core (s.candClass g) else s
    | none => s)

/-- URGENT_CANDIDATE (R88, R413): the group is urgent; its candidate raises the ruling class, and its core starts to leave
low-voltage mode. -/
def execUrgentCandidate (k : Nat) (s : State) : Out :=
  .next (match s.grp? k with
    | some g =>
      if s.mayIssue g && g.isUrgent then
        ((s.setGrp k { g with urgent := true }).raiseClass g.core (s.candClass g)).leaveLv g.core
      else s
    | none => s)

/-- YIELD_END (R111). -/
def execYieldEnd (k : Nat) (s : State) : Out := .next (s.modGrp k fun g => { g with yielding := 0 })

/-- TNS at which a sleeping group wakes. -/
def Group.wakeTns (g : Group) : Nat := g.parkTns + (regGet g.parkArg 0).toNat

/-- SLEEP_WAKE (R111): the group unparks; a swapped-out one finds its wake on resume (R71). -/
def execSleepWake (k : Nat) (s : State) : Out :=
  .next (match s.grp? k with
    | some g =>
      if g.park ≠ 7 || g.woken || g.halted then s
      else
        let s1 := s.atLeast g.wakeTns
        if s.residentGrp g then s1.setGrp k { g with park := 0, parkArg := [] }
        else (s1.setGrp k { g with woken := true }).pushWoken k
    | none => s)

/-! ### The spill engine (R92-R94) -/

/-- Offset in the private object and length of a stack position or entry (R93). -/
def spillSpan (spb stk n : Nat) : Nat × Nat :=
  match stk with
  | 0 => (spb + 256 * n, 256)
  | 1 => (spb + 0x400000 + 8 * n, 8)
  | _ => (spb + 0x408000 + 24 * n, 24)

/-- VA of the private object's first byte. -/
def State.privBase (s : State) (g : Group) : Nat :=
  match s.recLook { u := g.core, ctx := g.ctx, sys := true } (s.ctx g.ctx).privobj with
  | .ok _ r => r.base
  | .bad .. => 0

/-- Where the span of a transfer lies in the private object. -/
def State.spillPlaces (s : State) (g : Group) (wr : Bool) (n : Nat) : XR :=
  let (o, len) := spillSpan g.spb g.spc.stk n
  let base := s.privBase g
  s.xlatePriv g.core g.ctx (if wr then 2 else 1) (base + o) ((List.range len).map fun i => o + i)

/-- The bytes the engine writes for its next position or entry. -/
def Group.spillBytes (g : Group) : List Byte :=
  match g.spc.stk with
  | 0 => lanesBytes (g.readPos g.spc.pos)
  | 1 => (g.ret.head?.map fun e => leBytes 8 e.word).getD []
  | _ => (g.recs.head?.map fun e => e.words.flatMap fun w => leBytes 8 w.toNat).getD []

/-- The group after one position or entry has been written. -/
def Group.spilled (g : Group) : Group :=
  let p := g.spc.pos + 1
  let go (h : Group) (more : Bool) : Group := { h with spc := { g.spc with pos := p, act := more, park := none } }
  match g.spc.stk with
  | 0 =>
    let h := ({ g with low := p } : Group).trimV
    go h (p % 8 ≠ 0 || h.res < h.high - p)
  | 1 => go { g with ret := g.ret.drop 1, retSp := p } (p % 8 ≠ 0)
  | _ => go { g with recs := g.recs.drop 1, recSp := p } (p % 8 ≠ 0)

/-- A return stack entry from its bytes (R93). -/
def retOf (bs : List Byte) : RetEnt := { pc := BitVec.ofNat 64 (leNat bs % 2 ^ 52), frame := bitsOf (leNat bs) 52 4 }
/-- A reconvergence stack entry from its bytes (R93). -/
def recEntOf (bs : List Byte) : RecEnt :=
  let w := leNat (bs.take 8)
  { kindD := w % 2 = 1, pc := BitVec.ofNat 64 (w / 2 * 2), exm := BitVec.ofNat 64 (leNat ((bs.drop 8).take 8)),
    fmt := BitVec.ofNat 64 (leNat (bs.drop 16) % 2 ^ 12) }

/-- The group after one position or entry has been read back; a filled window drops what exceeds its registers. -/
def Group.filled (g : Group) (bs : List Byte) : Group :=
  let p := g.spc.pos
  let go (h : Group) (more : Bool) : Group := { h with spc := { g.spc with pos := p - 1, act := more, park := none } }
  match g.spc.stk with
  | 0 =>
    let lanes : Lanes := lanesOf fun i => BitVec.ofNat 32 (leNat ((bs.drop (4 * i)).take 4))
    let h : Group := { g with low := p, vreg := mapSet g.vreg p lanes }
    if h.wb < p then go h true
    else go (({ h with high := min h.high (p + h.res) } : Group).trimV) false
  | 1 => go { g with ret := retOf bs :: g.ret, retSp := p } (p ≠ 0 && g.ret.length + 1 < 8)
  | _ => go { g with recs := recEntOf bs :: g.recs, recSp := p } (p ≠ 0 && g.recs.length + 1 < 8)

/-- Whether the spill engine of a group waits for a service or a move of its sub-tile. -/
def State.spillHeld (s : State) (g : Group) : Bool :=
  match g.spc.park with
  | some (ob, sub) => (s.ctx g.ctx).moving.contains (ob, sub) || (s.ctx g.ctx).services.any fun v => v.obj = ob && v.sub = sub
  | none => false

/-- The group's context is charged for the lines of a transfer that its die cache does not hold so (R412). -/
def State.spillEnergy (s : State) (g : Group) (wr : Bool) (ps : List Place) : State :=
  s.spanEnergy g.ctx (ps.filter fun p => match p with
    | .da a => let st := s.lineOf g.die (a / 128); if wr then st ≠ .M && st ≠ .E else st = .I
    | _ => false)

/-- SPILL_TRANSFER_DONE (R92-R94): one position or entry is transferred; a miss parks the engine, a failure that service
cannot cure traps SPF, with the PC of the unit that caused the transfer (R103). A position that an outstanding access
still writes is not spilled before the access has returned. -/
def execSpillTransferDone (k : Nat) (s : State) : Out :=
  .next (match s.grp? k with
    | none => s
    | some g =>
      let wr := !g.spc.dir
      let park (t : State) (ob sub : Nat) : State := t.setGrp k { g with spc := { g.spc with park := some (ob, sub) } }
      if !g.spc.act || g.inH || g.bankWait.isSome || g.halted || !s.residentGrp g || s.spillHeld g ||
          (g.spc.stk = 0 && g.pending.contains (.pos g.spc.pos)) then s
      else match s.spillPlaces g wr g.spc.pos with
        | .fault _ _ _ =>
          let (o, _) := spillSpan g.spb g.spc.stk g.spc.pos
          s.takeTrap k g { cause := 0x0E, a := BitVec.ofNat 64 (s.privBase g + o), pc := g.upc, i := g.spc.bits, resume := g.pc }
        | .miss ob sub va => park (s.openService g.ctx ob sub 1 wr g.core va) ob sub
        | .hold ob sub _ => park s ob sub
        | .ok ps =>
          if !(ps.all fun p => match p with | .da a => s.storeRoom (a / 128) | _ => true) ||
              !s.waysFree g.die (ps.filterMap fun p => match p with | .da a => some (a / 128) | _ => none).eraseDups then s
          else if wr then
            (((s.spillEnergy g true ps).storeLane g 0 ps g.spillBytes).setGrp k g.spilled.kick)
          else (s.spillEnergy g false ps).setGrp k (g.filled (s.spanRead ps)).kick)

/-! ### Traps and context faults -/

/-- TRAP_ENTER (R105, R107): the group first in line for its partition's free handler bank enters its handler. -/
def execTrapEnter (k : Nat) (s : State) : Out :=
  .next (match s.grp? k with
    | none => s
    | some g =>
      if (s.nextWaiter g.core (partOfSlot g.slot)).map Prod.fst = some k then s.passBank g.core (partOfSlot g.slot) else s)

/-- HANDLER_WATCHDOG (R107): longer than HWDT in handler mode is a context fault TMO. -/
def execHandlerWatchdog (k : Nat) (s : State) : Out :=
  .next (match s.grp? k with
    | none => s
    | some g =>
      if !g.inH || g.halted then s
      else (s.atLeast (g.hTns + (s.core g.core).hwdt * 1000 + 1)).contextFault k g { cause := 0x12, pc := g.pc })

/-- Halt every group of a context. -/
def State.haltCtx (s : State) (n : Nat) : State :=
  { s with groups := mapAll s.groups fun _ g => if g.ctx = n then { g with halted := true } else g }

/-- Whether every group of a context whose workgroup is not swapped out is halted. -/
def State.ctxHalted (s : State) (n : Nat) : Bool :=
  s.groups.all fun kv => kv.2.ctx ≠ n || kv.2.halted ||
    match s.wg? kv.2.wg with | some w => w.state = .swapped | none => true

/-- CONTEXT_HALT_DEADLINE (R108): 2 µs after the fault. -/
def execContextHaltDeadline (n : Nat) (s : State) : Out :=
  .next (match (s.ctx n).stop with
    | .faulted tns _ _ _ _ => if s.ctxHalted n then s else (s.atLeast (tns + 2000)).haltCtx n
    | _ => s)

/-- CONTEXT_FAULT_REPORT (R108, R406): one type 1 report once every group is halted. -/
def execContextFaultReport (n : Nat) (s : State) : Out :=
  .next (match (s.ctx n).stop with
    | .faulted tns t wgid slot false =>
      if !s.ctxHalted n then s
      else (s.modCtx n fun c => { c with stop := .faulted tns t wgid slot true }).post
        { type := 1, ctx := n, args := [wgid, BitVec.ofNat 64 (t.cause + (if t.deferred then 256 else 0) + slot % 2 ^ 15 * 2 ^ 24),
                                        t.a, t.pc, t.i] }
    | _ => s)

/-- REPORT_VECTOR_TIMER (R406): 10 µs after the last vector the pending one is sent. -/
def execReportVectorTimer (f : Nat) (s : State) : Out :=
  let h := s.host f
  .next (if !h.vecPending then s
    else
      let s1 := s.atLeast (h.vecTns + 10000)
      s1.setHost f (({ h with vecPending := false } : HostFn).signal s1.dev.tns))

/-! ### Written-back results (R96) -/

/-- The lowest queue with an unfilled entry gets its oldest one filled. -/
def Group.fillQ (g : Group) : Option Group :=
  match (List.range 16).find? fun n => (g.queues.getD n {}).ents.any fun e => !e.filled with
  | none => none
  | some n =>
    let q := g.queues.getD n {}
    let i := q.ents.findIdx fun e => !e.filled
    let e := q.ents.getD i { lanes := [], filled := true }
    some { g with queues := g.queues.set n { q with ents := q.ents.set i { e with filled := true } } }

/-- RESULT_WRITE_BACK (R96): a reserved queue entry is filled, or a pending result is written. -/
def execResultWriteBack (k : Nat) (s : State) : Out :=
  .next (match s.grp? k with
    | none => s
    | some g =>
      match g.fillQ with
      | some h => s.setGrp k h
      | none =>
        match g.ops.find? fun o => o.kind = .value && !o.done with
        | none => s
        | some o => s.setGrp k ((o.dst.foldl (fun h d => h.writeSDst d o.result) g).finishOp o.id))

/-! ### Units that cannot run (R45, R46) -/

/-- Whether a base word is one of a fault point, well-formed or not (R104): majors 1 and 2; exit, ret and vsync; fence, pfence
and fla; bar and barw, semw, tlwait, waitk and waitr; wait. -/
def faultWord (w : Word) : Bool :=
  let fn := w.toNat % 64
  match majOf w with
  | 0 => fn = 1 || fn = 6 || fn = 8
  | 1 => true
  | 2 => true
  | 22 => fn = 0 || fn = 1 || fn = 3
  | 25 => fn = 5 || fn = 7 || fn = 9 || fn = 10 || fn = 11
  | 28 => true
  | _ => false

/-- ILLEGAL_WORD (R45): the unit at the current agent's PC traps ILL with the failing word. At a fault point a recorded fault
and a DIE verdict come before it is decoded (R104, R109). -/
def execIllegalWord (word : Word) (s : State) : Out :=
  let t (g : Group) : Trap := { cause := 1, pc := g.pc, i := word.setWidth 64, resume := g.pc }
  .next (match s.cur with
    | .stratus => if s.str.halted then s.stall else s.stratusTrap (t s.sgrp)
    | .grp k => match s.grp? k with
      | some g =>
        let point := faultWord (match s.fetchGrp g with | .ok ws => ws.getLastD word | _ => word)
        if !s.mayIssue g then s.stall
        else if point && s.dieWaits g then s.dieAtFaultPoint k g
        else match g.takable, point with
          | f :: _, true => if g.lowerDone f then s.takeFault k g f else s.stall
          | _, _ => s.takeTrap k g (t g)
      | none => s.stall)

/-- FETCH_FAULT (R46, R222, R395): the unit at the current agent's PC cannot be fetched: it traps, or its group parks
on the miss. -/
def execFetchFault (s : State) : Out :=
  .next (match s.cur with
    | .stratus =>
      if s.str.halted then s.stall
      else match fetchUnit s.fetchStr s.sgrp.pc with
        | .fault c a i => s.stratusTrap { cause := c, a := a, pc := s.sgrp.pc, i := i, resume := s.sgrp.pc }
        | _ => s.stall
    | .grp k => match s.grp? k with
      | some g =>
        if !s.mayIssue g then s.stall
        else match s.fetchGrp g with
          | .ok _ => s.stall
          | .fault c a i => s.takeTrap k g { cause := c, a := a, pc := g.pc, i := i, resume := g.pc }
          | .miss ob sub va =>
            (s.openService g.ctx ob sub 2 false g.core va).setGrp k { g with iparked := some (ob, sub) }
          | .hold ob sub _ => s.setGrp k { g with iparked := some (ob, sub) }
      | none => s.stall)

end Sys2Proof.Machine
end

