-- ==== Sys2Proof/Machine/HomeEvents.lean ====
section
/-! DEFINITION. The home slices message by message (R306-R311, R318): requests of die caches, snoops, answers, grants,
write-backs, writes at the home, and replays. What travels between a die and a home slice does so over the interposer, and is
received once its packet is (R311, R356). -/

namespace Sys2Proof.Machine

/-! ### Messages between dies and home slices (R311, R356) -/

/-- A message about a line leaves its home slice for die `d`. -/
def State.toDie (s : State) (d line vc : Nat) (data : Bool) (m : RMsg) : State :=
  s.sendPkt { src := s.homeChip line, dst := d, vc := vc, msg := m, data := data }

/-- A message about a line leaves die `d` for its home slice. -/
def State.toHome (s : State) (d line vc : Nat) (data : Bool) (m : RMsg) : State :=
  s.sendPkt { src := d, dst := s.homeChip line, vc := vc, msg := m, data := data }

/-- The grant that a line's request has got since `s` leaves, with the line's data unless the die holds them (R308). -/
def State.grantOut (t s : State) (line : Nat) : State :=
  match (mapGet? s.home.busy line).bind LineReq.grant, mapGet? t.home.busy line with
  | none, some q => if q.grant.isSome then t.toDie q.die line 1 (t.lineOf q.die line ≠ .SM) (.grant q.die line) else t
  | _, _ => t

/-! ### Requests of die caches (R308) -/

/-- A request of a live die whose line is free starts: its directory entry has its place (R306), and what the directory holds
says whom to snoop; a line whose state went with a lost die is recalled from every live die (R305). -/
def State.startReq (s0 : State) (d line : Nat) (wait : LineSt) (kind : Nat) : State :=
  let s := (s0.dirRoom line).dieRoom d line
  let live := (List.range 16).filter fun e => e ≠ d && !(s.die e).dead
  let snoops : List Snoop := match s.dirOf line with
    | .U => []
    | .L => live.map fun e => s.snoop e 2
    | .S m => if kind = 0 then [] else ((diesOf m).filter (· ≠ d)).map fun e => s.snoop e 0
    | .X o => if o = d then [] else [s.snoop o (if kind = 0 then 1 else 2)]
  let s1 := (s.setLine d line wait).modHome fun h => { h with busy := mapSet h.busy line { kind := kind, die := d, snoops := snoops } }
  ((snoops.foldl (fun t n => t.toDie n.die line 2 false (.snoop n.die line)) s1).lineStep line).grantOut s1 line

/-- HOME_GETS (R308): a die that does not hold the line asks for a readable copy. -/
def execHomeGets (d line : Nat) (s : State) : Out :=
  .next (if 16 ≤ d || (s.die d).dead || !s.lineFree line || !s.waysFree d [line] || s.lineOf d line ≠ .I || !s.isMem (line * 128) then s
    else s.startReq d line .IS 0)

/-- HOME_GETM (R308): a die asks for the line in M. -/
def execHomeGetm (d line : Nat) (s : State) : Out :=
  let st := s.lineOf d line
  .next (if 16 ≤ d || (s.die d).dead || !s.lineFree line || !s.waysFree d [line] || !s.isMem (line * 128) || !(st = .I || st = .S || st = .SWT) then s
    else s.startReq d line (if st = .I then .IM else .SM) 1)

/-! ### Write-backs (R306, R307, R310) -/

/-- Whether the Put of a die for a line is in flight. -/
def State.putOf (s : State) (d line : Nat) (dirty : Bool) : Option Put :=
  s.home.puts.find? fun p => p.die = d && p.line = line && p.dirty = dirty

/-- Whether one of the two write-back buffers that a line's slice keeps for a die is free: it holds a Put from its sending to
its acknowledgment (R306). -/
def State.putRoom (s : State) (d line : Nat) : Bool :=
  ((s.die d).lines.filter fun kv => kv.2.st = .WP && s.sliceOf (kv.1 * 128) = s.sliceOf (line * 128)).length < 2

/-- A die evicts a line it owns: the line goes to WP and its Put leaves (R307, R318). -/
def State.sendPut (s : State) (d line : Nat) (dirty : Bool) : State :=
  let (id, s1) := s.fresh1
  let v := s1.die d
  ((s1.setDie d { v with lines := mapMod v.lines line fun l => { l with st := .WP, put := id } }).modHome fun h =>
    { h with puts := h.puts ++ [{ die := d, line := line, dirty := dirty, seq := id }] }).toHome d line 0 dirty (.put d line)

/-- A Put of a die: sent by the owner, then received by the home, which accepts it while its line is busy; its data wait in
the write-back buffer while the filter is full (R306, R310, R318). -/
def State.putStep (s : State) (d line : Nat) (dirty : Bool) : State :=
  match s.putOf d line dirty with
  | some p =>
    if s.onWay (.put d line) || (dirty && !s.filterRoom (s.sliceOf (line * 128))) then s
    else (((s.landPut p).lineStep line).grantOut s line).toDie d line 1 false (.putAck d line)
  | none =>
    if s.lineOf d line = (if dirty then .M else .E) && s.dirOf line = .X d && s.putRoom d line then s.sendPut d line dirty else s

/-- HOME_PUTM (R308, R310): the write-back of a line held in M. -/
def execHomePutm (d line : Nat) (s : State) : Out := .next (s.putStep d line true)

/-- HOME_PUTE (R308, R310): the write-back, without data, of a line held in E. -/
def execHomePute (d line : Nat) (s : State) : Out := .next (s.putStep d line false)

/-- PUT_ACK (R307, R318): once its Put is received, a die in WP moves the line to I and releases the request. -/
def execPutAck (d line : Nat) (s : State) : Out :=
  .next (if s.lineOf d line = .WP && !(s.home.puts.any fun p => p.die = d && p.line = line) && !s.onWay (.putAck d line)
    then s.putAcked d line else s)

/-! ### Snoops (R309-R311) -/

/-- A die receives a snoop, once its packet has arrived, and sends its answer: a line's data as a response that any lit strand may
carry, anything else on the sentinel (R309, R311). -/
def State.takeSnoop (s : State) (d line kind : Nat) (f : State → State) : State :=
  if s.onWay (.snoop d line) || !s.openSnoop d line kind then s
  else
    let data := s.lineOf d line = .M
    (f s).toHome d line (if data then 1 else 2) data (.answer d line)

/-- SNOOP_INV (R309). -/
def execSnoopInv (d line : Nat) (s : State) : Out := .next (s.takeSnoop d line 0 fun t => t.invSnoop d line)
/-- SNOOP_REC_TO_S (R309). -/
def execSnoopRecToS (d line : Nat) (s : State) : Out := .next (s.takeSnoop d line 1 fun t => t.recallSnoop d line 1 .S)
/-- SNOOP_REC_TO_I (R309). -/
def execSnoopRecToI (d line : Nat) (s : State) : Out := .next (s.takeSnoop d line 2 fun t => t.recallSnoop d line 2 .I)

/-- SNOOP_ANSWER (R310): the home takes the answer of a snoop, once its packet has arrived. -/
def execSnoopAnswer (d line : Nat) (s : State) : Out :=
  .next (if s.onWay (.answer d line) then s else (s.answerSnoop d line).grantOut s line)

/-- SNOOP_RESEND (R311): ten microseconds without an answer. -/
def execSnoopResend (d line : Nat) (s : State) : Out :=
  .next (match (mapGet? s.home.busy line).bind fun q => q.snoops.find? fun n => n.die = d && !n.answered with
    | none => s
    | some n =>
      let s1 := s.atLeast (n.sent + 10000)
      ((s1.modReq line fun q => { q with snoops := q.snoops.map fun m =>
        if m.die = d && !m.answered then { m with sent := s1.dev.tns } else m }).toDie d line 2 false (.snoop d line)).count 3)

/-- GRANT_ARRIVE (R308): the requesting die takes the line, once the grant's packet has arrived. -/
def execGrantArrive (d line : Nat) (s : State) : Out := .next (if s.onWay (.grant d line) then s else s.arriveGrant d line)

/-! ### Writes at the home and replays (R308, R318) -/

/-- A request that writes reaches its home slice (R308, R318): one that its filter holds is answered from it and not
applied again; a busy line or a full filter makes it wait. -/
def State.homeRequest (s : State) (rid : ReqId) (req : HomeReq) : State :=
  let go (da n : Nat) (f : State → State) : State :=
    if n = 0 || !s.isMem (da + n - 1) || (s.filterGet (s.sliceOf da) rid).isSome || !((spanLines da n).all fun l => s.writeRoom l) then s
    else f s
  match req with
  | .write da data => go da data.length fun t => (t.homeWrite none da data).filterAdd da rid 0
  | .atomic da op v c => go da 4 fun t => (t.homeAtomic rid da op v c).2

/-- HOME_WRITE_PERFORM (R308). -/
def execHomeWritePerform (rid : ReqId) (da : Nat) (data : List Byte) (s : State) : Out :=
  .next (s.homeRequest rid (.write da data))

/-- REPLAY_REQUEST (R318). -/
def execReplayRequest (rid : ReqId) (req : HomeReq) (s : State) : Out := .next (s.homeRequest rid req)

end Sys2Proof.Machine
end

