-- ==== Sys2Proof/Machine/CumulusEvents.lean ====
section
/-! DEFINITION. Events of the Cumulus units (R337-R348): ageing, the application of packets, the fault log, the egress
queues. -/

namespace Sys2Proof.Machine

/-- CUMULUS_AGE_EXPIRE (R337): the buffer's age reaches AGET and it leaves. -/
def execCumulusAgeExpire (d buf : Nat) (s : State) : Out :=
  .next (match mapGet? (s.die d).bufs buf with
    | some v => if v.ents.isEmpty then s else (s.atLeast (v.start + (s.die d).aget)).cuLeave d buf
    | none => s)

/-- Entries with their indices, a `sta64`'s high word with its low one. -/
def cuUnits : Nat → List CuEntry → List (Nat × CuEntry × Option CuEntry)
  | _, [] => []
  | i, [e] => [(i, e, none)]
  | i, e :: x :: r =>
    if e.wide && !e.pair && x.pair then (i, e, some x) :: cuUnits (i + 2) r else (i, e, none) :: cuUnits (i + 1) (x :: r)

/-- A home slice performs one entry as one write in its word's order (R341). -/
def State.cuApply (s : State) (e : CuEntry) (hi : Option CuEntry) : State :=
  let w : Word := BitVec.ofNat 32 (s.rdNat e.word 4)
  let v : Word := if e.op = 13 then e.val else redOp e.op w e.val
  (s.homeWrite none e.word (leBytes 4 v.toNat ++ (match hi with | some x => leBytes 4 x.val.toNat | none => []))).energy e.ctx 110000

/-- Apply the entries of a packet in order; `bad` names the rejected ones by index with WHY and the destination's own
WHY (R343). A peer's entries were applied there. -/
def State.cuApplyAll (s : State) (p : CuPkt) (bad : List (Nat × Nat × Nat)) : State :=
  (cuUnits 0 p.ents).foldl (fun t u =>
    match bad.find? fun b => b.1 = u.1 with
    | some b =>
      { t with cuRejs := t.cuRejs ++ [{ ent := u.2.1, hi := (u.2.2.map CuEntry.val).getD 0, src := p.src, bit := p.bit,
                                        peer := p.peer, why := b.2.1, dwhy := b.2.2 }] }
    | none => if p.bit < 32 then t.cuApply u.2.1 u.2.2 else t) s

/-- CUMULUS_PACKET_APPLY (R337, R343): a home packet behind no earlier one of its buffer is applied, the entries whose
word is uncorrectable rejected with WHY 5; a peer's packet ends once the peer has answered for all of it. The record of
a packet in a replay filter is dropped by the response, in the same step. -/
def execCumulusPacketApply (id : Nat) (bad : List (Nat × Nat × Nat)) (s : State) : Out :=
  .next (match s.cuPkts.find? fun p => p.id = id with
    | none => s
    | some p =>
      let first := match s.cuPkts.find? fun q => q.src = p.src && q.bit = p.bit with | some q => q.id = id | none => false
      let ready := if p.bit < 32 then first && p.ents.all fun e => s.writeRoom (e.word / 128) && s.linesRouted p.src [e.word / 128] else p.parts.isEmpty
      if !ready then s
      else
        let rejects := if p.bit < 32 then (bad.filter fun b => b.2.1 = 5).map fun b => (b.1, 5, 0) else p.bad
        let s1 := { s with cuPkts := s.cuPkts.filter fun q => q.id ≠ id }
        (s1.cuApplyAll p rejects).syncDirty p.src)

/-- A peer has answered an entry of the request named `n`: it rejected it, or it was the request's last (R343). -/
def State.cuAnswered (s : State) (n : Nat) (last : Bool) (bad : List (Nat × Nat × Nat)) : State :=
  { s with cuPkts := s.cuPkts.map fun p =>
      if p.parts.any fun r => r % 2 ^ 24 = n then
        { p with parts := if last then p.parts.filter (fun r => r % 2 ^ 24 ≠ n) else p.parts, bad := p.bad ++ bad }
      else p }

/-- The bytes of a fault log record (R343). -/
def CuRej.bytes (r : CuRej) (seq tns : Nat) : List Byte :=
  let e := r.ent
  leBytes 8 (seq + e.ctx * 2 ^ 32 + r.why * 2 ^ 38 + e.op * 2 ^ 42 + (if e.wide then 2 ^ 46 else 0) + r.dwhy % 16 * 2 ^ 48) ++
    leBytes 8 (e.va.toNat % 2 ^ 52 + (if 32 ≤ r.bit then r.peer * 2 ^ 52 else 0)) ++ leBytes 4 e.val.toNat ++ leBytes 4 r.hi.toNat ++
    leBytes 8 (e.pc.toNat % 2 ^ 52 + e.gidx * 2 ^ 52) ++ leBytes 8 e.wgid.toNat ++ leBytes 8 e.cnt ++ leBytes 8 tns ++ leBytes 8 0

/-- The groups that a written record makes AGG or PEER pending in (R344). -/
def State.pendAgg (s : State) (r : CuRej) : State :=
  { s with groups := mapAll s.groups fun _ g =>
      if g.ctx = r.ent.ctx && g.die = r.src && r.bit < 96 && bitOf g.dirtyMask r.bit then
        (if r.why ≤ 5 then { g with agg := true } else { g with peerP := true })
      else g }

/-- CUMULUS_REJECT_LOG (R343, R344): the oldest rejected or refused element is written to its context's log, or counted
in LOST when the log is full or not configured (DESIGN CHOICE, LE 21). -/
def execCumulusRejectLog (s : State) : Out :=
  .next (match s.cuRejs with
    | [] => s
    | r :: rest =>
      let n := r.ent.ctx
      let c := s.ctx n
      let log := bitsOf c.aflb.toNat 48 5
      let s1 := { s with cuRejs := rest }
      (if log < 4 || 2 ^ log ≤ (c.aflt - c.aflh).toNat then s1.modCtx n fun c => { c with afll := c.afll + 1 }
       else
         let a := c.aflb.toNat % 2 ^ 48 + 64 * (c.aflt.toNat % 2 ^ log)
         let s2 := (s1.homeWrite none a (r.bytes c.aflt.toNat s.dev.tns)).modCtx n fun c => { c with aflt := c.aflt + 1 }
         if r.ent.grps.isEmpty then s2.post { type := 9, ctx := n, args := [(c.aflt + 1).setWidth 64] } else s2.pendAgg r).syncDirty r.src)

/-- The slots whose peers are reachable again enter STATE 2 (R346). -/
def State.reconnect (s : State) : State :=
  { s with egress := mapAll s.egress fun _ v => if v.state = 0 || s.disconnected v.peer then v else { v with state := 2 } }

/-- EGRESS_DELIVER (R346): a bound slot whose peer is reachable again enters STATE 2; then its first record goes out, and the
empty slot is free. -/
def execEgressDeliver (q : Nat) (s : State) : Out :=
  let v := s.egr q
  .next (if v.state = 0 || s.disconnected v.peer then s
    else if v.state ≠ 2 then s.reconnect
    else match v.recs with
      | [] => s.setEgr q { v with state := 0, peer := 0, full := false }
      | e :: r =>
        let two := e.wide && !e.pair && (r.head?.any fun x => x.pair)
        let es := if two then v.recs.take 2 else [e]
        let rest := v.recs.drop es.length
        let v1 := { v with state := if rest.isEmpty then 0 else 2, peer := if rest.isEmpty then 0 else v.peer,
                           full := v.full && !rest.isEmpty, head := v.head + BitVec.ofNat 32 es.length, recs := rest }
        (s.setEgr q v1).cuSend (48 + v.peer % 2) 96 v.peer es)

/-- The entries of a context leave every buffer and egress queue without being logged (R348, R409). -/
def State.dropCumulus (s : State) (n : Nat) : State :=
  let keep (l : List CuEntry) : List CuEntry := l.filter fun e => e.ctx ≠ n
  let s1 := { s with
    dies := mapAll s.dies fun _ d =>
      { d with bufs := (mapAll d.bufs fun _ b => { b with ents := keep b.ents }).filter fun b => !b.2.ents.isEmpty },
    egress := mapAll s.egress fun _ e =>
      { e with recs := keep e.recs, head := e.head + BitVec.ofNat 32 (e.recs.length - (keep e.recs).length) },
    cuRejs := s.cuRejs.filter fun r => r.ent.ctx ≠ n }
  (List.range 16).foldl (fun t d => t.syncDirty d) s1

end Sys2Proof.Machine
end

