-- ==== Sys2Proof/Machine/RouterEvents.lean ====
section
/-! DEFINITION. The Rainbow router's events (R353-R362): routing table writes, heartbeats, flits, relays, failures of strands, and
gating. -/

namespace Sys2Proof.Machine

/-- A write to RRTc[t] (R9, R352, R353): one that names a reserved chiplet or entry, sets a reserved bit or has a bad RLY is discarded
and logged. -/
def State.rrtWrite (s : State) (c t : Nat) (v : DWord) : State :=
  let n := v.toNat
  let rly := bitsOf n 2 6
  if 50 ≤ c || 50 ≤ t || 50 ≤ rly then (s.count 6).logged 0 [c, t, n]
  else if t = c || n / 2 ^ 9 ≠ 0 || rly = c || rly = t then (s.count 0).logged 0 [c, t, n]
  else (s.setPair c t ((s.pair c t).written (n % 4) rly (bitOf n 8) s.dev.now5)).pumpAll

/-- RRT_WRITE (R353). -/
def execRrtWrite (c t : Nat) (v : DWord) (s : State) : Out := .next (s.rrtWrite c t v)

/-- Chiplet t has seen a heartbeat of chiplet c. -/
def State.heard (s : State) (t c : Nat) : State :=
  let v := s.chip t
  s.setChip t { v with seen := mapSet v.seen c s.dev.tns }

/-- HEARTBEAT_SEND (R362): 1 µs after its last ones a live chiplet sends one to each other live chiplet. -/
def execHeartbeatSend (c : Nat) (s : State) : Out :=
  let v := s.chip c
  let u := s.atLeast (v.hbTns + 1000)
  .next (if 50 ≤ c || v.dead then s
    else ((List.range 50).filter fun t => t ≠ c && !(s.chip t).dead).foldl
      (fun u t => u.sendPkt { src := c, dst := t, vc := 2, msg := .heartbeat v.hbSeq })
      (u.setChip c { v with hbSeq := (v.hbSeq + 1) % 1024, hbTns := u.dev.tns }))

/-- A packet has reached its destination: of a heartbeat its receiver takes note; another message may now be received. -/
def State.delivered (s : State) (p : RPkt) : State :=
  match p.msg with
  | .heartbeat _ => s.heard p.dst p.src
  | _ => s

/-- A pair after a strand of it has failed (R351, R353, R358, R360): a new sentinel is not gated, a strand that was waking is not
woken again, MODE narrows where AUTO is 1 or was in this cycle (R363), and unaccepted flits of the strand go over those that remain. -/
def Pair.without (v : Pair) (strand now : Nat) : Pair :=
  let v1 := { v with fail := v.fail + 2 ^ strand, gated := if bitOf v.gated strand then v.gated - 2 ^ strand else v.gated }
  let v2 := { v1 with gated := if bitOf v1.gated v1.sentinel then v1.gated - 2 ^ v1.sentinel else v1.gated }
  let v3 := { v2 with waking := if v2.gated = 0 then none else v2.waking }
  let v4 := { ({ v3 with auto := v3.auto || v3.wrote5 = some now } : Pair).narrow with
    auto := v3.auto }
  { v4 with
    auto5 := if v4.mode = v3.mode then v3.auto5 else some now,
    retry := v4.retry.map fun f => if bitOf f.strands strand then { f with strands := v4.stripe (bandMask v4.mode) f.vc } else f }

/-- A strand fails (R24, R353, R360, R361): it is failed and logged, the loss of a sentinel A0 too; a colour lost is reported; with no
direct strand left the unacknowledged packets are given up and resent by the relay route. -/
def State.loseStrand (s : State) (c t strand : Nat) : State :=
  let v1 := (s.pair c t).without strand s.dev.now5
  let s1 := (s.setPair c t v1).logged 1 [c, t, strand]
  let s2 := if strand = 0 && v1.good ≠ 0 then s1.logged 2 [c, t] else s1
  let s3 := if v1.good &&& (if strand < 6 then 0x3F else 0xFC0) = 0 then
      s2.post { type := 5, chip := c, args := [BitVec.ofNat 64 (t + if strand < 6 then 0 else 64)] }
    else s2
  if v1.good = 0 then s3.giveUp c t else s3.pumpAll

/-- STRAND_FAIL (R360): a strand's receiving ring monitor has lost light. -/
def execStrandFail (c t strand : Nat) (s : State) : Out :=
  .next (if 12 ≤ strand || 50 ≤ c || 50 ≤ t || c = t || bitOf (s.pair c t).fail strand then s else s.loseStrand c t strand)

/-- A flit of a pair fails its check (R359, R360): it is counted; 16 within one ms whose parity fault is on one of the strands it
is striped over fail that strand. Which strand the fault is on is a free value (DESIGN CHOICE, LE 5). -/
def State.badFlit (s : State) (c t : Nat) (f : RFlit) : State :=
  let v := s.pair c t
  let strand := (Config.freeWord s.fresh).toNat % 16
  let bad := (v.bad ++ [(strand, s.dev.tns)]).filter fun b => s.dev.tns < b.2 + 1000000
  let s1 := ({ s with fresh := s.fresh + 1 } : State).setPair c t { v with crce := min (2 ^ 32 - 1) (v.crce + 1), bad := bad }
  if bitOf f.strands strand && !bitOf v.fail strand && 16 ≤ (bad.filter fun b => b.1 = strand).length then s1.loseStrand c t strand
  else s1

/-- FLIT_RECEIVE (R356, R359): the flit of pair (c, t) that comes next is counted and discarded if it fails its check; accepted if
it is in order; any other is discarded. At a relay it is accepted once the relay holds a second-hop credit; where the relay has no
way left to the destination the packet is given up. -/
def execFlitReceive (c t seq : Nat) (ok : Bool) (s : State) : Out :=
  let v := s.pair c t
  let took := s.setPair c t { v with expect := (v.expect + 1) % 4096 }
  .next (match v.unseen with
    | [] => s
    | f :: _ =>
      let p := f.pkt
      if !ok then s.badFlit c t f
      else if f.seq ≠ seq then s
      else if p.dst = t then (took.delivered p).pumpAll
      else if (s.pair t p.dst).good = 0 || (s.chip p.dst).dead then (took.resend [p]).pumpAll
      else if s.relayTakes t p then
        s.setPair c t { v with expect := (v.expect + 1) % 4096, atRelay := v.atRelay ++ [p] }
      else s)

/-- FLIT_ACK (R351, R359): an acknowledgment comes by the reverse pair's sentinel, or by its relay route; the flits up to an accepted
one leave the sender's retry buffer, and what waited for it may leave (R355). -/
def execFlitAck (c t seq : Nat) (s : State) : Out :=
  let v := s.pair c t
  .next (match v.retry.findIdx? fun f => f.seq = seq with
    | some i =>
      if (v.unseen.any fun f => f.seq = seq) || ((s.pair t c).good = 0 && (s.relayOf t c).isNone) then s
      else (s.setPair c t { v with retry := v.retry.drop (i + 1) }).pumpAll
    | none => s)

/-- RELAY_FORWARD (R351, R354, R356, R357): relay k forwards the oldest packet it holds from c to t of the channel that is next, by the
credit it holds, on its own direct strands, whatever its table says. -/
def execRelayForward (k c t : Nat) (s : State) : Out :=
  let v := s.pair c k
  .next (match v.atRelay.find? fun p => p.dst = t && p.vc = s.nextFwd k t with
    | some p =>
      if (s.chip k).dead || (s.pair k t).good = 0 || 256 ≤ (s.pair k t).retry.length then s
      else
        let s1 := s.setPair c k { v with atRelay := v.atRelay.erase p }
        let s2 := if p.vc = 2 then s1 else s1.setPair k t { s1.pair k t with turn2 := 1 - p.vc }
        (s2.putFlit k t (p.vc + 3) 0xFFF p).pumpAll
    | none => s)

/-- Whether a trigger of a pair's wake stands (R358). -/
def State.wakeDue (s : State) (c t : Nat) : Bool :=
  let v := s.pair c t
  (s.chip c).wakeq ≤ v.unseen.length + v.held.length

/-- STRAND_GATE (R358): after IDLE ns without traffic the strands other than the sentinel gate, unless a wake is due. -/
def execStrandGate (c t : Nat) (s : State) : Out :=
  let v := s.pair c t
  let others := v.good &&& (0xFFF ^^^ 2 ^ v.sentinel)
  .next (if !(s.chip c).gen || v.waking.isSome || s.wakeDue c t || v.gated = others || c = t || 50 ≤ c || 50 ≤ t then s
    else (s.atLeast (v.idle + (s.chip c).idle)).setPair c t { v with gated := others })

/-- STRAND_WAKE_DONE (R358): 1.2 µs after the trigger the gated strands are usable. -/
def execStrandWakeDone (c t : Nat) (s : State) : Out :=
  let v := s.pair c t
  .next (match v.waking with
    | some b => (s.atLeast (b + 1200)).setPair c t { v with gated := 0, waking := none }
    | none => s)

/-- RGCFG (R358). -/
def Chiplet.rgcfg (v : Chiplet) : DWord := BitVec.ofNat 64 (v.idle + v.wakeq * 2 ^ 16 + if v.gen then 2 ^ 24 else 0)

/-- Every gated strand of a chiplet's pairs starts to wake. -/
def State.wakeAll (s : State) (c : Nat) : State :=
  (List.range 50).foldl (fun u t =>
    let v := u.pair c t
    if v.gated ≠ 0 && v.waking.isNone then u.setPair c t (v.wake s.dev.tns) else u) s

/-- A write to RGCFGc (R358). -/
def State.rgcfgWrite (s : State) (c : Nat) (v : DWord) : State :=
  let n := v.toNat
  if n / 2 ^ 25 ≠ 0 || n % 2 ^ 16 < 200 || bitsOf n 16 8 = 0 then s.count 0
  else
    let s1 := s.setChip c { s.chip c with idle := n % 2 ^ 16, wakeq := bitsOf n 16 8, gen := bitOf n 24 }
    if bitOf n 24 then s1 else s1.wakeAll c

/-- STRAND_GATING_DISABLE (R358): RGCFG is written with GEN = 0. -/
def execStrandGatingDisable (c : Nat) (s : State) : Out :=
  .next (if 50 ≤ c then s else (s.setChip c { s.chip c with gen := false }).wakeAll c)

/-- HEARTBEAT_MISS (R362): chiplet r has seen no heartbeat of chiplet c for 64 intervals and reports it. -/
def execHeartbeatMiss (r c : Nat) (s : State) : Out :=
  .next (if 50 ≤ c || 50 ≤ r || r = c || (s.chip c).dead || (s.chip r).dead || (s.chip c).reported then s
    else
      let s1 := s.atLeast (mapGet (s.chip r).seen c 0 + 64000)
      s1.setChip c { s1.chip c with reported := true })

end Sys2Proof.Machine
end

