-- ==== Sys2Proof/Machine/PortEvents.lean ====
section
/-! DEFINITION. The Shofer ports (R364-R377, R415): wavelengths and lanes, bring-up, width changes, link replay, tag
groups, ageing, the time counter, and the photonic registers. -/

namespace Sys2Proof.Machine

/-! ### Registers (R371) -/

/-- PCFG.WREQ as a width code: 0 for 8 lanes to 3 for 1. -/
def Port.wreq (v : Port) : Nat := v.cfg.toNat % 4
/-- PCFG.WMAX. -/
def Port.wmax (v : Port) : Nat := bitsOf v.cfg.toNat 2 2
/-- PCFG.EN. -/
def Port.en (v : Port) : Bool := v.cfg.getLsbD 17
/-- Wavelength of logical lane k (LMAP). -/
def Port.lane (v : Port) (k : Nat) : Nat := bitsOf v.lmap.toNat (4 * k) 4
/-- Whether Ww carries a logical lane. -/
def Port.mapped (v : Port) (w : Nat) : Bool := (List.range 8).any fun k => v.lane k = w
/-- LAGEw.FAIL. -/
def Port.failed (v : Port) (w : Nat) : Bool := (mapGet v.lageH w 0).getLsbD 24
/-- The wavelengths that have not failed. -/
def Port.goodWl (v : Port) : List Nat := (List.range 10).filter fun w => !v.failed w
/-- Lanes at a width code. -/
def lanesAt (code : Nat) : Nat := 8 / 2 ^ code
/-- The widest code that n lanes allow. -/
def codeFor (n : Nat) : Nat := if 8 ≤ n then 0 else if 4 ≤ n then 1 else if 2 ≤ n then 2 else 3
/-- The widest code R365 allows; no bound without a good wavelength (R372). -/
def Port.bound (v : Port) : Nat := if v.goodWl.isEmpty then 0 else codeFor v.goodWl.length

/-- PSTAT (R371). -/
def Port.pstat (v : Port) : DWord :=
  BitVec.ofNat 64 (v.width + (if v.state = 2 || v.state = 3 then v.wtgt else v.width) * 4 + v.state * 16 +
    (if v.skida then 64 else 0) + min 65535 v.txWait.length * 2 ^ 16 + v.wakes % 2 ^ 32 * 2 ^ 32)

/-- The second LAGE word (R371). -/
def Port.lageWord (v : Port) (w : Nat) : DWord :=
  (mapGet v.lageH w 0) ||| (if v.mapped w then 0x2000000 else 0)

/-- Raise one saturating 32-bit half of a counter pair. -/
def satHalf (v : DWord) (hi : Bool) : DWord :=
  let h := v.toNat / 2 ^ 32
  let l := v.toNat % 2 ^ 32
  if hi then BitVec.ofNat 64 (l + min (2 ^ 32 - 1) (h + 1) * 2 ^ 32) else BitVec.ofNat 64 (min (2 ^ 32 - 1) (l + 1) + h * 2 ^ 32)

/-- Change a port. -/
def State.modPort (s : State) (p : Nat) (f : Port → Port) : State := s.setPort p (f (s.port p))

/-! ### Going down (R380) -/

/-- The packets whose rail is `p` go out again on another one (R380). -/
def State.resendRail (s : State) (p : Nat) : State :=
  s.fab.unacked.foldl (fun t kv =>
    let (l, t1) := kv.2.foldl (fun (acc : List TxPkt × State) x =>
      if x.rail = some p then
        let (r, u) := (acc.2.flitEnergy x.ctx x.pkt).putOnRail x.pkt (some p)
        (acc.1 ++ [{ x with rail := r, tns := s.dev.tns }], u)
      else (acc.1 ++ [x], acc.2)) (([] : List TxPkt), t)
    { t1 with fab := { t1.fab with unacked := mapSet t1.fab.unacked kv.1 l } }) s

/-- A port goes down: what it held is gone and its traffic is resent on other rails; the owner is told (R365, R369,
R370, R372, R380). -/
def State.portDown (s : State) (p reason : Nat) : State :=
  let v := s.port p
  let s1 := (s.setPort p { v with state := 0, wtgt := v.width, skida := false, session := false, bring := false, txWait := [],
                                  txRetry := [], tagHeld := [], asm := [], early := [], again := [], remaps := [],
                                  pending := [], tagFails := 0, rxGap := false, inGroup := 0 }).post
    { type := 8, args := [BitVec.ofNat 64 p, BitVec.ofNat 64 reason] }
  s1.resendRail p

/-! ### Failing wavelengths (R365) -/

/-- Put wavelength `w` on logical lane `k`. -/
def Port.setLane (v : Port) (k w : Nat) : Port :=
  { v with lmap := BitVec.ofNat 64 (v.lmap.toNat - v.lane k * 2 ^ (4 * k) + w * 2 ^ (4 * k)) }

/-- The lowest good wavelength that carries no lane and is not on its way to one. -/
def Port.spare (v : Port) : Option Nat :=
  v.goodWl.find? fun w => !v.mapped w && !(v.remaps.any fun r => r.2.1 = w)

/-- The map rewritten so that the lanes of the widest width hold good wavelengths (R365), the others following in
order. -/
def Port.rewrite (v : Port) : Port :=
  let w := lanesAt v.bound
  let front := v.goodWl.take w
  let back := (List.range 10).filter fun x => !front.contains x
  let l := (front ++ back).take 8
  { v with lmap := BitVec.ofNat 64 ((l.zipIdx.map fun p => p.1 * 2 ^ (4 * p.2)).sum), width := max v.width v.bound, remaps := [] }

/-- The width a port returns to when its lanes are remapped. -/
def Port.oldWidth (v : Port) : Nat := match v.remaps.head? with | some r => r.2.2 | none => v.width

/-- Lane k of a running port has lost its wavelength: a remap starts, or the map is rewritten; without a good wavelength
the port has to go down. `old` is the width it returns to. -/
def Port.loseLane (v : Port) (k old : Nat) : Option Port :=
  match v.spare with
  | some w =>
    let room := if k = 0 then v.width else max v.width (codeFor k)
    some { v with remaps := v.remaps ++ [(k, w, old)], width := room }
  | none => if v.goodWl.isEmpty then none else some ({ v with width := old } : Port).rewrite

/-- A lane has a new wavelength, or the map was rewritten, because wavelength w failed: logged, and reported with the map as it is now
(R365; as type 6, DEDUCED, LE 77). -/
def State.remapped (s : State) (p w reason : Nat) (how : List Nat) (lmap : DWord) : State :=
  (s.logged 5 how).post { type := 6, args := [BitVec.ofNat 64 p, BitVec.ofNat 64 w, BitVec.ofNat 64 reason, lmap] }

/-- A failure of wavelength w of port p for a reason of report type 6 is logged and reported (R365, R406). -/
def State.tellWl (s : State) (p w reason : Nat) : State :=
  (s.logged 4 [p, w, reason]).post
    { type := 6, args := [BitVec.ofNat 64 p, BitVec.ofNat 64 w, BitVec.ofNat 64 reason, (s.port p).lmap] }

/-- Wavelength w of port p has failed for a reason of report type 6 (R365, R406): logged and reported. -/
def State.failWl (s : State) (p w reason : Nat) : State :=
  let v := s.port p
  if 32 ≤ p || 10 ≤ w || v.failed w then s
  else
    let s1 := s.tellWl p w reason
    let v1 := { v with lageH := mapSet v.lageH w ((mapGet v.lageH w 0) ||| 0x1000000), why := mapSet v.why w reason }
    if v.state = 0 then s1.setPort p v1
    else
      let target := v1.remaps.find? fun r => r.2.1 = w
      let lane := match target with
        | some r => some r.1
        | none => (List.range 8).find? fun k => v1.lane k = w
      match lane with
      | none => s1.setPort p v1
      | some k =>
        match ({ v1 with remaps := v1.remaps.filter fun r => r.1 ≠ k } : Port).loseLane k v.oldWidth with
        | some v2 => (if v2.lmap = v1.lmap then s1 else s1.remapped p w reason [p] v2.lmap).setPort p v2.pump
        | none => (s1.setPort p v1).portDown p 2

/-- WAVELENGTH_FAIL (R365). -/
def execWavelengthFail (p w reason : Nat) (s : State) : Out := .next (s.failWl p w reason)

/-- The width that a port may run at while lanes are being remapped: none of them is in use but lane 0, which stops all traffic
(R365). -/
def Port.besides (v : Port) (code : Nat) : Nat := v.remaps.foldl (fun (a : Nat) (r : Nat × Nat × Nat) => if r.1 = 0 then a else max a (codeFor r.1)) (max code v.bound)

/-- LANE_REMAP_DONE (R365): the spare carries the lane, which is logged and reported; the width returns as far as the remaps left allow. -/
def execLaneRemapDone (p lane : Nat) (s : State) : Out :=
  let v := s.port p
  .next (match v.remaps.find? fun r => r.1 = lane with
    | none => s
    | some r =>
      let rest := v.remaps.filter fun x => x.1 ≠ lane
      let v1 := ({ v with remaps := rest } : Port).setLane lane r.2.1
      let w := v.lane lane
      (s.remapped p w (mapGet v.why w 0) [p, lane, r.2.1] v1.lmap).setPort p ({ v1 with width := v1.besides r.2.2 } : Port).pump)

/-! ### Width changes (R373-R375) -/

/-- Start a change to a width code, or queue it behind the one under way; a wider wake joins a wake. While lanes are remapped the width
agreed on counts, not the one that the port runs at meanwhile (R365, R373). -/
def Port.change (v : Port) (code tns : Nat) : Port :=
  if v.state = 1 then
    if code = v.oldWidth then v
    else { v with state := if v.oldWidth < code then 2 else 3, wtgt := code, changeTns := tns }
  else if v.state = 3 && code < v.wtgt then { v with wtgt := code }
  else if v.state = 2 || v.state = 3 then (if code = v.wtgt && v.pending.isEmpty then v else { v with pending := v.pending ++ [code] })
  else v

/-- The width that the changes under way and queued lead to. -/
def Port.finalWidth (v : Port) : Nat := v.pending.getLast?.getD (if v.state = 2 || v.state = 3 then v.wtgt else v.oldWidth)

/-- A change has ended; lanes still being remapped stay out of use until they are (R365, R375); the next queued change starts. -/
def Port.changed (v : Port) (tns : Nat) : Port :=
  let w := max v.wtgt v.bound
  let v1 := { v with state := 1, width := v.besides w, wtgt := w, remaps := v.remaps.map fun (r : Nat × Nat × Nat) => (r.1, r.2.1, w) }
  match v1.pending with
  | [] => v1
  | c :: r => ({ v1 with pending := r } : Port).change (max c v1.bound) tns

/-- PORT_NARROW_DONE (R373). -/
def execPortNarrowDone (p : Nat) (s : State) : Out :=
  .next (if (s.port p).state = 2 then s.modPort p fun v => v.changed s.dev.tns else s)

/-- PORT_WAKE_DONE (R374): WAKES rises. -/
def execPortWakeDone (p : Nat) (s : State) : Out :=
  .next (if (s.port p).state = 3 then s.modPort p fun v => ({ v with wakes := v.wakes + 1 } : Port).changed s.dev.tns else s)

/-- PCFG.WREQ := a width code. -/
def Port.setWreq (v : Port) (code : Nat) : Port := { v with cfg := BitVec.ofNat 64 (v.cfg.toNat / 4 * 4 + code % 4) }

/-- PORT_AUTO_WAKE (R374); during a narrowing the wake follows it (R375). -/
def execPortAutoWake (p : Nat) (s : State) : Out :=
  let v := s.port p
  .next (if v.state ≠ 0 && v.cfg.getLsbD 4 && v.wmax < (if v.state = 2 then v.wtgt else v.width) && max v.wmax v.bound < v.finalWidth &&
      16 * bitsOf v.cfg.toNat 8 8 ≤ v.txWait.length then
      s.setPort p ((v.setWreq v.wmax).change (max v.wmax v.bound) s.dev.tns)
    else s)

/-- FAR_END_NARROW (R373): accepted only when WREQ is no wider than the requested width; WREQ stays. -/
def execFarEndNarrow (p width : Nat) (s : State) : Out :=
  let v := s.port p
  .next (if v.state ≠ 0 && width < 4 && v.finalWidth < width && width ≤ v.wreq then s.setPort p (v.change width s.dev.tns) else s)

/-- FAR_END_WAKE (R374): always accepted, up to the widest width R365 allows; WREQ takes it. -/
def execFarEndWake (p width : Nat) (s : State) : Out :=
  let v := s.port p
  let w := max width v.bound
  .next (if v.state ≠ 0 && width < 4 && w < v.finalWidth then s.setPort p ((v.setWreq w).change w s.dev.tns) else s)

/-- A write to PCFG (R372): discarded whole and counted when it breaks a rule; otherwise bring-up, the port going down,
or a change of width. -/
def State.pcfgWrite (s : State) (p : Nat) (v : DWord) : State :=
  let n := v.toNat
  let o := s.port p
  let wreq := n % 4
  let wmax := bitsOf n 2 2
  if bitsOf n 5 3 ≠ 0 || n / 2 ^ 18 ≠ 0 || (bitOf n 4 && bitsOf n 8 8 = 0) || wreq < wmax || wreq < o.bound || wmax < o.bound then
    s.count 0
  else
    let o1 := { o with cfg := v }
    if !bitOf n 17 then
      (if o.state ≠ 0 || o.bring then (s.setPort p o1).portDown p 1 else s.setPort p o1)
    else if o.state = 0 then
      (if o.bring then s.setPort p o1
       else if o.goodWl.isEmpty then
         (s.setPort p o1).post { type := 8, args := [BitVec.ofNat 64 p, 2] }
       else s.setPort p { o1 with bring := true })
    else
      let o2 := { o1 with skida := bitOf n 16 }
      s.setPort p (if wreq ≠ o.wreq then o2.change wreq s.dev.tns else o2)

/-- PORT_ENABLE (R372): a PCFG write with EN = 1 on a down port. -/
def execPortEnable (p : Nat) (v : DWord) (s : State) : Out :=
  .next (if p < 32 && v.getLsbD 17 && (s.port p).state = 0 then s.pcfgWrite p v else s)
/-- PORT_DISABLE (R372): a PCFG write with EN = 0. -/
def execPortDisable (p : Nat) (v : DWord) (s : State) : Out :=
  .next (if p < 32 && !v.getLsbD 17 then s.pcfgWrite p v else s)
/-- PORT_NARROW (R373): a PCFG write that narrows WREQ. -/
def execPortNarrow (p : Nat) (v : DWord) (s : State) : Out :=
  .next (if p < 32 && v.getLsbD 17 && (s.port p).state ≠ 0 && (s.port p).wreq < v.toNat % 4 then s.pcfgWrite p v else s)
/-- PORT_WAKE (R374): a PCFG write that widens WREQ. -/
def execPortWake (p : Nat) (v : DWord) (s : State) : Out :=
  .next (if p < 32 && v.getLsbD 17 && (s.port p).state ≠ 0 && v.toNat % 4 < (s.port p).wreq then s.pcfgWrite p v else s)

/-- A write to LMAP (R372). -/
def State.lmapWrite (s : State) (p : Nat) (v : DWord) : State :=
  let o := s.port p
  let n : Port := { o with lmap := v }
  let ls := (List.range 8).map n.lane
  if v.toNat / 2 ^ 32 ≠ 0 || o.en || ls.eraseDups ≠ ls || ls.any (fun w => 9 < w || o.failed w) then s.count 0
  else s.setPort p n

/-- A port comes up with the map it has, a lane on a failed wavelength remapped first (R365, R369). -/
def Port.up (v : Port) (lat : Nat) : Port :=
  let bad := (List.range 8).filter fun k => v.failed (v.lane k)
  let v1 := bad.foldl (fun u k => match u.spare with | some w => u.setLane k w | none => u) v
  let v2 := if (List.range 8).any fun k => v1.failed (v1.lane k) then v1.rewrite else v1
  let w := max v.wreq v2.bound
  { v2 with state := 1, width := w, wtgt := w, skida := v.cfg.getLsbD 16, bring := false, session := true,
            keygen := v.keygen + 1, tagCount := 0, txTags := 0, inGroup := 0, txSeq := 0, rxSeq := 0, rxGap := false, remaps := [],
            ptime := BitVec.ofNat 64 (lat % 4096 * 2 ^ 48) }

/-- PORT_SESSION_ESTABLISH (R369): the session keys are in place, or verification failed and the port stays down; peers
reachable again have their egress queues delivered (R346). -/
def execPortSessionEstablish (p : Nat) (ok : Bool) (lat : Nat) (s : State) : Out :=
  let v := s.port p
  .next (if !v.bring then s
    else if ok && !v.goodWl.isEmpty then (s.setPort p (v.up lat)).reconnect
    else (s.setPort p { v with bring := false }).post { type := 8, args := [BitVec.ofNat 64 p, if ok then 2 else 4] })

/-- SESSION_REKEY (R369): new keys take effect at a tag-group boundary. -/
def execSessionRekey (p : Nat) (s : State) : Out :=
  .next (if (s.port p).session then s.modPort p fun v => { v with keygen := v.keygen + 1, tagCount := 0, txTags := 0 } else s)

/-! ### Receiving (R366-R370) -/

/-- A packet from its flits' bytes, as `pktFlits` lays it out (R379). -/
def pktOf (h : List Byte) (body : List (List Byte)) : FabPkt :=
  let f (i n : Nat) : Nat := leNat ((h.drop i).take n)
  { type := f 0 1, src := f 2 2 % 4096, dst := f 4 2 % 4096, rctx := f 6 1 % 64, cls := f 7 1, seq := f 8 4,
    rid := { src := bitsOf (f 12 8) 40 16, req := bitsOf (f 12 8) 24 16, seq := f 12 8 % 2 ^ 24 },
    ronum := f 20 3, off := f 24 7 % 2 ^ 52, opnd := h.drop 32, payload := body.flatten }

/-- The complete packets at the head of a flit stream, and what is left. -/
def takePkts : Nat → List (List Byte) → List FabPkt × List (List Byte)
  | 0, l => ([], l)
  | fuel + 1, l =>
    match l with
    | [] => ([], [])
    | h :: r =>
      let n := leNat ((h.drop 1).take 1)
      if r.length < n then ([], l)
      else
        let (ps, rest) := takePkts fuel (r.drop n)
        (pktOf h (r.take n) :: ps, rest)

/-- Bytes of the data flits of a list. -/
def dataOf (l : List LinkFlit) : List (List Byte) := (l.filter fun f => f.kind = .data).map fun f => f.payload

/-- The acknowledgment of a tag flit frees the retry buffer before the flit the far end lacks (R366, R368). -/
def Port.acked (v : Port) (f : LinkFlit) : Port :=
  if f.payload.length < 18 then v
  else
    let a := leNat ((f.payload.drop 16).take 2)
    match v.txRetry.findIdx? fun x => x.seq = a with
    | some i => { v with txRetry := v.txRetry.drop i }
    | none => if a = v.txSeq then { v with txRetry := [] } else v

/-- Stores whose flits are in, in skid mode released at once (R370). -/
def Port.skid (v : Port) : Port :=
  if !v.skida then v
  else
    let fresh := (takePkts 64 (v.asm ++ dataOf v.tagHeld)).1.filter fun q => q.type = 1 && !v.early.contains q
    { v with rxq := v.rxq ++ fresh, early := v.early ++ fresh }

/-- Request a replay (R368). -/
def Port.replay (v : Port) : Port := { v with rxGap := true, prpl := satHalf v.prpl false }

/-- A flit out of order is discarded: a replay is requested, once for a gap (R368). -/
def Port.gap (v : Port) : Port := if v.rxGap then v else v.replay

/-- An uncorrectable codeword whose first flit is numbered `first` is discarded: a replay is requested, once for a gap, and again when
the flit that is lacking was in it (R367, R368). -/
def Port.lost (v : Port) (first : Nat) : Port :=
  if v.rxGap && 4 ≤ (v.rxSeq + 65536 - first % 65536) % 65536 then v else v.replay

/-- Accept flits in order; the first out of order makes the rest discarded (R368). -/
def Port.accept : List LinkFlit → Port → Port
  | [], v => v.skid
  | f :: r, v =>
    if f.seq ≠ v.rxSeq then v.skid.gap
    else
      let v1 := { v with rxSeq := (v.rxSeq + 1) % 65536, rxGap := false }
      Port.accept r (match f.kind with
        | .idle => v1
        | .data => { v1 with tagHeld := v1.tagHeld ++ [f] }
        | .tag => { (v1.acked f) with tagHeld := v1.tagHeld ++ [f] })

/-- An uncorrectable codeword (R365, R367): it is counted and its flits are lacking; the 64th within one ms that is traced to one
wavelength fails it. Which wavelength a codeword is traced to is a free value (DESIGN CHOICE, LE 5). -/
def State.badCodeword (s : State) (p first : Nat) : State :=
  let v := s.port p
  let w := (Config.freeWord s.fresh).toNat % 16
  let l := (v.uncor ++ [(w, s.dev.tns)]).filter fun b => s.dev.tns < b.2 + 1000000
  let s1 := ({ s with fresh := s.fresh + 1 } : State).setPort p (({ v with pfec := satHalf v.pfec true, uncor := l } : Port).lost first)
  if 64 ≤ (l.filter fun b => b.1 = w).length then s1.failWl p w 2 else s1

/-- CODEWORD_RECEIVE (R367, R368): up to eight symbol errors are corrected; more make the codeword uncorrectable. -/
def execCodewordReceive (p first errs : Nat) (flits : List LinkFlit) (s : State) : Out :=
  let v := s.port p
  .next (if v.state = 0 then s
    else if 8 < errs then s.badCodeword p first
    else
      let v1 := if errs = 0 then v else { v with pfec := satHalf v.pfec false }
      s.setPort p (if (flits.head?.map fun (f : LinkFlit) => f.seq) = some first then (v1.accept flits).pump else v1))

/-- TAG_GROUP_VERIFY (R370): the oldest group's tag verifies and its flits are released, or the group is discarded and
replayed; three failures of one group take the port down. -/
def execTagGroupVerify (p : Nat) (ok : Bool) (s : State) : Out :=
  let v := s.port p
  .next (match v.tagHeld.findIdx? fun (f : LinkFlit) => f.kind = .tag with
    | none => s
    | some i =>
      let grp := v.tagHeld.take (i + 1)
      if ok then
        let (ps, rest) := takePkts 64 (v.asm ++ dataOf grp)
        s.setPort p { v.countTag false with
                             tagHeld := v.tagHeld.drop (i + 1), asm := rest, tagFails := 0,
                             rxq := v.rxq ++ ps.filter fun (q : FabPkt) => !v.early.contains q,
                             early := v.early.filter fun (q : FabPkt) => !ps.contains q }
      else if 2 ≤ v.tagFails then (s.setPort p { v with prpl := satHalf v.prpl true }).portDown p 3
      else
        let v1 := { v with prpl := satHalf v.prpl true, tagHeld := [], tagFails := v.tagFails + 1, skida := false, early := [],
                           again := v.again ++ v.early.map (fun (q : FabPkt) => (q.src, q.cls, q.seq)),
                           rxSeq := (grp.head?.map fun (f : LinkFlit) => f.seq).getD v.rxSeq }
        s.setPort p v1.replay)

/-! ### Ageing and time (R376, R377) -/

/-- The ageing index of a bias current (R376). -/
def ageIndex (bias bias0 : Nat) : Nat := if bias ≤ bias0 then 0 else min 65535 (131070 * (bias - bias0) / bias0)

/-- LAGE_UPDATE (R376): the words are written; 49,152 is reported, 65,535 retires the wavelength. -/
def execLageUpdate (p w bias mpwr temp hrs : Nat) (s : State) : Out :=
  let v := s.port p
  let old := (mapGet v.lageH w 0).toNat
  let idx := ageIndex (bias % 65536) (Config.bias0 p w)
  .next (if 32 ≤ p || 10 ≤ w then s
    else
      let s1 := s.setPort p { v with
        lage := mapSet v.lage w (BitVec.ofNat 64 (bias % 65536 + mpwr % 65536 * 2 ^ 16 + hrs % 2 ^ 32 * 2 ^ 32)),
        lageH := mapSet v.lageH w (BitVec.ofNat 64 (idx + temp % 256 * 2 ^ 16 + old / 2 ^ 24 * 2 ^ 24)) }
      let s2 := if old % 65536 < 49152 && 49152 ≤ idx then
          s1.post { type := 7, args := [BitVec.ofNat 64 p, BitVec.ofNat 64 w, BitVec.ofNat 64 idx] }
        else s1
      if idx = 65535 then s2.failWl p w 3 else s2)

/-- LAGE_FLASH_STORE (R409): HRS and AIDX of every wavelength go to flash. -/
def execLageFlashStore (s : State) : Out :=
  .next { s with str := { s.str with flash := s.ports.foldl (fun m kv => (List.range 10).foldl (fun n w =>
    mapSet n (kv.1 * 16 + w) ((mapGet kv.2.lage w 0).toNat / 2 ^ 32, (mapGet kv.2.lageH w 0).toNat % 65536)) m) s.str.flash } }

/-- TIME_COUNTER_SEND (R377): a live port sends TNS. -/
def execTimeCounterSend (p : Nat) (s : State) : Out :=
  .next (if (s.port p).state = 0 then s else s.modPort p fun v => { v with lastSend := s.dev.tns })

/-- TIME_COUNTER_RECEIVE (R377): TNS advances by the forward distance, never back; no cycle is counted. -/
def execTimeCounterReceive (p t : Nat) (s : State) : Out :=
  let v := s.port p
  let lat := bitsOf v.ptime.toNat 48 12
  let f := t % 2 ^ 48
  let d := (f + lat + 2 ^ 48 - s.dev.tns % 2 ^ 48) % 2 ^ 48
  .next (if v.state = 0 then s
    else
      let s1 := s.setPort p { v with ptime := BitVec.ofNat 64 (f + lat * 2 ^ 48) }
      if 1 ≤ d && d < 2 ^ 47 then s1.modDev fun x => { x with tns := x.tns + d, skip := x.skip + d } else s1)

/-! ### The photonic registers (R415) -/

/-- A field of PHYST. -/
def physt (v : Port) (w lo n : Nat) : Nat := bitsOf (mapGet v.physt w 0).toNat lo n

/-- PHYST := its three states, the eye as it was. -/
def Port.setPhy (v : Port) (w l r e : Nat) : Port :=
  { v with physt := mapSet v.physt w (BitVec.ofNat 64 (l + r * 4 + e * 16 + (mapGet v.physt w 0).toNat / 256 * 256)) }

/-- A failed lock or training sets LAGE.FAIL and is reported each time (R415). -/
def State.phyFail (s : State) (p w reason : Nat) : State :=
  if (s.port p).failed w then s.tellWl p w reason else s.failWl p w reason

/-- A write to PHYCTL (R415): only while PCFG.EN = 0. -/
def State.phyWrite (s : State) (p w : Nat) (c : DWord) : State :=
  let v := s.port p
  let n := c.toNat
  let old := (mapGet v.phyctl w 0).toNat
  if v.en then s
  else if n / 8 ≠ 0 then s.count 0
  else
    let v0 := { v with phyctl := mapSet v.phyctl w c }
    if !bitOf n 0 then
      s.setPort p { (v0.setPhy w 0 0 0) with lageH := mapSet v0.lageH w ((mapGet v0.lageH w 0) &&& 0xFFFFFFFFFEFFFFFF) }
    else
      let lockUp := bitOf n 1 && !bitOf old 1
      let r1 := if !bitOf n 1 then 0 else if !lockUp then physt v w 2 2 else if physt v w 0 2 = 1 then 1 else 3
      let trainUp := bitOf n 2 && !bitOf old 2
      let e1 := if !trainUp then physt v w 4 2 else if r1 = 2 then 1 else 3
      let s1 := s.setPort p { v0.setPhy w (physt v w 0 2) r1 e1 with
        lockTns := if lockUp then mapSet v.lockTns w s.dev.tns else v.lockTns,
        trainTns := if trainUp then mapSet v.trainTns w s.dev.tns else v.trainTns }
      let s2 := if lockUp && r1 = 3 then s1.phyFail p w 4 else s1
      if trainUp && e1 = 3 then s2.phyFail p w 5 else s2

/-- PHY_LASER (R415): a write of LSR. -/
def execPhyLaser (p w : Nat) (on : Bool) (s : State) : Out :=
  let c := mapGet (s.port p).phyctl w 0
  .next (if 32 ≤ p || 10 ≤ w then s else s.phyWrite p w (if on then c ||| 1 else c &&& 6))
/-- PHY_LOCK (R415): a write that raises LOCK. -/
def execPhyLock (p w : Nat) (s : State) : Out :=
  let c := mapGet (s.port p).phyctl w 0
  .next (if 32 ≤ p || 10 ≤ w then s else s.phyWrite p w (c ||| 2))
/-- PHY_TRAIN (R415): a write that raises TRAIN. -/
def execPhyTrain (p w : Nat) (s : State) : Out :=
  let c := mapGet (s.port p).phyctl w 0
  .next (if 32 ≤ p || 10 ≤ w then s else s.phyWrite p w (c ||| 4))

/-- PHY_LASER_ON_DONE (R415). -/
def execPhyLaserOnDone (p w : Nat) (ok : Bool) (s : State) : Out :=
  let v := s.port p
  .next (if (mapGet v.phyctl w 0).getLsbD 0 && physt v w 0 2 = 0 then
      s.setPort p (v.setPhy w (if ok then 1 else 2) (physt v w 2 2) (physt v w 4 2))
    else s)

/-- PHY_LOCK_DONE (R415): locked, or failed 2.0 ms after the lock was started. -/
def execPhyLockDone (p w : Nat) (ok : Bool) (s : State) : Out :=
  let v := s.port p
  .next (if physt v w 2 2 ≠ 1 then s
    else
      let s0 := if ok then s else s.atLeast (mapGet v.lockTns w 0 + 2000000)
      let s1 := s0.setPort p (v.setPhy w (physt v w 0 2) (if ok then 2 else 3) (physt v w 4 2))
      if ok then s1 else s1.phyFail p w 4)

/-- PHY_TRAIN_DONE (R415): the eye is measured, or training has failed after 1.0 ms. -/
def execPhyTrainDone (p w : Nat) (ok : Bool) (eyeh eyew : Nat) (s : State) : Out :=
  let v := s.port p
  .next (if physt v w 4 2 ≠ 1 then s
    else
      let bits := physt v w 0 4 + (if ok then 2 else 3) * 16 + (if ok then eyeh % 256 * 2 ^ 8 + eyew % 256 * 2 ^ 16 else 0)
      let s0 := if ok then s else s.atLeast (mapGet v.trainTns w 0 + 1000000)
      let s1 := s0.setPort p { v with physt := mapSet v.physt w (BitVec.ofNat 64 bits) }
      if ok then s1 else s1.phyFail p w 5)

end Sys2Proof.Machine
end

