-- ==== Sys2Proof/Machine/FabricEvents.lean ====
section
/-! DEFINITION. The fabric at this device (R208, R230, R379-R381): packets delivered in order, remote accesses performed
here, responses taken, retries, and the reachability table. -/

namespace Sys2Proof.Machine

/-! ### Requests that arrive (R230, R379) -/

/-- The accesses that a read or a write asks for, as `lineReq` lays them out: number, offset, bytes, data. -/
def lineParts (size mask : Nat) (bs : List Byte) : List (Nat × Nat × Nat × List Byte) :=
  if size = 0 then
    let is := (List.range 128).filter fun i => bitOf mask i
    [(0, is.headD 0, is.length, bs.take is.length)]
  else ((List.range (128 / size)).filter fun i => bitOf mask (i * size)).map fun i => (i, i * size, size, (bs.drop (i * size)).take size)

/-- The accesses that an atomic or a reduction asks for, as `opsReq` lays them out. -/
def opParts (size n : Nat) (bs : List Byte) : List (Nat × Nat × Nat × List Byte) :=
  (List.range n).map fun i =>
    let l := bs.drop (i * (1 + size))
    (i, 4 * leNat (l.take 1), 4, (l.drop 1).take size)

/-- The kind of a request by its TYPE. -/
def kindOf (type : Nat) : RemoteKind :=
  match type with | 0 => .read | 1 => .write | 2 => .atomic | 3 => .reduction | _ => .cumulus

/-- The entries of a Cumulus packet with their indices: the 128 bits of an entry, and those of the high word of a `sta64`
(R332, R341). -/
def pktUnits : Nat → List Nat → List (Nat × Nat × Option Nat)
  | _, [] => []
  | i, [v] => [(i, v, none)]
  | i, v :: x :: r =>
    if bitOf x 36 && !bitOf v 36 then (i, v, some x) :: pktUnits (i + 2) r else (i, v, none) :: pktUnits (i + 1) (x :: r)

/-- The accesses a request packet of types 0 to 4 asks for, in order. A read whose operation is 256 or more arms a
monitor (DESIGN CHOICE, LE 20). -/
def pktReqs (p : FabPkt) : List RemoteReq :=
  let op := leNat (p.opnd.take 1)
  let rid (i : Nat) : ReqId := { p.rid with req := p.rid.req % 65536 + 65536 * i }
  let base : RemoteReq := { src := p.src, kind := kindOf p.type, rctx := p.rctx, ronum := p.ronum, off := p.off, size := 4,
                            data := [], op := op, val := 0, cmp := 0, rid := rid 0, seq := 0 }
  if p.type = 0 && op = 255 then
    [{ base with op := 256 + leNat ((p.opnd.drop 1).take 1), val := BitVec.ofNat 32 (leNat ((p.opnd.drop 2).take 4)),
                 data := (p.opnd.drop 6).take 8 }]
  else if p.type = 4 then
    (pktUnits 0 ((List.range (p.payload.length / 16)).map fun i => leNat ((p.payload.drop (16 * i)).take 16))).map fun u =>
      let v := u.2.1
      { base with rctx := bitsOf v 122 6, ronum := bitsOf v 98 24, off := 4 * bitsOf v 48 50, op := bitsOf v 32 4,
                  size := if u.2.2.isSome then 8 else 4,
                  data := match u.2.2 with | some x => leBytes 4 (v % 2 ^ 32) ++ leBytes 4 (x % 2 ^ 32) | none => [],
                  val := BitVec.ofNat 32 v, rid := rid u.1, seq := leNat (p.opnd.take 2) + u.1 }
  else
    let size := leNat ((p.opnd.drop 1).take 1)
    let mask := leNat ((p.opnd.drop 2).take 16)
    (if p.type ≤ 1 then lineParts size mask p.payload else opParts size mask p.payload).map fun q =>
      { base with off := p.off + q.2.1, size := q.2.2.1, data := q.2.2.2, val := BitVec.ofNat 32 (leNat (q.2.2.2.take 4)),
                  cmp := BitVec.ofNat 32 (leNat ((q.2.2.2.drop 4).take 4)), rid := rid q.1, seq := q.1 }

/-- Permissions a remote access needs (R220). -/
def remNeed (k : RemoteKind) : Nat := match k with | .read => 1 | .write => 2 | _ => 10
/-- Whether a remote access writes. -/
def remWr (k : RemoteKind) : Bool := match k with | .read => false | _ => true

/-- Translate a remote access at the destination (R230): OBJ with WHY 9 for a context that is not resident, a number
beyond the table or a record of kind remote. -/
def State.remoteXl (s : State) (r : RemoteReq) : XR :=
  let x := s.pdXl r.rctx
  if !(s.ctx r.rctx).en then .fault 5 9 0
  else if 2 ^ (s.ctx r.rctx).ortlog ≤ r.ronum then .fault 5 9 r.ronum
  else match s.recLook x r.ronum with
    | .bad w o => .fault 5 w o
    | .ok o rc =>
      if rc.kind = 2 then .fault 5 9 o
      else s.xlateIn x o rc (remNeed r.kind) (remWr r.kind) false (rc.base + r.off) r.size

/-- Whether the word of a remote monitor lies out of shape here, and its object and sub-tile (R218, R321). -/
def State.remoteVia (s : State) (r : RemoteReq) : Bool × Nat × Nat :=
  match s.recLook (s.pdXl r.rctx) r.ronum with
  | .ok o rc => rc.wordVia o r.off
  | .bad .. => (false, 0, 0)

/-- What performing a remote access answers. -/
inductive RemRes where
  | done (s : State) (data : List Byte)
  /-- A monitor was armed: the answer comes with its status. -/
  | armed (s : State)
  | fault (cause why obj : Nat)
  | wait (s : State)

/-- Perform a translated remote access that writes, once (R318): answered from the replay filter when it was applied
before. -/
def State.remoteWrite (s : State) (r : RemoteReq) (ps : List Place) : RemRes :=
  match ps.head? with
  | some (.da d) =>
    match s.filterGet (s.sliceOf d) r.rid with
    | some w => .done s (if r.kind = .atomic then leBytes 4 w.toNat else [])
    | none =>
      if !s.filterRoom (s.sliceOf d) then .wait s
      else match r.kind with
        | .write => .done ((s.spanWrite ps r.data).filterAdd d r.rid 0) []
        | .atomic =>
          let (w, t) := s.homeAtomic r.rid d r.op r.val r.cmp
          .done t (leBytes 4 w.toNat)
        | .reduction => .done (s.homeAtomic r.rid d (atomOfRed r.op) r.val 0).2 []
        | _ =>
          let w : Word := BitVec.ofNat 32 (s.rdNat d 4)
          let v : Word := if r.op = 13 then r.val else redOp r.op w r.val
          .done ((s.homeWrite none d (if r.size = 8 then r.data else leBytes 4 v.toNat)).filterAdd d r.rid 0) []
  | _ => .done s (if r.kind = .atomic then leBytes 4 0 else [])

/-- Perform a remote access at this device (R230): a fault, a wait for a service (SRC 6) or a busy line, or its data. -/
def State.remoteDo (s : State) (r : RemoteReq) : RemRes :=
  match s.remoteXl r with
  | .fault c w o => .fault c w o
  | .miss ob sub va => .wait (s.parkOn (.remote r) r.rctx ob sub 6 (remWr r.kind) r.src va)
  | .hold .. => .wait s
  | .ok ps =>
    let free := ps.all fun p => match p with | .da d => if remWr r.kind then s.writeRoom (d / 128) else s.lineFree (d / 128) | _ => true
    if !free then .wait s
    else
      let s1 := match ps.head? with | some (.da _) => s.energy r.rctx 110000 | _ => s
      if r.kind = .write && r.op = 1 then .done s []
      else if (remWr r.kind) then s1.remoteWrite r ps
      else if 256 ≤ r.op then
        match ps.head? with
        | some (.da d) =>
          let (out, via) := s.remoteVia r
          if out then .done s1 (leBytes 8 3) else .armed (s1.armAt (remoteMon r.rid) r.rctx d via (r.op - 256) r.val (leNat r.data))
        | _ => .done s1 (leBytes 8 3)
      else .done s1 (s1.spanRead ps)

/-- The response of an access, or of the last one of its request (R230, R379). -/
def State.remoteAnswer (s : State) (r : RemoteReq) (cause why obj : Nat) (last : Bool) (data : List Byte) : State :=
  if r.kind = .cumulus && cause = 0 && !last then s
  else s.fabSend (some r.rctx)
    { type := 5, src := s.fab.dev, dst := r.src, rctx := r.rctx, cls := 1, seq := 0,
      rid := { r.rid with req := r.rid.req % 65536 }, ronum := r.ronum, off := r.off,
      opnd := leBytes 2 r.seq ++ [if last then 1 else 0], payload := leBytes 1 cause ++ leBytes 1 why ++ leBytes 3 obj ++ data }

/-- Whether two accesses came in one request. -/
def sameReq (a b : RemoteReq) : Bool :=
  a.rid.src = b.rid.src && a.rid.req % 65536 = b.rid.req % 65536 && a.rid.seq = b.rid.seq

/-- Whether an access must come after an earlier one that is held: Cumulus entries of one source device in their order (R340),
and the parts of one request that name a common byte in theirs, which is that of the lanes (R188, R208, R316). -/
def heldBehind (q r : RemoteReq) : Bool :=
  (r.kind = .cumulus && q.kind = .cumulus && q.rid.src = r.rid.src) ||
    (r.kind ≠ .cumulus && sameReq q r && q.off < r.off + r.size && r.off < q.off + q.size)

/-- Process one remote access: performed and answered, or held here. -/
def State.remoteStep (s : State) (r : RemoteReq) : State :=
  let before := s.remHeld.takeWhile fun q => q ≠ r
  let rest := s.remHeld.erase r
  let keep (t : State) : State := if t.remHeld.contains r then t else { t with remHeld := t.remHeld ++ [r] }
  if before.any fun q => heldBehind q r then keep s
  else if s.waits (.remote r) then s
  else
    let last := r.kind ≠ .cumulus || !(rest.any fun q => sameReq q r)
    match s.remoteDo r with
    | .wait t => keep t
    | .armed t => { t with remHeld := rest }
    | .fault c w o => ({ s with remHeld := rest } : State).remoteAnswer r c w o last []
    | .done t data => ({ t with remHeld := rest } : State).remoteAnswer r 0 0 0 last data

/-- REMOTE_ACCESS_ARRIVE (R230). -/
def execRemoteAccessArrive (r : RemoteReq) (s : State) : Out := .next (s.remoteStep r)

/-! ### Responses (R191, R208, R254, R321) -/

/-- What a response says of one access. -/
structure Resp where
  idx : Nat
  last : Bool
  cause : Nat
  why : Nat
  obj : Nat
  data : List Byte
deriving DecidableEq, Repr

/-- Read a response packet. -/
def respOf (p : FabPkt) : Resp :=
  let f (i n : Nat) : Nat := leNat ((p.payload.drop i).take n)
  { idx := leNat (p.opnd.take 2), last := leNat ((p.opnd.drop 2).take 1) = 1, cause := f 0 1, why := f 1 1, obj := f 2 3,
    data := p.payload.drop 5 }

/-- Give the lanes of access `idx` of the request `n` its response: of a load or a store the lanes that name its bytes, else the
request's lanes in order. -/
def giveLane (n : Nat) (r : Resp) (o : Op) : List LaneAcc :=
  let mine := o.accs.filter fun a => a.rid ≠ 0 && a.rid % 2 ^ 24 = n
  let gets (a : LaneAcc) : Bool := if reqType o.kind ≤ 1 then a.lineSlot = r.idx else mine[r.idx]? = some a
  o.accs.map fun a => if mine.contains a && gets a then
    { a with resp := some r.data, bad := if r.cause = 0 then none else some (r.cause, r.why, r.obj) } else a

/-- The outstanding operation that a response belongs to. -/
def State.opOfResp (s : State) (n : Nat) : Option (Nat × Op) :=
  s.groups.findSome? fun kv =>
    (kv.2.ops.find? fun o => o.accs.any fun a => a.rid ≠ 0 && a.rid % 2 ^ 24 = n).map fun o => (kv.1, o)

/-- The group whose remote `mwait` a response belongs to. -/
def State.monOfResp (s : State) (n : Nat) : Option (Nat × Group) :=
  s.groups.find? fun kv => kv.2.park = 3 && 7 ≤ kv.2.parkArg.length && (regGet kv.2.parkArg 6).toNat % 2 ^ 24 = n

/-- A response reaches a group (R208, R320, R384). -/
def State.respGroup (s : State) (n : Nat) (r : Resp) : State :=
  match s.opOfResp n with
  | some (k, o) =>
    (match o.kind with
     | .sendh => (match o.accs.find? fun a => a.rid % 2 ^ 24 = n with
       | some a => s.sentLane k o.id a.lane
       | none => s)
     | _ => s.modGrp k fun g => g.modOp o.id fun p => { p with accs := giveLane n r p })
  | none =>
    match s.monOfResp n with
    | some (k, g) =>
      if r.cause = 0 then s.monStatus k (leNat r.data)
      else
        s.recordFault k { g with park := 0, parkArg := [] }
          { id := s.nextId, targets := [],
            trap := { cause := r.cause, deferred := true, a := regGet g.parkArg 5, pc := g.pc - 8,
                      i := if r.cause = 4 then 0 else BitVec.ofNat 64 (128 + r.why * 512 + r.obj * 65536) } }
    | none => s

/-- A slice of a copy whose read or write a response answers: workgroup, copy, slice, whether it was a read, and the VA it
was made for. -/
def State.sliceOfResp (s : State) (n : Nat) : Option (Nat × Nat × Nat × Bool × Nat) :=
  s.wgs.findSome? fun kv => kv.2.copies.findSome? fun c => c.slices.zipIdx.findSome? fun p =>
    if p.1.rwait.any fun x => x % 2 ^ 24 = n then some (kv.1, c.num, p.2, true, p.1.rva)
    else (p.1.racks.find? fun x => x.1 % 2 ^ 24 = n).map fun x => (kv.1, c.num, p.2, false, x.2)

/-- A response reaches a copy (R15, R254). -/
def State.respCopy (s : State) (n : Nat) (r : Resp) : State :=
  match s.sliceOfResp n with
  | none => s
  | some (wk, c, i, rd, va) =>
    let s1 := s.modSlice wk c i fun l =>
      if rd then { l with rdata := if r.cause = 0 then some r.data else none, rwait := if r.cause = 0 then l.rwait else none }
      else { l with racks := l.racks.filter fun x => x.1 % 2 ^ 24 ≠ n }
    if r.cause = 0 then s1
    else match (s1.wg? wk).bind fun w => w.slice? c i with
      | none => s1
      | some l =>
        if l.done then s1
        else s1.sliceFault wk c i l r.cause (BitVec.ofNat 64 va)
          (if r.cause = 4 then 0 else BitVec.ofNat 64 (128 + (if rd then 0 else 64) + r.why * 512 + r.obj * 65536))

/-- WHY of a fault log record from the cause a peer reported (R343): OBJ, PERM, OOS, RESF are 1 to 4; an access that crosses a run
(ALN of R217) has no WHY of its own there and is logged as OOS (DESIGN CHOICE, LE 21). -/
def rejWhy (cause : Nat) : Nat := if cause ≤ 4 then 3 else cause - 4

/-- A response packet is taken by the party that asked. -/
def State.respond (s : State) (p : FabPkt) : State :=
  let r := respOf p
  let n := p.rid.seq % 2 ^ 24
  if pdReq ≤ p.rid.req then s.respIo n r.cause r.why r.obj r.data
  else if 2 ^ 15 + 64 ≤ p.rid.req then s.cuAnswered n r.last (if r.cause = 0 then [] else [(r.idx, rejWhy r.cause, r.why)])
  else if 2 ^ 15 ≤ p.rid.req then s.respCopy n r
  else s.respGroup n r

/-! ### Delivery in order (R380) -/

/-- The packet of a SEQ is acknowledged end to end: it is released, a response with its request's filter entries (R318),
and the next ones may go. -/
def State.fabAcked (s : State) (dev cls seq : Nat) : State :=
  let k := fabKey dev cls
  let l := mapGet s.fab.unacked k []
  match l.find? fun x => x.pkt.seq = seq with
  | none => s
  | some x =>
    let s1 : State := { s with fab := { s.fab with out := [], unacked := mapSet s.fab.unacked k (l.filter fun y => y.pkt.seq ≠ seq) } }
    let mine (r : ReqId) : Bool := r.src = x.pkt.rid.src && r.req % 65536 = x.pkt.rid.req && r.seq = x.pkt.rid.seq
    let s2 := if x.pkt.type = 5 then
        s1.modHome fun h => { h with filter :=
          (h.filter.map fun kv => (kv.1, kv.2.filter fun e => !mine e.rid)).filter fun kv => !kv.2.isEmpty }
      else s1
    s2.fabDrain s.fab.out

/-- Acknowledge a delivered packet; one of this device's own needs no packet for it. -/
def State.ackPkt (s : State) (p : FabPkt) : State := if p.src = s.fab.dev then s.fabAcked p.src p.cls p.seq else s.fabAck p

/-- The effect of a packet at its destination (R379). Collective packets bring blocks that COLL_COMPLETE names. -/
def State.pktEffect (s : State) (p : FabPkt) : State :=
  match p.type with
  | 5 => s.respond p
  | 6 =>
    let ws := (List.range 8).map fun i => BitVec.ofNat 32 (leNat ((p.payload.drop (4 * i)).take 4))
    let m : Msg := { src := p.src, dst := p.dst, ctx := p.rctx, rq := bitsOf (regGet ws 0).toNat 12 4, words := ws }
    { s with fab := { s.fab with inbox := s.fab.inbox ++ [{ msg := m, rid := some p.rid }] } }
  | 7 => s
  | _ => { s with remHeld := s.remHeld ++ pktReqs p }

/-- The replay of a store that was released early is performed once more, as a new write: no replay filter entry stops it (R370). -/
def replayOf (p : FabPkt) : FabPkt := { p with rid := { p.rid with src := p.rid.src + 2 ^ 16 } }

/-- Deliver the packet that is next in its (SRC, CLS), and those held behind it (R380); the replay of a store that was held when it was
released early follows it (R370). -/
def State.deliverFrom : Nat → State → FabPkt → State
  | 0, s, _ => s
  | fuel + 1, s, p =>
    let k := fabKey p.src p.cls
    let n := (p.seq + 1) % 2 ^ 32
    let held := mapGet s.fab.reorder k []
    let twice := held.filter fun q => q.seq = p.seq
    let left := held.filter fun q => q.seq ≠ n && q.seq ≠ p.seq
    let s1 : State := { s with fab := { s.fab with rxSeq := mapSet s.fab.rxSeq k n, reorder := mapSet s.fab.reorder k left } }
    let s2 := twice.foldl (fun t q => (t.pktEffect (replayOf q)).ackPkt q) ((s1.pktEffect p).ackPkt p)
    match held.filter fun q => q.seq = n with
    | q :: more =>
      State.deliverFrom fuel { s2 with fab := { s2.fab with reorder := mapSet s2.fab.reorder k (mapGet s2.fab.reorder k [] ++ more) } } q
    | [] => s2

/-- A packet arrives (R370, R379, R380): an unknown TYPE is discarded and counted; an acknowledgment releases its packet;
the others are delivered in SEQ order, duplicates discarded and acknowledged again, but for a store released early from a
tag group that failed, which is performed once more. -/
def State.pktArrive (s : State) (port : Nat) (p : FabPkt) : State :=
  let k := fabKey p.src p.cls
  let exp := mapGet s.fab.rxSeq k 0
  let ahead := (p.seq + 2 ^ 32 - exp) % 2 ^ 32
  if p.dst ≠ s.fab.dev then s
  else if 9 ≤ p.type then s.count 5
  else if p.type = 8 then s.fabAcked p.src p.cls p.seq
  else if ahead = 0 then State.deliverFrom 4097 s p
  else if ahead < 4096 then
    let held := mapGet s.fab.reorder k []
    let v := s.port port
    let key := (p.src, p.cls, p.seq)
    if (held.any fun q => q.seq = p.seq) && !(p.type = 1 && v.again.contains key) then s
    else
      let s := if v.again.contains key then s.setPort port { v with again := v.again.erase key } else s
      { s with fab := { s.fab with reorder := mapSet s.fab.reorder k (held ++ [p]) } }
  else
    let v := s.port port
    let key := (p.src, p.cls, p.seq)
    if p.type = 1 && v.again.contains key then
      ((s.setPort port { v with again := v.again.erase key }).pktEffect (replayOf p)).ackPkt p
    else s.ackPkt p

/-- FABRIC_PACKET_RECEIVE (R380): a packet of a running port; a packet that this device sends itself comes as from port
32 (DESIGN CHOICE, LE 20). -/
def execFabricPacketReceive (p : Nat) (pkt : FabPkt) (s : State) : Out :=
  let v := s.port p
  .next (if p = 32 && pkt.src = s.fab.dev then s.pktArrive p pkt
    else if 32 ≤ p || v.state = 0 then s
    else (s.setPort p { v with rxq := v.rxq.erase pkt }).pktArrive p pkt)

/-- FABRIC_RETRY_TIMEOUT (R380): after 20 µs without an acknowledgment the packet goes out again on another rail, with
the same SEQ. -/
def execFabricRetryTimeout (dst cls seq : Nat) (s : State) : Out :=
  let k := fabKey dst cls
  let l := mapGet s.fab.unacked k []
  .next (match l.find? fun x => x.pkt.seq = seq with
    | none => s
    | some x =>
      let s1 := s.atLeast (x.tns + 20000)
      let (r, s2) := (s1.flitEnergy x.ctx x.pkt).putOnRail x.pkt x.rail
      { s2 with fab := { s2.fab with unacked := mapSet s2.fab.unacked k (l.map fun (y : TxPkt) =>
          if y.pkt.seq = seq then { y with rail := r, tns := s1.dev.tns } else y) } })

/-! ### Reachability (R381) -/

/-- FRGEN_WRITE (R381): a reread starts; a reserved bit set discards the write. -/
def execFrgenWrite (v : DWord) (s : State) : Out :=
  .next (if v.toNat / 2 ^ 32 ≠ 0 then s.count 0 else { s with fab := { s.fab with rereading := true } })

/-- REACHABILITY_REREAD_DONE (R381); peers found reachable again have their egress queues delivered (R346). -/
def execReachabilityRereadDone (s : State) : Out :=
  let base := s.fab.frmb.toNat % 2 ^ 48
  .next (if !s.fab.rereading then s
    else ({ s with fab := { s.fab with rereading := false, frgen := s.fab.frgen + 1, reachAll := base = 0,
                                       reach := if base = 0 then [] else s.spanMem base 16384 } } : State).reconnect)

end Sys2Proof.Machine
end

