-- ==== Sys2Proof/Machine/Services.lean ====
section
/-! DEFINITION. Residency services, walks and publishes (R223-R231): service records, OSVC, the accesses that wait on a
service, window accesses of hosts as far as translation goes, and OPUB0. -/

namespace Sys2Proof.Machine

/-! ### Walks (R223) -/

/-- WALK_COMPLETE (R223): the walker has read the directory, the record and the entry, and the caches hold them; an
absent entry is not held, so that an access translated again after OSVC reads the new one (R227, DEDUCED, LE 9). -/
def execWalkComplete (u n va : Nat) (s : State) : Out :=
  let x : Xl := { u := u, ctx := n, sys := true }
  .next (if !(s.trc u).walks.contains (n, va) then s
    else
      let s0 := s.modTr u fun t => { t with walks := t.walks.erase (n, va), uses := t.uses + 1 }
      let e1 := s.dir1 x va
      let e2 := s.dir2 x va e1
      let d := s.walkDie u
      let g1 := capSet (capSet (mapGet s.gdir d []) 4096 (dirKey1 n va) (BitVec.ofNat 64 e1)) 4096 (dirKey2 n va) (BitVec.ofNat 64 e2)
      match s.look x va with
      | .bad .. => s0
      | .ok obj r =>
        let o := va - r.base
        let s1 : State := { s0 with gdir := mapSet s.gdir d g1 }
        let s2 := s1.modTr u fun t => { t with
          recs := lruSet RecLine.used t.recs 256 (recKey n obj) { words := s.recWords x obj, used := t.uses } }
        if r.kind = 2 || r.sz ≤ o then s2
        else
          let sub := r.byteOff o / 2 ^ r.stlog
          let ent := s.entry x obj r sub
          if bitOf ent 0 then s2.modTr u fun t => { t with
            ents := lruSet EntLine.used t.ents 2048 (entKey n obj sub) { word := BitVec.ofNat 64 ent, used := t.uses } }
          else s2)

/-! ### Service records (R226) -/

/-- SQLOG. -/
def Ctx.sqlog (c : Ctx) : Nat := bitsOf c.otsq.toNat 48 4

/-- The 32 bytes of a service record. -/
def Service.bytes (v : Service) (n seq tns : Nat) : List Byte :=
  leBytes 8 (seq % 2 ^ 32 + n * 2 ^ 32 + v.src * 2 ^ 38 + (if v.wr then 2 ^ 41 else 0) + v.unit % 4096 * 2 ^ 42) ++
    leBytes 8 (v.obj + v.sub % 2 ^ 32 * 2 ^ 32) ++ leBytes 8 (v.va % 2 ^ 52) ++ leBytes 8 tns

/-- SERVICE_RECORD_POST (R226): the oldest service not yet posted is, once the queue has room; its owner is told. A
queue that is not configured has no room (DESIGN CHOICE, LE 21). -/
def execServiceRecordPost (n : Nat) (s : State) : Out :=
  let c := s.ctx n
  .next (match c.services.find? fun v => !v.posted with
    | none => s
    | some v =>
      if c.sqlog < 4 || 2 ^ c.sqlog ≤ (c.sqTail - c.sqHead).toNat then s
      else
        let a := c.otsq.toNat % 2 ^ 48 + 32 * (c.sqTail.toNat % 2 ^ c.sqlog)
        let s1 := (s.homeWrite none a (v.bytes n c.sqTail.toNat s.dev.tns)).modCtx n fun c =>
          { c with sqTail := c.sqTail + 1,
                   services := c.services.map fun w => if w.obj = v.obj && w.sub = v.sub then { w with posted := true } else w }
        s1.post { type := 3, ctx := n, args := [(c.sqTail + 1).setWidth 64] })

/-! ### Window accesses of hosts (R14, R231, R405) -/

/-- The translator of function f's window. -/
def State.winXl (s : State) (f : Nat) : Xl :=
  let n := bitsOf (s.host f).hwin.toNat 1 6
  { u := if f < 2 then 304 else 305, ctx := n, sys := s.sysCtx n }

/-- VA of a window offset. -/
def HostFn.winVa (h : HostFn) (off : Nat) : Nat := bitsOf h.hwin.toNat 21 31 * 2 ^ 21 + off

/-- What a window access answers: the completion (none for an abort), or a wait. -/
inductive Win where
  | done (s : State) (c : Option (List Byte))
  | wait (s : State)

/-- A window access that faults: a completer abort, counted by Stratus (R14, R231; its counter, DESIGN CHOICE, LE 48). -/
def State.winFault (s : State) (p : Party) : Win :=
  .done { s.release p with str := { s.str with winFaults := s.str.winFaults + 1 } } none

/-- Try a window access, one generic access whose bytes need lie in no one run (R14, R217, R231): local bytes at once, those of a
remote object by requests (R15, R230). -/
def State.winTry (s : State) (f : Nat) (data : Option (List Byte)) (off len : Nat) : Win :=
  let h := s.host f
  let x := s.winXl f
  let wr := data.isSome
  let p : Party := .win f data off len
  if s.waits p then .wait s
  else if !h.hwin.getLsbD 0 || !(s.ctx x.ctx).en || 2 ^ 36 < off + len then .done (s.release p) none
  else match s.xlate x (if wr then 18 else 17) wr false (h.winVa off) len false with
    | .fault .. => s.winFault p
    | .miss ob sub va => .wait (s.parkOn p x.ctx ob sub 5 wr (if f < 2 then 48 else 49) va)
    | .hold .. => .wait s
    | .ok ps =>
      match data with
      | some bs =>
        (match s.spanOut p x.ctx ps bs with
         | .ok _ => .done (((s.spanWrite ps bs).spanEnergy x.ctx ps).release p) (some [])
         | .bad .. => s.winFault p
         | .wait t => .wait t)
      | none =>
        (match s.spanIn p x.ctx ps with
         | .ok bs => .done ((s.spanEnergy x.ctx ps).release p) (some bs)
         | .bad .. => s.winFault p
         | .wait t => .wait t)

/-- A completion goes back to the host; a write has none but for an abort. -/
def State.complete (s : State) (f : Nat) (wr : Bool) (c : Option (List Byte)) : State :=
  if wr && c.isSome then s else s.setHost f { s.host f with completions := (s.host f).completions ++ [c] }

/-- Whether an entry held for a function writes; offsets from 2^40 are register writes that wait behind a window write
(R398). -/
def heldWrites (l : List (Option (List Byte) × Nat × Nat)) : Bool := l.any fun e => e.1.isSome

/-- The held window accesses of a function are tried again in order; a write that waits holds back the later writes. -/
def State.winRetry (f : Nat) : List (Option (List Byte) × Nat × Nat) → State → State
  | [], s => s
  | e :: r, s =>
    let keep (t : State) : State := t.setHost f { t.host f with heldWin := (t.host f).heldWin ++ [e] }
    if 2 ^ 40 ≤ e.2.1 || (e.1.isSome && heldWrites (s.host f).heldWin) then State.winRetry f r (keep s)
    else match s.winTry f e.1 e.2.1 e.2.2 with
      | .done t c => State.winRetry f r (t.complete f e.1.isSome c)
      | .wait t => State.winRetry f r (keep t)

/-- Every function's held window accesses are tried again. -/
def State.winAgain (s : State) : State :=
  [0, 1, 2, 3].foldl (fun t f =>
    let l := (t.host f).heldWin
    if l.isEmpty then t else State.winRetry f l (t.setHost f { t.host f with heldWin := [] })) s

/-! ### The end of a service (R227) -/

/-- Whether an operation waits on a service. -/
def Op.waitsOn (o : Op) (obj sub : Nat) : Bool :=
  match o.wait with
  | .parked ob sb _ _ => ob = obj && sb = sub
  | .held ob sb _ => ob = obj && sb = sub
  | .flight => false

/-- The operations of a context that wait on a service learn how it ended: 1 to translate again, 2 failed. -/
def State.wakeOps (s : State) (n obj sub code : Nat) : State :=
  { s with groups := mapAll s.groups fun _ g =>
      if g.ctx = n then { g with ops := g.ops.map fun o => if o.waitsOn obj sub then { o with again := code } else o } else g }

/-- Fetches and spill engines that wait on a service try again. -/
def State.wakeFetch (s : State) (n obj sub : Nat) : State :=
  { s with groups := mapAll s.groups fun _ g =>
      if g.ctx = n then
        { g with iparked := if g.iparked = some (obj, sub) then none else g.iparked,
                 spc := { g.spc with park := if g.spc.park = some (obj, sub) then none else g.spc.park } }
      else g }

/-- A service is over. -/
def State.dropService (s : State) (n obj sub : Nat) : State :=
  s.modCtx n fun c => { c with services := c.services.filter fun v => !(v.obj = obj && v.sub = sub) }

/-- Whether OSVC may end a service (R227). -/
def State.serviceOpen (s : State) (n obj sub : Nat) : Bool :=
  let c := s.ctx n
  c.en && !(match c.stop with | .die .. => true | _ => false) && !c.moving.contains (obj, sub) &&
    c.services.any fun v => v.obj = obj && v.sub = sub

/-- The parties that wait on a service wait no longer. -/
def State.wakeParties (s : State) (n obj sub : Nat) : State :=
  { s with svcWaits := s.svcWaits.filter fun w => !(w.ctx = n && w.obj = obj && w.sub = sub) }

/-- OSVC with FAIL = 0 (R227): the accesses that wait are translated again. Copies, collectives, remote accesses, deliveries
and launch records, no longer waiting, try again of themselves. -/
def State.osvcDone (s : State) (n obj sub : Nat) : State :=
  if !s.serviceOpen n obj sub then s.count 2
  else (((((s.dropService n obj sub).wakeParties n obj sub).wakeOps n obj sub 1).wakeFetch n obj sub).winAgain)

/-- OSVC_SERVICE_DONE (R227). -/
def execOsvcServiceDone (n obj sub : Nat) (s : State) : Out := .next (s.osvcDone n obj sub)

/-- The state of a `next` outcome. -/
def stateOf (s : State) : Out → State
  | .next t => t
  | _ => s

/-- TRAPI of a failed service: RESF with WHY 1. -/
def failI (wr : Bool) (obj : Nat) : Nat := (if wr then 64 else 0) + 512 + obj * 65536

/-- A party that waits on a service that failed faults RESF with WHY 1 (R227): a slice and a collective by a deferred trap, a
remote access by its answer, a window access by an abort (R231); a message is discarded (R384), and a launch record cannot be
read (R60, R78). -/
def State.failParty (s : State) (w : SvcWait) : State :=
  match w.who with
  | .slice wk c i =>
    (match (s.wg? wk).bind fun v => v.slice? c i with
     | some l => s.sliceFault wk c i l 8 (BitVec.ofNat 64 w.va) (BitVec.ofNat 64 (failI w.wr w.obj))
     | none => s)
  | .remote r =>
    if !s.remHeld.contains r then s
    else
      let rest := s.remHeld.erase r
      ({ s with remHeld := rest } : State).remoteAnswer r 8 1 w.obj (r.kind ≠ .cumulus || !(rest.any fun q => sameReq q r)) []
  | .win f data off len =>
    if !(s.host f).heldWin.contains (data, off, len) then s
    else
      match (s.setHost f { s.host f with heldWin := (s.host f).heldWin.erase (data, off, len) }).winFault w.who with
      | .done t c => t.complete f data.isSome c
      | .wait t => t
  | .coll n c =>
    (match s.coll? n c with
     | some x => ((s.release w.who).collFault x 8 (BitVec.ofNat 64 w.va) (BitVec.ofNat 64 (failI w.wr w.obj))).endColl n c
     | none => s)
  | .queue q =>
    let v := s.queue q
    ((s.release w.who).setQueue q { v with head := v.head + 1 }).haltQueue q 8 (some v.head)
  | .op id =>
    (match s.groups.findSome? fun kv => (kv.2.op? id).map fun o => (kv.1, o) with
     | some (k, o) => (s.release w.who).giveCode k o 8
     | none => s)
  | .msg e => ((s.release w.who).msgLost e.msg.ctx).msgDone e

/-- Every party that waits on a service that failed. -/
def State.failParties (s : State) (n obj sub : Nat) : State :=
  let ws := s.svcWaits.filter fun w => w.ctx = n && w.obj = obj && w.sub = sub
  ws.foldl State.failParty (s.wakeParties n obj sub)

/-- Groups whose fetch or spill engine waits on a failed service trap RESF, with the VA of the unit's word that lies there (R222),
or SPF; those not resident ask again. -/
def State.failGroups (s : State) (n obj sub : Nat) : State :=
  (mapKeys s.groups fun _ g => g.ctx = n).foldl (fun t k => match t.grp? k with
    | none => t
    | some g =>
      let hitF := g.iparked = some (obj, sub)
      let hitS := g.spc.park = some (obj, sub)
      if !(hitF || hitS) then t
      else if !t.residentGrp g then
        t.setGrp k { g with iparked := if hitF then none else g.iparked, spc := { g.spc with park := if hitS then none else g.spc.park } }
      else if hitF then
        let va := match fetchUnit (t.fetchAs { t.xl g with failed := some (obj, sub) } g) g.pc with | .fault _ va _ => va | _ => g.pc
        t.takeTrap k { g with iparked := none }
          { cause := 8, a := va, pc := g.pc, i := BitVec.ofNat 64 (256 + 512 + obj * 65536), resume := g.pc }
      else
        let g1 : Group := { g with spc := { g.spc with park := none } }
        t.takeTrap k g1 { cause := 0x0E, a := BitVec.ofNat 64 (t.privBase g + (spillSpan g.spb g.spc.stk g.spc.pos).1), pc := g.upc,
                          i := g1.spc.bits, resume := g.pc }) s

/-- OSVC with FAIL = 1 (R227): each waiting access faults RESF with WHY 1. -/
def State.osvcFail (s : State) (n obj sub : Nat) : State :=
  if !s.serviceOpen n obj sub then s.count 2
  else ((((s.dropService n obj sub).wakeOps n obj sub 2).failGroups n obj sub).failParties n obj sub).winAgain

/-- OSVC_SERVICE_FAIL (R227). -/
def execOsvcServiceFail (n obj sub : Nat) (s : State) : Out := .next (s.osvcFail n obj sub)

/-- A write to OSVC (R227). -/
def State.osvcWrite (s : State) (v : DWord) : State :=
  let n := v.toNat
  if bitOf n 31 then s.count 0
  else
    let s1 := s.modDev fun d => { d with osvc := v }
    if bitOf n 30 then s1.osvcFail (bitsOf n 24 6) (n % 2 ^ 24) (n / 2 ^ 32)
    else s1.osvcDone (bitsOf n 24 6) (n % 2 ^ 24) (n / 2 ^ 32)

/-! ### Publishing (R224, R225, R229) -/

/-- Change the translation caches of every core and port die. -/
def State.allTr (s : State) (f : TrCache → TrCache) : State :=
  { s with cores := mapAll s.cores fun _ c => { c with tr := f c.tr }, ptr := mapAll s.ptr fun _ t => f t }

/-- Step 1 of R225: every cached copy of the words a publish covers is gone; RECORD takes the instruction caches too. -/
def State.shoot (s : State) (p : Publish) : State :=
  match p.op with
  | 0 =>
    let s1 := s.allTr fun t =>
      { t with recs := mapDel t.recs (recKey p.ctx p.obj), ents := t.ents.filter fun e => e.1 / 2 ^ 32 ≠ recKey p.ctx p.obj }
    { s1 with cores := mapAll s1.cores fun _ c =>
        { c with icache := c.icache.filter fun e => e.1 / 2 ^ 52 ≠ recKey p.ctx p.obj } }
  | 4 => { s with gdir := mapAll s.gdir fun _ m => m.filter fun e =>
      let g := e.1 % 2 ^ 32
      let hit := if e.1 < 2 ^ 60 then decide (p.first / 2 ^ 15 ≤ g) && decide (g ≤ (p.first + p.count - 1) / 2 ^ 15)
        else decide (p.first ≤ g) && decide (g < p.first + p.count)
      !(e.1 % 2 ^ 60 / 2 ^ 32 = p.ctx && hit) }
  | _ => s.allTr fun t => { t with ents := t.ents.filter fun e =>
      !(e.1 / 2 ^ 32 = recKey p.ctx p.obj && decide (p.first ≤ e.1 % 2 ^ 32) && decide (e.1 % 2 ^ 32 < p.first + p.count)) }

/-- The record in memory, and an entry in memory. -/
def State.entryMem (s : State) (ctx obj sub : Nat) : Nat := s.rdNat ((recOf (s.recMem ctx obj)).ftp + 8 * sub) 8

/-- The code of a publish (R224): 0 passes; of several that apply the lowest. An object beyond the table has no record and no
entry for codes 2 to 6 to apply to. -/
def State.pubCode (s : State) (p : Publish) : Nat :=
  let c := s.ctx p.ctx
  let known := p.obj < 2 ^ c.ortlog
  let e := if known then s.entryMem p.ctx p.obj p.first else 0
  let rc := if p.op = 0 && known then (recOf (s.recMem p.ctx p.obj)).check s.dev.memOpen else 0
  if 5 ≤ p.op then 1
  else if rc ≠ 0 then rc
  else if known && p.op = 1 && (!(bitOf e 0 && bitOf e 1 && !bitOf e 2) || c.moving.contains (p.obj, p.first)) then 5
  else if known && p.op = 2 && (!c.moving.contains (p.obj, p.first) || bitOf e 1) then 6
  else if !c.en then 7
  else if p.op ≤ 3 && 2 ^ c.ortlog ≤ p.obj then 8
  else 0

/-- Step 3 of R225: every Cumulus buffer that holds an entry of the context leaves. -/
def State.flushCtx (s : State) (n : Nat) : State :=
  s.dies.foldl (fun t kv => (mapKeys kv.2.bufs fun _ b => b.ents.any fun e => e.ctx = n).foldl (fun u b => u.cuLeave kv.1 b) t) s

/-- The object and sub-tile of a VA, by the record in memory. -/
def State.spotOf (s : State) (n : Nat) (va : Nat) : Option (Nat × Nat) :=
  match s.look { u := 0, ctx := n, sys := true } va with
  | .ok ob r => some (ob, if r.kind = 2 then 0 else r.byteOff (va - r.base) / 2 ^ r.stlog)
  | .bad .. => none

/-- A bound of the storage offsets of an object's bytes, pads between its rows and tiles included (R217). -/
def Rec.storage (r : Rec) : Nat :=
  if r.kind ≠ 1 then r.sz
  else
    let top (n : Nat) : Nat := r.cext n - 1
    let rest := top 2 * r.str 2 + top 3 * r.str 3 + top 4 * r.str 4
    match r.layout with
    | 2 =>
      let ta := 2 ^ r.tla
      let tb := 2 ^ r.tlb
      (top 1 / ta * ((r.ext 0 + tb - 1) / tb) + top 0 / tb + 1) * (ta * tb * r.es) + rest
    | 1 => (top 1 + 1) * r.es + top 0 * r.str 1 + rest
    | _ => (top 0 + 1) * r.es + top 1 * r.str 1 + rest + 128

/-- Whether a device address lies in the frame of a resident sub-tile of an object by its entries in memory (R215). -/
def State.inFrame (s : State) (n obj : Nat) (r : Rec) (b da : Nat) : Bool :=
  let e := s.entryMem n obj b
  let a := bitsOf e 12 36 * 2 ^ 12
  r.kind ≠ 2 && bitOf e 0 && decide (a ≤ da) && decide (da < a + 2 ^ r.stlog)

/-- Monitors on words that a MOVE or RECORD publish covers return status 2 (R321): those armed through the object, or through the
sub-tile that moves, and those whose word lies in a frame of it. -/
def State.evictMons (s : State) (p : Publish) : State :=
  if 2 ≤ p.op || s.home.mons.isEmpty then s
  else
    let r := recOf (s.recMem p.ctx p.obj)
    let subs := if p.op = 1 then [p.first] else List.range ((r.storage + 2 ^ r.stlog - 1) / 2 ^ r.stlog)
    let hit (m : Monitor) : Bool := m.ctx = p.ctx &&
      ((m.obj = p.obj && (p.op = 0 || m.sub = p.first)) || subs.any fun b => s.inFrame p.ctx p.obj r b m.da)
    let gone := s.home.mons.filter hit
    s.modHome fun h => { h with mons := h.mons.filter (fun m => !hit m),
                                msgs := h.msgs ++ gone.map fun m => { grp := m.grp, status := 2 } }

/-- RELEASE raises GEN in the record in memory and in every cached copy as one step (R229). -/
def State.raiseGen (s : State) (n obj : Nat) : State :=
  let a := (s.ctx n).orb.toNat % 2 ^ 48 + 64 * obj + 4
  let g := s.rdNat a 4 + 1
  let up (l : RecLine) : RecLine := { l with words := l.words.set 0 (BitVec.ofNat 64 ((regGet l.words 0).toNat % 2 ^ 32 + g % 2 ^ 32 * 2 ^ 32)) }
  (s.homeWrite none a (leBytes 4 g)).allTr fun t => { t with recs := mapMod t.recs (recKey n obj) up }

/-- A publish starts (R224, R225, R229): rejected with its code, or its invalidations made and its drains begun. -/
def State.publish (s : State) (p : Publish) : State :=
  let fail (t : State) (c : Nat) : State := t.modDev fun d => { d with opState := 3, opCode := c }
  match s.pubCode p with
  | 0 =>
    let s1 := ((s.evictMons p).shoot p).modDev fun d => { d with opState := 1, opCode := 0, pub := some p }
    let s2 := match p.op with
      | 0 => s1.modCtx p.ctx fun c => { c with invalid := c.invalid.filter fun o => o ≠ p.obj }
      | 1 => s1.modCtx p.ctx fun c => { c with moving := c.moving ++ [(p.obj, p.first)] }
      | 2 => (s1.raiseGen p.ctx p.obj).modCtx p.ctx fun c => { c with moving := c.moving.erase (p.obj, p.first) }
      | _ => s1
    s2
  | c =>
    if p.op = 0 && 2 ≤ c && c ≤ 4 then
      fail ((s.shoot p).modCtx p.ctx fun x => { x with invalid := if x.invalid.contains p.obj then x.invalid else x.invalid ++ [p.obj] }) c
    else fail s c

/-- A write to OPUB0 (R224): discarded and counted while a publish is under way. -/
def State.opubWrite (s : State) (v : DWord) : State :=
  let n := v.toNat
  if s.dev.opState = 1 then s.count 2
  else
    let s1 := s.modDev fun d => { d with opub0 := v &&& 0x3FFFFFFFF }
    if n / 2 ^ 34 ≠ 0 then s1.modDev fun d => { d with opState := 3, opCode := 1 }
    else s1.publish { op := bitsOf n 30 4, ctx := bitsOf n 24 6, obj := n % 2 ^ 24, first := s.dev.opub1.toNat % 2 ^ 32,
                      count := s.dev.opub1.toNat / 2 ^ 32, since := s.nextId }

/-- A publish as OPUB1 and then OPUB0 are written for it. -/
def State.publishAs (s : State) (op n obj first count : Nat) : State :=
  if s.dev.opState = 1 then s.count 2
  else (s.modDev fun d => { d with opub1 := BitVec.ofNat 64 (first % 2 ^ 32 + count % 2 ^ 32 * 2 ^ 32) }).opubWrite
    (BitVec.ofNat 64 (obj % 2 ^ 24 + n % 64 * 2 ^ 24 + op * 2 ^ 30))

/-- PUBLISH_RECORD (R224). -/
def execPublishRecord (n obj : Nat) (s : State) : Out := .next (s.publishAs 0 n obj 0 0)
/-- PUBLISH_MOVE (R229). -/
def execPublishMove (n obj sub : Nat) (s : State) : Out := .next (s.publishAs 1 n obj sub 1)
/-- PUBLISH_RELEASE (R229). -/
def execPublishRelease (n obj sub : Nat) (s : State) : Out := .next (s.publishAs 2 n obj sub 1)
/-- PUBLISH_ENTRIES (R225). -/
def execPublishEntries (n obj first count : Nat) (s : State) : Out := .next (s.publishAs 3 n obj first count)
/-- PUBLISH_GRANULES (R225). -/
def execPublishGranules (n first count : Nat) (s : State) : Out := .next (s.publishAs 4 n 0 first count)

/-- Whether bytes named by an access, as object × 2^52 + storage offset, are of an object. -/
def spotsIn (obj : Nat) (l : List Nat) : Bool := l.any fun x => x / 2 ^ 52 = obj

/-- Whether an operation was translated against words that a publish covers and is not performed yet: an aggregating one until
its elements are accepted, one through the private window by the private object, one at a peer through the remote object. -/
def State.oldAccess (s : State) (p : Publish) (o : Op) : Bool :=
  o.wait = .flight && !o.performed && (o.isAcc || o.isAgg) &&
    o.accs.any fun a => (a.places.any fun q => match q with | .da _ => true | .remote .. => true | _ => false) &&
      (p.op = 4 || spotsIn p.obj a.spots || match s.spotOf p.ctx a.va.toNat with | some (ob, _) => ob = p.obj | none => false)

/-- The context of a party. -/
def State.partyCtx (s : State) : Party → Nat
  | .slice wk _ _ => (s.wg? wk).elim 64 Workgroup.ctx
  | .remote r => r.rctx
  | .win f _ _ _ => bitsOf (s.host f).hwin.toNat 1 6
  | .coll n _ => n
  | .queue q => (s.queue q).ctx
  | .op id => ((s.groups.find? fun kv => (kv.2.op? id).isSome).map fun kv => kv.2.ctx).getD 64
  | .msg m => m.msg.ctx

/-- Whether a request for remote bytes that an engine, a host window or a delivery of the publish's context made before it is not
answered (R225); which object's record it went through is not kept, so that those of every object are awaited (DESIGN CHOICE,
LE 76). -/
def State.oldIo (s : State) (p : Publish) : Bool :=
  s.rio.any fun e => e.id < p.since && e.resp.isNone && e.bad.isNone && s.partyCtx e.who = p.ctx

/-- Whether a slice of a copy goes on with places it translated before (R250): every other move translates anew. -/
def State.oldSlices (s : State) (n : Nat) : Bool :=
  s.wgs.any fun kv => kv.2.ctx = n && kv.2.copies.any fun c => c.started && c.slices.any fun l => !l.done && !l.dst.isEmpty

/-- Whether the drains of a publish are over, step 2 of R225. -/
def State.pubDrained (s : State) (p : Publish) : Bool :=
  (s.groups.all fun kv => kv.2.ctx ≠ p.ctx || !(kv.2.ops.any fun o => s.oldAccess p o)) && !s.oldSlices p.ctx && !s.oldIo p

/-- Whether a Cumulus unit holds an entry of a context, or a packet with one is on its way. -/
def State.holdsCtx (s : State) (n : Nat) : Bool :=
  (s.dies.any fun kv => kv.2.bufs.any fun b => b.2.ents.any fun e => e.ctx = n) || s.cuPkts.any fun q => q.ents.any fun e => e.ctx = n

/-- PUBLISH_DONE (R225): once the old accesses are performed, the Cumulus units flush what they hold by then, and the publish
is done; the accesses that are parked or held are translated again. -/
def execPublishDone (s : State) : Out :=
  .next (match s.dev.pub with
    | none => s
    | some p =>
      if !s.pubDrained p then s
      else if s.holdsCtx p.ctx then s.flushCtx p.ctx
      else
        let s1 := s.modDev fun d => { d with opState := 2, opCode := 0, pub := none }
        let wake (g : Group) : Group :=
          { g with ops := g.ops.map (fun o => if o.wait ≠ .flight && o.again = 0 then { o with again := 1 } else o),
                   iparked := none, spc := { g.spc with park := none } }
        ({ s1 with groups := mapAll s1.groups (fun _ g => if g.ctx = p.ctx then wake g else g),
                    svcWaits := s1.svcWaits.filter fun w => w.ctx ≠ p.ctx } : State).winAgain)

end Sys2Proof.Machine
end

