-- ==== Sys2Proof/Machine/HostEvents.lean ====
section
/-! DEFINITION. Hosts (R404-R408): ownership, attestation, links, and the reset of a function. -/

namespace Sys2Proof.Machine

/-! ### Ownership (R407) -/

/-- Whether a claim goes before another: higher PRIO, then earlier, then the lower function. -/
def Claim.before (a b : Claim) : Bool :=
  b.prio < a.prio || (a.prio = b.prio && (a.order < b.order || (a.order = b.order && a.f < b.f)))

/-- The election (R407): without an owner the best claim wins, the epoch rises, and a report tells it. -/
def State.elect (s : State) : State :=
  if s.dev.ownHeld then s
  else match s.dev.claims with
    | [] => s
    | c :: r =>
      let best := r.foldl (fun (b : Claim) x => if x.before b then x else b) c
      let s1 := (s.modDev fun d =>
        { d with ownFn := best.f, ownHeld := true, ownEpoch := d.ownEpoch + 1, ownBeat := d.tns,
                 claims := d.claims.filter fun x => x.f ≠ best.f }).postHeld
      s1.post { type := 10, args := [BitVec.ofNat 64 best.f, s1.dev.ownEpoch.setWidth 64] }

/-- The owner loses ownership; the election follows, and a report tells when nobody wins it (R406, R407). -/
def State.loseOwner (s : State) : State :=
  let s1 := (s.modDev fun d => { d with ownHeld := false }).elect
  if s1.dev.ownHeld then s1 else s1.post { type := 10, args := [4, s1.dev.ownEpoch.setWidth 64] }

/-- OP 1 of OWNCTL. -/
def State.ownClaim (s : State) (f prio : Nat) : State :=
  if 4 ≤ f || !(s.host f).up then s
  else
    let p := prio % 8
    (s.modDev fun d =>
      if d.claims.any fun c => c.f = f then { d with claims := d.claims.map fun c => if c.f = f then { c with prio := p } else c }
      else { d with claims := d.claims ++ [{ f := f, prio := p, order := d.claimSeq }], claimSeq := d.claimSeq + 1 }).elect

/-- Whether function f owns the device: it has given an OP 3 within the last 300 ms (R407). -/
def State.owns (s : State) (f : Nat) : Bool := s.dev.ownHeld && s.dev.ownFn = f && s.dev.tns < s.dev.ownBeat + 300000000

/-- OWN_CLAIM (R407). -/
def execOwnClaim (f prio : Nat) (s : State) : Out := .next (s.ownClaim f prio)
/-- OWN_RELEASE (R407): discarded from a non-owner. -/
def execOwnRelease (f : Nat) (s : State) : Out := .next (if s.owns f then s.loseOwner else s)
/-- OWN_HEARTBEAT (R407): discarded from a non-owner. -/
def execOwnHeartbeat (f : Nat) (s : State) : Out :=
  .next (if s.owns f then s.modDev fun d => { d with ownBeat := d.tns } else s)
/-- OWNER_TIMEOUT (R407): 300 ms since the owner's last heartbeat. -/
def execOwnerTimeout (s : State) : Out :=
  .next (if s.dev.ownHeld then (s.atLeast (s.dev.ownBeat + 300000000)).loseOwner else s)

/-! ### Links and functions (R405, R407, R409) -/

/-- Whether a party is an access of function `f`'s window. -/
def Party.ofHost (f : Nat) : Party → Bool
  | .win g .. => g = f
  | _ => false

/-- A function detaches (R409): its window is off, its claim withdrawn, its ownership lost; `link` when
its link stays up, so that UP and GEN keep their values (R401; DESIGN CHOICE, LE 48). -/
def State.detach (s : State) (f : Nat) (link : Bool) : State :=
  let h := s.host f
  let s0 : State := { s with svcWaits := s.svcWaits.filter (fun w => !w.who.ofHost f), rio := s.rio.filter fun e => !e.who.ofHost f }
  let s1 := (s0.setHost f { h with up := h.up && link, gen := if link then h.gen else 0,
                                   hwin := h.hwin &&& 0xFFFFFFFFFFFFFFFE, heldWin := [] }).modDev fun d =>
    { d with claims := d.claims.filter fun c => c.f ≠ f }
  if s1.dev.ownHeld && s1.dev.ownFn = f then s1.loseOwner else s1

/-- FUNCTION_RESET (R409): a hot reset or an FLR; FSTAT's UP and GEN stay those of the link (R401). -/
def execFunctionReset (f : Nat) (s : State) : Out := .next (if f < 4 && (s.host f).up then s.detach f true else s)

/-- PCIE_LINK_DOWN (R407): the functions of port die `pd` (0 or 1) detach. -/
def State.linkDown (s : State) (pd : Nat) : State :=
  [2 * pd, 2 * pd + 1].foldl (fun t f => if (t.host f).up then t.detach f false else t) s

/-- PCIE_LINK_DOWN (R407). -/
def execPcieLinkDown (pd : Nat) (s : State) : Out := .next (if pd < 2 then s.linkDown pd else s)

/-- PCIE_LINK_UP (R405): the link trains at a generation; a x16 link presents the lower function only. -/
def execPcieLinkUp (pd gen : Nat) (s : State) : Out :=
  .next (if 2 ≤ pd || gen = 0 || 7 < gen || (s.die (48 + pd)).dead then s
    else
      let fs := if Config.linkSplit pd then [2 * pd, 2 * pd + 1] else [2 * pd]
      fs.foldl (fun t f => t.setHost f { t.host f with up := true, gen := gen }) s)

/-! ### Attestation (R404) -/

/-- A write of ATTCMD (R404): while busy it is ignored, which ATTSTAT then shows; else GO starts a report. -/
def State.attWrite (s : State) (f : Nat) (go : Bool) : State :=
  let h := s.host f
  if !h.up then s
  else if h.attstat = 1 || h.attstat = 3 then s.setHost f { h with attstat := 3 }
  else if go then s.setHost f { h with attcmd := 1, attstat := 1 }
  else s

/-- A write of ATTCMD[0] = 1. -/
def State.attRequest (s : State) (f : Nat) : State := s.attWrite f true

/-- ATTESTATION_REQUEST (R404). -/
def execAttestationRequest (f : Nat) (s : State) : Out := .next (if f < 4 then s.attRequest f else s)

/-- The words of a report before its signature (R404). The measurements are the outcome of SHA-512 (UNVERIFIED, LE 14). -/
def State.attWords (s : State) (h : HostFn) : List DWord :=
  let image := if s.dev.bootSlot = 0 then s.str.slotA else s.str.slotB
  [BitVec.ofNat 64 (1 + s.fab.dev * 2 ^ 16), Config.fused 0] ++ h.attn ++
    (List.range 8).map (fun i => Config.fused (16 + i)) ++
    (List.range 8).map (fun i => Config.crypto (image.flatMap fun c => [c.1, c.2.toNat]) i) ++
    [BitVec.ofNat 64 (s.str.rollback + (if s.dev.memOpen then 2 ^ 32 else 0) + s.dev.bootSlot * 2 ^ 33), BitVec.ofNat 64 s.dev.tns]

/-- ATTESTATION_DONE (R404): the report and its signature (UNVERIFIED, LE 14) are in ATTRSP. -/
def execAttestationDone (f : Nat) (s : State) : Out :=
  let h := s.host f
  .next (if f < 4 && (h.attstat = 1 || h.attstat = 3) then
      let ws := s.attWords h
      let sig := (List.range 8).map fun i => Config.crypto (1 :: ws.map BitVec.toNat) i
      s.setHost f { h with attstat := 2, attcmd := 0, attrsp := ws ++ sig }
    else s)

end Sys2Proof.Machine
end

