-- ==== Sys2Proof/Machine/DieEvents.lean ====
section
/-! DEFINITION. Contexts made resident and torn down, dead dies, resets and boot, the standby Stratus (R24-R27, R305,
R362, R401, R402, R409, R410). -/

namespace Sys2Proof.Machine

/-! ### Contexts (R401, R409) -/

/-- Whether a CTXCFG value keeps its reserved bits and ranges (R401). -/
def ctxCfgOk (v : DWord) : Bool := v.toNat / 2 ^ 38 = 0 && 1 ≤ bitsOf v.toNat 4 10 && bitsOf v.toNat 4 10 ≤ 1000

/-- The fields of CTXCFG. -/
def Ctx.setCfg (c : Ctx) (v : DWord) : Ctx :=
  { c with en := v.getLsbD 0, sys := v.getLsbD 1, host := bitsOf v.toNat 2 2, slice := bitsOf v.toNat 4 10,
           privobj := bitsOf v.toNat 14 24 }

/-- CTXCFG as it reads. -/
def Ctx.cfg (c : Ctx) : DWord :=
  BitVec.ofNat 64 ((if c.en then 1 else 0) + (if c.sys then 2 else 0) + c.host % 4 * 4 + c.slice % 1024 * 16 + c.privobj % 2 ^ 24 * 2 ^ 14)

/-- A context is created (R25, R401): DIEM and its energy count start at zero. -/
def Ctx.create (c : Ctx) (v : DWord) : Ctx :=
  { c.setCfg v with diem := 0, enrg := 0, enrgPj := 0, ktl := 0, kis := 0, cseq := [], spawnSer := 0, stop := .running,
                    services := [], moving := [], invalid := [], slots := [] }

/-- Whether a table key made by `recKey` with `shift` bits below it is of context n. -/
def ofCtx (shift n key : Nat) : Bool := key / 2 ^ (24 + shift) = n

/-- Every cached word of a context's tables and code is gone. -/
def State.forgetCtx (s : State) (n : Nat) : State :=
  let tr (t : TrCache) : TrCache :=
    { t with recs := t.recs.filter (fun e => !ofCtx 0 n e.1), ents := t.ents.filter (fun e => !ofCtx 32 n e.1),
             walks := t.walks.filter fun e => e.1 ≠ n }
  { s with
    cores := mapAll s.cores fun _ c => { c with tr := tr c.tr, icache := c.icache.filter fun e => !ofCtx 52 n e.1,
                                                bins := c.bins.filter fun b => b.2.ctx ≠ n },
    ptr := mapAll s.ptr fun _ t => tr t,
    gdir := mapAll s.gdir fun _ m => m.filter fun e => e.1 % 2 ^ 60 / 2 ^ 32 ≠ n }

/-- Clusters whose idle timer may start. -/
def State.noteAllIdle (s : State) : State := (s.clusters.map Prod.fst).foldl (fun t l => t.noteIdle l) s

/-- CTXCFG.EN := 0 (R409): groups, engine work, images, monitors, Cumulus entries, grids and quota use are gone, the
context's queues halt with code 5. -/
def State.disableCtx (s : State) (n : Nat) : State :=
  let s1 := ((s.dropWork n).dropCumulus n).forgetCtx n
  let s2 : State := { s1 with groups := s1.groups.filter (fun g => g.2.ctx ≠ n), wgs := s1.wgs.filter (fun w => w.2.ctx ≠ n),
                              grids := s1.grids.filter fun g => g.2.lrec.ctx ≠ n }
  let s0 : State := { s2 with svcWaits := s2.svcWaits.filter fun w => w.ctx ≠ n }
  let qs := mapKeys s2.lq fun _ q => q.en && q.ctx = n
  let s3 := qs.foldl (fun t q => t.haltQueue q 5 none) s0
  ((s3.modCtx n fun c => { c with en := false, stop := .running, services := [], moving := [], invalid := [], slots := [] }).winAgain).noteAllIdle

/-- A write to CTXCFG (R401, R409). -/
def State.ctxCfgWrite (s : State) (n : Nat) (v : DWord) : State :=
  let c := s.ctx n
  let w := c.setCfg v
  if !ctxCfgOk v then s.count 0
  else if !c.en then s.setCtx n (if w.en then c.create v else w)
  else if w.sys ≠ c.sys || w.privobj ≠ c.privobj then s.count 0
  else if w.en then s.setCtx n w
  else (s.setCtx n { w with en := true }).disableCtx n

/-- CONTEXT_ENABLE (R401): a write of CTXCFG with EN = 1 to a context that is not resident. -/
def execContextEnable (n : Nat) (v : DWord) (s : State) : Out :=
  .next (if n < 64 && v.getLsbD 0 && !(s.ctx n).en then s.ctxCfgWrite n v else s)

/-- CONTEXT_DISABLE (R409): a write of CTXCFG with EN = 0. -/
def execContextDisable (n : Nat) (s : State) : Out := .next (if n < 64 && (s.ctx n).en then s.disableCtx n else s)

/-! ### DIE traps (R26, R27) -/

/-- A context traps DIE for die d (R27). One that a context fault has already stopped gets neither trap nor report, and one
whose report is posted gets nothing more (DESIGN CHOICE, LE 59). It takes no more work; what waits, is swapped out or resuming
is discarded with its image; a save in progress ends without an image, its workgroup resident again until its groups halt (R73,
DEDUCED, LE 72); and a group that waits on the synchronization engine comes to its fault point there. A second die adds itself
until the report is posted. -/
def State.dieCtx (s : State) (n d : Nat) : State :=
  match (s.ctx n).stop with
  | .running =>
    let s1 := (s.dropWork n).dropCumulus n
    let gone := mapKeys s1.wgs fun _ w => w.ctx = n && (w.state = .waiting || w.state = .swapped || w.state = .resuming)
    let s2 : State := { s1 with
      groups := s1.groups.filter (fun g => !gone.contains g.2.wg), wgs := s1.wgs.filter (fun w => !gone.contains w.1),
      cores := mapAll s1.cores fun _ c => { c with bins := c.bins.filter fun b => b.2.ctx ≠ n } }
    let s3 : State := { s2 with
      groups := mapAll s2.groups fun _ g => if g.ctx = n && g.parkedToTake then { g with park := 0, parkArg := [] } else g,
      wgs := mapAll s2.wgs fun _ w => if w.ctx = n then
          { w with evict := false, saveSlot := none, state := if w.state = .saving then .resident else w.state } else w }
    s3.modCtx n fun c => { c with stop := .die s.dev.tns [d] false false, slots := [] }
  | .die t ds e false => if ds.contains d then s else s.modCtx n fun c => { c with stop := .die t (ds ++ [d]) e false }
  | _ => s

/-- Every resident context traps DIE. -/
def State.dieAll (s : State) (d : Nat) : State := (mapKeys s.ctxs fun _ c => c.en).foldl (fun t n => t.dieCtx n d) s

/-- DIE_HALT_DEADLINE (R27): 2 µs after the verdict every group but the one in the DIE handler is halted. -/
def execDieHaltDeadline (n : Nat) (s : State) : Out :=
  .next (match (s.ctx n).stop with
    | .die tns _ _ _ =>
      if s.groups.all fun kv => kv.2.ctx ≠ n || kv.2.halted || kv.2.inDie then s
      else
        let s1 := s.atLeast (tns + 2000)
        { s1 with groups := mapAll s1.groups fun _ g => if g.ctx = n && !g.inDie then { g with halted := true } else g }
    | _ => s)

/-- DIE_REPORT_POST (R27, R406). -/
def execDieReportPost (n : Nat) (s : State) : Out :=
  .next (match (s.ctx n).stop with
    | .die tns ds e false =>
      if !(s.groups.all fun kv => kv.2.ctx ≠ n || kv.2.halted || kv.2.inDie) then s
      else (s.modCtx n fun c => { c with stop := .die tns ds e true }).post
        { type := 2, ctx := n, chip := ds.headD 0, args := [BitVec.ofNat 64 (ds.getD 1 0x3F)] }
    | _ => s)

/-! ### Dead dies (R24, R305, R362) -/

/-- What a lost compute die held is gone: its lines, its part in requests under way, its buffers and the packets that have
not reached their home slices; its groups halt, and none of their accesses is performed any more (R26). -/
def State.loseCompute (s : State) (d : Nat) : State :=
  let mine (l : Nat) : Bool := match s.dirOf l with | .X o => o = d | _ => false
  let s1 := s.modHome fun h =>
    { h with
      dirty := h.dirty.filter fun c => !mine (c.1 / 128),
      dir := h.dir.filterMap fun kv => match kv.2 with
        | .X o => if o = d then none else some kv
        | .S m => let m1 := if bitOf m d then m - 2 ^ d else m
                  if m1 = 0 then none else some (kv.1, .S m1)
        | .L => some kv
        | .U => none,
      puts := h.puts.filter fun p => p.die ≠ d,
      filter := (h.filter.map fun kv => (kv.1, kv.2.filter fun e => e.rid.src ≠ d)).filter fun kv => !kv.2.isEmpty,
      busy := (h.busy.filter fun kv => kv.2.die ≠ d).map fun kv =>
        (kv.1, { kv.2 with snoops := kv.2.snoops.map fun n => if n.die = d then { n with answered := true } else n }) }
  let s2 := s1.home.busy.foldl (fun t kv => t.lineStep kv.1) s1
  let v := s2.die d
  let s3 := s2.setDie d { v with lines := [], bufs := [] }
  { s3 with groups := mapAll s3.groups fun _ g =>
              if g.die = d then { g with halted := true, dirtyMask := 0, ops := [], mxq := [] } else g,
            cuPkts := s3.cuPkts.filter fun p => p.src ≠ d,
            gdir := mapDel s3.gdir d }

/-- What a directory keeps of the lines whose slices do not move (R305). -/
def lostDir (moved : Nat → Bool) (dir : NMap DirSt) : NMap DirSt := dir.filter fun kv => !moved (kv.1 * 128)

/-- A memory die is lost in Guarded mode (R305): its slices move, and those of the lost dies it served; the monitors on moved
addresses end with status 2, their lines lose their directory state, the home caches their lines, and the replay filter's
entries are found, as their second copies, at the slices that now serve their addresses. Requests in progress are carried
through first. -/
def State.loseMemory (s0 : State) (n : Nat) : State :=
  let old := s0.home.lost
  let moved (da : Nat) : Bool :=
    servingDie old (homeDie s0.dev.memOpen da) ≠ servingDie (old ++ [n]) (homeDie s0.dev.memOpen da)
  let s := ((s0.home.busy.map Prod.fst).filter fun l => moved (l * 128)).foldl State.settleLine s0
  let ents := s.home.filter.flatMap Prod.snd
  let s1 := s.modHome fun h =>
    { h with
      lost := old ++ [n], mons := h.mons.filter (fun m => !moved m.da),
      msgs := h.msgs ++ (h.mons.filter fun m => moved m.da).map fun m => { grp := m.grp, status := 2 },
      dir := lostDir moved h.dir, asked := h.asked.filter (fun l => !moved (l * 128)), filter := [],
      cache := (h.cache.map fun kv => (kv.1, kv.2.filter fun e => !moved (e.1 * 128))).filter fun kv => !kv.2.isEmpty }
  (ents.foldl (fun t e => t.filterAdd e.da e.rid e.word) s1).post { type := 4, chip := 16 + n }

/-- A port die is lost (R24): its ports go down, its hosts' links with it, and with PD1 the standby
(STBY, R410); with both lost the device holds reset. -/
def State.losePort (s : State) (pd : Nat) : State :=
  let s1 := (List.range 16).foldl (fun t i =>
    if (t.port (16 * pd + i)).state ≠ 0 || (t.port (16 * pd + i)).bring then t.portDown (16 * pd + i) 5 else t) s
  let s2 := if pd = 1 then { s1.linkDown pd with str := { s1.str with standby := false } } else s1.linkDown pd
  if (s2.die 48).dead && (s2.die 49).dead then s2.modDev fun d => { d with reset := true } else s2

/-- The verdict on chiplet c (R24, R26, R305, R362). -/
def State.verdict (s : State) (c : Nat) : State :=
  if 50 ≤ c || (s.chip c).dead then s
  else
    let s1 := (s.setChip c { s.chip c with dead := true }).modDev fun d => { d with verdicts := d.verdicts ++ [(c, d.tns)] }
    let s2 := s1.setDie c { s1.die c with dead := true, verdictTns := s.dev.tns }
    let s3 := s2.cutOff c
    if c < 16 then
      (mapKeys s3.ctxs fun _ x => x.en && bitOf x.diem c).foldl (fun t n => t.dieCtx n c) (s3.loseCompute c)
    else if c < 48 then
      let n := c - 16
      if s3.dev.memOpen || s3.home.lost.any fun m => m / 16 = n / 16 then
        (s3.modHome fun h => { h with lost := h.lost ++ [n] }).dieAll c
      else s3.loseMemory n
    else s3.losePort (c - 48)

/-- DEAD_DIE_VERDICT (R362): at the first report that a chiplet is silent. -/
def execDeadDieVerdict (c : Nat) (s : State) : Out := .next (if (s.chip c).reported then s.verdict c else s)

/-! ### Resets (R409) -/

/-- The ports after a reset: what flash keeps of each wavelength is there again (R371, R409). -/
def keptPorts (flash : NMap (Nat × Nat)) : NMap Port :=
  flash.foldl (fun m kv =>
    let p := kv.1 / 16
    let w := kv.1 % 16
    let v := mapGet m p {}
    mapSet m p { v with lage := mapSet v.lage w (BitVec.ofNat 64 (kv.2.1 * 2 ^ 32)), lageH := mapSet v.lageH w (BitVec.ofNat 64 kv.2.2) }) []

/-- The device reset, cold or not: everything at its reset value but the flash, the device's number and domain, and the
model's own counters; memory stays until boot step 6 writes it zero (R402, R409). -/
def State.resetTo (s : State) (cold : Bool) : State :=
  let s1 := stateOf s (execLageFlashStore s)
  { State.reset with
    agenda := s.agenda, came := s.came, nextId := s.nextId, fresh := s.fresh, mem := if cold then [] else s.mem,
    ports := keptPorts s1.str.flash,
    fab := { dev := s.fab.dev, domain := s.fab.domain },
    str := { flash := s1.str.flash, slotA := s.str.slotA, slotB := s.str.slotB, rollback := if cold then 0 else s.str.rollback } }

/-- COLD_RESET (R409). -/
def execColdReset (s : State) : Out := .next (s.resetTo true)
/-- DEVICE_RESET (R409). -/
def execDeviceReset (s : State) : Out := .next (s.resetTo false)

/-! ### Boot (R402) -/

/-- Go to a boot step. -/
def State.bootTo (s : State) (n : Nat) : State := s.modDev fun d => { d with bootStep := n }

/-- The image of the slot booted is in the code SRAM, and the firmware starts (R395, R402, PRESUMED, LE 15). -/
def State.startFirmware (s : State) : State :=
  let image := if s.dev.bootSlot = 0 then s.str.slotA else s.str.slotB
  { s with sgrp := stratusReset, str := { s.str with code := memTrim image 0x200000, halted := false, sleepTo := 0 } }

/-- BOOT_STEP_DONE (R402). What the step found comes with the event: at step 1 the fused rollback count, at step 3 the
version of the image of the slot tried, A before B, at step 5 the mask of chiplets that did not train, at step 6 Open mode and above it the
mask of lost memory dies (PRESUMED, LE 15). -/
def execBootStepDone (ok : Bool) (info : Nat) (s : State) : Out :=
  .next (if s.dev.bootReady || s.dev.bootCode ≠ 0 || s.dev.reset then s
    else match s.dev.bootStep with
      | 1 =>
        if ok then ({ s with str := { s.str with rollback := if s.str.rollback = 0 then info else s.str.rollback } } : State).bootTo 2
        else s.modDev fun d => { d with bootCode := 1, reset := true }
      | 2 => s.bootTo 3
      | 3 =>
        if ok && s.str.rollback ≤ info % 2 ^ 32 then (s.modDev fun d => { d with fwver := BitVec.ofNat 32 info }).bootTo 4
        else if s.dev.bootSlot = 0 then s.modDev fun d => { d with bootSlot := 1 }
        else s.modDev fun d => { d with bootCode := 2 }
      | 4 => s.startFirmware.bootTo 5
      | 5 =>
        let s1 : State := { s with chips := mapAll s.chips fun _ c => { c with seen := (List.range 50).map fun i => (i, s.dev.tns) } }
        let s2 := if ok then s1 else ((List.range 50).filter fun c => bitOf info c).foldl (fun t c => t.verdict c) s1
        ({ s2 with pairs := s2.trained } : State).bootTo 6
      | 6 =>
        let s1 := (s.modDev fun d => { d with memOpen := info % 2 = 1 }).modHome fun h => { h with cache := [], puts := [], dir := [], busy := [], dirty := [], mons := [] }
        let s2 : State := { s1 with mem := [] }
        let s3 := if ok then s2 else ((List.range 32).filter fun c => bitOf (info / 2) c).foldl (fun t c => t.verdict (16 + c)) s2
        s3.bootTo 7
      | 7 => ({ s with str := { s.str with standby := ok } } : State).bootTo 8
      | _ => s.modDev fun d => { d with bootReady := true })

/-- STRATUS_TAKEOVER (R410): PD0 is lost, or its Stratus has answered no heartbeat for 10 ms since it halted: the standby goes on with
the mirrored state, its firmware started afresh (PRESUMED, LE 15). -/
def execStratusTakeover (s : State) : Out :=
  let go (s : State) : State :=
    let s1 : State := { s with sgrp := stratusReset, str := { s.str with active := 49, standby := false, halted := false, sleepTo := 0 } }
    (s1.modDev fun d => { d with ownBeat := d.tns }).post { type := 11, chip := 49 }
  .next (if !s.str.standby || s.str.active ≠ 48 || (s.die 49).dead then s
    else if (s.die 48).dead then go s
    else if s.str.halted then go (s.atLeast (s.str.haltTns + 10000000))
    else s)

end Sys2Proof.Machine
end

