-- ==== Sys2Proof/Machine/ConfigSpace.lean ====
section
/-! DEFINITION. The configuration space (R397-R401): every register as it reads, the rules of a write to it, and the
writes that hosts make through BAR0 (R398, R408). -/

namespace Sys2Proof.Machine

/-! ### Values and ranges -/

/-- Whether a value sets a bit outside a mask given as fields (lo, width) (R5). -/
def onlyBits (v : DWord) (fs : List (Nat × Nat)) : Bool :=
  v.toNat = (fs.map fun f => bitsOf v.toNat f.1 f.2 * 2 ^ f.1).sum

/-- Whether a field of a value lies in a range. -/
def inRange (v : DWord) (lo w a b : Nat) : Bool := a ≤ bitsOf v.toNat lo w && bitsOf v.toNat lo w ≤ b

/-- A write that keeps its register's rules takes effect; any other is discarded whole and counted (R400, R401). -/
def State.ruled (s : State) (ok : Bool) (t : State) : State := if ok then t else s.count 0

/-- A number as a register. -/
def reg (n : Nat) : DWord := BitVec.ofNat 64 n

/-- A flag as a number. -/
def flag (b : Bool) (i : Nat) : Nat := if b then 2 ^ i else 0

/-! ### The device block (R400) -/

/-- DEVID to PENRG and IDPUB. -/
def State.devRead (s : State) (o : Nat) : DWord :=
  let d := s.dev
  if 0x80 ≤ o && o < 0xC0 then regGet d.sterr ((o - 0x80) / 8)
  else if 0x380 ≤ o && o < 0x3A0 then Config.fused (32 + (o - 0x380) / 8)
  else match o with
    | 0x000 => reg (0xEF01 + d.rev * 2 ^ 16)
    | 0x008 => reg (d.bootStep + d.bootCode * 2 ^ 8 + d.bootSlot * 2 ^ 16 + flag d.bootReady 17 + flag s.str.standby 18 +
        d.fwver.toNat * 2 ^ 32)
    | 0x010 => reg (d.ownFn + flag d.ownHeld 2 + d.ownEpoch.toNat * 2 ^ 16)
    | 0x020 => reg (flag d.memOpen 0)
    | 0x100 => s.fab.frmb
    | 0x108 => reg s.fab.frgen.toNat
    | 0x200 => d.opub0
    | 0x208 => d.opub1
    | 0x210 => reg (d.opState + d.opCode * 2 ^ 8)
    | 0x218 => d.osvc
    | 0x300 => reg (flag d.shape 0 + flag d.lven 1 + d.lvthr * 2 ^ 2 + d.lvext * 2 ^ 10 + d.lvwin * 2 ^ 18)
    | 0x308 => reg d.pcap
    | 0x310 => reg ((d.pwrpt.zipIdx.map fun p => p.1 % 2 ^ 16 * 2 ^ (16 * p.2)).sum)
    | 0x318 => reg d.penrg
    | _ => 0

/-- Whether an offset of the device block names a register. -/
def devReg (o : Nat) : Bool :=
  (o % 8 = 0) && (o ≤ 0x28 || (0x80 ≤ o && o < 0xC0) || (0x100 ≤ o && o ≤ 0x108) || (0x200 ≤ o && o ≤ 0x218) ||
    (0x300 ≤ o && o ≤ 0x318) || (0x380 ≤ o && o < 0x3A0))

/-- A write to the device block by function `f`, if a host made it (R400, R407). -/
def State.devWrite (s : State) (f : Option Nat) (o : Nat) (v : DWord) : State :=
  match o with
  | 0x018 => s.ruled (onlyBits v [(0, 2), (4, 3)]) (match f with
    | some h => (match v.toNat % 4 with
      | 1 => s.ownClaim h (bitsOf v.toNat 4 3)
      | 2 => if s.owns h then s.loseOwner else s
      | 3 => if s.owns h then s.modDev fun d => { d with ownBeat := d.tns } else s
      | _ => s)
    | none => s)
  | 0x028 => s.ruled (v.toNat ≤ 1) (if v = 1 then s.resetTo false else s)
  | 0x100 => s.ruled (onlyBits v [(12, 36)]) { s with fab := { s.fab with frmb := v } }
  | 0x108 => stateOf s (execFrgenWrite v s)
  | 0x200 => s.opubWrite v
  | 0x208 => s.modDev fun d => { d with opub1 := v }
  | 0x218 => s.osvcWrite v
  | 0x300 =>
    let thr := bitsOf v.toNat 2 8
    let ext := bitsOf v.toNat 10 8
    s.ruled (onlyBits v [(0, 28)] && ext < thr && thr ≤ 100 && inRange v 18 10 1 1000)
      (s.modDev fun d => { d with shape := v.getLsbD 0, lven := v.getLsbD 1, lvthr := thr, lvext := ext, lvwin := bitsOf v.toNat 18 10 })
  | 0x308 => s.ruled (onlyBits v [(0, 16)] && inRange v 0 16 1000 6000) (s.modDev fun d => { d with pcap := v.toNat })
  | _ => s

/-! ### Host function blocks (R401, R404) -/

/-- A register of function h's block. -/
def State.fnRead (s : State) (f o : Nat) : DWord :=
  let h := s.host f
  if 0x40 ≤ o && o < 0x60 then regGet h.attn ((o - 0x40) / 8)
  else if 0x100 ≤ o && o < 0x200 then regGet h.attrsp ((o - 0x100) / 8)
  else match o with
    | 0x00 => h.hwin
    | 0x08 => h.rptb
    | 0x10 => reg h.rpth.toNat
    | 0x18 => reg h.rptt.toNat
    | 0x20 => reg (flag h.up 0 + flag (s.owns f) 1 + flag (s.dev.claims.any fun c => c.f = f) 2 + h.gen * 2 ^ 3 + h.lost * 2 ^ 16)
    | 0x28 => h.attcmd
    | 0x30 => h.attstat
    | _ => 0

/-- Whether an offset of a function block names a register. -/
def fnReg (o : Nat) : Bool := o % 8 = 0 && (o ≤ 0x30 || (0x40 ≤ o && o < 0x60) || (0x100 ≤ o && o < 0x200))

/-- A write to function h's block. -/
def State.fnWrite (s : State) (f o : Nat) (v : DWord) : State :=
  let h := s.host f
  if 0x40 ≤ o && o < 0x60 then s.setHost f { h with attn := h.attn.set ((o - 0x40) / 8) v }
  else match o with
    | 0x00 => s.ruled (onlyBits v [(0, 7), (21, 31)]) (s.setHost f { h with hwin := v })
    | 0x08 => s.ruled (onlyBits v [(12, 40)] && inRange v 48 4 4 12) (s.setHost f { h with rptb := v })
    | 0x10 => s.ruled (onlyBits v [(0, 32)]) (s.setHost f { h with rpth := v.setWidth 32 })
    | 0x28 => s.ruled (v.toNat ≤ 1) (s.attWrite f (v = 1))
    | _ => s

/-! ### Context blocks (R64, R126, R210, R262, R342, R382, R387, R401) -/

/-- A limit of a quota. -/
def Quota.get (q : Quota) (i : Nat) : Nat := [q.gs, q.rf, q.wgm, q.ts, q.bs].getD i 0
/-- Set a limit of a quota. -/
def Quota.put (q : Quota) (i v : Nat) : Quota :=
  match i with
  | 0 => { q with gs := v } | 1 => { q with rf := v } | 2 => { q with wgm := v } | 3 => { q with ts := v } | _ => { q with bs := v }
/-- Whether a value may be written to a limit (R64). -/
def quotaOkVal (i : Nat) (v : DWord) : Bool := v.toNat ≤ [32768, 131072, 4096, 65536, 3072].getD i 0

/-- A register of a context block. -/
def Ctx.read (c : Ctx) (o : Nat) : DWord :=
  if 0x80 ≤ o && o < 0xA8 then reg (c.quota.get ((o - 0x80) / 8))
  else if 0x100 ≤ o && o < 0x180 then regGet c.mrq ((o - 0x100) / 8)
  else if 0x200 ≤ o && o < 0x400 then mapGet c.ccomm ((o - 0x200) / 8) 0
  else match o with
    | 0x00 => c.cfg
    | 0x08 => c.saveb
    | 0x10 => reg (c.slotkb + c.nslot * 2 ^ 24)
    | 0x20 => c.orb
    | 0x28 => c.otdr
    | 0x30 => c.otsq
    | 0x38 => reg c.sqHead.toNat
    | 0x40 => reg c.sqTail.toNat
    | 0x48 => c.tlcfg
    | 0x50 => reg (flag c.exact 0)
    | 0x58 => c.aflb
    | 0x60 => reg c.aflh.toNat
    | 0x68 => reg c.aflt.toNat
    | 0x70 => reg c.afll.toNat
    | 0x78 => reg c.msglost.toNat
    | 0x400 => reg c.enrg
    | _ => 0

/-- Whether an offset of a context block names a register. -/
def ctxReg (o : Nat) : Bool :=
  o % 8 = 0 && (o ≤ 0x10 || (0x20 ≤ o && o < 0xA8) || (0x100 ≤ o && o < 0x180) || (0x200 ≤ o && o ≤ 0x400))

/-- Whether a value may be written to CCOMM on device `dev` (R387). -/
def ccommOk (dev : Nat) (v : DWord) : Bool :=
  let f := bitsOf v.toNat
  onlyBits v [(0, 49)] && 1 ≤ f 1 12 && f 13 12 < f 1 12 && 1 ≤ f 37 12 && f 25 12 + (f 1 12 - 1) * f 37 12 ≤ 4095 &&
    f 25 12 + f 13 12 * f 37 12 = dev

/-- A write to a register of context n's block. -/
def State.ctxWrite (s : State) (n o : Nat) (v : DWord) : State :=
  let put (ok : Bool) (f : Ctx → Ctx) : State := s.ruled ok (s.modCtx n f)
  if 0x80 ≤ o && o < 0xA8 then put (quotaOkVal ((o - 0x80) / 8) v) fun c => { c with quota := c.quota.put ((o - 0x80) / 8) v.toNat }
  else if 0x100 ≤ o && o < 0x180 then
    put (v = 0 || (onlyBits v [(6, 51)] && inRange v 52 5 4 16)) fun c => { c with mrq := c.mrq.set ((o - 0x100) / 8) v }
  else if 0x200 ≤ o && o < 0x400 then put (ccommOk s.fab.dev v) fun c => { c with ccomm := mapSet c.ccomm ((o - 0x200) / 8) v }
  else match o with
    | 0x00 => s.ctxCfgWrite n v
    | 0x08 => put (onlyBits v [(12, 36)]) fun c => { c with saveb := v }
    | 0x10 => put true fun c => { c with slotkb := v.toNat % 2 ^ 24, nslot := v.toNat / 2 ^ 24 }
    | 0x20 => put (onlyBits v [(6, 47)] && inRange v 48 5 0 24) fun c => { c with orb := v }
    | 0x28 => put (onlyBits v [(12, 36)]) fun c => { c with otdr := v }
    | 0x30 => put (onlyBits v [(5, 47)] && inRange v 48 4 4 15) fun c => { c with otsq := v }
    | 0x38 => put (onlyBits v [(0, 32)]) fun c => { c with sqHead := v.setWidth 32 }
    | 0x48 => put (onlyBits v [(0, 33)] && v.toNat % 2 ^ 16 + bitsOf v.toNat 16 17 ≤ 65536) fun c => { c with tlcfg := v }
    | 0x50 => put (v.toNat ≤ 1) fun c => { c with exact := v = 1 }
    | 0x58 => put (onlyBits v [(6, 47)] && inRange v 48 5 4 16) fun c => { c with aflb := v }
    | 0x60 => put (onlyBits v [(0, 32)]) fun c => { c with aflh := v.setWidth 32 }
    | 0x400 => put true fun c => { c with enrg := v.toNat, enrgPj := 0 }
    | _ => s

/-! ### Launch queues (R60) -/

/-- A register of a queue block. -/
def LQueue.read (q : LQueue) (o : Nat) : DWord :=
  match o with
  | 0x00 => reg (flag q.en 0 + q.ctx * 2 + q.logn * 2 ^ 7)
  | 0x08 => q.base
  | 0x10 => reg q.head.toNat
  | 0x18 => reg q.tail.toNat
  | _ => reg (q.state + q.code * 2 ^ 8 + q.index.toNat * 2 ^ 32)

/-- A write to a register of queue n's block (R60). A write of LQSTAT is discarded and counted unless its whole value is STATE = 1:
CODE and INDEX bits set beside it make it another value (DESIGN CHOICE, LE 66). -/
def State.queueWrite (s : State) (n o : Nat) (v : DWord) : State :=
  let q := s.queue n
  match o with
  | 0x00 =>
    s.ruled (onlyBits v [(0, 12)] && inRange v 7 5 2 16) (s.setQueue n
      { q with en := v.getLsbD 0, ctx := bitsOf v.toNat 1 6, logn := bitsOf v.toNat 7 5,
               state := if !v.getLsbD 0 then 0 else if q.state = 0 then 1 else q.state })
  | 0x08 => s.ruled (onlyBits v [(8, 44)]) (s.setQueue n { q with base := v })
  | 0x18 => s.ruled (onlyBits v [(0, 32)]) (s.doorbell n (v.setWidth 32))
  | 0x20 => if q.state ≠ 2 then s else s.ruled (v = 1) (s.setQueue n { q with state := 1 })
  | _ => s

/-! ### Cores, chiplets, ports, egress slots -/

/-- GSCFG of a core (R87). -/
def Core.gscfg (c : Core) : DWord := reg (c.clsq + c.clsw * 2 ^ 4 + c.clsh * 2 ^ 15 + c.hwdt * 2 ^ 32)

/-- A register of a core block (R87, R401). -/
def Core.read (c : Core) (o : Nat) : DWord :=
  match o with
  | 0x00 => c.gscfg
  | 0x08 => reg c.sptmr
  | _ => reg (flag c.lv 0 + flag c.trn 1 + c.lvEntries * 2 ^ 32)

/-- A write to a register of core k's block. -/
def State.coreWrite (s : State) (k o : Nat) (v : DWord) : State :=
  match o with
  | 0x00 =>
    s.ruled (onlyBits v [(0, 26), (32, 16)] && inRange v 0 4 1 8 && inRange v 4 11 1 1024 && inRange v 15 11 1 1024 && inRange v 32 16 1 65535)
      (s.modCore k fun c => { c with clsq := bitsOf v.toNat 0 4, clsw := bitsOf v.toNat 4 11, clsh := bitsOf v.toNat 15 11,
                                     hwdt := bitsOf v.toNat 32 16 })
  | 0x08 => s.ruled (onlyBits v [(0, 10)] && inRange v 0 10 1 1000) (s.modCore k fun c => { c with sptmr := v.toNat })
  | _ => s

/-- Whether an offset of chiplet c's block names a register (R352, R358, R342, R401). -/
def chipReg (c o : Nat) : Bool := o % 8 = 0 && (o ≤ 0x400 || (c < 16 && o ≤ 0x428))

/-- A register of chiplet c's block. -/
def State.chipRead (s : State) (c o : Nat) : DWord :=
  let t := o % 0x200 / 8
  if o < 0x400 && (t = c || 50 ≤ t) then 0
  else if o < 0x200 then s.rrt c t
  else if o < 0x400 then (s.pair c t).rsts
  else match o with
    | 0x400 => (s.chip c).rgcfg
    | 0x408 => reg (s.die c).aget
    | _ => reg (s.cluster (4 * c + (o - 0x410) / 8)).clidle

/-- A write to a register of chiplet c's block. -/
def State.chipWrite (s : State) (c o : Nat) (v : DWord) : State :=
  if o < 0x200 then s.rrtWrite c (o / 8) v
  else if o < 0x400 then s
  else match o with
    | 0x400 => s.rgcfgWrite c v
    | 0x408 => s.ruled (onlyBits v [(0, 14)] && inRange v 0 14 100 10000) (s.setDie c { s.die c with aget := v.toNat })
    | _ =>
      let l := 4 * c + (o - 0x410) / 8
      s.ruled (onlyBits v [(0, 14)] && inRange v 0 14 10 10000) (s.setCluster l { s.cluster l with clidle := v.toNat })

/-- Whether an offset of a port block names a register (R371). -/
def portReg (o : Nat) : Bool := o % 8 = 0 && (o < 0x30 || (0x40 ≤ o && o < 0xE0))

/-- A register of a port block (R371). -/
def Port.read (v : Port) (o : Nat) : DWord :=
  if 0x40 ≤ o then (if o % 16 = 0 then mapGet v.lage ((o - 0x40) / 16) 0 else v.lageWord ((o - 0x40) / 16))
  else match o with
    | 0x00 => v.cfg
    | 0x08 => v.pstat
    | 0x10 => v.lmap
    | 0x18 => v.pfec
    | 0x20 => v.prpl
    | _ => v.ptime

/-- A register of an egress slot (R342). -/
def Egress.read (e : Egress) (o : Nat) : DWord :=
  match o with
  | 0x00 => e.base
  | 0x08 => reg (e.peer + e.state * 2 ^ 12)
  | 0x10 => reg e.head.toNat
  | _ => reg e.tail.toNat

/-- A write to EQB (R342): not to a bound slot; 0 leaves the slot unused. -/
def State.egressWrite (s : State) (q o : Nat) (v : DWord) : State :=
  if o ≠ 0 then s
  else s.ruled ((s.egr q).state = 0 && (v = 0 || (onlyBits v [(12, 41)] && inRange v 48 5 8 24))) (s.setEgr q { s.egr q with base := v })

/-! ### The space (R399) -/

/-- A configuration register: its block, its index and the offset in the block. -/
inductive CfgReg where
  | dev (o : Nat)
  | fn (f o : Nat)
  | ctx (n o : Nat)
  | quota (c o : Nat)
  | queue (n o : Nat)
  | core (k o : Nat)
  | tl (x : Nat)
  | chip (c o : Nat)
  | port (p o : Nat)
  | egress (q o : Nat)
  | phy (p w o : Nat)
deriving DecidableEq, Repr

/-- The register that an address below 2^32 names (R399). -/
def cfgReg (a : Nat) : Option CfgReg :=
  let r := a % 2 ^ 24
  let some_ (b : Bool) (c : CfgReg) : Option CfgReg := if b && a % 8 = 0 then some c else none
  match a / 2 ^ 24 with
  | 0 => if a < 0x1000 then some_ (devReg a) (.dev a)
         else some_ (a < 0x1800 && fnReg (a % 0x200)) (.fn ((a - 0x1000) / 0x200) (a % 0x200))
  | 1 => some_ (r / 0x1000 < 64 && ctxReg (r % 0x1000)) (.ctx (r / 0x1000) (r % 0x1000))
  | 2 => some_ (r / 0x40 < 16 && r % 0x40 ≤ 0x20) (.quota (r / 0x40) (r % 0x40))
  | 3 => some_ (r / 0x40 < 64 && r % 0x40 ≤ 0x20) (.queue (r / 0x40) (r % 0x40))
  | 4 => some_ (r / 0x40 < 256 && r % 0x40 ≤ 0x10) (.core (r / 0x40) (r % 0x40))
  | 5 => some_ (r / 8 < 65536) (.tl (r / 8))
  | 6 => some_ (r / 0x1000 < 50 && chipReg (r / 0x1000) (r % 0x1000)) (.chip (r / 0x1000) (r % 0x1000))
  | 7 => some_ (r / 0x100 < 32 && portReg (r % 0x100)) (.port (r / 0x100) (r % 0x100))
  | 8 => some_ (r / 0x20 < 64) (.egress (r / 0x20) (r % 0x20))
  | 9 => some_ (r / 0x100 < 32 && r % 0x100 / 16 < 10) (.phy (r / 0x100) (r % 0x100 / 16) (r % 16))
  | _ => none

/-- A configuration register as it reads. -/
def State.regRead (s : State) : CfgReg → DWord
  | .dev o => s.devRead o
  | .fn f o => s.fnRead f o
  | .ctx n o => (s.ctx n).read o
  | .quota c o => reg ((mapGet s.classes c {}).get (o / 8))
  | .queue n o => (s.queue n).read o
  | .core k o => (s.core k).read o
  | .tl x => mapGet s.dev.tl x 0
  | .chip c o => s.chipRead c o
  | .port p o => (s.port p).read o
  | .egress q o => (s.egr q).read o
  | .phy p w o => if o = 0 then mapGet (s.port p).phyctl w 0 else mapGet (s.port p).physt w 0

/-- A timeline store entry is set (R262): waits see it. -/
def State.tlWrite (s : State) (x : Nat) (v : DWord) : State :=
  (s.modDev fun d => { d with tl := mapSet d.tl x v }).syncWake

/-- A write to a configuration register, by host function `f` if one made it. -/
def State.regWrite (s : State) (f : Option Nat) (r : CfgReg) (v : DWord) : State :=
  match r with
  | .dev o => s.devWrite f o v
  | .fn g o => s.fnWrite g o v
  | .ctx n o => s.ctxWrite n o v
  | .quota c o => s.ruled (quotaOkVal (o / 8) v) { s with classes := mapSet s.classes c ((mapGet s.classes c {}).put (o / 8) v.toNat) }
  | .queue n o => s.queueWrite n o v
  | .core k o => s.coreWrite k o v
  | .tl x => s.tlWrite x v
  | .chip c o => s.chipWrite c o v
  | .port p o => if o = 0 then s.pcfgWrite p v else if o = 0x10 then s.lmapWrite p v else s
  | .egress q o => s.egressWrite q o v
  | .phy p w o => if o = 0 then s.phyWrite p w v else s

/-- The counter of a write that names nothing: 6 in the block of a reserved chiplet, else 0 (R397). -/
def noRegCount (a : Nat) : Nat := if a / 2 ^ 24 = 6 && 50 ≤ a % 2 ^ 24 / 0x1000 && a % 2 ^ 24 / 0x1000 < 64 then 6 else 0

/-- A write at a configuration address that names nothing is counted (R397); in the block of a reserved chiplet it is logged as well
(R9). -/
def State.noReg (s : State) (a : Nat) (v : DWord) : State :=
  let n := noRegCount a
  if n = 6 then (s.count n).logged 0 [a % 2 ^ 24 / 0x1000, a % 0x1000 / 8, v.toNat] else s.count n

/-- Whether a register answers: after a failure of both images only BOOTST, DEVID, OWN and the function blocks do (R402). -/
def State.answers (s : State) (r : CfgReg) : Bool :=
  s.dev.bootCode ≠ 2 || match r with
    | .dev o => o ≤ 0x10
    | .fn .. => true
    | _ => false

/-- A read at a configuration address (R397): `str` for Stratus. -/
def State.cfgRead (s : State) (str : Bool) (ca : DWord) : DWord :=
  let a := ca.toNat
  match a / 2 ^ 62 with
  | 0 => if a < 2 ^ 32 then (match cfgReg a with | some r => if s.answers r then s.regRead r else 0 | none => 0) else 0
  | 1 => if str && bitsOf a 48 14 = 0 && s.isMem (a % 2 ^ 48 + 7) then reg (s.rdNat (a % 2 ^ 48) 8) else 0
  | 2 => if str && bitsOf a 20 42 = 0 then reg (leNat (memReadBytes s.str.data (a % 2 ^ 20) 8)) else 0
  | _ => 0

/-- A write at a configuration address (R397). Until READY only Stratus writes, but for OWNCTL (R402, PRESUMED, LE 15). -/
def State.cfgWrite (s : State) (str : Bool) (f : Option Nat) (ca v : DWord) : State :=
  let a := ca.toNat
  if !str && !s.dev.bootReady && a ≠ 0x018 then s.count 0
  else match a / 2 ^ 62 with
    | 0 => if a < 2 ^ 32 then (match cfgReg a with | some r => s.regWrite f r v | none => s.noReg a v) else s.count 0
    | 1 => if str && bitsOf a 48 14 = 0 && s.isMem (a % 2 ^ 48 + 7) then s.homeWrite none (a % 2 ^ 48) (leBytes 8 v.toNat) else s.count 0
    | 2 => if str && bitsOf a 20 42 = 0 then { s with str := { s.str with data := memWriteBytes s.str.data (a % 2 ^ 20) (leBytes 8 v.toNat) } }
           else s.count 0
    | _ => s.count 0

/-! ### Hosts (R14, R60, R398, R408) -/

/-- Whether a BAR0 write of a function that is not the owner takes effect (R408). -/
def anyoneWrites (f : Nat) (r : CfgReg) : Bool :=
  match r with
  | .dev o => o = 0x018
  | .fn g o => g = f && (o = 0x10 || o = 0x28 || (0x40 ≤ o && o < 0x60))
  | _ => false

/-- A BAR0 write reaches the arbiter (R402, R408). -/
def State.bar0 (s : State) (f ca : Nat) (v : DWord) : State :=
  let mayBe := match cfgReg ca with | some r => s.owns f || anyoneWrites f r | none => s.owns f
  if !s.dev.bootReady && ca ≠ 0x018 then s.count 0
  else if !mayBe then s.count 7
  else if 2 ^ 28 ≤ ca then s.count 0
  else s.cfgWrite false (some f) (reg ca) v

/-- Whether an entry held for a function is this BAR0 write, next of the function's writes. -/
def nextBar0 (l : List (Option (List Byte) × Nat × Nat)) (e : Option (List Byte) × Nat × Nat) : Bool :=
  match l.find? fun x => x.1.isSome with
  | some x => x = e
  | none => false

/-- Whether BAR0 writes of a function are held: those through PD1, from the loss of PD0 until the standby takes over (R410). -/
def State.heldByLoss (s : State) (f : Nat) : Bool := 2 ≤ f && (s.die 48).dead && s.str.standby && s.str.active = 48

/-- A host writes BAR0 (R398, R410): behind an earlier window write of the function that is held, the write waits; one that
waited goes when it is next. -/
def State.hostWrite (s : State) (f ca : Nat) (v : DWord) : State :=
  let e : Option (List Byte) × Nat × Nat := (some (leBytes 8 v.toNat), 2 ^ 40 + ca, 8)
  let l := (s.host f).heldWin
  if 4 ≤ f || !(s.host f).up then s
  else if nextBar0 l e && !s.heldByLoss f then ((s.setHost f { s.host f with heldWin := l.erase e }).bar0 f ca v).winAgain
  else if nextBar0 l e then s
  else if heldWrites l || s.heldByLoss f then s.setHost f { s.host f with heldWin := l ++ [e] }
  else s.bar0 f ca v

/-- CONFIG_REGISTER_WRITE (R397): a host's write through BAR0. -/
def execConfigRegisterWrite (f ca : Nat) (v : DWord) (s : State) : Out := .next (s.hostWrite f ca v)

/-- TIMELINE_ENTRY_WRITE (R262). -/
def execTimelineEntryWrite (x : Nat) (v : DWord) (s : State) : Out := .next (if x < 65536 then s.tlWrite x v else s)

/-- DOORBELL_WRITE (R60). -/
def execDoorbellWrite (f q : Nat) (tail : Word) (s : State) : Out :=
  .next (if q < 64 then s.hostWrite f (0x03000018 + 0x40 * q) (tail.setWidth 64)
    else if f < 4 && (s.host f).up then s.count 1 else s)

/-- LQSTAT_RESUME (R60). -/
def execLqstatResume (f q : Nat) (s : State) : Out := .next (if q < 64 then s.hostWrite f (0x03000020 + 0x40 * q) 1 else s)

/-- A window access of a host (R14, R231, R408): a non-owner's write is discarded and counted; a write waits behind held
writes; a miss or a move holds the access. -/
def State.hostWindow (s : State) (f : Nat) (data : Option (List Byte)) (off len : Nat) : State :=
  let h := s.host f
  let e := (data, off, len)
  if 4 ≤ f || !h.up || 2 ^ 40 ≤ off || len = 0 then s
  else if data.isSome && !s.owns f then s.count 7
  else if data.isSome && heldWrites h.heldWin then s.setHost f { h with heldWin := h.heldWin ++ [e] }
  else match s.winTry f data off len with
    | .done t c => t.complete f data.isSome c
    | .wait t => t.setHost f { t.host f with heldWin := (t.host f).heldWin ++ [e] }

/-- HOST_WINDOW_READ (R231). -/
def execHostWindowRead (f off len : Nat) (s : State) : Out := .next (s.hostWindow f none off len)
/-- HOST_WINDOW_WRITE (R231). -/
def execHostWindowWrite (f off : Nat) (data : List Byte) (s : State) : Out := .next (s.hostWindow f (some data) off data.length)

end Sys2Proof.Machine
end

