-- ==== Sys2Proof/Machine/Scalar.lean ====
section
/-! DEFINITION. Majors 3 to 8: the scalar unit (R123-R135). -/

namespace Sys2Proof.Machine

/-! ### Major 3 (R129, R130) -/

/-- A register-register unit: s[D] := f s[A] s[B]. -/
def scalar3 (fn cls : Nat) (d a b : SReg) (f : DWord → DWord → DWord) (s : State) : Out :=
  issue { maj := 3, cls := cls, base := wordA 3 d.val a.val b.val fn, sr := [a.val, b.val], sw := [d.val], str := true }
    (fun _ _ _ g g1 => .grp (g1.writeS d.val (f (g.readS a.val) (g.readS b.val)))) s

/-- 1 or 0. -/
def b64 (c : Bool) : DWord := if c then 1 else 0

/-- Signed division truncated towards zero (R130): −1 by zero; −2^63 ÷ −1 wraps. -/
def divS (w : Nat) (a b : BitVec w) : BitVec w := if b = 0 then BitVec.allOnes w else BitVec.ofInt w (a.toInt.tdiv b.toInt)
/-- Unsigned division (R130). -/
def divU (w : Nat) (a b : BitVec w) : BitVec w := if b = 0 then BitVec.allOnes w else BitVec.ofNat w (a.toNat / b.toNat)
/-- Signed remainder with the sign of a (R130). -/
def remS (w : Nat) (a b : BitVec w) : BitVec w := if b = 0 then a else BitVec.ofInt w (a.toInt.tmod b.toInt)
/-- Unsigned remainder (R130). -/
def remU (w : Nat) (a b : BitVec w) : BitVec w := if b = 0 then a else BitVec.ofNat w (a.toNat % b.toNat)
/-- High half of the signed product. -/
def mulHS (w : Nat) (a b : BitVec w) : BitVec w := BitVec.ofInt w (a.toInt * b.toInt / 2 ^ w)
/-- High half of the unsigned product. -/
def mulHU (w : Nat) (a b : BitVec w) : BitVec w := BitVec.ofNat w (a.toNat * b.toNat / 2 ^ w)
/-- The lesser of two signed numbers. -/
def minS (w : Nat) (a b : BitVec w) : BitVec w := if b.toInt < a.toInt then b else a
/-- The greater of two signed numbers. -/
def maxS (w : Nat) (a b : BitVec w) : BitVec w := if a.toInt < b.toInt then b else a
/-- The lesser of two unsigned numbers. -/
def minU (w : Nat) (a b : BitVec w) : BitVec w := if b.toNat < a.toNat then b else a
/-- The greater of two unsigned numbers. -/
def maxU (w : Nat) (a b : BitVec w) : BitVec w := if a.toNat < b.toNat then b else a

/-- sadd. -/
def execSadd (d a b : SReg) (s : State) : Out := scalar3 0 1 d a b (· + ·) s
/-- ssub. -/
def execSsub (d a b : SReg) (s : State) : Out := scalar3 1 1 d a b (· - ·) s
/-- smul. -/
def execSmul (d a b : SReg) (s : State) : Out := scalar3 2 2 d a b (· * ·) s
/-- smulh. -/
def execSmulh (d a b : SReg) (s : State) : Out := scalar3 3 2 d a b (mulHS 64) s
/-- smulhn. -/
def execSmulhn (d a b : SReg) (s : State) : Out := scalar3 4 2 d a b (mulHU 64) s
/-- sdiv. -/
def execSdiv (d a b : SReg) (s : State) : Out := scalar3 5 4 d a b (divS 64) s
/-- sdivn. -/
def execSdivn (d a b : SReg) (s : State) : Out := scalar3 6 4 d a b (divU 64) s
/-- srem. -/
def execSrem (d a b : SReg) (s : State) : Out := scalar3 7 4 d a b (remS 64) s
/-- sremn. -/
def execSremn (d a b : SReg) (s : State) : Out := scalar3 8 4 d a b (remU 64) s
/-- sand. -/
def execSand (d a b : SReg) (s : State) : Out := scalar3 9 1 d a b (· &&& ·) s
/-- sor. -/
def execSor (d a b : SReg) (s : State) : Out := scalar3 10 1 d a b (· ||| ·) s
/-- sxor. -/
def execSxor (d a b : SReg) (s : State) : Out := scalar3 11 1 d a b (· ^^^ ·) s
/-- sandn. -/
def execSandn (d a b : SReg) (s : State) : Out := scalar3 12 1 d a b (fun x y => x &&& ~~~ y) s
/-- sshl. -/
def execSshl (d a b : SReg) (s : State) : Out := scalar3 13 1 d a b (fun x y => x <<< (y.toNat % 64)) s
/-- sshr. -/
def execSshr (d a b : SReg) (s : State) : Out := scalar3 14 1 d a b (fun x y => x >>> (y.toNat % 64)) s
/-- ssra. -/
def execSsra (d a b : SReg) (s : State) : Out := scalar3 15 1 d a b (fun x y => x.sshiftRight (y.toNat % 64)) s
/-- srol. -/
def execSrol (d a b : SReg) (s : State) : Out := scalar3 16 1 d a b (fun x y => x.rotateLeft (y.toNat % 64)) s
/-- smin. -/
def execSmin (d a b : SReg) (s : State) : Out := scalar3 17 2 d a b (minS 64) s
/-- smax. -/
def execSmax (d a b : SReg) (s : State) : Out := scalar3 18 2 d a b (maxS 64) s
/-- sminn. -/
def execSminn (d a b : SReg) (s : State) : Out := scalar3 19 2 d a b (minU 64) s
/-- smaxn. -/
def execSmaxn (d a b : SReg) (s : State) : Out := scalar3 20 2 d a b (maxU 64) s
/-- sceq. -/
def execSceq (d a b : SReg) (s : State) : Out := scalar3 21 2 d a b (fun x y => b64 (x = y)) s
/-- scne. -/
def execScne (d a b : SReg) (s : State) : Out := scalar3 22 2 d a b (fun x y => b64 (x ≠ y)) s
/-- sclt. -/
def execSclt (d a b : SReg) (s : State) : Out := scalar3 23 2 d a b (fun x y => b64 (x.toInt < y.toInt)) s
/-- scle. -/
def execScle (d a b : SReg) (s : State) : Out := scalar3 24 2 d a b (fun x y => b64 (x.toInt ≤ y.toInt)) s
/-- scltn. -/
def execScltn (d a b : SReg) (s : State) : Out := scalar3 25 2 d a b (fun x y => b64 (x.toNat < y.toNat)) s
/-- sclen. -/
def execSclen (d a b : SReg) (s : State) : Out := scalar3 26 2 d a b (fun x y => b64 (x.toNat ≤ y.toNat)) s

/-- ssel (R130): the condition is s[E] with a Y prefix, else the prior s[D]. -/
def execSsel (d a b : SReg) (e : Option SReg) (s : State) : Out :=
  let c := e.getD d
  issue { maj := 3, cls := 1, base := wordA 3 d.val a.val b.val 27, sr := [a.val, b.val, c.val], sw := [d.val],
          pfx := { x := none, y := e.map fun r => { e := Fin.ofNat 128 r.val, imm := 0 } }, str := true }
    (fun _ _ _ g g1 => .grp (g1.writeS d.val (if g.readS c.val ≠ 0 then g.readS a.val else g.readS b.val))) s

/-! ### Major 4 (R131) -/

/-- An immediate unit: s[D] := f s[A]. -/
def scalar4 (fn cls : Nat) (d a : SReg) (i : BitVec 10) (f : DWord → DWord) (s : State) : Out :=
  issue { maj := 4, cls := cls, base := wordI 4 d.val a.val fn i, sr := [a.val], sw := [d.val], str := true }
    (fun _ _ _ g g1 => .grp (g1.writeS d.val (f (g.readS a.val)))) s

/-- saddi. -/
def execSaddi (d a : SReg) (i : BitVec 10) (s : State) : Out := scalar4 0 1 d a i (· + i.signExtend 64) s
/-- sandi. -/
def execSandi (d a : SReg) (i : BitVec 10) (s : State) : Out := scalar4 1 1 d a i (· &&& i.signExtend 64) s
/-- sori. -/
def execSori (d a : SReg) (i : BitVec 10) (s : State) : Out := scalar4 2 1 d a i (· ||| i.signExtend 64) s
/-- sxori. -/
def execSxori (d a : SReg) (i : BitVec 10) (s : State) : Out := scalar4 3 1 d a i (· ^^^ i.signExtend 64) s
/-- sshli. -/
def execSshli (d a : SReg) (i : BitVec 10) (s : State) : Out := scalar4 4 1 d a i (· <<< (i.toNat % 64)) s
/-- sshri. -/
def execSshri (d a : SReg) (i : BitVec 10) (s : State) : Out := scalar4 5 1 d a i (· >>> (i.toNat % 64)) s
/-- ssrai. -/
def execSsrai (d a : SReg) (i : BitVec 10) (s : State) : Out := scalar4 6 1 d a i (fun x => x.sshiftRight (i.toNat % 64)) s
/-- sclti. -/
def execSclti (d a : SReg) (i : BitVec 10) (s : State) : Out := scalar4 7 2 d a i (fun x => b64 (x.toInt < i.toInt)) s

/-! ### Majors 5 to 7 (R132, R133) -/

/-- sli. -/
def execSli (d : SReg) (i : BitVec 20) (s : State) : Out :=
  issue { maj := 5, cls := 1, base := wordU 5 d.val i, sw := [d.val], str := true }
    (fun _ _ _ _ g1 => .grp (g1.writeS d.val (i.signExtend 64))) s

/-- slih. -/
def execSlih (d : SReg) (i : BitVec 20) (s : State) : Out :=
  issue { maj := 6, cls := 1, base := wordU 6 d.val i, sr := [d.val], sw := [d.val], str := true }
    (fun _ _ _ g g1 => .grp (g1.writeS d.val (g.readS d.val <<< 20 + i.setWidth 64))) s

/-- sadpc. -/
def execSadpc (d : SReg) (i : BitVec 20) (s : State) : Out :=
  issue { maj := 7, cls := 1, base := wordU 7 d.val i, sw := [d.val], str := true }
    (fun _ _ _ g g1 => .grp (g1.writeS d.val (g.pc + BitVec.ofInt 64 (4 * i.toInt)))) s

/-! ### Special registers (R125-R128) -/

/-- CNTS (R126). -/
def cntsOf (g : Group) : DWord :=
  BitVec.ofNat 64 (g.counter .ld % 256 + g.counter .st % 256 * 2 ^ 8 + g.counter .tl % 256 * 2 ^ 16 +
    g.counter .mx % 256 * 2 ^ 24)

/-- TKS (R126). -/
def tksOf (w : Workgroup) : DWord :=
  BitVec.ofNat 64 (natOfBits 8 (fun n => !bitOf w.tokUsed n || w.tok.getD n 0 ≤ w.ctl) + w.tokUsed % 256 * 256)

/-- QST (R98). -/
def qstOf (g : Group) : DWord :=
  BitVec.ofNat 64 (natOfBits 16 (fun n => !(g.queues.getD n {}).ents.isEmpty) +
    natOfBits 16 (fun n => (g.queues.getD n {}).depth ≠ 0 && (g.queues.getD n {}).ents.length = (g.queues.getD n {}).depth)
      * 2 ^ 16 + g.qtr % 16 * 2 ^ 32 + g.qwh % 4 * 2 ^ 36)

/-- ALLOT (R91). -/
def allotOf (g : Group) : DWord :=
  BitVec.ofNat 64 (g.n + g.qtot * 2 ^ 11 + g.low * 2 ^ 22 + g.high * 2 ^ 36)

/-- The special register `r` as group `g` of the machine reads it (R125). -/
def readSpecial (s : State) (g : Group) (r : Nat) : DWord :=
  let w := (s.wg? g.wg).getD {}
  let c := (s.settleCore g.core).core g.core
  match r with
  | 0x00 => g.exm
  | 0x01 => g.mode
  | 0x02 => g.fmt
  | 0x03 => BitVec.ofNat 64 g.wb
  | 0x04 => allotOf g
  | 0x05 => BitVec.ofNat 64 g.slot
  | 0x06 => g.wgid
  | 0x07 => BitVec.ofNat 64 (g.core + s.fab.dev * 256)
  | 0x10 => BitVec.ofNat 64 (c.cyc)
  | 0x11 => BitVec.ofNat 64 s.dev.tns
  | 0x12 => BitVec.ofNat 64 (c.cls.getD 0 0)
  | 0x13 => BitVec.ofNat 64 (c.cls.getD 1 0)
  | 0x14 => BitVec.ofNat 64 (c.cls.getD 2 0)
  | 0x15 => BitVec.ofNat 64 (c.cls.getD 3 0)
  | 0x16 => cntsOf g
  | 0x17 => tksOf w
  | 0x18 => qstOf g
  | 0x19 => g.trapc
  | 0x1A => g.trapa
  | 0x1B => g.trappc
  | 0x1C => g.trapi
  | 0x1D => g.prm
  | 0x1E => b64 (s.sysCtx g.ctx)
  | 0x1F => BitVec.ofNat 64 (s.ctx g.ctx).diem
  | 0x20 => BitVec.ofNat 64 (s.ctx g.ctx).enrg
  | 0x21 => BitVec.ofNat 64 (w.prio + w.eprio * 8)
  | 0x22 => g.spc.bits
  | n => if 8 ≤ n ∧ n < 16 then regGet g.lvc (n - 8) else 0

/-- The special register `r` as Stratus reads it (R394): its cycles are those of a 1.0 GHz clock. -/
def readSpecialStr (s : State) (g : Group) (r : Nat) : DWord :=
  match r with
  | 0x00 => allOnes
  | 0x01 => g.mode
  | 0x02 => g.fmt
  | 0x10 => BitVec.ofNat 64 (s.dev.tns - s.dev.skip)
  | 0x11 => BitVec.ofNat 64 s.dev.tns
  | 0x12 => BitVec.ofNat 64 (s.dev.tns - s.dev.skip)
  | 0x19 => g.trapc
  | 0x1A => g.trapa
  | 0x1B => g.trappc
  | 0x1C => g.trapi
  | 0x1E => 1
  | _ => 0

/-- mfs (R127). TKS observes CTL and the tokens, so that it acquires the copies' writes: the core's L1 is emptied (R252, R258). -/
def execMfs (d : SReg) (r : SpecReg) (s : State) : Out :=
  issue2 { maj := 8, cls := 1, base := wordA 8 d.val r.val 0 0, sw := [d.val], str := true }
    (fun s k _ g g1 =>
      let g2 := g1.writeS d.val (readSpecial s g r.val)
      if r.val = 0x17 then .st ((s.l1Clear g.core).setGrp k g2) else .grp g2)
    (fun s _ _ g g1 => .grp (g1.writeS d.val (readSpecialStr s g r.val))) s

/-- mts to WB (R128). -/
def mtsWb (u : Uop) (g g1 : Group) (v : DWord) : Eff :=
  if v.toNat % 8 ≠ 0 || 2 ^ 14 ≤ v.toNat then .trap (u.preciseTrap g 4 v)
  else if !wbOk v.toNat then spfTrap u g
  else .grp (g1.setWb v.toNat)

/-- mts to ENRG or GPRIO (R58, R128): PRIV without system privilege. -/
def mtsPriv (u : Uop) (s : State) (k : Nat) (g g1 : Group) (r : Nat) (v : DWord) : Eff :=
  if !s.sysCtx g.ctx then .trap (u.preciseTrap g 2 0)
  else if r = 0x20 then .st ((s.setGrp k g1).modCtx g.ctx fun c => { c with enrg := v.toNat, enrgPj := 0 })
  else .st ((s.setGrp k g1).modWg g.wg fun w => { w with prio := v.toNat % 8, eprio := v.toNat % 8 })

/-- mts (R125, R128). -/
def mtsEff (u : Uop) (r : Nat) (a : SReg) : Effect := fun s k _ g g1 =>
  let v := g.readS a.val
  match r with
  | 0x00 => .grp { g1 with exm := v }
  | 0x01 => .grp { g1 with mode := mtsMode v }
  | 0x02 => .grp { g1 with fmt := mtsFmt v }
  | 0x03 => mtsWb u g g1 v
  | 0x19 => .grp { g1 with trapc := v &&& 0x1FF }
  | 0x1A => .grp { g1 with trapa := v }
  | 0x1B => .grp { g1 with trappc := v }
  | 0x1C => .grp { g1 with trapi := v }
  | 0x1F => .trap (u.preciseTrap g 2 0)
  | 0x20 => mtsPriv u s k g g1 r v
  | 0x21 => mtsPriv u s k g g1 r v
  | _ => .trap (u.preciseTrap g 1 0)

/-- mts on Stratus (R394). -/
def mtsStr (u : Uop) (r : Nat) (a : SReg) : Effect := fun _ _ _ g g1 =>
  let v := g.readS a.val
  match r with
  | 0x01 => .grp { g1 with mode := mtsMode v }
  | 0x02 => .grp { g1 with fmt := mtsFmt v }
  | 0x19 => .grp { g1 with trapc := v &&& 0x1FF }
  | 0x1A => .grp { g1 with trapa := v }
  | 0x1B => .grp { g1 with trappc := v }
  | 0x1C => .grp { g1 with trapi := v }
  | _ => .trap (u.preciseTrap g 1 0)

/-- mts; to WB it traps HND in handler mode (R106). -/
def execMts (r : SpecReg) (a : SReg) (s : State) : Out :=
  let u : Uop := { maj := 8, cls := 1, base := wordA 8 r.val a.val 0 1, sr := [a.val], hnd := r.val = 3, str := true }
  issue2 u (mtsEff u r.val a) (mtsStr u r.val a) s

/-! ### Bits and lanes (R135) -/

/-- sext: lane s[B][5:0] of a vector source, zero-extended. -/
def execSext (d : SReg) (a : VFld) (b : SReg) (s : State) : Out :=
  issue { maj := 8, cls := 1, base := wordA 8 d.val a.val b.val 2, vr := [a], sr := [b.val], sw := [d.val] }
    (fun _ _ _ g g1 => .grp (g1.writeS d.val ((g.src a ((g.readS b.val).toNat % 64)).setWidth 64))) s

/-- sins: lane s[B][5:0] of a vector register := s[A][31:0]. -/
def execSins (d : VFld) (a b : SReg) (s : State) : Out :=
  issue { maj := 8, cls := 1, base := wordA 8 d.val a.val b.val 3, vw := [d], sr := [a.val, b.val] }
    (fun _ _ _ g g1 =>
      .grp (g1.writeDst (g.vDst d) (maskOf fun i => i = (g.readS b.val).toNat % 64) fun _ => (g.readS a.val).setWidth 32)) s

/-- A one-source unit of major 8. -/
def scalar8 (fn : Nat) (d a : SReg) (f : DWord → DWord) (s : State) : Out :=
  issue { maj := 8, cls := 1, base := wordA 8 d.val a.val 0 fn, sr := [a.val], sw := [d.val], str := true }
    (fun _ _ _ g g1 => .grp (g1.writeS d.val (f (g.readS a.val)))) s

/-- Number of ones. -/
def popc {w : Nat} (x : BitVec w) : Nat := ((List.range w).filter fun i => x.getLsbD i).length
/-- Zeros above the highest one; the width if there is none. -/
def clzN {w : Nat} (x : BitVec w) : Nat := w - bitLen x.toNat
/-- Zeros below the lowest one; the width if there is none. -/
def ctzN {w : Nat} (x : BitVec w) : Nat := ((List.range w).find? fun i => x.getLsbD i).getD w
/-- Bits in reverse order. -/
def brev {w : Nat} (x : BitVec w) : BitVec w := BitVec.ofNat w (natOfBits w fun k => x.getLsbD (w - 1 - k))

/-- spopc. -/
def execSpopc (d a : SReg) (s : State) : Out := scalar8 4 d a (fun x => BitVec.ofNat 64 (popc x)) s
/-- sclz. -/
def execSclz (d a : SReg) (s : State) : Out := scalar8 5 d a (fun x => BitVec.ofNat 64 (clzN x)) s
/-- sctz. -/
def execSctz (d a : SReg) (s : State) : Out := scalar8 6 d a (fun x => BitVec.ofNat 64 (ctzN x)) s
/-- sbrev. -/
def execSbrev (d a : SReg) (s : State) : Out := scalar8 7 d a brev s

/-- sfirst. -/
def execSfirst (d : SReg) (a : PReg) (s : State) : Out :=
  issue { maj := 8, cls := 1, base := wordA 8 d.val a.val 0 8, pr := [a.val], sw := [d.val], str := true }
    (fun _ _ _ g g1 => .grp (g1.writeS d.val (BitVec.ofNat 64 (ctzN (g.readP a.val &&& g.exm))))) s

/-- sballot. -/
def execSballot (d : SReg) (a : PReg) (s : State) : Out :=
  issue { maj := 8, cls := 1, base := wordA 8 d.val a.val 0 9, pr := [a.val], sw := [d.val], str := true }
    (fun _ _ _ g g1 => .grp (g1.writeS d.val (g.readP a.val &&& g.exm))) s

/-- smask. -/
def execSmask (d : PReg) (a : SReg) (s : State) : Out :=
  issue { maj := 8, cls := 1, base := wordA 8 d.val a.val 0 10, sr := [a.val], pw := [d.val], str := true }
    (fun _ _ _ g g1 => .grp (g1.writeP d.val (g.readS a.val))) s

end Sys2Proof.Machine
end

