-- ==== Sys2Proof/Machine/VecInt.lean ====
section
/-! DEFINITION. Majors 9 and 10: integer vector arithmetic (R136-R143). -/

namespace Sys2Proof.Machine

/-- A vector unit of the A format. -/
def uV (maj fn cls : Nat) (x : Pfx) (d a b : Nat) : Uop :=
  { maj := maj, cls := cls, base := wordA maj d a b fn, pfx := x, peek := x.peek }

/-- The third source of a three-source unit: Y.E, or D without a Y prefix (R38). -/
def third (x : Pfx) (d : VFld) : VFld := (x.y.map YPre.e).getD d

/-- vD := f vA vB in the active lanes. -/
def lane2 (fn cls : Nat) (x : Pfx) (d a b : VFld) (f : Word → Word → Word) (s : State) : Out :=
  issue { uV 9 fn cls x d.val a.val b.val with vr := [a, b], vw := [d] }
    (fun _ _ m g g1 => .grp (g1.writeF d m fun i => f (xbar x.xa (g.src a) i) (xbar x.xb (g.src b) i))) s

/-- vD := f vA in the active lanes. -/
def lane1 (fn cls : Nat) (x : Pfx) (d a : VFld) (f : Word → Word) (s : State) : Out :=
  issue { uV 9 fn cls x d.val a.val 0 with vr := [a], vw := [d] }
    (fun _ _ m g g1 => .grp (g1.writeF d m fun i => f (xbar x.xa (g.src a) i))) s

/-- vD := f vA vB vC in the active lanes. -/
def lane3 (fn cls : Nat) (x : Pfx) (d a b : VFld) (f : Word → Word → Word → Word) (s : State) : Out :=
  issue { uV 9 fn cls x d.val a.val b.val with vr := [a, b, third x d], vw := [d] }
    (fun _ _ m g g1 => .grp (g1.writeF d m fun i =>
      f (xbar x.xa (g.src a) i) (xbar x.xb (g.src b) i) (g.src (third x d) i))) s

/-- Clamp an integer to the signed 32-bit range. -/
def sat32 (v : Int) : Word := BitVec.ofInt 32 (max (-2147483648) (min 2147483647 v))

/-- The carry-less product (R141). -/
def clmul (a b : Word) : DWord :=
  (List.range 32).foldl (fun acc k => if b.getLsbD k then acc ^^^ (a.setWidth 64 <<< k) else acc) 0

/-- Byte k of a word. -/
def byteOf (a : Word) (k : Nat) : Byte := (a >>> (8 * k)).setWidth 8

/-- Sum of four byte products. -/
def dot4 (f : Byte → Int) (a b c : Word) : Word :=
  BitVec.ofInt 32 (c.toNat + f (byteOf a 0) * f (byteOf b 0) + f (byteOf a 1) * f (byteOf b 1) +
    f (byteOf a 2) * f (byteOf b 2) + f (byteOf a 3) * f (byteOf b 3))

/-- vbfe's field length (R141). -/
def bfLen (b : Word) : Nat := min (b.toNat / 256 % 64) 32

/-- vbfe (R141). -/
def bfExtract (a b : Word) : Word := (a >>> (b.toNat % 32)) &&& BitVec.ofNat 32 (2 ^ bfLen b - 1)
/-- vbfi (R141). -/
def bfInsert (a b c : Word) : Word :=
  let m : Word := BitVec.ofNat 32 (2 ^ bfLen b - 1) <<< (b.toNat % 32)
  (c &&& ~~~ m) ||| ((a <<< (b.toNat % 32)) &&& m)

/-- vadd. -/
def execVadd (x : Pfx) (d a b : VFld) (s : State) : Out := lane2 0 1 x d a b (· + ·) s
/-- vsub. -/
def execVsub (x : Pfx) (d a b : VFld) (s : State) : Out := lane2 1 1 x d a b (· - ·) s
/-- vmul. -/
def execVmul (x : Pfx) (d a b : VFld) (s : State) : Out := lane2 2 2 x d a b (· * ·) s
/-- vmulh. -/
def execVmulh (x : Pfx) (d a b : VFld) (s : State) : Out := lane2 3 2 x d a b (mulHS 32) s
/-- vmulhn. -/
def execVmulhn (x : Pfx) (d a b : VFld) (s : State) : Out := lane2 4 2 x d a b (mulHU 32) s
/-- vmad. -/
def execVmad (x : Pfx) (d a b : VFld) (s : State) : Out := lane3 5 2 x d a b (fun p q r => p * q + r) s
/-- vdiv. -/
def execVdiv (x : Pfx) (d a b : VFld) (s : State) : Out := lane2 6 4 x d a b (divS 32) s
/-- vdivn. -/
def execVdivn (x : Pfx) (d a b : VFld) (s : State) : Out := lane2 7 4 x d a b (divU 32) s
/-- vrem. -/
def execVrem (x : Pfx) (d a b : VFld) (s : State) : Out := lane2 8 4 x d a b (remS 32) s
/-- vremn. -/
def execVremn (x : Pfx) (d a b : VFld) (s : State) : Out := lane2 9 4 x d a b (remU 32) s
/-- vmin. -/
def execVmin (x : Pfx) (d a b : VFld) (s : State) : Out := lane2 10 2 x d a b (minS 32) s
/-- vmax. -/
def execVmax (x : Pfx) (d a b : VFld) (s : State) : Out := lane2 11 2 x d a b (maxS 32) s
/-- vminn. -/
def execVminn (x : Pfx) (d a b : VFld) (s : State) : Out := lane2 12 2 x d a b (minU 32) s
/-- vmaxn. -/
def execVmaxn (x : Pfx) (d a b : VFld) (s : State) : Out := lane2 13 2 x d a b (maxU 32) s
/-- vabs. -/
def execVabs (x : Pfx) (d a : VFld) (s : State) : Out := lane1 14 1 x d a (fun p => BitVec.ofNat 32 p.toInt.natAbs) s
/-- vand. -/
def execVand (x : Pfx) (d a b : VFld) (s : State) : Out := lane2 15 1 x d a b (· &&& ·) s
/-- vor. -/
def execVor (x : Pfx) (d a b : VFld) (s : State) : Out := lane2 16 1 x d a b (· ||| ·) s
/-- vxor. -/
def execVxor (x : Pfx) (d a b : VFld) (s : State) : Out := lane2 17 1 x d a b (· ^^^ ·) s
/-- vandn. -/
def execVandn (x : Pfx) (d a b : VFld) (s : State) : Out := lane2 18 1 x d a b (fun p q => p &&& ~~~ q) s
/-- vshl. -/
def execVshl (x : Pfx) (d a b : VFld) (s : State) : Out := lane2 19 1 x d a b (fun p q => p <<< (q.toNat % 32)) s
/-- vshr. -/
def execVshr (x : Pfx) (d a b : VFld) (s : State) : Out := lane2 20 1 x d a b (fun p q => p >>> (q.toNat % 32)) s
/-- vsra. -/
def execVsra (x : Pfx) (d a b : VFld) (s : State) : Out :=
  lane2 21 1 x d a b (fun p q => p.sshiftRight (q.toNat % 32)) s
/-- vrol. -/
def execVrol (x : Pfx) (d a b : VFld) (s : State) : Out := lane2 22 1 x d a b (fun p q => p.rotateLeft (q.toNat % 32)) s
/-- vfsh. -/
def execVfsh (x : Pfx) (d a b : VFld) (s : State) : Out :=
  lane3 23 1 x d a b (fun p q r => ((p ++ r) >>> (q.toNat % 32)).setWidth 32) s
/-- vpopc. -/
def execVpopc (x : Pfx) (d a : VFld) (s : State) : Out := lane1 24 1 x d a (fun p => BitVec.ofNat 32 (popc p)) s
/-- vclz. -/
def execVclz (x : Pfx) (d a : VFld) (s : State) : Out := lane1 25 1 x d a (fun p => BitVec.ofNat 32 (clzN p)) s
/-- vbrev. -/
def execVbrev (x : Pfx) (d a : VFld) (s : State) : Out := lane1 26 1 x d a brev s
/-- vbfe. -/
def execVbfe (x : Pfx) (d a b : VFld) (s : State) : Out := lane2 27 1 x d a b bfExtract s
/-- vbfi. -/
def execVbfi (x : Pfx) (d a b : VFld) (s : State) : Out := lane3 28 1 x d a b bfInsert s
/-- vclmul. -/
def execVclmul (x : Pfx) (d a b : VFld) (s : State) : Out := lane2 29 3 x d a b (fun p q => (clmul p q).setWidth 32) s
/-- vclmulh. -/
def execVclmulh (x : Pfx) (d a b : VFld) (s : State) : Out :=
  lane2 30 3 x d a b (fun p q => (clmul p q >>> 32).setWidth 32) s
/-- vsadd. -/
def execVsadd (x : Pfx) (d a b : VFld) (s : State) : Out := lane2 31 1 x d a b (fun p q => sat32 (p.toInt + q.toInt)) s
/-- vssub. -/
def execVssub (x : Pfx) (d a b : VFld) (s : State) : Out := lane2 32 1 x d a b (fun p q => sat32 (p.toInt - q.toInt)) s

/-- A unit on 64-bit pairs (R142). -/
def lanePair (fn : Nat) (x : Pfx) (d a b : VFld) (f : DWord → DWord → DWord) (s : State) : Out :=
  issue { uV 9 fn 1 x d.val a.val b.val with vr2 := [a, b], vw := [d, d + 1] }
    (fun _ _ m g g1 =>
      let z (i : Nat) : DWord := f (g.src64 a x.xa i) (g.src64 b x.xb i)
      .grp ((g1.writeF d m fun i => (z i).setWidth 32).writeF (d + 1) m fun i => (z i >>> 32).setWidth 32)) s

/-- vadd64. -/
def execVadd64 (x : Pfx) (d a b : VFld) (s : State) : Out := lanePair 33 x d a b (· + ·) s
/-- vsub64. -/
def execVsub64 (x : Pfx) (d a b : VFld) (s : State) : Out := lanePair 34 x d a b (· - ·) s
/-- vmov. -/
def execVmov (x : Pfx) (d a : VFld) (s : State) : Out := lane1 35 1 x d a id s
/-- vdot4. -/
def execVdot4 (x : Pfx) (d a b : VFld) (s : State) : Out := lane3 36 2 x d a b (dot4 BitVec.toInt) s
/-- vdot4n. -/
def execVdot4n (x : Pfx) (d a b : VFld) (s : State) : Out := lane3 37 2 x d a b (dot4 fun v => (v.toNat : Int)) s

/-! ### Major 10 (R143) -/

/-- vD := f vA in the active lanes, with an immediate. -/
def lane10 (fn cls : Nat) (x : Pfx) (d a : VFld) (i : BitVec 10) (f : Word → Word) (s : State) : Out :=
  issue { maj := 10, cls := cls, base := wordI 10 d.val a.val fn i, pfx := x, peek := x.peek, vr := [a], vw := [d] }
    (fun _ _ m g g1 => .grp (g1.writeF d m fun j => f (xbar x.xa (g.src a) j))) s

/-- vaddi. -/
def execVaddi (x : Pfx) (d a : VFld) (i : BitVec 10) (s : State) : Out := lane10 0 1 x d a i (· + i.signExtend 32) s
/-- vandi. -/
def execVandi (x : Pfx) (d a : VFld) (i : BitVec 10) (s : State) : Out := lane10 1 1 x d a i (· &&& i.signExtend 32) s
/-- vori. -/
def execVori (x : Pfx) (d a : VFld) (i : BitVec 10) (s : State) : Out := lane10 2 1 x d a i (· ||| i.signExtend 32) s
/-- vxori. -/
def execVxori (x : Pfx) (d a : VFld) (i : BitVec 10) (s : State) : Out := lane10 3 1 x d a i (· ^^^ i.signExtend 32) s
/-- vshli. -/
def execVshli (x : Pfx) (d a : VFld) (i : BitVec 10) (s : State) : Out := lane10 4 1 x d a i (· <<< (i.toNat % 32)) s
/-- vshri. -/
def execVshri (x : Pfx) (d a : VFld) (i : BitVec 10) (s : State) : Out := lane10 5 1 x d a i (· >>> (i.toNat % 32)) s
/-- vsrai. -/
def execVsrai (x : Pfx) (d a : VFld) (i : BitVec 10) (s : State) : Out :=
  lane10 6 1 x d a i (fun p => p.sshiftRight (i.toNat % 32)) s
/-- vmuli. -/
def execVmuli (x : Pfx) (d a : VFld) (i : BitVec 10) (s : State) : Out := lane10 7 2 x d a i (· * i.signExtend 32) s

end Sys2Proof.Machine
end

