-- ==== Sys2Proof/Machine/VecFloat.lean ====
section
/-! DEFINITION. Majors 11, 12 and 14: float arithmetic, compares and predicates, special functions (R144-R151,
R157-R159). -/

namespace Sys2Proof.Machine

/-- The results of the active lanes. -/
def laneResults (m : DWord) (f : Nat → FRes) : List FRes := laneIdx.map fun i => if laneBit m i then f i else (0, 0)
/-- The union of the results' flags. -/
def orFlags (l : List FRes) : Nat := l.foldl (fun acc r => Nat.lor acc r.2) 0
/-- A result's bits as a lane. -/
def resLane (l : List FRes) (i : Nat) : Word := BitVec.ofNat 32 (l.getD i (0, 0)).1

/-- vD := results in the active lanes, flags raised (R136, R144). -/
def fWrite (d : VFld) (m : DWord) (g1 : Group) (f : Nat → FRes) : Eff :=
  let l := laneResults m f
  .grp ((g1.writeF d m (resLane l)).raise (orFlags l))

/-- A lane of a source through its crossbar, as a number. -/
def srcN (g : Group) (a : VFld) (x : Fin 512) (i : Nat) : Nat := (xbar x (g.src a) i).toNat

/-- A two-source float unit. -/
def fl2 (maj fn cls : Nat) (x : Pfx) (d a b : VFld) (f : FMode → Nat → Nat → Nat → FRes) (s : State) : Out :=
  issue { uV maj fn cls x d.val a.val b.val with vr := [a, b], vw := [d] }
    (fun _ _ m g g1 => fWrite d m g1 fun i => f (g.fmode x.rm) i (srcN g a x.xa i) (srcN g b x.xb i)) s

/-- A one-source float unit. -/
def fl1 (maj fn cls : Nat) (x : Pfx) (d a : VFld) (f : FMode → Nat → Nat → FRes) (s : State) : Out :=
  issue { uV maj fn cls x d.val a.val 0 with vr := [a], vw := [d] }
    (fun _ _ m g g1 => fWrite d m g1 fun i => f (g.fmode x.rm) i (srcN g a x.xa i)) s

/-- A three-source float unit. -/
def fl3 (fn cls : Nat) (x : Pfx) (d a b : VFld) (f : FMode → Nat → Nat → Nat → Nat → FRes) (s : State) : Out :=
  issue { uV 11 fn cls x d.val a.val b.val with vr := [a, b, third x d], vw := [d] }
    (fun _ _ m g g1 => fWrite d m g1 fun i =>
      f (g.fmode x.rm) i (srcN g a x.xa i) (srcN g b x.xb i) (g.src (third x d) i).toNat) s

/-- fadd. -/
def execFadd (x : Pfx) (d a b : VFld) (s : State) : Out := fl2 11 0 2 x d a b fAdd s
/-- fsub. -/
def execFsub (x : Pfx) (d a b : VFld) (s : State) : Out := fl2 11 1 2 x d a b fSub s
/-- fmul. -/
def execFmul (x : Pfx) (d a b : VFld) (s : State) : Out := fl2 11 2 2 x d a b fMul s
/-- ffma. -/
def execFfma (x : Pfx) (d a b : VFld) (s : State) : Out := fl3 3 2 x d a b (fun c => fFma c false false) s
/-- ffms. -/
def execFfms (x : Pfx) (d a b : VFld) (s : State) : Out := fl3 4 2 x d a b (fun c => fFma c false true) s
/-- fnma. -/
def execFnma (x : Pfx) (d a b : VFld) (s : State) : Out := fl3 5 2 x d a b (fun c => fFma c true false) s
/-- fmin. -/
def execFmin (x : Pfx) (d a b : VFld) (s : State) : Out :=
  fl2 11 6 2 x d a b (fun c _ p q => fMinMax c.ftz false false p q) s
/-- fmax. -/
def execFmax (x : Pfx) (d a b : VFld) (s : State) : Out :=
  fl2 11 7 2 x d a b (fun c _ p q => fMinMax c.ftz true false p q) s
/-- fminm. -/
def execFminm (x : Pfx) (d a b : VFld) (s : State) : Out :=
  fl2 11 8 2 x d a b (fun c _ p q => fMinMax c.ftz false true p q) s
/-- fmaxm. -/
def execFmaxm (x : Pfx) (d a b : VFld) (s : State) : Out :=
  fl2 11 9 2 x d a b (fun c _ p q => fMinMax c.ftz true true p q) s
/-- fabs. -/
def execFabs (x : Pfx) (d a : VFld) (s : State) : Out := fl1 11 10 1 x d a (fun _ _ p => (p % 2 ^ 31, 0)) s
/-- fneg. -/
def execFneg (x : Pfx) (d a : VFld) (s : State) : Out := fl1 11 11 1 x d a (fun _ _ p => (Nat.xor p (2 ^ 31), 0)) s
/-- fcpys. -/
def execFcpys (x : Pfx) (d a b : VFld) (s : State) : Out :=
  fl2 11 12 1 x d a b (fun _ _ p q => (p % 2 ^ 31 + q / 2 ^ 31 * 2 ^ 31, 0)) s
/-- fdot2. -/
def execFdot2 (x : Pfx) (d a b : VFld) (s : State) : Out := fl3 13 2 x d a b fDot2 s
/-- hadd2. -/
def execHadd2 (x : Pfx) (d a b : VFld) (s : State) : Out := fl2 11 14 2 x d a b (fun c i p q => hOp2 c 0 i p q 0) s
/-- hmul2. -/
def execHmul2 (x : Pfx) (d a b : VFld) (s : State) : Out := fl2 11 15 2 x d a b (fun c i p q => hOp2 c 1 i p q 0) s
/-- hfma2. -/
def execHfma2 (x : Pfx) (d a b : VFld) (s : State) : Out := fl3 16 2 x d a b (fun c i p q r => hOp2 c 2 i p q r) s
/-- fround. -/
def execFround (x : Pfx) (d a : VFld) (s : State) : Out := fl1 11 17 2 x d a fRound s
/-- fldexp. -/
def execFldexp (x : Pfx) (d a b : VFld) (s : State) : Out :=
  fl2 11 18 2 x d a b (fun c i p q => fLdexp c i p (sextNat 32 q)) s
/-- fgetexp. -/
def execFgetexp (x : Pfx) (d a : VFld) (s : State) : Out := fl1 11 19 2 x d a (fun c _ p => fGetexp c.ftz p) s

/-! ### Major 12 (R148-R151) -/

/-- An integer compare. -/
def cmpI (fn : Nat) (x : Pfx) (d : PReg) (a b : VFld) (f : Word → Word → Bool) (s : State) : Out :=
  issue { uV 12 fn 2 x d.val a.val b.val with vr := [a, b], pr := [d.val], pw := [d.val] }
    (fun _ _ m g g1 => .grp (g1.writePBits d.val m fun i => f (xbar x.xa (g.src a) i) (xbar x.xb (g.src b) i))) s

/-- A float compare (R149), its NV raised. -/
def cmpF (fn kind : Nat) (x : Pfx) (d : PReg) (a b : VFld) (s : State) : Out :=
  issue { uV 12 fn 2 x d.val a.val b.val with vr := [a, b], pr := [d.val], pw := [d.val] }
    (fun _ _ m g g1 =>
      let l := laneIdx.map fun i => fCmp g.modeFtz kind (srcN g a x.xa i) (srcN g b x.xb i)
      let fl := laneIdx.foldl (fun acc i => if laneBit m i then Nat.lor acc (l.getD i (false, 0)).2 else acc) 0
      .grp ((g1.writePBits d.val m fun i => (l.getD i (false, 0)).1).raise fl)) s

/-- A predicate logic unit. -/
def predOp (fn : Nat) (x : Pfx) (d a b : PReg) (f : DWord → DWord → DWord) (s : State) : Out :=
  issue { uV 12 fn 1 x d.val a.val b.val with pr := [a.val, b.val, d.val], pw := [d.val] }
    (fun _ _ m g g1 => .grp (g1.writePBits d.val m fun i => laneBit (f (g.readP a.val) (g.readP b.val)) i)) s

/-- vceq. -/
def execVceq (x : Pfx) (d : PReg) (a b : VFld) (s : State) : Out := cmpI 0 x d a b (fun p q => p = q) s
/-- vcne. -/
def execVcne (x : Pfx) (d : PReg) (a b : VFld) (s : State) : Out := cmpI 1 x d a b (fun p q => p ≠ q) s
/-- vclt. -/
def execVclt (x : Pfx) (d : PReg) (a b : VFld) (s : State) : Out := cmpI 2 x d a b (fun p q => p.toInt < q.toInt) s
/-- vcle. -/
def execVcle (x : Pfx) (d : PReg) (a b : VFld) (s : State) : Out := cmpI 3 x d a b (fun p q => p.toInt ≤ q.toInt) s
/-- vcltn. -/
def execVcltn (x : Pfx) (d : PReg) (a b : VFld) (s : State) : Out := cmpI 4 x d a b (fun p q => p.toNat < q.toNat) s
/-- vclen. -/
def execVclen (x : Pfx) (d : PReg) (a b : VFld) (s : State) : Out := cmpI 5 x d a b (fun p q => p.toNat ≤ q.toNat) s
/-- fceq. -/
def execFceq (x : Pfx) (d : PReg) (a b : VFld) (s : State) : Out := cmpF 6 0 x d a b s
/-- fcne. -/
def execFcne (x : Pfx) (d : PReg) (a b : VFld) (s : State) : Out := cmpF 7 1 x d a b s
/-- fclt. -/
def execFclt (x : Pfx) (d : PReg) (a b : VFld) (s : State) : Out := cmpF 8 2 x d a b s
/-- fcle. -/
def execFcle (x : Pfx) (d : PReg) (a b : VFld) (s : State) : Out := cmpF 9 3 x d a b s
/-- fcun. -/
def execFcun (x : Pfx) (d : PReg) (a b : VFld) (s : State) : Out := cmpF 10 4 x d a b s

/-- fcls (R150). -/
def execFcls (x : Pfx) (d : PReg) (a b : VFld) (s : State) : Out :=
  issue { uV 12 11 2 x d.val a.val b.val with vr := [a, b], pr := [d.val], pw := [d.val] }
    (fun _ _ m g g1 => .grp (g1.writePBits d.val m fun i =>
      bitOf (srcN g b x.xb i) (fClass g.modeFtz (srcN g a x.xa i)))) s

/-- pand. -/
def execPand (x : Pfx) (d a b : PReg) (s : State) : Out := predOp 12 x d a b (· &&& ·) s
/-- por. -/
def execPor (x : Pfx) (d a b : PReg) (s : State) : Out := predOp 13 x d a b (· ||| ·) s
/-- pxor. -/
def execPxor (x : Pfx) (d a b : PReg) (s : State) : Out := predOp 14 x d a b (· ^^^ ·) s
/-- pandn. -/
def execPandn (x : Pfx) (d a b : PReg) (s : State) : Out := predOp 15 x d a b (fun p q => p &&& ~~~ q) s
/-- pnot. -/
def execPnot (x : Pfx) (d a : PReg) (s : State) : Out := predOp 16 x d a 0 (fun p _ => ~~~ p) s

/-- vmrg (R151). -/
def execVmrg (x : Pfx) (d a : VFld) (b : PReg) (s : State) : Out :=
  issue { uV 12 17 1 x d.val a.val b.val with vr := [a], pr := [b.val], vw := [d] }
    (fun _ _ m g g1 => .grp (g1.writeF d (m &&& g.readP b.val) fun i => xbar x.xa (g.src a) i)) s

/-! ### Major 14 (R157-R159) -/

/-- frcp. -/
def execFrcp (x : Pfx) (d a : VFld) (s : State) : Out := fl1 14 0 3 x d a (fun c _ p => sRcp c.ftz p) s
/-- frsq. -/
def execFrsq (x : Pfx) (d a : VFld) (s : State) : Out := fl1 14 1 3 x d a (fun c _ p => sRsq c.ftz p) s
/-- fsqrt. -/
def execFsqrt (x : Pfx) (d a : VFld) (s : State) : Out := fl1 14 2 4 x d a fSqrt s
/-- fdiv. -/
def execFdiv (x : Pfx) (d a b : VFld) (s : State) : Out := fl2 14 3 4 x d a b fDiv s
/-- fexp2. -/
def execFexp2 (x : Pfx) (d a : VFld) (s : State) : Out := fl1 14 4 3 x d a (fun c _ p => sExp2 c.ftz p) s
/-- flog2. -/
def execFlog2 (x : Pfx) (d a : VFld) (s : State) : Out := fl1 14 5 3 x d a (fun c _ p => sLog2 c.ftz p) s
/-- fsin. -/
def execFsin (x : Pfx) (d a : VFld) (s : State) : Out := fl1 14 6 3 x d a (fun c _ p => sSin c.ftz p) s
/-- fcos. -/
def execFcos (x : Pfx) (d a : VFld) (s : State) : Out := fl1 14 7 3 x d a (fun c _ p => sCos c.ftz p) s
/-- ftanh. -/
def execFtanh (x : Pfx) (d a : VFld) (s : State) : Out := fl1 14 8 3 x d a (fun c _ p => sTanh c.ftz p) s
/-- fsig. -/
def execFsig (x : Pfx) (d a : VFld) (s : State) : Out := fl1 14 9 3 x d a (fun c _ p => sSig c.ftz p) s
/-- ferf. -/
def execFerf (x : Pfx) (d a : VFld) (s : State) : Out := fl1 14 10 3 x d a (fun c _ p => sErf c.ftz p) s

end Sys2Proof.Machine
end

