-- ==== Sys2Proof/Machine/VecLane.lean ====
section
/-! DEFINITION. Major 13: lane operations, reductions, scans (R152-R156). -/

namespace Sys2Proof.Machine

/-- vperm (R152). -/
def execVperm (x : Pfx) (d a b : VFld) (s : State) : Out :=
  issue { uV 13 0 1 x d.val a.val b.val with vr := [a, b], vw := [d] }
    (fun _ _ m g g1 => .grp (g1.writeF d m fun i => xbar x.xa (g.src a) (srcN g b x.xb i % 64))) s

/-- vlane (R152). -/
def execVlane (x : Pfx) (d a b : VFld) (s : State) : Out :=
  issue { uV 13 1 1 x d.val a.val b.val with vr := [a, b], vw := [d] }
    (fun _ _ m g g1 => .grp (g1.writeF d m fun i =>
      xbar x.xa (g.src a) i + BitVec.ofNat 32 i * xbar x.xb (g.src b) i)) s

/-- The values of A in the active lanes, in lane order. -/
def activeVals (g : Group) (m : DWord) (a : VFld) (x : Fin 512) : List Word :=
  (laneIdx.filter fun i => laneBit m i).map fun i => xbar x (g.src a) i

/-- An integer reduction (R153): identity, combination, and how the result widens. -/
def redInt (fn cls : Nat) (x : Pfx) (d : SReg) (a : VFld) (e : Word) (f : Word → Word → Word) (sx : Bool) (s : State) : Out :=
  issue { uV 13 fn cls x d.val a.val 0 with vr := [a], sw := [d.val] }
    (fun _ _ m g g1 =>
      let r := (activeVals g m a x.xa).foldl f e
      .grp (g1.writeS d.val (if sx then r.signExtend 64 else r.setWidth 64))) s

/-- vredadd. -/
def execVredadd (x : Pfx) (d : SReg) (a : VFld) (s : State) : Out := redInt 2 1 x d a 0 (· + ·) false s
/-- vredmin. -/
def execVredmin (x : Pfx) (d : SReg) (a : VFld) (s : State) : Out := redInt 3 2 x d a 0x7FFFFFFF (minS 32) true s
/-- vredmax. -/
def execVredmax (x : Pfx) (d : SReg) (a : VFld) (s : State) : Out := redInt 4 2 x d a 0x80000000 (maxS 32) true s
/-- vredminn. -/
def execVredminn (x : Pfx) (d : SReg) (a : VFld) (s : State) : Out := redInt 5 2 x d a 0xFFFFFFFF (minU 32) false s
/-- vredmaxn. -/
def execVredmaxn (x : Pfx) (d : SReg) (a : VFld) (s : State) : Out := redInt 6 2 x d a 0 (maxU 32) false s
/-- vredand. -/
def execVredand (x : Pfx) (d : SReg) (a : VFld) (s : State) : Out := redInt 7 1 x d a 0xFFFFFFFF (· &&& ·) false s
/-- vredor. -/
def execVredor (x : Pfx) (d : SReg) (a : VFld) (s : State) : Out := redInt 8 1 x d a 0 (· ||| ·) false s
/-- vredxor. -/
def execVredxor (x : Pfx) (d : SReg) (a : VFld) (s : State) : Out := redInt 9 1 x d a 0 (· ^^^ ·) false s

/-! ### The tree of R154 -/

/-- One level of the tree: neighbours combined, an absent one passing the other; flags accumulate. -/
def treeLevel (op : Nat → Nat → Nat → FRes) (k : Nat) : Nat → List (Option Nat) → List (Option Nat) × Nat
  | n, a :: b :: r =>
    let (rest, fl) := treeLevel op k (n + 1) r
    match a, b with
    | some x, some y => let v := op (192 - 2 ^ (7 - k) + n) x y; (some v.1 :: rest, Nat.lor v.2 fl)
    | some x, none => (some x :: rest, fl)
    | none, y => (y :: rest, fl)
  | _, l => (l, 0)

/-- The six levels: the root and the union of the nodes' flags. -/
def treeFold (op : Nat → Nat → Nat → FRes) (leaves : List (Option Nat)) : Option Nat × Nat :=
  let r := (List.range 6).foldl
    (fun (acc : List (Option Nat) × Nat) k => let t := treeLevel op (k + 1) 0 acc.1; (t.1, Nat.lor acc.2 t.2)) (leaves, 0)
  ((r.1.headD none), r.2)

/-- The leaves of the tree: active lanes after MODE.FTZ. -/
def leavesOf (g : Group) (m : DWord) (a : VFld) (x : Fin 512) : List (Option Nat) :=
  laneIdx.map fun i => if laneBit m i then some (flushed g.modeFtz (srcN g a x i)) else none

/-- A float reduction (R153, R154). -/
def redFl (fn : Nat) (x : Pfx) (d : SReg) (a : VFld) (e : Nat) (op : FMode → Nat → Nat → Nat → FRes) (s : State) : Out :=
  issue { uV 13 fn 2 x d.val a.val 0 with vr := [a], sw := [d.val] }
    (fun _ _ m g g1 =>
      let r := treeFold (op (g.fmode x.rm)) (leavesOf g m a x.xa)
      .grp ((g1.writeS d.val (BitVec.ofNat 64 (r.1.getD e))).raise r.2)) s

/-- fredadd. -/
def execFredadd (x : Pfx) (d : SReg) (a : VFld) (s : State) : Out := redFl 10 x d a 0 fAdd s
/-- fredmin. -/
def execFredmin (x : Pfx) (d : SReg) (a : VFld) (s : State) : Out :=
  redFl 11 x d a 0x7F800000 (fun c _ p q => fMinMax c.ftz false false p q) s
/-- fredmax. -/
def execFredmax (x : Pfx) (d : SReg) (a : VFld) (s : State) : Out :=
  redFl 12 x d a 0xFF800000 (fun c _ p q => fMinMax c.ftz true false p q) s

/-- A scan (R155): the sum over the active lanes that `keep i j` holds for. -/
def scanInt (fn : Nat) (x : Pfx) (d a : VFld) (keep : Nat → Nat → Bool) (s : State) : Out :=
  issue { uV 13 fn 1 x d.val a.val 0 with vr := [a], vw := [d] }
    (fun _ _ m g g1 => .grp (g1.writeF d m fun i =>
      ((laneIdx.filter fun j => laneBit m j && keep i j).map fun j => xbar x.xa (g.src a) j).foldl (· + ·) 0)) s

/-- vscan. -/
def execVscan (x : Pfx) (d a : VFld) (s : State) : Out := scanInt 13 x d a (fun i j => j ≤ i) s
/-- vscanx. -/
def execVscanx (x : Pfx) (d a : VFld) (s : State) : Out := scanInt 14 x d a (fun i j => j < i) s

/-- fscan (R155): the tree over the active lanes up to i. -/
def execFscan (x : Pfx) (d a : VFld) (s : State) : Out :=
  issue { uV 13 15 2 x d.val a.val 0 with vr := [a], vw := [d] }
    (fun _ _ m g g1 =>
      let leaves := leavesOf g m a x.xa
      fWrite d m g1 fun i =>
        let r := treeFold (fAdd (g.fmode x.rm)) (leaves.zipIdx.map fun p => if p.2 ≤ i then p.1 else none)
        (r.1.getD 0, r.2)) s

/-- vcompact (R156): the active lanes' values in lanes 0 to c − 1, active or not. -/
def execVcompact (x : Pfx) (d a : VFld) (s : State) : Out :=
  issue { uV 13 16 1 x d.val a.val 0 with vr := [a], vw := [d] }
    (fun _ _ m g g1 =>
      let l := activeVals g m a x.xa
      .grp (g1.writeF d (maskOf fun i => i < l.length) fun i => l.getD i 0)) s

/-- vexpand (R156). -/
def execVexpand (x : Pfx) (d a : VFld) (s : State) : Out :=
  issue { uV 13 17 1 x d.val a.val 0 with vr := [a], vw := [d] }
    (fun _ _ m g g1 => .grp (g1.writeF d m fun i =>
      xbar x.xa (g.src a) ((laneIdx.filter fun j => laneBit m j && decide (j < i)).length))) s

/-- vmatch (R156). -/
def execVmatch (x : Pfx) (d a : VFld) (s : State) : Out :=
  issue { uV 13 18 2 x d.val a.val 0 with vr := [a], vw := [d, d + 1] }
    (fun _ _ m g g1 =>
      let v := lanesOf fun i => xbar x.xa (g.src a) i
      let mask (i : Nat) : DWord := maskOf fun j => laneBit m j && laneGet v j = laneGet v i
      .grp ((g1.writeF d m fun i => (mask i).setWidth 32).writeF (d + 1) m fun i => (mask i >>> 32).setWidth 32)) s

end Sys2Proof.Machine
end

