-- ==== Sys2Proof/Machine/Convert.lean ====
section
/-! DEFINITION. Major 15: conversions, packing, MX blocks and the seed (R171-R183). -/

namespace Sys2Proof.Machine

/-- A unit of major 15 with one vector source and a vector destination, in an arbitrary group effect. -/
def u15 (fn cls : Nat) (x : Pfx) (d a b : Nat) : Uop := uV 15 fn cls x d a b

/-- A one-source conversion of unit `u` writing whole lanes. -/
def conv1U (u : Uop) (x : Pfx) (d a : VFld) (f : Group → Nat → Nat → FRes) (s : State) : Out :=
  issue { u with vr := [a], vw := [d], vk := [d] } (fun _ _ m g g1 => fWrite d m g1 fun i => f g i (srcN g a x.xa i)) s

/-- A one-source conversion writing whole lanes. -/
def conv1 (fn cls : Nat) (x : Pfx) (d a : VFld) (b : Nat) (f : Group → Nat → Nat → FRes) (s : State) : Out :=
  conv1U (u15 fn cls x d.val a.val b) x d a f s

/-- An integer result as a lane, with its flags. -/
def intRes (r : Int × Nat) : FRes := ((r.1 % 2 ^ 32).toNat, r.2)

/-- cvtfi (R178). -/
def execCvtfi (x : Pfx) (d a : VFld) (s : State) : Out :=
  conv1 0 2 x d a 0 (fun g i v => let c := g.fmode x.rm
    intRes (roundInt (c.rnd i) 32 (-2147483648) 2147483647 (rd32 c.ftz v).ex)) s
/-- cvtfn (R178). -/
def execCvtfn (x : Pfx) (d a : VFld) (s : State) : Out :=
  conv1 1 3 x d a 0 (fun g i v => let c := g.fmode x.rm
    intRes (roundInt (c.rnd i) 32 0 4294967295 (rd32 c.ftz v).ex)) s

/-- An integer as an exact value. -/
def intEx (v : Int) : Ex := if v = 0 then .zero false else .num (v < 0) v.natAbs 0 false

/-- cvtif (R178). -/
def execCvtif (x : Pfx) (d a : VFld) (s : State) : Out :=
  conv1 2 2 x d a 0 (fun g i v => fp32.round ((g.fmode x.rm).rnd i) false (intEx (sextNat 32 v))) s
/-- cvtnf (R178). -/
def execCvtnf (x : Pfx) (d a : VFld) (s : State) : Out :=
  conv1 3 3 x d a 0 (fun g i v => fp32.round ((g.fmode x.rm).rnd i) false (intEx v)) s

/-- A 16-bit half of a word. -/
def halfOf (v h : Nat) : Nat := v / 2 ^ (16 * h) % 65536
/-- Put `n` bits at `lo` of a word. -/
def insBits (v lo n x : Nat) : Nat := v - v / 2 ^ lo % 2 ^ n * 2 ^ lo + x % 2 ^ n * 2 ^ lo

/-- cvtfh (R179): half h of each active lane, the other half kept. -/
def execCvtfh (x : Pfx) (d a : VFld) (h : Fin 128) (s : State) : Out :=
  let f := if h.val / 2 % 2 = 1 then bf16 else fp16
  issue { u15 4 2 x d.val a.val h.val with vr := [a, d], vw := [d] }
    (fun _ _ m g g1 => fWrite d m g1 fun i =>
      let c := g.fmode x.rm
      let r := f.round (c.rnd i) false (rd32 c.ftz (srcN g a x.xa i)).ex
      (insBits (g.src d i).toNat (16 * (h.val % 2)) 16 r.1, r.2)) s

/-- The FP32 widening of an exact narrow value, under MODE.FTZ (R173). -/
def widen32 (ftz : Bool) (v : FVal) : FRes := fp32.round { rm := 1 } ftz v.ex

/-- cvthf (R179). -/
def execCvthf (x : Pfx) (d a : VFld) (h : Fin 128) (s : State) : Out :=
  let f := if h.val / 2 % 2 = 1 then bf16 else fp16
  conv1 5 2 x d a h.val (fun g _ v => widen32 g.modeFtz (f.unpack (halfOf v (h.val % 2)))) s

/-- The format of cvtf8 and cvt8f: FMT.NF when the field is 7 (R176). -/
def fmt8 (g : Group) (c : Nat) : Nat := if c / 4 % 8 = 7 then g.nf else c / 4 % 8

/-- The FP32 per-tensor scale (R174). -/
def scaleOf (g : Group) : FVal := rd32 g.modeFtz ((g.readS g.sreg).toNat % 2 ^ 32)

/-- The exact value a narrow conversion rounds: scaled when FMT.SCM = 2 (R174). -/
def narrowIn (g : Group) (v : Nat) : Ex :=
  let x := rd32 g.modeFtz v
  if g.scm = 2 then scaledEx x (scaleOf g) else x.ex

/-- cvtf8 (R180). -/
def execCvtf8 (x : Pfx) (d a : VFld) (c : Fin 128) (s : State) : Out :=
  issue { u15 6 3 x d.val a.val c.val with vr := [a, d], vw := [d], tscale := true }
    (fun _ _ m g g1 => fWrite d m g1 fun i =>
      let md := g.nmode x.rm
      let r := narrow (fmt8 g c.val) (md.rnd i) md.sat (narrowIn g (srcN g a x.xa i))
      (insBits (g.src d i).toNat (8 * (c.val % 4)) 8 r.1, r.2)) s

/-- Widening with the per-tensor scale (R173, R174): q × t rounded once, or the exact value. -/
def widenOut (g : Group) (c : FMode) (j : Nat) (v : FVal) : FRes :=
  if g.scm = 2 then
    match scaleOf g with
    | .fin b n e => if n = 0 then (fp32.cnan, flNV) else fp32.round (c.rnd j) c.ftz (mulV v (.fin b n e)).1.ex
    | _ => (fp32.cnan, flNV)
  else fp32.round (c.rnd j) c.ftz v.ex

/-- cvt8f (R180). -/
def execCvt8f (x : Pfx) (d a : VFld) (c : Fin 128) (s : State) : Out :=
  conv1U { u15 7 3 x d.val a.val c.val with tscale := true } x d a (fun g i v =>
    let f := fmt8 g c.val
    let b := v / 2 ^ (8 * (c.val % 4)) % 256
    widenOut g (g.fmode x.rm) i (widenVal f (if f = 3 then b % 16 else b))) s

/-- fpack4 (R181): two values to E2M1 nibbles of byte c. -/
def execFpack4 (x : Pfx) (d a : VFld) (c : Fin 128) (s : State) : Out :=
  issue { u15 8 3 x d.val a.val c.val with vr2 := [a], vr := [d], vw := [d], tscale := true }
    (fun _ _ m g g1 => fWrite d m g1 fun i =>
      let md := g.nmode x.rm
      let p := g.src64 a x.xa i
      let lo := narrow 3 (md.rnd i) md.sat (narrowIn g (p.toNat % 2 ^ 32))
      let hi := narrow 3 (md.rnd (64 + i)) md.sat (narrowIn g (p.toNat / 2 ^ 32))
      (insBits (g.src d i).toNat (8 * (c.val % 4)) 8 (lo.1 + 16 * hi.1), Nat.lor lo.2 hi.2)) s

/-- funpk4 (R181). -/
def execFunpk4 (x : Pfx) (d a : VFld) (c : Fin 128) (s : State) : Out :=
  issue { u15 9 3 x d.val a.val c.val with vr := [a], vw := [d, d + 1], vk := [d, d + 1], tscale := true }
    (fun _ _ m g g1 =>
      let nib (i h : Nat) : Nat := srcN g a x.xa i / 2 ^ (8 * (c.val % 4) + 4 * h) % 16
      let lo := laneResults m fun i => widenOut g (g.fmode x.rm) i (widenVal 3 (nib i 0))
      let hi := laneResults m fun i => widenOut g (g.fmode x.rm) (64 + i) (widenVal 3 (nib i 1))
      .grp (((g1.writeF d m (resLane lo)).writeF (d + 1) m (resLane hi)).raise (Nat.lor (orFlags lo) (orFlags hi)))) s

/-! ### MX blocks (R163, R182) -/

/-- emax of an MX element format. -/
def emaxOf (nf : Nat) : Int := if nf = 0 then 8 else if nf = 1 then 15 else 2

/-- The scale code of one block (R182). -/
def mxCode (g : Group) (m : DWord) (a : VFld) (x : Fin 512) (b : Nat) : Nat :=
  let vals := ((List.range 32).filter fun i => laneBit m (32 * b + i)).map fun i =>
    rd32 g.modeFtz (srcN g a x (32 * b + i))
  if vals.any (fun v => match v with | .fin .. => false | _ => true) then 0xFF
  else
    let es := vals.filterMap fun v => match v with
      | .fin _ m e => if m = 0 then none else some (e + (bitLen m : Int) - 1)
      | _ => none
    match es with
    | [] => 0x7F
    | e :: r => ((max (-127) (min 127 (r.foldl max e - emaxOf g.nf))) + 127).toNat

/-- mxscl (R182). -/
def execMxscl (x : Pfx) (d : SReg) (a : VFld) (s : State) : Out :=
  issue { u15 10 3 x d.val a.val 0 with vr := [a], sw := [d.val] }
    (fun _ _ m g g1 =>
      if g.nf = 2 || g.nf = 4 then .grp ((g1.writeS d.val 0xFFFF).raise flNV)
      else .grp (g1.writeS d.val (BitVec.ofNat 64 (mxCode g m a x.xa 0 + 256 * mxCode g m a x.xa 1)))) s

/-- A value times 2^(127 − c): the exact quotient by a block scale. -/
def scaleBy (v : FVal) (k : Int) : FVal :=
  match v with
  | .fin n m e => .fin n m (e + k)
  | v => v

/-- mxq (R182). -/
def execMxq (x : Pfx) (d a : VFld) (b : SReg) (s : State) : Out :=
  issue { u15 11 3 x d.val a.val b.val with vr := [a, d], sr := [b.val], vw := [d] }
    (fun _ _ m g g1 =>
      if m = 0 then .grp g1
      else if g.nf = 2 || g.nf = 4 then .grp (g1.raise flNV)
      else
        let md := g.nmode x.rm
        let codes := laneIdx.map fun i =>
          let c : Nat := (g.readS b.val).toNat / 2 ^ (8 * (i / 32)) % 256
          if laneBit m i && c ≠ 0xFF then
            narrow g.nf (md.rnd i) true (scaleBy (rd32 g.modeFtz (srcN g a x.xa i)) (127 - (c : Int))).ex
          else (0, 0)
        let code (i : Nat) : Nat := (codes.getD i (0, 0)).1
        let per := if g.nf = 3 then 8 else 4
        let w (i : Nat) : Word := BitVec.ofNat 32
          (((List.range per).map fun j => code (per * i + j) * 2 ^ (32 / per * j)).sum)
        .grp ((g1.writeF d (maskOf fun i => i < 64 / per) w).raise (orFlags codes))) s

/-- mxdq (R182). -/
def execMxdq (x : Pfx) (d a : VFld) (b : SReg) (s : State) : Out :=
  issue { u15 12 3 x d.val a.val b.val with vr := [a], sr := [b.val], vw := [d], vk := [d] }
    (fun _ _ m g g1 =>
      if g.nf = 2 || g.nf = 4 then
        fWrite d m g1 fun _ => (fp32.cnan, flNV)
      else fWrite d m g1 fun i =>
        let c : Nat := (g.readS b.val).toNat / 2 ^ (8 * (i / 32)) % 256
        let per := if g.nf = 3 then 8 else 4
        let code := srcN g a x.xa (i / per) / 2 ^ (32 / per * (i % per)) % 2 ^ (32 / per)
        let md := g.fmode x.rm
        if c = 0xFF then (fp32.cnan, 0)
        else fp32.round (md.rnd i) md.ftz (scaleBy (widenVal g.nf code) ((c : Int) - 127)).ex) s

/-- srseed (R183): only with an active lane. -/
def execSrseed (x : Pfx) (a : SReg) (s : State) : Out :=
  issue { u15 13 1 x 0 a.val 0 with sr := [a.val] }
    (fun _ _ m g g1 =>
      .grp (if m = 0 then g1
        else { g1 with mode := BitVec.ofNat 64 (g.mode.toNat % 2 ^ 32 + (g.readS a.val).toNat % 2 ^ 32 * 2 ^ 32) })) s

end Sys2Proof.Machine
end

