-- ==== Sys2Proof/Machine/PowerEvents.lean ====
section
/-! DEFINITION. The power and clock controller (R411-R414): filler, low-voltage mode, the package cap. What it measures
comes with its events (DESIGN CHOICE, LE 27). -/

namespace Sys2Proof.Machine

/-! ### Current shaping (R411) -/

/-- The context that issued the most units in the last microsecond, the lower on a tie. -/
def Core.tenant (c : Core) : Nat :=
  let sum : NMap Nat := c.units.foldl (fun m b => b.foldl (fun (m : NMap Nat) kv => mapSet m kv.1 (mapGet m kv.1 0 + kv.2)) m) []
  (sum.foldl (fun (best : Nat × Nat) kv => if best.2 < kv.2 then kv else best) (0, 0)).1

/-- One interval of filler: its cycles in pipes I and F, of class C2, and in S, of class C3, are free values within 100 ns; they take
place in cycles that no unit takes, and cost energy as they do (R411, R412). -/
def State.fill (s : State) (core : Nat) : State :=
  let (x, s1) := s.freeValue
  let (z, s2) := s1.freeValue
  s2.modCore core fun v => { v with fill2 := x.toNat % 51, fill3 := z.toNat % 81 }

/-- POWER_ESTIMATE (R411): `drop` says that the estimate would fall faster than allowed: filler runs, for 8 µs of a drop at most;
otherwise it ends. The cluster's idle timer follows (R77). -/
def execPowerEstimate (core : Nat) (drop : Bool) (s : State) : Out :=
  let s1 := s.settleCore core
  let v := s1.core core
  let aged := (([] : NMap Nat) :: v.units).take 10
  let spent := v.filler && v.fillTns + 8000 ≤ s1.dev.tns
  .next (if 256 ≤ core then s
    else (if s.dev.shape && drop && !spent then
      (s1.setCore core { v with units := aged, filler := true, fillerCtx := if v.filler then v.fillerCtx else v.tenant,
                                fillTns := if v.filler then v.fillTns else s1.dev.tns }).fill core
    else s1.setCore core { v with units := aged, filler := false, fill2 := 0, fill3 := 0 }).noteIdle (clusterOfCore core))

/-! ### Low-voltage mode (R413) -/

/-- Memory-bound cycles and cycles of a core in the last `n` whole microseconds before microsecond `us` (R413). -/
def Core.boundOf (v : Core) (us n : Nat) : Nat × Nat :=
  (v.bound.filter fun p => us ≤ p.1 + n && p.1 < us).foldl (fun (a : Nat × Nat) p => (a.1 + p.2.1, a.2 + p.2.2)) (0, 0)

/-- Memory-bound cycles and cycles of a core in the window of LVWIN µs, and whether the fraction asks for low-voltage mode (`enter`),
from LVTHR on, or for leaving it, below LVEXT (R413). -/
def State.lvAsks (s : State) (c : Nat) (enter : Bool) : Bool :=
  let b := ((s.settleCore c).core c).boundOf (s.dev.now5 / 200000) s.dev.lvwin
  b.2 ≠ 0 && if enter then s.dev.lvthr * b.2 ≤ 100 * b.1 else 100 * b.1 < s.dev.lvext * b.2

/-- A core enters low-voltage mode: its periods stretch at once. -/
def State.lvIn (s : State) (core : Nat) : State :=
  (s.settleCore core).modCore core fun v =>
    { v with lv := true, trn := true, lvTarget := true, lvEntries := (v.lvEntries + 1) % 2 ^ 32, lvTns := s.dev.tns }

/-- LV_ENTER (R413): the memory-bound fraction has reached LVTHR. -/
def execLvEnter (core : Nat) (s : State) : Out :=
  .next (if 256 ≤ core || !s.dev.lven || !s.lvAsks core true then s
    else if (s.core core).lv then (if (s.core core).lvTarget then s.lvWish core true else s)
    else (s.lvIn core).lvWish core true)

/-- LV_EXIT (R413): below LVEXT, or when a candidate is urgent; not while the package cap holds the core. -/
def execLvExit (core : Nat) (s : State) : Out :=
  let v := s.core core
  let urgent := s.groups.any fun kv => kv.2.core = core && kv.2.urgent
  .next (if 256 ≤ core || !v.lv || !v.lvTarget || !(urgent || s.lvAsks core false) then s
    else if v.lvCap then s.lvWish core false
    else (s.lvOut core).lvWish core false)

/-- LV_TRANSITION_DONE (R413): 2 µs after it began the transition ends; on leaving, the periods return. -/
def execLvTransitionDone (core : Nat) (s : State) : Out :=
  let v := s.core core
  .next (if !v.trn then s
    else
      let s1 := (s.atLeast (v.lvTns + 2000)).settleCore core
      s1.modCore core fun v => { v with trn := false, lv := v.lvTarget })

/-! ### The package cap (R414) -/

/-- Whether the cap holds a cluster. -/
def State.capped (s : State) (l : Nat) : Bool := (s.core (4 * l)).lvCap

/-- The cores of a cluster. -/
def coresOf (l : Nat) : List Nat := (List.range 4).map fun i => 4 * l + i

/-- The cap takes one more cluster. -/
def State.capOne (s : State) (l : Nat) : State :=
  (coresOf l).foldl (fun t c =>
    let u := if (t.core c).lv && (t.core c).lvTarget then t else t.lvIn c
    u.modCore c fun v => { v with lvCap := true }) s

/-- The cap releases a cluster: the cores that are in low-voltage mode for it alone leave. -/
def State.uncapOne (s : State) (l : Nat) : State :=
  (coresOf l).foldl (fun t c =>
    let u := t.modCore c fun v => { v with lvCap := false }
    if (t.core c).lvOwn then u else u.lvOut c) s

/-- POWER_CAP_STEP (R400, R414): a millisecond's averages; above the cap the lowest free cluster is taken, 5% below it
the last one is released. -/
def execPowerCapStep (pkg cds mem pho : Nat) (s : State) : Out :=
  let s0 := s.atLeast (s.dev.lastTime + 1000000)
  let s1 := s0.modDev fun d => { d with pwrpt := [pkg % 65536, cds % 65536, mem % 65536, pho % 65536],
                                        penrg := (d.penrg + pkg % 65536) % 2 ^ 64, lastTime := s0.dev.tns }
  let p := pkg % 65536
  .next (if s.dev.pcap < p then
      match (List.range 64).find? fun l => !s1.capped l with
      | some l => s1.capOne l
      | none => s1
    else if p * 100 ≤ s.dev.pcap * 95 then
      match (List.range 64).reverse.find? fun l => s1.capped l with
      | some l => s1.uncapOne l
      | none => s1
    else s1)

end Sys2Proof.Machine
end

