-- ==== Sys2Proof/Machine/MgmtUnits.lean ====
section
/-! DEFINITION. Major 27 (R78, R80, R396-R398): `launch`, `preempt`, `resume`, `cfgrd`, `cfgwr`, on a group and on
Stratus. -/

namespace Sys2Proof.Machine

/-- A unit of major 27: no prefix, HND in handler mode (R106). -/
def u27 (fn d a b : Nat) : Uop := { maj := 27, cls := 1, base := wordA 27 d a b fn, hnd := true }

/-- An outstanding operation of major 27. -/
def mgmtOp (g : Group) (id fn : Nat) (ctr : Ctr) (kind : OpKind) : Op :=
  { id := id, unit := id, pc := g.pc, maj := 27, fn := fn, ctr := ctr, kind := kind }

/-- launch (R78): the record is read as the unit returns. -/
def launchEff (u : Uop) (d a : SReg) : Effect := fun s k _ g g1 =>
  let va := g.readS a.val
  if va.toNat % 64 ≠ 0 then .trap (u.preciseTrap g 4 va)
  else if badVA va then .trap (u.preciseTrap g 5 va)
  else if !g.room .ld 1 then .wait
  else .st (({ s with nextId := s.nextId + 1 } : State).setGrp k (g1.addOp
    { mgmtOp g s.nextId 0 .ld .launch with rel := true, scope := 2, dst := [g.sDst d.val], arg := [va] }))

/-- launch. -/
def execLaunch (d a : SReg) (s : State) : Out :=
  let u := { u27 0 d.val a.val 0 with sr := [a.val], sw := [d.val] }
  issue u (launchEff u d a) s

/-- preempt on a group (R80): the named workgroups are marked at issue; LOAD_RETURN brings the code. -/
def preemptEff (d a b : SReg) : Effect := fun s k _ g g1 =>
  let x := g.readS a.val
  let y := g.readS b.val
  let c := s.preemptCode g x y false
  if !g.room .ld 1 then .wait
  else
    let s1 := ({ s with nextId := s.nextId + 1 } : State).setGrp k (g1.addOp
      { mgmtOp g s.nextId 1 .ld .preempt with dst := [g.sDst d.val], arg := [x, y], result := BitVec.ofNat 64 c })
    .st (if c = 0 then s1.doPreempt x y else s1)

/-- preempt on Stratus: the unit completes once its code is known (R396). -/
def preemptStr (d a b : SReg) : Effect := fun s _ _ g g1 =>
  let x := g.readS a.val
  let y := g.readS b.val
  let c := if g.park = 9 then 0 else s.preemptCode g x y false
  let s1 := if c = 0 && g.park ≠ 9 then s.doPreempt x y else s
  if c ≠ 0 then .grp (g1.writeS d.val (BitVec.ofNat 64 c))
  else if s1.preemptDone x y then .st { s1 with sgrp := ({ g1 with park := 0 } : Group).writeS d.val 0 }
  else .waitSt { s1 with sgrp := { g with park := 9 } }

/-- preempt. -/
def execPreempt (d a b : SReg) (s : State) : Out :=
  let u := { u27 1 d.val a.val b.val with sr := [a.val, b.val], sw := [d.val], priv := true, str := true }
  issue2 u (preemptEff d a b) (preemptStr d a b) s

/-- resume on a group (R80): the holds are cleared at issue; LOAD_RETURN brings the code. -/
def resumeEff (d a b : SReg) : Effect := fun s k _ g g1 =>
  let x := g.readS a.val
  let y := g.readS b.val
  let c := s.preemptCode g x y true
  if !g.room .ld 1 then .wait
  else
    let s1 := ({ s with nextId := s.nextId + 1 } : State).setGrp k (g1.addOp
      { mgmtOp g s.nextId 2 .ld .resume with dst := [g.sDst d.val], arg := [x, y], result := BitVec.ofNat 64 c })
    .st (if c = 0 then (s1.holdNamed x y false).holdImages x y else s1)

/-- resume on Stratus. -/
def resumeStr (d a b : SReg) : Effect := fun s _ _ g g1 =>
  let x := g.readS a.val
  let y := g.readS b.val
  let c := s.preemptCode g x y true
  let s1 := if c = 0 then (s.holdNamed x y false).holdImages x y else s
  .st { s1 with sgrp := g1.writeS d.val (BitVec.ofNat 64 c) }

/-- resume. -/
def execResume (d a b : SReg) (s : State) : Out :=
  let u := { u27 2 d.val a.val b.val with sr := [a.val, b.val], sw := [d.val], priv := true, str := true }
  issue2 u (resumeEff d a b) (resumeStr d a b) s

/-- The precise trap of a configuration address (R397): alignment, then for a group its class. -/
def cfgTrap (u : Uop) (g : Group) (str : Bool) (ca : DWord) : Option Trap :=
  if ca.toNat % 8 ≠ 0 then some (u.preciseTrap g 4 ca)
  else if !str && ca.toNat / 2 ^ 62 ≠ 0 then some (u.preciseTrap g 2 0)
  else none

/-- cfgrd on a group (R396, R398). -/
def cfgrdEff (u : Uop) (d a : SReg) : Effect := fun s k _ g g1 =>
  let ca := g.readS a.val
  match cfgTrap u g false ca with
  | some t => .trap t
  | none =>
    if !g.room .ld 1 then .wait
    else .st ((({ s with nextId := s.nextId + 1 } : State).l1Clear g.core).setGrp k (g1.addOp
      { mgmtOp g s.nextId 3 .ld .cfgrd with acq := true, dst := [g.sDst d.val], arg := [ca] }))

/-- cfgrd on Stratus. -/
def cfgrdStr (u : Uop) (d a : SReg) : Effect := fun s _ _ g g1 =>
  let ca := g.readS a.val
  match cfgTrap u g true ca with
  | some t => .trap t
  | none => .grp (g1.writeS d.val (s.cfgRead true ca))

/-- cfgrd. -/
def execCfgrd (d a : SReg) (s : State) : Out :=
  let u := { u27 3 d.val a.val 0 with sr := [a.val], sw := [d.val], priv := true, str := true }
  issue2 u (cfgrdEff u d a) (cfgrdStr u d a) s

/-- cfgwr on a group (R396, R398). -/
def cfgwrEff (u : Uop) (a b : SReg) : Effect := fun s k _ g g1 =>
  let ca := g.readS a.val
  match cfgTrap u g false ca with
  | some t => .trap t
  | none =>
    if !g.room .st 1 then .wait
    else .st (({ s with nextId := s.nextId + 1 } : State).setGrp k (g1.addOp
      { mgmtOp g s.nextId 4 .st .cfgwr with wr := true, rel := true, scope := 2, arg := [ca, g.readS b.val] }))

/-- cfgwr on Stratus. -/
def cfgwrStr (u : Uop) (a b : SReg) : Effect := fun s _ _ g g1 =>
  let ca := g.readS a.val
  match cfgTrap u g true ca with
  | some t => .trap t
  | none => .st ({ s with sgrp := g1 }.cfgWrite true none ca (g.readS b.val))

/-- cfgwr. -/
def execCfgwr (a b : SReg) (s : State) : Out :=
  let u := { u27 4 0 a.val b.val with sr := [a.val, b.val], priv := true, str := true }
  issue2 u (cfgwrEff u a b) (cfgwrStr u a b) s

end Sys2Proof.Machine
end

