-- ==== Sys2Proof/Machine/MemEvents.lean ====
section
/-! DEFINITION. The events that end a group's outstanding operations: LOAD_RETURN, STORE_PERFORMED and
WAITING_TABLE_RETRY (R78, R80, R190, R191, R196, R203, R208, R396). -/

namespace Sys2Proof.Machine

/-! ### Remote lanes (R191, R208) -/

/-- The requests of an operation's remote lanes leave as soon as they may. -/
def State.sendOp (s : State) (k : Nat) (g : Group) (o : Op) : State :=
  if !g.mayPerform o then s
  else if g.mustFlush o then s.cuFlush g
  else if g.maySend o then
    let (s1, o1) := s.sendRemote k o
    s1.modGrp k fun h => h.modOp o.id fun _ => o1
  else s

/-- The lowest lane that faulted, here or at its destination (R191). -/
def Op.badLane (o : Op) : Option LaneAcc := o.accs.find? fun a => a.bad.isSome || a.lfault.isSome

/-- A unit with a remote lane, one of whose lanes faulted (R191): its other lanes are performed, its registers stay, the fault
of the lowest lane is recorded against it and the later registers of its unit (R193). -/
def State.remoteFault (s : State) (k : Nat) (g : Group) (o : Op) (a : LaneAcc) : State :=
  let b := a.bad.getD (5, 0, 0)
  let f := a.lfault.getD (b.1, o.trapA a, o.trapI a.lane a.reg b.1 b.2.1 b.2.2 true)
  let s1 := match o.kind with
    | .store => s.storeLanes g o
    | _ => s.filterDrop (o.accs.map fun (x : LaneAcc) => laneRid g o x.lane)
  match s1.grp? k with
  | some h => s1.recordFault k (h.endUnit o)
      { id := o.id, unit := o.unit, targets := h.targetsOf o,
        trap := { cause := f.1, deferred := true, a := f.2.1, pc := o.pc, i := f.2.2 } }
  | none => s1

/-! ### Operations that are no memory accesses -/

/-- `launch` returns (R78): after its release, the record is read, checked and entered. -/
def State.returnLaunch (s : State) (k : Nat) (g : Group) (o : Op) : State :=
  if !g.mayPerform o then s
  else if g.mustFlush o then s.cuFlush g
  else
    match s.doLaunch g o.id (regGet o.arg 0).toNat with
    | (some c, s1) => s1.giveCode k o (BitVec.ofNat 64 c)
    | (none, s1) => s1

/-- Whether work accepted earlier still needs WGM bytes from `n` ways up: accesses of the workgroup's groups that are under
way or parked, and matrix steps started that read A there (R203, R302). Parked ones of a workgroup being saved are cancelled and
need nothing (R197). -/
def State.wgmInUse (s : State) (w n : Nat) : Bool :=
  let saving := (s.wg? w).any fun v => v.state = .saving
  s.groups.any fun kv => kv.2.wg = w &&
    ((kv.2.ops.any fun p => !p.performed && !(saving && (match p.wait with | .parked .. => true | _ => false)) && p.accs.any fun a =>
        a.places.any fun q => match q with | .wgm i => n * Config.wayBytes ≤ i | _ => false) ||
      kv.2.mxq.any fun m => m.op ≤ 1 && !m.aTile && m.step < m.started)

/-- `crsz` is performed (R203): after every earlier access of its group. -/
def State.returnCrsz (s : State) (k : Nat) (g : Group) (o : Op) : State :=
  let n := (regGet o.arg 0).toNat
  if (g.before o).any (fun p => p.isAcc || p.isAgg) || s.wgmInUse g.wg n then s
  else
    let (c, s1) := s.doCrsz g n
    s1.giveCode k o (BitVec.ofNat 64 c)

/-- `cfgrd` returns, an acquire (R396, R398). -/
def State.returnCfgrd (s : State) (k : Nat) (g : Group) (o : Op) : State :=
  if !g.mayPerform o || (g.before o).any (fun p => p.kind = .cfgwr) then s
  else (s.giveCode k o (s.cfgRead false (regGet o.arg 0))).l1Clear g.core

/-- `cfgwr` reaches its target (R396, R398). -/
def State.performCfgwr (s : State) (k : Nat) (g : Group) (o : Op) : State :=
  if !g.mayPerform o then s
  else if g.mustFlush o then s.cuFlush g
  else (s.modGrp k fun h => h.finishOp o.id).cfgWrite false none (regGet o.arg 0) (regGet o.arg 1)

/-! ### The events -/

/-- An outstanding operation of a group whose events may act. -/
def State.liveOp (s : State) (k op : Nat) : Option (Group × Op) :=
  match s.grp? k with
  | none => none
  | some g => match g.op? op with
    | some o => if s.live g && !o.performed then some (g, o) else none
    | none => none

/-- LOAD_RETURN (R190): an operation counted in LD, or a block load, returns. -/
def execLoadReturn (k op : Nat) (s : State) : Out :=
  .next ((match s.liveOp k op with
    | none => s
    | some (g, o) =>
      if o.wait ≠ .flight then s
      else if o.unsent then s.sendOp k g o
      else match o.kind, o.answered, o.badLane with
        | .load _ _, true, some a => s.remoteFault k g o a
        | .load _ _, _, _ => s.returnLoad k g o
        | .wadd, _, _ => s.returnLoad k g o
        | .wcas, _, _ => s.returnLoad k g o
        | .atom _, true, some a => if o.accs.all LaneAcc.settled then s.remoteFault k g o a else s
        | .atom _, _, _ => s.returnAtom k g o
        | .launch, _, _ => s.returnLaunch k g o
        | .preempt, _, _ =>
          if o.result ≠ 0 || s.preemptDone (regGet o.arg 0) (regGet o.arg 1) then s.giveCode k o o.result else s
        | .resume, _, _ => s.giveCode k o o.result
        | .crsz, _, _ => s.returnCrsz k g o
        | .cfgrd, _, _ => s.returnCfgrd k g o
        | .recvq, _, _ => s.recvGo k g o
        | _, _, _ => s : State).takeParked k)

/-- STORE_PERFORMED (R190): an operation counted in ST, or a block store, is performed. -/
def execStorePerformed (k op : Nat) (s : State) : Out :=
  .next ((match s.liveOp k op with
    | none => s
    | some (g, o) =>
      if o.wait ≠ .flight then s
      else if o.unsent && !o.isAgg then s.sendOp k g o
      else match o.kind, o.answered, o.badLane with
        | .store, true, some a => if g.mayPerform o && s.linesReady g o.lines then s.remoteFault k g o a else s
        | .store, _, _ => s.performStore k g o
        | .red _, true, some a => if o.accs.all LaneAcc.settled then s.remoteFault k g o a else s
        | .red _, _, _ => s.doneRed k g o
        | .cfgwr, _, _ => s.performCfgwr k g o
        | .agg op _, _, _ => s.acceptOp k g o op
        | _, _, _ => s : State).takeParked k)

/-- Whether an operation held as a fourth miss may take a waiting-table entry that has freed (R194). -/
def Group.mayPark (g : Group) (o : Op) : Bool :=
  (match o.wait with | .held .. => true | _ => false) && (o.maj = 16 || o.maj = 17) && g.parkedCount < 3

/-- WAITING_TABLE_RETRY (R194, R196, R227): a waiting access whose service has ended is tried again, the group's earlier
ones first; one held as a fourth miss enters the table when an entry is free. -/
def execWaitingTableRetry (k op : Nat) (s : State) : Out :=
  .next (match s.liveOp k op with
    | none => s
    | some (g, o) =>
      if o.wait = .flight || !((o.again ≠ 0 && !g.againBefore o) || (o.again = 0 && g.mayPark o)) then s
      else match o.kind with
        | .mwait => if o.again = 2 then s.retryOp k { g with park := 0, parkArg := [] } o else s.mwaitTry k g o
        | .recvq =>
          if o.again = 2 then s.retryOp k g o
          else s.modGrp k fun h => h.modOp o.id fun p => { p with wait := .flight, again := 0 }
        | _ => s.retryOp k g o)

end Sys2Proof.Machine
end

