-- ==== Sys2Proof/Machine/Dispatch.lean ====
section
/-! DEFINITION. One arm per constructor of `Instr`: the direct call of its meaning. -/

namespace Sys2Proof.Machine

/-- What an instruction or an event does. -/
def exec (i : Instr) (s : State) : Host.Outcome State Fault Refusal :=
  match i with
  | .nop => Sys2Proof.Machine.execNop s
  | .exit => Sys2Proof.Machine.execExit s
  | .trap n => Sys2Proof.Machine.execTrap n s
  | .brk n => Sys2Proof.Machine.execBrk n s
  | .rte => Sys2Proof.Machine.execRte s
  | .yield => Sys2Proof.Machine.execYield s
  | .ret => Sys2Proof.Machine.execRet s
  | .winb m => Sys2Proof.Machine.execWinb m s
  | .vsync => Sys2Proof.Machine.execVsync s
  | .sleep a => Sys2Proof.Machine.execSleep a s
  | .qcfg q n => Sys2Proof.Machine.execQcfg q n s
  | .qrst a => Sys2Proof.Machine.execQrst a s
  | .setfmt imm => Sys2Proof.Machine.execSetfmt imm s
  | .setmode imm => Sys2Proof.Machine.execSetmode imm s
  | .bra o => Sys2Proof.Machine.execBra o s
  | .bz a o => Sys2Proof.Machine.execBz a o s
  | .bnz a o => Sys2Proof.Machine.execBnz a o s
  | .bltz a o => Sys2Proof.Machine.execBltz a o s
  | .bgez a o => Sys2Proof.Machine.execBgez a o s
  | .call f o => Sys2Proof.Machine.execCall f o s
  | .calli a f => Sys2Proof.Machine.execCalli a f s
  | .jmpi a => Sys2Proof.Machine.execJmpi a s
  | .vbr p neg o => Sys2Proof.Machine.execVbr p neg o s
  | .vbrall p neg o => Sys2Proof.Machine.execVbrall p neg o s
  | .vbrany p neg o => Sys2Proof.Machine.execVbrany p neg o s
  | .vjoin o => Sys2Proof.Machine.execVjoin o s
  | .sadd d a b => Sys2Proof.Machine.execSadd d a b s
  | .ssub d a b => Sys2Proof.Machine.execSsub d a b s
  | .smul d a b => Sys2Proof.Machine.execSmul d a b s
  | .smulh d a b => Sys2Proof.Machine.execSmulh d a b s
  | .smulhn d a b => Sys2Proof.Machine.execSmulhn d a b s
  | .sdiv d a b => Sys2Proof.Machine.execSdiv d a b s
  | .sdivn d a b => Sys2Proof.Machine.execSdivn d a b s
  | .srem d a b => Sys2Proof.Machine.execSrem d a b s
  | .sremn d a b => Sys2Proof.Machine.execSremn d a b s
  | .sand d a b => Sys2Proof.Machine.execSand d a b s
  | .sor d a b => Sys2Proof.Machine.execSor d a b s
  | .sxor d a b => Sys2Proof.Machine.execSxor d a b s
  | .sandn d a b => Sys2Proof.Machine.execSandn d a b s
  | .sshl d a b => Sys2Proof.Machine.execSshl d a b s
  | .sshr d a b => Sys2Proof.Machine.execSshr d a b s
  | .ssra d a b => Sys2Proof.Machine.execSsra d a b s
  | .srol d a b => Sys2Proof.Machine.execSrol d a b s
  | .smin d a b => Sys2Proof.Machine.execSmin d a b s
  | .smax d a b => Sys2Proof.Machine.execSmax d a b s
  | .sminn d a b => Sys2Proof.Machine.execSminn d a b s
  | .smaxn d a b => Sys2Proof.Machine.execSmaxn d a b s
  | .sceq d a b => Sys2Proof.Machine.execSceq d a b s
  | .scne d a b => Sys2Proof.Machine.execScne d a b s
  | .sclt d a b => Sys2Proof.Machine.execSclt d a b s
  | .scle d a b => Sys2Proof.Machine.execScle d a b s
  | .scltn d a b => Sys2Proof.Machine.execScltn d a b s
  | .sclen d a b => Sys2Proof.Machine.execSclen d a b s
  | .ssel d a b e => Sys2Proof.Machine.execSsel d a b e s
  | .saddi d a imm => Sys2Proof.Machine.execSaddi d a imm s
  | .sandi d a imm => Sys2Proof.Machine.execSandi d a imm s
  | .sori d a imm => Sys2Proof.Machine.execSori d a imm s
  | .sxori d a imm => Sys2Proof.Machine.execSxori d a imm s
  | .sshli d a imm => Sys2Proof.Machine.execSshli d a imm s
  | .sshri d a imm => Sys2Proof.Machine.execSshri d a imm s
  | .ssrai d a imm => Sys2Proof.Machine.execSsrai d a imm s
  | .sclti d a imm => Sys2Proof.Machine.execSclti d a imm s
  | .sli d imm => Sys2Proof.Machine.execSli d imm s
  | .slih d imm => Sys2Proof.Machine.execSlih d imm s
  | .sadpc d imm => Sys2Proof.Machine.execSadpc d imm s
  | .mfs d r => Sys2Proof.Machine.execMfs d r s
  | .mts r a => Sys2Proof.Machine.execMts r a s
  | .sext d a b => Sys2Proof.Machine.execSext d a b s
  | .sins d a b => Sys2Proof.Machine.execSins d a b s
  | .spopc d a => Sys2Proof.Machine.execSpopc d a s
  | .sclz d a => Sys2Proof.Machine.execSclz d a s
  | .sctz d a => Sys2Proof.Machine.execSctz d a s
  | .sbrev d a => Sys2Proof.Machine.execSbrev d a s
  | .sfirst d a => Sys2Proof.Machine.execSfirst d a s
  | .sballot d a => Sys2Proof.Machine.execSballot d a s
  | .smask d a => Sys2Proof.Machine.execSmask d a s
  | .vadd x d a b => Sys2Proof.Machine.execVadd x d a b s
  | .vsub x d a b => Sys2Proof.Machine.execVsub x d a b s
  | .vmul x d a b => Sys2Proof.Machine.execVmul x d a b s
  | .vmulh x d a b => Sys2Proof.Machine.execVmulh x d a b s
  | .vmulhn x d a b => Sys2Proof.Machine.execVmulhn x d a b s
  | .vmad x d a b => Sys2Proof.Machine.execVmad x d a b s
  | .vdiv x d a b => Sys2Proof.Machine.execVdiv x d a b s
  | .vdivn x d a b => Sys2Proof.Machine.execVdivn x d a b s
  | .vrem x d a b => Sys2Proof.Machine.execVrem x d a b s
  | .vremn x d a b => Sys2Proof.Machine.execVremn x d a b s
  | .vmin x d a b => Sys2Proof.Machine.execVmin x d a b s
  | .vmax x d a b => Sys2Proof.Machine.execVmax x d a b s
  | .vminn x d a b => Sys2Proof.Machine.execVminn x d a b s
  | .vmaxn x d a b => Sys2Proof.Machine.execVmaxn x d a b s
  | .vabs x d a => Sys2Proof.Machine.execVabs x d a s
  | .vand x d a b => Sys2Proof.Machine.execVand x d a b s
  | .vor x d a b => Sys2Proof.Machine.execVor x d a b s
  | .vxor x d a b => Sys2Proof.Machine.execVxor x d a b s
  | .vandn x d a b => Sys2Proof.Machine.execVandn x d a b s
  | .vshl x d a b => Sys2Proof.Machine.execVshl x d a b s
  | .vshr x d a b => Sys2Proof.Machine.execVshr x d a b s
  | .vsra x d a b => Sys2Proof.Machine.execVsra x d a b s
  | .vrol x d a b => Sys2Proof.Machine.execVrol x d a b s
  | .vfsh x d a b => Sys2Proof.Machine.execVfsh x d a b s
  | .vpopc x d a => Sys2Proof.Machine.execVpopc x d a s
  | .vclz x d a => Sys2Proof.Machine.execVclz x d a s
  | .vbrev x d a => Sys2Proof.Machine.execVbrev x d a s
  | .vbfe x d a b => Sys2Proof.Machine.execVbfe x d a b s
  | .vbfi x d a b => Sys2Proof.Machine.execVbfi x d a b s
  | .vclmul x d a b => Sys2Proof.Machine.execVclmul x d a b s
  | .vclmulh x d a b => Sys2Proof.Machine.execVclmulh x d a b s
  | .vsadd x d a b => Sys2Proof.Machine.execVsadd x d a b s
  | .vssub x d a b => Sys2Proof.Machine.execVssub x d a b s
  | .vadd64 x d a b => Sys2Proof.Machine.execVadd64 x d a b s
  | .vsub64 x d a b => Sys2Proof.Machine.execVsub64 x d a b s
  | .vmov x d a => Sys2Proof.Machine.execVmov x d a s
  | .vdot4 x d a b => Sys2Proof.Machine.execVdot4 x d a b s
  | .vdot4n x d a b => Sys2Proof.Machine.execVdot4n x d a b s
  | .vaddi x d a imm => Sys2Proof.Machine.execVaddi x d a imm s
  | .vandi x d a imm => Sys2Proof.Machine.execVandi x d a imm s
  | .vori x d a imm => Sys2Proof.Machine.execVori x d a imm s
  | .vxori x d a imm => Sys2Proof.Machine.execVxori x d a imm s
  | .vshli x d a imm => Sys2Proof.Machine.execVshli x d a imm s
  | .vshri x d a imm => Sys2Proof.Machine.execVshri x d a imm s
  | .vsrai x d a imm => Sys2Proof.Machine.execVsrai x d a imm s
  | .vmuli x d a imm => Sys2Proof.Machine.execVmuli x d a imm s
  | .fadd x d a b => Sys2Proof.Machine.execFadd x d a b s
  | .fsub x d a b => Sys2Proof.Machine.execFsub x d a b s
  | .fmul x d a b => Sys2Proof.Machine.execFmul x d a b s
  | .ffma x d a b => Sys2Proof.Machine.execFfma x d a b s
  | .ffms x d a b => Sys2Proof.Machine.execFfms x d a b s
  | .fnma x d a b => Sys2Proof.Machine.execFnma x d a b s
  | .fmin x d a b => Sys2Proof.Machine.execFmin x d a b s
  | .fmax x d a b => Sys2Proof.Machine.execFmax x d a b s
  | .fminm x d a b => Sys2Proof.Machine.execFminm x d a b s
  | .fmaxm x d a b => Sys2Proof.Machine.execFmaxm x d a b s
  | .fabs x d a => Sys2Proof.Machine.execFabs x d a s
  | .fneg x d a => Sys2Proof.Machine.execFneg x d a s
  | .fcpys x d a b => Sys2Proof.Machine.execFcpys x d a b s
  | .fdot2 x d a b => Sys2Proof.Machine.execFdot2 x d a b s
  | .hadd2 x d a b => Sys2Proof.Machine.execHadd2 x d a b s
  | .hmul2 x d a b => Sys2Proof.Machine.execHmul2 x d a b s
  | .hfma2 x d a b => Sys2Proof.Machine.execHfma2 x d a b s
  | .fround x d a => Sys2Proof.Machine.execFround x d a s
  | .fldexp x d a b => Sys2Proof.Machine.execFldexp x d a b s
  | .fgetexp x d a => Sys2Proof.Machine.execFgetexp x d a s
  | .vceq x d a b => Sys2Proof.Machine.execVceq x d a b s
  | .vcne x d a b => Sys2Proof.Machine.execVcne x d a b s
  | .vclt x d a b => Sys2Proof.Machine.execVclt x d a b s
  | .vcle x d a b => Sys2Proof.Machine.execVcle x d a b s
  | .vcltn x d a b => Sys2Proof.Machine.execVcltn x d a b s
  | .vclen x d a b => Sys2Proof.Machine.execVclen x d a b s
  | .fceq x d a b => Sys2Proof.Machine.execFceq x d a b s
  | .fcne x d a b => Sys2Proof.Machine.execFcne x d a b s
  | .fclt x d a b => Sys2Proof.Machine.execFclt x d a b s
  | .fcle x d a b => Sys2Proof.Machine.execFcle x d a b s
  | .fcun x d a b => Sys2Proof.Machine.execFcun x d a b s
  | .fcls x d a b => Sys2Proof.Machine.execFcls x d a b s
  | .pand x d a b => Sys2Proof.Machine.execPand x d a b s
  | .por x d a b => Sys2Proof.Machine.execPor x d a b s
  | .pxor x d a b => Sys2Proof.Machine.execPxor x d a b s
  | .pandn x d a b => Sys2Proof.Machine.execPandn x d a b s
  | .pnot x d a => Sys2Proof.Machine.execPnot x d a s
  | .vmrg x d a b => Sys2Proof.Machine.execVmrg x d a b s
  | .vperm x d a b => Sys2Proof.Machine.execVperm x d a b s
  | .vlane x d a b => Sys2Proof.Machine.execVlane x d a b s
  | .vredadd x d a => Sys2Proof.Machine.execVredadd x d a s
  | .vredmin x d a => Sys2Proof.Machine.execVredmin x d a s
  | .vredmax x d a => Sys2Proof.Machine.execVredmax x d a s
  | .vredminn x d a => Sys2Proof.Machine.execVredminn x d a s
  | .vredmaxn x d a => Sys2Proof.Machine.execVredmaxn x d a s
  | .vredand x d a => Sys2Proof.Machine.execVredand x d a s
  | .vredor x d a => Sys2Proof.Machine.execVredor x d a s
  | .vredxor x d a => Sys2Proof.Machine.execVredxor x d a s
  | .fredadd x d a => Sys2Proof.Machine.execFredadd x d a s
  | .fredmin x d a => Sys2Proof.Machine.execFredmin x d a s
  | .fredmax x d a => Sys2Proof.Machine.execFredmax x d a s
  | .vscan x d a => Sys2Proof.Machine.execVscan x d a s
  | .vscanx x d a => Sys2Proof.Machine.execVscanx x d a s
  | .fscan x d a => Sys2Proof.Machine.execFscan x d a s
  | .vcompact x d a => Sys2Proof.Machine.execVcompact x d a s
  | .vexpand x d a => Sys2Proof.Machine.execVexpand x d a s
  | .vmatch x d a => Sys2Proof.Machine.execVmatch x d a s
  | .frcp x d a => Sys2Proof.Machine.execFrcp x d a s
  | .frsq x d a => Sys2Proof.Machine.execFrsq x d a s
  | .fsqrt x d a => Sys2Proof.Machine.execFsqrt x d a s
  | .fdiv x d a b => Sys2Proof.Machine.execFdiv x d a b s
  | .fexp2 x d a => Sys2Proof.Machine.execFexp2 x d a s
  | .flog2 x d a => Sys2Proof.Machine.execFlog2 x d a s
  | .fsin x d a => Sys2Proof.Machine.execFsin x d a s
  | .fcos x d a => Sys2Proof.Machine.execFcos x d a s
  | .ftanh x d a => Sys2Proof.Machine.execFtanh x d a s
  | .fsig x d a => Sys2Proof.Machine.execFsig x d a s
  | .ferf x d a => Sys2Proof.Machine.execFerf x d a s
  | .cvtfi x d a => Sys2Proof.Machine.execCvtfi x d a s
  | .cvtfn x d a => Sys2Proof.Machine.execCvtfn x d a s
  | .cvtif x d a => Sys2Proof.Machine.execCvtif x d a s
  | .cvtnf x d a => Sys2Proof.Machine.execCvtnf x d a s
  | .cvtfh x d a h => Sys2Proof.Machine.execCvtfh x d a h s
  | .cvthf x d a h => Sys2Proof.Machine.execCvthf x d a h s
  | .cvtf8 x d a c => Sys2Proof.Machine.execCvtf8 x d a c s
  | .cvt8f x d a c => Sys2Proof.Machine.execCvt8f x d a c s
  | .fpack4 x d a c => Sys2Proof.Machine.execFpack4 x d a c s
  | .funpk4 x d a c => Sys2Proof.Machine.execFunpk4 x d a c s
  | .mxscl x d a => Sys2Proof.Machine.execMxscl x d a s
  | .mxq x d a b => Sys2Proof.Machine.execMxq x d a b s
  | .mxdq x d a b => Sys2Proof.Machine.execMxdq x d a b s
  | .srseed x a => Sys2Proof.Machine.execSrseed x a s
  | .ldI8 x m => Sys2Proof.Machine.execLdI8 x m s
  | .ldN8 x m => Sys2Proof.Machine.execLdN8 x m s
  | .ldI16 x m => Sys2Proof.Machine.execLdI16 x m s
  | .ldN16 x m => Sys2Proof.Machine.execLdN16 x m s
  | .ldB32 x m => Sys2Proof.Machine.execLdB32 x m s
  | .ldB64 x m => Sys2Proof.Machine.execLdB64 x m s
  | .ldB128 x m => Sys2Proof.Machine.execLdB128 x m s
  | .ldm x m => Sys2Proof.Machine.execLdm x m s
  | .stB8 x m => Sys2Proof.Machine.execStB8 x m s
  | .stB16 x m => Sys2Proof.Machine.execStB16 x m s
  | .stB32 x m => Sys2Proof.Machine.execStB32 x m s
  | .stB64 x m => Sys2Proof.Machine.execStB64 x m s
  | .stB128 x m => Sys2Proof.Machine.execStB128 x m s
  | .stm x m => Sys2Proof.Machine.execStm x m s
  | .sta x m => Sys2Proof.Machine.execSta x m s
  | .sta64 x m => Sys2Proof.Machine.execSta64 x m s
  | .atomAdd x d a b scope => Sys2Proof.Machine.execAtomAdd x d a b scope s
  | .atomSub x d a b scope => Sys2Proof.Machine.execAtomSub x d a b scope s
  | .atomMin x d a b scope => Sys2Proof.Machine.execAtomMin x d a b scope s
  | .atomMax x d a b scope => Sys2Proof.Machine.execAtomMax x d a b scope s
  | .atomMinn x d a b scope => Sys2Proof.Machine.execAtomMinn x d a b scope s
  | .atomMaxn x d a b scope => Sys2Proof.Machine.execAtomMaxn x d a b scope s
  | .atomAnd x d a b scope => Sys2Proof.Machine.execAtomAnd x d a b scope s
  | .atomOr x d a b scope => Sys2Proof.Machine.execAtomOr x d a b scope s
  | .atomXor x d a b scope => Sys2Proof.Machine.execAtomXor x d a b scope s
  | .atomXchg x d a b scope => Sys2Proof.Machine.execAtomXchg x d a b scope s
  | .atomCas x d a b scope => Sys2Proof.Machine.execAtomCas x d a b scope s
  | .atomFadd x d a b scope => Sys2Proof.Machine.execAtomFadd x d a b scope s
  | .atomFmin x d a b scope => Sys2Proof.Machine.execAtomFmin x d a b scope s
  | .atomFmax x d a b scope => Sys2Proof.Machine.execAtomFmax x d a b scope s
  | .atomBfadd2 x d a b scope => Sys2Proof.Machine.execAtomBfadd2 x d a b scope s
  | .atomIncw x d a b scope => Sys2Proof.Machine.execAtomIncw x d a b scope s
  | .redAdd x agg a b scope => Sys2Proof.Machine.execRedAdd x agg a b scope s
  | .redSub x agg a b scope => Sys2Proof.Machine.execRedSub x agg a b scope s
  | .redMin x agg a b scope => Sys2Proof.Machine.execRedMin x agg a b scope s
  | .redMax x agg a b scope => Sys2Proof.Machine.execRedMax x agg a b scope s
  | .redMinn x agg a b scope => Sys2Proof.Machine.execRedMinn x agg a b scope s
  | .redMaxn x agg a b scope => Sys2Proof.Machine.execRedMaxn x agg a b scope s
  | .redAnd x agg a b scope => Sys2Proof.Machine.execRedAnd x agg a b scope s
  | .redOr x agg a b scope => Sys2Proof.Machine.execRedOr x agg a b scope s
  | .redXor x agg a b scope => Sys2Proof.Machine.execRedXor x agg a b scope s
  | .redFadd x agg a b scope => Sys2Proof.Machine.execRedFadd x agg a b scope s
  | .redFmin x agg a b scope => Sys2Proof.Machine.execRedFmin x agg a b scope s
  | .redFmax x agg a b scope => Sys2Proof.Machine.execRedFmax x agg a b scope s
  | .redBfadd2 x agg a b scope => Sys2Proof.Machine.execRedBfadd2 x agg a b scope s
  | .ldwB32 x m => Sys2Proof.Machine.execLdwB32 x m s
  | .ldwB64 x m => Sys2Proof.Machine.execLdwB64 x m s
  | .ldwB128 x m => Sys2Proof.Machine.execLdwB128 x m s
  | .stwB32 x m => Sys2Proof.Machine.execStwB32 x m s
  | .stwB64 x m => Sys2Proof.Machine.execStwB64 x m s
  | .stwB128 x m => Sys2Proof.Machine.execStwB128 x m s
  | .wadd x m => Sys2Proof.Machine.execWadd x m s
  | .wcas x m => Sys2Proof.Machine.execWcas x m s
  | .ldo x d a b => Sys2Proof.Machine.execLdo x d a b s
  | .sto x d a b => Sys2Proof.Machine.execSto x d a b s
  | .ldob x d a b => Sys2Proof.Machine.execLdob x d a b s
  | .stob x d a b => Sys2Proof.Machine.execStob x d a b s
  | .oinfo x d a n => Sys2Proof.Machine.execOinfo x d a n s
  | .oprobe x d a b => Sys2Proof.Machine.execOprobe x d a b s
  | .fence kind scope => Sys2Proof.Machine.execFence kind scope s
  | .pfence p t => Sys2Proof.Machine.execPfence p t s
  | .mwait y d a b => Sys2Proof.Machine.execMwait y d a b s
  | .fla => Sys2Proof.Machine.execFla s
  | .cinv a => Sys2Proof.Machine.execCinv a s
  | .cwb a => Sys2Proof.Machine.execCwb a s
  | .crsz d a => Sys2Proof.Machine.execCrsz d a s
  | .pref a l => Sys2Proof.Machine.execPref a l s
  | .cpy d a n => Sys2Proof.Machine.execCpy d a n s
  | .cpyb d a n => Sys2Proof.Machine.execCpyb d a n s
  | .cpyt d a n => Sys2Proof.Machine.execCpyt d a n s
  | .cpyx d a n => Sys2Proof.Machine.execCpyx d a n s
  | .gath d a n => Sys2Proof.Machine.execGath d a n s
  | .scat d a n => Sys2Proof.Machine.execScat d a n s
  | .scata d a n => Sys2Proof.Machine.execScata d a n s
  | .mma d a => Sys2Proof.Machine.execMma d a s
  | .mxloop d a => Sys2Proof.Machine.execMxloop d a s
  | .mxzero d a => Sys2Proof.Machine.execMxzero d a s
  | .tld d a => Sys2Proof.Machine.execTld d a s
  | .tst d a => Sys2Proof.Machine.execTst d a s
  | .mxcfg a => Sys2Proof.Machine.execMxcfg a s
  | .mxrel d a => Sys2Proof.Machine.execMxrel d a s
  | .balloc d a b => Sys2Proof.Machine.execBalloc d a b s
  | .bfree a => Sys2Proof.Machine.execBfree a s
  | .barv d a => Sys2Proof.Machine.execBarv d a s
  | .barw a b => Sys2Proof.Machine.execBarw a b s
  | .barx a b => Sys2Proof.Machine.execBarx a b s
  | .bar => Sys2Proof.Machine.execBar s
  | .barPx => Sys2Proof.Machine.execBarPx s
  | .semaAdd a b => Sys2Proof.Machine.execSemaAdd a b s
  | .semaSet a b => Sys2Proof.Machine.execSemaSet a b s
  | .semw a b => Sys2Proof.Machine.execSemw a b s
  | .tlrd d a => Sys2Proof.Machine.execTlrd d a s
  | .tlwait a b => Sys2Proof.Machine.execTlwait a b s
  | .waitk h l => Sys2Proof.Machine.execWaitk h l s
  | .waitr p a => Sys2Proof.Machine.execWaitr p a s
  | .spawn d a b => Sys2Proof.Machine.execSpawn d a b s
  | .sendh d => Sys2Proof.Machine.execSendh d s
  | .recvq d a b => Sys2Proof.Machine.execRecvq d a b s
  | .coll d a => Sys2Proof.Machine.execColl d a s
  | .peerq d a q => Sys2Proof.Machine.execPeerq d a q s
  | .launch d a => Sys2Proof.Machine.execLaunch d a s
  | .preempt d a b => Sys2Proof.Machine.execPreempt d a b s
  | .resume d a b => Sys2Proof.Machine.execResume d a b s
  | .cfgrd d a => Sys2Proof.Machine.execCfgrd d a s
  | .cfgwr a b => Sys2Proof.Machine.execCfgwr a b s
  | .wait ld st tl mx => Sys2Proof.Machine.execWait ld st tl mx s
  | .doorbellWrite f q tail => Sys2Proof.Machine.execDoorbellWrite f q tail s
  | .launchRecordTake q => Sys2Proof.Machine.execLaunchRecordTake q s
  | .lqstatResume f q => Sys2Proof.Machine.execLqstatResume f q s
  | .hostWindowRead f off len => Sys2Proof.Machine.execHostWindowRead f off len s
  | .hostWindowWrite f off data => Sys2Proof.Machine.execHostWindowWrite f off data s
  | .placeWorkgroup core slots base areas => Sys2Proof.Machine.execPlaceWorkgroup core slots base areas s
  | .eprioAge grid key => Sys2Proof.Machine.execEprioAge grid key s
  | .evictWorkgroup w => Sys2Proof.Machine.execEvictWorkgroup w s
  | .saveBegin w => Sys2Proof.Machine.execSaveBegin w s
  | .saveComplete w => Sys2Proof.Machine.execSaveComplete w s
  | .resumeWorkgroup w core slots base => Sys2Proof.Machine.execResumeWorkgroup w core slots base s
  | .resumeComplete w => Sys2Proof.Machine.execResumeComplete w s
  | .gridComplete g => Sys2Proof.Machine.execGridComplete g s
  | .regroupBinTimer core bin => Sys2Proof.Machine.execRegroupBinTimer core bin s
  | .regroupStoreRoom core => Sys2Proof.Machine.execRegroupStoreRoom core s
  | .clusterIdleGate l => Sys2Proof.Machine.execClusterIdleGate l s
  | .clusterUngate l => Sys2Proof.Machine.execClusterUngate l s
  | .rulingClassHoldEnd core => Sys2Proof.Machine.execRulingClassHoldEnd core s
  | .classWaitRaise k => Sys2Proof.Machine.execClassWaitRaise k s
  | .urgentCandidate k => Sys2Proof.Machine.execUrgentCandidate k s
  | .yieldEnd k => Sys2Proof.Machine.execYieldEnd k s
  | .sleepWake k => Sys2Proof.Machine.execSleepWake k s
  | .spillTransferDone k => Sys2Proof.Machine.execSpillTransferDone k s
  | .trapEnter k => Sys2Proof.Machine.execTrapEnter k s
  | .handlerWatchdog k => Sys2Proof.Machine.execHandlerWatchdog k s
  | .contextHaltDeadline n => Sys2Proof.Machine.execContextHaltDeadline n s
  | .contextFaultReport n => Sys2Proof.Machine.execContextFaultReport n s
  | .reportVectorTimer f => Sys2Proof.Machine.execReportVectorTimer f s
  | .loadReturn k op => Sys2Proof.Machine.execLoadReturn k op s
  | .storePerformed k op => Sys2Proof.Machine.execStorePerformed k op s
  | .waitingTableRetry k op => Sys2Proof.Machine.execWaitingTableRetry k op s
  | .walkComplete u n va => Sys2Proof.Machine.execWalkComplete u n va s
  | .serviceRecordPost n => Sys2Proof.Machine.execServiceRecordPost n s
  | .osvcServiceDone n obj sub => Sys2Proof.Machine.execOsvcServiceDone n obj sub s
  | .osvcServiceFail n obj sub => Sys2Proof.Machine.execOsvcServiceFail n obj sub s
  | .publishRecord n obj => Sys2Proof.Machine.execPublishRecord n obj s
  | .publishMove n obj sub => Sys2Proof.Machine.execPublishMove n obj sub s
  | .publishRelease n obj sub => Sys2Proof.Machine.execPublishRelease n obj sub s
  | .publishEntries n obj first count => Sys2Proof.Machine.execPublishEntries n obj first count s
  | .publishGranules n first count => Sys2Proof.Machine.execPublishGranules n first count s
  | .publishDone => Sys2Proof.Machine.execPublishDone s
  | .remoteAccessArrive r => Sys2Proof.Machine.execRemoteAccessArrive r s
  | .copyStart w c => Sys2Proof.Machine.execCopyStart w c s
  | .aonVersionAcquire w c g => Sys2Proof.Machine.execAonVersionAcquire w c g s
  | .verPassEnd w c g => Sys2Proof.Machine.execVerPassEnd w c g s
  | .copySliceComplete w c g => Sys2Proof.Machine.execCopySliceComplete w c g s
  | .barvReleaseDone k op => Sys2Proof.Machine.execBarvReleaseDone k op s
  | .copyComplete w c => Sys2Proof.Machine.execCopyComplete w c s
  | .timelineEntryWrite x v => Sys2Proof.Machine.execTimelineEntryWrite x v s
  | .matrixStepStart k => Sys2Proof.Machine.execMatrixStepStart k s
  | .matrixStepComplete k => Sys2Proof.Machine.execMatrixStepComplete k s
  | .tileTransferDone k op => Sys2Proof.Machine.execTileTransferDone k op s
  | .homeGets d line => Sys2Proof.Machine.execHomeGets d line s
  | .homeGetm d line => Sys2Proof.Machine.execHomeGetm d line s
  | .homePutm d line => Sys2Proof.Machine.execHomePutm d line s
  | .homePute d line => Sys2Proof.Machine.execHomePute d line s
  | .homeWritePerform rid da data => Sys2Proof.Machine.execHomeWritePerform rid da data s
  | .snoopInv d line => Sys2Proof.Machine.execSnoopInv d line s
  | .snoopRecToS d line => Sys2Proof.Machine.execSnoopRecToS d line s
  | .snoopRecToI d line => Sys2Proof.Machine.execSnoopRecToI d line s
  | .snoopAnswer d line => Sys2Proof.Machine.execSnoopAnswer d line s
  | .grantArrive d line => Sys2Proof.Machine.execGrantArrive d line s
  | .putAck d line => Sys2Proof.Machine.execPutAck d line s
  | .snoopResend d line => Sys2Proof.Machine.execSnoopResend d line s
  | .atomicPerform k op lane => Sys2Proof.Machine.execAtomicPerform k op lane s
  | .replayRequest rid req => Sys2Proof.Machine.execReplayRequest rid req s
  | .monitorTimeout k => Sys2Proof.Machine.execMonitorTimeout k s
  | .monitorStatusDeliver k => Sys2Proof.Machine.execMonitorStatusDeliver k s
  | .cumulusAgeExpire d buf => Sys2Proof.Machine.execCumulusAgeExpire d buf s
  | .cumulusPacketApply id bad => Sys2Proof.Machine.execCumulusPacketApply id bad s
  | .cumulusRejectLog => Sys2Proof.Machine.execCumulusRejectLog s
  | .egressDeliver q => Sys2Proof.Machine.execEgressDeliver q s
  | .rrtWrite c t v => Sys2Proof.Machine.execRrtWrite c t v s
  | .strandFail c t strand => Sys2Proof.Machine.execStrandFail c t strand s
  | .flitReceive c t seq ok => Sys2Proof.Machine.execFlitReceive c t seq ok s
  | .flitAck c t seq => Sys2Proof.Machine.execFlitAck c t seq s
  | .relayForward k c t => Sys2Proof.Machine.execRelayForward k c t s
  | .strandGate c t => Sys2Proof.Machine.execStrandGate c t s
  | .strandWakeDone c t => Sys2Proof.Machine.execStrandWakeDone c t s
  | .heartbeatSend c => Sys2Proof.Machine.execHeartbeatSend c s
  | .heartbeatMiss r c => Sys2Proof.Machine.execHeartbeatMiss r c s
  | .deadDieVerdict c => Sys2Proof.Machine.execDeadDieVerdict c s
  | .dieHaltDeadline n => Sys2Proof.Machine.execDieHaltDeadline n s
  | .dieReportPost n => Sys2Proof.Machine.execDieReportPost n s
  | .wavelengthFail p w reason => Sys2Proof.Machine.execWavelengthFail p w reason s
  | .laneRemapDone p lane => Sys2Proof.Machine.execLaneRemapDone p lane s
  | .codewordReceive p first errs flits => Sys2Proof.Machine.execCodewordReceive p first errs flits s
  | .tagGroupVerify p ok => Sys2Proof.Machine.execTagGroupVerify p ok s
  | .portSessionEstablish p ok lat => Sys2Proof.Machine.execPortSessionEstablish p ok lat s
  | .sessionRekey p => Sys2Proof.Machine.execSessionRekey p s
  | .portEnable p v => Sys2Proof.Machine.execPortEnable p v s
  | .portDisable p v => Sys2Proof.Machine.execPortDisable p v s
  | .portNarrow p v => Sys2Proof.Machine.execPortNarrow p v s
  | .portWake p v => Sys2Proof.Machine.execPortWake p v s
  | .portNarrowDone p => Sys2Proof.Machine.execPortNarrowDone p s
  | .portWakeDone p => Sys2Proof.Machine.execPortWakeDone p s
  | .portAutoWake p => Sys2Proof.Machine.execPortAutoWake p s
  | .farEndNarrow p width => Sys2Proof.Machine.execFarEndNarrow p width s
  | .farEndWake p width => Sys2Proof.Machine.execFarEndWake p width s
  | .lageUpdate p w bias mpwr temp hrs => Sys2Proof.Machine.execLageUpdate p w bias mpwr temp hrs s
  | .timeCounterSend p => Sys2Proof.Machine.execTimeCounterSend p s
  | .timeCounterReceive p t => Sys2Proof.Machine.execTimeCounterReceive p t s
  | .fabricPacketReceive p pkt => Sys2Proof.Machine.execFabricPacketReceive p pkt s
  | .fabricRetryTimeout dst cls seq => Sys2Proof.Machine.execFabricRetryTimeout dst cls seq s
  | .frgenWrite v => Sys2Proof.Machine.execFrgenWrite v s
  | .reachabilityRereadDone => Sys2Proof.Machine.execReachabilityRereadDone s
  | .sendQueueDepart core => Sys2Proof.Machine.execSendQueueDepart core s
  | .messageDeliver m => Sys2Proof.Machine.execMessageDeliver m s
  | .collHandoff n c => Sys2Proof.Machine.execCollHandoff n c s
  | .collComplete n c peers => Sys2Proof.Machine.execCollComplete n c peers s
  | .collAbandon n c reason => Sys2Proof.Machine.execCollAbandon n c reason s
  | .coldReset => Sys2Proof.Machine.execColdReset s
  | .bootStepDone ok info => Sys2Proof.Machine.execBootStepDone ok info s
  | .deviceReset => Sys2Proof.Machine.execDeviceReset s
  | .functionReset f => Sys2Proof.Machine.execFunctionReset f s
  | .contextDisable n => Sys2Proof.Machine.execContextDisable n s
  | .attestationRequest f => Sys2Proof.Machine.execAttestationRequest f s
  | .attestationDone f => Sys2Proof.Machine.execAttestationDone f s
  | .ownClaim f prio => Sys2Proof.Machine.execOwnClaim f prio s
  | .ownRelease f => Sys2Proof.Machine.execOwnRelease f s
  | .ownHeartbeat f => Sys2Proof.Machine.execOwnHeartbeat f s
  | .ownerTimeout => Sys2Proof.Machine.execOwnerTimeout s
  | .pcieLinkDown pd => Sys2Proof.Machine.execPcieLinkDown pd s
  | .stratusTakeover => Sys2Proof.Machine.execStratusTakeover s
  | .powerEstimate core drop => Sys2Proof.Machine.execPowerEstimate core drop s
  | .lvEnter core => Sys2Proof.Machine.execLvEnter core s
  | .lvExit core => Sys2Proof.Machine.execLvExit core s
  | .lvTransitionDone core => Sys2Proof.Machine.execLvTransitionDone core s
  | .powerCapStep pkg cds mem pho => Sys2Proof.Machine.execPowerCapStep pkg cds mem pho s
  | .phyLaser p w on => Sys2Proof.Machine.execPhyLaser p w on s
  | .phyLock p w => Sys2Proof.Machine.execPhyLock p w s
  | .phyTrain p w => Sys2Proof.Machine.execPhyTrain p w s
  | .phyLaserOnDone p w ok => Sys2Proof.Machine.execPhyLaserOnDone p w ok s
  | .phyLockDone p w ok => Sys2Proof.Machine.execPhyLockDone p w ok s
  | .phyTrainDone p w ok eyeh eyew => Sys2Proof.Machine.execPhyTrainDone p w ok eyeh eyew s
  | .lageFlashStore => Sys2Proof.Machine.execLageFlashStore s
  | .configRegisterWrite f ca v => Sys2Proof.Machine.execConfigRegisterWrite f ca v s
  | .illegalWord word => Sys2Proof.Machine.execIllegalWord word s
  | .fetchFault => Sys2Proof.Machine.execFetchFault s
  | .contextEnable n v => Sys2Proof.Machine.execContextEnable n v s
  | .pcieLinkUp pd gen => Sys2Proof.Machine.execPcieLinkUp pd gen s
  | .clusterPowered l => Sys2Proof.Machine.execClusterPowered l s
  | .resultWriteBack k => Sys2Proof.Machine.execResultWriteBack k s
  | .strandGatingDisable c => Sys2Proof.Machine.execStrandGatingDisable c s

end Sys2Proof.Machine
end

