-- ==== Sys2Proof/Machine/Sched.lean ====
section
/-! DEFINITION. What comes next (DESIGN CHOICE, LE 1): the cycles of the cores and of Stratus, in each the units that
arbitration lets issue (R81-R88), and between cycles the events that the machine brings about by itself. -/

namespace Sys2Proof.Machine

/-! ### Who may have a candidate -/

/-- Whether the Stratus core can issue: it is not halted or asleep, and its die is not lost (R24, R394). -/
def State.strReady (s : State) : Bool := !s.str.halted && s.str.sleepTo ≤ s.dev.tns && !(s.die s.str.active).dead

/-- The agents whose cycles pass, in the order of R398: 256 for Stratus, then by number the cores that may have a candidate, whose
pipes are occupied, or that filler runs on. -/
def State.active (s : State) : List Nat :=
  let l := (s.groups.filterMap fun kv => if s.mayIssue kv.2 then some kv.2.core else none) ++
    s.cores.filterMap fun kv => if kv.2.pipes.isEmpty && kv.2.fill2 = 0 && kv.2.fill3 = 0 then none else some kv.1
  (if s.strReady then [256] else []) ++ (List.range 256).filter fun c => l.contains c

/-- Time up to which an agent's cycles are counted. -/
def State.busyOf (s : State) (a : Nat) : Nat := if a = 256 then s.str.busy else (s.core a).busy

/-- The active agent whose cycles are counted least far. -/
def State.nextCore (s : State) : Option Nat :=
  s.active.foldl (fun (b : Option Nat) a => match b with
    | none => some a
    | some x => if s.busyOf a < s.busyOf x then some a else some x) none

/-! ### Events that may come now -/

/-- Events that an outstanding operation of group k may end with. -/
noncomputable def opEvents (k : Nat) (g : Group) (o : Op) : List Instr :=
  if o.performed then []
  else if o.wait ≠ .flight then (if o.again ≠ 0 || g.mayPark o then [.waitingTableRetry k o.id] else [])
  else match o.kind with
    | .store => [.storePerformed k o.id]
    | .red _ => ((o.accs.filter fun a => !a.settled).map fun a => .atomicPerform k o.id a.lane) ++ [.storePerformed k o.id]
    | .atom _ => ((o.accs.filter fun a => !a.settled).map fun a => .atomicPerform k o.id a.lane) ++ [.loadReturn k o.id]
    | .cfgwr => [.storePerformed k o.id]
    | .tld => [.tileTransferDone k o.id]
    | .tst => [.tileTransferDone k o.id]
    | .barvRel => [.barvReleaseDone k o.id]
    | .value => [.resultWriteBack k]
    | .agg _ _ => [.storePerformed k o.id]
    | .sendh => []
    | .matrix => []
    | .mwait => []
    | _ => [.loadReturn k o.id]

/-- Events of a group. -/
noncomputable def State.grpEvents (s : State) (k : Nat) (g : Group) : List Instr :=
  (if g.fillQ.isSome then [.resultWriteBack k] else []) ++ g.ops.flatMap (opEvents k g) ++
    (if g.spc.act then [.spillTransferDone k] else []) ++ (if g.bankWait.isSome then [.trapEnter k] else []) ++
    (if g.mxq.isEmpty then [] else [.matrixStepStart k, .matrixStepComplete k]) ++
    (if s.monPeerLost g then [.monitorStatusDeliver k] else [])

/-- Events of a workgroup and its copies. -/
noncomputable def wgEvents (w : Nat) (v : Workgroup) : List Instr :=
  (v.copies.flatMap fun c =>
    if c.started then
      (if c.slices.all CopySlice.handed then [] else [.copyStart w c.num]) ++ ((List.range c.slices.length).flatMap fun i =>
        [.aonVersionAcquire w c.num i, .verPassEnd w c.num i, .copySliceComplete w c.num i]) ++ [.copyComplete w c.num]
    else [.copyStart w c.num]) ++
    (match v.state with
     | .resident => [.saveBegin w, .evictWorkgroup w]
     | .saving => [.saveComplete w]
     | .resuming => [.resumeComplete w]
     | _ => [])

/-- The placement of a waiting workgroup at a place. -/
noncomputable def State.placeAt (s : State) (w : Wait) (core : Nat) (slots : List Nat) (base : Nat) : Instr :=
  let new : Instr := .placeWorkgroup core slots base (pickAreas (s.privSize (s.need w).ctx) (mapGet s.grids w.grid {}).lrec.privu
    (s.need w).n (s.privUsed (s.need w).ctx))
  match w.key.bind s.wg? with
  | some v => if v.state = .swapped then .resumeWorkgroup (w.key.getD 0) core slots base else new
  | none => new

/-- The placement of a waiting workgroup that is chosen here, the first that fits. -/
noncomputable def State.placeEvent (s : State) (w : Wait) : List Instr :=
  match s.findPlace w with
  | none => []
  | some (core, slots, base) => [s.placeAt w core slots base]

/-- The placements on cores that serve another workgroup than the lowest of its grid, since grids are confined (R56, R66). -/
noncomputable def State.laterEvents (s : State) : List Instr :=
  if s.grids.any fun kv => !kv.2.confined.isEmpty then
    (List.range 256).filterMap fun core => (s.nextFor core).bind fun w => (s.placeOn w core).map fun p => s.placeAt w core p.1 p.2
  else []

/-- Events of a core. -/
noncomputable def coreEvents (c : Nat) (v : Core) : List Instr :=
  (v.tr.walks.map fun x => .walkComplete c x.1 x.2) ++ (if v.sendq.isEmpty then [] else [.sendQueueDepart c]) ++
    [.regroupStoreRoom c]

/-- Events of a context. -/
noncomputable def ctxEvents (n : Nat) (c : Ctx) : List Instr :=
  (if c.services.any fun v => !v.posted then [.serviceRecordPost n] else []) ++
    (match c.stop with
     | .running => []
     | .faulted .. => [.contextFaultReport n]
     | .die .. => [.dieReportPost n])

/-- Events of a request in progress at a line's home slice. -/
noncomputable def lineEvents (line : Nat) (q : LineReq) : List Instr :=
  (q.snoops.flatMap fun n =>
    if n.answered then []
    else if n.arrived then [.snoopAnswer n.die line]
    else match n.kind with
      | 0 => [.snoopInv n.die line]
      | 1 => [.snoopRecToS n.die line]
      | _ => [.snoopRecToI n.die line]) ++
    (if q.grant.isSome then [.grantArrive q.die line] else [])

/-- Events of the home slices, the Cumulus units and the egress queues. -/
noncomputable def State.homeEvents (s : State) : List Instr :=
  s.home.busy.flatMap (fun kv => lineEvents kv.1 kv.2) ++
    (s.dies.flatMap fun kv => (mapKeys kv.2.lines fun _ l => l.st = .WP).map fun l => .putAck kv.1 l) ++
    (s.home.puts.map fun p => if p.dirty then .homePutm p.die p.line else .homePute p.die p.line) ++
    (s.home.msgs.map fun m => .monitorStatusDeliver m.grp) ++ (s.cuPkts.map fun p => .cumulusPacketApply p.id []) ++
    (if s.cuRejs.isEmpty then [] else [.cumulusRejectLog]) ++ (mapKeys s.egress fun _ e => e.state ≠ 0).map .egressDeliver

/-- Events of pair (c, t) of chiplets: flits arrive, are acknowledged, and are forwarded. -/
noncomputable def pairEvents (c t : Nat) (v : Pair) : List Instr :=
  (v.unseen.take 1).map (fun f => .flitReceive c t f.seq true) ++
    ((v.retry.take 1).filter fun f => !v.unseen.contains f).map (fun f => .flitAck c t f.seq) ++
    (v.atRelay.map RPkt.dst).eraseDups.map fun x => .relayForward t c x

/-- Events of the ports and the fabric. -/
noncomputable def State.fabEvents (s : State) : List Instr :=
  (s.ports.flatMap fun kv =>
    (match kv.2.rxq with | p :: _ => [.fabricPacketReceive kv.1 p] | [] => []) ++
      (if kv.2.state = 2 then [.portNarrowDone kv.1] else if kv.2.state = 3 then [.portWakeDone kv.1] else []) ++
      (kv.2.remaps.map fun r => .laneRemapDone kv.1 r.1) ++ [.portAutoWake kv.1]) ++
    (s.fab.unacked.flatMap fun kv => kv.2.filterMap fun x =>
      if x.pkt.dst = s.fab.dev && x.rail.isNone then some (.fabricPacketReceive 32 x.pkt) else none) ++
    (s.remHeld.map .remoteAccessArrive) ++ (s.fab.inbox.map fun e => .messageDeliver e.msg) ++
    (s.colls.filterMap fun x => if x.handed then none else some (.collHandoff x.ctx x.num)) ++
    (s.colls.filterMap fun x => if !x.done && s.collCut x then some (.collAbandon x.ctx x.num 4) else none) ++
    (if s.fab.rereading then [.reachabilityRereadDone] else []) ++
    s.pairs.flatMap fun kv => pairEvents (kv.1 / 64) (kv.1 % 64) kv.2

/-- A BAR0 write held behind window writes, once it is next. -/
noncomputable def hostEvents (f : Nat) (h : HostFn) : List Instr :=
  (match h.heldWin.find? fun e => e.1.isSome with
   | some (some d, o, _) => if 2 ^ 40 ≤ o then [.configRegisterWrite f (o - 2 ^ 40) (BitVec.ofNat 64 (leNat d))] else []
   | _ => []) ++
    if h.attstat = 1 || h.attstat = 3 then [.attestationDone f] else []

/-- Events of the device. -/
noncomputable def State.devEvents (s : State) : List Instr :=
  (if s.dev.pub.isSome then [.publishDone] else []) ++ s.hosts.flatMap (fun kv => hostEvents kv.1 kv.2) ++
    (mapKeys s.chips fun _ v => v.reported && !v.dead).map .deadDieVerdict ++
    (if (s.die 48).dead && s.str.standby then [.stratusTakeover] else []) ++
    (s.ptr.flatMap fun kv => kv.2.walks.map fun x => .walkComplete (256 + kv.1) x.1 x.2) ++
    (mapKeys s.lq fun _ q => q.en).map .launchRecordTake ++ (s.grids.map fun kv => .gridComplete kv.1) ++
    (s.waiting.flatMap s.placeEvent) ++ s.laterEvents ++
    s.clusters.flatMap fun kv => [.clusterUngate kv.1, .clusterPowered kv.1]

/-! ### Timers -/

/-- Times of a group: sleep and the handler watchdog. -/
noncomputable def State.grpTimers (s : State) (k : Nat) (g : Group) : List (Nat × Option Instr) :=
  (if g.park = 7 && !g.woken then [(g.wakeTns, some (.sleepWake k))] else []) ++
    (if g.inH && !g.halted then [(g.hTns + (s.core g.core).hwdt * 1000 + 1, some (.handlerWatchdog k))] else [])

/-- Times that the choice of a victim for the head of the waiting order waits for (R68). -/
noncomputable def State.victimTimers (s : State) : List (Nat × Option Instr) :=
  match firstWait s.waiting with
  | none => []
  | some h =>
    (h.since + s.sliceNs (s.need h).ctx, none) :: s.wgs.flatMap fun kv =>
      (kv.2.residentTns + s.sliceNs kv.2.ctx, none) :: (match s.parkedSince kv.1 with
        | some t => [(t + s.sliceNs kv.2.ctx + 1, none)]
        | none => [])

/-- Times at which something comes due, with the event, or none where time itself is what is waited for. -/
noncomputable def State.timers (s : State) : List (Nat × Option Instr) :=
  s.groups.flatMap (fun kv => s.grpTimers kv.1 kv.2) ++
    (s.home.mons.filterMap fun m => if m.deadline = 0 then none else some (m.deadline, some (.monitorTimeout m.grp))) ++
    (s.cores.flatMap fun kv => (kv.2.bins.filter fun b => !b.2.closed).map fun b =>
      (s.binDue kv.1 b.2, some (.regroupBinTimer kv.1 b.1))) ++
    (s.cores.flatMap fun kv => if kv.2.trn then [(kv.2.lvTns + 2000, some (.lvTransitionDone kv.1))] else []) ++
    (s.home.busy.flatMap fun kv => (kv.2.snoops.filter fun n => !n.answered).map fun n =>
      (n.sent + 10000, some (.snoopResend n.die kv.1))) ++
    (s.dies.flatMap fun kv => kv.2.bufs.map fun b => (b.2.start + kv.2.aget, some (.cumulusAgeExpire kv.1 b.1))) ++
    (s.ctxs.flatMap fun kv => match kv.2.stop with
      | .running => []
      | .faulted t .. => [(t + 2000, some (.contextHaltDeadline kv.1))]
      | .die t .. => [(t + 2000, some (.dieHaltDeadline kv.1))]) ++
    (s.hosts.filterMap fun kv => if kv.2.vecPending then some (kv.2.vecTns + 10000, some (.reportVectorTimer kv.1)) else none) ++
    (s.grids.map fun kv => (agedDue (s.sliceNs kv.2.lrec.ctx) kv.2.waitTns kv.2.lrec.prio kv.2.eprio, some (.eprioAge true kv.1))) ++
    (s.wgs.filterMap fun kv => if kv.2.state = .swapped || kv.2.state = .waiting then
      some (agedDue (s.sliceNs kv.2.ctx) kv.2.waitTns kv.2.prio kv.2.eprio, some (.eprioAge false kv.1)) else none) ++
    (s.fab.unacked.flatMap fun kv => (kv.2.filter fun x => x.pkt.dst ≠ s.fab.dev).map fun x =>
      (x.tns + 20000, some (.fabricRetryTimeout x.pkt.dst x.pkt.cls x.pkt.seq))) ++
    (if s.dev.ownHeld then [(s.dev.ownBeat + 300000000, some .ownerTimeout)] else []) ++
    ((List.range 64).map fun l => ((s.cluster l).idleTns + (s.cluster l).clidle * 1000, some (.clusterIdleGate l))) ++
    (s.pairs.flatMap fun kv => match kv.2.waking with
      | some b => [(b + 1200, some (.strandWakeDone (kv.1 / 64) (kv.1 % 64)))]
      | none => []) ++
    s.victimTimers ++ (if s.str.halted then [(s.str.haltTns + 10000000, some .stratusTakeover)] else [(s.str.sleepTo, none)]) ++
    s.ports.flatMap fun kv => (List.range 10).flatMap fun w =>
      (if physt kv.2 w 2 2 = 1 then [(mapGet kv.2.lockTns w 0 + 2000000, some (.phyLockDone kv.1 w false))] else []) ++
        if physt kv.2 w 4 2 = 1 then [(mapGet kv.2.trainTns w 0 + 1000000, some (.phyTrainDone kv.1 w false 0 0))] else []

/-- Put a timer in its place by time. -/
noncomputable def insTimer (t : Nat × Option Instr) : List (Nat × Option Instr) → List (Nat × Option Instr)
  | [] => [t]
  | x :: r => if t.1 < x.1 then t :: x :: r else x :: insTimer t r

/-! ### What the machine brings about by itself -/

/-- What the memory-bound fraction of a core asks for: low-voltage mode from LVTHR on, out of it below LVEXT (R413). -/
noncomputable def State.lvEvents (s : State) (c : Nat) : List Instr :=
  if !s.dev.lven then []
  else if s.lvAsks c true then [.lvEnter c]
  else if s.lvAsks c false then [.lvExit c]
  else []

/-- Every event that may come now, also the timers that are due, beginning with another one each time. -/
noncomputable def State.eventsNow (s : State) : List Instr :=
  let l := s.groups.flatMap (fun kv => s.grpEvents kv.1 kv.2) ++ s.wgs.flatMap (fun kv => wgEvents kv.1 kv.2) ++
    s.cores.flatMap (fun kv => coreEvents kv.1 kv.2) ++ s.ctxs.flatMap (fun kv => ctxEvents kv.1 kv.2) ++
    s.homeEvents ++ s.fabEvents ++ s.devEvents ++ s.cores.flatMap (fun kv => s.lvEvents kv.1) ++
    (s.timers.filterMap fun t => if t.1 ≤ s.dev.tns then t.2 else none)
  l.rotateLeft (s.came % (l.length + 1))

/-- The machine after the first event of a list that changes it. -/
noncomputable def State.firstChange (s : State) : List Instr → Option State
  | [] => none
  | i :: r => match exec i s with
    | .next t => if t = s then s.firstChange r else some t
    | _ => s.firstChange r

/-- The machine after the earliest timer that changes it. -/
noncomputable def State.firstTimer (s : State) : List (Nat × Option Instr) → Option State
  | [] => none
  | (t, none) :: r => if s.dev.tns < t then some (s.atLeast t) else s.firstTimer r
  | (_, some i) :: r => match s.firstChange [i] with
    | some u => some u
    | none => s.firstTimer r

/-! ### Running a unit -/

/-- A fetched unit is decoded and runs; words that are no unit are an ILL (R45). -/
noncomputable def runWords (h : Bool) (ws : List Word) (s : State) : Out :=
  match decode h ws with
  | .ok (i, _) => exec i s
  | .error e => exec (.illegalWord e.word) s

/-- The agent that issues fetches its unit and runs it. -/
noncomputable def State.runUnit (s : State) : Out :=
  match s.cur with
  | .stratus =>
    (match fetchUnit s.fetchStr s.sgrp.pc with
     | .ok ws => runWords s.sgrp.inH ws s
     | _ => exec .fetchFault s)
  | .grp k => match s.grp? k with
    | some g =>
      (match s.fetchGrp g with
       | .ok ws => runWords g.inH ws (s.fillI g ws)
       | _ => exec .fetchFault s)
    | none => .next s

/-! ### Candidates of a cycle (R82-R84, R86, R88) -/

/-- A ready candidate of a core: its group, what it would occupy and read, and what R83 orders it by. -/
structure Cand where
  key : Nat
  part : Nat
  cls : Nat
  /-- Its pipe; none where a fault is taken or the words are no unit. -/
  pipe : Option Nat
  reads : List Nat
  div : Bool
  balloc : Bool
  semw : Bool
  urgent : Bool
  lost : Bool
  eprio : Nat
  age : Nat
  slot : Nat
  firstN : Nat
deriving DecidableEq, Repr

/-- The order of R83. -/
def Cand.before (a b : Cand) : Bool :=
  let byAge := if a.age ≠ b.age then decide (b.age < a.age) else decide (a.slot < b.slot)
  if a.urgent ≠ b.urgent then a.urgent
  else if a.urgent then byAge
  else if a.lost ≠ b.lost then a.lost
  else if a.eprio ≠ b.eprio then decide (b.eprio < a.eprio)
  else byAge

/-- Put a candidate in its place in the order. -/
def insCand (c : Cand) : List Cand → List Cand
  | [] => [c]
  | x :: r => if c.before x then c :: x :: r else x :: insCand c r

/-- Reads of a list of registers that fall on a bank (R84). -/
def bankReads (l : List Nat) (b : Nat) : Nat := (l.filter fun r => r % 4 = b).length

/-- Whether a unit alone needs three or more reads from one bank (R84). -/
def Cand.solo (c : Cand) : Bool := (List.range 4).any fun b => 3 ≤ bankReads c.reads b

/-- Whether candidate `b` conflicts with `a`, which issues first (R83). -/
def Core.conflict (v : Core) (a b : Cand) : Bool :=
  (match a.pipe, b.pipe with
   | some m, some n =>
     let p := pipeTaken m (v.occupied a.part 2)
     let q := pipeTaken n (v.occupied a.part 2 || p = 2)
     p = q || v.occupied a.part q
   | _, _ => false) || (List.range 4).any fun i => 2 < bankReads a.reads i + bankReads b.reads i

/-- Whether the pipe of a candidate accepts it (R81, R138). -/
def Core.accepts (v : Core) (c : Cand) : Bool :=
  match c.pipe with
  | some m => !v.occupied c.part (pipeTaken m (v.occupied c.part 2)) && !(c.div && (mapGet? v.divs c.part).isSome)
  | none => true

/-- The candidates of a partition that issue, of the eligible ones in order, and the one that loses (R83). -/
def Core.pick (v : Core) : List Cand → List Cand × Option Nat
  | [] => ([], none)
  | [a] => ([a], none)
  | a :: b :: r =>
    if v.conflict a b then (a :: (r.find? fun x => !v.conflict a x).toList, some b.key) else ([a, b], none)

/-- The machine as it would be if group `k` ran its unit now. -/
noncomputable def State.trial (s : State) (k : Nat) : State :=
  match ({ s with cur := .grp k, stalled := false, issued := none } : State).runUnit with
  | .next t => t
  | _ => s.stall

/-- The candidate of group `k` from its trial `t`. A unit that would trap needs its pipe as well (R82); a deferred fault or DIE, taken
before the unit is decoded, needs none (R104). -/
noncomputable def State.candOf (s t : State) (k : Nat) (g : Group) : Cand :=
  let faults := s.dieWaits g || (match t.grp? k with | some h => h.faults.length < g.faults.length | none => false)
  { key := k, part := partOfSlot g.slot,
    cls := match t.issued with | some i => i.cls | none => s.candClass g,
    pipe := match t.issued with | some i => some i.pipe | none => if faults then none else s.candPipe g,
    div := match t.issued with | some i => i.div | none => !faults && s.candDiv g,
    reads := match t.issued with | some i => i.reads | none => [],
    balloc := match t.issued with | some i => i.balloc | none => false,
    semw := match t.issued with | some i => i.semw | none => false,
    urgent := g.isUrgent, lost := mapGet? (s.core g.core).lost (partOfSlot g.slot) = some k,
    eprio := match s.wg? g.wg with | some w => w.eprio | none => 0,
    age := g.streak, slot := g.slot, firstN := g.firstN }

/-- Try the group's unit: a unit that is not ready, or waits for its words, leaves what it has set to work; one that is
ready changes nothing yet and is a candidate. -/
noncomputable def State.tryGrp (p : State × List Cand) (k : Nat) : State × List Cand :=
  match p.1.grp? k with
  | none => p
  | some g =>
    let t := p.1.trial k
    let waits := t.stalled || match t.grp? k with | some h => h.iparked.isSome | none => false
    if waits then ({ t with cur := p.1.cur, stalled := false, issued := none }, p.2)
    else (p.1, p.2 ++ [p.1.candOf t k g])

/-- The ready candidates of core `c`, in the order of R83, and the machine after the trials. A group that has yielded has
none while another of its partition has one (R111). -/
noncomputable def State.candidates (s : State) (c : Nat) : State × List Cand :=
  let ks := mapKeys s.groups fun _ g => g.core = c && s.mayIssue g
  let (s1, l) := ks.foldl State.tryGrp (s, [])
  let ready := l.filter (s1.core c).accepts
  let yields (x : Cand) : Bool := match s1.grp? x.key with | some g => g.yielding ≠ 0 | none => false
  let l1 := ready.filter fun x => !(yields x && ready.any fun y => y.part = x.part && y.key ≠ x.key && !yields y)
  (s1, l1.foldl (fun m x => insCand x m) [])

/-- The class that the candidate may raise RC to: by CLSQ partitions, by CLSW cycles as its partition's first, or by
urgency (R86, R88); a candidate that may not raise it gives C1. -/
def Core.raiseBy (v : Core) (l : List Cand) (x : Cand) : Nat :=
  let parts := ((l.filter fun y => x.cls ≤ y.cls).map Cand.part).eraseDups.length
  let first := (l.find? fun y => y.part = x.part) = some x
  if v.clsq ≤ parts || (first && v.clsw ≤ x.firstN) || x.urgent then x.cls else 1

/-- RC of a cycle (R86): without a hold it falls to the highest class ready; then the candidates raise it, and a raise
starts a hold. -/
def Core.rule (v : Core) (l : List Cand) : Core :=
  let v1 := v.decay (l.foldl (fun a x => max a x.cls) 1)
  let rc := l.foldl (fun a x => max a (v1.raiseBy l x)) v1.rc
  if v1.rc < rc then { v1 with rc := rc, hold := v1.clsh } else v1

/-- Class of the filler of the coming cycle (R411). -/
def Core.fillClass (v : Core) : Nat :=
  if v.fill3 ≠ 0 && (List.range 8).any (fun p => !v.occupied p 3) then 3
  else if v.fill2 ≠ 0 && (List.range 8).any (fun p => !v.occupied p 1 || !v.occupied p 2) then 2
  else 1

/-- What issues in a cycle, by partition, and who loses (R83): the class of filler is eligible as well (DEDUCED, LE 71). -/
def Core.picks (v : Core) (l : List Cand) : List (List Cand × Option Nat) :=
  (List.range 8).map fun p =>
    if v.solo.contains p then ([], none)
    else v.pick (l.filter fun x => x.part = p && (x.cls ≤ max v.rc v.fillClass || x.urgent))

/-- A group after a cycle's candidates are known: how long its candidate has been ready without issuing, and how long it
has been its partition's first. -/
def Group.waited (g : Group) (l : List Cand) (issues : List Nat) (k : Nat) : Group :=
  match l.find? fun x => x.key = k with
  | some x =>
    let first := (l.find? fun y => y.part = x.part) = some x
    if issues.contains k then { g with streak := 0, firstN := 0 }
    else { g with streak := g.streak + 1, firstN := if first then g.firstN + 1 else 0, urgent := x.urgent }
  | none => { g with streak := 0, firstN := 0 }

/-! ### Cycles (R19, R81, R85) -/

/-- Candidates in the order of a number they have. -/
def orderBy (f : Cand → Nat) (l : List Cand) : List Cand :=
  let ins (c : Cand) (m : List Cand) : List Cand := m.filter (fun x => f x ≤ f c) ++ c :: m.filter fun x => f c < f x
  l.foldl (fun m c => ins c m) []

/-- The order in which the units of a cycle take effect: those of `balloc` by group index of their workgroup, then the others by
global group number, `semw` after what changes a semaphore (R278, R393, R398). -/
def inOrder (l : List Cand) : List Nat :=
  (orderBy Cand.key (l.filter Cand.balloc) ++ orderBy Cand.slot (l.filter fun c => !c.balloc && !c.semw) ++
    orderBy Cand.slot (l.filter Cand.semw)).map Cand.key

/-- Core `c`'s next cycle begins: its candidates are found and ordered, RC is set, and those that issue are planned. -/
noncomputable def State.beginCore (s : State) (c : Nat) : State :=
  let (s1, l) := s.candidates c
  let v := (s1.core c).rule l
  let ps := v.picks l
  let issues := inOrder (ps.flatMap Prod.fst)
  let s2 := s1.setCore c { v with
    lost := (List.range 8).filterMap fun p => ((ps.getD p ([], none)).2).map fun k => (p, k),
    solo := (List.range 8).filter fun p => (ps.getD p ([], none)).1.any Cand.solo, issues := !issues.isEmpty }
  let s3 : State := { s2 with
    groups := mapAll s2.groups fun k g => if g.core = c then g.waited l issues k else g,
    plan := issues.map Agent.grp, cyc := some c, turn := s2.turn + 1, tried := if l.isEmpty then s2.tried + 1 else 0 }
  if l.any Cand.urgent then s3.leaveLv c else s3

/-- The next cycle begins: of the active agent whose cycles are counted least far, at the time they are counted to. -/
noncomputable def State.nextCycle (s : State) : State :=
  match s.nextCore with
  | none => s
  | some a =>
    let s1 := s.modDev fun d => d.advance (s.busyOf a - d.now5)
    if a = 256 then
      { s1 with plan := [.stratus], cyc := some 256, turn := s1.turn + 1, stalled := false,
                str := { s1.str with busy := max s1.str.busy s1.dev.now5 } }
    else (s1.settleCore a).beginCore a

/-- The class of a core's cycle: the highest of the units and the filler in first stages, C1 if none (R19, R85). -/
def Core.cycleClass (v : Core) : Nat := v.pipes.foldl (fun a p => max a p.2.2) v.fillClass

/-- A core after its cycle: it is counted in its class, which sets its period (R19, R85, R89). -/
def Core.cycled (v : Core) : Core :=
  let k := v.cycleClass
  { v with cyc := v.cyc + 1, cls := v.cls.set (k - 1) (v.cls.getD (k - 1) 0 + 1), busy := v.busy + period k v.lv,
           hold := v.hold - 1, fill3 := if v.fillClass = 3 then v.fill3 - 1 else v.fill3,
           fill2 := if v.fillClass = 2 then v.fill2 - 1 else v.fill2,
           pipes := v.pipes.filterMap fun p => if p.2.1 ≤ 1 then none else some (p.1, p.2.1 - 1, p.2.2),
           divs := v.divs.filterMap fun p => if p.2 ≤ 1 then none else some (p.1, p.2 - 1) }

/-- The cycle under way ends; of Stratus, one nanosecond (R394). -/
def State.endCycle (s : State) : State :=
  match s.cyc with
  | none => s
  | some c =>
    if c = 256 then
      { s with cyc := none, str := { s.str with busy := s.str.busy + 200 }, tried := if s.stalled then s.tried + 1 else 0 }
    else
      let f := (s.core c).fillClass
      { ((s.fillEnergy (s.core c) (if f = 2 then 1 else 0) (if f = 3 then 1 else 0)).modCore c fun v => { v.cycled with
          bound := if s.dev.lven then countUs v.bound (v.busy / 200000) 1 (v.memWait && !v.issues) else v.bound,
          memWait := s.memWaits c }) with
        cyc := none, groups := mapAll s.groups fun _ g => if g.core = c then { g with yielding := g.yielding - 1 } else g }

/-- Cycles after which an event may come although units issue (DESIGN CHOICE, LE 1). -/
def turnLength : Nat := 64

/-- No unit is left in the cycle: it ends; once no agent has had a ready candidate, or `turnLength` cycles have passed,
the first event that may come comes; where none comes and nothing is ready, the earliest timer; else the next cycle
begins. -/
noncomputable def State.turnOver (s : State) : State :=
  let s1 := s.endCycle
  let quiet := s1.active.length ≤ s1.tried
  let late := if quiet then s1.firstTimer (s1.timers.foldl (fun l t => insTimer t l) []) else none
  if quiet || turnLength ≤ s1.turn then
    match (s1.firstChange s1.eventsNow).orElse fun _ => late with
    | some t => { t with turn := 0, tried := 0, came := t.came + 1, stalled := false }
    | none => ({ s1 with turn := 0 } : State).nextCycle
  else s1.nextCycle

/-! ### Steps -/

/-- An event from the agenda comes; a word that stands there is no event and is dropped. -/
def State.comes (s : State) (i : Instr) (r : List Instr) : Out :=
  if (encode i).isEmpty then exec i { s with agenda := r, turn := 0, tried := 0 } else .next { s with agenda := r }

/-- Whether an event is the one a device that holds reset takes. -/
def isCold : Instr → Bool
  | .coldReset => true
  | _ => false

end Sys2Proof.Machine
end

