-- ==== Sys2Proof/Machine/Step.lean ====
section
/-! DEFINITION. One step of the machine, and the state in which a given word is the next to run. -/

namespace Sys2Proof.Machine

/-- One step (DESIGN CHOICE, LE 1): a device that holds reset takes a cold reset only; otherwise the first event of the
agenda, else the next unit that issues in the cycle under way, else what comes when that cycle is over. -/
noncomputable def step (s : State) : Host.Outcome State Fault Refusal :=
  if s.dev.reset && !isCold (s.agenda.headD .nop) then .fault .holdsReset
  else match s.agenda with
    | i :: r => s.comes i r
    | [] => match s.plan with
      | a :: r => ({ s with cur := a, plan := r, stalled := false } : State).runUnit
      | [] => .next s.turnOver

/-- `s` with an instruction stored where `step` fetches next (DESIGN CHOICE, LE 6): a code object of context 0 at VA 0 with its
directory, record and sub-tile entry in memory, the words in its sub-tile, and a resident group at VA 0 that issues next in
the cycle under way of core 0.
The instruction's bits above `nbits` are zero. -/
def State.withFetchWord (s : State) (nbits w : Nat) : State :=
  let put (m : Mem) (a n v : Nat) : Mem := memWriteBytes m a (leBytes n v)
  let m1 := put s.mem 0x10040 8 (3 + 5 * 2 ^ 2 + 12 * 2 ^ 19)
  let m2 := put m1 0x10048 8 (2 ^ 31)
  let m3 := put m2 0x10050 8 0x40000
  let m4 := put m3 0x10058 8 0x1000
  let m5 := memWriteBytes m4 0x10060 (List.replicate 32 0)
  let m6 := put m5 0x20000 8 0x30001
  let m7 := put m6 0x30000 4 0x80000001
  let m8 := put m7 0x40000 8 0x50001
  let m9 := put m8 0x50000 12 (w % 2 ^ nbits)
  { s with
    agenda := [], cur := .grp 16, plan := [.grp 16], cyc := some 0, stalled := false, turn := 0, tried := 0, nextId := max 2 s.nextId,
    dev := { s.dev with reset := false },
    mem := m9,
    home := { s.home with dirty := s.home.dirty.filter fun c => !(0x10000 ≤ c.1 && c.1 < 0x51000) },
    gdir := mapDel s.gdir 0,
    cores := mapSet s.cores 0 { s.core 0 with icache := [], tr := {} },
    ctxs := mapSet s.ctxs 0 { s.ctx 0 with en := true, orb := 0x4000000010000, otdr := 0x20000, stop := .running, moving := [],
                                           invalid := [] },
    wgs := mapSet s.wgs 1 { state := .resident },
    groups := mapSet s.groups 16 { wg := 1 } }

end Sys2Proof.Machine
end

