-- ==== Sys2Proof/Certificates/Slice0/Obligations.lean ====
section
/-! DEFINITION. The statements about the model. A unit is stated at the group whose turn it is, under the conditions of
R82 on its registers; each result is written out from the spec's own rule. An event is stated under the conditions that
the model's record of it asks for. -/

open Sys2Proof Sys2Proof.Machine

namespace Sys2Proof.Claims

/-- Group `g`, of key `k`, may issue now (R67, R82): it is its turn, nothing holds it back, its workgroup is resident. -/
structure Ready (s : State) (k : Nat) (g : Group) : Prop where
  cur : s.cur = .grp k
  grp : s.grp? k = some g
  can : g.canIssue = true
  res : s.residentGrp g = true

/-- The registers a unit reads and writes are at rest (R82, R104, R195): no outstanding access writes one of them, no store
keeps one that the unit writes, no recorded fault targets one. -/
structure Quiet (g : Group) (rd wr : List Dst) : Prop where
  pend : dstMeet (rd ++ wr) g.pending = false
  kept : dstMeet wr g.kept = false
  flt : (g.takable.any fun f => dstMeet (rd ++ wr) f.targets) = false

/-- Nothing is to be taken at a fault point: no recorded fault, no verdict on the context (R27, R104). -/
structure Clear (s : State) (g : Group) : Prop where
  flt : g.takable = []
  die : s.dieWaits g = false

/-- The group past a unit of `n` words; the last unit issued outside handler mode is kept for SPF (R103). -/
def past (g : Group) (n : Nat) : Group :=
  { g with pc := g.pc + BitVec.ofNat 64 (4 * n), urgent := false, upc := if g.inH then g.upc else g.pc }

/-- The spill engine starts at position `pos` of a stack (1 return, 2 reconvergence), filling or spilling, before a unit that needs it
issues (R93; DEDUCED, LE 74). -/
def stackRuns (s : State) (k : Nat) (g : Group) (pos : Nat) (fill : Bool) (stk : Nat) : State :=
  (s.setGrp k { g with spc := { pos := pos, dir := fill, stk := stk, act := true }, upc := g.pc }).stall

/-- The machine after a unit of major `maj` and class `cls` that leaves group `k` as `h`: it occupies its pipe, and its energy
goes to its context (R81, R85, R412). -/
def done (s : State) (k : Nat) (g h : Group) (maj cls : Nat) (src : List VFld := []) : State :=
  (s.setGrp k h).paid g { pipe := pipeOf maj 0, cls := cls, reads := g.physReads src }

/-- PC + 4 × a signed offset (R30). -/
def target (g : Group) (o : Int) : DWord := g.pc + BitVec.ofInt 64 (4 * o)

/-- 1 for true, 0 for false. -/
def bit (c : Bool) : DWord := if c then 1 else 0

/-- R129 and R130, register by register: constructor, class, result from s[A] and s[B]. -/
def scalarThree : List ((SReg → SReg → SReg → Instr) × Nat × (DWord → DWord → DWord)) :=
  [(.sadd, 1, fun a b => a + b), (.ssub, 1, fun a b => a - b), (.smul, 2, fun a b => a * b),
   (.smulh, 2, fun a b => BitVec.ofInt 64 (a.toInt * b.toInt / 2 ^ 64)),
   (.smulhn, 2, fun a b => BitVec.ofNat 64 (a.toNat * b.toNat / 2 ^ 64)),
   (.sdiv, 4, fun a b => if b = 0 then BitVec.allOnes 64 else BitVec.ofInt 64 (a.toInt.tdiv b.toInt)),
   (.sdivn, 4, fun a b => if b = 0 then BitVec.allOnes 64 else BitVec.ofNat 64 (a.toNat / b.toNat)),
   (.srem, 4, fun a b => if b = 0 then a else BitVec.ofInt 64 (a.toInt.tmod b.toInt)),
   (.sremn, 4, fun a b => if b = 0 then a else BitVec.ofNat 64 (a.toNat % b.toNat)),
   (.sand, 1, fun a b => a &&& b), (.sor, 1, fun a b => a ||| b), (.sxor, 1, fun a b => a ^^^ b),
   (.sandn, 1, fun a b => a &&& ~~~ b), (.sshl, 1, fun a b => a <<< (b.toNat % 64)), (.sshr, 1, fun a b => a >>> (b.toNat % 64)),
   (.ssra, 1, fun a b => a.sshiftRight (b.toNat % 64)), (.srol, 1, fun a b => a.rotateLeft (b.toNat % 64)),
   (.smin, 2, fun a b => if b.toInt < a.toInt then b else a), (.smax, 2, fun a b => if a.toInt < b.toInt then b else a),
   (.sminn, 2, fun a b => if b.toNat < a.toNat then b else a), (.smaxn, 2, fun a b => if a.toNat < b.toNat then b else a),
   (.sceq, 2, fun a b => bit (a = b)), (.scne, 2, fun a b => bit (a ≠ b)),
   (.sclt, 2, fun a b => bit (a.toInt < b.toInt)), (.scle, 2, fun a b => bit (a.toInt ≤ b.toInt)),
   (.scltn, 2, fun a b => bit (a.toNat < b.toNat)), (.sclen, 2, fun a b => bit (a.toNat ≤ b.toNat))]

/-- R131, form by form: constructor, class, result from s[A] and the 10-bit immediate. -/
def scalarImm : List ((SReg → SReg → BitVec 10 → Instr) × Nat × (DWord → BitVec 10 → DWord)) :=
  [(.saddi, 1, fun a i => a + i.signExtend 64), (.sandi, 1, fun a i => a &&& i.signExtend 64),
   (.sori, 1, fun a i => a ||| i.signExtend 64), (.sxori, 1, fun a i => a ^^^ i.signExtend 64),
   (.sshli, 1, fun a i => a <<< (i.toNat % 64)), (.sshri, 1, fun a i => a >>> (i.toNat % 64)),
   (.ssrai, 1, fun a i => a.sshiftRight (i.toNat % 64)), (.sclti, 2, fun a i => bit (a.toInt < i.toInt))]

/-- Bit counts and the reversal of R135. -/
def scalarOne : List ((SReg → SReg → Instr) × (DWord → DWord)) :=
  [(.spopc, fun a => BitVec.ofNat 64 ((List.range 64).filter fun i => a.getLsbD i).length),
   (.sclz, fun a => BitVec.ofNat 64 (64 - bitLen a.toNat)),
   (.sctz, fun a => BitVec.ofNat 64 (((List.range 64).find? fun i => a.getLsbD i).getD 64)),
   (.sbrev, fun a => BitVec.ofNat 64 (natOfBits 64 fun i => a.getLsbD (63 - i)))]

/-- The queues of a group, those whose bit of `v` is set emptied, depths kept (R117). -/
def emptied (g : Group) (v : DWord) : List QReg :=
  g.queues.zipIdx.map fun p => if v.getLsbD p.2 then { p.1 with ents := [] } else p.1

/-- R11, R58, R89, R91, R94, R125, R126: special registers that `mfs` reads, with what a group reads in them. -/
def specialRead (s : State) (g : Group) : List (SpecReg × DWord) :=
  let v := s.core g.core
  let f := v.fillIn (s.dev.now5 - v.busy)
  let on := (s.cluster (clusterOfCore g.core)).gate = .powered
  let idle := f.2 + f.1 + (s.dev.now5 - (v.busy + f.1 * period 3 v.lv + f.2 * period 2 v.lv)) / period 1 v.lv
  [(0x00, g.exm), (0x01, g.mode), (0x02, g.fmt), (0x03, BitVec.ofNat 64 g.wb),
   (0x04, BitVec.ofNat 64 (g.n + (g.queues.map QReg.depth).sum * 2 ^ 11 + g.low * 2 ^ 22 + g.high * 2 ^ 36)),
   (0x05, BitVec.ofNat 64 g.slot), (0x06, g.wgid), (0x07, BitVec.ofNat 64 (g.slot / 128 + s.fab.dev * 256)),
   (0x08, regGet g.lvc 0), (0x0F, regGet g.lvc 7), (0x10, BitVec.ofNat 64 (v.cyc + if on then idle else 0)), (0x11, BitVec.ofNat 64 s.dev.tns),
   (0x13, BitVec.ofNat 64 (v.cls.getD 1 0 + if on then f.2 else 0)),
   (0x16, BitVec.ofNat 64 (g.counter .ld % 256 + g.counter .st % 256 * 2 ^ 8 + g.counter .tl % 256 * 2 ^ 16 + g.counter .mx % 256 * 2 ^ 24)),
   (0x19, g.trapc), (0x1A, g.trapa), (0x1B, g.trappc), (0x1C, g.trapi), (0x1D, g.prm), (0x1E, bit (s.ctx g.ctx).sys),
   (0x1F, BitVec.ofNat 64 (s.ctx g.ctx).diem), (0x20, BitVec.ofNat 64 (s.ctx g.ctx).enrg),
   (0x22, BitVec.ofNat 64 (g.spc.pos % 2 ^ 14 + (if g.spc.dir then 2 ^ 14 else 0) + g.spc.stk * 2 ^ 15 + if g.spc.act then 2 ^ 17 else 0))]

/-- The word of a unit of major 0 (R42), as its traps hold it in TRAPI. -/
def word0 (fn d a b : Nat) : DWord := (wordA 0 d a b fn).setWidth 64

/-- Entering the handler (R105, steps 2 to 4), from the trap's cause with its deferred bit, address, PC and information, and
the resume PC. -/
def entered (g : Group) (s : State) (cause : Nat) (a pc i resume : DWord) : Group :=
  { g with
    trapc := BitVec.ofNat 64 cause, trapa := a, trappc := pc, trapi := i,
    h := [], bank := [0, 0, 0, 0, 0, 0, g.exm, resume], exm := allOnes, pc := g.handler, inH := true,
    hTns := s.dev.tns, hId := s.nextId, park := 0, woken := false, parkArg := [], exiting := false, flaWait := false,
    dieH := cause % 256 = 0x0F, qtr := if cause = 3 then i.toNat % 16 else g.qtr, qwh := if cause = 3 then a.toNat % 4 else g.qwh }

/-- The group's handler can be entered at once (R105, R107): it has one, it is outside handler mode, no group of the partition
holds the bank or waits for it, and its context is not stopped (R27, R108). -/
structure CanEnter (s : State) (g : Group) : Prop where
  has : g.handler ≠ 0
  out : g.inH = false
  free : s.bankHolder g.core (partOfSlot g.slot) = none
  line : s.bankWaiters g.core (partOfSlot g.slot) = []
  wait : g.bankWait = none
  run : (s.ctx g.ctx).stop = .running

/-- The active lanes of a vector unit and what a crossbar field does to an operand are the model's `activeMask` and `xbar`
(R35, R36); the statement VectorOperands says what they are. A vector unit may take its effect (R82, R96, R97): its registers are
at rest, the heads it reads are filled, and no queue check fails. -/
structure ReadyV (s : State) (k : Nat) (g : Group) (x : Pfx) (src : List VFld) (dst : List VFld) (rd wr : List Dst) : Prop where
  now : Ready s k g
  quiet : Quiet g (rd ++ match x.x with | some y => if y.g then [.p y.pred.val] else [] | none => []) wr
  heads : headsFilled g (queuesOf src) = true
  queues : queueCheck g (queuesOf src) (queuesOf dst) x.peek (activeMask x g ≠ 0) = none

/-- The group past a vector unit: its source queues popped, unless it peeks or no lane is active (R96, R97). -/
def pastV (g : Group) (x : Pfx) (src : List VFld) : Group :=
  past (if x.peek || activeMask x g = 0 then g else (queuesOf src).eraseDups.foldl Group.popQ g) x.len

/-- The machine after a vector unit that reads `src`: a crossbar pattern raises a class 1 to 2 (R43). -/
def doneV (s : State) (k : Nat) (g h : Group) (x : Pfx) (maj fn cls : Nat) (src : List VFld) : State :=
  (s.setGrp k h).paid g { pipe := pipeOf maj fn, reads := g.physReads src,
                          cls := if x.xa.val / 64 = 0 ∧ x.xb.val / 64 = 0 then cls else max 2 cls,
                          div := maj = 9 && 6 ≤ fn && fn ≤ 9 }

/-- Operand A of a unit in lane i, and operand B. -/
def opA (g : Group) (x : Pfx) (a : VFld) (i : Nat) : Word := xbar x.xa (g.src a) i
def opB (g : Group) (x : Pfx) (b : VFld) (i : Nat) : Word := xbar x.xb (g.src b) i

/-- Two-source integer units of major 9 (R139 to R141): constructor, function code, class, lane result. -/
def vecTwo : List ((Pfx → VFld → VFld → VFld → Instr) × Nat × Nat × (Word → Word → Word)) :=
  [(.vadd, 0, 1, fun a b => a + b), (.vsub, 1, 1, fun a b => a - b), (.vmul, 2, 2, fun a b => a * b),
   (.vmulh, 3, 2, fun a b => BitVec.ofInt 32 (a.toInt * b.toInt / 2 ^ 32)),
   (.vmulhn, 4, 2, fun a b => BitVec.ofNat 32 (a.toNat * b.toNat / 2 ^ 32)),
   (.vdiv, 6, 4, fun a b => if b = 0 then BitVec.allOnes 32 else BitVec.ofInt 32 (a.toInt.tdiv b.toInt)),
   (.vdivn, 7, 4, fun a b => if b = 0 then BitVec.allOnes 32 else BitVec.ofNat 32 (a.toNat / b.toNat)),
   (.vrem, 8, 4, fun a b => if b = 0 then a else BitVec.ofInt 32 (a.toInt.tmod b.toInt)),
   (.vremn, 9, 4, fun a b => if b = 0 then a else BitVec.ofNat 32 (a.toNat % b.toNat)),
   (.vmin, 10, 2, fun a b => if b.toInt < a.toInt then b else a), (.vmax, 11, 2, fun a b => if a.toInt < b.toInt then b else a),
   (.vminn, 12, 2, fun a b => if b.toNat < a.toNat then b else a), (.vmaxn, 13, 2, fun a b => if a.toNat < b.toNat then b else a),
   (.vand, 15, 1, fun a b => a &&& b), (.vor, 16, 1, fun a b => a ||| b), (.vxor, 17, 1, fun a b => a ^^^ b),
   (.vandn, 18, 1, fun a b => a &&& ~~~ b), (.vshl, 19, 1, fun a b => a <<< (b.toNat % 32)),
   (.vshr, 20, 1, fun a b => a >>> (b.toNat % 32)), (.vsra, 21, 1, fun a b => a.sshiftRight (b.toNat % 32)),
   (.vrol, 22, 1, fun a b => a.rotateLeft (b.toNat % 32)),
   (.vbfe, 27, 1, fun a b => (a >>> (b.toNat % 32)) &&& BitVec.ofNat 32 (2 ^ min (b.toNat / 256 % 64) 32 - 1)),
   (.vclmul, 29, 3, fun a b => (clmul a b).setWidth 32), (.vclmulh, 30, 3, fun a b => (clmul a b >>> 32).setWidth 32),
   (.vsadd, 31, 1, fun a b => BitVec.ofInt 32 (max (-2147483648) (min 2147483647 (a.toInt + b.toInt)))),
   (.vssub, 32, 1, fun a b => BitVec.ofInt 32 (max (-2147483648) (min 2147483647 (a.toInt - b.toInt))))]

/-- One-source integer units of major 9. -/
def vecOne : List ((Pfx → VFld → VFld → Instr) × Nat × Nat × (Word → Word)) :=
  [(.vabs, 14, 1, fun a => BitVec.ofNat 32 a.toInt.natAbs),
   (.vpopc, 24, 1, fun a => BitVec.ofNat 32 ((List.range 32).filter fun i => a.getLsbD i).length),
   (.vclz, 25, 1, fun a => BitVec.ofNat 32 (32 - bitLen a.toNat)),
   (.vbrev, 26, 1, fun a => BitVec.ofNat 32 (natOfBits 32 fun i => a.getLsbD (31 - i))), (.vmov, 35, 1, fun a => a)]

/-- Three-source integer units of major 9; the third source is Y.E, or D without a Y prefix (R38). -/
def vecThree : List ((Pfx → VFld → VFld → VFld → Instr) × Nat × Nat × (Word → Word → Word → Word)) :=
  [(.vmad, 5, 2, fun a b c => a * b + c), (.vfsh, 23, 1, fun a b c => ((a ++ c) >>> (b.toNat % 32)).setWidth 32),
   (.vbfi, 28, 1, fun a b c =>
     let m : Word := BitVec.ofNat 32 (2 ^ min (b.toNat / 256 % 64) 32 - 1) <<< (b.toNat % 32)
     (c &&& ~~~ m) ||| ((a <<< (b.toNat % 32)) &&& m)),
   (.vdot4, 36, 2, fun a b c => dot4 BitVec.toInt a b c), (.vdot4n, 37, 2, fun a b c => dot4 (fun v => (v.toNat : Int)) a b c)]

/-- Immediate units of major 10 (R143). -/
def vecImm : List ((Pfx → VFld → VFld → BitVec 10 → Instr) × Nat × (Word → BitVec 10 → Word)) :=
  [(.vaddi, 1, fun a i => a + i.signExtend 32), (.vandi, 1, fun a i => a &&& i.signExtend 32),
   (.vori, 1, fun a i => a ||| i.signExtend 32), (.vxori, 1, fun a i => a ^^^ i.signExtend 32),
   (.vshli, 1, fun a i => a <<< (i.toNat % 32)), (.vshri, 1, fun a i => a >>> (i.toNat % 32)),
   (.vsrai, 1, fun a i => a.sshiftRight (i.toNat % 32)), (.vmuli, 2, fun a i => a * i.signExtend 32)]

/-- Two-source float units (R145 to R147, R158): constructor, major, function code, class, and the result bits and flags from
the modes, the lane and the operands. -/
def floatTwo : List ((Pfx → VFld → VFld → VFld → Instr) × Nat × Nat × Nat × (FMode → Nat → Nat → Nat → FRes)) :=
  [(.fadd, 11, 0, 2, fun c i a b => fp32.round (c.rnd i) c.ftz (addV c.rm (rd32 c.ftz a) (rd32 c.ftz b))),
   (.fsub, 11, 1, 2, fun c i a b => fp32.round (c.rnd i) c.ftz (addV c.rm (rd32 c.ftz a) (rd32 c.ftz b).neg)),
   (.fmul, 11, 2, 2, fun c i a b => fp32.round (c.rnd i) c.ftz (mulV (rd32 c.ftz a) (rd32 c.ftz b)).1.ex),
   (.fmin, 11, 6, 2, fun c _ a b => fMinMax c.ftz false false a b), (.fmax, 11, 7, 2, fun c _ a b => fMinMax c.ftz true false a b),
   (.fminm, 11, 8, 2, fun c _ a b => fMinMax c.ftz false true a b), (.fmaxm, 11, 9, 2, fun c _ a b => fMinMax c.ftz true true a b),
   (.fcpys, 11, 12, 1, fun _ _ a b => (a % 2 ^ 31 + b / 2 ^ 31 * 2 ^ 31, 0)),
   (.hadd2, 11, 14, 2, fun c i a b => hOp2 c 0 i a b 0), (.hmul2, 11, 15, 2, fun c i a b => hOp2 c 1 i a b 0),
   (.fldexp, 11, 18, 2, fun c i a b => fLdexp c i a (sextNat 32 b)), (.fdiv, 14, 3, 4, fun c i a b => fDiv c i a b)]

/-- One-source float units (R145, R147, R158). -/
def floatOne : List ((Pfx → VFld → VFld → Instr) × Nat × Nat × Nat × (FMode → Nat → Nat → FRes)) :=
  [(.fabs, 11, 10, 1, fun _ _ a => (a % 2 ^ 31, 0)), (.fneg, 11, 11, 1, fun _ _ a => (Nat.xor a (2 ^ 31), 0)),
   (.fround, 11, 17, 2, fun c i a => fRound c i a), (.fgetexp, 11, 19, 2, fun c _ a => fGetexp c.ftz a),
   (.frcp, 14, 0, 3, fun c _ a => sRcp c.ftz a), (.frsq, 14, 1, 3, fun c _ a => sRsq c.ftz a),
   (.fsqrt, 14, 2, 4, fun c i a => fSqrt c i a), (.fexp2, 14, 4, 3, fun c _ a => sExp2 c.ftz a),
   (.flog2, 14, 5, 3, fun c _ a => sLog2 c.ftz a), (.fsin, 14, 6, 3, fun c _ a => sSin c.ftz a),
   (.fcos, 14, 7, 3, fun c _ a => sCos c.ftz a), (.ftanh, 14, 8, 3, fun c _ a => sTanh c.ftz a),
   (.fsig, 14, 9, 3, fun c _ a => sSig c.ftz a), (.ferf, 14, 10, 3, fun c _ a => sErf c.ftz a)]

/-- Three-source float units (R145, R146). -/
def floatThree : List ((Pfx → VFld → VFld → VFld → Instr) × Nat × (FMode → Nat → Nat → Nat → Nat → FRes)) :=
  [(.ffma, 3, fun c i a b z => fFma c false false i a b z), (.ffms, 4, fun c i a b z => fFma c false true i a b z),
   (.fnma, 5, fun c i a b z => fFma c true false i a b z), (.fdot2, 13, fun c i a b z => fDot2 c i a b z),
   (.hfma2, 16, fun c i a b z => hOp2 c 2 i a b z)]

/-- Lanes of a float result, and the union of the active lanes' flags (R136, R144). -/
def floatWrite (g : Group) (d : VFld) (m : DWord) (f : Nat → FRes) : Group :=
  (g.writeF d m fun i => BitVec.ofNat 32 (if i < 64 ∧ laneBit m i then (f i).1 else 0)).raise
    ((laneIdx.map fun i => if laneBit m i then (f i).2 else 0).foldl Nat.lor 0)

/-- Integer compares of major 12 (R149). -/
def vecCmp : List ((Pfx → PReg → VFld → VFld → Instr) × Nat × (Word → Word → Bool)) :=
  [(.vceq, 0, fun a b => a = b), (.vcne, 1, fun a b => a ≠ b), (.vclt, 2, fun a b => a.toInt < b.toInt),
   (.vcle, 3, fun a b => a.toInt ≤ b.toInt), (.vcltn, 4, fun a b => a.toNat < b.toNat), (.vclen, 5, fun a b => a.toNat ≤ b.toNat)]

/-- Float compares of major 12 (R149): function code and kind, 0 equal, 1 not equal, 2 less, 3 less or equal, 4 unordered. -/
def floatCmp : List ((Pfx → PReg → VFld → VFld → Instr) × Nat × Nat) :=
  [(.fceq, 6, 0), (.fcne, 7, 1), (.fclt, 8, 2), (.fcle, 9, 3), (.fcun, 10, 4)]

/-- Predicate logic (R151). -/
def predLogic : List ((Pfx → PReg → PReg → PReg → Instr) × Nat × (Bool → Bool → Bool)) :=
  [(.pand, 12, fun a b => a && b), (.por, 13, fun a b => a || b), (.pxor, 14, fun a b => a != b), (.pandn, 15, fun a b => a && !b)]

/-- Integer reductions (R153): function code, class, identity, combination, whether the result is sign-extended. -/
def reductions : List ((Pfx → SReg → VFld → Instr) × Nat × Nat × Word × (Word → Word → Word) × Bool) :=
  [(.vredadd, 2, 1, 0, fun a b => a + b, false), (.vredmin, 3, 2, 0x7FFFFFFF, fun a b => if b.toInt < a.toInt then b else a, true),
   (.vredmax, 4, 2, 0x80000000, fun a b => if a.toInt < b.toInt then b else a, true),
   (.vredminn, 5, 2, 0xFFFFFFFF, fun a b => if b.toNat < a.toNat then b else a, false),
   (.vredmaxn, 6, 2, 0, fun a b => if a.toNat < b.toNat then b else a, false),
   (.vredand, 7, 1, 0xFFFFFFFF, fun a b => a &&& b, false), (.vredor, 8, 1, 0, fun a b => a ||| b, false),
   (.vredxor, 9, 1, 0, fun a b => a ^^^ b, false)]

/-- Float reductions (R153, R154): function code, the value without an active lane, the operation of a node. -/
def floatReductions : List ((Pfx → SReg → VFld → Instr) × Nat × Nat × (FMode → Nat → Nat → Nat → FRes)) :=
  [(.fredadd, 10, 0, fun c j a b => fAdd c j a b), (.fredmin, 11, 0x7F800000, fun c _ a b => fMinMax c.ftz false false a b),
   (.fredmax, 12, 0xFF800000, fun c _ a b => fMinMax c.ftz true false a b)]

/-- The active lanes in order. -/
def onLanes (m : DWord) : List Nat := laneIdx.filter fun i => laneBit m i

end Sys2Proof.Claims

open Sys2Proof.Claims

/-- R129, R130: every register-register unit of major 3 writes s[D] from s[A] and s[B] by its rule and goes on to the next
word; every other register, all of memory and everything else but the charged time, cycles and energy is as before. -/
def Sys2Proof.Claims.ScalarRegisterResults : Prop :=
  ∀ e ∈ scalarThree, ∀ (d a b : SReg) (s : State) (k : Nat) (g : Group), Ready s k g →
    Quiet g [g.sDst a.val, g.sDst b.val] [g.sDst d.val] →
    exec (e.1 d a b) s = .next (done s k g ((past g 1).writeS d.val (e.2.2 (g.readS a.val) (g.readS b.val))) 3 e.2.1)

/-- R130, R39: ssel picks s[A] when its condition is not 0, else s[B]; the condition is s[E] with a Y prefix, else s[D]. -/
def Sys2Proof.Claims.ScalarSelect : Prop :=
  ∀ (d a b : SReg) (e : Option SReg) (s : State) (k : Nat) (g : Group), Ready s k g →
    Quiet g [g.sDst a.val, g.sDst b.val, g.sDst (e.getD d).val] [g.sDst d.val] →
    exec (.ssel d a b e) s = .next (done s k g ((past g (if e.isSome then 2 else 1)).writeS d.val
      (if g.readS (e.getD d).val ≠ 0 then g.readS a.val else g.readS b.val)) 3 1)

/-- R131 to R133, R135: the immediate forms, the constants, the PC-relative address, the bit counts, and the three units
between scalar and predicate registers. -/
def Sys2Proof.Claims.ScalarImmediateResults : Prop :=
  (∀ e ∈ scalarImm, ∀ (d a : SReg) (i : BitVec 10) (s : State) (k : Nat) (g : Group), Ready s k g →
    Quiet g [g.sDst a.val] [g.sDst d.val] →
    exec (e.1 d a i) s = .next (done s k g ((past g 1).writeS d.val (e.2.2 (g.readS a.val) i)) 4 e.2.1)) ∧
  (∀ e ∈ scalarOne, ∀ (d a : SReg) (s : State) (k : Nat) (g : Group), Ready s k g →
    Quiet g [g.sDst a.val] [g.sDst d.val] →
    exec (e.1 d a) s = .next (done s k g ((past g 1).writeS d.val (e.2 (g.readS a.val))) 8 1)) ∧
  ∀ (d : SReg) (i : BitVec 20) (s : State) (k : Nat) (g : Group), Ready s k g →
    (Quiet g [] [g.sDst d.val] → exec (.sli d i) s = .next (done s k g ((past g 1).writeS d.val (i.signExtend 64)) 5 1)) ∧
    (Quiet g [g.sDst d.val] [g.sDst d.val] →
      exec (.slih d i) s = .next (done s k g ((past g 1).writeS d.val (g.readS d.val <<< 20 + i.setWidth 64)) 6 1)) ∧
    (Quiet g [] [g.sDst d.val] → exec (.sadpc d i) s = .next (done s k g ((past g 1).writeS d.val (target g i.toInt)) 7 1)) ∧
    ∀ p : PReg,
      (Quiet g [.p p.val] [g.sDst d.val] →
        exec (.sballot d p) s = .next (done s k g ((past g 1).writeS d.val (g.readP p.val &&& g.exm)) 8 1)) ∧
      (Quiet g [.p p.val] [g.sDst d.val] →
        exec (.sfirst d p) s = .next (done s k g ((past g 1).writeS d.val (BitVec.ofNat 64
          (((List.range 64).find? fun i => (g.readP p.val &&& g.exm).getLsbD i).getD 64))) 8 1)) ∧
      (Quiet g [g.sDst d.val] [.p p.val] → exec (.smask p d) s = .next (done s k g ((past g 1).writeP p.val (g.readS d.val)) 8 1))

/-- R34, R105, R123: s0 reads zero and p0 all ones whatever is written to them; in handler mode s56 to s63 are the bank's;
a scalar register written reads as written, and no other register changes. -/
def Obligations.HardwiredAndBankedRegisters : Prop :=
  ∀ (g : Group) (v : DWord), g.s.length = 64 → g.p.length = 16 → g.bank.length = 8 →
    g.readS 0 = 0 ∧ g.writeS 0 v = g ∧ g.readP 0 = allOnes ∧ g.writeP 0 v = g ∧
    (∀ r : SReg, r.val ≠ 0 → (g.writeS r.val v).readS r.val = v ∧
      ∀ q : SReg, q ≠ r → (g.writeS r.val v).readS q.val = g.readS q.val) ∧
    (∀ r : PReg, r.val ≠ 0 → (g.writeP r.val v).readP r.val = v ∧
      ∀ q : PReg, q ≠ r → (g.writeP r.val v).readP q.val = g.readP q.val) ∧
    ∀ r : SReg, 56 ≤ r.val →
      (g.inH = true → (g.writeS r.val v).s = g.s ∧ (g.writeS r.val v).bank = g.bank.set (r.val - 56) v) ∧
      (g.inH = false → (g.writeS r.val v).bank = g.bank ∧ (g.writeS r.val v).s = g.s.set r.val v)

/-- R110 to R118: nop, the immediate writes of FMT and MODE, yield (the cycle under way and the next 8), sleep, winb, qcfg and qrst.
That a sleeping group stands past its unit is the model's choice (DESIGN CHOICE, LE 28). -/
def Obligations.ControlResults : Prop :=
  ∀ (s : State) (k : Nat) (g : Group), Ready s k g →
    (exec .nop s = .next (done s k g (past g 1) 0 1)) ∧
    (∀ i : Fin 16384,
      exec (.setfmt i) s = .next (done s k g { past g 1 with fmt := BitVec.ofNat 64 i.val } 0 1) ∧
      exec (.setmode i) s = .next (done s k g { past g 1 with mode := BitVec.ofNat 64 i.val } 0 1)) ∧
    (g.inH = false →
      (exec .yield s = .next (done s k g { past g 1 with yielding := 9 } 0 1)) ∧
      (∀ a : SReg, Quiet g [g.sDst a.val] [] →
        exec (.sleep a) s = .next (done s k g (if g.readS a.val = 0 then past g 1 else
          { past g 1 with park := 7, parkArg := [g.readS a.val], parkTns := s.dev.tns }) 0 1) ∧
        exec (.qrst a) s = .next (done s k g { past g 1 with queues := emptied g (g.readS a.val) } 0 1)) ∧
      (∀ m : Fin 128, 0 ≤ (g.wb : Int) + 8 * sextNat 7 m.val → (g.wb : Int) + 8 * sextNat 7 m.val + 96 ≤ 16384 →
        exec (.winb m) s = .next (done s k g ((past g 1).setWb ((g.wb : Int) + 8 * sextNat 7 m.val).toNat) 0 1)) ∧
      ∀ (q : Fin 16) (n : Fin 128), g.qtot - (g.queues.getD q.val {}).depth + n.val ≤ g.n - 96 →
        exec (.qcfg q n) s = .next (done s k g ({ past g 1 with queues := g.queues.set q.val { depth := n.val } } : Group).kick 0 1))

/-- R119, R120: bra, bz, bnz, bltz, bgez and jmpi go to their target or to the next word; call and calli push (PC + 4, frame),
move the window and go to their target; a push onto 16 resident entries, or a ret with none resident and some spilled, has the spill
engine run first (R93; DEDUCED, LE 74). -/
def Sys2Proof.Claims.BranchResults : Prop :=
  ∀ (s : State) (k : Nat) (g : Group), Ready s k g → Clear s g →
    (∀ o : BitVec 18, exec (.bra o) s = .next (done s k g { past g 1 with pc := target g o.toInt } 1 1)) ∧
    (∀ (a : SReg), dstMeet [g.sDst a.val] g.pending = false →
      (∀ e ∈ [((Instr.bz), (decide (g.readS a.val = 0))), (.bnz, decide (g.readS a.val ≠ 0)),
        (.bltz, decide ((g.readS a.val).toInt < 0)), (.bgez, decide (0 ≤ (g.readS a.val).toInt))],
        ∀ o : BitVec 18, exec (e.1 a o) s =
          .next (done s k g (if e.2 then { past g 1 with pc := target g o.toInt } else past g 1) 1 1)) ∧
      ((g.readS a.val).toNat % 4 = 0 → exec (.jmpi a) s = .next (done s k g { past g 1 with pc := g.readS a.val } 1 1)) ∧
      ∀ f : Fin 16, (g.readS a.val).toNat % 4 = 0 → g.inH = false → g.wb + 8 * f.val + 96 ≤ 16384 →
        g.ret.length < 16 → g.ret.length + g.retSp < 4096 → exec (.calli a f) s = .next (done s k g
          (({ past g 1 with ret := g.ret ++ [{ pc := g.pc + 4, frame := f.val }], pc := g.readS a.val } : Group).setWb
            (g.wb + 8 * f.val)) 1 1)) ∧
    (g.inH = false → 16 ≤ g.ret.length → g.ret.length + g.retSp < 4096 →
      (∀ (f : Fin 64) (o : BitVec 18), g.wb + 8 * f.val + 96 ≤ 16384 → (target g o.toInt).toNat % 4 = 0 →
        exec (.call f o) s = .next (stackRuns s k g g.retSp false 1)) ∧
      ∀ (a : SReg) (f : Fin 16), dstMeet [g.sDst a.val] g.pending = false → g.wb + 8 * f.val + 96 ≤ 16384 → (g.readS a.val).toNat % 4 = 0 →
        exec (.calli a f) s = .next (stackRuns s k g g.retSp false 1)) ∧
    (g.inH = false → g.ret = [] → g.retSp ≠ 0 → exec .ret s = .next (stackRuns s k g (g.retSp - 1) true 1)) ∧
    ∀ (f : Fin 64) (o : BitVec 18), g.inH = false → g.wb + 8 * f.val + 96 ≤ 16384 → g.ret.length < 16 → g.ret.length + g.retSp < 4096 →
      (target g o.toInt).toNat % 4 = 0 → exec (.call f o) s = .next (done s k g
        (({ past g 1 with ret := g.ret ++ [{ pc := g.pc + 4, frame := f.val }], pc := target g o.toInt } : Group).setWb
          (g.wb + 8 * f.val)) 1 1)

/-- R116, R121: vbrall and vbrany branch when all, or some, active lanes take the branch; vbr on a mixed choice pushes
D(target, T, FMT) and goes on with F; vjoin pushes J(target, EXM, FMT); vsync pops the top entry; a push onto 32 resident
entries, or a pop with none resident, has the spill engine run first (R93; DEDUCED, LE 74). -/
def Sys2Proof.Claims.DivergenceResults : Prop :=
  ∀ (s : State) (k : Nat) (g : Group), Ready s k g → Clear s g → ∀ (p : PReg) (neg : Bool) (o : BitVec 20),
    dstMeet [.p p.val] g.pending = false →
    let t := g.exm &&& (if neg then ~~~ (g.readP p.val) else g.readP p.val)
    let f := g.exm &&& ~~~ t
    let go : Group := { past g 1 with pc := target g o.toInt }
    let d : RecEnt := { kindD := true, pc := target g o.toInt, exm := t, fmt := g.fmt }
    let j : RecEnt := { kindD := false, pc := target g o.toInt, exm := g.exm, fmt := g.fmt }
    exec (.vbrall p neg o) s = .next (done s k g (if g.exm ≠ 0 ∧ f = 0 then go else past g 1) 2 1) ∧
    exec (.vbrany p neg o) s = .next (done s k g (if t ≠ 0 then go else past g 1) 2 1) ∧
    (g.inH = false → (t = 0 ∨ f = 0 ∨ g.recs.length < 32) → g.recs.length + g.recSp < 4096 →
      exec (.vbr p neg o) s = .next (done s k g (if t = 0 then past g 1 else if f = 0 then go else
        { past g 1 with exm := f, recs := g.recs ++ [d] }) 2 1)) ∧
    (g.inH = false → g.recs.length < 32 → g.recs.length + g.recSp < 4096 →
      exec (.vjoin o) s = .next (done s k g { past g 1 with recs := g.recs ++ [j] } 2 1)) ∧
    (g.inH = false → 32 ≤ g.recs.length → g.recs.length + g.recSp < 4096 →
      (t ≠ 0 → f ≠ 0 → exec (.vbr p neg o) s = .next (stackRuns s k g g.recSp false 2)) ∧
      exec (.vjoin o) s = .next (stackRuns s k g g.recSp false 2)) ∧
    (g.inH = false → g.recs = [] → g.recSp ≠ 0 → exec .vsync s = .next (stackRuns s k g (g.recSp - 1) true 2)) ∧
    ∀ (r : List RecEnt) (e : RecEnt), g.recs = r ++ [e] → g.inH = false →
      let pc := if e.kindD then e.pc else e.pc + 4
      exec .vsync s = .next (done s k g { past g 1 with recs := r, exm := e.exm, fmt := e.fmt, pc := pc } 0 1)

/-- R113: `trap n` and `brk n` trap precisely with cause TRAP (0x11) or BRK (0x10), TRAPA = n, TRAPI = the base word, and resume
PC = PC + 4; entering the handler (R105) leaves the trap registers, the bank, EXM and PC as written out. -/
def Obligations.SoftwareTraps : Prop :=
  ∀ (s : State) (k : Nat) (g : Group) (n : Fin 128), Ready s k g →
    (∀ e ∈ [((Instr.trap), 0x11, 2), (.brk, 0x10, 3)],
      exec (e.1 n) s = .next (s.takeTrap k g
        { cause := e.2.1, a := BitVec.ofNat 64 n.val, pc := g.pc, i := word0 e.2.2 0 0 n.val, resume := g.pc + 4 }) ∧
      (CanEnter s g → exec (e.1 n) s = .next (s.setGrp k
        (entered g s e.2.1 (BitVec.ofNat 64 n.val) g.pc (word0 e.2.2 0 0 n.val) (g.pc + 4)))))

/-- R114: `rte` outside handler mode traps ILL; in handler mode a banked s63 that is misaligned or out of range raises HND with
TRAPA = 0 and TRAPI = its base word; otherwise EXM and PC are the banked s62 and s63, the group leaves handler mode, and the bank
is free: of the waiting groups, the one that has waited longest takes it, the lower slot on a tie. -/
def Obligations.HandlerReturn : Prop :=
  ∀ (s : State) (k : Nat) (g : Group), Ready s k g → let v := regGet g.bank 7
    (g.inH = false → exec .rte s = .next (s.takeTrap k g
      { cause := 1, a := 0, pc := g.pc, i := word0 4 0 0 0, resume := g.pc })) ∧
    (g.inH = true → v.toNat % 4 ≠ 0 ∨ 2 ^ 52 ≤ v.toNat → exec .rte s = .next ((s.contextFault k g
      { cause := 0x13, a := 0, pc := g.pc, i := word0 4 0 0 0 }).paid g { pipe := 0, cls := 1 })) ∧
    (g.inH = true → v.toNat % 4 = 0 → v.toNat < 2 ^ 52 →
      let h : Group := { g with exm := regGet g.bank 6, pc := v, inH := false, dieH := false, urgent := false }
      let t := s.setGrp k h
      (s.groups.map Prod.fst).Pairwise (· < ·) →
      let mates := s.groups.filter fun kv => kv.1 ≠ k && kv.2.core = g.core && partOfSlot kv.2.slot = partOfSlot g.slot && !kv.2.halted
      (∀ kv ∈ mates, kv.2.inH = false) →
        ((∀ kv ∈ mates, kv.2.bankWait = none) → exec .rte s = .next (done s k g h 0 1)) ∧
        ∀ kv ∈ mates, ∀ w : Trap, kv.2.bankWait = some w → s.residentGrp kv.2 = true → (s.ctx kv.2.ctx).stop = .running →
          (∀ jv ∈ mates, jv.2.bankWait.isSome = true → jv.1 ≠ kv.1 →
            kv.2.bankOrder < jv.2.bankOrder ∨ (kv.2.bankOrder = jv.2.bankOrder ∧ kv.2.slot < jv.2.slot)) →
          exec .rte s = .next ((t.setGrp kv.1 (kv.2.enterHandler w s.dev.tns s.nextId)).paid g { pipe := 0, cls := 1 }))

/-- R100: `call` and `calli` push (return PC, frame) on the return stack and `ret` pops the latest entry, the window moving by its
frame (R115, R120); a `ret` that finds nothing resident and nothing spilled acts as `exit`. A push onto 16 resident entries and a
pop of a spilled one are in BranchesAndDivergence. -/
def Obligations.ReturnStack : Prop :=
  ∀ (s : State) (k : Nat) (g : Group), Ready s k g → g.inH = false →
    (Clear s g → g.ret.length < 16 → g.ret.length + g.retSp < 4096 → ∀ (f : Fin 64) (o : BitVec 18), g.wb + 8 * f.val + 96 ≤ 16384 →
      (target g o.toInt).toNat % 4 = 0 →
      ∃ t h, exec (.call f o) s = .next t ∧ t.grp? k = some h ∧ h.ret = g.ret ++ [{ pc := g.pc + 4, frame := f.val }] ∧
        h.pc = target g o.toInt ∧ h.wb = g.wb + 8 * f.val) ∧
    (Clear s g → g.ret.length < 16 → g.ret.length + g.retSp < 4096 → ∀ (a : SReg) (f : Fin 16), dstMeet [g.sDst a.val] g.pending = false →
      g.wb + 8 * f.val + 96 ≤ 16384 → (g.readS a.val).toNat % 4 = 0 →
      ∃ t h, exec (.calli a f) s = .next t ∧ t.grp? k = some h ∧ h.ret = g.ret ++ [{ pc := g.pc + 4, frame := f.val }] ∧
        h.pc = g.readS a.val ∧ h.wb = g.wb + 8 * f.val) ∧
    (∀ (r : List RetEnt) (e : RetEnt), Clear s g → g.ret = r ++ [e] → 8 * e.frame ≤ g.wb → g.wb - 8 * e.frame + 96 ≤ 16384 →
      exec .ret s = .next (done s k g (({ past g 1 with ret := r, pc := e.pc } : Group).setWb (g.wb - 8 * e.frame)) 0 1)) ∧
    (g.ret = [] → g.retSp = 0 → exec .ret s = exec .exit s)

/-- R112: exit, with nothing outstanding, no matrix unit, no dirty Cumulus buffer and no AGG or PEER, completes: the group's key is free
and no byte of memory changes; the group leaves its workgroup, which it ends, or whose barrier it may complete (R265), and a handler
bank that it held passes on (R107). Where it held none, others of its workgroup go on and none has arrived at the barrier, no other
group changes. -/
def Obligations.ExitEndsTheGroup : Prop :=
  ∀ (s : State) (k : Nat) (g : Group), Ready s k g → Clear s g → g.ops = [] → g.mxq = [] → g.dirtyMask = 0 → g.agg = false →
    g.peerP = false → (s.groups.map Prod.fst).Pairwise (· < ·) → ∃ t, exec .exit s = .next t ∧ t.grp? k = none ∧
      t = (s.endGroup k g).paid g { pipe := 0, cls := 1 } ∧ (∀ a, t.rdByte a = s.rdByte a) ∧
      (g.inH = false → (∃ kv ∈ s.groups, kv.1 ≠ k ∧ kv.2.wg = g.wg) → (∀ w, s.wg? g.wg = some w → w.barArr = []) →
        ∀ j, j ≠ k → t.grp? j = s.grp? j)

/-- R125, R127, R128: mfs reads a special register into s[D]; mts writes EXM, MODE, FMT (with the values these take), WB and
the trap registers, and with system privilege ENRG and GPRIO; without it those two trap PRIV. -/
def Obligations.SpecialRegisters : Prop :=
  ∀ (s : State) (k : Nat) (g : Group), Ready s k g →
    (∀ d : SReg, Quiet g [] [g.sDst d.val] → ∀ e ∈ specialRead s g,
      exec (.mfs d e.1) s = .next (done s k g ((past g 1).writeS d.val e.2) 8 1)) ∧
    (∀ d : SReg, Quiet g [] [g.sDst d.val] → exec (.mfs d 0x17) s = .next
      (done (s.l1Clear g.core) k g ((past g 1).writeS d.val (tksOf ((s.wg? g.wg).getD {}))) 8 1)) ∧
    ∀ a : SReg, Quiet g [g.sDst a.val] [] → let v := g.readS a.val
      (∀ e ∈ [((0x00 : SpecReg), ({ past g 1 with exm := v } : Group)), (0x01, { past g 1 with mode := mtsMode v }),
        (0x02, { past g 1 with fmt := mtsFmt v }), (0x19, { past g 1 with trapc := v &&& 0x1FF }), (0x1A, { past g 1 with trapa := v }),
        (0x1B, { past g 1 with trappc := v }), (0x1C, { past g 1 with trapi := v })],
        exec (.mts e.1 a) s = .next (done s k g e.2 8 1)) ∧
      (g.inH = false → v.toNat % 8 = 0 → v.toNat + 96 ≤ 16384 →
        exec (.mts 0x03 a) s = .next (done s k g ((past g 1).setWb v.toNat) 8 1)) ∧
      ((s.ctx g.ctx).sys = true →
        exec (.mts 0x20 a) s = .next (((s.setGrp k (past g 1)).modCtx g.ctx fun c =>
          { c with enrg := v.toNat, enrgPj := 0 }).paid g { pipe := 0, cls := 1 }) ∧
        exec (.mts 0x21 a) s = .next (((s.setGrp k (past g 1)).modWg g.wg fun w =>
          { w with prio := v.toNat % 8, eprio := v.toNat % 8 }).paid g { pipe := 0, cls := 1 })) ∧
      ((s.ctx g.ctx).sys = false → CanEnter s g → ∀ r ∈ [(0x20 : SpecReg), 0x21],
        exec (.mts r a) s = .next (s.setGrp k (entered g s 0x02 0 g.pc ((wordA 8 r.val a.val 0 1).setWidth 64) g.pc)))

/-- R139 to R142: the integer units of major 9 write their result in the active lanes of vD. -/
def Obligations.VectorIntegerResults : Prop :=
  ∀ (x : Pfx) (s : State) (k : Nat) (g : Group) (d a b : VFld),
    (∀ e ∈ vecTwo, ReadyV s k g x [a, b] [d] [g.vReg a, g.vReg b] [g.vDst d] →
      exec (e.1 x d a b) s = .next (doneV s k g ((pastV g x [a, b]).writeF d (activeMask x g) fun i =>
        e.2.2.2 (opA g x a i) (opB g x b i)) x 9 e.2.1 e.2.2.1 [a, b])) ∧
    (∀ e ∈ vecOne, ReadyV s k g x [a] [d] [g.vReg a] [g.vDst d] →
      exec (e.1 x d a) s = .next (doneV s k g ((pastV g x [a]).writeF d (activeMask x g) fun i =>
        e.2.2.2 (opA g x a i)) x 9 0 e.2.2.1 [a])) ∧
    (∀ e ∈ vecThree, let c := (x.y.map YPre.e).getD d
      ReadyV s k g x [a, b, c] [d] [g.vReg a, g.vReg b, g.vReg c] [g.vDst d] →
      exec (e.1 x d a b) s = .next (doneV s k g ((pastV g x [a, b, c]).writeF d (activeMask x g) fun i =>
        e.2.2.2 (opA g x a i) (opB g x b i) (g.src c i)) x 9 0 e.2.2.1 [a, b, c])) ∧
    (∀ e ∈ [((Instr.vadd64), fun (p q : DWord) => p + q), (.vsub64, fun p q => p - q)],
      ReadyV s k g x [] [d, d + 1] ((pairFields g a ++ pairFields g b).map g.vReg) [g.vDst d, g.vDst (d + 1)] →
      let z (i : Nat) : DWord := e.2 (g.src64 a x.xa i) (g.src64 b x.xb i)
      exec (e.1 x d a b) s = .next (doneV s k g (((pastV g x []).writeF d (activeMask x g) fun i =>
        (z i).setWidth 32).writeF (d + 1) (activeMask x g) fun i => (z i >>> 32).setWidth 32) x 9 0 1 (pairFields g a ++ pairFields g b))) ∧
    ∀ e ∈ vecImm, ∀ i : BitVec 10, ReadyV s k g x [a] [d] [g.vReg a] [g.vDst d] →
      exec (e.1 x d a i) s = .next (doneV s k g ((pastV g x [a]).writeF d (activeMask x g) fun j =>
        e.2.2 (opA g x a j) i) x 10 0 e.2.1 [a])

/-- R144 to R147, R157, R158: the float units of majors 11 and 14 write the rounded result in the active lanes and raise the
active lanes' flags in MODE. -/
def Obligations.VectorFloatResults : Prop :=
  ∀ (x : Pfx) (s : State) (k : Nat) (g : Group) (d a b : VFld), let c := g.fmode x.rm
    (∀ e ∈ floatTwo, ReadyV s k g x [a, b] [d] [g.vReg a, g.vReg b] [g.vDst d] →
      exec (e.1 x d a b) s = .next (doneV s k g (floatWrite (pastV g x [a, b]) d (activeMask x g) fun i =>
        e.2.2.2.2 c i (opA g x a i).toNat (opB g x b i).toNat) x e.2.1 0 e.2.2.2.1 [a, b])) ∧
    (∀ e ∈ floatOne, ReadyV s k g x [a] [d] [g.vReg a] [g.vDst d] →
      exec (e.1 x d a) s = .next (doneV s k g (floatWrite (pastV g x [a]) d (activeMask x g) fun i =>
        e.2.2.2.2 c i (opA g x a i).toNat) x e.2.1 0 e.2.2.2.1 [a])) ∧
    ∀ e ∈ floatThree, let z := (x.y.map YPre.e).getD d
      ReadyV s k g x [a, b, z] [d] [g.vReg a, g.vReg b, g.vReg z] [g.vDst d] →
      exec (e.1 x d a b) s = .next (doneV s k g (floatWrite (pastV g x [a, b, z]) d (activeMask x g) fun i =>
        e.2.2 c i (opA g x a i).toNat (opB g x b i).toNat (g.src z i).toNat) x 11 0 2 [a, b, z])

/-- R148 to R151: the compares and the predicate logic write the active lanes' bits of p[D] and keep the others; vmrg merges. -/
def Obligations.PredicateResults : Prop :=
  ∀ (x : Pfx) (s : State) (k : Nat) (g : Group) (p q r : PReg) (d a b : VFld), let m := activeMask x g
    (ReadyV s k g x [a, b] [] [g.vReg a, g.vReg b, .p p.val] [.p p.val] →
      (∀ e ∈ vecCmp, exec (e.1 x p a b) s = .next (doneV s k g ((pastV g x [a, b]).writePBits p.val m fun i =>
        e.2.2 (opA g x a i) (opB g x b i)) x 12 e.2.1 2 [a, b])) ∧
      (∀ e ∈ floatCmp, let f (i : Nat) := fCmp g.modeFtz e.2.2 (opA g x a i).toNat (opB g x b i).toNat
        exec (e.1 x p a b) s = .next (doneV s k g (((pastV g x [a, b]).writePBits p.val m fun i => i < 64 && (f i).1).raise
          ((onLanes m).foldl (fun acc i => Nat.lor acc (f i).2) 0)) x 12 e.2.1 2 [a, b])) ∧
      exec (.fcls x p a b) s = .next (doneV s k g ((pastV g x [a, b]).writePBits p.val m fun i =>
        bitOf (opB g x b i).toNat (fClass g.modeFtz (opA g x a i).toNat)) x 12 11 2 [a, b])) ∧
    (∀ e ∈ predLogic, ReadyV s k g x [] [] [.p q.val, .p r.val, .p p.val] [.p p.val] →
      exec (e.1 x p q r) s = .next (doneV s k g ((pastV g x []).writePBits p.val m fun i =>
        e.2.2 (laneBit (g.readP q.val) i) (laneBit (g.readP r.val) i)) x 12 e.2.1 1 [])) ∧
    (ReadyV s k g x [] [] [.p q.val, .p 0, .p p.val] [.p p.val] →
      exec (.pnot x p q) s = .next (doneV s k g ((pastV g x []).writePBits p.val m fun i =>
        i < 64 && !laneBit (g.readP q.val) i) x 12 16 1 [])) ∧
    (ReadyV s k g x [a] [d] [g.vReg a, .p q.val] [g.vDst d] →
      exec (.vmrg x d a q) s = .next (doneV s k g ((pastV g x [a]).writeF d (m &&& g.readP q.val) fun i => opA g x a i) x 12 17 1 [a]))

/-- R152 to R156: lane moves, reductions, scans, compaction, expansion and matching. -/
def Sys2Proof.Claims.LaneResults : Prop :=
  ∀ (x : Pfx) (s : State) (k : Nat) (g : Group) (d a b : VFld) (r : SReg), let m := activeMask x g
    (ReadyV s k g x [a, b] [d] [g.vReg a, g.vReg b] [g.vDst d] →
      exec (.vperm x d a b) s = .next (doneV s k g ((pastV g x [a, b]).writeF d m fun i =>
        opA g x a ((opB g x b i).toNat % 64)) x 13 0 1 [a, b]) ∧
      exec (.vlane x d a b) s = .next (doneV s k g ((pastV g x [a, b]).writeF d m fun i =>
        opA g x a i + BitVec.ofNat 32 i * opB g x b i) x 13 1 1 [a, b])) ∧
    (ReadyV s k g x [a] [] [g.vReg a] [g.sDst r.val] →
      (∀ e ∈ reductions, let v := ((onLanes m).map fun i => opA g x a i).foldl e.2.2.2.2.1 e.2.2.2.1
        exec (e.1 x r a) s = .next (doneV s k g ((pastV g x [a]).writeS r.val
          (if e.2.2.2.2.2 then v.signExtend 64 else v.setWidth 64)) x 13 e.2.1 e.2.2.1 [a])) ∧
      ∀ e ∈ floatReductions, let v := treeFold (e.2.2.2 (g.fmode x.rm)) (leavesOf g m a x.xa)
        exec (e.1 x r a) s = .next (doneV s k g (((pastV g x [a]).writeS r.val (BitVec.ofNat 64 (v.1.getD e.2.2.1))).raise v.2)
          x 13 e.2.1 2 [a])) ∧
    (ReadyV s k g x [a] [d] [g.vReg a] [g.vDst d] →
      exec (.vscan x d a) s = .next (doneV s k g ((pastV g x [a]).writeF d m fun i =>
        (((onLanes m).filter fun j => j ≤ i).map fun j => opA g x a j).foldl (· + ·) 0) x 13 13 1 [a]) ∧
      exec (.vscanx x d a) s = .next (doneV s k g ((pastV g x [a]).writeF d m fun i =>
        (((onLanes m).filter fun j => j < i).map fun j => opA g x a j).foldl (· + ·) 0) x 13 14 1 [a]) ∧
      exec (.fscan x d a) s = .next (doneV s k g (floatWrite (pastV g x [a]) d m fun i =>
        let v := treeFold (fAdd (g.fmode x.rm)) ((leavesOf g m a x.xa).zipIdx.map fun p => if p.2 ≤ i then p.1 else none)
        (v.1.getD 0, v.2)) x 13 15 2 [a]) ∧
      (let l := (onLanes m).map fun i => opA g x a i
       exec (.vcompact x d a) s = .next (doneV s k g ((pastV g x [a]).writeF d (maskOf fun i => i < l.length) fun i => l.getD i 0)
        x 13 16 1 [a])) ∧
      exec (.vexpand x d a) s = .next (doneV s k g ((pastV g x [a]).writeF d m fun i =>
        opA g x a ((onLanes m).filter fun j => j < i).length) x 13 17 1 [a])) ∧
    (ReadyV s k g x [a] [d, d + 1] [g.vReg a] [g.vDst d, g.vDst (d + 1)] →
      let w (i : Nat) : DWord := maskOf fun j => laneBit m j && laneGet (lanesOf fun i => opA g x a i) j = laneGet (lanesOf fun i => opA g x a i) i
      exec (.vmatch x d a) s = .next (doneV s k g (((pastV g x [a]).writeF d m fun i => (w i).setWidth 32).writeF (d + 1) m fun i =>
        (w i >>> 32).setWidth 32) x 13 18 2 [a]))

namespace Sys2Proof.Claims

/-- A unit of major 16 or higher may take its effect (R82, R96, R97, R194): as `ReadyV`, but PEEK is no bit of these majors
(R38), and no access of the group is held in translation. -/
structure ReadyM (s : State) (k : Nat) (g : Group) (x : Pfx) (src dst : List VFld) (rd wr : List Dst) : Prop where
  now : Ready s k g
  quiet : Quiet g (rd ++ match x.x with | some y => if y.g then [.p y.pred.val] else [] | none => []) wr
  heads : headsFilled g (queuesOf src) = true
  queues : queueCheck g (queuesOf src) (queuesOf dst) false (activeMask x g ≠ 0) = none
  hold : g.holding = false

/-- The group past a unit that never peeks. -/
def pastM (g : Group) (x : Pfx) (src : List VFld) : Group :=
  past (if activeMask x g = 0 then g else (queuesOf src).eraseDups.foldl Group.popQ g) x.len

/-- The machine `t` after a unit of class `cls` and major `maj` of group `g` that reads `src`. -/
def doneM (t : State) (g : Group) (x : Pfx) (maj cls : Nat) (src : List VFld) : State :=
  t.paid g { pipe := pipeOf maj 0, reads := g.physReads src,
             cls := if x.xa.val / 64 = 0 ∧ x.xb.val / 64 = 0 then cls else max 2 cls }

/-- Bits [lo, lo+n) of `v` replaced by `y`. -/
def putBits (v : Word) (lo n y : Nat) : Nat := v.toNat - v.toNat / 2 ^ lo % 2 ^ n * 2 ^ lo + y % 2 ^ n * 2 ^ lo

/-- The FP32 per-tensor scale that FMT.SREG names (R174). -/
def tensorScale (g : Group) : FVal := rd32 g.modeFtz ((g.readS g.sreg).toNat % 2 ^ 32)

/-- What a narrow conversion rounds: the value, divided by the per-tensor scale under FMT.SCM = 2 (R174). -/
def narrowed (g : Group) (v : Nat) : Ex := if g.scm = 2 then scaledEx (rd32 g.modeFtz v) (tensorScale g) else (rd32 g.modeFtz v).ex

/-- The FP32 value of a widened element: its exact product with the scale rounded once under FMT.SCM = 2, the exact value
otherwise; a scale that is zero or not finite gives the canonical NaN and NV (R173, R174). -/
def widened (g : Group) (c : FMode) (j : Nat) (v : FVal) : FRes :=
  if g.scm = 2 then
    match tensorScale g with
    | .fin b n e => if n = 0 then (0x7FC00000, 32) else fp32.round (c.rnd j) c.ftz (mulV v (.fin b n e)).1.ex
    | _ => (0x7FC00000, 32)
  else fp32.round (c.rnd j) c.ftz v.ex

/-- The register of the per-tensor scale, which a unit that applies it reads (R166, R174). -/
def tensorReg (g : Group) : List Dst := if g.scm = 2 then [g.sDst g.sreg] else []

/-- The narrow format a conversion names: its field, or FMT.NF for 7 (R176). -/
def formatOf (g : Group) (c : Nat) : Nat := if c / 4 % 8 = 7 then g.nf else c / 4 % 8

/-- The half-precision format of cvtfh and cvthf: FP16, or BF16 (R179). -/
def halfFmt (h : Nat) : FFmt := if h / 2 % 2 = 1 then bf16 else fp16

/-- A destination that a unit keeps in its inactive lanes, which it reads for them (R176). -/
def keptOf (x : Pfx) (g : Group) (l : List VFld) : List VFld := if activeMask x g = allOnes then [] else l

/-- One-source conversions of major 15 (R178): constructor, class, and the result from the group, the modes and the operand. -/
def conversions : List ((Pfx → VFld → VFld → Instr) × Nat × (FMode → Nat → Nat → FRes)) :=
  [(.cvtfi, 2, fun c i v => let r := roundInt (c.rnd i) 32 (-2147483648) 2147483647 (rd32 c.ftz v).ex
      ((r.1 % 2 ^ 32).toNat, r.2)),
   (.cvtfn, 3, fun c i v => let r := roundInt (c.rnd i) 32 0 4294967295 (rd32 c.ftz v).ex
      ((r.1 % 2 ^ 32).toNat, r.2)),
   (.cvtif, 2, fun c i v => fp32.round (c.rnd i) false (intEx (sextNat 32 v))),
   (.cvtnf, 3, fun c i v => fp32.round (c.rnd i) false (intEx v))]

end Sys2Proof.Claims

/-- R178 to R181: the conversions write the rounded result in the active lanes, in their half, byte or nibbles of it, and raise
the active lanes' flags. -/
def Sys2Proof.Claims.ConversionResults : Prop :=
  ∀ (x : Pfx) (s : State) (k : Nat) (g : Group) (d a : VFld), let c := g.fmode x.rm; let n := g.nmode x.rm
    (ReadyV s k g x [a] [d] [g.vReg a] [g.vDst d] →
      (∀ e ∈ conversions, exec (e.1 x d a) s = .next (doneV s k g (floatWrite (pastV g x [a]) d (activeMask x g) fun i =>
        e.2.2 c i (opA g x a i).toNat) x 15 0 e.2.1 (a :: keptOf x g [d]))) ∧
      (∀ h : Fin 128, exec (.cvthf x d a h) s = .next (doneV s k g (floatWrite (pastV g x [a]) d (activeMask x g) fun i =>
        fp32.round { rm := 1 } g.modeFtz ((halfFmt h.val).unpack ((opA g x a i).toNat / 2 ^ (16 * (h.val % 2)) % 65536)).ex) x 15 0 2 (a :: keptOf x g [d]))) ∧
      ∀ b : Fin 128, ReadyV s k g x [a] [d] (g.vReg a :: tensorReg g) [g.vDst d] → exec (.cvt8f x d a b) s = .next (doneV s k g (floatWrite (pastV g x [a]) d (activeMask x g) fun i =>
        let v := (opA g x a i).toNat / 2 ^ (8 * (b.val % 4)) % 256
        widened g c i (widenVal (formatOf g b.val) (if formatOf g b.val = 3 then v % 16 else v))) x 15 0 3 (a :: keptOf x g [d]))) ∧
    (ReadyV s k g x [a, d] [d] [g.vReg a, g.vReg d] [g.vDst d] →
      (∀ h : Fin 128, exec (.cvtfh x d a h) s = .next (doneV s k g (floatWrite (pastV g x [a, d]) d (activeMask x g) fun i =>
        let r := (halfFmt h.val).round (c.rnd i) false (rd32 c.ftz (opA g x a i).toNat).ex
        (putBits (g.src d i) (16 * (h.val % 2)) 16 r.1, r.2)) x 15 0 2 [a, d])) ∧
      ∀ b : Fin 128, ReadyV s k g x [a, d] [d] (g.vReg a :: g.vReg d :: tensorReg g) [g.vDst d] → exec (.cvtf8 x d a b) s = .next (doneV s k g (floatWrite (pastV g x [a, d]) d (activeMask x g) fun i =>
        let r := narrow (formatOf g b.val) (n.rnd i) n.sat (narrowed g (opA g x a i).toNat)
        (putBits (g.src d i) (8 * (b.val % 4)) 8 r.1, r.2)) x 15 0 3 [a, d])) ∧
    (∀ b : Fin 128, ReadyV s k g x [d] [d] (g.vReg d :: (pairFields g a).map g.vReg ++ tensorReg g) [g.vDst d] →
      exec (.fpack4 x d a b) s = .next (doneV s k g (floatWrite (pastV g x [d]) d (activeMask x g) fun i =>
        let p := g.src64 a x.xa i
        let lo := narrow 3 (n.rnd i) n.sat (narrowed g (p.toNat % 2 ^ 32))
        let hi := narrow 3 (n.rnd (64 + i)) n.sat (narrowed g (p.toNat / 2 ^ 32))
        (putBits (g.src d i) (8 * (b.val % 4)) 8 (lo.1 + 16 * hi.1), Nat.lor lo.2 hi.2)) x 15 0 3 (d :: pairFields g a))) ∧
    ∀ b : Fin 128, ReadyV s k g x [a] [d, d + 1] (g.vReg a :: tensorReg g) [g.vDst d, g.vDst (d + 1)] →
      let r (h i : Nat) : FRes := widened g c (64 * h + i) (widenVal 3 ((opA g x a i).toNat / 2 ^ (8 * (b.val % 4) + 4 * h) % 16))
      exec (.funpk4 x d a b) s = .next (doneV s k g (floatWrite (floatWrite (pastV g x [a]) d (activeMask x g) (r 0)) (d + 1)
        (activeMask x g) (r 1)) x 15 0 3 (a :: keptOf x g [d, d + 1]))

/-- R182, R183: the MX block scales, quantization and dequantization in the formats that have blocks, and the seed; the other
formats raise NV and give the codes and values R182 states. -/
def Sys2Proof.Claims.BlockScaleResults : Prop :=
  ∀ (x : Pfx) (s : State) (k : Nat) (g : Group) (d a : VFld) (r : SReg), let m := activeMask x g
    let plain := g.nf = 2 ∨ g.nf = 4
    let per := if g.nf = 3 then 8 else 4
    let scale (i : Nat) : Nat := (g.readS r.val).toNat / 2 ^ (8 * (i / 32)) % 256
    (ReadyV s k g x [a] [] [g.vReg a] [g.sDst r.val] →
      exec (.mxscl x r a) s = .next (doneV s k g (if plain then ((pastV g x [a]).writeS r.val 0xFFFF).raise 32
        else (pastV g x [a]).writeS r.val (BitVec.ofNat 64 (mxCode g m a x.xa 0 + 256 * mxCode g m a x.xa 1))) x 15 0 3 [a])) ∧
    (ReadyV s k g x [a, d] [d] [g.vReg a, g.vReg d, g.sDst r.val] [g.vDst d] → m ≠ 0 →
      let q := g.nmode x.rm
      let codes := laneIdx.map fun i => if laneBit m i && scale i ≠ 0xFF then
        narrow g.nf (q.rnd i) true (scaleBy (rd32 g.modeFtz (opA g x a i).toNat) (127 - (scale i : Int))).ex else (0, 0)
      exec (.mxq x d a r) s = .next (doneV s k g (if plain then (pastV g x [a, d]).raise 32 else
        ((pastV g x [a, d]).writeF d (maskOf fun i => i < 64 / per) fun i => BitVec.ofNat 32
          (((List.range per).map fun j => (codes.getD (per * i + j) (0, 0)).1 * 2 ^ (32 / per * j)).sum)).raise (orFlags codes))
        x 15 0 3 [a, d])) ∧
    (ReadyV s k g x [a] [d] [g.vReg a, g.sDst r.val] [g.vDst d] →
      let c := g.fmode x.rm
      exec (.mxdq x d a r) s = .next (doneV s k g (floatWrite (pastV g x [a]) d m fun i =>
        if plain then (0x7FC00000, 32) else if scale i = 0xFF then (0x7FC00000, 0) else
          fp32.round (c.rnd i) c.ftz (scaleBy (widenVal g.nf ((opA g x a (i / per)).toNat / 2 ^ (32 / per * (i % per)) % 2 ^ (32 / per)))
            ((scale i : Int) - 127)).ex) x 15 0 3 (a :: keptOf x g [d]))) ∧
    (ReadyV s k g x [] [] [g.sDst r.val] [] →
      exec (.srseed x r) s = .next (doneV s k g (if m = 0 then pastV g x [] else
        { pastV g x [] with mode := BitVec.ofNat 64 (g.mode.toNat % 2 ^ 32 + (g.readS r.val).toNat % 2 ^ 32 * 2 ^ 32) }) x 15 0 1 []))

/-- R135: sext takes one lane of a vector operand to a scalar register; sins puts the low word of s[A] into one lane of a
vector register and keeps the others. -/
def Sys2Proof.Claims.LaneExtractInsert : Prop :=
  ∀ (s : State) (k : Nat) (g : Group), Ready s k g → ∀ (r : SReg) (f : VFld) (b : SReg), let i := (g.readS b.val).toNat % 64
    (Quiet g [g.vReg f, g.sDst b.val] [g.sDst r.val] → headsFilled g (queuesOf [f]) = true →
      queueCheck g (queuesOf [f]) [] false true = none →
      exec (.sext r f b) s = .next (done s k g ((past ((queuesOf [f]).eraseDups.foldl Group.popQ g) 1).writeS r.val
        ((g.src f i).setWidth 64)) 8 1 [f])) ∧
    (f.val < 96 ∨ 112 ≤ f.val → Quiet g [g.sDst r.val, g.sDst b.val] [g.vDst f] →
      exec (.sins f r b) s = .next (done s k g ((past g 1).writeDst (g.vDst f) (maskOf fun j => j = i) fun _ =>
        (g.readS r.val).setWidth 32) 8 1))

namespace Sys2Proof.Claims

/-- The offset register an M-format unit reads: none when VO is 112 (R184). -/
def offset (m : MFld) : List VFld := if m.vo.val = 112 then [] else [m.vo]

/-- addr[i] of R184: s[SB] + sext(IMM20) + sext(the offset register's lane). -/
def addrM (x : Pfx) (m : MFld) (g : Group) (i : Nat) : DWord :=
  g.readS m.sb.val + x.imm.signExtend 64 + if m.vo.val = 112 then 0 else (xbar x.xa (g.src m.vo) i).signExtend 64

/-- `n` successive registers. -/
def regs (d : VFld) (n : Nat) : List VFld := (List.range n).map fun j => d + Fin.ofNat 128 j

/-- The registers of a source of `size` bytes a lane: one, a pair, or four (R33, R188). -/
def sources (g : Group) (d : VFld) (size : Nat) : List VFld :=
  if size ≤ 4 then [d] else if size = 8 then pairFields g d else [d, d + 1, d + 2, d + 3]

/-- The bytes of lane i of a source, least significant first (R8, R188). -/
def bytesOf (g : Group) (d : VFld) (size i : Nat) : List Byte :=
  if size ≤ 4 then leBytes size (g.src d i).toNat
  else if size = 8 then leBytes 4 (g.src d i).toNat ++ leBytes 4 (g.srcHi d i).toNat
  else [d, d + 1, d + 2, d + 3].flatMap fun f => leBytes 4 (g.src f i).toNat

/-- The loads of majors 16 and 20: constructor, major, function code, bytes a lane, registers, sign extension (R188, R205). -/
noncomputable def loads : List ((Pfx → MFld → Instr) × Nat × Nat × Nat × Nat × Bool) :=
  [(.ldI8, 16, 0, 1, 1, true), (.ldN8, 16, 1, 1, 1, false), (.ldI16, 16, 2, 2, 1, true), (.ldN16, 16, 3, 2, 1, false),
   (.ldB32, 16, 4, 4, 1, false), (.ldB64, 16, 5, 8, 2, false), (.ldB128, 16, 6, 16, 4, false),
   (.ldwB32, 20, 0, 4, 1, false), (.ldwB64, 20, 1, 8, 2, false), (.ldwB128, 20, 2, 16, 4, false)]

/-- Which L1 path a load takes: 2 no allocation (hint 3), 1 past the L1 (ordered, of DIE scope or wider), 0 the L1 (R189). -/
def loadPath (m : MFld) : Nat := if m.ord.val = 3 then 2 else if m.ord.val ≠ 0 ∧ m.scope.val ≠ 0 then 1 else 0

/-- The stores of majors 17 and 20: constructor, major, function code, bytes a lane. -/
noncomputable def stores : List ((Pfx → MFld → Instr) × Nat × Nat × Nat) :=
  [(.stB8, 17, 0, 1), (.stB16, 17, 1, 2), (.stB32, 17, 2, 4), (.stB64, 17, 3, 8), (.stB128, 17, 4, 16),
   (.stwB32, 20, 3, 4), (.stwB64, 20, 4, 8), (.stwB128, 20, 5, 16)]

/-- The store operation of an M-format unit (R188, R190, R195). -/
def storeAccess (maj fn size : Nat) (x : Pfx) (m : MFld) (g : Group) (act : DWord) (id : Nat) : Op :=
  { id := id, unit := id, pc := g.pc, maj := maj, fn := fn, ctr := .st, kind := .store, size := size, align := size, need := 2,
    wr := true, rel := m.ord.val = 2, scope := m.scope.val, ord := m.ord.val, dnum := m.d.val,
    l1 := if m.ord.val = 3 then 2 else 0, dq := decide (96 ≤ m.d.val) && decide (m.d.val < 112),
    arg := [g.readS m.sb.val + x.imm.signExtend 64],
    keeps := ((sources g m.d size).map g.vReg).filter fun r => r ≠ .none,
    accs := (onLanes act).map fun i => { lane := i, va := addrM x m g i, data := bytesOf g m.d size i } }

/-- The registers of a range D to Y.E. -/
def range (x : Pfx) (d : VFld) : List VFld := (List.range ((x.y.map fun y => y.e.val).getD 0 + 1 - d.val)).map fun j => Fin.ofNat 128 (d.val + j)

/-- Atomics by number (R314): constructor. -/
def atomics : List ((Pfx → VFld → VFld → VFld → Fin 4 → Instr) × Nat) :=
  [(.atomAdd, 0), (.atomSub, 1), (.atomMin, 2), (.atomMax, 3), (.atomMinn, 4), (.atomMaxn, 5), (.atomAnd, 6), (.atomOr, 7),
   (.atomXor, 8), (.atomXchg, 9), (.atomCas, 10), (.atomFadd, 11), (.atomFmin, 12), (.atomFmax, 13), (.atomBfadd2, 14),
   (.atomIncw, 15)]

/-- Reductions by number (R314). -/
noncomputable def reds : List ((Pfx → Bool → VFld → VFld → Fin 4 → Instr) × Nat) :=
  [(.redAdd, 0), (.redSub, 1), (.redMin, 2), (.redMax, 3), (.redMinn, 4), (.redMaxn, 5), (.redAnd, 6), (.redOr, 7), (.redXor, 8),
   (.redFadd, 9), (.redFmin, 10), (.redFmax, 11), (.redBfadd2, 12)]

/-- The lanes of a transfer of a range of registers: registers ascending, in each the lanes ascending (R234). -/
def blockLanes (g : Group) (fs : List VFld) (a b : SReg) (act : DWord) (store : Bool) : List LaneAcc :=
  fs.zipIdx.flatMap fun p => (onLanes act).map fun i =>
    { reg := p.2, lane := i, va := g.readS a.val,
      co := (List.range 5).map fun n => sextNat 32 ((g.readS (b.val + n / 2)).toNat / 2 ^ (32 * (n % 2))),
      data := if store then leBytes 4 (g.src p.1 i).toNat else [] }

end Sys2Proof.Claims

/-- R184, R188, R189, R191, R198: a load of majors 16 and 20 issues, its lanes at addr[i], one access of its size each, and
raises LD; it goes on to the next unit. What its translation and its return do is stated apart. -/
def Sys2Proof.Claims.LoadUnits : Prop :=
  ∀ e ∈ loads, ∀ (x : Pfx) (m : MFld) (s : State) (k : Nat) (g : Group),
    ReadyM s k g x (offset m) (regs m.d e.2.2.2.2.1) ((offset m).map g.vReg ++ [g.sDst m.sb.val])
      ((regs m.d e.2.2.2.2.1).map g.vDst) → g.counter .ld ≤ 254 →
    exec (e.1 x m) s = .next (doneM (s.issueOps k (pastM g x (offset m)) 1 fun id =>
      [{ id := id, unit := id, pc := g.pc, maj := e.2.1, fn := e.2.2.1, ctr := .ld, kind := .load e.2.2.2.1 e.2.2.2.2.2,
         size := e.2.2.2.1, align := e.2.2.2.1, need := 1, acq := m.ord.val = 2, scope := m.scope.val, ord := m.ord.val,
         dnum := m.d.val, l1 := loadPath m, arg := [g.readS m.sb.val + x.imm.signExtend 64],
         dst := (regs m.d e.2.2.2.2.1).map g.vDst,
         accs := (onLanes (activeMask x g)).map fun i => { lane := i, va := addrM x m g i } }]) g x e.2.1 1 (offset m))

/-- R184, R188, R190, R195, R198: a store issues with its lanes' addresses and the bytes of its source, and raises ST. -/
def Sys2Proof.Claims.StoreUnits : Prop :=
  ∀ e ∈ stores, ∀ (x : Pfx) (m : MFld) (s : State) (k : Nat) (g : Group),
    let src := offset m ++ if e.2.2.2 = 8 then [] else sources g m.d e.2.2.2
    ReadyM s k g x src [] (src.map g.vReg ++ (if e.2.2.2 = 8 then (pairFields g m.d).map g.vReg else []) ++ [g.sDst m.sb.val]) [] →
    g.counter .st ≤ 254 →
    exec (e.1 x m) s = .next (doneM (s.issueOps k (pastM g x src) 1 fun id =>
      [storeAccess e.2.1 e.2.2.1 e.2.2.2 x m g (activeMask x g) id]) g x e.2.1 1
        (src ++ if e.2.2.2 = 8 then pairFields g m.d else []))

/-- R192, R193: ldm and stm make one access of each register D to Y.E, ascending, 4 bytes further each. -/
def Sys2Proof.Claims.RangeUnits : Prop :=
  ∀ (x : Pfx) (m : MFld) (s : State) (k : Nat) (g : Group), let fs := range x m.d; let n := fs.length
    let at_ (j i : Nat) : DWord := addrM x m g i + BitVec.ofNat 64 (4 * j)
    (ReadyM s k g x (offset m) fs ((offset m).map g.vReg ++ [g.sDst m.sb.val]) (fs.map g.vDst) → g.counter .ld + n ≤ 255 →
      exec (.ldm x m) s = .next (doneM (s.issueOps k (pastM g x (offset m)) n fun id => (List.range n).map fun j =>
        { id := id + j, unit := id, pc := g.pc, maj := 16, fn := 7, ctr := .ld, kind := .load 4 false, size := 4, align := 4,
          need := 1, acq := m.ord.val = 2, scope := m.scope.val, ord := m.ord.val, l1 := loadPath m,
          multi := some (m.d.val + j), dnum := m.d.val + j,
          arg := [g.readS m.sb.val + x.imm.signExtend 64 + BitVec.ofNat 64 (4 * j)], dst := [g.vDst (m.d + Fin.ofNat 128 j)],
          accs := (onLanes (activeMask x g)).map fun i => { lane := i, va := at_ j i } }) g x 16 1 (offset m))) ∧
    (ReadyM s k g x (offset m ++ fs) [] ((offset m ++ fs).map g.vReg ++ [g.sDst m.sb.val]) [] → g.counter .st + n ≤ 255 →
      exec (.stm x m) s = .next (doneM (s.issueOps k (pastM g x (offset m ++ fs)) n fun id => (List.range n).map fun j =>
        { storeAccess 17 5 4 x m g (activeMask x g) (id + j) with
            unit := id, multi := some (m.d.val + j), dnum := m.d.val + j,
            arg := [g.readS m.sb.val + x.imm.signExtend 64 + BitVec.ofNat 64 (4 * j)], keeps := [g.vDst (m.d + Fin.ofNat 128 j)],
            accs := (onLanes (activeMask x g)).map fun i =>
              { lane := i, va := at_ j i, data := leBytes 4 (g.src (m.d + Fin.ofNat 128 j) i).toNat } }) g x 17 1 (offset m ++ fs)))

/-- R333, R335, R334: sta, sta64 and red.agg hand their lanes to the Cumulus unit as elements of an f32 sum, an f64 pair, or a
reduction; they raise ST. -/
def Sys2Proof.Claims.AggregatingUnits : Prop :=
  ∀ (x : Pfx) (s : State) (k : Nat) (g : Group), g.counter .st ≤ 254 →
    (∀ e ∈ [((Instr.sta), 6, 4), (.sta64, 7, 8)], ∀ m : MFld,
      let src := offset m ++ if e.2.2 = 8 then [] else [m.d]
      ReadyM s k g x src [] (src.map g.vReg ++ (if e.2.2 = 8 then (pairFields g m.d).map g.vReg else []) ++ [g.sDst m.sb.val]) [] →
      exec (e.1 x m) s = .next (doneM (s.issueOps k (pastM g x src) 1 fun id =>
        [{ storeAccess 17 e.2.1 e.2.2 x m g (activeMask x g) id with
             kind := .agg 13 (decide (e.2.2 = 8)), need := 10, rel := false }]) g x 17 1 (src ++ if e.2.2 = 8 then pairFields g m.d else []))) ∧
    ∀ e ∈ reds, ∀ (a b : VFld) (c : Fin 4), let od := x.imm.toNat % 4
      ReadyM s k g x [b] [] (g.vReg b :: (pairFields g a).map g.vReg) [] →
      ∀ agg : Bool, exec (e.1 x agg a b c) s = .next (doneM (s.issueOps k (pastM g x [b]) 1 fun id =>
        [{ id := id, unit := id, pc := g.pc, maj := 19, fn := 4 * e.2 + c.val, ctr := .st,
           kind := if agg then .agg e.2 false else .red e.2, size := 4, align := 4, need := 10, wr := true,
           rel := 2 ≤ od, scope := c.val, l1 := 1,
           accs := (onLanes (activeMask x g)).map fun i =>
             { lane := i, va := g.src64 a x.xa i, data := leBytes 4 (opB g x b i).toNat } }]) g x 19 1
        (b :: pairFields g a))

/-- R313, R316, R317: an atomic issues with the pair's addresses, the value of B, and for cas its comparand in D (B is the new word); it raises LD
and its old words return to D. -/
def Sys2Proof.Claims.AtomicUnits : Prop :=
  ∀ e ∈ atomics, ∀ (x : Pfx) (d a b : VFld) (c : Fin 4) (s : State) (k : Nat) (g : Group), let od := x.imm.toNat % 4
    let src := if e.2 = 10 then [b, d] else [b]
    ReadyM s k g x src [d] (src.map g.vReg ++ (pairFields g a).map g.vReg) [g.vDst d] → g.counter .ld ≤ 254 →
    exec (e.1 x d a b c) s = .next (doneM (s.issueOps k (pastM g x src) 1 fun id =>
      [{ id := id, unit := id, pc := g.pc, maj := 18, fn := 4 * e.2 + c.val, ctr := .ld, kind := .atom e.2, size := 4, align := 4,
         need := 10, wr := true, acq := od % 2 = 1, rel := 2 ≤ od, scope := c.val, l1 := 1, dst := [g.vDst d],
         accs := (onLanes (activeMask x g)).map fun i =>
           { lane := i, va := g.src64 a x.xa i, data := leBytes 4 (opB g x b i).toNat ++ leBytes 4 (g.src d i).toNat } }]) g x 18 1
        (src ++ pairFields g a))

/-- R206: wadd and wcas issue on the WGM path with the value of D, and of D + 1 for wcas; their old words return to D. -/
def Sys2Proof.Claims.WgmAtomicUnits : Prop :=
  ∀ e ∈ [((Instr.wadd), 6, 1, OpKind.wadd), (.wcas, 7, 2, .wcas)], ∀ (x : Pfx) (m : MFld) (s : State) (k : Nat) (g : Group),
    let src := offset m ++ regs m.d e.2.2.1
    ReadyM s k g x src [m.d] (src.map g.vReg ++ [g.sDst m.sb.val]) [g.vDst m.d] → g.counter .ld ≤ 254 →
    exec (e.1 x m) s = .next (doneM (s.issueOps k (pastM g x src) 1 fun id =>
      [{ id := id, unit := id, pc := g.pc, maj := 20, fn := e.2.1, ctr := .ld, kind := e.2.2.2, size := 4, align := 4, need := 1,
         acq := m.ord.val = 2, rel := m.ord.val = 2, scope := 0, ord := m.ord.val, dnum := m.d.val, dst := [g.vDst m.d],
         accs := (onLanes (activeMask x g)).map fun i =>
           { lane := i, va := addrM x m g i, data := (regs m.d e.2.2.1).flatMap fun f => leBytes 4 (g.src f i).toNat } }]) g x 20 1 src)

/-- R232 to R236: the units of major 21: an element of each lane's own coordinates, a block from an origin, a word of the
object's record, and the probe of a VA. -/
def Obligations.ObjectUnits : Prop :=
  ∀ (x : Pfx) (s : State) (k : Nat) (g : Group) (d b : VFld) (a c : SReg), let m := activeMask x g
    let co (i : Nat) : List Int := (regs b 5).map fun f => (g.src f i).toInt
    let rng := range x d
    let three := [g.sDst a.val, g.sDst c.val, g.sDst (c.val + 1), g.sDst (c.val + 2)]
    (ReadyM s k g x (regs b 5) [d] ((regs b 5).map g.vReg ++ [g.sDst a.val]) [g.vDst d] → g.counter .ld ≤ 254 →
      exec (.ldo x d a b) s = .next (doneM (s.issueOps k (pastM g x (regs b 5)) 1 fun id =>
        [{ id := id, unit := id, pc := g.pc, maj := 21, fn := 0, ctr := .ld, kind := .load 4 false, need := 1, dst := [g.vDst d],
           arg := [g.readS a.val], accs := (onLanes m).map fun i => { lane := i, va := g.readS a.val, co := co i } }]) g x 21 1 (regs b 5))) ∧
    (ReadyM s k g x (d :: regs b 5) [] ((d :: regs b 5).map g.vReg ++ [g.sDst a.val]) [] → g.counter .st ≤ 254 →
      exec (.sto x d a b) s = .next (doneM (s.issueOps k (pastM g x (d :: regs b 5)) 1 fun id =>
        [{ id := id, unit := id, pc := g.pc, maj := 21, fn := 1, ctr := .st, kind := .store, need := 2, wr := true,
           arg := [g.readS a.val], dq := decide (96 ≤ d.val) && decide (d.val < 112), keeps := [g.vReg d].filter fun r => r ≠ .none,
           accs := (onLanes m).map fun i => { lane := i, va := g.readS a.val, co := co i, data := leBytes 4 (g.src d i).toNat } }])
        g x 21 1 (d :: regs b 5))) ∧
    (ReadyM s k g x [] rng three (rng.map g.vDst) → g.counter .tl ≤ 254 →
      exec (.ldob x d a c) s = .next (doneM (s.issueOps k (pastM g x []) 1 fun id =>
        [{ id := id, unit := id, pc := g.pc, maj := 21, fn := 2, ctr := .tl, kind := .load 4 false, need := 1, dst := rng.map g.vDst,
           arg := [g.readS a.val], accs := blockLanes g rng a c m false }]) g x 21 1 [])) ∧
    (ReadyM s k g x rng [] (rng.map g.vReg ++ three) [] → g.counter .tl ≤ 254 →
      exec (.stob x d a c) s = .next (doneM (s.issueOps k (pastM g x rng) 1 fun id =>
        [{ id := id, unit := id, pc := g.pc, maj := 21, fn := 3, ctr := .tl, kind := .store, need := 2, wr := true,
           arg := [g.readS a.val], keeps := rng.map g.vDst, accs := blockLanes g rng a c m true }]) g x 21 1 rng)) ∧
    (∀ n : Fin 8, ReadyM s k g x [] [] [g.sDst a.val] [g.sDst c.val] →
      let o : Op :=
        { id := s.nextId, unit := s.nextId, pc := g.pc, maj := 21, fn := 4, kind := .value, dst := [g.sDst c.val],
          result := s.oinfoWord g (g.readS a.val) n.val }
      exec (.oinfo x c a n) s = .next (doneM (({ s with nextId := s.nextId + 1 }.startWalk (s.xl g) (g.readS a.val).toNat).setGrp k
        ((pastM g x []).addOp o)) g x 21 1 [])) ∧
    ∀ p : PReg, ReadyM s k g x [] [] ((pairFields g b).map g.vReg ++ [g.sDst a.val, .p p.val]) [.p p.val] →
      exec (.oprobe x p b a) s = .next (doneM (s.setGrp k ((pastM g x []).writePBits p.val m fun i =>
        s.probe g (g.src64 b 0 i).toNat ((g.readS a.val).toNat % 16))) g x 21 1 (pairFields g b))

namespace Sys2Proof.Claims

/-- The machine `t` after a one-word unit of class 1 and major `maj` of group `g` that reads the vector operands `src`. -/
def finished (t : State) (g : Group) (maj : Nat) (src : List VFld := []) : State :=
  t.paid g { pipe := pipeOf maj 0, cls := 1, reads := g.physReads src }

/-- A unit without vector operands may take its effect: its registers are at rest. -/
structure ReadyS (s : State) (k : Nat) (g : Group) (rd wr : List Dst) : Prop where
  now : Ready s k g
  quiet : Quiet g rd wr

/-- The next name of an operation is taken (the model's own counter). -/
def named (s : State) : State := { s with nextId := s.nextId + 1 }

/-- The accesses of a group that have not been performed. -/
def openOps (g : Group) : List Op := g.ops.filter fun o => !o.performed

/-- The workgroup of a group, which is resident (R67). -/
def Of (s : State) (g : Group) (w : Workgroup) : Prop := s.wg? g.wg = some w

/-- What a semw occupies; it is evaluated after the other units of its cycle that change a semaphore (R278). -/
def semwIssue : Issued := { pipe := 4, cls := 1, semw := true }

/-- Nothing in the group's accesses holds a release of WGP scope (R265, R273). -/
def Released (g : Group) : Prop := ∀ o ∈ g.ops, o.performed = true ∨ o.isAcc = false

end Sys2Proof.Claims

/-- R329, R330, R339, R200, R201: a fence, pfence, fla, wait or waitr goes on once what it waits for is done, a wide acquire
emptying the L1; and while an earlier access it names is open, or a counter stands over its limit, it is not ready and nothing
happens. -/
def Sys2Proof.Claims.WaitsAndFences : Prop :=
  ∀ (s : State) (k : Nat) (g : Group), Ready s k g → Clear s g →
    (∀ kind scope : Fin 4, let acq := kind.val % 2 = 1; let rel := 2 ≤ kind.val
      ((acq → (openOps g).all (fun o => !o.returns) = true) ∧ (rel → (openOps g).all (fun o => !o.isAcc) = true) ∧
        (rel → 1 ≤ scope.val → (openOps g).all (fun o => !o.isAgg) = true ∧ g.dirtyMask = 0) ∧ g.agg = false ∧ g.peerP = false →
        exec (.fence kind scope) s = .next (finished (if acq ∧ 1 ≤ scope.val then (s.setGrp k (past g 1)).l1Clear g.core
          else s.setGrp k (past g 1)) g 22)) ∧
      ((acq ∧ (openOps g).any Op.returns = true) ∨ (rel ∧ (openOps g).any Op.isAcc = true) →
        exec (.fence kind scope) s = .next s.stall)) ∧
    (g.dirtyMask = 0 → (openOps g).all (fun o => !o.isAgg) = true → g.agg = false → g.peerP = false →
      exec .fla s = .next (finished (s.setGrp k { past g 1 with flaWait := false }) g 22)) ∧
    (∀ p t : Fin 16, openOps g = [] → g.mxq = [] → (∀ w, Of s g w → g.cpn ≤ w.ctl) →
      exec (.pfence p t) s = .next (finished (s.setGrp k (past g 1)) g 22)) ∧
    (∀ ld st tl mx : Fin 32, let met := (ld.val = 31 ∨ g.counter .ld ≤ ld.val) ∧ (st.val = 31 ∨ g.counter .st ≤ st.val) ∧
        (tl.val = 31 ∨ g.counter .tl ≤ tl.val) ∧ (mx.val = 31 ∨ g.counter .mx ≤ mx.val)
      (met → exec (.wait ld st tl mx) s = .next (finished (s.setGrp k (past g 1)) g 28)) ∧
      (¬ met → exec (.wait ld st tl mx) s = .next s.stall)) ∧
    ∀ (p : Fin 4) (a : SReg), g.inH = false → dstMeet [g.sDst a.val] g.pending = false →
      let n := g.counter (ctrOf p.val)
      (n ≤ (g.readS a.val).toNat → exec (.waitr p a) s = .next (finished (s.setGrp k (past g 1)) g 25)) ∧
      ((g.readS a.val).toNat < n → exec (.waitr p a) s = .next s.stall)

/-- R202 to R204: cinv empties the L1 or drops a line of it, cwb writes a line held in M home and keeps it in E, pref brings a
line into the die cache and the L1, or the die cache only, its context charged for a line that it lacked (R412); crsz waits with the group's loads. -/
def Sys2Proof.Claims.CacheUnits : Prop :=
  ∀ (s : State) (k : Nat) (g : Group) (a : SReg), let go := s.setGrp k (past g 1)
    (ReadyS s k g [g.sDst a.val] [] →
      (a = 0 → exec (.cinv a) s = .next (finished (go.l1Clear g.core) g 22)) ∧
      ∀ d, s.daOf g 0 (g.readS a.val) = some d → a ≠ 0 →
        exec (.cinv a) s = .next (finished (go.l1Drop g.core (d / 128)) g 22) ∧
        (s.lineOf g.die (d / 128) = .M → s.lineFree (d / 128) = true →
          exec (.cwb a) s = .next (finished ((go.flushLine (d / 128)).setLine g.die (d / 128) .E) g 22)) ∧
        (s.lineOf g.die (d / 128) ≠ .M → exec (.cwb a) s = .next (finished go g 22))) ∧
    (ReadyS s k g [g.sDst a.val] [] → ∀ d, s.daOf g 1 (g.readS a.val) = some d → s.linesReady g [d / 128] = true →
      let paid := if s.lineOf g.die (d / 128) = .I then go.energy g.ctx 110000 else go
      exec (.pref a 0) s = .next (finished ((paid.getS g.die (d / 128)).l1Fill g.core (d / 128)) g 22) ∧
      exec (.pref a 1) s = .next (finished (paid.getS g.die (d / 128)) g 22)) ∧
    (ReadyS s k g [g.sDst a.val] [] → s.daOf g 0 (g.readS a.val) = none → a ≠ 0 →
      exec (.cinv a) s = .next (finished go g 22) ∧ exec (.cwb a) s = .next (finished go g 22)) ∧
    ∀ d : SReg, ReadyS s k g [g.sDst a.val] [g.sDst d.val] → g.counter .ld ≤ 254 →
      exec (.crsz d a) s = .next (finished ((named s).setGrp k ((past g 1).addOp
        { id := s.nextId, unit := s.nextId, pc := g.pc, maj := 22, fn := 6, ctr := .ld, kind := .crsz, dst := [g.sDst d.val],
          arg := [g.readS a.val] })) g 22)

/-- R258, R263, R264: tlrd returns a timeline's value and, but on MTL, empties the L1; tlwait and waitk go on at once when the
timeline or the tokens have reached their value, and park the group at the unit otherwise (a parked group's PC: DESIGN CHOICE,
LE 28). -/
def Sys2Proof.Claims.TimelineUnits : Prop :=
  ∀ (s : State) (k : Nat) (g : Group), Ready s k g → Clear s g → g.inH = false → ∀ (d a b : SReg),
    dstMeet [g.sDst a.val, g.sDst b.val, g.sDst d.val] g.pending = false → dstMeet [g.sDst d.val] g.kept = false →
    let sel := g.readS a.val
    (s.selOk g sel = true →
      (let o : Op := { id := s.nextId, unit := s.nextId, pc := g.pc, maj := 25, fn := 8, kind := .value, dst := [g.sDst d.val],
                       result := BitVec.ofNat 64 (s.tlValue g sel) }
       let t := (named s).setGrp k ((past g 1).addOp o)
       exec (.tlrd d a) s = .next (finished (if sel.toNat % 8 = 1 then t else t.l1Clear g.core) g 25)) ∧
      (let h : Group := { g with park := 4, parkArg := [sel, g.readS b.val] }
       (s.waitMet h = true → exec (.tlwait a b) s = .next (finished (s.endWait k h) g 25)) ∧
       (s.waitMet h = false → exec (.tlwait a b) s = .next (finished (s.setGrp k { h with parkTns := s.dev.tns }) g 25)))) ∧
    ∀ m n : Fin 16, let h : Group := { g with park := 5, parkArg := [BitVec.ofNat 64 (m.val * 16 + n.val)] }
      (s.waitMet h = true → exec (.waitk m n) s = .next (finished (s.endWait k h) g 25)) ∧
      (s.waitMet h = false → exec (.waitk m n) s = .next (finished (s.setGrp k { h with parkTns := s.dev.tns }) g 25))

/-- R265, R266: bar and bar.px arrive once the group's earlier accesses are performed, bar.px also once its matrix units and
copies have read their sources: the group parks past the unit (DESIGN CHOICE, LE 28) and counts as arrived. -/
def Sys2Proof.Claims.BarrierArrival : Prop :=
  ∀ (s : State) (k : Nat) (g : Group), Ready s k g → Clear s g → g.inH = false → Released g →
    (exec .bar s = .next (finished (s.arrive k g (past g 1)) g 25)) ∧
    (g.mxq = [] → s.copyReads g = false → exec .barPx s = .next (finished (s.arrive k g (past g 1)) g 25))

/-- R267 to R272: the transaction-barrier units on a held barrier: balloc takes the lowest free handle, or answers all ones and a
clear predicate; barv lowers PEND and returns the phase; barx moves TX; bfree gives a reference back; barw waits
at its unit (DESIGN CHOICE, LE 28). -/
def Sys2Proof.Claims.TransactionBarrierUnits : Prop :=
  ∀ (s : State) (k : Nat) (g : Group) (w : Workgroup), Ready s k g → g.inH = false → Of s g w →
    (∀ (d : SReg) (p : PReg) (b : SReg), let v := (g.readS b.val).toNat
      Quiet g [g.sDst b.val] [g.sDst d.val, .p p.val] → v < 2 ^ 16 → v % 256 ≠ 0 → v / 256 ≠ 0 →
      (64 ≤ w.bars.length ∨ 256 ≤ s.barsOn g.core →
        exec (.balloc d p b) s = .next ((s.setGrp k (((past g 1).writeS d.val allOnes).writeP p.val 0)).paid g
          { pipe := 4, cls := 1, balloc := true })) ∧
      (w.bars.length < 64 → s.barsOn g.core < 256 →
        exec (.balloc d p b) s = .next (((s.setWg g.wg { w with
            bars := w.bars ++ [{ reg := w.freeHandle, expa := v % 256, pend := v % 256, refs := v / 256, aid := w.acnt }],
            acnt := (w.acnt + 1) % 65536 }).setGrp k
          (((past g 1).writeS d.val (BitVec.ofNat 64 w.freeHandle)).writeP p.val allOnes)).paid g
          { pipe := 4, cls := 1, balloc := true }))) ∧
    ∀ (a b d : SReg) (t : TxBar), (g.readS a.val).toNat < 64 → w.bar? (g.readS a.val).toNat = some t →
      (Quiet g [g.sDst a.val] [] →
        (2 ≤ t.refs → exec (.bfree a) s = .next (finished ((s.setGrp k (past g 1)).setWg g.wg
          (w.setBar { t with refs := t.refs - 1 })) g 25)) ∧
        (t.refs ≤ 1 → exec (.bfree a) s = .next (finished (((s.setGrp k (past g 1)).setWg g.wg
          { w with bars := w.bars.filter fun x => x.reg ≠ t.reg }).barFreed g.wg t.reg) g 25))) ∧
      (Quiet g [g.sDst a.val] [g.sDst d.val] → t.pend ≠ 0 →
        exec (.barv d a) s = .next (finished (((named s).setGrp k (((past g 1).writeS d.val (BitVec.ofNat 64 t.phase)).addOp
            { id := s.nextId, unit := s.nextId, pc := g.pc, maj := 25, fn := 2, kind := .barvRel,
              arg := [BitVec.ofNat 64 t.aid] })).setWg g.wg
          { (w.setBar { t with pend := t.pend - 1 }) with barvRel := w.barvRel ++ [(k, s.nextId, t.aid)] }) g 25)) ∧
      (Quiet g [g.sDst a.val, g.sDst b.val] [] →
        (let v : Int := t.tx + (g.readS b.val).toInt
         (-(2 ^ 47 : Int) ≤ v) → v < 2 ^ 47 → exec (.barx a b) s = .next (finished (((s.setGrp k (past g 1)).setWg g.wg
           (w.barDone { t with tx := v })).syncWake) g 25)) ∧
        (Clear s g → let h : Group := { g with park := 2, parkArg := [g.readS a.val, g.readS b.val] }
          (s.waitMet h = true → exec (.barw a b) s = .next (finished (s.endWait k h) g 25)) ∧
          (s.waitMet h = false → exec (.barw a b) s = .next (finished (s.setGrp k { h with parkTns := s.dev.tns }) g 25))))

/-- R273, R274: sema.add and sema.set change a semaphore that the workgroup names once its earlier accesses are performed, and
wake its waiters; semw waits for its value at its unit (DESIGN CHOICE, LE 28). -/
def Sys2Proof.Claims.SemaphoreUnits : Prop :=
  ∀ (s t : State) (k : Nat) (g : Group) (a b : SReg), ReadyS s k g [g.sDst a.val, g.sDst b.val] [] → g.inH = false →
    let n := (g.readS a.val).toNat % 64
    let v := (g.readS b.val).toNat % 2 ^ 32
    s.nameSema g.wg n = some t →
    (Released g →
      exec (.semaAdd a b) s = .next (finished ((t.setGrp k (past g 1)).semaSet g.wg n fun x => x + v) g 25) ∧
      exec (.semaSet a b) s = .next (finished ((t.setGrp k (past g 1)).semaSet g.wg n fun _ => v) g 25)) ∧
    (Clear s g → let h : Group := { g with park := 6, parkArg := [g.readS a.val, g.readS b.val] }
      (t.waitMet h = true → exec (.semw a b) s = .next ((t.endWait k h).paid g semwIssue)) ∧
      (t.waitMet h = false → exec (.semw a b) s = .next ((t.setGrp k { h with parkTns := s.dev.tns }).paid g semwIssue)))

namespace Sys2Proof.Claims

/-- Copy units by function code (R237). -/
noncomputable def copies : List ((SReg → SReg → Fin 8 → Instr) × Nat) :=
  [(.cpy, 0), (.cpyb, 1), (.cpyt, 2), (.cpyx, 3), (.gath, 4), (.scat, 5), (.scata, 6)]

/-- Matrix units: constructor, kind, descriptor registers. -/
noncomputable def matrices : List ((SReg → SReg → Instr) × Nat × Nat) :=
  [(.mma, 0, 2), (.mxloop, 1, 4), (.mxzero, 2, 1), (.mxrel, 3, 1)]

/-- Registers s[A] to s[A + n − 1]. -/
def sregs (g : Group) (a : SReg) (n : Nat) : List Dst := (List.range n).map fun i => g.sDst (a.val + i)

/-- Their values. -/
def svals (g : Group) (a : SReg) (n : Nat) : List DWord := (List.range n).map fun i => g.readS (a.val + i)

/-- Bit n of a token mask set. -/
def withToken (m n : Nat) : Nat := if bitOf m n then m else m + 2 ^ n

end Sys2Proof.Claims

/-- R237, R240 to R243, R276: a copy unit whose descriptor is legal, with room for its copy and its semaphore named, takes the
group's next copy number into s[D], gives its slice to the workgroup's copy of that number and marks its token; the copy starts
with its last slice. -/
def Obligations.CopyUnits : Prop :=
  ∀ e ∈ copies, ∀ (s t : State) (k : Nat) (g : Group) (w v : Workgroup) (d a : SReg) (n : Fin 8),
    ReadyS s k g (sregs g a 8) [g.sDst d.val] → g.inH = false → Of s g w →
    let num := g.cpn + 1
    let l : CopySlice := { grp := g.idx, fn := e.2, tok := n.val, pc := g.pc, opId := s.nextId, desc := svals g a 8 }
    copyOk l = true →
    ((w.copies.any fun c => c.num = num) = true ∨ (w.copies.filter fun c => !c.done).length < 16) →
    (w.copies.filter fun c => c.num ≠ num && !c.started && !s.supplied g.wg c).length < 2 →
    (if l.sen then s.nameSema g.wg (l.fld 3 12 6) else some s) = some t → Of t g v →
    let u : Workgroup :=
      { v.addSlice num (if g.handable l.opId then l.hand v else l) with
          tok := v.tok.set n.val (max (v.tok.getD n.val 0) num),
          tokUsed := withToken v.tokUsed n.val }
    exec (e.1 d a n) s = .next (finished (((({ t with nextId := t.nextId + 1 } : State).setWg g.wg u).setGrp k
      { (past g 1).writeS d.val (BitVec.ofNat 64 num) with cpn := num }).startCopy g.wg num) g 23)

/-- R286 to R293: a matrix unit with a legal descriptor joins the group's matrix queue under its next number, which s[D]
receives, and raises MX unless it is mxrel; mxcfg writes MXC; tld and tst of a row within the group's tile rows raise TL. -/
def Obligations.MatrixUnits : Prop :=
  ∀ (s : State) (k : Nat) (g : Group), g.inH = false →
    (∀ e ∈ matrices, ∀ (t : State) (d a : SReg), ReadyS s k g (sregs g a e.2.2) [g.sDst d.val] →
      let m : MxUnit := { num := g.nis + 1, op := e.2.1, desc := svals g a e.2.2, pc := g.pc, arg := g.mxc }
      m.ok = true → g.mxq.length < 8 → g.holdsMatrix = false → g.counter .mx ≤ 254 → s.nameSemas g.wg m.sems = some t →
      let o : Op := { id := s.nextId, unit := s.nextId, pc := g.pc, maj := 24, fn := e.2.1, ctr := .mx, kind := .matrix,
                      arg := [BitVec.ofNat 64 m.num] }
      let h : Group := { (past g 1).writeS d.val (BitVec.ofNat 64 m.num) with nis := m.num, mxq := g.mxq ++ [m] }
      exec (e.1 d a) s = .next (finished (({ t with nextId := t.nextId + 1 } : State).setGrp k
        (if e.2.1 = 3 then h else h.addOp o)) g 24)) ∧
    (∀ a : SReg, ReadyS s k g [g.sDst a.val] [] → mxcOk (g.readS a.val).toNat = true →
      exec (.mxcfg a) s = .next (finished (s.setGrp k { past g 1 with mxc := g.readS a.val }) g 24)) ∧
    ∀ (d : VFld) (a : SReg) (w : Workgroup), Of s g w → let v := (g.readS a.val).toNat
      v < 2 ^ 13 → v % 1024 < w.tsrows → g.counter .tl ≤ 254 → (g.mxq.any fun m => m.touches (v % 1024) (v / 1024 % 8)) = false →
      let o (c : OpKind) (fn : Nat) (dst : List Dst) (b : Nat → List Byte) : Op :=
        { id := s.nextId, unit := s.nextId, pc := g.pc, maj := 24, fn := fn, ctr := .tl, kind := c, dst := dst,
          arg := [BitVec.ofNat 64 (v % 1024), BitVec.ofNat 64 (v / 1024 % 8)],
          accs := (onLanes (activeMask Pfx.none g)).map fun i => { lane := i, va := 0, data := b i } }
      (ReadyM s k g Pfx.none [] [d] [g.sDst a.val] [g.vDst d] →
        exec (.tld d a) s = .next (finished ((named s).setGrp k ((pastM g Pfx.none []).addOp (o .tld 3 [g.vDst d] fun _ => []))) g 24)) ∧
      (ReadyM s k g Pfx.none [d] [] [g.vReg d, g.sDst a.val] [] →
        exec (.tst d a) s = .next (finished ((named s).setGrp k ((pastM g Pfx.none [d]).addOp
          (o .tst 4 [] fun i => leBytes 4 (g.src d i).toNat))) g 24 [d]))

/-- R75, R79: a spawn whose entry is legal, released, deposits every active lane; refused, it parks whole at the unit (its
PC and its park argument: DESIGN CHOICE, LE 28) and nothing of it is deposited. -/
def Sys2Proof.Claims.SpawnUnits : Prop :=
  ∀ (s : State) (k : Nat) (g : Group) (w : Workgroup) (d b : VFld) (a : SReg), g.inH = false → Of s g w →
    ReadyM s k g Pfx.none (b :: regs d 4) [] ((b :: regs d 4).map g.vReg ++ [g.sDst a.val]) [] →
    (g.readS a.val).toNat % 4 = 0 → (g.readS a.val).toNat < 2 ^ 52 → Released g → (openOps g).all (fun o => !o.isAgg) = true → g.dirtyMask = 0 →
    let l := (onLanes g.exm).map fun i =>
      (({ ctx := g.ctx, grid := w.grid, entry := g.readS a.val, key := g.src b i } : Bin), (regs d 4).map fun f => g.src f i)
    (∀ t, (s.setGrp k (pastM g Pfx.none (b :: regs d 4))).deposits g.core l = some t →
      exec (.spawn d a b) s = .next (finished t g 25 (b :: regs d 4))) ∧
    ((s.setGrp k (pastM g Pfx.none (b :: regs d 4))).deposits g.core l = none →
      let arg : List DWord := [g.readS a.val, BitVec.ofNat 64 d.val, BitVec.ofNat 64 a.val, BitVec.ofNat 64 b.val]
      exec (.spawn d a b) s = .next (finished (s.setGrp k { g with park := 8, parkTns := s.dev.tns, parkArg := arg }) g 25 (b :: regs d 4)))

/-- R384 to R386: sendh puts one message of each active lane into its core's send queue and raises ST; recvq raises LD; peerq
answers reachability, flow-controlled peers, and the load-store domain in a predicate. -/
def Sys2Proof.Claims.MessageUnits : Prop :=
  ∀ (s : State) (k : Nat) (g : Group), g.inH = false → let m := activeMask Pfx.none g
    (∀ d : VFld, ReadyM s k g Pfx.none (regs d 8) [] ((regs d 8).map g.vReg) [] → g.counter .st ≤ 254 →
      (onLanes m = [] → (s.core g.core).sendq.length ≤ 256 →
        exec (.sendh d) s = .next (finished (s.setGrp k (pastM g Pfx.none (regs d 8))) g 26 (regs d 8))) ∧
      (onLanes m ≠ [] → (s.core g.core).sendq.length + (onLanes m).length ≤ 256 →
       let word (j i : Nat) : Word := g.src (d + Fin.ofNat 128 j) i
       let msg (i : Nat) : Msg :=
        { src := s.fab.dev, dst := (word 0 i).toNat % 4096, ctx := g.ctx, rq := (word 0 i).toNat / 4096 % 16,
          words := (List.range 8).map fun j => word j i }
       let t := s.setCore g.core { s.core g.core with sendq := (s.core g.core).sendq ++ (onLanes m).map fun i =>
        { grp := k, op := s.nextId, lane := i, msg := msg i } }
       exec (.sendh d) s = .next (finished ((named t).setGrp k ((pastM g Pfx.none (regs d 8)).addOp
        { id := s.nextId, unit := s.nextId, pc := g.pc, maj := 26, fn := 0, ctr := .st, kind := .sendh, scope := 3, rel := true,
          accs := (onLanes m).map fun i => { lane := i, va := 0 } })) g 26 (regs d 8)))) ∧
    (∀ (d : VFld) (a : SReg) (p : PReg),
      ReadyM s k g Pfx.none [] (regs d 8) [g.sDst a.val, .p p.val] ((regs d 8).map g.vDst ++ [.p p.val]) → g.counter .ld ≤ 254 →
      exec (.recvq d a p) s = .next (finished ((named s).setGrp k ((pastM g Pfx.none []).addOp
        { id := s.nextId, unit := s.nextId, pc := g.pc, maj := 26, fn := 1, ctr := .ld, kind := .recvq, acq := true, rel := true,
          scope := 3, dst := (regs d 8).map g.vDst ++ [.p p.val],
          arg := [g.readS a.val &&& 15, m, BitVec.ofNat 64 p.val] })) g 26)) ∧
    ∀ (p : PReg) (a : VFld), ReadyM s k g Pfx.none [a] [] [g.vReg a, .p p.val] [.p p.val] →
      let dev (i : Nat) : Nat := (g.src a i).toNat % 4096
      ∀ q : Fin 4, exec (.peerq p a q) s = .next (finished (s.setGrp k ((pastM g Pfx.none [a]).writePBits p.val m fun i =>
        match q.val with
        | 0 => s.reachable (dev i)
        | 1 => (List.range 64).any fun n => (s.egr n).state ≠ 0 && (s.egr n).peer = dev i
        | _ => s.inDomain (dev i))) g 26 [a])

/-- R387, R388, R391: a legal collective takes its context's next number into s[D] and its communicator's next sequence number, and
waits for its hand-off. -/
def Sys2Proof.Claims.CollectiveUnit : Prop :=
  ∀ (s : State) (k : Nat) (g : Group) (d a : SReg), ReadyS s k g (sregs g a 8) [g.sDst d.val] → g.inH = false →
    let l := svals g a 8
    let f (n lo w : Nat) : Nat := bitsOf (regGet l n).toNat lo w
    let c := s.ctx g.ctx
    let j := mapGet c.cseq (f 3 9 6) 0 + 1
    collLegal l = true → (f 3 0 3 ≤ 1 → (f 3 5 4 = 7 ∨ f 3 5 4 = 9) ∧ f 3 27 1 ≠ 1) →
    (mapGet c.ccomm (f 3 9 6) 0).toNat % 2 = 1 → f 3 15 12 < c.nrank (f 3 9 6) →
    let x : Coll := { num := c.kis + 1, ctx := g.ctx, comm := f 3 9 6, grp := k, pc := g.pc, desc := l, opId := s.nextId,
                      wgid := g.wgid, slot := g.slot, cseq := j }
    exec (.coll d a) s = .next (finished ((({ named s with colls := s.colls ++ [x] } : State).setGrp k
      ((past g 1).writeS d.val (BitVec.ofNat 64 (c.kis + 1)))).modCtx g.ctx fun c =>
        { c with kis := c.kis + 1, cseq := mapSet c.cseq (f 3 9 6) j }) g 26)

/-- R78, R80, R396 to R398: launch, and in a context with system privilege preempt, resume, cfgrd and cfgwr, issue: each raises its
counter and waits for its answer; cfgrd empties the L1, and it and cfgwr are ordered as an acquire and a release (LE 53); preempt
and resume mark what they name at issue when their code is 0 (LE 23). -/
def Sys2Proof.Claims.ManagementUnits : Prop :=
  ∀ (s : State) (k : Nat) (g : Group) (d a b : SReg), g.inH = false → let x := g.readS a.val; let y := g.readS b.val
    let o (fn : Nat) (c : Ctr) (kind : OpKind) : Op :=
      { id := s.nextId, unit := s.nextId, pc := g.pc, maj := 27, fn := fn, ctr := c, kind := kind }
    let issued (o : Op) : State := (named s).setGrp k ((past g 1).addOp o)
    (ReadyS s k g [g.sDst a.val] [g.sDst d.val] → x.toNat % 64 = 0 → x.toNat < 2 ^ 52 → g.counter .ld ≤ 254 →
      exec (.launch d a) s = .next (finished (issued
        { o 0 .ld .launch with rel := true, scope := 2, dst := [g.sDst d.val], arg := [x] }) g 27)) ∧
    (s.sysCtx g.ctx = true →
      (ReadyS s k g [g.sDst a.val, g.sDst b.val] [g.sDst d.val] → g.counter .ld ≤ 254 →
        (let c := s.preemptCode g x y false
         let t := issued { o 1 .ld .preempt with dst := [g.sDst d.val], arg := [x, y], result := BitVec.ofNat 64 c }
         exec (.preempt d a b) s = .next (finished (if c = 0 then t.doPreempt x y else t) g 27)) ∧
        (let c := s.preemptCode g x y true
         let t := issued { o 2 .ld .resume with dst := [g.sDst d.val], arg := [x, y], result := BitVec.ofNat 64 c }
         exec (.resume d a b) s = .next (finished (if c = 0 then (t.holdNamed x y false).holdImages x y else t) g 27))) ∧
      (x.toNat % 8 = 0 → x.toNat < 2 ^ 62 →
        (ReadyS s k g [g.sDst a.val] [g.sDst d.val] → g.counter .ld ≤ 254 →
          exec (.cfgrd d a) s = .next (finished (((named s).l1Clear g.core).setGrp k ((past g 1).addOp
            { o 3 .ld .cfgrd with acq := true, dst := [g.sDst d.val], arg := [x] })) g 27)) ∧
        (ReadyS s k g [g.sDst a.val, g.sDst b.val] [] → g.counter .st ≤ 254 →
          exec (.cfgwr a b) s = .next (finished (issued
            { o 4 .st .cfgwr with wr := true, rel := true, scope := 2, arg := [x, y] }) g 27))))

/-- R319, R320: mwait on a word of this device's memory arms a monitor with its comparison, value and deadline at the word's home
slice, or, met already, has status 0 sent; the group is parked past the unit (DESIGN CHOICE, LE 28) until its status comes. -/
def Sys2Proof.Claims.MonitorWait : Prop :=
  ∀ (s : State) (k : Nat) (g : Group) (y : YPre) (d a b : SReg) (da : Nat) (r : List Place) (p : LaneAcc) (ps : List LaneAcc),
    let x : Pfx := { x := none, y := some y }
    ReadyM s k g x [] [] [g.sDst a.val, g.sDst b.val] [g.sDst d.val, .p (y.e.val % 16)] → g.inH = false →
    let va := g.readS a.val
    va.toNat < 0xF000000000000 →
    let deadline := if y.imm.toNat = 0 then 0 else s.dev.tns + 1000 * y.imm.toNat
    let arg : List DWord := [g.readS b.val &&& 0xFFFFFFFF, BitVec.ofNat 64 (y.e.val / 16), BitVec.ofNat 64 (y.e.val % 16),
      BitVec.ofNat 64 deadline, BitVec.ofNat 64 d.val, va]
    let o := mwaitOp g s.nextId va arg
    let h : Group := { (pastM g x []).addOp o with park := 3, parkArg := arg, parkTns := s.dev.tns }
    let t := (named s).setGrp k h
    t.decideOp h o = .ok (p :: ps) → p.places = .da da :: r → (t.wordVia (t.xl h) (regGet arg 5).toNat).1 = false →
    exec (.mwait y d a b) s = .next (doneM ((t.setGrp k (h.finishOp s.nextId)).armMon k h da (t.wordVia (t.xl h) (regGet arg 5).toNat).2
      (regGet arg 1).toNat ((regGet arg 0).setWidth 32) (regGet arg 3).toNat) g x 22 1 [])

/-- R86, R88, R111: the clock's and the sequencer's events: once no hold runs the ruling class falls to the highest candidate's, a
waiting or urgent candidate raises it, and an urgent one has its core leave low-voltage mode (R413); a yield or sleep ends. -/
def Sys2Proof.Claims.SequencerEvents : Prop :=
  ∀ (s : State) (c k : Nat),
    ((s.core c).hold = 0 → exec (.rulingClassHoldEnd c) s = .next (s.modCore c fun v => { v with rc := max 1 (min v.rc
      (s.groups.foldl (fun a kv => if kv.2.core = c && s.mayIssue kv.2 then max a (s.candClass kv.2) else a) 1)) })) ∧
    (exec (.yieldEnd k) s = .next (s.modGrp k fun g => { g with yielding := 0 })) ∧
    ∀ g : Group, s.grp? k = some g →
      (s.mayIssue g = true →
        (let up (t : State) : State := t.modCore g.core fun v =>
           if v.rc < s.candClass g then { v with rc := s.candClass g, hold := v.clsh } else v
         ((s.core g.core).clsw ≤ g.firstN → exec (.classWaitRaise k) s = .next (up s)) ∧
         (16 ≤ g.streak → exec (.urgentCandidate k) s = .next ((up (s.setGrp k { g with urgent := true })).leaveLv g.core)))) ∧
      (g.park = 7 → g.woken = false → g.halted = false →
        (s.residentGrp g = true →
          exec (.sleepWake k) s = .next ((s.atLeast (g.parkTns + (regGet g.parkArg 0).toNat)).setGrp k
            { g with park := 0, parkArg := [] })) ∧
        (s.residentGrp g = false →
          exec (.sleepWake k) s = .next (((s.atLeast (g.parkTns + (regGet g.parkArg 0).toNat)).setGrp k
            { g with woken := true }).pushWoken k)))

namespace Sys2Proof.Claims

/-- The lines of the device-memory places of a transfer. -/
def linesIn (ps : List Place) : List Nat := (ps.filterMap fun p => match p with | .da a => some (a / 128) | _ => none).eraseDups

end Sys2Proof.Claims

/-- R92 to R94: the spill engine of a group outside handler mode writes or reads one position or entry at a time through the
private object, once its lines are free (R306) and the die cache has ways for them (R8); a failure that service cannot cure traps SPF with the address of the first byte and the PC of the unit that caused the transfer, a miss parks the engine. -/
def Sys2Proof.Claims.SpillTransfers : Prop :=
  ∀ (s : State) (k : Nat) (g : Group), s.grp? k = some g → g.spc.act = true → g.inH = false → g.bankWait = none →
    g.halted = false → s.residentGrp g = true → s.spillHeld g = false → (g.spc.stk = 0 → g.pending.contains (.pos g.spc.pos) = false) →
    (∀ ps, s.spillPlaces g (!g.spc.dir) g.spc.pos = .ok ps →
      (ps.all fun p => match p with | .da a => s.storeRoom (a / 128) | _ => true) = true → s.waysFree g.die (linesIn ps) = true →
      (g.spc.dir = false → exec (.spillTransferDone k) s = .next
        (((s.spillEnergy g true ps).storeLane g 0 ps g.spillBytes).setGrp k g.spilled.kick)) ∧
      (g.spc.dir = true → exec (.spillTransferDone k) s = .next ((s.spillEnergy g false ps).setGrp k (g.filled (s.spanRead ps)).kick))) ∧
    (∀ c a i, s.spillPlaces g (!g.spc.dir) g.spc.pos = .fault c a i → CanEnter s g →
      exec (.spillTransferDone k) s = .next (s.setGrp k (entered g s 0x0E
        (BitVec.ofNat 64 (s.privBase g + (spillSpan g.spb g.spc.stk g.spc.pos).1)) g.upc g.spc.bits g.pc))) ∧
    ∀ ob sub va, s.spillPlaces g (!g.spc.dir) g.spc.pos = .hold ob sub va →
      exec (.spillTransferDone k) s = .next (s.setGrp k { g with spc := { g.spc with park := some (ob, sub) } })

/-- R105, R107, R108: a group waiting for its partition's bank enters its handler when the bank is free and it is first in line;
longer than HWDT in handler mode is the context fault TMO; 2 µs after a context fault the context's groups are halted, and once
all are, one type 1 report is posted. -/
def Sys2Proof.Claims.TrapAndFaultEvents : Prop :=
  ∀ (s : State) (k n : Nat),
    (∀ (g : Group) (t : Trap), s.grp? k = some g → g.bankWait = some t → g.halted = false → s.residentGrp g = true →
      s.bankHolder g.core (partOfSlot g.slot) = none → (s.ctx g.ctx).stop = .running → (s.groups.map Prod.fst).Pairwise (· < ·) →
      (∀ kv ∈ s.groups, kv.1 ≠ k → kv.2.core = g.core → partOfSlot kv.2.slot = partOfSlot g.slot → kv.2.bankWait.isSome = true →
        kv.2.halted = false → g.bankOrder < kv.2.bankOrder ∨ (g.bankOrder = kv.2.bankOrder ∧ g.slot < kv.2.slot)) →
      exec (.trapEnter k) s = .next (s.setGrp k (g.enterHandler t s.dev.tns s.nextId))) ∧
    (∀ g : Group, s.grp? k = some g → g.inH = true → g.halted = false →
      exec (.handlerWatchdog k) s = .next ((s.atLeast (g.hTns + (s.core g.core).hwdt * 1000 + 1)).contextFault k g
        { cause := 0x12, pc := g.pc })) ∧
    ∀ (tns slot : Nat) (t : Trap) (w : DWord),
      (∀ b, (s.ctx n).stop = .faulted tns t w slot b → s.ctxHalted n = false →
        exec (.contextHaltDeadline n) s = .next { s.atLeast (tns + 2000) with
          groups := mapAll s.groups fun _ g => if g.ctx = n then { g with halted := true } else g }) ∧
      ((s.ctx n).stop = .faulted tns t w slot false → s.ctxHalted n = true →
        let i : DWord := BitVec.ofNat 64 (t.cause + (if t.deferred then 256 else 0) + slot % 2 ^ 15 * 2 ^ 24)
        exec (.contextFaultReport n) s = .next ((s.modCtx n fun c => { c with stop := .faulted tns t w slot true }).post
          { type := 1, ctx := n, args := [w, i, t.a, t.pc, t.i] }))

/-- R96: a reserved queue entry is filled, the lowest queue's oldest first; with none, a pending value is written to its
registers and is pending no more. -/
def Sys2Proof.Claims.ResultsAreWrittenBack : Prop :=
  ∀ (s : State) (k : Nat) (g : Group), s.grp? k = some g →
    (∀ h, g.fillQ = some h → exec (.resultWriteBack k) s = .next (s.setGrp k h)) ∧
    ∀ o, g.fillQ = none → (g.ops.find? fun o => o.kind = .value && !o.done) = some o →
      exec (.resultWriteBack k) s = .next (s.setGrp k ((o.dst.foldl (fun h d => h.writeSDst d o.result) g).finishOp o.id))

namespace Sys2Proof.Claims

/-- The base word of the unit at a group's PC, behind its prefixes, of which `w` is the failing word. -/
def baseWord (s : State) (g : Group) (w : Word) : Word := match s.fetchGrp g with | .ok ws => ws.getLastD w | _ => w

end Sys2Proof.Claims

/-- R45, R46, R104, R105: a word that is no unit traps ILL with the word in TRAPI, after a recorded fault where the unit's base word is
a fault point's; a fetch that faults traps with its cause; a fetch that
misses parks the group's fetch. -/
def Sys2Proof.Claims.UndecodableAndUnfetchable : Prop :=
  ∀ (s : State) (k : Nat) (g : Group), s.cur = .grp k → s.grp? k = some g → s.mayIssue g = true →
    (CanEnter s g → ∀ w : Word, faultWord (baseWord s g w) = false ∨ g.takable = [] →
      exec (.illegalWord w) s = .next (s.setGrp k (entered g s 0x01 0 g.pc (w.setWidth 64) g.pc))) ∧
    (∀ (w : Word) (f : PFault) (r : List PFault), faultWord (baseWord s g w) = true → g.takable = f :: r → g.lowerDone f = true → s.dieWaits g = false →
      exec (.illegalWord w) s = .next (s.takeFault k g f)) ∧
    (∀ c a i, s.fetchGrp g = .fault c a i → CanEnter s g → c < 256 → c ≠ 3 →
      exec .fetchFault s = .next (s.setGrp k (entered g s c a g.pc i g.pc))) ∧
    (∀ ob sub va, s.fetchGrp g = .miss ob sub va →
      exec .fetchFault s = .next ((s.openService g.ctx ob sub 2 false g.core va).setGrp k { g with iparked := some (ob, sub) })) ∧
    ∀ ob sub va, s.fetchGrp g = .hold ob sub va →
      exec .fetchFault s = .next (s.setGrp k { g with iparked := some (ob, sub) })

namespace Sys2Proof.Claims

/-- The machine once die `d`'s request for a line has started with its snoops, each sent to its die (R308). -/
def asked (s : State) (d line : Nat) (wait : LineSt) (kind : Nat) (snoops : List Snoop) : State :=
  let t := (s.setLine d line wait).modHome fun h => { h with busy := mapSet h.busy line { kind := kind, die := d, snoops := snoops } }
  ((snoops.foldl (fun t n => t.toDie n.die line 2 false (.snoop n.die line)) t).lineStep line).grantOut t line

/-- The dies of a mask but `d`, each to be snooped. -/
def snoopsTo (s : State) (l : List Nat) (kind : Nat) : List Snoop := l.map fun e => { die := e, kind := kind, sent := s.dev.tns }

end Sys2Proof.Claims

/-- R306, R308: a die that does not hold a line asks for it in S or in M: the directory says whom to snoop, each snoop leaves for
its die, and the request is in progress. Stated where directory and die cache have room without an eviction. -/
def Sys2Proof.Claims.CoherenceRequests : Prop :=
  ∀ (s : State) (d line : Nat), d < 16 → (s.die d).dead = false → s.lineFree line = true → s.isMem (line * 128) = true →
    s.home.dir.length + s.home.busy.length < 16 → (s.die d).lines.length < 16 →
    (s.lineOf d line = .I →
      (s.dirOf line = .U ∨ (∃ m, s.dirOf line = .S m) → exec (.homeGets d line) s = .next (asked s d line .IS 0 [])) ∧
      (∀ o, s.dirOf line = .X o → o ≠ d → exec (.homeGets d line) s = .next (asked s d line .IS 0 (snoopsTo s [o] 1)))) ∧
    (s.lineOf d line = .I ∨ s.lineOf d line = .S ∨ s.lineOf d line = .SWT →
      let w : LineSt := if s.lineOf d line = .I then .IM else .SM
      (s.dirOf line = .U → exec (.homeGetm d line) s = .next (asked s d line w 1 [])) ∧
      (∀ m, s.dirOf line = .S m → exec (.homeGetm d line) s = .next (asked s d line w 1
        (snoopsTo s ((diesOf m).filter (· ≠ d)) 0))) ∧
      (∀ o, s.dirOf line = .X o → o ≠ d → exec (.homeGetm d line) s = .next (asked s d line w 1 (snoopsTo s [o] 2))))

/-- R307, R309 to R311: the other messages of the coherence protocol: write-backs sent and received, acknowledgments, snoops and what
each die answers, answers taken, with the data that they bring to the home (R311), snoops sent again after 10 µs, and grants. The identifier under which the filter
holds a write-back is the model's (DESIGN CHOICE, LE 20). -/
def Sys2Proof.Claims.CoherenceMessages : Prop :=
  ∀ (s : State) (d line : Nat),
    (∀ e ∈ [((Instr.homePutm), true, LineSt.M), (.homePute, false, .E)],
      (s.putOf d line e.2.1 = none → s.lineOf d line = e.2.2 → s.dirOf line = .X d → s.putRoom d line = true →
        exec (e.1 d line) s = .next ((((named s).setDie d { s.die d with
            lines := mapMod (s.die d).lines line fun l => { l with st := .WP, put := s.nextId } }).modHome fun h =>
          { h with puts := h.puts ++ [{ die := d, line := line, dirty := e.2.1, seq := s.nextId }] }).toHome d line 0 e.2.1 (.put d line))) ∧
      ∀ p, s.putOf d line e.2.1 = some p → s.onWay (.put d line) = false → s.filterRoom (s.sliceOf (line * 128)) = true →
        exec (e.1 d line) s = .next ((((s.landPut p).lineStep line).grantOut s line).toDie d line 1 false (.putAck d line))) ∧
    (s.lineOf d line = .WP → (s.home.puts.any fun p => p.die = d && p.line = line) = false → s.onWay (.putAck d line) = false →
      exec (.putAck d line) s = .next ((s.setLine d line .I).filterDrop [putRid d (mapGet (s.die d).lines line {}).put])) ∧
    (s.onWay (.snoop d line) = false →
      (s.openSnoop d line 0 = true → let t := s.arriveSnoop d line false
        (s.lineOf d line = .S ∨ s.lineOf d line = .SWT →
          exec (.snoopInv d line) s = .next ((t.setLine d line .I).toHome d line 2 false (.answer d line))) ∧
        (s.lineOf d line = .SM → exec (.snoopInv d line) s = .next ((t.setLine d line .IM).toHome d line 2 false (.answer d line)))) ∧
      ∀ e ∈ [((Instr.snoopRecToS), 1, LineSt.S), (.snoopRecToI, 2, .I)], s.openSnoop d line e.2.1 = true →
        (s.lineOf d line = .E →
          exec (e.1 d line) s = .next (((s.arriveSnoop d line false).setLine d line e.2.2).toHome d line 2 false (.answer d line))) ∧
        (s.lineOf d line = .M → exec (e.1 d line) s = .next (((s.arriveSnoop d line false true).setLine d
          line e.2.2).toHome d line 1 true (.answer d line))) ∧
        (s.lineOf d line = .WP → exec (e.1 d line) s = .next ((s.arriveSnoop d line true).toHome d line 2 false (.answer d line)))) ∧
    (s.onWay (.answer d line) = false →
      let t := if (mapGet? s.home.busy line).any fun q =>
          q.kind ≠ 1 && q.snoops.any fun n => n.die = d && n.arrived && n.data && !n.answered
        then s.flushLine line else s
      exec (.snoopAnswer d line) s = .next (((t.modReq line fun q => { q with snoops := q.snoops.map fun n =>
        if n.die = d && n.arrived && !n.gone then { n with answered := true } else n }).lineStep line).grantOut s line)) ∧
    (∀ q n, mapGet? s.home.busy line = some q → (q.snoops.find? fun n => n.die = d && !n.answered) = some n →
      let t := s.atLeast (n.sent + 10000)
      exec (.snoopResend d line) s = .next (((t.modReq line fun q => { q with snoops := q.snoops.map fun m =>
        if m.die = d && !m.answered then { m with sent := t.dev.tns } else m }).toDie d line 2 false (.snoop d line)).count 3)) ∧
    ∀ q st, mapGet? s.home.busy line = some q → q.grant = some st → q.die = d → s.onWay (.grant d line) = false →
      exec (.grantArrive d line) s = .next ((s.takeLine d line st false).modHome fun h => { h with busy := mapDel h.busy line })

/-- R308, R318: a write or an atomic that reaches its home slice for the first time is applied there once and recorded in the
slice's filter; the same request again, or a replay of it, changes nothing. -/
def Sys2Proof.Claims.ReplayFilter : Prop :=
  ∀ (s : State) (r : ReqId) (da : Nat) (data : List Byte), data ≠ [] → s.isMem (da + data.length - 1) = true →
    (s.filterGet (s.sliceOf da) r = none → ((spanLines da data.length).all fun l => s.writeRoom l) = true →
      let t := (s.homeWrite none da data).filterAdd da r 0
      exec (.homeWritePerform r da data) s = .next t ∧ exec (.replayRequest r (.write da data)) s = .next t) ∧
    (∀ w, s.filterGet (s.sliceOf da) r = some w →
      exec (.homeWritePerform r da data) s = .next s ∧ exec (.replayRequest r (.write da data)) s = .next s)

/-- R316, R317, R319 to R321: an atomic's lane on a word of this device is performed at its home slice once, the old word kept
for its return; a monitor's deadline sends status 0 or 1 and frees it; a status unparks its group with p[P], s[D] and an
acquire. -/
def Sys2Proof.Claims.HomeAtomicsAndMonitors : Prop :=
  ∀ (s : State) (k : Nat),
    (∀ (g : Group) (o : Op) (a : LaneAcc) (da n : Nat) (r : List Place), s.grp? k = some g → g.op? o.id = some o →
      (o.accs.find? fun b => b.lane = a.lane) = some a → a.places = .da da :: r → (o.kind = .atom n ∨ ∃ j, o.kind = .red j ∧ n = if j ≤ 8 then j else j + 2) →
      a.settled = false → (o.accs.any fun b => b.lane < a.lane && !b.settled && b.places.head? = some (.da da)) = false →
      g.mayPerform o = true → s.writeRoom (da / 128) = true → s.linesRouted g.die [da / 128] = true → g.mustFlush o = false →
      let p := s.homeAtomic (laneRid g o a.lane) da n (BitVec.ofNat 32 (leNat (a.data.take 4))) (BitVec.ofNat 32 (leNat (a.data.drop 4)))
      exec (.atomicPerform k o.id a.lane) s = .next (((p.2.energy g.ctx 110000).l1Drop g.core (da / 128)).modGrp k fun h =>
        h.modOp o.id fun q => { q with accs := q.accs.map fun b =>
          if b.lane = a.lane then { b with done := true, resp := some (leBytes 4 p.1.toNat) } else b })) ∧
    (∀ m, (s.home.mons.find? fun m => m.grp = k && m.deadline ≠ 0) = some m →
      let st := if cmpMet m.cmp (BitVec.ofNat 32 (s.rdNat m.da 4)) m.val then 0 else 1
      exec (.monitorTimeout k) s = .next ((s.atLeast m.deadline).modHome fun h =>
        { h with mons := h.mons.filter fun x => x.order ≠ m.order, msgs := h.msgs ++ [{ grp := k, status := st }] })) ∧
    ∀ (m : MonMsg) (g : Group), k < 2 ^ 60 → (s.home.msgs.find? fun m => m.grp = k) = some m → s.grp? k = some g → g.park = 3 →
      s.residentGrp g = true → (s.ctx g.ctx).stopped = false →
      let t := s.modHome fun h => { h with msgs := h.msgs.eraseIdx (s.home.msgs.findIdx fun m => m.grp = k) }
      let h := (g.writeP ((regGet g.parkArg 2).toNat % 16) (if m.status = 0 then allOnes else 0)).writeS
        ((regGet g.parkArg 4).toNat % 64) (BitVec.ofNat 64 m.status)
      exec (.monitorStatusDeliver k) s = .next ((t.l1Clear g.core).setGrp k
        { h with park := 0, parkArg := [], monStatus := none, woken := false })

/-- R337, R341, R343, R344, R346: the Cumulus events: a buffer whose age ends leaves; a home packet, first of its buffer, whose lines can be
reached (R354), is applied whole and its buffer's dirty bit follows; the oldest rejection is logged at the home, counted in LOST when its log is full or has
no room given (LE 21); a bound egress slot whose peer is reachable again enters STATE 2, then sends its records in order, and is free when empty. -/
def Obligations.CumulusEvents : Prop :=
  ∀ (s : State) (d b : Nat),
    (∀ v, mapGet? (s.die d).bufs b = some v → v.ents ≠ [] →
      exec (.cumulusAgeExpire d b) s = .next ((s.atLeast (v.start + (s.die d).aget)).cuLeave d b)) ∧
    (∀ (p : CuPkt) (bad : List (Nat × Nat × Nat)), (s.cuPkts.find? fun q => q.id = p.id) = some p → p.bit < 32 →
      (s.cuPkts.find? fun q => q.src = p.src && q.bit = p.bit) = some p → (p.ents.all fun e => s.writeRoom (e.word / 128) && s.linesRouted p.src [e.word / 128]) = true →
      exec (.cumulusPacketApply p.id bad) s = .next (((({ s with cuPkts := s.cuPkts.filter fun q => q.id ≠ p.id } : State)).cuApplyAll p
        ((bad.filter fun b => b.2.1 = 5).map fun b => (b.1, 5, 0))).syncDirty p.src)) ∧
    (∀ r rest, s.cuRejs = r :: rest → let c := s.ctx r.ent.ctx; let log := bitsOf c.aflb.toNat 48 5
      (log < 4 ∨ 2 ^ log ≤ (c.aflt - c.aflh).toNat →
        exec .cumulusRejectLog s = .next (((({ s with cuRejs := rest } : State)).modCtx r.ent.ctx fun c =>
          { c with afll := c.afll + 1 }).syncDirty r.src)) ∧
      (4 ≤ log → (c.aflt - c.aflh).toNat < 2 ^ log → r.ent.grps ≠ [] →
        let a := c.aflb.toNat % 2 ^ 48 + 64 * (c.aflt.toNat % 2 ^ log)
        exec .cumulusRejectLog s = .next (((((({ s with cuRejs := rest } : State)).homeWrite none a
          (r.bytes c.aflt.toNat s.dev.tns)).modCtx r.ent.ctx fun c => { c with aflt := c.aflt + 1 }).pendAgg r).syncDirty r.src))) ∧
    let v := s.egr d
    (v.state ≠ 0 → s.disconnected v.peer = false → v.state ≠ 2 → exec (.egressDeliver d) s = .next s.reconnect) ∧
    (v.state = 2 → s.disconnected v.peer = false →
      (v.recs = [] → exec (.egressDeliver d) s = .next (s.setEgr d { v with state := 0, peer := 0, full := false })) ∧
      ∀ e, v.recs = [e] → exec (.egressDeliver d) s = .next ((s.setEgr d
        { v with state := 0, peer := 0, full := false, head := v.head + 1, recs := [] }).cuSend (48 + v.peer % 2) 96 v.peer [e]))

/-- R350 to R354, R356 to R363: the router's events: routing table writes, the narrower mode of a write and an automatic change in one
cycle, failed strands (a sentinel that takes over is not gated), flits accepted, failing (which strand has the fault is a free value:
DESIGN CHOICE, LE 5), acknowledged over the reverse way, and forwarded by a relay that holds a credit, gating, heartbeats every µs. -/
def Sys2Proof.Claims.RouterEvents : Prop :=
  ∀ (s : State) (c t : Nat), let v := s.pair c t
    (∀ (m : Fin 4) (r : Nat) (auto : Bool), c < 50 → t < 50 → t ≠ c → r < 50 → r ≠ c → r ≠ t →
      exec (.rrtWrite c t (BitVec.ofNat 64 (m.val + r * 4 + if auto then 256 else 0))) s =
        .next (s.setPair c t ({ v with mode := if v.auto5 = some s.dev.now5 then narrower v.mode m.val else m.val, rly := r, auto := auto,
                                        wrote5 := if v.auto then some s.dev.now5 else none } : Pair).narrow).pumpAll) ∧
    (∀ n < 12, c < 50 → t < 50 → c ≠ t → bitOf v.fail n = false → let v1 := v.without n s.dev.now5
      v1.fail = v.fail + 2 ^ n ∧ (v1.good ≠ 0 → bitOf v1.gated v1.sentinel = false) ∧
      (v1.good &&& (if n < 6 then 0x3F else 0xFC0) ≠ 0 → let s1 := (s.setPair c t v1).logged 1 [c, t, n]
        exec (.strandFail c t n) s = .next (if n = 0 then s1.logged 2 [c, t] else s1).pumpAll)) ∧
    (v.unseen = [] → ∀ q ok, exec (.flitReceive c t q ok) s = .next s) ∧
    (∀ f r, v.unseen = f :: r → let p := f.pkt
      (∀ q, let n := (Config.freeWord s.fresh).toNat % 16
        let bad := (v.bad ++ [(n, s.dev.tns)]).filter fun b => s.dev.tns < b.2 + 1000000
        let u := ({ s with fresh := s.fresh + 1 } : State).setPair c t { v with crce := min (2 ^ 32 - 1) (v.crce + 1), bad := bad }
        exec (.flitReceive c t q false) s = .next
          (if bitOf f.strands n ∧ bitOf v.fail n = false ∧ 16 ≤ (bad.filter fun b => b.1 = n).length then u.loseStrand c t n else u)) ∧
      (p.dst = t → exec (.flitReceive c t f.seq true) s =
        .next ((s.setPair c t { v with expect := (v.expect + 1) % 4096 }).delivered p).pumpAll) ∧
      (p.dst ≠ t → (s.pair t p.dst).good ≠ 0 → (s.chip p.dst).dead = false →
        (s.relayTakes t p = true → exec (.flitReceive c t f.seq true) s =
          .next (s.setPair c t { v with expect := (v.expect + 1) % 4096, atRelay := v.atRelay ++ [p] })) ∧
        (s.relayTakes t p = false → exec (.flitReceive c t f.seq true) s = .next s))) ∧
    (∀ q i, (v.retry.findIdx? fun f => f.seq = q) = some i → (v.unseen.any fun f => f.seq = q) = false →
      (s.pair t c).good ≠ 0 ∨ (s.relayOf t c).isSome = true →
      exec (.flitAck c t q) s = .next (s.setPair c t { v with retry := v.retry.drop (i + 1) }).pumpAll) ∧
    (∀ k p, let w := s.pair c k
      (w.atRelay.find? fun p => p.dst = t && p.vc = s.nextFwd k t) = some p → (s.chip k).dead = false → (s.pair k t).good ≠ 0 → (s.pair k t).retry.length < 256 →
      let u := s.setPair c k { w with atRelay := w.atRelay.erase p }
      exec (.relayForward k c t) s = .next ((if p.vc = 2 then u else u.setPair k t { u.pair k t with turn2 := 1 - p.vc }).putFlit k t
        (p.vc + 3) 0xFFF p).pumpAll) ∧
    (let others := v.good &&& (0xFFF ^^^ 2 ^ v.sentinel)
     (s.chip c).gen = true → v.waking = none → s.wakeDue c t = false → v.gated ≠ others → c ≠ t → c < 50 → t < 50 →
      exec (.strandGate c t) s = .next ((s.atLeast (v.idle + (s.chip c).idle)).setPair c t { v with gated := others })) ∧
    (∀ b, v.waking = some b →
      exec (.strandWakeDone c t) s = .next ((s.atLeast (b + 1200)).setPair c t { v with gated := 0, waking := none })) ∧
    (c < 50 → exec (.strandGatingDisable c) s = .next ((s.setChip c { s.chip c with gen := false }).wakeAll c)) ∧
    (c < 50 → (s.chip c).dead = false → let u := s.atLeast ((s.chip c).hbTns + 1000)
      exec (.heartbeatSend c) s = .next
      (((List.range 50).filter fun x => x ≠ c && !(s.chip x).dead).foldl
        (fun u x => u.sendPkt { src := c, dst := x, vc := 2, msg := .heartbeat (s.chip c).hbSeq })
        (u.setChip c { s.chip c with hbSeq := ((s.chip c).hbSeq + 1) % 1024, hbTns := u.dev.tns }))) ∧
    (c < 50 → t < 50 → t ≠ c → (s.chip c).dead = false → (s.chip t).dead = false → (s.chip c).reported = false →
      let u := s.atLeast (mapGet (s.chip t).seen c 0 + 64000)
      exec (.heartbeatMiss t c) s = .next (u.setChip c { u.chip c with reported := true }))

/-- R24, R26, R27, R305, R362: the verdict, at the first report of a silent chiplet, marks it dead, with its time, and it has the
consequence of its kind; a dead or unreported chiplet gets none; 2 µs later the groups of a context that traps DIE are halted, but for the one in the handler; then one
type 2 report names the dies. -/
def Sys2Proof.Claims.DeadChiplets : Prop :=
  ∀ (s : State) (c n : Nat),
    ((s.chip c).dead = true ∨ (s.chip c).reported = false → exec (.deadDieVerdict c) s = .next s) ∧
    (c < 50 → (s.chip c).dead = false → (s.chip c).reported = true → exec (.deadDieVerdict c) s = .next (s.verdict c) ∧
      (16 ≤ c → c < 48 → s.dev.memOpen = false → (∀ m ∈ s.home.lost, m / 16 ≠ (c - 16) / 16) →
        (s.verdict c).home.lost = s.home.lost ++ [c - 16])) ∧
    (∀ tns ds e p, (s.ctx n).stop = .die tns ds e p →
      (s.groups.all fun kv => kv.2.ctx ≠ n || kv.2.halted || kv.2.inDie) = false →
      exec (.dieHaltDeadline n) s = .next { s.atLeast (tns + 2000) with
        groups := mapAll s.groups fun _ g => if g.ctx = n && !g.inDie then { g with halted := true } else g }) ∧
    ∀ tns ds e, (s.ctx n).stop = .die tns ds e false →
      (s.groups.all fun kv => kv.2.ctx ≠ n || kv.2.halted || kv.2.inDie) = true →
      exec (.dieReportPost n) s = .next ((s.modCtx n fun c => { c with stop := .die tns ds e true }).post
        { type := 2, ctx := n, chip := ds.headD 0, args := [BitVec.ofNat 64 (ds.getD 1 0x3F)] })

/-- R402, R409, R410: a reset leaves the reset state with the flash, the device's number and domain and the model's own counters
kept (memory zero after a cold one); the boot steps, slot A tried before B and no image of a version below the rollback count
booted; the standby Stratus goes on with a type 11 report once PD0 is lost, or 10 ms after its Stratus halted. -/
def Obligations.ResetAndBoot : Prop :=
  ∀ (s : State) (ok : Bool) (i : Nat),
    (exec .coldReset s = .next (s.resetTo true) ∧ exec .deviceReset s = .next (s.resetTo false)) ∧
    ((s.resetTo true).mem = [] ∧ (s.resetTo false).mem = s.mem ∧ ∀ c, (s.resetTo c).groups = [] ∧ (s.resetTo c).ctxs = [] ∧
      (s.resetTo c).wgs = [] ∧ (s.resetTo c).fab = { dev := s.fab.dev, domain := s.fab.domain }) ∧
    (s.dev.bootReady = false → s.dev.bootCode = 0 → s.dev.reset = false →
      (s.dev.bootStep = 1 → exec (.bootStepDone false i) s = .next (s.modDev fun d => { d with bootCode := 1, reset := true })) ∧
      (s.dev.bootStep = 2 → exec (.bootStepDone ok i) s = .next (s.modDev fun d => { d with bootStep := 3 })) ∧
      (s.dev.bootStep = 3 →
        (s.str.rollback ≤ i % 2 ^ 32 →
          exec (.bootStepDone true i) s = .next (s.modDev fun d => { d with fwver := BitVec.ofNat 32 i, bootStep := 4 })) ∧
        ∀ b, b = false ∨ i % 2 ^ 32 < s.str.rollback → exec (.bootStepDone b i) s = .next (s.modDev fun d =>
          if d.bootSlot = 0 then { d with bootSlot := 1 } else { d with bootCode := 2 })) ∧
      (s.dev.bootStep = 4 → exec (.bootStepDone ok i) s = .next (s.startFirmware.bootTo 5)) ∧
      (s.dev.bootStep = 5 → let u : State := { s with chips := mapAll s.chips fun _ c =>
          { c with seen := (List.range 50).map fun i => (i, s.dev.tns) } }
        exec (.bootStepDone true i) s = .next (({ u with pairs := u.trained } : State).bootTo 6)) ∧
      (s.dev.bootStep = 6 → ∃ t, exec (.bootStepDone true i) s = .next t ∧ t.mem = [] ∧ t.home.dirty = [] ∧ t.home.dir = [] ∧
        t.dev.bootStep = 7 ∧ t.dev.memOpen = decide (i % 2 = 1)) ∧
      (s.dev.bootStep = 8 → exec (.bootStepDone ok i) s = .next (s.modDev fun d => { d with bootReady := true }))) ∧
    (s.str.standby = true → s.str.active = 48 → (s.die 49).dead = false →
      let goOn (u : State) : State :=
        (({ u with sgrp := stratusReset, str := { u.str with active := 49, standby := false, halted := false, sleepTo := 0 } } : State).modDev
          fun d => { d with ownBeat := d.tns }).post { type := 11, chip := 49 }
      ((s.die 48).dead = true → exec .stratusTakeover s = .next (goOn s)) ∧
      ((s.die 48).dead = false → s.str.halted = true → exec .stratusTakeover s = .next (goOn (s.atLeast (s.str.haltTns + 10000000)))) ∧
      ((s.die 48).dead = false → s.str.halted = false → exec .stratusTakeover s = .next s))

/-- R401, R409: a write of CTXCFG that enables a context that is not resident creates it, its counts zero; disabling one removes its
groups, workgroups and grids and stops its use. -/
def Sys2Proof.Claims.ContextLifetime : Prop :=
  ∀ (s : State) (n : Nat), n < 64 →
    (∀ v : DWord, v.getLsbD 0 = true → (s.ctx n).en = false → ctxCfgOk v = true →
      exec (.contextEnable n v) s = .next (s.setCtx n ((s.ctx n).create v))) ∧
    ((s.ctx n).en = true → exec (.contextDisable n) s = .next (s.disableCtx n)) ∧
    ((∀ f < 4, (s.host f).heldWin = []) →
      (∀ kv ∈ (s.disableCtx n).groups, kv.2.ctx ≠ n) ∧ (∀ kv ∈ (s.disableCtx n).wgs, kv.2.ctx ≠ n) ∧
      (s.disableCtx n).mem = s.mem ∧ ((s.disableCtx n).ctx n).en = false)

/-- R223, R226, R227: a walk reads the directory, the record and the entry into the caches (an entry that is absent is not kept: DEDUCED,
LE 9), their use the cache's latest; the
oldest unposted service record goes into its context's queue with one type 3 report, and waits while the queue
has no room or none given (DESIGN CHOICE, LE 21); OSVC ends a service, counts one that is not
open, and lets the accesses that wait on it go on. -/
def Sys2Proof.Claims.ResidencyServices : Prop :=
  ∀ (s : State) (n obj sub : Nat),
    (∀ u va, (s.trc u).walks.contains (n, va) = false → exec (.walkComplete u n va) s = .next s) ∧
    (∀ u va w o, (s.trc u).walks.contains (n, va) = true → s.look { u := u, ctx := n, sys := true } va = .bad w o →
      exec (.walkComplete u n va) s = .next (s.modTr u fun t => { t with walks := t.walks.erase (n, va), uses := t.uses + 1 })) ∧
    (∀ u va ob r, let x : Xl := { u := u, ctx := n, sys := true }
      (s.trc u).walks.contains (n, va) = true → s.look x va = .ok ob r → r.kind ≠ 2 → va - r.base < r.sz →
      let k := r.byteOff (va - r.base) / 2 ^ r.stlog
      let e1 := s.dir1 x va
      let dirs := capSet (capSet (mapGet s.gdir (s.walkDie u) []) 4096 (dirKey1 n va) (BitVec.ofNat 64 e1)) 4096 (dirKey2 n va)
        (BitVec.ofNat 64 (s.dir2 x va e1))
      let t : State := ({ s.modTr u fun t => { t with walks := t.walks.erase (n, va), uses := t.uses + 1 } with
        gdir := mapSet s.gdir (s.walkDie u) dirs } : State).modTr u fun t =>
          { t with recs := lruSet RecLine.used t.recs 256 (recKey n ob) { words := s.recWords x ob, used := t.uses } }
      exec (.walkComplete u n va) s = .next (if bitOf (s.entry x ob r k) 0 then
        t.modTr u fun t =>
          { t with ents := lruSet EntLine.used t.ents 2048 (entKey n ob k) { word := BitVec.ofNat 64 (s.entry x ob r k), used := t.uses } }
        else t)) ∧
    (∀ v, let c := s.ctx n
      (c.services.find? fun v => !v.posted) = some v →
      (c.sqlog < 4 ∨ 2 ^ c.sqlog ≤ (c.sqTail - c.sqHead).toNat → exec (.serviceRecordPost n) s = .next s) ∧
      (4 ≤ c.sqlog → (c.sqTail - c.sqHead).toNat < 2 ^ c.sqlog →
        let a := c.otsq.toNat % 2 ^ 48 + 32 * (c.sqTail.toNat % 2 ^ c.sqlog)
        let t := (s.homeWrite none a (v.bytes n c.sqTail.toNat s.dev.tns)).modCtx n fun c =>
          { c with sqTail := c.sqTail + 1,
                   services := c.services.map fun w => if w.obj = v.obj && w.sub = v.sub then { w with posted := true } else w }
        exec (.serviceRecordPost n) s = .next (t.post { type := 3, ctx := n, args := [(c.sqTail + 1).setWidth 64] }))) ∧
    (s.serviceOpen n obj sub = false →
      exec (.osvcServiceDone n obj sub) s = .next (s.count 2) ∧ exec (.osvcServiceFail n obj sub) s = .next (s.count 2)) ∧
    (s.serviceOpen n obj sub = true →
      exec (.osvcServiceDone n obj sub) s =
        .next (((((s.dropService n obj sub).wakeParties n obj sub).wakeOps n obj sub 1).wakeFetch n obj sub).winAgain) ∧
      exec (.osvcServiceFail n obj sub) s =
        .next (((((s.dropService n obj sub).wakeOps n obj sub 2).failGroups n obj sub).failParties n obj sub).winAgain))

/-- R224, R225, R229: a publish of each kind while none is under way is taken with its operands in OPUB1; a second one is counted and
discarded; once its drains are over the Cumulus units flush the context's entries, and then it is done, and what waits in its
context is translated again. -/
def Sys2Proof.Claims.Publishes : Prop :=
  ∀ (s : State) (n obj first count : Nat),
    (s.dev.opState = 1 → ∀ i ∈ [Instr.publishRecord n obj, .publishMove n obj first, .publishRelease n obj first,
      .publishEntries n obj first count, .publishGranules n first count], exec i s = .next (s.count 2)) ∧
    (s.dev.opState ≠ 1 → n < 64 → obj < 2 ^ 24 → first < 2 ^ 32 → count < 2 ^ 32 →
      let pubd (op ob f c : Nat) : State := (s.modDev fun d =>
        { d with opub1 := BitVec.ofNat 64 (f + c * 2 ^ 32), opub0 := BitVec.ofNat 64 (ob + n * 2 ^ 24 + op * 2 ^ 30) }).publish
          { op := op, ctx := n, obj := ob, first := f, count := c, since := s.nextId }
      exec (.publishRecord n obj) s = .next (pubd 0 obj 0 0) ∧ exec (.publishMove n obj first) s = .next (pubd 1 obj first 1) ∧
      exec (.publishRelease n obj first) s = .next (pubd 2 obj first 1) ∧
      exec (.publishEntries n obj first count) s = .next (pubd 3 obj first count) ∧
      exec (.publishGranules n first count) s = .next (pubd 4 0 first count)) ∧
    ∀ p, s.dev.pub = some p → s.pubDrained p = true →
      (s.holdsCtx p.ctx = true → exec .publishDone s = .next (s.flushCtx p.ctx)) ∧
      (s.holdsCtx p.ctx = false → exec .publishDone s = .next (({ s.modDev fun d => { d with opState := 2, opCode := 0, pub := none } with
        groups := mapAll s.groups fun _ g => if g.ctx = p.ctx then
          { g with ops := g.ops.map (fun o => if o.wait ≠ .flight ∧ o.again = 0 then { o with again := 1 } else o),
                   iparked := none, spc := { g.spc with park := none } } else g,
        svcWaits := s.svcWaits.filter fun w => w.ctx ≠ p.ctx } : State).winAgain))

/-- R404 to R407, R409: claims, elections, heartbeats and their loss, links, resets of functions (the link of one that is reset
stays up, R401; LE 48), attestation, and the vector that
is pending until 10 µs after the last. -/
def Sys2Proof.Claims.HostEvents : Prop :=
  ∀ (s : State) (f : Nat),
    (∀ p < 8, f < 4 → (s.host f).up = true → s.dev.ownHeld = false → s.dev.claims = [] →
      ∃ t, exec (.ownClaim f p) s = .next t ∧ t.dev.ownHeld = true ∧ t.dev.ownFn = f ∧ t.dev.ownEpoch = s.dev.ownEpoch + 1 ∧
        t.dev.claims = []) ∧
    (∀ p < 8, f < 4 → (s.host f).up = true → s.dev.ownHeld = true → (s.dev.claims.any fun c => c.f = f) = false →
      exec (.ownClaim f p) s = .next (s.modDev fun d =>
        { d with claims := d.claims ++ [{ f := f, prio := p, order := d.claimSeq }], claimSeq := d.claimSeq + 1 })) ∧
    (s.owns f = true →
      (exec (.ownHeartbeat f) s = .next (s.modDev fun d => { d with ownBeat := d.tns })) ∧
      (s.dev.claims = [] → exec (.ownRelease f) s = .next ((s.modDev fun d => { d with ownHeld := false }).post
        { type := 10, args := [4, s.dev.ownEpoch.setWidth 64] }))) ∧
    (s.owns f = false → exec (.ownHeartbeat f) s = .next s ∧ exec (.ownRelease f) s = .next s) ∧
    (s.dev.ownHeld = true → exec .ownerTimeout s = .next ((s.atLeast (s.dev.ownBeat + 300000000)).loseOwner)) ∧
    (f < 4 → (s.host f).up = true →
      exec (.functionReset f) s = .next (s.detach f true) ∧ ((s.detach f true).host f).up = true ∧
      (if (s.host f).attstat = 1 ∨ (s.host f).attstat = 3 then
        exec (.attestationRequest f) s = .next (s.setHost f { s.host f with attstat := 3 })
       else exec (.attestationRequest f) s = .next (s.setHost f { s.host f with attcmd := 1, attstat := 1 }))) ∧
    (f < 4 → (s.host f).attstat = 1 ∨ (s.host f).attstat = 3 → ∃ r, exec (.attestationDone f) s = .next (s.setHost f
      { s.host f with attstat := 2, attcmd := 0, attrsp := r }) ∧ r.length = 28 + (s.host f).attn.length) ∧
    (∀ pd < 2, (exec (.pcieLinkDown pd) s = .next (s.linkDown pd)) ∧
      ∀ gen, 1 ≤ gen → gen ≤ 7 → (s.die (48 + pd)).dead = false →
        exec (.pcieLinkUp pd gen) s = .next ((if Config.linkSplit pd then [2 * pd, 2 * pd + 1] else [2 * pd]).foldl
          (fun t f => t.setHost f { t.host f with up := true, gen := gen }) s)) ∧
    ((s.host f).vecPending = true → let u := s.atLeast ((s.host f).vecTns + 10000)
      exec (.reportVectorTimer f) s = .next (u.setHost f
        { s.host f with vecPending := false, vectors := (s.host f).vectors + 1, vecTns := u.dev.tns }))

/-- R60, R61, R78: a queue's next record is taken: a bad one halts the queue with its code, a residency miss waits on a service (whose
record names SRC 0 and UNIT 48: DESIGN CHOICE, LE 22), a good one enters its grid and HEAD passes it; a grid with nothing left is complete and raises its timeline. -/
def Sys2Proof.Claims.LaunchEvents : Prop :=
  ∀ (s : State) (q n : Nat),
    (s.queueReady (s.queue q) = true → let v := s.queue q; let t := (s.release (.queue q)).setQueue q { v with head := v.head + 1 }
      (s.headRecord q = .bad → exec (.launchRecordTake q) s = .next (t.haltQueue q 8 (some v.head))) ∧
      (∀ ob sub a, s.waits (.queue q) = false → s.span { u := 304, ctx := v.ctx, sys := s.sysCtx v.ctx } 1 false
          (v.base.toNat % 2 ^ 52 + 256 * (v.head.toNat % 2 ^ v.logn)) 256 = .miss ob sub a →
        exec (.launchRecordTake q) s = .next (s.parkOn (.queue q) v.ctx ob sub 0 false 48 a)) ∧
      ∀ raw, s.headRecord q = .raw raw → let r := parseLaunch raw; let c := s.launchCode v.ctx (r.ctx = v.ctx) raw r false
        (c = 0 → exec (.launchRecordTake q) s = .next (t.enterGrid q r)) ∧
        (c ≠ 0 → exec (.launchRecordTake q) s = .next (t.haltQueue q c (some v.head)))) ∧
    ∀ g, mapGet? s.grids n = some g → g.total ≤ g.nextW → (s.ctx g.lrec.ctx).stopped = false → g.live = 0 → g.spawned = 0 →
      (s.wgs.all fun kv => kv.2.grid ≠ n) = true → (s.cores.all fun kv => kv.2.bins.all fun b => b.2.grid ≠ n) = true →
      let t : State := { s with grids := mapDel s.grids n }
      exec (.gridComplete n) s = .next (if g.lrec.ctln = 0 then t else t.raiseTl g.lrec.ctx g.lrec.ctln g.lrec.cval.toNat)

/-- R60, R262, R397, R398, R408: a register write of the owner of a device that is ready reaches its register; the owner's doorbell
moves TAIL, or halts the queue with code 10 on an overrun, also one that was halted (DESIGN CHOICE, LE 66); LQSTAT := 1 sets a halted queue going; a timeline entry is set and the
waits see it; while the loss of PD0 holds the writes through PD1 (R410), they wait. -/
def Sys2Proof.Claims.HostRegisterAccesses : Prop :=
  ∀ (s : State) (f : Nat),
    (f < 4 → (s.host f).up = true → heldWrites (s.host f).heldWin = false → s.heldByLoss f = false → s.owns f = true → s.dev.bootReady = true →
      (∀ ca v, ca < 2 ^ 28 → exec (.configRegisterWrite f ca v) s = .next (s.cfgWrite false (some f) (BitVec.ofNat 64 ca) v)) ∧
      ∀ q, q < 64 → let v := s.queue q
        (∀ t : Word, v.en = true →
          ((t - v.head).toNat ≤ 2 ^ v.logn → exec (.doorbellWrite f q t) s = .next (s.setQueue q { v with tail := t })) ∧
          (2 ^ v.logn < (t - v.head).toNat → exec (.doorbellWrite f q t) s = .next (s.haltQueue q 10 none))) ∧
        (v.state = 2 → exec (.lqstatResume f q) s = .next (s.setQueue q { v with state := 1 }))) ∧
    (f < 4 → (s.host f).up = true → heldWrites (s.host f).heldWin = false → s.heldByLoss f = true → ∀ ca v,
      exec (.configRegisterWrite f ca v) s = .next (s.setHost f
        { s.host f with heldWin := (s.host f).heldWin ++ [(some (leBytes 8 v.toNat), 2 ^ 40 + ca, 8)] })) ∧
    ∀ (x : Nat) (v : DWord), x < 65536 →
      exec (.timelineEntryWrite x v) s = .next ({ s with dev := { s.dev with tl := mapSet s.dev.tl x v } } : State).syncWake

/-- R14, R231, R405, R408: an access through the window of a host that is up and whose context is resident: the bytes of a read go
back as its completion, the owner's write is performed, a fault is a completer abort, and a residency miss holds the access. -/
def Sys2Proof.Claims.HostWindowAccesses : Prop :=
  ∀ (s : State) (f off len : Nat), let h := s.host f; let x := s.winXl f; let va := h.winVa off
    f < 4 → h.up = true → off < 2 ^ 40 → 0 < len → off + len ≤ 2 ^ 36 → h.hwin.getLsbD 0 = true → (s.ctx x.ctx).en = true →
    (let p : Party := .win f none off len
     s.waits p = false →
     (∀ ps bs, s.xlate x 17 false false va len false = .ok ps → s.spanIn p x.ctx ps = .ok bs → let t := (s.spanEnergy x.ctx ps).release p
       exec (.hostWindowRead f off len) s =
         .next (t.setHost f { t.host f with completions := (t.host f).completions ++ [some bs] })) ∧
     (∀ c a i, s.xlate x 17 false false va len false = .fault c a i →
       ∃ t, exec (.hostWindowRead f off len) s = .next t ∧ t.str.winFaults = s.str.winFaults + 1 ∧
         (t.host f).completions = h.completions ++ [none]) ∧
     ∀ ob sub a, s.xlate x 17 false false va len false = .miss ob sub a →
       let t := s.parkOn p x.ctx ob sub 5 false (if f < 2 then 48 else 49) a
       exec (.hostWindowRead f off len) s = .next (t.setHost f { t.host f with heldWin := (t.host f).heldWin ++ [(none, off, len)] })) ∧
    ∀ data : List Byte, data.length = len → s.owns f = true → heldWrites h.heldWin = false → let p : Party := .win f (some data) off len
      s.waits p = false → ∀ ps bs, s.xlate x 18 true false va len false = .ok ps → s.spanOut p x.ctx ps data = .ok bs →
        exec (.hostWindowWrite f off data) s = .next (((s.spanWrite ps data).spanEnergy x.ctx ps).release p)

/-- R61 to R73, R76: workgroups are placed where they fit, age, are marked for eviction (or counted once where only a save slot
is lacking), saved, unless the head can be placed by then, swapped out, resumed with their partial copies (R255). -/
def Sys2Proof.Claims.WorkgroupEvents : Prop :=
  ∀ (s : State) (k core base : Nat) (slots : List Nat),
    (∀ (w : Wait) (areas : List (Nat × Nat)), s.candidate core (fun w => s.fitsAt (s.need w) core slots base) = some w →
      (match w.key.bind s.wg? with | some v => v.state = .waiting | none => True) → areas.length = (s.need w).n →
      areasOk (s.privSize (s.need w).ctx) (mapGet s.grids w.grid {}).lrec.privu (s.privUsed (s.need w).ctx) areas = true →
      exec (.placeWorkgroup core slots base areas) s = .next ((s.placeNew w core slots base areas).l1Trim core)) ∧
    (∀ g, mapGet? s.grids k = some g → g.eprio < 7 → g.next?.isSome = true →
      exec (.eprioAge true k) s = .next { s.atLeast (agedDue (s.sliceNs g.lrec.ctx) g.waitTns g.lrec.prio g.eprio) with
        grids := mapSet s.grids k { g with eprio := g.eprio + 1 } }) ∧
    (∀ w, s.wg? k = some w → w.eprio < 7 → w.state = .swapped ∨ w.state = .waiting →
      exec (.eprioAge false k) s = .next ((s.atLeast (agedDue (s.sliceNs w.ctx) w.waitTns w.prio w.eprio)).setWg k
        { w with eprio := w.eprio + 1 })) ∧
    (∀ h, firstWait s.waiting = some h → s.headStuck h = true →
      (s.victim? h = some k → exec (.evictWorkgroup k) s = .next (s.modWg k fun v => { v with evict := true })) ∧
      ∀ v, s.victim? h ≠ some k → ((s.withheldFor h).find? fun kv => kv.1 = k) = some (k, v) →
        v.withheld ≠ some (h.grid, h.wgid, h.since) →
        exec (.evictWorkgroup k) s = .next ((s.setWg k { v with withheld := some (h.grid, h.wgid, h.since) }).count 4)) ∧
    (∀ (v : Workgroup) (i : Nat), s.wg? k = some v → s.freeSaveSlot v.ctx = some i → v.evict = true → v.state = .resident →
      s.inTrap k = false → s.saveWanted k v = true →
      let t := ((v.copies.foldl (fun t c => t.startCopy k c.num) s).modWg k fun x =>
        { x with state := .saving, evict := false, preempted := false, saveSlot := some i, saveTns := s.dev.tns }).modCtx v.ctx fun c =>
          { c with slots := c.slots ++ [i] }
      exec (.saveBegin k) s = .next ((s.groupsOf k).foldl (fun t g => match t.grp? g with | some x => t.cuFlush x | none => t) t)) ∧
    (∀ v, s.wg? k = some v → v.evict = true → v.state = .resident → s.saveWanted k v = false →
      exec (.saveBegin k) s = .next (s.setWg k { v with evict := false })) ∧
    (∀ v, s.wg? k = some v → v.state = .saving → (((s.groupsOf k).filterMap s.grp?).all Group.drained) = true →
      ((((s.groupsOf k).filterMap s.grp?).any fun g => g.dirtyMask ≠ 0) = true →
        exec (.saveComplete k) s = .next (((s.groupsOf k).filterMap s.grp?).foldl (fun t g => t.cuFlush g) s)) ∧
      ((((s.groupsOf k).filterMap s.grp?).any fun g => g.dirtyMask ≠ 0) = false →
        let u := ((s.endExiting k).passFlas k).finishReads k
        ∀ x, u.wg? k = some x → ((u.groupsOf k).filterMap u.grp?).isEmpty = false → x.copies.any Copy.own = false →
          let t := u.writeImage k
          exec (.saveComplete k) s = .next (((((t.groupsOf k).foldl (fun t j => t.modGrp j Group.husk) t).setWg k
            { x with state := .swapped, waitTns := x.saveTns, eprio := x.prio, wgm := [], tiles := [], bst := [], btag := [] }).syncDirty
              (dieOfCore x.core)).noteIdle (clusterOfCore x.core)))) ∧
    (∀ (x : Wait) (v : Workgroup), s.candidate core (fun x => x.key = some k && s.fitsAt (s.need x) core slots base) = some x →
      s.wg? k = some v → v.state = .swapped →
      let u : Workgroup := { v.fromSync (s.rdNat (s.imageBase v) 256) (s.rdNat (s.imageAt v 5) 4096) with
        state := .resuming, core := core, base := base, clu := clusterOfCore core, eprio := v.prio,
        residentTns := s.dev.tns, withheld := none }
      let t := (s.groupsOf k).zipIdx.foldl (fun t p => t.modGrp p.1 fun g => { g with slot := core * 128 + slots.getD p.2 0 })
        ((s.writeHeader u 2).setWg k u)
      exec (.resumeWorkgroup k core slots base) s = .next ((t.onCore v.ctx core).l1Trim core)) ∧
    ∀ v, s.wg? k = some v → v.state = .resuming →
      let t := ((s.restore k).modWg k fun x => { x with state := .resident, saveSlot := none, residentTns := s.dev.tns, cplc := 0 }).freeSlot
        v.ctx v.saveSlot
      exec (.resumeComplete k) s = .next ((((t.groupsOf k).foldl (fun t j => t.resumeGrp j) t).handSlices k fun _ => true).barCheck k).syncWake

/-- R75, R77: a bin whose timer ends forms its group, or closes when the store has no room; closed bins form their groups, oldest
first (the model's choice, LE 70), and refused spawns are done as room comes; an idle cluster is gated, unless a dispatch to it
comes first, and, wanted again, powered. -/
def Sys2Proof.Claims.RegroupAndClusterEvents : Prop :=
  ∀ (s : State) (c i : Nat),
    (∀ b, mapGet? (s.core c).bins i = some b → b.closed = false →
      let t := s.atLeast (b.start + (s.core c).sptmr * 1000)
      (∀ u, t.formBin c i = some u → exec (.regroupBinTimer c i) s = .next u) ∧
      (t.formBin c i = none → exec (.regroupBinTimer c i) s = .next (t.modCore c fun v =>
        { v with bins := mapSet v.bins i { b with closed := true } }))) ∧
    (exec (.regroupStoreRoom c) s = .next ((mapKeys s.groups fun _ g => g.park = 8 && g.core = c).foldl (fun t k => t.retrySpawn k)
      ((((s.core c).bins.filter fun b => b.2.closed).foldr (fun b l => insBin b l) []).foldl (fun t b => (t.formBin c b.1).getD t) s))) ∧
    let v := s.cluster i
    (v.gate = .powered → v.idle = true → s.clusterIdle i = true →
      (s.dispatches i = true → exec (.clusterIdleGate i) s = .next (s.setCluster i { v with idleTns := s.dev.tns })) ∧
      (s.dispatches i = false → exec (.clusterIdleGate i) s = .next (((List.range 4).foldl (fun t j => t.settleCore (4 * i + j))
        (s.atLeast (v.idleTns + v.clidle * 1000))).setCluster i { v with gate := .gating }))) ∧
    (v.gate = .gating → s.wantsCluster i = true →
      exec (.clusterUngate i) s = .next (s.setCluster i { v with gate := .ungating, dispatch := true })) ∧
    (v.gate = .ungating → exec (.clusterPowered i) s = .next ((List.range 4).foldl (fun t j => t.modCore (4 * i + j) fun x =>
      { x with busy := s.dev.now5 }) (s.setCluster i { v with gate := .powered, dispatch := false, idleTns := s.dev.tns })))

/-- R242, R243: a copy whose slices are all supplied starts, and its engine takes it into its order; R251: a reading copy begins its
pass with an even version, and ends it when the version has not changed; R244 to R249, R252, R254: a slice moves its bytes and
completes once its remote writes are acknowledged, or ends with its fault. -/
def Sys2Proof.Claims.CopySlices : Prop :=
  ∀ (s : State) (k c i : Nat),
    (∀ (w : Workgroup) (cp : Copy), s.wg? k = some w → (w.copies.find? fun x => x.num = c) = some cp → cp.started = false →
      s.supplied k cp = true → w.state = .resident → (∀ x ∈ w.copies, x.num = c → x.slices.all CopySlice.handed = true) →
      exec (.copyStart k c) s = .next (s.fresh1.2.setWg k { w with copies := w.copies.map fun x =>
        if x.num = c then { x with started := true, seq := s.fresh1.1, clu := w.clu } else x })) ∧
    ∀ (w : Workgroup) (l : CopySlice), s.work? k c i = some (w, l) →
      (∀ ps v t, l.fn = 0 → l.verf = true → l.passed = false → l.ver = none → s.verPlaces (.slice k c i) w l = .ok ps →
        s.readVer k w c i l ps = (some v, t) → v % 2 = 0 →
        exec (.verPassEnd k c i) s = .next (t.modSlice k c i fun x => { x with ver := some v, pos := 0, stage := [] })) ∧
      (∀ v t t' w' l' ps, l.fn = 0 → l.verf = true → l.passed = false → l.ver = some v → State.runMoves k c i l.total s = .go t →
        t.work? k c i = some (w', l') → t.verPlaces (.slice k c i) w' l' = .ok ps → t.readVer k w' c i l' ps = (some v, t') →
        exec (.verPassEnd k c i) s = .next (t'.modSlice k c i fun x => { x with passed := true })) ∧
      ((l.fn ≠ 0 ∨ (l.aon = false ∧ l.verf = false)) →
        (∀ t w' l', State.runMoves k c i l.total s = .go t → t.work? k c i = some (w', l') → l'.racks = [] →
          exec (.copySliceComplete k c i) s = .next (t.sliceDone k c i)) ∧
        ∀ t cs a x, State.runMoves k c i l.total s = .fault t cs a x →
          exec (.copySliceComplete k c i) s = .next (t.sliceFault k c i l cs a x)) ∧
      (l.fn = 0 → l.aon = false → l.verf = true → l.passed = true → l.racks = [] →
        exec (.copySliceComplete k c i) s = .next (s.sliceDone k c i))

/-- R250: an all-or-nothing slice, everything translated, remote destinations at their peers (by requests of the model's form, LE 20), reads its box into the staging store; an even version word of this device
becomes odd and the data are written, an odd one waits; once the data are acknowledged the word is even again and the slice is
complete. R252: the last slice completes the copy: its semaphore rises, CTL rises in order and the waits see it. -/
def Sys2Proof.Claims.VersionedCopies : Prop :=
  ∀ (s : State) (k c i : Nat),
    (∀ (w : Workgroup) (l : CopySlice), s.work? k c i = some (w, l) → l.fn = 0 → l.aon = true →
      (∀ ds ps t, l.ver = none → l.vps = [] → l.stage = [] → s.srcsFrom (.slice k c i) w l l.total 0 = .ok () →
        s.destsFrom (.slice k c i) w l l.total 0 = .ok ds → s.verPlaces (.slice k c i) w l = .ok ps →
        (l.asked = false → needsResp ds = true → exec (.aonVersionAcquire k c i) s = .next (s.askDests k w c i l ds)) ∧
        ((l.asked = true ∨ needsResp ds = false) → l.racks = [] → s.stagedOn w.clu + l.total ≤ 2 ^ 20 → State.fillStage k c i l.total l.total s = .go t →
        exec (.aonVersionAcquire k c i) s = .next (t.modSlice k c i fun z => { z with dst := ds, vps := ps }))) ∧
      (l.vps ≠ [] → needsResp l.vps = false → (l.vps.all fun p => match p with | .da d => s.writeRoom (d / 128) | _ => true) = true →
        (l.ver = none → let v := leNat (s.cread w 0 l.vps [])
          (v % 2 = 1 → exec (.aonVersionAcquire k c i) s = .next s) ∧
          (v % 2 = 0 → exec (.aonVersionAcquire k c i) s = .next ((s.setVer k w c i l l.vps ((v + 1) % 2 ^ 64)).aonWrite k w c i l v))) ∧
        ∀ v, l.ver = some v → l.racks = [] → l.fin = false →
          exec (.copySliceComplete k c i) s = .next (((s.setVer k w c i l l.vps ((v + 2) % 2 ^ 64)).modSlice k c i fun z =>
            { z with fin := true }).sliceDone k c i))) ∧
    let u := s.pull k
    ∀ (w : Workgroup) (cp : Copy), u.wg? k = some w → (w.copies.find? fun x => x.num = c) = some cp → cp.started = true → cp.done = false →
      (cp.slices.all fun l => l.done) = true →
      let t := match cp.lead with
        | some l => if l.sen then (u.semaSet k (l.fld 3 12 6) fun v => v + l.fld 3 18 8).applied k else u
        | none => u
      let t1 := t.modWg k fun w => ({ w with copies := w.copies.map (fun x =>
        if x.num = c then { x with done := true } else x) } : Workgroup).raiseCtl 16
      let ctl (t : State) : Nat := (t.wg? k).elim 0 Workgroup.ctl
      exec (.copyComplete k c) s = .next ((if ctl t < ctl t1 then t1.applied k else t1).reap k).syncWake

/-- R293, R294, R295, R298: a tile transfer moves its row segment and ends; the next step in its cluster's order starts when its operands
are within bounds, and a fault of them is recorded against it; a step that has started completes with its cells, in order. -/
def Obligations.MatrixEvents : Prop :=
  ∀ (s : State) (k : Nat) (g : Group), s.grp? k = some g → ∀ w, Of s g w →
    (∀ o : Op, g.op? o.id = some o → o.performed = false → s.live g = true →
      ((g.before o).any fun p => p.kind = .tld || p.kind = .tst) = false →
      let row := (regGet o.arg 0).toNat
      let col (i : Nat) : Nat := 64 * (regGet o.arg 1).toNat + i
      (o.kind = .tld → exec (.tileTransferDone k o.id) s = .next (s.setGrp k ((o.dst.foldl (fun (h : Group) d =>
        h.writeDst d (maskOf fun i => o.accs.any fun a => a.lane = i) fun i => w.cell row (col i)) g).finishOp o.id))) ∧
      (o.kind = .tst → exec (.tileTransferDone k o.id) s = .next ((s.setWg g.wg (o.accs.foldl (fun v a =>
        v.setCell row (col a.lane) (BitVec.ofNat 32 (leNat a.data))) w)).setGrp k (g.finishOp o.id)))) ∧
    (∀ i m, s.nextMatrix (clusterOfCore g.core) = some k → firstUnstarted g.mxq 0 = some (i, m) →
      let t := s.setCluster (clusterOfCore g.core) { s.cluster (clusterOfCore g.core) with rr := g.slot % 512 }
      mxCheck w m m.started = none →
      let u : MxUnit := { m with started := m.started + 1, tags := m.tags ++ [mapGet w.btag (m.slot w.bslots m.started) 15] }
      exec (.matrixStepStart k) s = .next (t.setGrp k { g with mxq := g.mxq.set i u })) ∧
    ∀ m r, g.mxq = m :: r → s.live g = true → m.op ≠ 3 → m.step < m.started → m.bad = none →
      let t1 := (s.setWg g.wg (w.doStep m m.step)).energy g.ctx m.energy
      let t2 := if m.op ≤ 1 ∧ m.fld 1 23 1 = 1 then t1.mxSignal g.wg (m.fld 1 24 6) (m.fld 1 30 8) else t1
      let n : MxUnit := { m with step := m.step + 1, tags := m.tags.drop 1 }
      let t3 := t2.modGrp k fun h => { h with mxq := h.mxq.set 0 n }
      exec (.matrixStepComplete k) s = .next (if n.step < n.total then t3 else t3.unitDone k n)

/-- R81, R87, R89, R411 to R414: filler starts and stops with the estimate, 8 µs after a drop at the latest (its amount is a free value: DESIGN
CHOICE, LE 27), low-voltage mode is entered and left by the memory-bound fraction of its window, or left for an urgent group, and settles after 2 µs,
the package's power comes once a millisecond. -/
def Obligations.PowerEvents : Prop :=
  ∀ (s : State) (c : Nat), c < 256 → let u := s.settleCore c; let v := u.core c; let aged := (([] : NMap Nat) :: v.units).take 10
    (s.dev.shape = true → (v.filler = true → u.dev.tns < v.fillTns + 8000) →
      exec (.powerEstimate c true) s = .next (((u.setCore c
        { v with units := aged, filler := true, fillerCtx := if v.filler then v.fillerCtx else v.tenant,
                 fillTns := if v.filler then v.fillTns else u.dev.tns }).fill c).noteIdle (clusterOfCore c))) ∧
    (∀ b, b = false ∨ (v.filler = true ∧ v.fillTns + 8000 ≤ u.dev.tns) → exec (.powerEstimate c b) s = .next ((u.setCore c
      { v with units := aged, filler := false, fill2 := 0, fill3 := 0 }).noteIdle (clusterOfCore c))) ∧
    (let b := v.boundOf (s.dev.now5 / 200000) s.dev.lvwin
     (s.dev.lven = true → (s.core c).lv = false → b.2 ≠ 0 → s.dev.lvthr * b.2 ≤ 100 * b.1 →
      exec (.lvEnter c) s = .next ((u.modCore c fun x =>
       { x with lv := true, trn := true, lvTarget := true, lvEntries := (x.lvEntries + 1) % 2 ^ 32, lvTns := s.dev.tns }).modCore c fun x =>
        { x with lvOwn := true })) ∧
     (b.2 = 0 ∨ 100 * b.1 < s.dev.lvthr * b.2 → exec (.lvEnter c) s = .next s) ∧
     ((b.2 = 0 ∨ s.dev.lvext * b.2 ≤ 100 * b.1) → (s.groups.any fun kv => kv.2.core = c && kv.2.urgent) = false →
       exec (.lvExit c) s = .next s)) ∧
    ((s.groups.any fun kv => kv.2.core = c && kv.2.urgent) = true ∨ s.lvAsks c false = true → (s.core c).lv = true → (s.core c).lvTarget = true → (s.core c).lvCap = false → exec (.lvExit c) s = .next ((s.modCore c fun x =>
      { x with trn := true, lvTarget := false, lvTns := s.dev.tns }).modCore c fun x => { x with lvOwn := false })) ∧
    ((s.core c).trn = true → exec (.lvTransitionDone c) s = .next (((s.atLeast ((s.core c).lvTns + 2000)).settleCore c).modCore c fun x =>
      { x with trn := false, lv := x.lvTarget })) ∧
    ∀ p d m q, p < 65536 → d < 65536 → m < 65536 → q < 65536 → p ≤ s.dev.pcap → s.dev.pcap * 95 < p * 100 →
      let t := s.atLeast (s.dev.lastTime + 1000000)
      exec (.powerCapStep p d m q) s = .next (t.modDev fun x =>
        { x with pwrpt := [p, d, m, q], penrg := (x.penrg + p) % 2 ^ 64, lastTime := t.dev.tns })

namespace Sys2Proof.Claims

/-- A value that PCFG takes at a port (R372): reserved bits zero, AUTO with a queue bound, no width beyond WMAX or beyond what
the wavelengths allow. -/
def PcfgLegal (v : Port) (n : Nat) : Prop :=
  n / 32 % 8 = 0 ∧ n / 2 ^ 18 = 0 ∧ (bitOf n 4 = true → n / 256 % 256 ≠ 0) ∧ n / 4 % 4 ≤ n % 4 ∧ v.bound ≤ n % 4 ∧
    v.bound ≤ n / 4 % 4

/-- LAGEw.FAIL set, for a reason. -/
def failedAt (v : Port) (w n : Nat) : Port :=
  { v with lageH := mapSet v.lageH w (mapGet v.lageH w 0 ||| 0x1000000), why := mapSet v.why w n }

/-- PHYCTL := a value, with the three states of PHYST. -/
def phyAt (v : Port) (w : Nat) (c : DWord) (l r e : Nat) : Port := ({ v with phyctl := mapSet v.phyctl w c } : Port).setPhy w l r e

end Sys2Proof.Claims

/-- R365: a wavelength that fails again changes nothing; one that carries no lane, or of a port that is down, is reported and
marked; one that carries a lane has it remapped to the lowest good spare, lane and width following; the remap ends and is reported
as type 6 with the new map and the failure's reason (the report's form LE 77, DEDUCED). -/
def Sys2Proof.Claims.WavelengthEvents : Prop :=
  ∀ (s : State) (p w n : Nat), p < 32 → w < 10 → let v := s.port p
    let told := (s.logged 4 [p, w, n]).post { type := 6, args := [BitVec.ofNat 64 p, BitVec.ofNat 64 w, BitVec.ofNat 64 n, v.lmap] }
    (v.failed w = true → exec (.wavelengthFail p w n) s = .next s) ∧
    (v.failed w = false → v.state = 0 ∨ (v.mapped w = false ∧ ∀ r ∈ v.remaps, r.2.1 ≠ w) →
      exec (.wavelengthFail p w n) s = .next (told.setPort p (failedAt v w n))) ∧
    (∀ k x, v.failed w = false → v.state ≠ 0 → v.remaps = [] → ((List.range 8).find? fun k => v.lane k = w) = some k →
      (failedAt v w n).spare = some x →
      exec (.wavelengthFail p w n) s = .next (told.setPort p ({ failedAt v w n with
        remaps := [(k, x, v.width)], width := if k = 0 then v.width else max v.width (codeFor k) } : Port).pump)) ∧
    ∀ k x o, v.remaps = [(k, x, o)] →
      exec (.laneRemapDone p k) s = .next (((s.logged 5 [p, k, x]).post { type := 6, args := [BitVec.ofNat 64 p,
        BitVec.ofNat 64 (v.lane k), BitVec.ofNat 64 (mapGet v.why (v.lane k) 0), (v.setLane k x).lmap] }).setPort p
        ({ v.setLane k x with remaps := [], width := max o v.bound } : Port).pump)

/-- R372 to R374: PCFG writes bring a port up or down and change its width; one that breaks a rule is discarded and counted;
changes of width end; the far end's requests. While a lane is remapped the width agreed on counts (R365). -/
def Sys2Proof.Claims.PortWidthEvents : Prop :=
  ∀ (s : State) (p n : Nat) (x : DWord), p < 32 → let v := s.port p
    let w := max v.wtgt v.bound
    let ran : Port := { v with state := 1, width := v.besides w, wtgt := w,
                                remaps := v.remaps.map fun (r : Nat × Nat × Nat) => (r.1, r.2.1, w) }
    (v.state = 2 → v.pending = [] → exec (.portNarrowDone p) s = .next (s.setPort p ran)) ∧
    (v.state = 3 → v.pending = [] → exec (.portWakeDone p) s = .next (s.setPort p { ran with wakes := v.wakes + 1 })) ∧
    (v.remaps = [] → ran.width = w ∧ ran.remaps = []) ∧
    (v.state = 1 → v.pending = [] →
      (v.cfg.getLsbD 4 = true → v.wmax < v.width → max v.wmax v.bound < v.oldWidth → 16 * (v.cfg.toNat / 256 % 256) ≤ v.txWait.length →
        exec (.portAutoWake p) s = .next (s.setPort p
          { v.setWreq v.wmax with state := 3, wtgt := max v.wmax v.bound, changeTns := s.dev.tns })) ∧
      (n < 4 → v.oldWidth < n → n ≤ v.wreq → exec (.farEndNarrow p n) s = .next (s.setPort p
        { v with state := 2, wtgt := n, changeTns := s.dev.tns })) ∧
      (max n v.bound < v.oldWidth → n < 4 → exec (.farEndWake p n) s = .next (s.setPort p
        { v.setWreq (max n v.bound) with state := 3, wtgt := max n v.bound, changeTns := s.dev.tns })) ∧
      (x.getLsbD 17 = true → PcfgLegal v x.toNat →
        let taken : Port := { v with cfg := x, skida := x.getLsbD 16, wtgt := x.toNat % 4, changeTns := s.dev.tns }
        (v.wreq < x.toNat % 4 → v.oldWidth < x.toNat % 4 →
          exec (.portNarrow p x) s = .next (s.setPort p { taken with state := 2 })) ∧
        (x.toNat % 4 < v.wreq → x.toNat % 4 < v.oldWidth →
          exec (.portWake p x) s = .next (s.setPort p { taken with state := 3 })))) ∧
    (x.getLsbD 17 = true → v.state = 0 →
      (¬ PcfgLegal v x.toNat → exec (.portEnable p x) s = .next (s.count 0)) ∧
      (PcfgLegal v x.toNat → v.bring = false → v.goodWl ≠ [] →
        exec (.portEnable p x) s = .next (s.setPort p { v with cfg := x, bring := true }))) ∧
    (x.getLsbD 17 = false → PcfgLegal v x.toNat →
      (v.state = 0 → v.bring = false → exec (.portDisable p x) s = .next (s.setPort p { v with cfg := x })) ∧
      (v.state ≠ 0 ∨ v.bring = true →
        exec (.portDisable p x) s = .next ((s.setPort p { v with cfg := x }).portDown p 1)))

/-- R365 to R370: the session comes into place or the port stays down; new keys, also before the tag counter reaches its end; a
codeword in order, out of order, or uncorrectable, the 64th of one wavelength in one ms failing it (which wavelength a codeword is
traced to is a free value, LE 5, DESIGN CHOICE); a tag group that verifies releases its packets; the third failure of one takes the
port down. -/
def Obligations.LinkEvents : Prop :=
  ∀ (s : State) (p : Nat), let v := s.port p
    (v.bring = true → v.goodWl ≠ [] → ∀ lat,
      exec (.portSessionEstablish p true lat) s = .next (s.setPort p (v.up lat)).reconnect ∧
      (v.up lat).state = 1 ∧ (v.up lat).session = true ∧ (v.up lat).txSeq = 0 ∧ (v.up lat).rxSeq = 0 ∧
      exec (.portSessionEstablish p false lat) s = .next ((s.setPort p { v with bring := false }).post
        { type := 8, args := [BitVec.ofNat 64 p, 4] })) ∧
    (v.session = true → exec (.sessionRekey p) s = .next (s.setPort p { v with keygen := v.keygen + 1, tagCount := 0, txTags := 0 })) ∧
    (v.state ≠ 0 →
      (∀ first errs l, 8 < errs →
        let n := (Config.freeWord s.fresh).toNat % 16
        let bad := (v.uncor ++ [(n, s.dev.tns)]).filter fun (b : Nat × Nat) => s.dev.tns < b.2 + 1000000
        let c : Port := { v with pfec := satHalf v.pfec true, uncor := bad }
        let asks := !v.rxGap || decide ((v.rxSeq + 65536 - first % 65536) % 65536 < 4)
        let u := ({ s with fresh := s.fresh + 1 } : State).setPort p
          (if asks then { c with rxGap := true, prpl := satHalf v.prpl false } else c)
        exec (.codewordReceive p first errs l) s =
          .next (if 64 ≤ (bad.filter fun (b : Nat × Nat) => b.1 = n).length then u.failWl p n 2 else u)) ∧
      ∀ errs (f : LinkFlit), errs ≤ 8 → v.skida = false → f.kind = .idle →
        let c : Port := if errs = 0 then v else { v with pfec := satHalf v.pfec false }
        (f.seq = v.rxSeq → exec (.codewordReceive p f.seq errs [f]) s = .next (s.setPort p
          ({ c with rxSeq := (v.rxSeq + 1) % 65536, rxGap := false } : Port).pump)) ∧
        (f.seq ≠ v.rxSeq → v.rxGap = false → exec (.codewordReceive p f.seq errs [f]) s = .next (s.setPort p
          ({ c with rxGap := true, prpl := satHalf v.prpl false } : Port).pump))) ∧
    ∀ i, (v.tagHeld.findIdx? fun (f : LinkFlit) => f.kind = .tag) = some i →
      (let got := takePkts 64 (v.asm ++ dataOf (v.tagHeld.take (i + 1)))
       let base : Port := if v.tagCount + 1 = 2 ^ 40 - 1 then { v with keygen := v.keygen + 1, txTags := 0, tagCount := 0 }
         else { v with tagCount := v.tagCount + 1 }
       exec (.tagGroupVerify p true) s = .next (s.setPort p { base with
         tagHeld := v.tagHeld.drop (i + 1), asm := got.2, tagFails := 0,
         rxq := v.rxq ++ got.1.filter fun (q : FabPkt) => !v.early.contains q,
         early := v.early.filter fun (q : FabPkt) => !got.1.contains q })) ∧
      (2 ≤ v.tagFails → exec (.tagGroupVerify p false) s = .next
        ((s.setPort p { v with prpl := satHalf v.prpl true }).portDown p 3))

/-- R376, R377, R409: the ageing words of a wavelength and their storing; the time counter sent and received, forward only. -/
def Sys2Proof.Claims.AgeingAndTime : Prop :=
  ∀ (s : State) (p w : Nat), let v := s.port p
    (∀ bias mpwr temp hrs, p < 32 → w < 10 → let i := ageIndex (bias % 65536) (Config.bias0 p w)
      let old := (mapGet v.lageH w 0).toNat
      let t := s.setPort p { v with
        lage := mapSet v.lage w (BitVec.ofNat 64 (bias % 65536 + mpwr % 65536 * 2 ^ 16 + hrs % 2 ^ 32 * 2 ^ 32)),
        lageH := mapSet v.lageH w (BitVec.ofNat 64 (i + temp % 256 * 2 ^ 16 + old / 2 ^ 24 * 2 ^ 24)) }
      (i < 49152 → exec (.lageUpdate p w bias mpwr temp hrs) s = .next t) ∧
      (old % 65536 < 49152 → 49152 ≤ i → i < 65535 → exec (.lageUpdate p w bias mpwr temp hrs) s =
        .next (t.post { type := 7, args := [BitVec.ofNat 64 p, BitVec.ofNat 64 w, BitVec.ofNat 64 i] }))) ∧
    ((s.ports.map Prod.fst).Pairwise (· < ·) → ∃ m, exec .lageFlashStore s = .next { s with str := { s.str with flash := m } } ∧
      ∀ kv ∈ s.ports, ∀ w < 10, mapGet? m (kv.1 * 16 + w) =
        some ((mapGet kv.2.lage w 0).toNat / 2 ^ 32, (mapGet kv.2.lageH w 0).toNat % 65536)) ∧
    (v.state ≠ 0 → exec (.timeCounterSend p) s = .next (s.setPort p { v with lastSend := s.dev.tns })) ∧
    (v.state = 0 → exec (.timeCounterSend p) s = .next s ∧ ∀ f, exec (.timeCounterReceive p f) s = .next s) ∧
    ∀ f < 2 ^ 48, v.state ≠ 0 → let lat := v.ptime.toNat / 2 ^ 48 % 2 ^ 12
      let d := (f + lat + 2 ^ 48 - s.dev.tns % 2 ^ 48) % 2 ^ 48
      let t := s.setPort p { v with ptime := BitVec.ofNat 64 (f + lat * 2 ^ 48) }
      (1 ≤ d → d < 2 ^ 47 → exec (.timeCounterReceive p f) s = .next (t.modDev fun x =>
        { x with tns := x.tns + d, skip := x.skip + d })) ∧
      (d = 0 ∨ 2 ^ 47 ≤ d → exec (.timeCounterReceive p f) s = .next t)

/-- R415: the photonic registers of a wavelength of a port that is not enabled: laser, lock and training start and end, a failed
lock or training fails the wavelength. -/
def Sys2Proof.Claims.PhotonicRegisters : Prop :=
  ∀ (s : State) (p w : Nat), p < 32 → w < 10 → let v := s.port p; let c := mapGet v.phyctl w 0
    let l := physt v w 0 2; let r := physt v w 2 2; let e := physt v w 4 2
    (v.en = false →
      (c = 0 → exec (.phyLaser p w true) s = .next (s.setPort p (phyAt v w 1 l 0 e))) ∧
      (c.toNat < 8 → exec (.phyLaser p w false) s = .next (s.setPort p { phyAt v w (c &&& 6) 0 0 0 with
        lageH := mapSet v.lageH w (mapGet v.lageH w 0 &&& 0xFFFFFFFFFEFFFFFF) })) ∧
      (c = 1 → let locking : Port := { phyAt v w 3 l (if l = 1 then 1 else 3) e with lockTns := mapSet v.lockTns w s.dev.tns }
        (l = 1 → exec (.phyLock p w) s = .next (s.setPort p locking)) ∧
        (l ≠ 1 → v.failed w = false → exec (.phyLock p w) s = .next ((s.setPort p locking).failWl p w 4)) ∧
        (l ≠ 1 → v.failed w = true → exec (.phyLock p w) s = .next ((s.setPort p locking).tellWl p w 4))) ∧
      (c = 3 → r = 2 → exec (.phyTrain p w) s =
        .next (s.setPort p { phyAt v w 7 l 2 1 with trainTns := mapSet v.trainTns w s.dev.tns }))) ∧
    (∀ ok, c.getLsbD 0 = true → l = 0 →
      exec (.phyLaserOnDone p w ok) s = .next (s.setPort p (v.setPhy w (if ok then 1 else 2) r e))) ∧
    (r = 1 → exec (.phyLockDone p w true) s = .next (s.setPort p (v.setPhy w l 2 e)) ∧
      let u := (s.atLeast (mapGet v.lockTns w 0 + 2000000)).setPort p (v.setPhy w l 3 e)
      exec (.phyLockDone p w false) s = .next (if v.failed w then u.tellWl p w 4 else u.failWl p w 4)) ∧
    (e = 1 → ∀ h x, h < 256 → x < 256 → exec (.phyTrainDone p w true h x) s = .next (s.setPort p { v with
      physt := mapSet v.physt w (BitVec.ofNat 64 (physt v w 0 4 + 2 * 16 + h * 2 ^ 8 + x * 2 ^ 16)) }))

namespace Sys2Proof.Claims

/-- The machine once it has taken packet `p` of (SRC, CLS) in order, before what the packet does (R380). -/
def nextInOrder (s : State) (p : FabPkt) : State :=
  { s with fab := { s.fab with rxSeq := mapSet s.fab.rxSeq (fabKey p.src p.cls) ((p.seq + 1) % 2 ^ 32),
                               reorder := mapSet s.fab.reorder (fabKey p.src p.cls)
                                 ((mapGet s.fab.reorder (fabKey p.src p.cls) []).filter fun q => q.seq ≠ (p.seq + 1) % 2 ^ 32 && q.seq ≠ p.seq) } }

/-- The response of an access of a peer (R379): its cause, WHY and object, and its data. -/
def response (s : State) (r : RemoteReq) (cause why obj : Nat) (data : List Byte) : State :=
  s.fabSend (some r.rctx)
    { type := 5, src := s.fab.dev, dst := r.src, rctx := r.rctx, cls := 1, seq := 0,
      rid := { r.rid with req := r.rid.req % 65536 }, ronum := r.ronum, off := r.off, opnd := leBytes 2 r.seq ++ [1],
      payload := leBytes 1 cause ++ leBytes 1 why ++ leBytes 3 obj ++ data }

/-- A message that cannot be appended is discarded, MSGLOST of its context rises, its sender is done with it (R382, R384). -/
def discarded (s : State) (e : InMsg) : State := ((s.release (.msg e)).msgLost e.msg.ctx).msgDone e

/-- What becomes of a message that at machine u writes bytes at places of its ring: it waits, or, the bytes out of reach, it is
discarded (R230, R384). -/
def NotAppended (s u : State) (e : InMsg) (ps : List Place) (bs : List Byte) : Prop :=
  (∀ t, u.spanOut (.msg e) e.msg.ctx ps bs = .wait t → exec (.messageDeliver e.msg) s = .next t) ∧
  ∀ c w o i, u.spanOut (.msg e) e.msg.ctx ps bs = .bad c w o i → exec (.messageDeliver e.msg) s = .next (discarded s e)

/-- The last bytes of a message at places of its ring: once the remote ones are acknowledged the local ones are written and it is dealt
with (R230, R384). -/
def Appended (s u : State) (e : InMsg) (ps : List Place) (bs : List Byte) : Prop :=
  ((∃ x, u.spanOut (.msg e) e.msg.ctx ps bs = .ok x) →
    exec (.messageDeliver e.msg) s = .next ((((u.spanWrite ps bs).spanEnergy e.msg.ctx ps).release (.msg e)).msgDone e)) ∧
  NotAppended s u e ps bs

/-- The fields of a collective's descriptor (R387). -/
def cf (x : Coll) (n lo w : Nat) : Nat := bitsOf (regGet x.desc n).toNat lo w

end Sys2Proof.Claims

/-- R208, R230, R370, R379 to R381: a packet that arrives at a running port is delivered in order, held, acknowledged again, or
discarded; the replay of a store that was released early is performed once more; a retry is charged as its packet was; a remote access that faults is answered, one that misses is held with its service open; retries; the table. -/
def Obligations.FabricEvents : Prop :=
  ∀ (s : State) (p : Nat) (q : FabPkt), let v := s.port p
    let t := s.setPort p { v with rxq := v.rxq.erase q }
    let k := fabKey q.src q.cls
    let ahead := (q.seq + 2 ^ 32 - mapGet s.fab.rxSeq k 0) % 2 ^ 32
    (p < 32 → v.state = 0 → exec (.fabricPacketReceive p q) s = .next s) ∧
    (p < 32 → v.state ≠ 0 →
      (q.dst ≠ s.fab.dev → exec (.fabricPacketReceive p q) s = .next t) ∧
      (q.dst = s.fab.dev →
        (9 ≤ q.type → exec (.fabricPacketReceive p q) s = .next (t.count 5)) ∧
        (q.type = 8 → exec (.fabricPacketReceive p q) s = .next (t.fabAcked q.src q.cls q.seq)) ∧
        (q.type ≤ 7 →
          (ahead = 0 → ((mapGet s.fab.reorder k []).any fun x => x.seq = (q.seq + 1) % 2 ^ 32) = false →
            (((mapGet s.fab.reorder k []).any fun x => x.seq = q.seq) = false →
              exec (.fabricPacketReceive p q) s = .next (((nextInOrder t q).pktEffect q).ackPkt q)) ∧
            ∀ x, ((mapGet s.fab.reorder k []).filter fun x => x.seq = q.seq) = [x] → exec (.fabricPacketReceive p q) s =
              .next (((((nextInOrder t q).pktEffect q).ackPkt q).pktEffect (replayOf x)).ackPkt x)) ∧
          (1 ≤ ahead → ahead < 4096 →
            (((mapGet s.fab.reorder k []).any fun x => x.seq = q.seq) = true →
              (q.type ≠ 1 ∨ v.again.contains (q.src, q.cls, q.seq) = false) → exec (.fabricPacketReceive p q) s = .next t) ∧
            (((mapGet s.fab.reorder k []).any fun x => x.seq = q.seq) = false → v.again.contains (q.src, q.cls, q.seq) = false → exec (.fabricPacketReceive p q) s = .next
              { t with fab := { t.fab with reorder := mapSet s.fab.reorder k (mapGet s.fab.reorder k [] ++ [q]) } })) ∧
          (4096 ≤ ahead →
            (q.type ≠ 1 ∨ v.again.contains (q.src, q.cls, q.seq) = false → exec (.fabricPacketReceive p q) s = .next (t.ackPkt q)) ∧
            (q.type = 1 → v.again.contains (q.src, q.cls, q.seq) = true → exec (.fabricPacketReceive p q) s = .next
              (((t.setPort p { t.port p with again := v.again.erase (q.src, q.cls, q.seq) }).pktEffect (replayOf q)).ackPkt q)))))) ∧
    (∀ x : TxPkt, ((mapGet s.fab.unacked k []).find? fun y => y.pkt.seq = q.seq) = some x →
      let u := ((s.atLeast (x.tns + 20000)).flitEnergy x.ctx x.pkt).putOnRail x.pkt x.rail
      exec (.fabricRetryTimeout q.src q.cls q.seq) s = .next { u.2 with fab := { u.2.fab with
        unacked := mapSet u.2.fab.unacked k ((mapGet s.fab.unacked k []).map fun (y : TxPkt) =>
          if y.pkt.seq = q.seq then { y with rail := u.1, tns := (s.atLeast (x.tns + 20000)).dev.tns } else y) } }) ∧
    (∀ x : DWord, (x.toNat < 2 ^ 32 → exec (.frgenWrite x) s = .next { s with fab := { s.fab with rereading := true } }) ∧
      (2 ^ 32 ≤ x.toNat → exec (.frgenWrite x) s = .next (s.count 0))) ∧
    (s.fab.rereading = true → s.fab.frmb.toNat % 2 ^ 48 = 0 → exec .reachabilityRereadDone s = .next
      ({ s with fab := { s.fab with rereading := false, frgen := s.fab.frgen + 1, reachAll := true, reach := [] } } : State).reconnect) ∧
    ∀ r : RemoteReq, r ∈ s.remHeld → r.kind ≠ .cumulus → s.waits (.remote r) = false →
      (∀ x ∈ s.remHeld.takeWhile fun y => y ≠ r, heldBehind x r = false) →
      let u : State := { s with remHeld := s.remHeld.erase r }
      (∀ c w o, s.remoteXl r = .fault c w o → exec (.remoteAccessArrive r) s = .next (response u r c w o [])) ∧
      (∀ ob sub va, s.remoteXl r = .miss ob sub va →
        exec (.remoteAccessArrive r) s = .next (s.parkOn (.remote r) r.rctx ob sub 6 (remWr r.kind) r.src va)) ∧
      (∀ d ps, s.remoteXl r = .ok (.da d :: ps) →
        let w : State := (s.energy r.rctx 110000)
        (r.kind = .read → r.op < 256 → (∀ a, .da a ∈ Place.da d :: ps → s.lineFree (a / 128) = true) → exec (.remoteAccessArrive r) s = .next
          (response { w with remHeld := s.remHeld.erase r } r 0 0 0 (s.spanRead (.da d :: ps)))) ∧
        (r.kind = .write → r.op ≠ 1 → (∀ a, .da a ∈ Place.da d :: ps → s.writeRoom (a / 128) = true) → s.filterGet (s.sliceOf d) r.rid = none → s.filterRoom (s.sliceOf d) = true →
          exec (.remoteAccessArrive r) s = .next (response
            { (w.spanWrite (.da d :: ps) r.data).filterAdd d r.rid 0 with remHeld := s.remHeld.erase r } r 0 0 0 [])))

/-- R384: the first message of a send queue that its group lets leave goes: discarded when its device is unreachable, to this
device's own delivery, or as a packet; the oldest message for a ring is appended when the ring is configured, reachable and
has room, its record first and then TAIL (a remote record acknowledged before), and discarded and counted otherwise; bytes of a ring on this device are reached at once. -/
def Sys2Proof.Claims.MessageEvents : Prop :=
  ∀ (s : State),
    (∀ (c : Nat) (e : SendEnt) (g : Group), s.nextSend c = some e → s.grp? e.grp = some g → g.dirtyMask = 0 →
      let t := s.modCore c fun c => { c with sendq := c.sendq.erase e }
      (t.reachable e.msg.dst = false →
        exec (.sendQueueDepart c) s = .next ((t.msgLost e.msg.ctx).sentLane e.grp e.op e.lane)) ∧
      (e.msg.dst = s.fab.dev → exec (.sendQueueDepart c) s = .next
        { t with fab := { t.fab with inbox := t.fab.inbox ++ [{ msg := e.msg, src := some (e.grp, e.op, e.lane) }] } })) ∧
    (∀ (w : Party) n (ps : List Place) bs, (∀ p ∈ ps, ∃ d, p = .da d) →
      s.spanIn w n ps = .ok (s.spanRead ps) ∧ s.spanOut w n ps bs = .ok []) ∧
    ∀ e : InMsg, (s.fab.inbox.find? fun x => x.msg.ctx = e.msg.ctx && x.msg.rq = e.msg.rq) = some e → s.waits (.msg e) = false →
      let m := e.msg
      let c := s.ctx m.ctx
      let x := s.pdXl m.ctx
      (c.ringVa m.rq = 0 ∨ c.en = false → exec (.messageDeliver m) s = .next (discarded s e)) ∧
      (c.ringVa m.rq ≠ 0 → c.en = true →
        (∀ ca w o a, s.span x 3 true (c.ringVa m.rq) 24 = .fault ca w o a → exec (.messageDeliver m) s = .next (discarded s e)) ∧
        ∀ ps bs, s.span x 3 true (c.ringVa m.rq) 24 = .ok ps → s.spanIn (.msg e) m.ctx ps = .ok bs →
          let f (i : Nat) : Nat := leNat ((bs.drop (8 * i)).take 8)
          (2 ^ c.ringLog m.rq ≤ (f 0 + 2 ^ 64 - f 1) % 2 ^ 64 → Appended s s e (ps.drop 16) (leBytes 8 (f 2 + 1))) ∧
          ((f 0 + 2 ^ 64 - f 1) % 2 ^ 64 < 2 ^ c.ringLog m.rq → ∀ qs,
            s.span x 3 true (c.ringVa m.rq + 64 + 32 * (f 0 % 2 ^ c.ringLog m.rq)) 32 = .ok qs →
            let body := leBytes 4 (BitVec.ofNat 32 (m.src % 4096 + m.rq * 4096)).toNat ++
              (m.words.drop 1).flatMap fun w => leBytes 4 w.toNat
            NotAppended s s e qs body ∧ ((∃ x, s.spanOut (.msg e) m.ctx qs body = .ok x) →
              Appended s ((s.spanWrite qs body).spanEnergy m.ctx qs) e (ps.take 8) (leBytes 8 (f 0 + 1)))))

/-- R388 to R392: a collective is handed off once its group's release has ended; it completes when the blocks of the members are
there: the destination is written whole and KTL rises in order; abandoned, nothing of it waits any more, nothing is written and its group takes COL. -/
def Sys2Proof.Claims.CollectiveEvents : Prop :=
  ∀ (s : State) (n c : Nat) (x : Coll), s.coll? n c = some x →
    (∀ g, s.grp? x.grp = some g → x.handed = false → g.released x.opId = true → g.dirtyMask = 0 →
      exec (.collHandoff n c) s = .next (s.modColl n c fun x => { x with handed := true })) ∧
    (∀ why, why = 3 ∨ why = 4 → x.done = false → ∀ g, s.grp? x.grp = some g →
      let f : PFault := { id := x.opId, targets := [], trap :=
        { cause := 0x0D, deferred := true, a := BitVec.ofNat 64 c, pc := x.pc, i := BitVec.ofNat 64 why } }
      exec (.collAbandon n c why) s = .next ((((s.release (.coll n c)).recordFault x.grp g f).modColl n c fun x => { x with done := true }).raiseKtl n)) ∧
    let kind := cf x 3 0 3; let ef := cf x 3 5 4; let count := cf x 2 0 40; let root := cf x 3 15 12
    let cx := s.ctx n; let rank := cx.rank x.comm; let bl := elemBytes ef count
    ∀ peers : List (Nat × List Byte × List Byte), x.handed = true → x.done = false → s.waits (.coll n c) = false → cf x 3 27 1 = 0 →
      (peers.map Prod.fst) = (if kind = 4 then (if rank = root then [] else [root])
        else (List.range (cx.nrank x.comm)).filter fun r => r ≠ rank) →
      (peers.map Prod.fst).Nodup → (∀ p ∈ peers, p.2.1.length = bl ∧ p.2.2 = []) →
      let mine := collSources kind (cx.nrank x.comm) rank root
      ∀ sp, s.collSpans (s.pdXl n) 1 false (mine.map (fun b => (cf x 0 0 52 + b * bl, bl)) ++ mine.map fun _ => (cf x 4 0 52, 0)) = .ok sp →
      ∀ data, s.spanIn (.coll n c) n sp = .ok data →
      let out := collResult kind (cf x 3 3 2) ef count rank root (cx.rankDev x.comm) (fun b => (data.drop (b * bl)).take bl) (peers.map fun p => (p.1, p.2.1))
      ∀ dp, s.collSpans (s.pdXl n) 2 true (out.map fun b => (cf x 1 0 52 + b.1 * bl, bl)) = .ok dp →
      (∃ r, s.spanOut (.coll n c) n dp (out.flatMap Prod.snd) = .ok r) →
      exec (.collComplete n c peers) s = .next ((((((s.spanWrite dp (out.flatMap Prod.snd)).energy n
        (400 * (data.length + (out.flatMap Prod.snd).length))).spanEnergy n (sp ++ dp)).release (.coll n c)).modColl n c fun x => { x with done := true }).raiseKtl n)

namespace Sys2Proof.Claims

/-- The bytes of device memory and of its newer copies are kept in their canonical form. -/
structure Canonical (s : State) : Prop where
  mem : memWf s.mem = true
  dirty : (s.home.dirty.map Prod.fst).Pairwise (· < ·)

/-- An access may be performed now (R8, R189, R190, R306, R317, R354): it is the group's, translated, not held by an earlier one, its
lines free, within its die's reach and with room in the die cache, nothing to flush, all its lanes on this device. -/
structure Performs (s : State) (k : Nat) (g : Group) (o : Op) : Prop where
  grp : s.grp? k = some g
  op : g.op? o.id = some o
  live : s.live g = true
  may : g.mayPerform o = true
  flush : g.mustFlush o = false
  here : ∀ a ∈ o.accs, ∀ p ∈ a.places, (∃ d, p = .da d) ∨ (∃ w, p = .wgm w) ∨ p = .gone
  ok : ∀ a ∈ o.accs, a.bad = none ∧ a.lfault = none
  ready : s.linesReady g o.lines = true
  park : g.parkedToTake = false

/-- The word of the last lane, in their order, that stores to a place: the byte and the place. -/
def stored (o : Op) (p : Place) : Option Byte :=
  ((o.accs.flatMap fun a => a.places.zip a.data).reverse.find? fun q => q.1 = p).map Prod.snd

end Sys2Proof.Claims

/-- R188 to R190, R199: a load returns: its registers take the bytes its lanes read, it is finished, an acquire of DIE scope or
wider empties the L1, and no byte of memory changes; past the L1, a byte read is the memory's. -/
def Obligations.LoadReturns : Prop :=
  ∀ (s : State) (k : Nat) (g : Group) (o : Op) (size : Nat) (sx : Bool), Performs s k g o → o.kind = .load size sx →
    let u := o.lines.foldl (fun t l => t.prepLine g.core g.die o.l1 l) (s.served g o fun st => st ≠ .I)
    let h := g.writeWords o.dst (o.accs.map fun a =>
      (a.reg, a.lane, wordsOf size sx (a.places.zipIdx.map fun p => u.readPlace g o.l1 a p.2 p.1)))
    let t := (if o.acq = true ∧ 1 ≤ o.scope then u.l1Clear g.core else u).setGrp k (h.finishOp o.id)
    exec (.loadReturn k o.id) s = .next t ∧
    (Canonical s → (∀ b, t.rdByte b = s.rdByte b) ∧
      ∀ a i d, o.l1 = 1 → u.readPlace g o.l1 a i (.da d) = s.rdByte d) ∧
    (∀ w, s.wg? g.wg = some w → ∀ a i c, u.readPlace g o.l1 a i (.wgm c) = memRead w.wgm c)

/-- R188, R190, R199: a store is performed: it is finished, every byte of device memory that its lanes store to reads as the
last of them in lane order stored it, and every other byte reads as before. -/
def Obligations.StoresPerformed : Prop :=
  ∀ (s : State) (k : Nat) (g : Group) (o : Op), Performs s k g o → o.kind = .store → (∀ l ∈ o.lines, s.storeRoom l = true) →
    Canonical s →
    ∃ t, exec (.storePerformed k o.id) s = .next t ∧ t.grp? k = some (g.finishOp o.id) ∧
      (∀ j, j ≠ k → t.grp? j = s.grp? j) ∧ ∀ b, t.rdByte b = (stored o (.da b)).getD (s.rdByte b)

/-- R196, R227, R268, R269: a waiting access whose service has ended is translated again: on its way, or a deferred fault of its
registers; a `barv` arrival counts once the group's earlier accesses are performed. -/
def Obligations.RetriesAndReleases : Prop :=
  ∀ (s : State) (k : Nat) (g : Group) (o : Op), s.grp? k = some g → g.op? o.id = some o →
    (s.live g = true → o.performed = false → o.wait ≠ .flight → o.again = 1 → g.againBefore o = false →
      (∃ n sx, o.kind = .load n sx) ∨ o.kind = .store → (∀ p ∈ g.ops, p.unit = o.unit → p.id ≤ o.id) →
      (∀ accs, s.decideOp g o = .ok accs → (∀ a ∈ accs, a.remote = none) →
        exec (.waitingTableRetry k o.id) s = .next ((s.useCaches g o).setGrp k (g.modOp o.id fun _ =>
          s.fixKind g { o with accs := accs, wait := .flight, again := 0, keeps := [] }))) ∧
      ∀ t, s.decideOp g o = .fault t → exec (.waitingTableRetry k o.id) s = .next (s.recordFault k (g.endUnit o)
        { id := o.id, unit := o.unit, trap := t, targets := g.targetsOf o })) ∧
    ∀ (w : Workgroup) (b : TxBar), o.kind = .barvRel → (g.before o).any Op.isAcc = false → s.wg? g.wg = some w →
      (w.bars.find? fun b => b.aid = (regGet o.arg 0).toNat) = some b →
      exec (.barvReleaseDone k o.id) s = .next (((s.setGrp k (g.finishOp o.id)).setWg g.wg
        (({ w with barvRel := w.barvRel.filter fun r => !(r.1 = k && r.2.1 = o.id) } : Workgroup).barDone b)).syncWake)

namespace Sys2Proof.Claims

/-- Entry of queue n. -/
def depthOf (g : Group) (n : Nat) : Nat := (g.queues.getD n {}).depth
/-- Occupancy of queue n, reserved entries counted. -/
def occOf (g : Group) (n : Nat) : Nat := (g.queues.getD n {}).ents.length
/-- Occupancy after the unit's pops. -/
def poppedOf (g : Group) (src : List Nat) (peek : Bool) (n : Nat) : Nat := occOf g n - if n ∈ src ∧ peek = false then 1 else 0

/-- Only these parts of the machine may differ after a unit of group `k` that touches registers alone: the group's own entry, the
core's pipes and count of units, the context's energy, the record of what issued. -/
structure Elsewhere (s t : State) (k : Nat) (g : Group) : Prop where
  byte : ∀ a, t.rdByte a = s.rdByte a
  grps : ∀ j, j ≠ k → t.grp? j = s.grp? j
  wgs : t.wgs = s.wgs
  home : t.home = s.home
  dies : t.dies = s.dies
  fab : t.fab = s.fab
  core : ∃ pipes units divs, t.core g.core = { s.core g.core with pipes := pipes, units := units, divs := divs }
  cores : ∀ c, c ≠ g.core → t.core c = s.core c
  ctx : ∃ e pj, t.ctx g.ctx = { s.ctx g.ctx with enrg := e, enrgPj := pj }
  ctxs : ∀ n, n ≠ g.ctx → t.ctx n = s.ctx n
  dev : t.dev = s.dev

/-- Of a group's vector registers, queues and handler registers only these differ: the destination, and the queues that the sources or
the destination name (R96). -/
def OnlyVector (g : Group) (src : List VFld) (d : VFld) (v : NMap Lanes) (q : List QReg) (h : NMap Lanes) : Prop :=
  (∀ n, n ∉ queuesOf (src ++ [d]) → q.getD n {} = g.queues.getD n {}) ∧ (96 ≤ d.val → v = g.vreg) ∧ (d.val < 112 → h = g.h) ∧
  (∀ n, d.val < 96 → n ≠ g.wb + d.val → mapGet? v n = mapGet? g.vreg n) ∧
  ∀ n, 112 ≤ d.val → n ≠ d.val - 112 → mapGet? h n = mapGet? g.h n

/-- The register files of a group have their sizes (R34, R105, R123). -/
structure Files (g : Group) : Prop where
  s : g.s.length = 64
  p : g.p.length = 16
  bank : g.bank.length = 8

/-- A trap of group `g` at its PC that resumes there, in entered form (R105): a precise trap (R103). -/
def precise (g : Group) (s : State) (cause : Nat) (a i : DWord) : Group := entered g s cause a g.pc i g.pc

/-- The base word of an instruction, as TRAPI holds it (R103). -/
def baseOf (i : Instr) : DWord := ((encode i).getLastD 0).setWidth 64

/-- A unit as its issue sees it: whether it is a fault point (R104), the registers it reads and writes, its vector sources. -/
structure Seen where
  unit : Instr
  fp : Bool
  rd : List Dst
  wr : List Dst
  vr : List VFld

/-- Fields of operands of `barred`: three scalar registers, a predicate, vector fields, small numbers, offsets. -/
structure Fields where
  (a b d : SReg)
  p : PReg
  (v : VFld)
  (f : Fin 64) (m n : Fin 16) (w : Fin 128) (t : Fin 8) (q : Fin 4)
  neg : Bool
  o : BitVec 18
  r : BitVec 20
  y : YPre

/-- The units that trap HND in handler mode (R106). -/
noncomputable def barred (g : Group) (x : Fields) : List Seen :=
  let s (r : SReg) : Dst := g.sDst r.val
  let a := s x.a
  let b := s x.b
  let d := s x.d
  let eight := (List.range 8).map fun i => g.sDst (x.a.val + i)
  let v8 := fieldsFrom x.v 8
  [⟨.call x.f x.o, true, [], [], []⟩, ⟨.calli x.a x.m, true, [a], [], []⟩, ⟨.ret, true, [], [], []⟩, ⟨.winb x.w, false, [], [], []⟩,
   ⟨.vjoin x.r, true, [], [], []⟩, ⟨.vbr x.p x.neg x.r, true, [.p x.p.val], [], []⟩, ⟨.vsync, true, [], [], []⟩,
   ⟨.qcfg x.m x.w, false, [], [], []⟩, ⟨.qrst x.a, false, [a], [], []⟩, ⟨.sleep x.a, false, [a], [], []⟩, ⟨.yield, false, [], [], []⟩,
   ⟨.mts 3 x.a, false, [a], [], []⟩, ⟨.mwait x.y x.d x.a x.b, false, [a, b], [d, .p (x.y.e.val % 16)], []⟩,
   ⟨.cpy x.d x.a x.t, false, eight, [d], []⟩, ⟨.cpyb x.d x.a x.t, false, eight, [d], []⟩, ⟨.cpyt x.d x.a x.t, false, eight, [d], []⟩,
   ⟨.cpyx x.d x.a x.t, false, eight, [d], []⟩, ⟨.gath x.d x.a x.t, false, eight, [d], []⟩, ⟨.scat x.d x.a x.t, false, eight, [d], []⟩,
   ⟨.scata x.d x.a x.t, false, eight, [d], []⟩] ++
  [⟨.mma x.d x.a, false, eight.take 2, [d], []⟩, ⟨.mxloop x.d x.a, false, eight.take 4, [d], []⟩,
   ⟨.mxzero x.d x.a, false, eight.take 1, [d], []⟩, ⟨.mxrel x.d x.a, false, eight.take 1, [d], []⟩, ⟨.mxcfg x.a, false, [a], [], []⟩,
   ⟨.tld x.v x.a, false, [a], [g.vDst x.v], []⟩, ⟨.tst x.v x.a, false, [g.vReg x.v, a], [], [x.v]⟩,
   ⟨.balloc x.d x.p x.b, false, [b], [d, .p x.p.val], []⟩, ⟨.bfree x.a, false, [a], [], []⟩, ⟨.barv x.d x.a, false, [a], [d], []⟩,
   ⟨.barw x.a x.b, true, [a, b], [], []⟩, ⟨.barx x.a x.b, false, [a, b], [], []⟩, ⟨.bar, true, [], [], []⟩, ⟨.barPx, true, [], [], []⟩,
   ⟨.semaAdd x.a x.b, false, [a, b], [], []⟩, ⟨.semaSet x.a x.b, false, [a, b], [], []⟩, ⟨.semw x.a x.b, true, [a, b], [], []⟩,
   ⟨.tlrd x.d x.a, false, [a], [d], []⟩, ⟨.tlwait x.a x.b, true, [a, b], [], []⟩, ⟨.waitk x.m x.n, true, [], [], []⟩,
   ⟨.waitr x.q x.a, true, [a], [], []⟩] ++
  [⟨.sendh x.v, false, v8.map g.vReg, [], v8⟩, ⟨.recvq x.v x.a x.p, false, [a, .p x.p.val], v8.map g.vDst ++ [.p x.p.val], []⟩,
   ⟨.peerq x.p x.v x.q, false, [g.vReg x.v, .p x.p.val], [.p x.p.val], [x.v]⟩, ⟨.coll x.d x.a, false, eight, [d], []⟩,
   ⟨.launch x.d x.a, false, [a], [d], []⟩, ⟨.preempt x.d x.a x.b, false, [a, b], [d], []⟩, ⟨.resume x.d x.a x.b, false, [a, b], [d], []⟩,
   ⟨.cfgrd x.d x.a, false, [a], [d], []⟩, ⟨.cfgwr x.a x.b, false, [a, b], [], []⟩]

/-- Nothing of the group or of its workgroup keeps a unit from being accepted (R82): no access, matrix unit or copy is under way, its
core's send queue is empty, its semaphores have their registers. -/
structure AtRest (s : State) (g : Group) : Prop where
  ops : g.ops = []
  mxq : g.mxq = []
  sendq : (s.core g.core).sendq = []
  wg : ∃ w, s.wg? g.wg = some w ∧ w.copies = [] ∧ ∀ n < 64, (mapGet? w.semas n).isSome = true

/-- `mts` numbers that no group may write (R125). -/
def readOnly : List SpecReg := [0x04, 0x05, 0x06, 0x07, 0x08, 0x0F, 0x10, 0x11, 0x12, 0x15, 0x16, 0x17, 0x18, 0x1D, 0x1E, 0x22]

end Sys2Proof.Claims

/-- R32, R35, R36, R90, R96, R136: which lanes are active; what a crossbar pattern selects; what an operand field reads; what a
write of a window register or a queue leaves. -/
def Obligations.VectorOperands : Prop :=
  ∀ (g : Group) (x : Pfx) (i : Nat), i < 64 →
    (laneBit (activeMask x g) i = (laneBit g.exm i && match x.x with
      | some y => !y.g || (laneBit (g.readP y.pred.val) i != y.neg)
      | none => true)) ∧
    (∀ c : Fin 512, xbarOk c = true → let n := c.val % 64
      xbarLane c i = (if c.val / 64 = 0 then some i else if c.val / 64 = 1 then some ((i + n) % 64) else if c.val / 64 = 2 then some n
        else if c.val / 64 = 3 then some (i ^^^ n)
        else if c.val / 64 = 4 then some ((i &&& (63 - (2 ^ n - 1))) + (2 ^ n - 1 - i % 2 ^ n))
        else if c.val / 64 = 5 then (if i + n ≤ 63 then some (i + n) else none) else if n ≤ i then some (i - n) else none) ∧
      ∀ j, xbarLane c i = some j → j < 64) ∧
    ∀ f : VFld,
      (f.val < 96 → g.src f i = if g.low ≤ g.wb + f.val ∧ g.wb + f.val < g.high then laneGet (mapGet g.vreg (g.wb + f.val) []) i else 0) ∧
      (96 ≤ f.val → f.val < 112 → g.src f i = ((g.queues.getD (f.val - 96) {}).ents.head?.map fun e => laneGet e.lanes i).getD 0) ∧
      (112 ≤ f.val → g.src f i = if g.inH then laneGet (mapGet g.h (f.val - 112) []) i else (g.readS (f.val - 112)).setWidth 32) ∧
      ∀ (m : DWord) (v : Nat → Word),
        (∀ d : VFld, d.val < 96 → f.val < 96 → g.low ≤ g.wb + d.val → g.wb + d.val < g.high →
          (g.writeF d m v).src f i = if f = d ∧ laneBit m i = true then v i else g.src f i) ∧
        (96 ≤ f.val → f.val < 112 → g.queues.length = 16 →
          ((g.writeF f m v).queues.getD (f.val - 96) {}).ents = (g.queues.getD (f.val - 96) {}).ents ++
            (if m = 0 then [] else [{ lanes := lanesOf fun j => if laneBit m j then v j else 0, filled := false }]) ∧
          ∀ n, n ≠ f.val - 96 → (g.writeF f m v).queues.getD n {} = g.queues.getD n {})

/-- R97: the queue checks are made before any effect, a queue that is not configured first, then underflow, then overflow, in each
the lowest queue; a unit without an active lane makes only the first. A failed check traps QUE with its TRAPA and the queue's
number in TRAPI. Sources that name one queue pop it once, and not under PEEK. -/
def Obligations.QueueRules : Prop :=
  (∀ (g : Group) (src dst : List Nat) (peek act : Bool),
    let bad3 (n : Nat) : Prop := n ∈ src ++ dst ∧ depthOf g n = 0
    let bad0 (n : Nat) : Prop := act = true ∧ n ∈ src ∧ occOf g n = 0
    let bad1 (n : Nat) : Prop := act = true ∧ n ∈ dst ∧ depthOf g n ≤ poppedOf g src peek n
    (queueCheck g src dst peek act = none ↔ ∀ n < 16, ¬ bad3 n ∧ ¬ bad0 n ∧ ¬ bad1 n) ∧
    ∀ n < 16,
      (queueCheck g src dst peek act = some (3, n) ↔ bad3 n ∧ ∀ m < n, ¬ bad3 m) ∧
      (queueCheck g src dst peek act = some (0, n) ↔ bad0 n ∧ (∀ m < 16, ¬ bad3 m) ∧ ∀ m < n, ¬ bad0 m) ∧
      (queueCheck g src dst peek act = some (1, n) ↔ bad1 n ∧ (∀ m < 16, ¬ bad3 m ∧ ¬ bad0 m) ∧ ∀ m < n, ¬ bad1 m)) ∧
  (∀ (x : Pfx) (s : State) (k : Nat) (g : Group) (d a b : VFld) (c n : Nat), Ready s k g → CanEnter s g → c < 4 → n < 16 →
    Quiet g ([g.vReg a, g.vReg b] ++ match x.x with | some y => if y.g then [.p y.pred.val] else [] | none => []) [g.vDst d] →
    headsFilled g (queuesOf [a, b]) = true → queueCheck g (queuesOf [a, b]) (queuesOf [d]) x.peek (activeMask x g ≠ 0) = some (c, n) →
    (∀ e ∈ vecTwo, exec (e.1 x d a b) s = .next (s.setGrp k
      { entered g s 3 (BitVec.ofNat 64 c) g.pc (BitVec.ofNat 64 n) g.pc with qtr := n, qwh := c })) ∧
    ∀ e ∈ floatTwo, exec (e.1 x d a b) s = .next (s.setGrp k
      { entered g s 3 (BitVec.ofNat 64 c) g.pc (BitVec.ofNat 64 n) g.pc with qtr := n, qwh := c })) ∧
  ∀ (g : Group) (x : Pfx) (src : List VFld) (n : Nat), ((pastV g x src).queues.getD n {}).ents =
    if x.peek = true ∨ activeMask x g = 0 ∨ n ∉ queuesOf src then (g.queues.getD n {}).ents else (g.queues.getD n {}).ents.drop 1

/-- R44, R97, R103, R104, R106, R109, R114, R115, R117, R120, R125: at issue, in their order: a recorded fault is taken at a fault
point, whatever the mode and also where the unit is barred; a ready unit that is barred is a context fault HND in handler mode, also
where a recorded fault stands and the unit is no fault point, and also where it lacks privilege (barred before privileged, LE 16,
DEDUCED); a privileged unit without privilege traps PRIV, also past a recorded fault; then the unit's own checks: branch targets, the
return of `rte`, limits of the window and the queues, special registers that may not be written. -/
def Obligations.IssueTraps : Prop :=
  ∀ (s : State) (k : Nat) (g : Group), Ready s k g → s.dieWaits g = false →
    (∀ f l, g.takable = f :: l → g.lowerDone f = true → ∀ (o : BitVec 18) (w : Fin 32),
      let t := s.takeTrap k { g with faults := g.faults.erase f } { f.trap with deferred := true, resume := g.pc }
      exec (.bra o) s = .next t ∧ exec (.wait w w w w) s = .next t ∧ exec .exit s = .next t ∧
        ∀ (x : Fields) (e : Seen), e ∈ barred g x → e.fp = true → exec e.unit s = .next t) ∧
    (g.inH = true → AtRest s g → ∀ (x : Fields) (e : Seen), e ∈ barred g x → Quiet g e.rd e.wr → headsFilled g (queuesOf e.vr) = true →
      (e.fp = true → g.takable = []) →
      exec e.unit s = .next (s.contextFault k g { cause := 0x13, a := 0, pc := g.pc, i := baseOf e.unit })) ∧
    (CanEnter s g → s.sysCtx g.ctx = false → g.counter .ld ≤ 254 → g.counter .st ≤ 254 → ∀ (a b d : SReg),
      Quiet g [g.sDst a.val, g.sDst b.val] [g.sDst d.val] →
      ∀ i ∈ [Instr.preempt d a b, .resume d a b, .cfgrd d a, .cfgwr a b], exec i s = .next (s.setGrp k (precise g s 2 0 (baseOf i)))) ∧
    (g.takable = [] → ∀ (a : SReg),
      (g.inH = true → ¬ ((regGet g.bank 7).toNat % 4 = 0 ∧ (regGet g.bank 7).toNat < 2 ^ 52) →
        exec .rte s = .next ((s.contextFault k g { cause := 0x13, a := 0, pc := g.pc, i := baseOf .rte }).paid g { pipe := 0, cls := 1 })) ∧
      (CanEnter s g →
        (exec .rte s = .next (s.setGrp k (precise g s 1 0 (baseOf .rte)))) ∧
        (dstMeet [g.sDst a.val] g.pending = false →
          ((g.readS a.val).toNat % 4 ≠ 0 →
            exec (.jmpi a) s = .next (s.setGrp k (precise g s 4 (g.readS a.val) (baseOf (.jmpi a)))) ∧
            ∀ m, exec (.calli a m) s = .next (s.setGrp k (precise g s 4 (g.readS a.val) (baseOf (.calli a m))))) ∧
          (∀ r ∈ readOnly, exec (.mts r a) s = .next (s.setGrp k (precise g s 1 0 (baseOf (.mts r a))))) ∧
          exec (.mts 0x1F a) s = .next (s.setGrp k (precise g s 2 0 (baseOf (.mts 0x1F a))))) ∧
        (∀ m : Fin 128, (g.wb : Int) + 8 * sextNat 7 m.val < 0 ∨ 16384 < (g.wb : Int) + 8 * sextNat 7 m.val + 96 →
          exec (.winb m) s = .next (s.setGrp k (precise g s 0x0E 0 g.spc.bits))) ∧
        (4096 ≤ g.ret.length + g.retSp → ∀ (f : Fin 64) (o : BitVec 18), (target g o.toInt).toNat % 4 = 0 →
          exec (.call f o) s = .next (s.setGrp k (precise g s 0x0E 0 g.spc.bits))) ∧
        ∀ (q : Fin 16) (n : Fin 128), g.n - 96 < g.qtot - depthOf g q.val + n.val → exec (.qcfg q n) s =
          .next (s.setGrp k { precise g s 3 2 (BitVec.ofNat 64 q.val) with qtr := q.val, qwh := 2 })))

/-- R104, R106 to R108: a trap of a group in handler mode is the context fault HND with the nested cause, one without a handler is
a context fault itself: the group halts, its context stops with what the trap would have set, its engine work is discarded; a
second one adds nothing. A group whose partition's bank is held, or waited for, waits for it with its trap. A group of a context
that a fault has stopped halts without entering its handler, and so does one whose context's DIE trap has been entered (R27). -/
def Obligations.TrapOutcomes : Prop :=
  ∀ (s : State) (k : Nat) (g : Group) (t : Trap), g.park = 0 → g.woken = false → g.parkArg = [] → g.exiting = false → g.flaWait = false →
    ((s.ctx g.ctx).stop = .running →
      (g.inH = true → s.takeTrap k g t =
        s.contextFault k g { cause := 0x13, a := BitVec.ofNat 64 t.cause, pc := t.pc, i := t.i }) ∧
      (g.inH = false → g.handler = 0 → s.takeTrap k g t = s.contextFault k g t) ∧
      (g.inH = false → g.handler ≠ 0 →
        (∃ j, s.bankHolder g.core (partOfSlot g.slot) = some j) ∨ s.bankWaiters g.core (partOfSlot g.slot) ≠ [] →
        (s.takeTrap k g t).grp? k = some { g with bankWait := some t, bankOrder := (s.core g.core).bankSeq } ∧
        (∀ a, (s.takeTrap k g t).rdByte a = s.rdByte a) ∧ ∀ i, i ≠ k → (s.takeTrap k g t).grp? i = s.grp? i)) ∧
    (∀ n f w l p, (s.ctx g.ctx).stop = .faulted n f w l p →
      s.takeTrap k g t = s.setGrp k { g with halted := true, bankWait := none }) ∧
    (∀ n l p, (s.ctx g.ctx).stop = .die n l true p → g.inDie = false →
      s.takeTrap k g t = s.setGrp k { g with halted := true, bankWait := none }) ∧
    let u := s.contextFault k g t
    (∀ a, u.rdByte a = s.rdByte a) ∧ (∀ j h, j ≠ k → h.ctx ≠ g.ctx → s.grp? j = some h → u.grp? j = some h) ∧
    ((s.ctx g.ctx).stop = .running → (u.ctx g.ctx).stop = .faulted s.dev.tns t g.wgid g.slot false ∧
      u.grp? k = some { g with halted := true, mxq := [] }) ∧
    ((s.ctx g.ctx).stop ≠ .running → u = s.setGrp k { g with halted := true })

/-- The frame of the units that touch registers alone (R129, R139, R144, R148): no byte of memory, no other group, workgroup, die,
core or context changes; of the group only the PC, and what the unit writes: its destination, the queues that its operands name, and
of MODE the sticky flags of R164, which only rise. -/
def Obligations.RegisterUnitsFrame : Prop :=
  (∀ (d a b : SReg) (s : State) (k : Nat) (g : Group), Ready s k g → Quiet g [g.sDst a.val, g.sDst b.val] [g.sDst d.val] →
    ∀ e ∈ scalarThree, ∃ t l m, exec (e.1 d a b) s = .next t ∧ Elsewhere s t k g ∧
      t.grp? k = some { past g 1 with s := l, bank := m } ∧
      (∀ n, n ≠ d.val → regGet l n = regGet g.s n) ∧ ∀ n, n + 56 ≠ d.val → regGet m n = regGet g.bank n) ∧
  ∀ (x : Pfx) (s : State) (k : Nat) (g : Group) (d a b : VFld) (p : PReg),
    (ReadyV s k g x [a, b] [d] [g.vReg a, g.vReg b] [g.vDst d] →
      (∀ e ∈ vecTwo, ∃ t v q h, exec (e.1 x d a b) s = .next t ∧ Elsewhere s t k g ∧
        t.grp? k = some { past g x.len with vreg := v, queues := q, h := h } ∧
        OnlyVector g [a, b] d v q h) ∧
      ∀ e ∈ floatTwo, ∃ t v q h c, exec (e.1 x d a b) s = .next t ∧ Elsewhere s t k g ∧
        t.grp? k = some { past g x.len with vreg := v, queues := q, h := h, mode := c } ∧
        OnlyVector g [a, b] d v q h ∧ ∀ i, (g.mode.getLsbD i = true → c.getLsbD i = true) ∧
          (i < 5 ∨ 9 < i → c.getLsbD i = g.mode.getLsbD i)) ∧
    (ReadyV s k g x [a, b] [] [g.vReg a, g.vReg b, .p p.val] [.p p.val] →
      ∀ e ∈ vecCmp, ∃ t l q, exec (e.1 x p a b) s = .next t ∧ Elsewhere s t k g ∧
        t.grp? k = some { past g x.len with p := l, queues := q } ∧ (∀ n, n ≠ p.val → regGet l n = regGet g.p n) ∧
        ∀ n, n ∉ queuesOf [a, b] → q.getD n {} = g.queues.getD n {})

/-- The frame of the issue of a load or a store (R188 to R191): no byte of memory changes (a store's bytes change when it is
performed, by the statement StoresPerformed), no other group, and of the group only the PC, its queues, its operations and its
recorded faults. -/
def Obligations.AccessIssueFrame : Prop :=
  ∀ (x : Pfx) (m : MFld) (s t : State) (k : Nat) (g : Group),
    let same (i : Instr) : Prop := exec i s = .next t → (∀ a, t.rdByte a = s.rdByte a) ∧ (∀ j, j ≠ k → t.grp? j = s.grp? j) ∧
      t.wgs = s.wgs ∧ ∃ q o f, t.grp? k = some { past g x.len with queues := q, ops := o, faults := f }
    (∀ e ∈ loads, ReadyM s k g x (offset m) (regs m.d e.2.2.2.2.1) ((offset m).map g.vReg ++ [g.sDst m.sb.val])
      ((regs m.d e.2.2.2.2.1).map g.vDst) → g.counter .ld ≤ 254 → same (e.1 x m)) ∧
    ∀ e ∈ stores, let src := offset m ++ if e.2.2.2 = 8 then [] else sources g m.d e.2.2.2
      ReadyM s k g x src [] (src.map g.vReg ++ (if e.2.2.2 = 8 then (pairFields g m.d).map g.vReg else []) ++ [g.sDst m.sb.val]) [] →
      g.counter .st ≤ 254 → same (e.1 x m)

/-- R185, R186, R191, R205, R221: an access is decided whole before it has any effect: the first lane that faults is the fault, with
its cause, address and information, but in a unit with a remote lane it stays with its lane until the remote ones have answered (DEDUCED, LE 55); a
lane that a failed service has faulted keeps its fault; a miss counts only when no lane faults; a misaligned lane is ALN; a WGM lane beyond the workgroup's size is OOS; an atomic's lane in
a window is OBJ. -/
def Obligations.AccessDecision : Prop :=
  ∀ (s : State) (g : Group) (o : Op),
    let taken (a : LaneAcc) : LaneAcc := { a with spots := s.laneSpots g o a }
    let res (a : LaneAcc) : LRes := s.laneRes g o a
    (∀ a, (a.lfault = none → res a = s.resolve g o a) ∧ ∀ c v i, a.lfault = some (c, v, i) → res a = .fault c v i) ∧
    ((∀ a ∈ o.accs, ∃ ps, res a = .ok ps) → ∃ l, s.decideOp g o = .ok l ∧ l.length = o.accs.length ∧
      ∀ i (h : i < o.accs.length), ∃ ps, res o.accs[i] = .ok ps ∧ l[i]? = some { taken o.accs[i] with places := ps }) ∧
    (∀ l a r c v i, o.accs = l ++ a :: r → (∀ b ∈ l, (res b).isFault = false) → res a = .fault c v i →
      (∀ b ∈ o.accs, (res b).remote = false) →
      s.decideOp g o = .fault { cause := c, deferred := true, a := v, pc := o.pc, i := i }) ∧
    (∀ i (h : i < o.accs.length) c v x, res o.accs[i] = .fault c v x → o.isAgg = false →
      (∃ b ∈ o.accs, (res b).remote = true) → (∀ b ∈ o.accs, (res b).waits = false) →
      ∃ l, s.decideOp g o = .ok l ∧ l[i]? = some { o.accs[i] with places := [], lfault := some (c, v, x) }) ∧
    (∀ l a r ob sub va, o.accs = l ++ a :: r → (∀ b ∈ o.accs, (res b).isFault = false) →
      (∀ b ∈ l, (res b).waits = false) → res a = .miss ob sub va →
      s.decideOp g o = .miss (s.partly g o) ob sub va) ∧
    ∀ a : LaneAcc, o.multi = none → o.maj ≠ 21 → let va := a.va.toNat
      (va % o.align ≠ 0 → s.resolve g o a = .fault 4 a.va (BitVec.ofNat 64 a.lane)) ∧
      (va % o.align = 0 → o.maj = 20 → ∀ w, s.wg? g.wg = some w →
        (w.wgmw * 32768 < va + o.size → s.resolve g o a = .fault 7 a.va (BitVec.ofNat 64 a.lane)) ∧
        (va + o.size ≤ w.wgmw * 32768 → s.resolve g o a = .ok ((List.range o.size).map fun i => .wgm (va + i)))) ∧
      (va % o.align = 0 → o.maj = 18 ∨ o.maj = 19 → 0xF000000000000 ≤ va → va < 0xF200000000000 →
        s.resolve g o a = .fault 5 a.va (BitVec.ofNat 64 a.lane))

/-- R28, R45, R46 and the step (the model's LE 1): with nothing on the agenda, the next agent that the cycle under way lets issue
runs the instruction that the words at its PC decode to, the words being now in its core's instruction cache; words that are no
unit are an illegal word, words that cannot be fetched a fetch fault; with no agent left the cycle is over; an event of the
agenda comes first; a device that holds reset takes a cold reset only. -/
def Obligations.StepRunsTheDecodedInstruction : Prop :=
  ∀ (s : State),
    (s.dev.reset = false → s.agenda = [] →
      (∀ (k : Nat) (g : Group) r, s.plan = .grp k :: r → s.grp? k = some g →
        let u : State := { s with cur := .grp k, plan := r, stalled := false }
        (∀ ws, u.fetchGrp g = .ok ws →
          (∀ i n, decode g.inH ws = .ok (i, n) → step s = exec i (u.fillI g ws)) ∧
          ∀ e, decode g.inH ws = .error e → step s = exec (.illegalWord e.word) (u.fillI g ws)) ∧
        ((∀ ws, u.fetchGrp g ≠ .ok ws) → step s = exec .fetchFault u) ∧
        ∀ ps, u.xlate (u.xl g) 4 false true g.pc.toNat 4 = .ok ps → (u.core g.core).icache = [] →
          let w : Word := BitVec.ofNat 32 (leNat (u.spanRead ps))
          w.toNat / 2 ^ 27 < 30 → u.fetchGrp g = .ok [w]) ∧
      (∀ r, s.plan = .stratus :: r → s.sgrp.pc.toNat + 4 ≤ 0x200000 →
        let w : Word := BitVec.ofNat 32 (leNat (memReadBytes s.str.code s.sgrp.pc.toNat 4))
        w.toNat / 2 ^ 27 < 30 → ∀ i n, decode s.sgrp.inH [w] = .ok (i, n) →
          step s = exec i { s with cur := .stratus, plan := r, stalled := false }) ∧
      (s.plan = [] → step s = .next s.turnOver)) ∧
    (s.dev.reset = false → ∀ i r, s.agenda = i :: r →
      (encode i = [] → step s = exec i { s with agenda := r, turn := 0, tried := 0 }) ∧
      (encode i ≠ [] → step s = .next { s with agenda := r })) ∧
    (s.dev.reset = true → s.agenda.head? ≠ some .coldReset → step s = .fault .holdsReset)

/-- The encodings that the spec works out (R36, R130 to R134): each word decodes to the instruction it stands for. -/
def Obligations.WorkedEncodings : Prop :=
  ∀ e ∈ [([0x1870E141#32], (Instr.ssub 7 7 5)), ([0xF0C00000#32, 0x189142DB#32], .ssel 9 10 11 (some 12)),
      ([0x204083F8#32], .saddi 4 4 (-8)), ([0x2060B003#32], .sshli 6 5 3), ([0x28512345#32], .sli 5 0x12345),
      ([0x3056789A#32], .slih 5 0x6789A), ([0x40822000#32], .mfs 8 0x11), ([0x4000A001#32], .mts 0 5),
      ([0xE7FFFF80#32], .wait 31 31 31 31)],
    decode false e.1 = .ok (e.2, e.1.length) ∧ encode e.2 = e.1

/-- R28, R35 to R39, R45, R129 to R135: every legal unit of majors 0 to 8, encoded, decodes to itself whatever words follow, in
handler mode and outside it. -/
def Obligations.RoundTripScalar : Prop :=
  ∀ (h : Bool) (i : Instr) (m : Nat) (rest : List Word), (encode i).getLast?.map majOf = some m → m ≤ 8 → wellFormed h i = true →
    decode h (encode i ++ rest) = .ok (i, (encode i).length)

/-- The same of majors 9 to 15, the vector units with their prefixes. -/
def Obligations.RoundTripVector : Prop :=
  ∀ (h : Bool) (i : Instr) (m : Nat) (rest : List Word), (encode i).getLast?.map majOf = some m → 9 ≤ m → m ≤ 15 →
    wellFormed h i = true → decode h (encode i ++ rest) = .ok (i, (encode i).length)

/-- The same of majors 16 to 28: memory, engines, fabric, management, wait. -/
def Obligations.RoundTripEngines : Prop :=
  ∀ (h : Bool) (i : Instr) (m : Nat) (rest : List Word), (encode i).getLast?.map majOf = some m → 16 ≤ m →
    wellFormed h i = true → decode h (encode i ++ rest) = .ok (i, (encode i).length)

/-- The memory keeps its canonical form (addresses strictly rising, no zero byte listed: the model's form of it, LE 6) over every
step of every state. -/
def Obligations.MemoryStaysCanonical : Prop :=
  ∀ s t : State, step s = .next t → memWf s.mem = true → memWf t.mem = true

/-- What reset leaves, where the spec states it, and memory that reads zero, which the spec states at boot step 6 only (the model's
choice, LE 6) (R86, R87, R89, R342, R352, R358, R371, R400, R401, R402): nothing resident,
BOOTST.STEP 1 and not READY, PWCFG and PCAP, the counts at zero, RC C1, the sequencer's, context's, router's and port's
registers at their reset values; and the memory is canonical. -/
def Obligations.ResetLeaves : Prop :=
  let s := State.reset
  s.groups = [] ∧ (s.groups.map Prod.fst).Pairwise (· < ·) ∧ Files s.sgrp ∧ s.wgs = [] ∧ (∀ a, s.rdByte a = 0) ∧ memWf s.mem = true ∧
  s.dev.bootStep = 1 ∧ s.dev.bootReady = false ∧ s.dev.memOpen = false ∧ s.dev.shape = true ∧ s.dev.lven = true ∧ s.dev.lvthr = 75 ∧
  s.dev.lvext = 50 ∧ s.dev.lvwin = 5 ∧ s.dev.pcap = 6000 ∧ s.dev.penrg = 0 ∧
  (∀ c, let v := s.core c
    v.cyc = 0 ∧ v.rc = 1 ∧ v.clsq = 4 ∧ v.clsw = 64 ∧ v.clsh = 32 ∧ v.hwdt = 10000 ∧ v.sptmr = 4 ∧ v.lvEntries = 0 ∧
    (s.cluster c).clidle = 50 ∧ (s.die c).aget = 1000 ∧ (s.ctx c).slice = 20 ∧ (s.ctx c).exact = true ∧
    (s.chip c).idle = 2000 ∧ (s.chip c).wakeq = 8 ∧ (s.chip c).gen = true ∧ (s.port c).lmap = 0x76543210 ∧ (s.port c).cfg = 0 ∧
    (s.port c).wakes = 0 ∧ (s.queue c).en = false ∧ ∀ t, (s.pair c t).auto = true) ∧
  step s ≠ .fault .holdsReset

/-- R129 to R133, R135: the results of majors 3 to 8 but for the special registers and the lane moves. -/
def Obligations.ScalarResults : Prop :=
  Sys2Proof.Claims.ScalarRegisterResults ∧ Sys2Proof.Claims.ScalarSelect ∧ Sys2Proof.Claims.ScalarImmediateResults

/-- R101, R116, R119 to R121: scalar branches and calls, and the units of divergence. -/
def Obligations.BranchesAndDivergence : Prop :=
  Sys2Proof.Claims.BranchResults ∧ Sys2Proof.Claims.DivergenceResults

/-- R135, R152 to R156: lane moves, reductions, scans, and the lane moves to and from scalar registers. -/
def Obligations.LaneUnits : Prop :=
  Sys2Proof.Claims.LaneResults ∧ Sys2Proof.Claims.LaneExtractInsert

/-- R173 to R183: conversions and block scales. -/
def Obligations.ConversionUnits : Prop :=
  Sys2Proof.Claims.ConversionResults ∧ Sys2Proof.Claims.BlockScaleResults

/-- R184 to R193, R198, R205: loads, stores and register ranges at issue. -/
def Obligations.LoadAndStoreUnits : Prop :=
  Sys2Proof.Claims.LoadUnits ∧ Sys2Proof.Claims.StoreUnits ∧ Sys2Proof.Claims.RangeUnits

/-- R206, R313 to R317, R333 to R335: atomics, reductions and aggregating stores at issue. -/
def Obligations.AtomicAndAggregatingUnits : Prop :=
  Sys2Proof.Claims.AggregatingUnits ∧ Sys2Proof.Claims.AtomicUnits ∧ Sys2Proof.Claims.WgmAtomicUnits

/-- R200 to R204, R329, R330, R339: waits, fences and cache units. -/
def Obligations.FenceAndCacheUnits : Prop :=
  Sys2Proof.Claims.WaitsAndFences ∧ Sys2Proof.Claims.CacheUnits

/-- R258 to R274: the units of the synchronization engine. -/
def Obligations.SynchronizationUnits : Prop :=
  Sys2Proof.Claims.TimelineUnits ∧ Sys2Proof.Claims.BarrierArrival ∧ Sys2Proof.Claims.TransactionBarrierUnits ∧ Sys2Proof.Claims.SemaphoreUnits

/-- R75, R78 to R80, R396 to R398: spawn and major 27. -/
def Obligations.SpawnAndManagementUnits : Prop :=
  Sys2Proof.Claims.SpawnUnits ∧ Sys2Proof.Claims.ManagementUnits

/-- R383 to R388: major 26. -/
def Obligations.FabricUnits : Prop :=
  Sys2Proof.Claims.MessageUnits ∧ Sys2Proof.Claims.CollectiveUnit

/-- R316 to R321: atomics performed at their home slice, monitors armed, timed out and answered. -/
def Obligations.MonitorsAndHomeAtomics : Prop :=
  Sys2Proof.Claims.MonitorWait ∧ Sys2Proof.Claims.HomeAtomicsAndMonitors

/-- R86, R88, R92 to R94, R96, R111: events of the group sequencer and the spill engine. -/
def Obligations.SequencerAndSpillEvents : Prop :=
  Sys2Proof.Claims.SequencerEvents ∧ Sys2Proof.Claims.ResultsAreWrittenBack ∧ Sys2Proof.Claims.SpillTransfers

/-- R45, R46, R105, R107, R108: events by which traps and context faults come about. -/
def Obligations.TrapEvents : Prop :=
  Sys2Proof.Claims.TrapAndFaultEvents ∧ Sys2Proof.Claims.UndecodableAndUnfetchable

/-- R306 to R311, R318: the coherence protocol and the replay filter. -/
def Obligations.CoherenceAndReplay : Prop :=
  Sys2Proof.Claims.CoherenceRequests ∧ Sys2Proof.Claims.CoherenceMessages ∧ Sys2Proof.Claims.ReplayFilter

/-- R24 to R27, R305, R352 to R362: the router and the loss of chiplets. -/
def Obligations.RouterAndDieLossEvents : Prop :=
  Sys2Proof.Claims.RouterEvents ∧ Sys2Proof.Claims.DeadChiplets

/-- R223 to R229, R401, R409: contexts, walks, residency services and publishes. -/
def Obligations.ContextAndObjectEvents : Prop :=
  Sys2Proof.Claims.ContextLifetime ∧ Sys2Proof.Claims.ResidencyServices ∧ Sys2Proof.Claims.Publishes

/-- R14, R60, R231, R396 to R409: ownership, links, attestation and the accesses of hosts. -/
def Obligations.HostSideEvents : Prop :=
  Sys2Proof.Claims.HostEvents ∧ Sys2Proof.Claims.HostRegisterAccesses ∧ Sys2Proof.Claims.HostWindowAccesses

/-- R242 to R254: copies start, move their slices and complete. -/
def Obligations.CopyEvents : Prop :=
  Sys2Proof.Claims.CopySlices ∧ Sys2Proof.Claims.VersionedCopies

/-- R60 to R77: launch records, grids, workgroups, regroup bins and clusters. -/
def Obligations.WorkDistributionEvents : Prop :=
  Sys2Proof.Claims.LaunchEvents ∧ Sys2Proof.Claims.WorkgroupEvents ∧ Sys2Proof.Claims.RegroupAndClusterEvents

/-- R365, R372 to R375: wavelengths, lanes and widths of a port. -/
def Obligations.PortEvents : Prop :=
  Sys2Proof.Claims.WavelengthEvents ∧ Sys2Proof.Claims.PortWidthEvents

/-- R376, R377, R409, R415: ageing words, the time counter and the photonic registers. -/
def Obligations.AgeingTimeAndPhotonicEvents : Prop :=
  Sys2Proof.Claims.AgeingAndTime ∧ Sys2Proof.Claims.PhotonicRegisters

/-- R382 to R392: messages and collectives in progress. -/
def Obligations.MessageAndCollectiveEvents : Prop :=
  Sys2Proof.Claims.MessageEvents ∧ Sys2Proof.Claims.CollectiveEvents

/-- The groups are listed by key, each key once (the model's form of the set of groups), over every step of every state. -/
def Obligations.GroupKeysRise : Prop :=
  ∀ s t : State, step s = .next t → (s.groups.map Prod.fst).Pairwise (· < ·) → (t.groups.map Prod.fst).Pairwise (· < ·)

/-- Every group keeps 64 scalar registers, 16 predicates and eight banked scalars (R34, R105, R123), and so does Stratus (R394), over
every step of every state. -/
def Obligations.RegisterFilesKeepTheirSizes : Prop :=
  ∀ s t : State, step s = .next t → (∀ e ∈ s.groups, Files e.2) → Files s.sgrp → (∀ e ∈ t.groups, Files e.2) ∧ Files t.sgrp
end

