-- ==== Sys2Proof/Laws/Home.lean ====
section
/-! SUPPORT. Laws of the memory dies: what the parity rebuilds is what memory holds (R304, R305). -/

namespace Sys2Proof.Laws

open Sys2Proof.Machine

/-- A byte xored with itself is nothing. -/
theorem xor_cancel (a b : Byte) : (a ^^^ b) ^^^ b = a := by
  rw [BitVec.xor_assoc, BitVec.xor_self, BitVec.xor_zero]

/-- The xor of a list of bytes at distinct addresses is one of them with the xor of the others. -/
theorem xorBytes_split (f : Nat → Byte) (x : Nat) : ∀ l : List Nat, l.Nodup → x ∈ l →
    xorBytes (l.map f) = f x ^^^ xorBytes ((l.filter fun b => b ≠ x).map f)
  | [], _, h => by simp at h
  | y :: r, hn, h => by
    obtain ⟨hy, hr⟩ := List.nodup_cons.mp hn
    by_cases e : y = x
    · subst e
      have : (r.filter fun b => b ≠ y) = r :=
        List.filter_eq_self.mpr fun b hb => by simpa using fun hh : b = y => hy (hh ▸ hb)
      simp only [ne_eq, not_true_eq_false, decide_false, Bool.false_eq_true, not_false_eq_true, List.filter_cons_of_neg, this]
      rfl
    · have hx : x ∈ r := by rcases List.mem_cons.mp h with rfl | h; exact absurd rfl e; exact h
      have ih := xorBytes_split f x r hr hx
      simp only [ne_eq, e, not_false_eq_true, decide_true, List.filter_cons_of_pos, List.map_cons]
      show f y ^^^ xorBytes (r.map f) = f x ^^^ (f y ^^^ xorBytes _)
      rw [ih, ← BitVec.xor_assoc, ← BitVec.xor_assoc, BitVec.xor_comm (f y)]

/-- An address is one of the data bytes of its own stripe group, once. -/
theorem mem_stripeBytes (da : Nat) :
    let row := homeRow false da
    da ∈ stripeBytes (row.2 / 16) row.1 (da % 256) ∧ (stripeBytes (row.2 / 16) row.1 (da % 256)).Nodup := by
  have hl : (homeRow false da).1 = da / 256 / 30 := rfl
  have e : (da / 256 / 30 * 30 + da / 256 % 30) * 256 + da % 256 = da := by omega
  have hd : homeDie false ((da / 256 / 30 * 30 + da / 256 % 30) * 256) = (homeRow false da).2 := by
    have : (da / 256 / 30 * 30 + da / 256 % 30) * 256 / 256 = da / 256 := by omega
    simp only [homeDie, homeRow, Bool.false_eq_true, if_false, this]
  refine ⟨List.mem_map.mpr ⟨da / 256 % 30, List.mem_filter.mpr ⟨List.mem_range.mpr (Nat.mod_lt _ (by decide)), ?_⟩, ?_⟩, ?_⟩
  · rw [hl, hd]; simp
  · rw [hl]; exact e
  · refine List.Nodup.map (fun a b h => by omega) (List.Nodup.filter _ List.nodup_range)

/-- What is read of a byte on a lost die in Guarded mode is what memory holds there (R305). -/
theorem rebuilt_eq (s : State) (da : Nat) : s.rebuilt da = memRead s.mem da := by
  obtain ⟨hm, hn⟩ := mem_stripeBytes da
  simp only [State.rebuilt, State.parityByte]
  rw [xorBytes_split (memRead s.mem) da _ hn hm, xor_cancel]

end Sys2Proof.Laws
end

