-- ==== Sys2Proof/Laws/Maps.lean ====
section
/-! SUPPORT. Laws of the number-keyed tables and of sparse memory: a read after a write, the other places unchanged, and
that every memory operation keeps the canonical form. -/

namespace Sys2Proof.Machine

/-! ### Tables -/

@[simp] theorem mapGet?_nil {α : Type} (n : Nat) : mapGet? ([] : NMap α) n = none := rfl

/-- What was put at a key is found there. -/
@[simp] theorem mapGet?_mapSet_same {α : Type} (m : NMap α) (n : Nat) (v : α) : mapGet? (mapSet m n v) n = some v := by
  induction m with
  | nil => simp [mapSet, mapGet?]
  | cons kv r ih =>
    obtain ⟨k, w⟩ := kv
    simp only [mapSet]
    split
    · simp [mapGet?]
    · split
      · simp [mapGet?]
      · have : k ≠ n := fun h => by omega
        simp [mapGet?, this, ih]

/-- Putting at one key leaves every other key alone. -/
theorem mapGet?_mapSet_other {α : Type} (m : NMap α) {n j : Nat} (v : α) (h : j ≠ n) :
    mapGet? (mapSet m n v) j = mapGet? m j := by
  have h' : n ≠ j := fun e => h e.symm
  induction m with
  | nil => simp [mapSet, mapGet?, h']
  | cons kv r ih =>
    obtain ⟨k, w⟩ := kv
    simp only [mapSet]
    split
    · simp [mapGet?, h']
    · split
      · next e => subst e; simp [mapGet?, h']
      · simp [mapGet?, ih]

/-- A lookup after a put, either way. -/
theorem mapGet?_mapSet {α : Type} (m : NMap α) (n j : Nat) (v : α) :
    mapGet? (mapSet m n v) j = if j = n then some v else mapGet? m j := by
  split
  · next e => subst e; simp
  · next e => exact mapGet?_mapSet_other m v e

@[simp] theorem mapGet_mapSet_same {α : Type} (m : NMap α) (n : Nat) (v d : α) : mapGet (mapSet m n v) n d = v := by
  simp [mapGet]

theorem mapGet_mapSet_other {α : Type} (m : NMap α) {n j : Nat} (v d : α) (h : j ≠ n) :
    mapGet (mapSet m n v) j d = mapGet m j d := by simp [mapGet, mapGet?_mapSet_other m v h]

/-- Changing the entry of one key leaves every other key alone. -/
theorem mapGet?_mapMod_other {α : Type} (m : NMap α) {n j : Nat} (f : α → α) (h : j ≠ n) :
    mapGet? (mapMod m n f) j = mapGet? m j := by
  unfold mapMod
  split
  · exact mapGet?_mapSet_other m _ h
  · rfl

/-- Changing the entry of a key changes what is found there. -/
theorem mapGet?_mapMod_same {α : Type} (m : NMap α) (n : Nat) (f : α → α) :
    mapGet? (mapMod m n f) n = (mapGet? m n).map f := by
  unfold mapMod
  split
  · next v h => simp [h]
  · next h => simp [h]

/-- Removing one key leaves every other key alone. -/
theorem mapGet?_mapDel_other {α : Type} (m : NMap α) {n j : Nat} (h : j ≠ n) : mapGet? (mapDel m n) j = mapGet? m j := by
  have h' : n ≠ j := fun e => h e.symm
  induction m with
  | nil => rfl
  | cons kv r ih =>
    obtain ⟨k, w⟩ := kv
    simp only [mapDel]
    split
    · next e => subst e; simp [mapGet?, h']
    · simp [mapGet?, ih]

/-- Changing every entry changes what is found at a key. -/
theorem mapGet?_mapAll {α : Type} (m : NMap α) (f : Nat → α → α) (n : Nat) :
    mapGet? (mapAll m f) n = (mapGet? m n).map (f n) := by
  induction m with
  | nil => rfl
  | cons kv r ih =>
    obtain ⟨k, w⟩ := kv
    simp only [mapAll, List.map, mapGet?]
    split
    · next e => subst e; rfl
    · exact ih

/-! ### Sparse memory -/

/-- A byte list that rises from `lo` reads 0 below it. -/
theorem memRead_below {lo a : Nat} {m : Mem} (h : memRising lo m = true) (ha : a < lo) : memRead m a = 0 := by
  induction m generalizing lo with
  | nil => rfl
  | cons c r ih =>
    obtain ⟨k, v⟩ := c
    simp only [memRising, Bool.and_eq_true, decide_eq_true_eq] at h
    have hk : k ≠ a := fun e => by omega
    simp only [memRead, hk, if_false]
    exact ih h.2 (by omega)

/-- The form holds from any lower address too. -/
theorem memRising_mono {lo lo' : Nat} {m : Mem} (h : memRising lo m = true) (hl : lo' ≤ lo) : memRising lo' m = true := by
  cases m with
  | nil => rfl
  | cons c r =>
    obtain ⟨k, v⟩ := c
    simp only [memRising, Bool.and_eq_true, decide_eq_true_eq] at h ⊢
    exact ⟨⟨by omega, h.1.2⟩, h.2⟩

theorem memRising_memWrite {lo a : Nat} {m : Mem} {b : Byte} (h : memRising lo m = true) (ha : lo ≤ a) :
    memRising lo (memWrite m a b) = true := by
  induction m generalizing lo with
  | nil =>
    simp only [memWrite]
    split
    · rfl
    · next hb => simpa [memRising, ha] using hb
  | cons c r ih =>
    obtain ⟨k, v⟩ := c
    have h0 := h
    simp only [memRising, Bool.and_eq_true, decide_eq_true_eq] at h
    simp only [memWrite]
    split
    · split
      · exact h0
      · next hk hb =>
        simp only [memRising, Bool.and_eq_true, decide_eq_true_eq]
        exact ⟨⟨ha, hb⟩, ⟨by omega, h.1.2⟩, h.2⟩
    · split
      · split
        · exact memRising_mono h.2 (by omega)
        · next hk e hb =>
          subst e
          simp only [memRising, Bool.and_eq_true, decide_eq_true_eq]
          exact ⟨⟨h.1.1, hb⟩, h.2⟩
      · simp only [memRising, Bool.and_eq_true, decide_eq_true_eq]
        exact ⟨h.1, ih h.2 (by omega)⟩

/-- Writing a byte keeps the canonical form. -/
theorem memWrite_wf {m : Mem} (h : memWf m = true) (a : Nat) (b : Byte) : memWf (memWrite m a b) = true :=
  memRising_memWrite h (Nat.zero_le a)

/-- Writing bytes keeps the canonical form. -/
theorem memWriteBytes_wf {m : Mem} (h : memWf m = true) (a : Nat) (bs : List Byte) : memWf (memWriteBytes m a bs) = true := by
  induction bs generalizing m a with
  | nil => exact h
  | cons b r ih => exact ih (memWrite_wf h a b) (a + 1)

theorem memRising_filter {lo : Nat} {m : Mem} (p : Host.Cell → Bool) (h : memRising lo m = true) :
    memRising lo (m.filter p) = true := by
  induction m generalizing lo with
  | nil => rfl
  | cons c r ih =>
    obtain ⟨k, v⟩ := c
    simp only [memRising, Bool.and_eq_true, decide_eq_true_eq] at h
    simp only [List.filter]
    split
    · simp only [memRising, Bool.and_eq_true, decide_eq_true_eq]
      exact ⟨h.1, ih h.2⟩
    · exact ih (memRising_mono h.2 (by omega))

/-- Keeping part of the entries keeps the canonical form. -/
theorem memFilter_wf {m : Mem} (h : memWf m = true) (p : Host.Cell → Bool) : memWf (m.filter p) = true := memRising_filter p h

/-- Trimming keeps the canonical form. -/
theorem memTrim_wf {m : Mem} (h : memWf m = true) (a : Nat) : memWf (memTrim m a) = true := memFilter_wf h _

theorem memRead_memWrite_rising {lo a : Nat} {m : Mem} {b : Byte} (h : memRising lo m = true) :
    memRead (memWrite m a b) a = b := by
  induction m generalizing lo with
  | nil =>
    simp only [memWrite]
    split
    · next e => simp [memRead, e]
    · simp [memRead]
  | cons c r ih =>
    obtain ⟨k, v⟩ := c
    simp only [memRising, Bool.and_eq_true, decide_eq_true_eq] at h
    simp only [memWrite]
    split
    · split
      · next hk e =>
        have : k ≠ a := fun x => by omega
        simp only [memRead, this, if_false]
        rw [memRead_below h.2 (by omega), e]
      · simp [memRead]
    · split
      · split
        · next hk e hb => rw [memRead_below h.2 (by omega), hb]
        · simp [memRead]
      · next hk e =>
        have : k ≠ a := fun x => e x.symm
        simp only [memRead, this, if_false]
        exact ih h.2

/-- A read after a write to the same address gives the byte written. -/
theorem memRead_memWrite_same {m : Mem} (h : memWf m = true) (a : Nat) (b : Byte) : memRead (memWrite m a b) a = b :=
  memRead_memWrite_rising h

/-- A write leaves every other address alone. -/
theorem memRead_memWrite_other (m : Mem) {a x : Nat} (b : Byte) (h : x ≠ a) : memRead (memWrite m a b) x = memRead m x := by
  have h' : a ≠ x := fun e => h e.symm
  induction m with
  | nil =>
    simp only [memWrite]
    split <;> simp [memRead, h']
  | cons c r ih =>
    obtain ⟨k, v⟩ := c
    simp only [memWrite]
    split
    · split <;> simp [memRead, h']
    · split
      · next e => subst e; split <;> simp [memRead, h']
      · simp [memRead, ih]

/-- Writing bytes leaves every address outside them alone. -/
theorem memRead_memWriteBytes_other (m : Mem) (a : Nat) (bs : List Byte) {x : Nat} (h : x < a ∨ a + bs.length ≤ x) :
    memRead (memWriteBytes m a bs) x = memRead m x := by
  induction bs generalizing m a with
  | nil => rfl
  | cons b r ih =>
    simp only [List.length_cons] at h
    simp only [memWriteBytes]
    rw [ih (memWrite m a b) (a + 1) (by omega), memRead_memWrite_other m b (by omega)]

/-- The bytes written are read back. -/
theorem memRead_memWriteBytes_in {m : Mem} (hm : memWf m = true) (a : Nat) (bs : List Byte) {i : Nat} (h : i < bs.length) :
    memRead (memWriteBytes m a bs) (a + i) = bs[i] := by
  induction bs generalizing m a i with
  | nil => simp at h
  | cons b r ih =>
    simp only [memWriteBytes]
    cases i with
    | zero =>
      rw [Nat.add_zero, memRead_memWriteBytes_other _ _ _ (by omega)]
      simpa using memRead_memWrite_same hm a b
    | succ j =>
      have := ih (memWrite_wf hm a b) (a + 1) (i := j) (by simpa using h)
      simpa [Nat.add_assoc, Nat.add_comm 1 j] using this

end Sys2Proof.Machine
end

