-- ==== Sys2Proof/Laws/State.lean ====
section
/-! SUPPORT. One lemma per field per update of State, so that no proof unfolds a record update, and what each table's
lookup finds after its update. -/

namespace Sys2Proof.Machine

@[simp] theorem State.setCore_agenda (s : State) (c : Nat) (v : Core) : (s.setCore c v).agenda = s.agenda := rfl
@[simp] theorem State.setCore_cur (s : State) (c : Nat) (v : Core) : (s.setCore c v).cur = s.cur := rfl
@[simp] theorem State.setCore_plan (s : State) (c : Nat) (v : Core) : (s.setCore c v).plan = s.plan := rfl
@[simp] theorem State.setCore_cyc (s : State) (c : Nat) (v : Core) : (s.setCore c v).cyc = s.cyc := rfl
@[simp] theorem State.setCore_issued (s : State) (c : Nat) (v : Core) : (s.setCore c v).issued = s.issued := rfl
@[simp] theorem State.setCore_stalled (s : State) (c : Nat) (v : Core) : (s.setCore c v).stalled = s.stalled := rfl
@[simp] theorem State.setCore_turn (s : State) (c : Nat) (v : Core) : (s.setCore c v).turn = s.turn := rfl
@[simp] theorem State.setCore_tried (s : State) (c : Nat) (v : Core) : (s.setCore c v).tried = s.tried := rfl
@[simp] theorem State.setCore_came (s : State) (c : Nat) (v : Core) : (s.setCore c v).came = s.came := rfl
@[simp] theorem State.setCore_nextId (s : State) (c : Nat) (v : Core) : (s.setCore c v).nextId = s.nextId := rfl
@[simp] theorem State.setCore_fresh (s : State) (c : Nat) (v : Core) : (s.setCore c v).fresh = s.fresh := rfl
@[simp] theorem State.setCore_dev (s : State) (c : Nat) (v : Core) : (s.setCore c v).dev = s.dev := rfl
@[simp] theorem State.setCore_mem (s : State) (c : Nat) (v : Core) : (s.setCore c v).mem = s.mem := rfl
@[simp] theorem State.setCore_groups (s : State) (c : Nat) (v : Core) : (s.setCore c v).groups = s.groups := rfl
@[simp] theorem State.setCore_wgs (s : State) (c : Nat) (v : Core) : (s.setCore c v).wgs = s.wgs := rfl
@[simp] theorem State.setCore_grids (s : State) (c : Nat) (v : Core) : (s.setCore c v).grids = s.grids := rfl
@[simp] theorem State.setCore_lq (s : State) (c : Nat) (v : Core) : (s.setCore c v).lq = s.lq := rfl
@[simp] theorem State.setCore_ctxs (s : State) (c : Nat) (v : Core) : (s.setCore c v).ctxs = s.ctxs := rfl
@[simp] theorem State.setCore_classes (s : State) (c : Nat) (v : Core) : (s.setCore c v).classes = s.classes := rfl
@[simp] theorem State.setCore_clusters (s : State) (c : Nat) (v : Core) : (s.setCore c v).clusters = s.clusters := rfl
@[simp] theorem State.setCore_dies (s : State) (c : Nat) (v : Core) : (s.setCore c v).dies = s.dies := rfl
@[simp] theorem State.setCore_ptr (s : State) (c : Nat) (v : Core) : (s.setCore c v).ptr = s.ptr := rfl
@[simp] theorem State.setCore_gdir (s : State) (c : Nat) (v : Core) : (s.setCore c v).gdir = s.gdir := rfl
@[simp] theorem State.setCore_home (s : State) (c : Nat) (v : Core) : (s.setCore c v).home = s.home := rfl
@[simp] theorem State.setCore_cuPkts (s : State) (c : Nat) (v : Core) : (s.setCore c v).cuPkts = s.cuPkts := rfl
@[simp] theorem State.setCore_cuRejs (s : State) (c : Nat) (v : Core) : (s.setCore c v).cuRejs = s.cuRejs := rfl
@[simp] theorem State.setCore_egress (s : State) (c : Nat) (v : Core) : (s.setCore c v).egress = s.egress := rfl
@[simp] theorem State.setCore_pairs (s : State) (c : Nat) (v : Core) : (s.setCore c v).pairs = s.pairs := rfl
@[simp] theorem State.setCore_chips (s : State) (c : Nat) (v : Core) : (s.setCore c v).chips = s.chips := rfl
@[simp] theorem State.setCore_ports (s : State) (c : Nat) (v : Core) : (s.setCore c v).ports = s.ports := rfl
@[simp] theorem State.setCore_fab (s : State) (c : Nat) (v : Core) : (s.setCore c v).fab = s.fab := rfl
@[simp] theorem State.setCore_colls (s : State) (c : Nat) (v : Core) : (s.setCore c v).colls = s.colls := rfl
@[simp] theorem State.setCore_remHeld (s : State) (c : Nat) (v : Core) : (s.setCore c v).remHeld = s.remHeld := rfl
@[simp] theorem State.setCore_svcWaits (s : State) (c : Nat) (v : Core) : (s.setCore c v).svcWaits = s.svcWaits := rfl
@[simp] theorem State.setCore_rio (s : State) (c : Nat) (v : Core) : (s.setCore c v).rio = s.rio := rfl
@[simp] theorem State.setCore_sgrp (s : State) (c : Nat) (v : Core) : (s.setCore c v).sgrp = s.sgrp := rfl
@[simp] theorem State.setCore_str (s : State) (c : Nat) (v : Core) : (s.setCore c v).str = s.str := rfl
@[simp] theorem State.setCore_hosts (s : State) (c : Nat) (v : Core) : (s.setCore c v).hosts = s.hosts := rfl

@[simp] theorem State.setCluster_agenda (s : State) (l : Nat) (v : Cluster) : (s.setCluster l v).agenda = s.agenda := rfl
@[simp] theorem State.setCluster_cur (s : State) (l : Nat) (v : Cluster) : (s.setCluster l v).cur = s.cur := rfl
@[simp] theorem State.setCluster_plan (s : State) (l : Nat) (v : Cluster) : (s.setCluster l v).plan = s.plan := rfl
@[simp] theorem State.setCluster_cyc (s : State) (l : Nat) (v : Cluster) : (s.setCluster l v).cyc = s.cyc := rfl
@[simp] theorem State.setCluster_issued (s : State) (l : Nat) (v : Cluster) : (s.setCluster l v).issued = s.issued := rfl
@[simp] theorem State.setCluster_stalled (s : State) (l : Nat) (v : Cluster) : (s.setCluster l v).stalled = s.stalled := rfl
@[simp] theorem State.setCluster_turn (s : State) (l : Nat) (v : Cluster) : (s.setCluster l v).turn = s.turn := rfl
@[simp] theorem State.setCluster_tried (s : State) (l : Nat) (v : Cluster) : (s.setCluster l v).tried = s.tried := rfl
@[simp] theorem State.setCluster_came (s : State) (l : Nat) (v : Cluster) : (s.setCluster l v).came = s.came := rfl
@[simp] theorem State.setCluster_nextId (s : State) (l : Nat) (v : Cluster) : (s.setCluster l v).nextId = s.nextId := rfl
@[simp] theorem State.setCluster_fresh (s : State) (l : Nat) (v : Cluster) : (s.setCluster l v).fresh = s.fresh := rfl
@[simp] theorem State.setCluster_dev (s : State) (l : Nat) (v : Cluster) : (s.setCluster l v).dev = s.dev := rfl
@[simp] theorem State.setCluster_mem (s : State) (l : Nat) (v : Cluster) : (s.setCluster l v).mem = s.mem := rfl
@[simp] theorem State.setCluster_groups (s : State) (l : Nat) (v : Cluster) : (s.setCluster l v).groups = s.groups := rfl
@[simp] theorem State.setCluster_wgs (s : State) (l : Nat) (v : Cluster) : (s.setCluster l v).wgs = s.wgs := rfl
@[simp] theorem State.setCluster_grids (s : State) (l : Nat) (v : Cluster) : (s.setCluster l v).grids = s.grids := rfl
@[simp] theorem State.setCluster_lq (s : State) (l : Nat) (v : Cluster) : (s.setCluster l v).lq = s.lq := rfl
@[simp] theorem State.setCluster_ctxs (s : State) (l : Nat) (v : Cluster) : (s.setCluster l v).ctxs = s.ctxs := rfl
@[simp] theorem State.setCluster_classes (s : State) (l : Nat) (v : Cluster) : (s.setCluster l v).classes = s.classes := rfl
@[simp] theorem State.setCluster_cores (s : State) (l : Nat) (v : Cluster) : (s.setCluster l v).cores = s.cores := rfl
@[simp] theorem State.setCluster_dies (s : State) (l : Nat) (v : Cluster) : (s.setCluster l v).dies = s.dies := rfl
@[simp] theorem State.setCluster_ptr (s : State) (l : Nat) (v : Cluster) : (s.setCluster l v).ptr = s.ptr := rfl
@[simp] theorem State.setCluster_gdir (s : State) (l : Nat) (v : Cluster) : (s.setCluster l v).gdir = s.gdir := rfl
@[simp] theorem State.setCluster_home (s : State) (l : Nat) (v : Cluster) : (s.setCluster l v).home = s.home := rfl
@[simp] theorem State.setCluster_cuPkts (s : State) (l : Nat) (v : Cluster) : (s.setCluster l v).cuPkts = s.cuPkts := rfl
@[simp] theorem State.setCluster_cuRejs (s : State) (l : Nat) (v : Cluster) : (s.setCluster l v).cuRejs = s.cuRejs := rfl
@[simp] theorem State.setCluster_egress (s : State) (l : Nat) (v : Cluster) : (s.setCluster l v).egress = s.egress := rfl
@[simp] theorem State.setCluster_pairs (s : State) (l : Nat) (v : Cluster) : (s.setCluster l v).pairs = s.pairs := rfl
@[simp] theorem State.setCluster_chips (s : State) (l : Nat) (v : Cluster) : (s.setCluster l v).chips = s.chips := rfl
@[simp] theorem State.setCluster_ports (s : State) (l : Nat) (v : Cluster) : (s.setCluster l v).ports = s.ports := rfl
@[simp] theorem State.setCluster_fab (s : State) (l : Nat) (v : Cluster) : (s.setCluster l v).fab = s.fab := rfl
@[simp] theorem State.setCluster_colls (s : State) (l : Nat) (v : Cluster) : (s.setCluster l v).colls = s.colls := rfl
@[simp] theorem State.setCluster_remHeld (s : State) (l : Nat) (v : Cluster) : (s.setCluster l v).remHeld = s.remHeld := rfl
@[simp] theorem State.setCluster_svcWaits (s : State) (l : Nat) (v : Cluster) : (s.setCluster l v).svcWaits = s.svcWaits := rfl
@[simp] theorem State.setCluster_rio (s : State) (l : Nat) (v : Cluster) : (s.setCluster l v).rio = s.rio := rfl
@[simp] theorem State.setCluster_sgrp (s : State) (l : Nat) (v : Cluster) : (s.setCluster l v).sgrp = s.sgrp := rfl
@[simp] theorem State.setCluster_str (s : State) (l : Nat) (v : Cluster) : (s.setCluster l v).str = s.str := rfl
@[simp] theorem State.setCluster_hosts (s : State) (l : Nat) (v : Cluster) : (s.setCluster l v).hosts = s.hosts := rfl

@[simp] theorem State.setDie_agenda (s : State) (d : Nat) (v : Die) : (s.setDie d v).agenda = s.agenda := rfl
@[simp] theorem State.setDie_cur (s : State) (d : Nat) (v : Die) : (s.setDie d v).cur = s.cur := rfl
@[simp] theorem State.setDie_plan (s : State) (d : Nat) (v : Die) : (s.setDie d v).plan = s.plan := rfl
@[simp] theorem State.setDie_cyc (s : State) (d : Nat) (v : Die) : (s.setDie d v).cyc = s.cyc := rfl
@[simp] theorem State.setDie_issued (s : State) (d : Nat) (v : Die) : (s.setDie d v).issued = s.issued := rfl
@[simp] theorem State.setDie_stalled (s : State) (d : Nat) (v : Die) : (s.setDie d v).stalled = s.stalled := rfl
@[simp] theorem State.setDie_turn (s : State) (d : Nat) (v : Die) : (s.setDie d v).turn = s.turn := rfl
@[simp] theorem State.setDie_tried (s : State) (d : Nat) (v : Die) : (s.setDie d v).tried = s.tried := rfl
@[simp] theorem State.setDie_came (s : State) (d : Nat) (v : Die) : (s.setDie d v).came = s.came := rfl
@[simp] theorem State.setDie_nextId (s : State) (d : Nat) (v : Die) : (s.setDie d v).nextId = s.nextId := rfl
@[simp] theorem State.setDie_fresh (s : State) (d : Nat) (v : Die) : (s.setDie d v).fresh = s.fresh := rfl
@[simp] theorem State.setDie_dev (s : State) (d : Nat) (v : Die) : (s.setDie d v).dev = s.dev := rfl
@[simp] theorem State.setDie_mem (s : State) (d : Nat) (v : Die) : (s.setDie d v).mem = s.mem := rfl
@[simp] theorem State.setDie_groups (s : State) (d : Nat) (v : Die) : (s.setDie d v).groups = s.groups := rfl
@[simp] theorem State.setDie_wgs (s : State) (d : Nat) (v : Die) : (s.setDie d v).wgs = s.wgs := rfl
@[simp] theorem State.setDie_grids (s : State) (d : Nat) (v : Die) : (s.setDie d v).grids = s.grids := rfl
@[simp] theorem State.setDie_lq (s : State) (d : Nat) (v : Die) : (s.setDie d v).lq = s.lq := rfl
@[simp] theorem State.setDie_ctxs (s : State) (d : Nat) (v : Die) : (s.setDie d v).ctxs = s.ctxs := rfl
@[simp] theorem State.setDie_classes (s : State) (d : Nat) (v : Die) : (s.setDie d v).classes = s.classes := rfl
@[simp] theorem State.setDie_cores (s : State) (d : Nat) (v : Die) : (s.setDie d v).cores = s.cores := rfl
@[simp] theorem State.setDie_clusters (s : State) (d : Nat) (v : Die) : (s.setDie d v).clusters = s.clusters := rfl
@[simp] theorem State.setDie_ptr (s : State) (d : Nat) (v : Die) : (s.setDie d v).ptr = s.ptr := rfl
@[simp] theorem State.setDie_gdir (s : State) (d : Nat) (v : Die) : (s.setDie d v).gdir = s.gdir := rfl
@[simp] theorem State.setDie_home (s : State) (d : Nat) (v : Die) : (s.setDie d v).home = s.home := rfl
@[simp] theorem State.setDie_cuPkts (s : State) (d : Nat) (v : Die) : (s.setDie d v).cuPkts = s.cuPkts := rfl
@[simp] theorem State.setDie_cuRejs (s : State) (d : Nat) (v : Die) : (s.setDie d v).cuRejs = s.cuRejs := rfl
@[simp] theorem State.setDie_egress (s : State) (d : Nat) (v : Die) : (s.setDie d v).egress = s.egress := rfl
@[simp] theorem State.setDie_pairs (s : State) (d : Nat) (v : Die) : (s.setDie d v).pairs = s.pairs := rfl
@[simp] theorem State.setDie_chips (s : State) (d : Nat) (v : Die) : (s.setDie d v).chips = s.chips := rfl
@[simp] theorem State.setDie_ports (s : State) (d : Nat) (v : Die) : (s.setDie d v).ports = s.ports := rfl
@[simp] theorem State.setDie_fab (s : State) (d : Nat) (v : Die) : (s.setDie d v).fab = s.fab := rfl
@[simp] theorem State.setDie_colls (s : State) (d : Nat) (v : Die) : (s.setDie d v).colls = s.colls := rfl
@[simp] theorem State.setDie_remHeld (s : State) (d : Nat) (v : Die) : (s.setDie d v).remHeld = s.remHeld := rfl
@[simp] theorem State.setDie_svcWaits (s : State) (d : Nat) (v : Die) : (s.setDie d v).svcWaits = s.svcWaits := rfl
@[simp] theorem State.setDie_rio (s : State) (d : Nat) (v : Die) : (s.setDie d v).rio = s.rio := rfl
@[simp] theorem State.setDie_sgrp (s : State) (d : Nat) (v : Die) : (s.setDie d v).sgrp = s.sgrp := rfl
@[simp] theorem State.setDie_str (s : State) (d : Nat) (v : Die) : (s.setDie d v).str = s.str := rfl
@[simp] theorem State.setDie_hosts (s : State) (d : Nat) (v : Die) : (s.setDie d v).hosts = s.hosts := rfl

@[simp] theorem State.setCtx_agenda (s : State) (n : Nat) (v : Ctx) : (s.setCtx n v).agenda = s.agenda := rfl
@[simp] theorem State.setCtx_cur (s : State) (n : Nat) (v : Ctx) : (s.setCtx n v).cur = s.cur := rfl
@[simp] theorem State.setCtx_plan (s : State) (n : Nat) (v : Ctx) : (s.setCtx n v).plan = s.plan := rfl
@[simp] theorem State.setCtx_cyc (s : State) (n : Nat) (v : Ctx) : (s.setCtx n v).cyc = s.cyc := rfl
@[simp] theorem State.setCtx_issued (s : State) (n : Nat) (v : Ctx) : (s.setCtx n v).issued = s.issued := rfl
@[simp] theorem State.setCtx_stalled (s : State) (n : Nat) (v : Ctx) : (s.setCtx n v).stalled = s.stalled := rfl
@[simp] theorem State.setCtx_turn (s : State) (n : Nat) (v : Ctx) : (s.setCtx n v).turn = s.turn := rfl
@[simp] theorem State.setCtx_tried (s : State) (n : Nat) (v : Ctx) : (s.setCtx n v).tried = s.tried := rfl
@[simp] theorem State.setCtx_came (s : State) (n : Nat) (v : Ctx) : (s.setCtx n v).came = s.came := rfl
@[simp] theorem State.setCtx_nextId (s : State) (n : Nat) (v : Ctx) : (s.setCtx n v).nextId = s.nextId := rfl
@[simp] theorem State.setCtx_fresh (s : State) (n : Nat) (v : Ctx) : (s.setCtx n v).fresh = s.fresh := rfl
@[simp] theorem State.setCtx_dev (s : State) (n : Nat) (v : Ctx) : (s.setCtx n v).dev = s.dev := rfl
@[simp] theorem State.setCtx_mem (s : State) (n : Nat) (v : Ctx) : (s.setCtx n v).mem = s.mem := rfl
@[simp] theorem State.setCtx_groups (s : State) (n : Nat) (v : Ctx) : (s.setCtx n v).groups = s.groups := rfl
@[simp] theorem State.setCtx_wgs (s : State) (n : Nat) (v : Ctx) : (s.setCtx n v).wgs = s.wgs := rfl
@[simp] theorem State.setCtx_grids (s : State) (n : Nat) (v : Ctx) : (s.setCtx n v).grids = s.grids := rfl
@[simp] theorem State.setCtx_lq (s : State) (n : Nat) (v : Ctx) : (s.setCtx n v).lq = s.lq := rfl
@[simp] theorem State.setCtx_classes (s : State) (n : Nat) (v : Ctx) : (s.setCtx n v).classes = s.classes := rfl
@[simp] theorem State.setCtx_cores (s : State) (n : Nat) (v : Ctx) : (s.setCtx n v).cores = s.cores := rfl
@[simp] theorem State.setCtx_clusters (s : State) (n : Nat) (v : Ctx) : (s.setCtx n v).clusters = s.clusters := rfl
@[simp] theorem State.setCtx_dies (s : State) (n : Nat) (v : Ctx) : (s.setCtx n v).dies = s.dies := rfl
@[simp] theorem State.setCtx_ptr (s : State) (n : Nat) (v : Ctx) : (s.setCtx n v).ptr = s.ptr := rfl
@[simp] theorem State.setCtx_gdir (s : State) (n : Nat) (v : Ctx) : (s.setCtx n v).gdir = s.gdir := rfl
@[simp] theorem State.setCtx_home (s : State) (n : Nat) (v : Ctx) : (s.setCtx n v).home = s.home := rfl
@[simp] theorem State.setCtx_cuPkts (s : State) (n : Nat) (v : Ctx) : (s.setCtx n v).cuPkts = s.cuPkts := rfl
@[simp] theorem State.setCtx_cuRejs (s : State) (n : Nat) (v : Ctx) : (s.setCtx n v).cuRejs = s.cuRejs := rfl
@[simp] theorem State.setCtx_egress (s : State) (n : Nat) (v : Ctx) : (s.setCtx n v).egress = s.egress := rfl
@[simp] theorem State.setCtx_pairs (s : State) (n : Nat) (v : Ctx) : (s.setCtx n v).pairs = s.pairs := rfl
@[simp] theorem State.setCtx_chips (s : State) (n : Nat) (v : Ctx) : (s.setCtx n v).chips = s.chips := rfl
@[simp] theorem State.setCtx_ports (s : State) (n : Nat) (v : Ctx) : (s.setCtx n v).ports = s.ports := rfl
@[simp] theorem State.setCtx_fab (s : State) (n : Nat) (v : Ctx) : (s.setCtx n v).fab = s.fab := rfl
@[simp] theorem State.setCtx_colls (s : State) (n : Nat) (v : Ctx) : (s.setCtx n v).colls = s.colls := rfl
@[simp] theorem State.setCtx_remHeld (s : State) (n : Nat) (v : Ctx) : (s.setCtx n v).remHeld = s.remHeld := rfl
@[simp] theorem State.setCtx_svcWaits (s : State) (n : Nat) (v : Ctx) : (s.setCtx n v).svcWaits = s.svcWaits := rfl
@[simp] theorem State.setCtx_rio (s : State) (n : Nat) (v : Ctx) : (s.setCtx n v).rio = s.rio := rfl
@[simp] theorem State.setCtx_sgrp (s : State) (n : Nat) (v : Ctx) : (s.setCtx n v).sgrp = s.sgrp := rfl
@[simp] theorem State.setCtx_str (s : State) (n : Nat) (v : Ctx) : (s.setCtx n v).str = s.str := rfl
@[simp] theorem State.setCtx_hosts (s : State) (n : Nat) (v : Ctx) : (s.setCtx n v).hosts = s.hosts := rfl

@[simp] theorem State.setQueue_agenda (s : State) (n : Nat) (v : LQueue) : (s.setQueue n v).agenda = s.agenda := rfl
@[simp] theorem State.setQueue_cur (s : State) (n : Nat) (v : LQueue) : (s.setQueue n v).cur = s.cur := rfl
@[simp] theorem State.setQueue_plan (s : State) (n : Nat) (v : LQueue) : (s.setQueue n v).plan = s.plan := rfl
@[simp] theorem State.setQueue_cyc (s : State) (n : Nat) (v : LQueue) : (s.setQueue n v).cyc = s.cyc := rfl
@[simp] theorem State.setQueue_issued (s : State) (n : Nat) (v : LQueue) : (s.setQueue n v).issued = s.issued := rfl
@[simp] theorem State.setQueue_stalled (s : State) (n : Nat) (v : LQueue) : (s.setQueue n v).stalled = s.stalled := rfl
@[simp] theorem State.setQueue_turn (s : State) (n : Nat) (v : LQueue) : (s.setQueue n v).turn = s.turn := rfl
@[simp] theorem State.setQueue_tried (s : State) (n : Nat) (v : LQueue) : (s.setQueue n v).tried = s.tried := rfl
@[simp] theorem State.setQueue_came (s : State) (n : Nat) (v : LQueue) : (s.setQueue n v).came = s.came := rfl
@[simp] theorem State.setQueue_nextId (s : State) (n : Nat) (v : LQueue) : (s.setQueue n v).nextId = s.nextId := rfl
@[simp] theorem State.setQueue_fresh (s : State) (n : Nat) (v : LQueue) : (s.setQueue n v).fresh = s.fresh := rfl
@[simp] theorem State.setQueue_dev (s : State) (n : Nat) (v : LQueue) : (s.setQueue n v).dev = s.dev := rfl
@[simp] theorem State.setQueue_mem (s : State) (n : Nat) (v : LQueue) : (s.setQueue n v).mem = s.mem := rfl
@[simp] theorem State.setQueue_groups (s : State) (n : Nat) (v : LQueue) : (s.setQueue n v).groups = s.groups := rfl
@[simp] theorem State.setQueue_wgs (s : State) (n : Nat) (v : LQueue) : (s.setQueue n v).wgs = s.wgs := rfl
@[simp] theorem State.setQueue_grids (s : State) (n : Nat) (v : LQueue) : (s.setQueue n v).grids = s.grids := rfl
@[simp] theorem State.setQueue_ctxs (s : State) (n : Nat) (v : LQueue) : (s.setQueue n v).ctxs = s.ctxs := rfl
@[simp] theorem State.setQueue_classes (s : State) (n : Nat) (v : LQueue) : (s.setQueue n v).classes = s.classes := rfl
@[simp] theorem State.setQueue_cores (s : State) (n : Nat) (v : LQueue) : (s.setQueue n v).cores = s.cores := rfl
@[simp] theorem State.setQueue_clusters (s : State) (n : Nat) (v : LQueue) : (s.setQueue n v).clusters = s.clusters := rfl
@[simp] theorem State.setQueue_dies (s : State) (n : Nat) (v : LQueue) : (s.setQueue n v).dies = s.dies := rfl
@[simp] theorem State.setQueue_ptr (s : State) (n : Nat) (v : LQueue) : (s.setQueue n v).ptr = s.ptr := rfl
@[simp] theorem State.setQueue_gdir (s : State) (n : Nat) (v : LQueue) : (s.setQueue n v).gdir = s.gdir := rfl
@[simp] theorem State.setQueue_home (s : State) (n : Nat) (v : LQueue) : (s.setQueue n v).home = s.home := rfl
@[simp] theorem State.setQueue_cuPkts (s : State) (n : Nat) (v : LQueue) : (s.setQueue n v).cuPkts = s.cuPkts := rfl
@[simp] theorem State.setQueue_cuRejs (s : State) (n : Nat) (v : LQueue) : (s.setQueue n v).cuRejs = s.cuRejs := rfl
@[simp] theorem State.setQueue_egress (s : State) (n : Nat) (v : LQueue) : (s.setQueue n v).egress = s.egress := rfl
@[simp] theorem State.setQueue_pairs (s : State) (n : Nat) (v : LQueue) : (s.setQueue n v).pairs = s.pairs := rfl
@[simp] theorem State.setQueue_chips (s : State) (n : Nat) (v : LQueue) : (s.setQueue n v).chips = s.chips := rfl
@[simp] theorem State.setQueue_ports (s : State) (n : Nat) (v : LQueue) : (s.setQueue n v).ports = s.ports := rfl
@[simp] theorem State.setQueue_fab (s : State) (n : Nat) (v : LQueue) : (s.setQueue n v).fab = s.fab := rfl
@[simp] theorem State.setQueue_colls (s : State) (n : Nat) (v : LQueue) : (s.setQueue n v).colls = s.colls := rfl
@[simp] theorem State.setQueue_remHeld (s : State) (n : Nat) (v : LQueue) : (s.setQueue n v).remHeld = s.remHeld := rfl
@[simp] theorem State.setQueue_svcWaits (s : State) (n : Nat) (v : LQueue) : (s.setQueue n v).svcWaits = s.svcWaits := rfl
@[simp] theorem State.setQueue_rio (s : State) (n : Nat) (v : LQueue) : (s.setQueue n v).rio = s.rio := rfl
@[simp] theorem State.setQueue_sgrp (s : State) (n : Nat) (v : LQueue) : (s.setQueue n v).sgrp = s.sgrp := rfl
@[simp] theorem State.setQueue_str (s : State) (n : Nat) (v : LQueue) : (s.setQueue n v).str = s.str := rfl
@[simp] theorem State.setQueue_hosts (s : State) (n : Nat) (v : LQueue) : (s.setQueue n v).hosts = s.hosts := rfl

@[simp] theorem State.setPort_agenda (s : State) (p : Nat) (v : Port) : (s.setPort p v).agenda = s.agenda := rfl
@[simp] theorem State.setPort_cur (s : State) (p : Nat) (v : Port) : (s.setPort p v).cur = s.cur := rfl
@[simp] theorem State.setPort_plan (s : State) (p : Nat) (v : Port) : (s.setPort p v).plan = s.plan := rfl
@[simp] theorem State.setPort_cyc (s : State) (p : Nat) (v : Port) : (s.setPort p v).cyc = s.cyc := rfl
@[simp] theorem State.setPort_issued (s : State) (p : Nat) (v : Port) : (s.setPort p v).issued = s.issued := rfl
@[simp] theorem State.setPort_stalled (s : State) (p : Nat) (v : Port) : (s.setPort p v).stalled = s.stalled := rfl
@[simp] theorem State.setPort_turn (s : State) (p : Nat) (v : Port) : (s.setPort p v).turn = s.turn := rfl
@[simp] theorem State.setPort_tried (s : State) (p : Nat) (v : Port) : (s.setPort p v).tried = s.tried := rfl
@[simp] theorem State.setPort_came (s : State) (p : Nat) (v : Port) : (s.setPort p v).came = s.came := rfl
@[simp] theorem State.setPort_nextId (s : State) (p : Nat) (v : Port) : (s.setPort p v).nextId = s.nextId := rfl
@[simp] theorem State.setPort_fresh (s : State) (p : Nat) (v : Port) : (s.setPort p v).fresh = s.fresh := rfl
@[simp] theorem State.setPort_dev (s : State) (p : Nat) (v : Port) : (s.setPort p v).dev = s.dev := rfl
@[simp] theorem State.setPort_mem (s : State) (p : Nat) (v : Port) : (s.setPort p v).mem = s.mem := rfl
@[simp] theorem State.setPort_groups (s : State) (p : Nat) (v : Port) : (s.setPort p v).groups = s.groups := rfl
@[simp] theorem State.setPort_wgs (s : State) (p : Nat) (v : Port) : (s.setPort p v).wgs = s.wgs := rfl
@[simp] theorem State.setPort_grids (s : State) (p : Nat) (v : Port) : (s.setPort p v).grids = s.grids := rfl
@[simp] theorem State.setPort_lq (s : State) (p : Nat) (v : Port) : (s.setPort p v).lq = s.lq := rfl
@[simp] theorem State.setPort_ctxs (s : State) (p : Nat) (v : Port) : (s.setPort p v).ctxs = s.ctxs := rfl
@[simp] theorem State.setPort_classes (s : State) (p : Nat) (v : Port) : (s.setPort p v).classes = s.classes := rfl
@[simp] theorem State.setPort_cores (s : State) (p : Nat) (v : Port) : (s.setPort p v).cores = s.cores := rfl
@[simp] theorem State.setPort_clusters (s : State) (p : Nat) (v : Port) : (s.setPort p v).clusters = s.clusters := rfl
@[simp] theorem State.setPort_dies (s : State) (p : Nat) (v : Port) : (s.setPort p v).dies = s.dies := rfl
@[simp] theorem State.setPort_ptr (s : State) (p : Nat) (v : Port) : (s.setPort p v).ptr = s.ptr := rfl
@[simp] theorem State.setPort_gdir (s : State) (p : Nat) (v : Port) : (s.setPort p v).gdir = s.gdir := rfl
@[simp] theorem State.setPort_home (s : State) (p : Nat) (v : Port) : (s.setPort p v).home = s.home := rfl
@[simp] theorem State.setPort_cuPkts (s : State) (p : Nat) (v : Port) : (s.setPort p v).cuPkts = s.cuPkts := rfl
@[simp] theorem State.setPort_cuRejs (s : State) (p : Nat) (v : Port) : (s.setPort p v).cuRejs = s.cuRejs := rfl
@[simp] theorem State.setPort_egress (s : State) (p : Nat) (v : Port) : (s.setPort p v).egress = s.egress := rfl
@[simp] theorem State.setPort_pairs (s : State) (p : Nat) (v : Port) : (s.setPort p v).pairs = s.pairs := rfl
@[simp] theorem State.setPort_chips (s : State) (p : Nat) (v : Port) : (s.setPort p v).chips = s.chips := rfl
@[simp] theorem State.setPort_fab (s : State) (p : Nat) (v : Port) : (s.setPort p v).fab = s.fab := rfl
@[simp] theorem State.setPort_colls (s : State) (p : Nat) (v : Port) : (s.setPort p v).colls = s.colls := rfl
@[simp] theorem State.setPort_remHeld (s : State) (p : Nat) (v : Port) : (s.setPort p v).remHeld = s.remHeld := rfl
@[simp] theorem State.setPort_svcWaits (s : State) (p : Nat) (v : Port) : (s.setPort p v).svcWaits = s.svcWaits := rfl
@[simp] theorem State.setPort_rio (s : State) (p : Nat) (v : Port) : (s.setPort p v).rio = s.rio := rfl
@[simp] theorem State.setPort_sgrp (s : State) (p : Nat) (v : Port) : (s.setPort p v).sgrp = s.sgrp := rfl
@[simp] theorem State.setPort_str (s : State) (p : Nat) (v : Port) : (s.setPort p v).str = s.str := rfl
@[simp] theorem State.setPort_hosts (s : State) (p : Nat) (v : Port) : (s.setPort p v).hosts = s.hosts := rfl

@[simp] theorem State.setPair_agenda (s : State) (c t : Nat) (v : Pair) : (s.setPair c t v).agenda = s.agenda := rfl
@[simp] theorem State.setPair_cur (s : State) (c t : Nat) (v : Pair) : (s.setPair c t v).cur = s.cur := rfl
@[simp] theorem State.setPair_plan (s : State) (c t : Nat) (v : Pair) : (s.setPair c t v).plan = s.plan := rfl
@[simp] theorem State.setPair_cyc (s : State) (c t : Nat) (v : Pair) : (s.setPair c t v).cyc = s.cyc := rfl
@[simp] theorem State.setPair_issued (s : State) (c t : Nat) (v : Pair) : (s.setPair c t v).issued = s.issued := rfl
@[simp] theorem State.setPair_stalled (s : State) (c t : Nat) (v : Pair) : (s.setPair c t v).stalled = s.stalled := rfl
@[simp] theorem State.setPair_turn (s : State) (c t : Nat) (v : Pair) : (s.setPair c t v).turn = s.turn := rfl
@[simp] theorem State.setPair_tried (s : State) (c t : Nat) (v : Pair) : (s.setPair c t v).tried = s.tried := rfl
@[simp] theorem State.setPair_came (s : State) (c t : Nat) (v : Pair) : (s.setPair c t v).came = s.came := rfl
@[simp] theorem State.setPair_nextId (s : State) (c t : Nat) (v : Pair) : (s.setPair c t v).nextId = s.nextId := rfl
@[simp] theorem State.setPair_fresh (s : State) (c t : Nat) (v : Pair) : (s.setPair c t v).fresh = s.fresh := rfl
@[simp] theorem State.setPair_dev (s : State) (c t : Nat) (v : Pair) : (s.setPair c t v).dev = s.dev := rfl
@[simp] theorem State.setPair_mem (s : State) (c t : Nat) (v : Pair) : (s.setPair c t v).mem = s.mem := rfl
@[simp] theorem State.setPair_groups (s : State) (c t : Nat) (v : Pair) : (s.setPair c t v).groups = s.groups := rfl
@[simp] theorem State.setPair_wgs (s : State) (c t : Nat) (v : Pair) : (s.setPair c t v).wgs = s.wgs := rfl
@[simp] theorem State.setPair_grids (s : State) (c t : Nat) (v : Pair) : (s.setPair c t v).grids = s.grids := rfl
@[simp] theorem State.setPair_lq (s : State) (c t : Nat) (v : Pair) : (s.setPair c t v).lq = s.lq := rfl
@[simp] theorem State.setPair_ctxs (s : State) (c t : Nat) (v : Pair) : (s.setPair c t v).ctxs = s.ctxs := rfl
@[simp] theorem State.setPair_classes (s : State) (c t : Nat) (v : Pair) : (s.setPair c t v).classes = s.classes := rfl
@[simp] theorem State.setPair_cores (s : State) (c t : Nat) (v : Pair) : (s.setPair c t v).cores = s.cores := rfl
@[simp] theorem State.setPair_clusters (s : State) (c t : Nat) (v : Pair) : (s.setPair c t v).clusters = s.clusters := rfl
@[simp] theorem State.setPair_dies (s : State) (c t : Nat) (v : Pair) : (s.setPair c t v).dies = s.dies := rfl
@[simp] theorem State.setPair_ptr (s : State) (c t : Nat) (v : Pair) : (s.setPair c t v).ptr = s.ptr := rfl
@[simp] theorem State.setPair_gdir (s : State) (c t : Nat) (v : Pair) : (s.setPair c t v).gdir = s.gdir := rfl
@[simp] theorem State.setPair_home (s : State) (c t : Nat) (v : Pair) : (s.setPair c t v).home = s.home := rfl
@[simp] theorem State.setPair_cuPkts (s : State) (c t : Nat) (v : Pair) : (s.setPair c t v).cuPkts = s.cuPkts := rfl
@[simp] theorem State.setPair_cuRejs (s : State) (c t : Nat) (v : Pair) : (s.setPair c t v).cuRejs = s.cuRejs := rfl
@[simp] theorem State.setPair_egress (s : State) (c t : Nat) (v : Pair) : (s.setPair c t v).egress = s.egress := rfl
@[simp] theorem State.setPair_chips (s : State) (c t : Nat) (v : Pair) : (s.setPair c t v).chips = s.chips := rfl
@[simp] theorem State.setPair_ports (s : State) (c t : Nat) (v : Pair) : (s.setPair c t v).ports = s.ports := rfl
@[simp] theorem State.setPair_fab (s : State) (c t : Nat) (v : Pair) : (s.setPair c t v).fab = s.fab := rfl
@[simp] theorem State.setPair_colls (s : State) (c t : Nat) (v : Pair) : (s.setPair c t v).colls = s.colls := rfl
@[simp] theorem State.setPair_remHeld (s : State) (c t : Nat) (v : Pair) : (s.setPair c t v).remHeld = s.remHeld := rfl
@[simp] theorem State.setPair_svcWaits (s : State) (c t : Nat) (v : Pair) : (s.setPair c t v).svcWaits = s.svcWaits := rfl
@[simp] theorem State.setPair_rio (s : State) (c t : Nat) (v : Pair) : (s.setPair c t v).rio = s.rio := rfl
@[simp] theorem State.setPair_sgrp (s : State) (c t : Nat) (v : Pair) : (s.setPair c t v).sgrp = s.sgrp := rfl
@[simp] theorem State.setPair_str (s : State) (c t : Nat) (v : Pair) : (s.setPair c t v).str = s.str := rfl
@[simp] theorem State.setPair_hosts (s : State) (c t : Nat) (v : Pair) : (s.setPair c t v).hosts = s.hosts := rfl

@[simp] theorem State.setChip_agenda (s : State) (c : Nat) (v : Chiplet) : (s.setChip c v).agenda = s.agenda := rfl
@[simp] theorem State.setChip_cur (s : State) (c : Nat) (v : Chiplet) : (s.setChip c v).cur = s.cur := rfl
@[simp] theorem State.setChip_plan (s : State) (c : Nat) (v : Chiplet) : (s.setChip c v).plan = s.plan := rfl
@[simp] theorem State.setChip_cyc (s : State) (c : Nat) (v : Chiplet) : (s.setChip c v).cyc = s.cyc := rfl
@[simp] theorem State.setChip_issued (s : State) (c : Nat) (v : Chiplet) : (s.setChip c v).issued = s.issued := rfl
@[simp] theorem State.setChip_stalled (s : State) (c : Nat) (v : Chiplet) : (s.setChip c v).stalled = s.stalled := rfl
@[simp] theorem State.setChip_turn (s : State) (c : Nat) (v : Chiplet) : (s.setChip c v).turn = s.turn := rfl
@[simp] theorem State.setChip_tried (s : State) (c : Nat) (v : Chiplet) : (s.setChip c v).tried = s.tried := rfl
@[simp] theorem State.setChip_came (s : State) (c : Nat) (v : Chiplet) : (s.setChip c v).came = s.came := rfl
@[simp] theorem State.setChip_nextId (s : State) (c : Nat) (v : Chiplet) : (s.setChip c v).nextId = s.nextId := rfl
@[simp] theorem State.setChip_fresh (s : State) (c : Nat) (v : Chiplet) : (s.setChip c v).fresh = s.fresh := rfl
@[simp] theorem State.setChip_dev (s : State) (c : Nat) (v : Chiplet) : (s.setChip c v).dev = s.dev := rfl
@[simp] theorem State.setChip_mem (s : State) (c : Nat) (v : Chiplet) : (s.setChip c v).mem = s.mem := rfl
@[simp] theorem State.setChip_groups (s : State) (c : Nat) (v : Chiplet) : (s.setChip c v).groups = s.groups := rfl
@[simp] theorem State.setChip_wgs (s : State) (c : Nat) (v : Chiplet) : (s.setChip c v).wgs = s.wgs := rfl
@[simp] theorem State.setChip_grids (s : State) (c : Nat) (v : Chiplet) : (s.setChip c v).grids = s.grids := rfl
@[simp] theorem State.setChip_lq (s : State) (c : Nat) (v : Chiplet) : (s.setChip c v).lq = s.lq := rfl
@[simp] theorem State.setChip_ctxs (s : State) (c : Nat) (v : Chiplet) : (s.setChip c v).ctxs = s.ctxs := rfl
@[simp] theorem State.setChip_classes (s : State) (c : Nat) (v : Chiplet) : (s.setChip c v).classes = s.classes := rfl
@[simp] theorem State.setChip_cores (s : State) (c : Nat) (v : Chiplet) : (s.setChip c v).cores = s.cores := rfl
@[simp] theorem State.setChip_clusters (s : State) (c : Nat) (v : Chiplet) : (s.setChip c v).clusters = s.clusters := rfl
@[simp] theorem State.setChip_dies (s : State) (c : Nat) (v : Chiplet) : (s.setChip c v).dies = s.dies := rfl
@[simp] theorem State.setChip_ptr (s : State) (c : Nat) (v : Chiplet) : (s.setChip c v).ptr = s.ptr := rfl
@[simp] theorem State.setChip_gdir (s : State) (c : Nat) (v : Chiplet) : (s.setChip c v).gdir = s.gdir := rfl
@[simp] theorem State.setChip_home (s : State) (c : Nat) (v : Chiplet) : (s.setChip c v).home = s.home := rfl
@[simp] theorem State.setChip_cuPkts (s : State) (c : Nat) (v : Chiplet) : (s.setChip c v).cuPkts = s.cuPkts := rfl
@[simp] theorem State.setChip_cuRejs (s : State) (c : Nat) (v : Chiplet) : (s.setChip c v).cuRejs = s.cuRejs := rfl
@[simp] theorem State.setChip_egress (s : State) (c : Nat) (v : Chiplet) : (s.setChip c v).egress = s.egress := rfl
@[simp] theorem State.setChip_pairs (s : State) (c : Nat) (v : Chiplet) : (s.setChip c v).pairs = s.pairs := rfl
@[simp] theorem State.setChip_ports (s : State) (c : Nat) (v : Chiplet) : (s.setChip c v).ports = s.ports := rfl
@[simp] theorem State.setChip_fab (s : State) (c : Nat) (v : Chiplet) : (s.setChip c v).fab = s.fab := rfl
@[simp] theorem State.setChip_colls (s : State) (c : Nat) (v : Chiplet) : (s.setChip c v).colls = s.colls := rfl
@[simp] theorem State.setChip_remHeld (s : State) (c : Nat) (v : Chiplet) : (s.setChip c v).remHeld = s.remHeld := rfl
@[simp] theorem State.setChip_svcWaits (s : State) (c : Nat) (v : Chiplet) : (s.setChip c v).svcWaits = s.svcWaits := rfl
@[simp] theorem State.setChip_rio (s : State) (c : Nat) (v : Chiplet) : (s.setChip c v).rio = s.rio := rfl
@[simp] theorem State.setChip_sgrp (s : State) (c : Nat) (v : Chiplet) : (s.setChip c v).sgrp = s.sgrp := rfl
@[simp] theorem State.setChip_str (s : State) (c : Nat) (v : Chiplet) : (s.setChip c v).str = s.str := rfl
@[simp] theorem State.setChip_hosts (s : State) (c : Nat) (v : Chiplet) : (s.setChip c v).hosts = s.hosts := rfl

@[simp] theorem State.setHost_agenda (s : State) (f : Nat) (v : HostFn) : (s.setHost f v).agenda = s.agenda := rfl
@[simp] theorem State.setHost_cur (s : State) (f : Nat) (v : HostFn) : (s.setHost f v).cur = s.cur := rfl
@[simp] theorem State.setHost_plan (s : State) (f : Nat) (v : HostFn) : (s.setHost f v).plan = s.plan := rfl
@[simp] theorem State.setHost_cyc (s : State) (f : Nat) (v : HostFn) : (s.setHost f v).cyc = s.cyc := rfl
@[simp] theorem State.setHost_issued (s : State) (f : Nat) (v : HostFn) : (s.setHost f v).issued = s.issued := rfl
@[simp] theorem State.setHost_stalled (s : State) (f : Nat) (v : HostFn) : (s.setHost f v).stalled = s.stalled := rfl
@[simp] theorem State.setHost_turn (s : State) (f : Nat) (v : HostFn) : (s.setHost f v).turn = s.turn := rfl
@[simp] theorem State.setHost_tried (s : State) (f : Nat) (v : HostFn) : (s.setHost f v).tried = s.tried := rfl
@[simp] theorem State.setHost_came (s : State) (f : Nat) (v : HostFn) : (s.setHost f v).came = s.came := rfl
@[simp] theorem State.setHost_nextId (s : State) (f : Nat) (v : HostFn) : (s.setHost f v).nextId = s.nextId := rfl
@[simp] theorem State.setHost_fresh (s : State) (f : Nat) (v : HostFn) : (s.setHost f v).fresh = s.fresh := rfl
@[simp] theorem State.setHost_dev (s : State) (f : Nat) (v : HostFn) : (s.setHost f v).dev = s.dev := rfl
@[simp] theorem State.setHost_mem (s : State) (f : Nat) (v : HostFn) : (s.setHost f v).mem = s.mem := rfl
@[simp] theorem State.setHost_groups (s : State) (f : Nat) (v : HostFn) : (s.setHost f v).groups = s.groups := rfl
@[simp] theorem State.setHost_wgs (s : State) (f : Nat) (v : HostFn) : (s.setHost f v).wgs = s.wgs := rfl
@[simp] theorem State.setHost_grids (s : State) (f : Nat) (v : HostFn) : (s.setHost f v).grids = s.grids := rfl
@[simp] theorem State.setHost_lq (s : State) (f : Nat) (v : HostFn) : (s.setHost f v).lq = s.lq := rfl
@[simp] theorem State.setHost_ctxs (s : State) (f : Nat) (v : HostFn) : (s.setHost f v).ctxs = s.ctxs := rfl
@[simp] theorem State.setHost_classes (s : State) (f : Nat) (v : HostFn) : (s.setHost f v).classes = s.classes := rfl
@[simp] theorem State.setHost_cores (s : State) (f : Nat) (v : HostFn) : (s.setHost f v).cores = s.cores := rfl
@[simp] theorem State.setHost_clusters (s : State) (f : Nat) (v : HostFn) : (s.setHost f v).clusters = s.clusters := rfl
@[simp] theorem State.setHost_dies (s : State) (f : Nat) (v : HostFn) : (s.setHost f v).dies = s.dies := rfl
@[simp] theorem State.setHost_ptr (s : State) (f : Nat) (v : HostFn) : (s.setHost f v).ptr = s.ptr := rfl
@[simp] theorem State.setHost_gdir (s : State) (f : Nat) (v : HostFn) : (s.setHost f v).gdir = s.gdir := rfl
@[simp] theorem State.setHost_home (s : State) (f : Nat) (v : HostFn) : (s.setHost f v).home = s.home := rfl
@[simp] theorem State.setHost_cuPkts (s : State) (f : Nat) (v : HostFn) : (s.setHost f v).cuPkts = s.cuPkts := rfl
@[simp] theorem State.setHost_cuRejs (s : State) (f : Nat) (v : HostFn) : (s.setHost f v).cuRejs = s.cuRejs := rfl
@[simp] theorem State.setHost_egress (s : State) (f : Nat) (v : HostFn) : (s.setHost f v).egress = s.egress := rfl
@[simp] theorem State.setHost_pairs (s : State) (f : Nat) (v : HostFn) : (s.setHost f v).pairs = s.pairs := rfl
@[simp] theorem State.setHost_chips (s : State) (f : Nat) (v : HostFn) : (s.setHost f v).chips = s.chips := rfl
@[simp] theorem State.setHost_ports (s : State) (f : Nat) (v : HostFn) : (s.setHost f v).ports = s.ports := rfl
@[simp] theorem State.setHost_fab (s : State) (f : Nat) (v : HostFn) : (s.setHost f v).fab = s.fab := rfl
@[simp] theorem State.setHost_colls (s : State) (f : Nat) (v : HostFn) : (s.setHost f v).colls = s.colls := rfl
@[simp] theorem State.setHost_remHeld (s : State) (f : Nat) (v : HostFn) : (s.setHost f v).remHeld = s.remHeld := rfl
@[simp] theorem State.setHost_svcWaits (s : State) (f : Nat) (v : HostFn) : (s.setHost f v).svcWaits = s.svcWaits := rfl
@[simp] theorem State.setHost_rio (s : State) (f : Nat) (v : HostFn) : (s.setHost f v).rio = s.rio := rfl
@[simp] theorem State.setHost_sgrp (s : State) (f : Nat) (v : HostFn) : (s.setHost f v).sgrp = s.sgrp := rfl
@[simp] theorem State.setHost_str (s : State) (f : Nat) (v : HostFn) : (s.setHost f v).str = s.str := rfl

@[simp] theorem State.setEgr_agenda (s : State) (q : Nat) (v : Egress) : (s.setEgr q v).agenda = s.agenda := rfl
@[simp] theorem State.setEgr_cur (s : State) (q : Nat) (v : Egress) : (s.setEgr q v).cur = s.cur := rfl
@[simp] theorem State.setEgr_plan (s : State) (q : Nat) (v : Egress) : (s.setEgr q v).plan = s.plan := rfl
@[simp] theorem State.setEgr_cyc (s : State) (q : Nat) (v : Egress) : (s.setEgr q v).cyc = s.cyc := rfl
@[simp] theorem State.setEgr_issued (s : State) (q : Nat) (v : Egress) : (s.setEgr q v).issued = s.issued := rfl
@[simp] theorem State.setEgr_stalled (s : State) (q : Nat) (v : Egress) : (s.setEgr q v).stalled = s.stalled := rfl
@[simp] theorem State.setEgr_turn (s : State) (q : Nat) (v : Egress) : (s.setEgr q v).turn = s.turn := rfl
@[simp] theorem State.setEgr_tried (s : State) (q : Nat) (v : Egress) : (s.setEgr q v).tried = s.tried := rfl
@[simp] theorem State.setEgr_came (s : State) (q : Nat) (v : Egress) : (s.setEgr q v).came = s.came := rfl
@[simp] theorem State.setEgr_nextId (s : State) (q : Nat) (v : Egress) : (s.setEgr q v).nextId = s.nextId := rfl
@[simp] theorem State.setEgr_fresh (s : State) (q : Nat) (v : Egress) : (s.setEgr q v).fresh = s.fresh := rfl
@[simp] theorem State.setEgr_dev (s : State) (q : Nat) (v : Egress) : (s.setEgr q v).dev = s.dev := rfl
@[simp] theorem State.setEgr_mem (s : State) (q : Nat) (v : Egress) : (s.setEgr q v).mem = s.mem := rfl
@[simp] theorem State.setEgr_groups (s : State) (q : Nat) (v : Egress) : (s.setEgr q v).groups = s.groups := rfl
@[simp] theorem State.setEgr_wgs (s : State) (q : Nat) (v : Egress) : (s.setEgr q v).wgs = s.wgs := rfl
@[simp] theorem State.setEgr_grids (s : State) (q : Nat) (v : Egress) : (s.setEgr q v).grids = s.grids := rfl
@[simp] theorem State.setEgr_lq (s : State) (q : Nat) (v : Egress) : (s.setEgr q v).lq = s.lq := rfl
@[simp] theorem State.setEgr_ctxs (s : State) (q : Nat) (v : Egress) : (s.setEgr q v).ctxs = s.ctxs := rfl
@[simp] theorem State.setEgr_classes (s : State) (q : Nat) (v : Egress) : (s.setEgr q v).classes = s.classes := rfl
@[simp] theorem State.setEgr_cores (s : State) (q : Nat) (v : Egress) : (s.setEgr q v).cores = s.cores := rfl
@[simp] theorem State.setEgr_clusters (s : State) (q : Nat) (v : Egress) : (s.setEgr q v).clusters = s.clusters := rfl
@[simp] theorem State.setEgr_dies (s : State) (q : Nat) (v : Egress) : (s.setEgr q v).dies = s.dies := rfl
@[simp] theorem State.setEgr_ptr (s : State) (q : Nat) (v : Egress) : (s.setEgr q v).ptr = s.ptr := rfl
@[simp] theorem State.setEgr_gdir (s : State) (q : Nat) (v : Egress) : (s.setEgr q v).gdir = s.gdir := rfl
@[simp] theorem State.setEgr_home (s : State) (q : Nat) (v : Egress) : (s.setEgr q v).home = s.home := rfl
@[simp] theorem State.setEgr_cuPkts (s : State) (q : Nat) (v : Egress) : (s.setEgr q v).cuPkts = s.cuPkts := rfl
@[simp] theorem State.setEgr_cuRejs (s : State) (q : Nat) (v : Egress) : (s.setEgr q v).cuRejs = s.cuRejs := rfl
@[simp] theorem State.setEgr_pairs (s : State) (q : Nat) (v : Egress) : (s.setEgr q v).pairs = s.pairs := rfl
@[simp] theorem State.setEgr_chips (s : State) (q : Nat) (v : Egress) : (s.setEgr q v).chips = s.chips := rfl
@[simp] theorem State.setEgr_ports (s : State) (q : Nat) (v : Egress) : (s.setEgr q v).ports = s.ports := rfl
@[simp] theorem State.setEgr_fab (s : State) (q : Nat) (v : Egress) : (s.setEgr q v).fab = s.fab := rfl
@[simp] theorem State.setEgr_colls (s : State) (q : Nat) (v : Egress) : (s.setEgr q v).colls = s.colls := rfl
@[simp] theorem State.setEgr_remHeld (s : State) (q : Nat) (v : Egress) : (s.setEgr q v).remHeld = s.remHeld := rfl
@[simp] theorem State.setEgr_svcWaits (s : State) (q : Nat) (v : Egress) : (s.setEgr q v).svcWaits = s.svcWaits := rfl
@[simp] theorem State.setEgr_rio (s : State) (q : Nat) (v : Egress) : (s.setEgr q v).rio = s.rio := rfl
@[simp] theorem State.setEgr_sgrp (s : State) (q : Nat) (v : Egress) : (s.setEgr q v).sgrp = s.sgrp := rfl
@[simp] theorem State.setEgr_str (s : State) (q : Nat) (v : Egress) : (s.setEgr q v).str = s.str := rfl
@[simp] theorem State.setEgr_hosts (s : State) (q : Nat) (v : Egress) : (s.setEgr q v).hosts = s.hosts := rfl

@[simp] theorem State.setGrp_agenda (s : State) (k : Nat) (g : Group) : (s.setGrp k g).agenda = s.agenda := rfl
@[simp] theorem State.setGrp_cur (s : State) (k : Nat) (g : Group) : (s.setGrp k g).cur = s.cur := rfl
@[simp] theorem State.setGrp_plan (s : State) (k : Nat) (g : Group) : (s.setGrp k g).plan = s.plan := rfl
@[simp] theorem State.setGrp_cyc (s : State) (k : Nat) (g : Group) : (s.setGrp k g).cyc = s.cyc := rfl
@[simp] theorem State.setGrp_issued (s : State) (k : Nat) (g : Group) : (s.setGrp k g).issued = s.issued := rfl
@[simp] theorem State.setGrp_stalled (s : State) (k : Nat) (g : Group) : (s.setGrp k g).stalled = s.stalled := rfl
@[simp] theorem State.setGrp_turn (s : State) (k : Nat) (g : Group) : (s.setGrp k g).turn = s.turn := rfl
@[simp] theorem State.setGrp_tried (s : State) (k : Nat) (g : Group) : (s.setGrp k g).tried = s.tried := rfl
@[simp] theorem State.setGrp_came (s : State) (k : Nat) (g : Group) : (s.setGrp k g).came = s.came := rfl
@[simp] theorem State.setGrp_nextId (s : State) (k : Nat) (g : Group) : (s.setGrp k g).nextId = s.nextId := rfl
@[simp] theorem State.setGrp_fresh (s : State) (k : Nat) (g : Group) : (s.setGrp k g).fresh = s.fresh := rfl
@[simp] theorem State.setGrp_dev (s : State) (k : Nat) (g : Group) : (s.setGrp k g).dev = s.dev := rfl
@[simp] theorem State.setGrp_mem (s : State) (k : Nat) (g : Group) : (s.setGrp k g).mem = s.mem := rfl
@[simp] theorem State.setGrp_wgs (s : State) (k : Nat) (g : Group) : (s.setGrp k g).wgs = s.wgs := rfl
@[simp] theorem State.setGrp_grids (s : State) (k : Nat) (g : Group) : (s.setGrp k g).grids = s.grids := rfl
@[simp] theorem State.setGrp_lq (s : State) (k : Nat) (g : Group) : (s.setGrp k g).lq = s.lq := rfl
@[simp] theorem State.setGrp_ctxs (s : State) (k : Nat) (g : Group) : (s.setGrp k g).ctxs = s.ctxs := rfl
@[simp] theorem State.setGrp_classes (s : State) (k : Nat) (g : Group) : (s.setGrp k g).classes = s.classes := rfl
@[simp] theorem State.setGrp_cores (s : State) (k : Nat) (g : Group) : (s.setGrp k g).cores = s.cores := rfl
@[simp] theorem State.setGrp_clusters (s : State) (k : Nat) (g : Group) : (s.setGrp k g).clusters = s.clusters := rfl
@[simp] theorem State.setGrp_dies (s : State) (k : Nat) (g : Group) : (s.setGrp k g).dies = s.dies := rfl
@[simp] theorem State.setGrp_ptr (s : State) (k : Nat) (g : Group) : (s.setGrp k g).ptr = s.ptr := rfl
@[simp] theorem State.setGrp_gdir (s : State) (k : Nat) (g : Group) : (s.setGrp k g).gdir = s.gdir := rfl
@[simp] theorem State.setGrp_home (s : State) (k : Nat) (g : Group) : (s.setGrp k g).home = s.home := rfl
@[simp] theorem State.setGrp_cuPkts (s : State) (k : Nat) (g : Group) : (s.setGrp k g).cuPkts = s.cuPkts := rfl
@[simp] theorem State.setGrp_cuRejs (s : State) (k : Nat) (g : Group) : (s.setGrp k g).cuRejs = s.cuRejs := rfl
@[simp] theorem State.setGrp_egress (s : State) (k : Nat) (g : Group) : (s.setGrp k g).egress = s.egress := rfl
@[simp] theorem State.setGrp_pairs (s : State) (k : Nat) (g : Group) : (s.setGrp k g).pairs = s.pairs := rfl
@[simp] theorem State.setGrp_chips (s : State) (k : Nat) (g : Group) : (s.setGrp k g).chips = s.chips := rfl
@[simp] theorem State.setGrp_ports (s : State) (k : Nat) (g : Group) : (s.setGrp k g).ports = s.ports := rfl
@[simp] theorem State.setGrp_fab (s : State) (k : Nat) (g : Group) : (s.setGrp k g).fab = s.fab := rfl
@[simp] theorem State.setGrp_colls (s : State) (k : Nat) (g : Group) : (s.setGrp k g).colls = s.colls := rfl
@[simp] theorem State.setGrp_remHeld (s : State) (k : Nat) (g : Group) : (s.setGrp k g).remHeld = s.remHeld := rfl
@[simp] theorem State.setGrp_svcWaits (s : State) (k : Nat) (g : Group) : (s.setGrp k g).svcWaits = s.svcWaits := rfl
@[simp] theorem State.setGrp_rio (s : State) (k : Nat) (g : Group) : (s.setGrp k g).rio = s.rio := rfl
@[simp] theorem State.setGrp_sgrp (s : State) (k : Nat) (g : Group) : (s.setGrp k g).sgrp = s.sgrp := rfl
@[simp] theorem State.setGrp_str (s : State) (k : Nat) (g : Group) : (s.setGrp k g).str = s.str := rfl
@[simp] theorem State.setGrp_hosts (s : State) (k : Nat) (g : Group) : (s.setGrp k g).hosts = s.hosts := rfl

@[simp] theorem State.modGrp_agenda (s : State) (k : Nat) (f : Group → Group) : (s.modGrp k f).agenda = s.agenda := rfl
@[simp] theorem State.modGrp_cur (s : State) (k : Nat) (f : Group → Group) : (s.modGrp k f).cur = s.cur := rfl
@[simp] theorem State.modGrp_plan (s : State) (k : Nat) (f : Group → Group) : (s.modGrp k f).plan = s.plan := rfl
@[simp] theorem State.modGrp_cyc (s : State) (k : Nat) (f : Group → Group) : (s.modGrp k f).cyc = s.cyc := rfl
@[simp] theorem State.modGrp_issued (s : State) (k : Nat) (f : Group → Group) : (s.modGrp k f).issued = s.issued := rfl
@[simp] theorem State.modGrp_stalled (s : State) (k : Nat) (f : Group → Group) : (s.modGrp k f).stalled = s.stalled := rfl
@[simp] theorem State.modGrp_turn (s : State) (k : Nat) (f : Group → Group) : (s.modGrp k f).turn = s.turn := rfl
@[simp] theorem State.modGrp_tried (s : State) (k : Nat) (f : Group → Group) : (s.modGrp k f).tried = s.tried := rfl
@[simp] theorem State.modGrp_came (s : State) (k : Nat) (f : Group → Group) : (s.modGrp k f).came = s.came := rfl
@[simp] theorem State.modGrp_nextId (s : State) (k : Nat) (f : Group → Group) : (s.modGrp k f).nextId = s.nextId := rfl
@[simp] theorem State.modGrp_fresh (s : State) (k : Nat) (f : Group → Group) : (s.modGrp k f).fresh = s.fresh := rfl
@[simp] theorem State.modGrp_dev (s : State) (k : Nat) (f : Group → Group) : (s.modGrp k f).dev = s.dev := rfl
@[simp] theorem State.modGrp_mem (s : State) (k : Nat) (f : Group → Group) : (s.modGrp k f).mem = s.mem := rfl
@[simp] theorem State.modGrp_wgs (s : State) (k : Nat) (f : Group → Group) : (s.modGrp k f).wgs = s.wgs := rfl
@[simp] theorem State.modGrp_grids (s : State) (k : Nat) (f : Group → Group) : (s.modGrp k f).grids = s.grids := rfl
@[simp] theorem State.modGrp_lq (s : State) (k : Nat) (f : Group → Group) : (s.modGrp k f).lq = s.lq := rfl
@[simp] theorem State.modGrp_ctxs (s : State) (k : Nat) (f : Group → Group) : (s.modGrp k f).ctxs = s.ctxs := rfl
@[simp] theorem State.modGrp_classes (s : State) (k : Nat) (f : Group → Group) : (s.modGrp k f).classes = s.classes := rfl
@[simp] theorem State.modGrp_cores (s : State) (k : Nat) (f : Group → Group) : (s.modGrp k f).cores = s.cores := rfl
@[simp] theorem State.modGrp_clusters (s : State) (k : Nat) (f : Group → Group) : (s.modGrp k f).clusters = s.clusters := rfl
@[simp] theorem State.modGrp_dies (s : State) (k : Nat) (f : Group → Group) : (s.modGrp k f).dies = s.dies := rfl
@[simp] theorem State.modGrp_ptr (s : State) (k : Nat) (f : Group → Group) : (s.modGrp k f).ptr = s.ptr := rfl
@[simp] theorem State.modGrp_gdir (s : State) (k : Nat) (f : Group → Group) : (s.modGrp k f).gdir = s.gdir := rfl
@[simp] theorem State.modGrp_home (s : State) (k : Nat) (f : Group → Group) : (s.modGrp k f).home = s.home := rfl
@[simp] theorem State.modGrp_cuPkts (s : State) (k : Nat) (f : Group → Group) : (s.modGrp k f).cuPkts = s.cuPkts := rfl
@[simp] theorem State.modGrp_cuRejs (s : State) (k : Nat) (f : Group → Group) : (s.modGrp k f).cuRejs = s.cuRejs := rfl
@[simp] theorem State.modGrp_egress (s : State) (k : Nat) (f : Group → Group) : (s.modGrp k f).egress = s.egress := rfl
@[simp] theorem State.modGrp_pairs (s : State) (k : Nat) (f : Group → Group) : (s.modGrp k f).pairs = s.pairs := rfl
@[simp] theorem State.modGrp_chips (s : State) (k : Nat) (f : Group → Group) : (s.modGrp k f).chips = s.chips := rfl
@[simp] theorem State.modGrp_ports (s : State) (k : Nat) (f : Group → Group) : (s.modGrp k f).ports = s.ports := rfl
@[simp] theorem State.modGrp_fab (s : State) (k : Nat) (f : Group → Group) : (s.modGrp k f).fab = s.fab := rfl
@[simp] theorem State.modGrp_colls (s : State) (k : Nat) (f : Group → Group) : (s.modGrp k f).colls = s.colls := rfl
@[simp] theorem State.modGrp_remHeld (s : State) (k : Nat) (f : Group → Group) : (s.modGrp k f).remHeld = s.remHeld := rfl
@[simp] theorem State.modGrp_svcWaits (s : State) (k : Nat) (f : Group → Group) : (s.modGrp k f).svcWaits = s.svcWaits := rfl
@[simp] theorem State.modGrp_rio (s : State) (k : Nat) (f : Group → Group) : (s.modGrp k f).rio = s.rio := rfl
@[simp] theorem State.modGrp_sgrp (s : State) (k : Nat) (f : Group → Group) : (s.modGrp k f).sgrp = s.sgrp := rfl
@[simp] theorem State.modGrp_str (s : State) (k : Nat) (f : Group → Group) : (s.modGrp k f).str = s.str := rfl
@[simp] theorem State.modGrp_hosts (s : State) (k : Nat) (f : Group → Group) : (s.modGrp k f).hosts = s.hosts := rfl

@[simp] theorem State.setWg_agenda (s : State) (w : Nat) (v : Workgroup) : (s.setWg w v).agenda = s.agenda := rfl
@[simp] theorem State.setWg_cur (s : State) (w : Nat) (v : Workgroup) : (s.setWg w v).cur = s.cur := rfl
@[simp] theorem State.setWg_plan (s : State) (w : Nat) (v : Workgroup) : (s.setWg w v).plan = s.plan := rfl
@[simp] theorem State.setWg_cyc (s : State) (w : Nat) (v : Workgroup) : (s.setWg w v).cyc = s.cyc := rfl
@[simp] theorem State.setWg_issued (s : State) (w : Nat) (v : Workgroup) : (s.setWg w v).issued = s.issued := rfl
@[simp] theorem State.setWg_stalled (s : State) (w : Nat) (v : Workgroup) : (s.setWg w v).stalled = s.stalled := rfl
@[simp] theorem State.setWg_turn (s : State) (w : Nat) (v : Workgroup) : (s.setWg w v).turn = s.turn := rfl
@[simp] theorem State.setWg_tried (s : State) (w : Nat) (v : Workgroup) : (s.setWg w v).tried = s.tried := rfl
@[simp] theorem State.setWg_came (s : State) (w : Nat) (v : Workgroup) : (s.setWg w v).came = s.came := rfl
@[simp] theorem State.setWg_nextId (s : State) (w : Nat) (v : Workgroup) : (s.setWg w v).nextId = s.nextId := rfl
@[simp] theorem State.setWg_fresh (s : State) (w : Nat) (v : Workgroup) : (s.setWg w v).fresh = s.fresh := rfl
@[simp] theorem State.setWg_dev (s : State) (w : Nat) (v : Workgroup) : (s.setWg w v).dev = s.dev := rfl
@[simp] theorem State.setWg_mem (s : State) (w : Nat) (v : Workgroup) : (s.setWg w v).mem = s.mem := rfl
@[simp] theorem State.setWg_groups (s : State) (w : Nat) (v : Workgroup) : (s.setWg w v).groups = s.groups := rfl
@[simp] theorem State.setWg_grids (s : State) (w : Nat) (v : Workgroup) : (s.setWg w v).grids = s.grids := rfl
@[simp] theorem State.setWg_lq (s : State) (w : Nat) (v : Workgroup) : (s.setWg w v).lq = s.lq := rfl
@[simp] theorem State.setWg_ctxs (s : State) (w : Nat) (v : Workgroup) : (s.setWg w v).ctxs = s.ctxs := rfl
@[simp] theorem State.setWg_classes (s : State) (w : Nat) (v : Workgroup) : (s.setWg w v).classes = s.classes := rfl
@[simp] theorem State.setWg_cores (s : State) (w : Nat) (v : Workgroup) : (s.setWg w v).cores = s.cores := rfl
@[simp] theorem State.setWg_clusters (s : State) (w : Nat) (v : Workgroup) : (s.setWg w v).clusters = s.clusters := rfl
@[simp] theorem State.setWg_dies (s : State) (w : Nat) (v : Workgroup) : (s.setWg w v).dies = s.dies := rfl
@[simp] theorem State.setWg_ptr (s : State) (w : Nat) (v : Workgroup) : (s.setWg w v).ptr = s.ptr := rfl
@[simp] theorem State.setWg_gdir (s : State) (w : Nat) (v : Workgroup) : (s.setWg w v).gdir = s.gdir := rfl
@[simp] theorem State.setWg_home (s : State) (w : Nat) (v : Workgroup) : (s.setWg w v).home = s.home := rfl
@[simp] theorem State.setWg_cuPkts (s : State) (w : Nat) (v : Workgroup) : (s.setWg w v).cuPkts = s.cuPkts := rfl
@[simp] theorem State.setWg_cuRejs (s : State) (w : Nat) (v : Workgroup) : (s.setWg w v).cuRejs = s.cuRejs := rfl
@[simp] theorem State.setWg_egress (s : State) (w : Nat) (v : Workgroup) : (s.setWg w v).egress = s.egress := rfl
@[simp] theorem State.setWg_pairs (s : State) (w : Nat) (v : Workgroup) : (s.setWg w v).pairs = s.pairs := rfl
@[simp] theorem State.setWg_chips (s : State) (w : Nat) (v : Workgroup) : (s.setWg w v).chips = s.chips := rfl
@[simp] theorem State.setWg_ports (s : State) (w : Nat) (v : Workgroup) : (s.setWg w v).ports = s.ports := rfl
@[simp] theorem State.setWg_fab (s : State) (w : Nat) (v : Workgroup) : (s.setWg w v).fab = s.fab := rfl
@[simp] theorem State.setWg_colls (s : State) (w : Nat) (v : Workgroup) : (s.setWg w v).colls = s.colls := rfl
@[simp] theorem State.setWg_remHeld (s : State) (w : Nat) (v : Workgroup) : (s.setWg w v).remHeld = s.remHeld := rfl
@[simp] theorem State.setWg_svcWaits (s : State) (w : Nat) (v : Workgroup) : (s.setWg w v).svcWaits = s.svcWaits := rfl
@[simp] theorem State.setWg_rio (s : State) (w : Nat) (v : Workgroup) : (s.setWg w v).rio = s.rio := rfl
@[simp] theorem State.setWg_sgrp (s : State) (w : Nat) (v : Workgroup) : (s.setWg w v).sgrp = s.sgrp := rfl
@[simp] theorem State.setWg_str (s : State) (w : Nat) (v : Workgroup) : (s.setWg w v).str = s.str := rfl
@[simp] theorem State.setWg_hosts (s : State) (w : Nat) (v : Workgroup) : (s.setWg w v).hosts = s.hosts := rfl

@[simp] theorem State.modWg_agenda (s : State) (w : Nat) (f : Workgroup → Workgroup) : (s.modWg w f).agenda = s.agenda := rfl
@[simp] theorem State.modWg_cur (s : State) (w : Nat) (f : Workgroup → Workgroup) : (s.modWg w f).cur = s.cur := rfl
@[simp] theorem State.modWg_plan (s : State) (w : Nat) (f : Workgroup → Workgroup) : (s.modWg w f).plan = s.plan := rfl
@[simp] theorem State.modWg_cyc (s : State) (w : Nat) (f : Workgroup → Workgroup) : (s.modWg w f).cyc = s.cyc := rfl
@[simp] theorem State.modWg_issued (s : State) (w : Nat) (f : Workgroup → Workgroup) : (s.modWg w f).issued = s.issued := rfl
@[simp] theorem State.modWg_stalled (s : State) (w : Nat) (f : Workgroup → Workgroup) : (s.modWg w f).stalled = s.stalled := rfl
@[simp] theorem State.modWg_turn (s : State) (w : Nat) (f : Workgroup → Workgroup) : (s.modWg w f).turn = s.turn := rfl
@[simp] theorem State.modWg_tried (s : State) (w : Nat) (f : Workgroup → Workgroup) : (s.modWg w f).tried = s.tried := rfl
@[simp] theorem State.modWg_came (s : State) (w : Nat) (f : Workgroup → Workgroup) : (s.modWg w f).came = s.came := rfl
@[simp] theorem State.modWg_nextId (s : State) (w : Nat) (f : Workgroup → Workgroup) : (s.modWg w f).nextId = s.nextId := rfl
@[simp] theorem State.modWg_fresh (s : State) (w : Nat) (f : Workgroup → Workgroup) : (s.modWg w f).fresh = s.fresh := rfl
@[simp] theorem State.modWg_dev (s : State) (w : Nat) (f : Workgroup → Workgroup) : (s.modWg w f).dev = s.dev := rfl
@[simp] theorem State.modWg_mem (s : State) (w : Nat) (f : Workgroup → Workgroup) : (s.modWg w f).mem = s.mem := rfl
@[simp] theorem State.modWg_groups (s : State) (w : Nat) (f : Workgroup → Workgroup) : (s.modWg w f).groups = s.groups := rfl
@[simp] theorem State.modWg_grids (s : State) (w : Nat) (f : Workgroup → Workgroup) : (s.modWg w f).grids = s.grids := rfl
@[simp] theorem State.modWg_lq (s : State) (w : Nat) (f : Workgroup → Workgroup) : (s.modWg w f).lq = s.lq := rfl
@[simp] theorem State.modWg_ctxs (s : State) (w : Nat) (f : Workgroup → Workgroup) : (s.modWg w f).ctxs = s.ctxs := rfl
@[simp] theorem State.modWg_classes (s : State) (w : Nat) (f : Workgroup → Workgroup) : (s.modWg w f).classes = s.classes := rfl
@[simp] theorem State.modWg_cores (s : State) (w : Nat) (f : Workgroup → Workgroup) : (s.modWg w f).cores = s.cores := rfl
@[simp] theorem State.modWg_clusters (s : State) (w : Nat) (f : Workgroup → Workgroup) : (s.modWg w f).clusters = s.clusters := rfl
@[simp] theorem State.modWg_dies (s : State) (w : Nat) (f : Workgroup → Workgroup) : (s.modWg w f).dies = s.dies := rfl
@[simp] theorem State.modWg_ptr (s : State) (w : Nat) (f : Workgroup → Workgroup) : (s.modWg w f).ptr = s.ptr := rfl
@[simp] theorem State.modWg_gdir (s : State) (w : Nat) (f : Workgroup → Workgroup) : (s.modWg w f).gdir = s.gdir := rfl
@[simp] theorem State.modWg_home (s : State) (w : Nat) (f : Workgroup → Workgroup) : (s.modWg w f).home = s.home := rfl
@[simp] theorem State.modWg_cuPkts (s : State) (w : Nat) (f : Workgroup → Workgroup) : (s.modWg w f).cuPkts = s.cuPkts := rfl
@[simp] theorem State.modWg_cuRejs (s : State) (w : Nat) (f : Workgroup → Workgroup) : (s.modWg w f).cuRejs = s.cuRejs := rfl
@[simp] theorem State.modWg_egress (s : State) (w : Nat) (f : Workgroup → Workgroup) : (s.modWg w f).egress = s.egress := rfl
@[simp] theorem State.modWg_pairs (s : State) (w : Nat) (f : Workgroup → Workgroup) : (s.modWg w f).pairs = s.pairs := rfl
@[simp] theorem State.modWg_chips (s : State) (w : Nat) (f : Workgroup → Workgroup) : (s.modWg w f).chips = s.chips := rfl
@[simp] theorem State.modWg_ports (s : State) (w : Nat) (f : Workgroup → Workgroup) : (s.modWg w f).ports = s.ports := rfl
@[simp] theorem State.modWg_fab (s : State) (w : Nat) (f : Workgroup → Workgroup) : (s.modWg w f).fab = s.fab := rfl
@[simp] theorem State.modWg_colls (s : State) (w : Nat) (f : Workgroup → Workgroup) : (s.modWg w f).colls = s.colls := rfl
@[simp] theorem State.modWg_remHeld (s : State) (w : Nat) (f : Workgroup → Workgroup) : (s.modWg w f).remHeld = s.remHeld := rfl
@[simp] theorem State.modWg_svcWaits (s : State) (w : Nat) (f : Workgroup → Workgroup) : (s.modWg w f).svcWaits = s.svcWaits := rfl
@[simp] theorem State.modWg_rio (s : State) (w : Nat) (f : Workgroup → Workgroup) : (s.modWg w f).rio = s.rio := rfl
@[simp] theorem State.modWg_sgrp (s : State) (w : Nat) (f : Workgroup → Workgroup) : (s.modWg w f).sgrp = s.sgrp := rfl
@[simp] theorem State.modWg_str (s : State) (w : Nat) (f : Workgroup → Workgroup) : (s.modWg w f).str = s.str := rfl
@[simp] theorem State.modWg_hosts (s : State) (w : Nat) (f : Workgroup → Workgroup) : (s.modWg w f).hosts = s.hosts := rfl

@[simp] theorem State.modDev_agenda (s : State) (f : Device → Device) : (s.modDev f).agenda = s.agenda := rfl
@[simp] theorem State.modDev_cur (s : State) (f : Device → Device) : (s.modDev f).cur = s.cur := rfl
@[simp] theorem State.modDev_plan (s : State) (f : Device → Device) : (s.modDev f).plan = s.plan := rfl
@[simp] theorem State.modDev_cyc (s : State) (f : Device → Device) : (s.modDev f).cyc = s.cyc := rfl
@[simp] theorem State.modDev_issued (s : State) (f : Device → Device) : (s.modDev f).issued = s.issued := rfl
@[simp] theorem State.modDev_stalled (s : State) (f : Device → Device) : (s.modDev f).stalled = s.stalled := rfl
@[simp] theorem State.modDev_turn (s : State) (f : Device → Device) : (s.modDev f).turn = s.turn := rfl
@[simp] theorem State.modDev_tried (s : State) (f : Device → Device) : (s.modDev f).tried = s.tried := rfl
@[simp] theorem State.modDev_came (s : State) (f : Device → Device) : (s.modDev f).came = s.came := rfl
@[simp] theorem State.modDev_nextId (s : State) (f : Device → Device) : (s.modDev f).nextId = s.nextId := rfl
@[simp] theorem State.modDev_fresh (s : State) (f : Device → Device) : (s.modDev f).fresh = s.fresh := rfl
@[simp] theorem State.modDev_mem (s : State) (f : Device → Device) : (s.modDev f).mem = s.mem := rfl
@[simp] theorem State.modDev_groups (s : State) (f : Device → Device) : (s.modDev f).groups = s.groups := rfl
@[simp] theorem State.modDev_wgs (s : State) (f : Device → Device) : (s.modDev f).wgs = s.wgs := rfl
@[simp] theorem State.modDev_grids (s : State) (f : Device → Device) : (s.modDev f).grids = s.grids := rfl
@[simp] theorem State.modDev_lq (s : State) (f : Device → Device) : (s.modDev f).lq = s.lq := rfl
@[simp] theorem State.modDev_ctxs (s : State) (f : Device → Device) : (s.modDev f).ctxs = s.ctxs := rfl
@[simp] theorem State.modDev_classes (s : State) (f : Device → Device) : (s.modDev f).classes = s.classes := rfl
@[simp] theorem State.modDev_cores (s : State) (f : Device → Device) : (s.modDev f).cores = s.cores := rfl
@[simp] theorem State.modDev_clusters (s : State) (f : Device → Device) : (s.modDev f).clusters = s.clusters := rfl
@[simp] theorem State.modDev_dies (s : State) (f : Device → Device) : (s.modDev f).dies = s.dies := rfl
@[simp] theorem State.modDev_ptr (s : State) (f : Device → Device) : (s.modDev f).ptr = s.ptr := rfl
@[simp] theorem State.modDev_gdir (s : State) (f : Device → Device) : (s.modDev f).gdir = s.gdir := rfl
@[simp] theorem State.modDev_home (s : State) (f : Device → Device) : (s.modDev f).home = s.home := rfl
@[simp] theorem State.modDev_cuPkts (s : State) (f : Device → Device) : (s.modDev f).cuPkts = s.cuPkts := rfl
@[simp] theorem State.modDev_cuRejs (s : State) (f : Device → Device) : (s.modDev f).cuRejs = s.cuRejs := rfl
@[simp] theorem State.modDev_egress (s : State) (f : Device → Device) : (s.modDev f).egress = s.egress := rfl
@[simp] theorem State.modDev_pairs (s : State) (f : Device → Device) : (s.modDev f).pairs = s.pairs := rfl
@[simp] theorem State.modDev_chips (s : State) (f : Device → Device) : (s.modDev f).chips = s.chips := rfl
@[simp] theorem State.modDev_ports (s : State) (f : Device → Device) : (s.modDev f).ports = s.ports := rfl
@[simp] theorem State.modDev_fab (s : State) (f : Device → Device) : (s.modDev f).fab = s.fab := rfl
@[simp] theorem State.modDev_colls (s : State) (f : Device → Device) : (s.modDev f).colls = s.colls := rfl
@[simp] theorem State.modDev_remHeld (s : State) (f : Device → Device) : (s.modDev f).remHeld = s.remHeld := rfl
@[simp] theorem State.modDev_svcWaits (s : State) (f : Device → Device) : (s.modDev f).svcWaits = s.svcWaits := rfl
@[simp] theorem State.modDev_rio (s : State) (f : Device → Device) : (s.modDev f).rio = s.rio := rfl
@[simp] theorem State.modDev_sgrp (s : State) (f : Device → Device) : (s.modDev f).sgrp = s.sgrp := rfl
@[simp] theorem State.modDev_str (s : State) (f : Device → Device) : (s.modDev f).str = s.str := rfl
@[simp] theorem State.modDev_hosts (s : State) (f : Device → Device) : (s.modDev f).hosts = s.hosts := rfl

@[simp] theorem State.modHome_agenda (s : State) (f : Home → Home) : (s.modHome f).agenda = s.agenda := rfl
@[simp] theorem State.modHome_cur (s : State) (f : Home → Home) : (s.modHome f).cur = s.cur := rfl
@[simp] theorem State.modHome_plan (s : State) (f : Home → Home) : (s.modHome f).plan = s.plan := rfl
@[simp] theorem State.modHome_cyc (s : State) (f : Home → Home) : (s.modHome f).cyc = s.cyc := rfl
@[simp] theorem State.modHome_issued (s : State) (f : Home → Home) : (s.modHome f).issued = s.issued := rfl
@[simp] theorem State.modHome_stalled (s : State) (f : Home → Home) : (s.modHome f).stalled = s.stalled := rfl
@[simp] theorem State.modHome_turn (s : State) (f : Home → Home) : (s.modHome f).turn = s.turn := rfl
@[simp] theorem State.modHome_tried (s : State) (f : Home → Home) : (s.modHome f).tried = s.tried := rfl
@[simp] theorem State.modHome_came (s : State) (f : Home → Home) : (s.modHome f).came = s.came := rfl
@[simp] theorem State.modHome_nextId (s : State) (f : Home → Home) : (s.modHome f).nextId = s.nextId := rfl
@[simp] theorem State.modHome_fresh (s : State) (f : Home → Home) : (s.modHome f).fresh = s.fresh := rfl
@[simp] theorem State.modHome_dev (s : State) (f : Home → Home) : (s.modHome f).dev = s.dev := rfl
@[simp] theorem State.modHome_mem (s : State) (f : Home → Home) : (s.modHome f).mem = s.mem := rfl
@[simp] theorem State.modHome_groups (s : State) (f : Home → Home) : (s.modHome f).groups = s.groups := rfl
@[simp] theorem State.modHome_wgs (s : State) (f : Home → Home) : (s.modHome f).wgs = s.wgs := rfl
@[simp] theorem State.modHome_grids (s : State) (f : Home → Home) : (s.modHome f).grids = s.grids := rfl
@[simp] theorem State.modHome_lq (s : State) (f : Home → Home) : (s.modHome f).lq = s.lq := rfl
@[simp] theorem State.modHome_ctxs (s : State) (f : Home → Home) : (s.modHome f).ctxs = s.ctxs := rfl
@[simp] theorem State.modHome_classes (s : State) (f : Home → Home) : (s.modHome f).classes = s.classes := rfl
@[simp] theorem State.modHome_cores (s : State) (f : Home → Home) : (s.modHome f).cores = s.cores := rfl
@[simp] theorem State.modHome_clusters (s : State) (f : Home → Home) : (s.modHome f).clusters = s.clusters := rfl
@[simp] theorem State.modHome_dies (s : State) (f : Home → Home) : (s.modHome f).dies = s.dies := rfl
@[simp] theorem State.modHome_ptr (s : State) (f : Home → Home) : (s.modHome f).ptr = s.ptr := rfl
@[simp] theorem State.modHome_gdir (s : State) (f : Home → Home) : (s.modHome f).gdir = s.gdir := rfl
@[simp] theorem State.modHome_cuPkts (s : State) (f : Home → Home) : (s.modHome f).cuPkts = s.cuPkts := rfl
@[simp] theorem State.modHome_cuRejs (s : State) (f : Home → Home) : (s.modHome f).cuRejs = s.cuRejs := rfl
@[simp] theorem State.modHome_egress (s : State) (f : Home → Home) : (s.modHome f).egress = s.egress := rfl
@[simp] theorem State.modHome_pairs (s : State) (f : Home → Home) : (s.modHome f).pairs = s.pairs := rfl
@[simp] theorem State.modHome_chips (s : State) (f : Home → Home) : (s.modHome f).chips = s.chips := rfl
@[simp] theorem State.modHome_ports (s : State) (f : Home → Home) : (s.modHome f).ports = s.ports := rfl
@[simp] theorem State.modHome_fab (s : State) (f : Home → Home) : (s.modHome f).fab = s.fab := rfl
@[simp] theorem State.modHome_colls (s : State) (f : Home → Home) : (s.modHome f).colls = s.colls := rfl
@[simp] theorem State.modHome_remHeld (s : State) (f : Home → Home) : (s.modHome f).remHeld = s.remHeld := rfl
@[simp] theorem State.modHome_svcWaits (s : State) (f : Home → Home) : (s.modHome f).svcWaits = s.svcWaits := rfl
@[simp] theorem State.modHome_rio (s : State) (f : Home → Home) : (s.modHome f).rio = s.rio := rfl
@[simp] theorem State.modHome_sgrp (s : State) (f : Home → Home) : (s.modHome f).sgrp = s.sgrp := rfl
@[simp] theorem State.modHome_str (s : State) (f : Home → Home) : (s.modHome f).str = s.str := rfl
@[simp] theorem State.modHome_hosts (s : State) (f : Home → Home) : (s.modHome f).hosts = s.hosts := rfl

@[simp] theorem State.stall_agenda (s : State) : (s.stall).agenda = s.agenda := rfl
@[simp] theorem State.stall_cur (s : State) : (s.stall).cur = s.cur := rfl
@[simp] theorem State.stall_plan (s : State) : (s.stall).plan = s.plan := rfl
@[simp] theorem State.stall_cyc (s : State) : (s.stall).cyc = s.cyc := rfl
@[simp] theorem State.stall_issued (s : State) : (s.stall).issued = s.issued := rfl
@[simp] theorem State.stall_turn (s : State) : (s.stall).turn = s.turn := rfl
@[simp] theorem State.stall_tried (s : State) : (s.stall).tried = s.tried := rfl
@[simp] theorem State.stall_came (s : State) : (s.stall).came = s.came := rfl
@[simp] theorem State.stall_nextId (s : State) : (s.stall).nextId = s.nextId := rfl
@[simp] theorem State.stall_fresh (s : State) : (s.stall).fresh = s.fresh := rfl
@[simp] theorem State.stall_dev (s : State) : (s.stall).dev = s.dev := rfl
@[simp] theorem State.stall_mem (s : State) : (s.stall).mem = s.mem := rfl
@[simp] theorem State.stall_groups (s : State) : (s.stall).groups = s.groups := rfl
@[simp] theorem State.stall_wgs (s : State) : (s.stall).wgs = s.wgs := rfl
@[simp] theorem State.stall_grids (s : State) : (s.stall).grids = s.grids := rfl
@[simp] theorem State.stall_lq (s : State) : (s.stall).lq = s.lq := rfl
@[simp] theorem State.stall_ctxs (s : State) : (s.stall).ctxs = s.ctxs := rfl
@[simp] theorem State.stall_classes (s : State) : (s.stall).classes = s.classes := rfl
@[simp] theorem State.stall_cores (s : State) : (s.stall).cores = s.cores := rfl
@[simp] theorem State.stall_clusters (s : State) : (s.stall).clusters = s.clusters := rfl
@[simp] theorem State.stall_dies (s : State) : (s.stall).dies = s.dies := rfl
@[simp] theorem State.stall_ptr (s : State) : (s.stall).ptr = s.ptr := rfl
@[simp] theorem State.stall_gdir (s : State) : (s.stall).gdir = s.gdir := rfl
@[simp] theorem State.stall_home (s : State) : (s.stall).home = s.home := rfl
@[simp] theorem State.stall_cuPkts (s : State) : (s.stall).cuPkts = s.cuPkts := rfl
@[simp] theorem State.stall_cuRejs (s : State) : (s.stall).cuRejs = s.cuRejs := rfl
@[simp] theorem State.stall_egress (s : State) : (s.stall).egress = s.egress := rfl
@[simp] theorem State.stall_pairs (s : State) : (s.stall).pairs = s.pairs := rfl
@[simp] theorem State.stall_chips (s : State) : (s.stall).chips = s.chips := rfl
@[simp] theorem State.stall_ports (s : State) : (s.stall).ports = s.ports := rfl
@[simp] theorem State.stall_fab (s : State) : (s.stall).fab = s.fab := rfl
@[simp] theorem State.stall_colls (s : State) : (s.stall).colls = s.colls := rfl
@[simp] theorem State.stall_remHeld (s : State) : (s.stall).remHeld = s.remHeld := rfl
@[simp] theorem State.stall_svcWaits (s : State) : (s.stall).svcWaits = s.svcWaits := rfl
@[simp] theorem State.stall_rio (s : State) : (s.stall).rio = s.rio := rfl
@[simp] theorem State.stall_sgrp (s : State) : (s.stall).sgrp = s.sgrp := rfl
@[simp] theorem State.stall_str (s : State) : (s.stall).str = s.str := rfl
@[simp] theorem State.stall_hosts (s : State) : (s.stall).hosts = s.hosts := rfl

@[simp] theorem State.core_setCore (s : State) (c : Nat) (x : Core) : (s.setCore c x).core c = x := by simp [State.setCore, State.core]
theorem State.core_setCore_other (s : State) {c j : Nat} (x : Core) (h : j ≠ c) : (s.setCore c x).core j = s.core j := by
  simp [State.setCore, State.core, mapGet_mapSet_other _ _ _ h]
@[simp] theorem State.cluster_setCluster (s : State) (l : Nat) (x : Cluster) : (s.setCluster l x).cluster l = x := by simp [State.setCluster, State.cluster]
theorem State.cluster_setCluster_other (s : State) {l j : Nat} (x : Cluster) (h : j ≠ l) : (s.setCluster l x).cluster j = s.cluster j := by
  simp [State.setCluster, State.cluster, mapGet_mapSet_other _ _ _ h]
@[simp] theorem State.die_setDie (s : State) (d : Nat) (x : Die) : (s.setDie d x).die d = x := by simp [State.setDie, State.die]
theorem State.die_setDie_other (s : State) {d j : Nat} (x : Die) (h : j ≠ d) : (s.setDie d x).die j = s.die j := by
  simp [State.setDie, State.die, mapGet_mapSet_other _ _ _ h]
@[simp] theorem State.ctx_setCtx (s : State) (n : Nat) (x : Ctx) : (s.setCtx n x).ctx n = x := by simp [State.setCtx, State.ctx]
theorem State.ctx_setCtx_other (s : State) {n j : Nat} (x : Ctx) (h : j ≠ n) : (s.setCtx n x).ctx j = s.ctx j := by
  simp [State.setCtx, State.ctx, mapGet_mapSet_other _ _ _ h]
@[simp] theorem State.queue_setQueue (s : State) (n : Nat) (x : LQueue) : (s.setQueue n x).queue n = x := by simp [State.setQueue, State.queue]
theorem State.queue_setQueue_other (s : State) {n j : Nat} (x : LQueue) (h : j ≠ n) : (s.setQueue n x).queue j = s.queue j := by
  simp [State.setQueue, State.queue, mapGet_mapSet_other _ _ _ h]
@[simp] theorem State.port_setPort (s : State) (p : Nat) (x : Port) : (s.setPort p x).port p = x := by simp [State.setPort, State.port]
theorem State.port_setPort_other (s : State) {p j : Nat} (x : Port) (h : j ≠ p) : (s.setPort p x).port j = s.port j := by
  simp [State.setPort, State.port, mapGet_mapSet_other _ _ _ h]
@[simp] theorem State.chip_setChip (s : State) (c : Nat) (x : Chiplet) : (s.setChip c x).chip c = x := by simp [State.setChip, State.chip]
theorem State.chip_setChip_other (s : State) {c j : Nat} (x : Chiplet) (h : j ≠ c) : (s.setChip c x).chip j = s.chip j := by
  simp [State.setChip, State.chip, mapGet_mapSet_other _ _ _ h]
@[simp] theorem State.host_setHost (s : State) (f : Nat) (x : HostFn) : (s.setHost f x).host f = x := by simp [State.setHost, State.host]
theorem State.host_setHost_other (s : State) {f j : Nat} (x : HostFn) (h : j ≠ f) : (s.setHost f x).host j = s.host j := by
  simp [State.setHost, State.host, mapGet_mapSet_other _ _ _ h]
@[simp] theorem State.egr_setEgr (s : State) (q : Nat) (x : Egress) : (s.setEgr q x).egr q = x := by simp [State.setEgr, State.egr]
theorem State.egr_setEgr_other (s : State) {q j : Nat} (x : Egress) (h : j ≠ q) : (s.setEgr q x).egr j = s.egr j := by
  simp [State.setEgr, State.egr, mapGet_mapSet_other _ _ _ h]

@[simp] theorem State.grp?_setGrp (s : State) (k : Nat) (g : Group) : (s.setGrp k g).grp? k = some g := by
  simp [State.setGrp, State.grp?]
theorem State.grp?_setGrp_other (s : State) {k j : Nat} (g : Group) (h : j ≠ k) : (s.setGrp k g).grp? j = s.grp? j := by
  simp [State.setGrp, State.grp?, mapGet?_mapSet_other _ _ h]
@[simp] theorem State.wg?_setWg (s : State) (w : Nat) (v : Workgroup) : (s.setWg w v).wg? w = some v := by
  simp [State.setWg, State.wg?]
theorem State.wg?_setWg_other (s : State) {w j : Nat} (v : Workgroup) (h : j ≠ w) : (s.setWg w v).wg? j = s.wg? j := by
  simp [State.setWg, State.wg?, mapGet?_mapSet_other _ _ h]
theorem State.grp?_modGrp (s : State) (k : Nat) (f : Group → Group) : (s.modGrp k f).grp? k = (s.grp? k).map f := by
  simp [State.modGrp, State.grp?, mapGet?_mapMod_same]
theorem State.grp?_modGrp_other (s : State) {k j : Nat} (f : Group → Group) (h : j ≠ k) : (s.modGrp k f).grp? j = s.grp? j := by
  simp [State.modGrp, State.grp?, mapGet?_mapMod_other _ _ h]

end Sys2Proof.Machine
end

