-- ==== Sys2Proof/Laws/Issue.lean ====
section
/-! SUPPORT. What the issue of a unit can do: the one case in which its own effect is taken, and what `charge` leaves
alone. -/

namespace Sys2Proof.Machine

/-- What comes after readiness and the queue checks have passed: the effect. -/
theorem eff_taken (u : Uop) (k : Nat) (g : Group) (s : State) (e : Eff) (n : Option (Nat × Nat)) (h : n = none) :
    (if (false || e.waits) = true then s.stall
      else match if e.first = true then none else n with
        | some c => s.takeTrap k g (queTrap g c)
        | none => applyEff u k g s e) = applyEff u k g s e := by
  subst h
  cases e <;> simp [Eff.waits, applyEff]

/-- A unit of a group whose checks all pass has its own effect. -/
theorem issueGrp_takes {u : Uop} {eff : Effect} {k : Nat} {g : Group} {s : State}
    (can : g.canIssue = true) (res : s.residentGrp g = true)
    (fp : u.faultPoint g = true → g.takable = [] ∧ s.dieWaits g = false)
    (hnd : u.hnd = true → g.inH = false) (priv : u.priv = true → s.sysCtx g.ctx = true)
    (rdy : u.ready g = true)
    (q : queueCheck g (queuesOf u.vr) (queuesOf u.vw) u.peek (u.active g ≠ 0) = none) :
    issueGrp u eff k g s = applyEff u k g s (eff s k (u.active g) g (u.past g)) := by
  unfold issueGrp
  have hh : (u.hnd && g.inH) = false := by cases h : u.hnd <;> simp_all
  have hp : (u.priv && !s.sysCtx g.ctx) = false := by cases h : u.priv <;> simp_all
  cases hf : u.faultPoint g with
  | false =>
    simp only [can, res, hh, hp, rdy, Bool.and_self, Bool.not_true, Bool.false_and, Bool.false_eq_true, if_false]
    cases g.takable <;> exact eff_taken u k g s _ _ q
  | true =>
    obtain ⟨ht, hd⟩ := fp hf
    simp only [can, res, hh, hp, rdy, ht, hd, Bool.and_self, Bool.not_true, Bool.and_false, Bool.false_eq_true, if_false]
    exact eff_taken u k g s _ _ q

/-- The same at the machine: the group whose turn it is issues. -/
theorem issue2_takes {u : Uop} {eff str : Effect} {k : Nat} {g : Group} {s : State}
    (cur : s.cur = .grp k) (grp : s.grp? k = some g) (can : g.canIssue = true) (res : s.residentGrp g = true)
    (fp : u.faultPoint g = true → g.takable = [] ∧ s.dieWaits g = false)
    (hnd : u.hnd = true → g.inH = false) (priv : u.priv = true → s.sysCtx g.ctx = true)
    (rdy : u.ready g = true)
    (q : queueCheck g (queuesOf u.vr) (queuesOf u.vw) u.peek (u.active g ≠ 0) = none) :
    issue2 u eff str s = .next (applyEff u k g s (eff s k (u.active g) g (u.past g))) := by
  simp only [issue2, cur, grp]
  rw [issueGrp_takes can res fp hnd priv rdy q]

/-- A unit without vector sources and destinations passes the queue checks. -/
@[simp] theorem queueCheck_nil (g : Group) (p a : Bool) : queueCheck g [] [] p a = none := by
  have h (f : Nat → Bool) (hf : ∀ n, f n = false) : (List.range 16).find? f = none := by
    simp [List.find?_eq_none, hf]
  unfold queueCheck
  simp only [List.append_nil, List.contains_nil, Bool.false_and]
  rw [h _ fun _ => rfl]
  cases a <;> simp

@[simp] theorem queuesOf_nil : queuesOf [] = [] := rfl
@[simp] theorem headsFilled_nil (g : Group) : headsFilled g [] = true := rfl

/-! ### Charging a unit -/

@[simp] theorem State.energy_mem (s : State) (n e : Nat) : (s.energy n e).mem = s.mem := rfl
@[simp] theorem State.energy_home (s : State) (n e : Nat) : (s.energy n e).home = s.home := rfl
@[simp] theorem State.energy_groups (s : State) (n e : Nat) : (s.energy n e).groups = s.groups := rfl
@[simp] theorem State.energy_wgs (s : State) (n e : Nat) : (s.energy n e).wgs = s.wgs := rfl
@[simp] theorem State.paid_mem (s : State) (g : Group) (i : Issued) : (s.paid g i).mem = s.mem := by
  simp only [State.paid]; split <;> rfl
@[simp] theorem State.paid_home (s : State) (g : Group) (i : Issued) : (s.paid g i).home = s.home := by
  simp only [State.paid]; split <;> rfl
@[simp] theorem State.paid_groups (s : State) (g : Group) (i : Issued) : (s.paid g i).groups = s.groups := by
  simp only [State.paid]; split <;> rfl
@[simp] theorem State.paid_wgs (s : State) (g : Group) (i : Issued) : (s.paid g i).wgs = s.wgs := by
  simp only [State.paid]; split <;> rfl
@[simp] theorem State.paid_cur (s : State) (g : Group) (i : Issued) : (s.paid g i).cur = s.cur := by
  simp only [State.paid]; split <;> rfl
@[simp] theorem State.paid_grp? (s : State) (g : Group) (i : Issued) (k : Nat) : (s.paid g i).grp? k = s.grp? k := by
  simp [State.grp?]
@[simp] theorem State.paid_wg? (s : State) (g : Group) (i : Issued) (k : Nat) : (s.paid g i).wg? k = s.wg? k := by
  simp [State.wg?]
@[simp] theorem State.paid_rdByte (s : State) (g : Group) (i : Issued) (a : Nat) : (s.paid g i).rdByte a = s.rdByte a := by
  simp [State.rdByte]
@[simp] theorem State.setGrp_rdByte (s : State) (k : Nat) (g : Group) (a : Nat) : (s.setGrp k g).rdByte a = s.rdByte a := rfl
@[simp] theorem State.stall_rdByte (s : State) (a : Nat) : s.stall.rdByte a = s.rdByte a := rfl

@[simp] theorem Group.physReads_nil (g : Group) : g.physReads [] = [] := rfl

end Sys2Proof.Machine
end

