-- ==== Sys2Proof/Laws/PerInstr.lean ====
section
/-! SUPPORT. Per instruction: a unit is one word, or one word behind at most two prefixes; an event has no word (R28). -/

namespace Sys2Proof.Laws.Coded

/-- The encoding has at most three words (R28). -/
def Statement (i : Instr) : Prop := (encode i).length ≤ 3

/-- A word behind its prefixes is at most three words. -/
theorem wordsP_length (x : Pfx) (w : Word) : (wordsP x w).length ≤ 3 := by
  rcases x with ⟨_ | _, _ | _⟩ <;> simp [wordsP]

theorem nop : Statement (.nop) := Nat.le_of_ble_eq_true rfl
theorem exit : Statement (.exit) := Nat.le_of_ble_eq_true rfl
theorem trap (n : Fin 128) : Statement (.trap n) := Nat.le_of_ble_eq_true rfl
theorem brk (n : Fin 128) : Statement (.brk n) := Nat.le_of_ble_eq_true rfl
theorem rte : Statement (.rte) := Nat.le_of_ble_eq_true rfl
theorem yield : Statement (.yield) := Nat.le_of_ble_eq_true rfl
theorem ret : Statement (.ret) := Nat.le_of_ble_eq_true rfl
theorem winb (m : Fin 128) : Statement (.winb m) := Nat.le_of_ble_eq_true rfl
theorem vsync : Statement (.vsync) := Nat.le_of_ble_eq_true rfl
theorem sleep (a : SReg) : Statement (.sleep a) := Nat.le_of_ble_eq_true rfl
theorem qcfg (q : Fin 16) (n : Fin 128) : Statement (.qcfg q n) := Nat.le_of_ble_eq_true rfl
theorem qrst (a : SReg) : Statement (.qrst a) := Nat.le_of_ble_eq_true rfl
theorem setfmt (i : Fin 16384) : Statement (.setfmt i) := Nat.le_of_ble_eq_true rfl
theorem setmode (i : Fin 16384) : Statement (.setmode i) := Nat.le_of_ble_eq_true rfl
theorem bra (o : BitVec 18) : Statement (.bra o) := Nat.le_of_ble_eq_true rfl
theorem bz (a : SReg) (o : BitVec 18) : Statement (.bz a o) := Nat.le_of_ble_eq_true rfl
theorem bnz (a : SReg) (o : BitVec 18) : Statement (.bnz a o) := Nat.le_of_ble_eq_true rfl
theorem bltz (a : SReg) (o : BitVec 18) : Statement (.bltz a o) := Nat.le_of_ble_eq_true rfl
theorem bgez (a : SReg) (o : BitVec 18) : Statement (.bgez a o) := Nat.le_of_ble_eq_true rfl
theorem call (f : Fin 64) (o : BitVec 18) : Statement (.call f o) := Nat.le_of_ble_eq_true rfl
theorem calli (a : SReg) (f : Fin 16) : Statement (.calli a f) := Nat.le_of_ble_eq_true rfl
theorem jmpi (a : SReg) : Statement (.jmpi a) := Nat.le_of_ble_eq_true rfl
theorem vbr (p : PReg) (neg : Bool) (o : BitVec 20) : Statement (.vbr p neg o) := Nat.le_of_ble_eq_true rfl
theorem vbrall (p : PReg) (neg : Bool) (o : BitVec 20) : Statement (.vbrall p neg o) := Nat.le_of_ble_eq_true rfl
theorem vbrany (p : PReg) (neg : Bool) (o : BitVec 20) : Statement (.vbrany p neg o) := Nat.le_of_ble_eq_true rfl
theorem vjoin (o : BitVec 20) : Statement (.vjoin o) := Nat.le_of_ble_eq_true rfl
theorem sadd (d a b : SReg) : Statement (.sadd d a b) := Nat.le_of_ble_eq_true rfl
theorem ssub (d a b : SReg) : Statement (.ssub d a b) := Nat.le_of_ble_eq_true rfl
theorem smul (d a b : SReg) : Statement (.smul d a b) := Nat.le_of_ble_eq_true rfl
theorem smulh (d a b : SReg) : Statement (.smulh d a b) := Nat.le_of_ble_eq_true rfl
theorem smulhn (d a b : SReg) : Statement (.smulhn d a b) := Nat.le_of_ble_eq_true rfl
theorem sdiv (d a b : SReg) : Statement (.sdiv d a b) := Nat.le_of_ble_eq_true rfl
theorem sdivn (d a b : SReg) : Statement (.sdivn d a b) := Nat.le_of_ble_eq_true rfl
theorem srem (d a b : SReg) : Statement (.srem d a b) := Nat.le_of_ble_eq_true rfl
theorem sremn (d a b : SReg) : Statement (.sremn d a b) := Nat.le_of_ble_eq_true rfl
theorem sand (d a b : SReg) : Statement (.sand d a b) := Nat.le_of_ble_eq_true rfl
theorem sor (d a b : SReg) : Statement (.sor d a b) := Nat.le_of_ble_eq_true rfl
theorem sxor (d a b : SReg) : Statement (.sxor d a b) := Nat.le_of_ble_eq_true rfl
theorem sandn (d a b : SReg) : Statement (.sandn d a b) := Nat.le_of_ble_eq_true rfl
theorem sshl (d a b : SReg) : Statement (.sshl d a b) := Nat.le_of_ble_eq_true rfl
theorem sshr (d a b : SReg) : Statement (.sshr d a b) := Nat.le_of_ble_eq_true rfl
theorem ssra (d a b : SReg) : Statement (.ssra d a b) := Nat.le_of_ble_eq_true rfl
theorem srol (d a b : SReg) : Statement (.srol d a b) := Nat.le_of_ble_eq_true rfl
theorem smin (d a b : SReg) : Statement (.smin d a b) := Nat.le_of_ble_eq_true rfl
theorem smax (d a b : SReg) : Statement (.smax d a b) := Nat.le_of_ble_eq_true rfl
theorem sminn (d a b : SReg) : Statement (.sminn d a b) := Nat.le_of_ble_eq_true rfl
theorem smaxn (d a b : SReg) : Statement (.smaxn d a b) := Nat.le_of_ble_eq_true rfl
theorem sceq (d a b : SReg) : Statement (.sceq d a b) := Nat.le_of_ble_eq_true rfl
theorem scne (d a b : SReg) : Statement (.scne d a b) := Nat.le_of_ble_eq_true rfl
theorem sclt (d a b : SReg) : Statement (.sclt d a b) := Nat.le_of_ble_eq_true rfl
theorem scle (d a b : SReg) : Statement (.scle d a b) := Nat.le_of_ble_eq_true rfl
theorem scltn (d a b : SReg) : Statement (.scltn d a b) := Nat.le_of_ble_eq_true rfl
theorem sclen (d a b : SReg) : Statement (.sclen d a b) := Nat.le_of_ble_eq_true rfl
theorem ssel (d a b : SReg) (e : Option SReg) : Statement (.ssel d a b e) := by cases e <;> exact Nat.le_of_ble_eq_true rfl
theorem saddi (d a : SReg) (i : BitVec 10) : Statement (.saddi d a i) := Nat.le_of_ble_eq_true rfl
theorem sandi (d a : SReg) (i : BitVec 10) : Statement (.sandi d a i) := Nat.le_of_ble_eq_true rfl
theorem sori (d a : SReg) (i : BitVec 10) : Statement (.sori d a i) := Nat.le_of_ble_eq_true rfl
theorem sxori (d a : SReg) (i : BitVec 10) : Statement (.sxori d a i) := Nat.le_of_ble_eq_true rfl
theorem sshli (d a : SReg) (i : BitVec 10) : Statement (.sshli d a i) := Nat.le_of_ble_eq_true rfl
theorem sshri (d a : SReg) (i : BitVec 10) : Statement (.sshri d a i) := Nat.le_of_ble_eq_true rfl
theorem ssrai (d a : SReg) (i : BitVec 10) : Statement (.ssrai d a i) := Nat.le_of_ble_eq_true rfl
theorem sclti (d a : SReg) (i : BitVec 10) : Statement (.sclti d a i) := Nat.le_of_ble_eq_true rfl
theorem sli (d : SReg) (i : BitVec 20) : Statement (.sli d i) := Nat.le_of_ble_eq_true rfl
theorem slih (d : SReg) (i : BitVec 20) : Statement (.slih d i) := Nat.le_of_ble_eq_true rfl
theorem sadpc (d : SReg) (i : BitVec 20) : Statement (.sadpc d i) := Nat.le_of_ble_eq_true rfl
theorem mfs (d : SReg) (r : SpecReg) : Statement (.mfs d r) := Nat.le_of_ble_eq_true rfl
theorem mts (r : SpecReg) (a : SReg) : Statement (.mts r a) := Nat.le_of_ble_eq_true rfl
theorem sext (d : SReg) (a : VFld) (b : SReg) : Statement (.sext d a b) := Nat.le_of_ble_eq_true rfl
theorem sins (d : VFld) (a b : SReg) : Statement (.sins d a b) := Nat.le_of_ble_eq_true rfl
theorem spopc (d a : SReg) : Statement (.spopc d a) := Nat.le_of_ble_eq_true rfl
theorem sclz (d a : SReg) : Statement (.sclz d a) := Nat.le_of_ble_eq_true rfl
theorem sctz (d a : SReg) : Statement (.sctz d a) := Nat.le_of_ble_eq_true rfl
theorem sbrev (d a : SReg) : Statement (.sbrev d a) := Nat.le_of_ble_eq_true rfl
theorem sfirst (d : SReg) (a : PReg) : Statement (.sfirst d a) := Nat.le_of_ble_eq_true rfl
theorem sballot (d : SReg) (a : PReg) : Statement (.sballot d a) := Nat.le_of_ble_eq_true rfl
theorem smask (d : PReg) (a : SReg) : Statement (.smask d a) := Nat.le_of_ble_eq_true rfl
theorem vadd (x : Pfx) (d a b : VFld) : Statement (.vadd x d a b) := wordsP_length x _
theorem vsub (x : Pfx) (d a b : VFld) : Statement (.vsub x d a b) := wordsP_length x _
theorem vmul (x : Pfx) (d a b : VFld) : Statement (.vmul x d a b) := wordsP_length x _
theorem vmulh (x : Pfx) (d a b : VFld) : Statement (.vmulh x d a b) := wordsP_length x _
theorem vmulhn (x : Pfx) (d a b : VFld) : Statement (.vmulhn x d a b) := wordsP_length x _
theorem vmad (x : Pfx) (d a b : VFld) : Statement (.vmad x d a b) := wordsP_length x _
theorem vdiv (x : Pfx) (d a b : VFld) : Statement (.vdiv x d a b) := wordsP_length x _
theorem vdivn (x : Pfx) (d a b : VFld) : Statement (.vdivn x d a b) := wordsP_length x _
theorem vrem (x : Pfx) (d a b : VFld) : Statement (.vrem x d a b) := wordsP_length x _
theorem vremn (x : Pfx) (d a b : VFld) : Statement (.vremn x d a b) := wordsP_length x _
theorem vmin (x : Pfx) (d a b : VFld) : Statement (.vmin x d a b) := wordsP_length x _
theorem vmax (x : Pfx) (d a b : VFld) : Statement (.vmax x d a b) := wordsP_length x _
theorem vminn (x : Pfx) (d a b : VFld) : Statement (.vminn x d a b) := wordsP_length x _
theorem vmaxn (x : Pfx) (d a b : VFld) : Statement (.vmaxn x d a b) := wordsP_length x _
theorem vabs (x : Pfx) (d a : VFld) : Statement (.vabs x d a) := wordsP_length x _
theorem vand (x : Pfx) (d a b : VFld) : Statement (.vand x d a b) := wordsP_length x _
theorem vor (x : Pfx) (d a b : VFld) : Statement (.vor x d a b) := wordsP_length x _
theorem vxor (x : Pfx) (d a b : VFld) : Statement (.vxor x d a b) := wordsP_length x _
theorem vandn (x : Pfx) (d a b : VFld) : Statement (.vandn x d a b) := wordsP_length x _
theorem vshl (x : Pfx) (d a b : VFld) : Statement (.vshl x d a b) := wordsP_length x _
theorem vshr (x : Pfx) (d a b : VFld) : Statement (.vshr x d a b) := wordsP_length x _
theorem vsra (x : Pfx) (d a b : VFld) : Statement (.vsra x d a b) := wordsP_length x _
theorem vrol (x : Pfx) (d a b : VFld) : Statement (.vrol x d a b) := wordsP_length x _
theorem vfsh (x : Pfx) (d a b : VFld) : Statement (.vfsh x d a b) := wordsP_length x _
theorem vpopc (x : Pfx) (d a : VFld) : Statement (.vpopc x d a) := wordsP_length x _
theorem vclz (x : Pfx) (d a : VFld) : Statement (.vclz x d a) := wordsP_length x _
theorem vbrev (x : Pfx) (d a : VFld) : Statement (.vbrev x d a) := wordsP_length x _
theorem vbfe (x : Pfx) (d a b : VFld) : Statement (.vbfe x d a b) := wordsP_length x _
theorem vbfi (x : Pfx) (d a b : VFld) : Statement (.vbfi x d a b) := wordsP_length x _
theorem vclmul (x : Pfx) (d a b : VFld) : Statement (.vclmul x d a b) := wordsP_length x _
theorem vclmulh (x : Pfx) (d a b : VFld) : Statement (.vclmulh x d a b) := wordsP_length x _
theorem vsadd (x : Pfx) (d a b : VFld) : Statement (.vsadd x d a b) := wordsP_length x _
theorem vssub (x : Pfx) (d a b : VFld) : Statement (.vssub x d a b) := wordsP_length x _
theorem vadd64 (x : Pfx) (d a b : VFld) : Statement (.vadd64 x d a b) := wordsP_length x _
theorem vsub64 (x : Pfx) (d a b : VFld) : Statement (.vsub64 x d a b) := wordsP_length x _
theorem vmov (x : Pfx) (d a : VFld) : Statement (.vmov x d a) := wordsP_length x _
theorem vdot4 (x : Pfx) (d a b : VFld) : Statement (.vdot4 x d a b) := wordsP_length x _
theorem vdot4n (x : Pfx) (d a b : VFld) : Statement (.vdot4n x d a b) := wordsP_length x _
theorem vaddi (x : Pfx) (d a : VFld) (i : BitVec 10) : Statement (.vaddi x d a i) := wordsP_length x _
theorem vandi (x : Pfx) (d a : VFld) (i : BitVec 10) : Statement (.vandi x d a i) := wordsP_length x _
theorem vori (x : Pfx) (d a : VFld) (i : BitVec 10) : Statement (.vori x d a i) := wordsP_length x _
theorem vxori (x : Pfx) (d a : VFld) (i : BitVec 10) : Statement (.vxori x d a i) := wordsP_length x _
theorem vshli (x : Pfx) (d a : VFld) (i : BitVec 10) : Statement (.vshli x d a i) := wordsP_length x _
theorem vshri (x : Pfx) (d a : VFld) (i : BitVec 10) : Statement (.vshri x d a i) := wordsP_length x _
theorem vsrai (x : Pfx) (d a : VFld) (i : BitVec 10) : Statement (.vsrai x d a i) := wordsP_length x _
theorem vmuli (x : Pfx) (d a : VFld) (i : BitVec 10) : Statement (.vmuli x d a i) := wordsP_length x _
theorem fadd (x : Pfx) (d a b : VFld) : Statement (.fadd x d a b) := wordsP_length x _
theorem fsub (x : Pfx) (d a b : VFld) : Statement (.fsub x d a b) := wordsP_length x _
theorem fmul (x : Pfx) (d a b : VFld) : Statement (.fmul x d a b) := wordsP_length x _
theorem ffma (x : Pfx) (d a b : VFld) : Statement (.ffma x d a b) := wordsP_length x _
theorem ffms (x : Pfx) (d a b : VFld) : Statement (.ffms x d a b) := wordsP_length x _
theorem fnma (x : Pfx) (d a b : VFld) : Statement (.fnma x d a b) := wordsP_length x _
theorem fmin (x : Pfx) (d a b : VFld) : Statement (.fmin x d a b) := wordsP_length x _
theorem fmax (x : Pfx) (d a b : VFld) : Statement (.fmax x d a b) := wordsP_length x _
theorem fminm (x : Pfx) (d a b : VFld) : Statement (.fminm x d a b) := wordsP_length x _
theorem fmaxm (x : Pfx) (d a b : VFld) : Statement (.fmaxm x d a b) := wordsP_length x _
theorem fabs (x : Pfx) (d a : VFld) : Statement (.fabs x d a) := wordsP_length x _
theorem fneg (x : Pfx) (d a : VFld) : Statement (.fneg x d a) := wordsP_length x _
theorem fcpys (x : Pfx) (d a b : VFld) : Statement (.fcpys x d a b) := wordsP_length x _
theorem fdot2 (x : Pfx) (d a b : VFld) : Statement (.fdot2 x d a b) := wordsP_length x _
theorem hadd2 (x : Pfx) (d a b : VFld) : Statement (.hadd2 x d a b) := wordsP_length x _
theorem hmul2 (x : Pfx) (d a b : VFld) : Statement (.hmul2 x d a b) := wordsP_length x _
theorem hfma2 (x : Pfx) (d a b : VFld) : Statement (.hfma2 x d a b) := wordsP_length x _
theorem fround (x : Pfx) (d a : VFld) : Statement (.fround x d a) := wordsP_length x _
theorem fldexp (x : Pfx) (d a b : VFld) : Statement (.fldexp x d a b) := wordsP_length x _
theorem fgetexp (x : Pfx) (d a : VFld) : Statement (.fgetexp x d a) := wordsP_length x _
theorem vceq (x : Pfx) (d : PReg) (a b : VFld) : Statement (.vceq x d a b) := wordsP_length x _
theorem vcne (x : Pfx) (d : PReg) (a b : VFld) : Statement (.vcne x d a b) := wordsP_length x _
theorem vclt (x : Pfx) (d : PReg) (a b : VFld) : Statement (.vclt x d a b) := wordsP_length x _
theorem vcle (x : Pfx) (d : PReg) (a b : VFld) : Statement (.vcle x d a b) := wordsP_length x _
theorem vcltn (x : Pfx) (d : PReg) (a b : VFld) : Statement (.vcltn x d a b) := wordsP_length x _
theorem vclen (x : Pfx) (d : PReg) (a b : VFld) : Statement (.vclen x d a b) := wordsP_length x _
theorem fceq (x : Pfx) (d : PReg) (a b : VFld) : Statement (.fceq x d a b) := wordsP_length x _
theorem fcne (x : Pfx) (d : PReg) (a b : VFld) : Statement (.fcne x d a b) := wordsP_length x _
theorem fclt (x : Pfx) (d : PReg) (a b : VFld) : Statement (.fclt x d a b) := wordsP_length x _
theorem fcle (x : Pfx) (d : PReg) (a b : VFld) : Statement (.fcle x d a b) := wordsP_length x _
theorem fcun (x : Pfx) (d : PReg) (a b : VFld) : Statement (.fcun x d a b) := wordsP_length x _
theorem fcls (x : Pfx) (d : PReg) (a b : VFld) : Statement (.fcls x d a b) := wordsP_length x _
theorem pand (x : Pfx) (d a b : PReg) : Statement (.pand x d a b) := wordsP_length x _
theorem por (x : Pfx) (d a b : PReg) : Statement (.por x d a b) := wordsP_length x _
theorem pxor (x : Pfx) (d a b : PReg) : Statement (.pxor x d a b) := wordsP_length x _
theorem pandn (x : Pfx) (d a b : PReg) : Statement (.pandn x d a b) := wordsP_length x _
theorem pnot (x : Pfx) (d a : PReg) : Statement (.pnot x d a) := wordsP_length x _
theorem vmrg (x : Pfx) (d a : VFld) (b : PReg) : Statement (.vmrg x d a b) := wordsP_length x _
theorem vperm (x : Pfx) (d a b : VFld) : Statement (.vperm x d a b) := wordsP_length x _
theorem vlane (x : Pfx) (d a b : VFld) : Statement (.vlane x d a b) := wordsP_length x _
theorem vredadd (x : Pfx) (d : SReg) (a : VFld) : Statement (.vredadd x d a) := wordsP_length x _
theorem vredmin (x : Pfx) (d : SReg) (a : VFld) : Statement (.vredmin x d a) := wordsP_length x _
theorem vredmax (x : Pfx) (d : SReg) (a : VFld) : Statement (.vredmax x d a) := wordsP_length x _
theorem vredminn (x : Pfx) (d : SReg) (a : VFld) : Statement (.vredminn x d a) := wordsP_length x _
theorem vredmaxn (x : Pfx) (d : SReg) (a : VFld) : Statement (.vredmaxn x d a) := wordsP_length x _
theorem vredand (x : Pfx) (d : SReg) (a : VFld) : Statement (.vredand x d a) := wordsP_length x _
theorem vredor (x : Pfx) (d : SReg) (a : VFld) : Statement (.vredor x d a) := wordsP_length x _
theorem vredxor (x : Pfx) (d : SReg) (a : VFld) : Statement (.vredxor x d a) := wordsP_length x _
theorem fredadd (x : Pfx) (d : SReg) (a : VFld) : Statement (.fredadd x d a) := wordsP_length x _
theorem fredmin (x : Pfx) (d : SReg) (a : VFld) : Statement (.fredmin x d a) := wordsP_length x _
theorem fredmax (x : Pfx) (d : SReg) (a : VFld) : Statement (.fredmax x d a) := wordsP_length x _
theorem vscan (x : Pfx) (d a : VFld) : Statement (.vscan x d a) := wordsP_length x _
theorem vscanx (x : Pfx) (d a : VFld) : Statement (.vscanx x d a) := wordsP_length x _
theorem fscan (x : Pfx) (d a : VFld) : Statement (.fscan x d a) := wordsP_length x _
theorem vcompact (x : Pfx) (d a : VFld) : Statement (.vcompact x d a) := wordsP_length x _
theorem vexpand (x : Pfx) (d a : VFld) : Statement (.vexpand x d a) := wordsP_length x _
theorem vmatch (x : Pfx) (d a : VFld) : Statement (.vmatch x d a) := wordsP_length x _
theorem frcp (x : Pfx) (d a : VFld) : Statement (.frcp x d a) := wordsP_length x _
theorem frsq (x : Pfx) (d a : VFld) : Statement (.frsq x d a) := wordsP_length x _
theorem fsqrt (x : Pfx) (d a : VFld) : Statement (.fsqrt x d a) := wordsP_length x _
theorem fdiv (x : Pfx) (d a b : VFld) : Statement (.fdiv x d a b) := wordsP_length x _
theorem fexp2 (x : Pfx) (d a : VFld) : Statement (.fexp2 x d a) := wordsP_length x _
theorem flog2 (x : Pfx) (d a : VFld) : Statement (.flog2 x d a) := wordsP_length x _
theorem fsin (x : Pfx) (d a : VFld) : Statement (.fsin x d a) := wordsP_length x _
theorem fcos (x : Pfx) (d a : VFld) : Statement (.fcos x d a) := wordsP_length x _
theorem ftanh (x : Pfx) (d a : VFld) : Statement (.ftanh x d a) := wordsP_length x _
theorem fsig (x : Pfx) (d a : VFld) : Statement (.fsig x d a) := wordsP_length x _
theorem ferf (x : Pfx) (d a : VFld) : Statement (.ferf x d a) := wordsP_length x _
theorem cvtfi (x : Pfx) (d a : VFld) : Statement (.cvtfi x d a) := wordsP_length x _
theorem cvtfn (x : Pfx) (d a : VFld) : Statement (.cvtfn x d a) := wordsP_length x _
theorem cvtif (x : Pfx) (d a : VFld) : Statement (.cvtif x d a) := wordsP_length x _
theorem cvtnf (x : Pfx) (d a : VFld) : Statement (.cvtnf x d a) := wordsP_length x _
theorem cvtfh (x : Pfx) (d a : VFld) (h : Fin 128) : Statement (.cvtfh x d a h) := wordsP_length x _
theorem cvthf (x : Pfx) (d a : VFld) (h : Fin 128) : Statement (.cvthf x d a h) := wordsP_length x _
theorem cvtf8 (x : Pfx) (d a : VFld) (c : Fin 128) : Statement (.cvtf8 x d a c) := wordsP_length x _
theorem cvt8f (x : Pfx) (d a : VFld) (c : Fin 128) : Statement (.cvt8f x d a c) := wordsP_length x _
theorem fpack4 (x : Pfx) (d a : VFld) (c : Fin 128) : Statement (.fpack4 x d a c) := wordsP_length x _
theorem funpk4 (x : Pfx) (d a : VFld) (c : Fin 128) : Statement (.funpk4 x d a c) := wordsP_length x _
theorem mxscl (x : Pfx) (d : SReg) (a : VFld) : Statement (.mxscl x d a) := wordsP_length x _
theorem mxq (x : Pfx) (d a : VFld) (b : SReg) : Statement (.mxq x d a b) := wordsP_length x _
theorem mxdq (x : Pfx) (d a : VFld) (b : SReg) : Statement (.mxdq x d a b) := wordsP_length x _
theorem srseed (x : Pfx) (a : SReg) : Statement (.srseed x a) := wordsP_length x _
theorem ldI8 (x : Pfx) (m : MFld) : Statement (.ldI8 x m) := wordsP_length x _
theorem ldN8 (x : Pfx) (m : MFld) : Statement (.ldN8 x m) := wordsP_length x _
theorem ldI16 (x : Pfx) (m : MFld) : Statement (.ldI16 x m) := wordsP_length x _
theorem ldN16 (x : Pfx) (m : MFld) : Statement (.ldN16 x m) := wordsP_length x _
theorem ldB32 (x : Pfx) (m : MFld) : Statement (.ldB32 x m) := wordsP_length x _
theorem ldB64 (x : Pfx) (m : MFld) : Statement (.ldB64 x m) := wordsP_length x _
theorem ldB128 (x : Pfx) (m : MFld) : Statement (.ldB128 x m) := wordsP_length x _
theorem ldm (x : Pfx) (m : MFld) : Statement (.ldm x m) := wordsP_length x _
theorem stB8 (x : Pfx) (m : MFld) : Statement (.stB8 x m) := wordsP_length x _
theorem stB16 (x : Pfx) (m : MFld) : Statement (.stB16 x m) := wordsP_length x _
theorem stB32 (x : Pfx) (m : MFld) : Statement (.stB32 x m) := wordsP_length x _
theorem stB64 (x : Pfx) (m : MFld) : Statement (.stB64 x m) := wordsP_length x _
theorem stB128 (x : Pfx) (m : MFld) : Statement (.stB128 x m) := wordsP_length x _
theorem stm (x : Pfx) (m : MFld) : Statement (.stm x m) := wordsP_length x _
theorem sta (x : Pfx) (m : MFld) : Statement (.sta x m) := wordsP_length x _
theorem sta64 (x : Pfx) (m : MFld) : Statement (.sta64 x m) := wordsP_length x _
theorem atomAdd (x : Pfx) (d a b : VFld) (scope : Fin 4) : Statement (.atomAdd x d a b scope) := wordsP_length x _
theorem atomSub (x : Pfx) (d a b : VFld) (scope : Fin 4) : Statement (.atomSub x d a b scope) := wordsP_length x _
theorem atomMin (x : Pfx) (d a b : VFld) (scope : Fin 4) : Statement (.atomMin x d a b scope) := wordsP_length x _
theorem atomMax (x : Pfx) (d a b : VFld) (scope : Fin 4) : Statement (.atomMax x d a b scope) := wordsP_length x _
theorem atomMinn (x : Pfx) (d a b : VFld) (scope : Fin 4) : Statement (.atomMinn x d a b scope) := wordsP_length x _
theorem atomMaxn (x : Pfx) (d a b : VFld) (scope : Fin 4) : Statement (.atomMaxn x d a b scope) := wordsP_length x _
theorem atomAnd (x : Pfx) (d a b : VFld) (scope : Fin 4) : Statement (.atomAnd x d a b scope) := wordsP_length x _
theorem atomOr (x : Pfx) (d a b : VFld) (scope : Fin 4) : Statement (.atomOr x d a b scope) := wordsP_length x _
theorem atomXor (x : Pfx) (d a b : VFld) (scope : Fin 4) : Statement (.atomXor x d a b scope) := wordsP_length x _
theorem atomXchg (x : Pfx) (d a b : VFld) (scope : Fin 4) : Statement (.atomXchg x d a b scope) := wordsP_length x _
theorem atomCas (x : Pfx) (d a b : VFld) (scope : Fin 4) : Statement (.atomCas x d a b scope) := wordsP_length x _
theorem atomFadd (x : Pfx) (d a b : VFld) (scope : Fin 4) : Statement (.atomFadd x d a b scope) := wordsP_length x _
theorem atomFmin (x : Pfx) (d a b : VFld) (scope : Fin 4) : Statement (.atomFmin x d a b scope) := wordsP_length x _
theorem atomFmax (x : Pfx) (d a b : VFld) (scope : Fin 4) : Statement (.atomFmax x d a b scope) := wordsP_length x _
theorem atomBfadd2 (x : Pfx) (d a b : VFld) (scope : Fin 4) : Statement (.atomBfadd2 x d a b scope) := wordsP_length x _
theorem atomIncw (x : Pfx) (d a b : VFld) (scope : Fin 4) : Statement (.atomIncw x d a b scope) := wordsP_length x _
theorem redAdd (x : Pfx) (agg : Bool) (a b : VFld) (scope : Fin 4) : Statement (.redAdd x agg a b scope) := wordsP_length x _
theorem redSub (x : Pfx) (agg : Bool) (a b : VFld) (scope : Fin 4) : Statement (.redSub x agg a b scope) := wordsP_length x _
theorem redMin (x : Pfx) (agg : Bool) (a b : VFld) (scope : Fin 4) : Statement (.redMin x agg a b scope) := wordsP_length x _
theorem redMax (x : Pfx) (agg : Bool) (a b : VFld) (scope : Fin 4) : Statement (.redMax x agg a b scope) := wordsP_length x _
theorem redMinn (x : Pfx) (agg : Bool) (a b : VFld) (scope : Fin 4) : Statement (.redMinn x agg a b scope) := wordsP_length x _
theorem redMaxn (x : Pfx) (agg : Bool) (a b : VFld) (scope : Fin 4) : Statement (.redMaxn x agg a b scope) := wordsP_length x _
theorem redAnd (x : Pfx) (agg : Bool) (a b : VFld) (scope : Fin 4) : Statement (.redAnd x agg a b scope) := wordsP_length x _
theorem redOr (x : Pfx) (agg : Bool) (a b : VFld) (scope : Fin 4) : Statement (.redOr x agg a b scope) := wordsP_length x _
theorem redXor (x : Pfx) (agg : Bool) (a b : VFld) (scope : Fin 4) : Statement (.redXor x agg a b scope) := wordsP_length x _
theorem redFadd (x : Pfx) (agg : Bool) (a b : VFld) (scope : Fin 4) : Statement (.redFadd x agg a b scope) := wordsP_length x _
theorem redFmin (x : Pfx) (agg : Bool) (a b : VFld) (scope : Fin 4) : Statement (.redFmin x agg a b scope) := wordsP_length x _
theorem redFmax (x : Pfx) (agg : Bool) (a b : VFld) (scope : Fin 4) : Statement (.redFmax x agg a b scope) := wordsP_length x _
theorem redBfadd2 (x : Pfx) (agg : Bool) (a b : VFld) (scope : Fin 4) : Statement (.redBfadd2 x agg a b scope) := wordsP_length x _
theorem ldwB32 (x : Pfx) (m : MFld) : Statement (.ldwB32 x m) := wordsP_length x _
theorem ldwB64 (x : Pfx) (m : MFld) : Statement (.ldwB64 x m) := wordsP_length x _
theorem ldwB128 (x : Pfx) (m : MFld) : Statement (.ldwB128 x m) := wordsP_length x _
theorem stwB32 (x : Pfx) (m : MFld) : Statement (.stwB32 x m) := wordsP_length x _
theorem stwB64 (x : Pfx) (m : MFld) : Statement (.stwB64 x m) := wordsP_length x _
theorem stwB128 (x : Pfx) (m : MFld) : Statement (.stwB128 x m) := wordsP_length x _
theorem wadd (x : Pfx) (m : MFld) : Statement (.wadd x m) := wordsP_length x _
theorem wcas (x : Pfx) (m : MFld) : Statement (.wcas x m) := wordsP_length x _
theorem ldo (x : Pfx) (d : VFld) (a : SReg) (b : VFld) : Statement (.ldo x d a b) := wordsP_length x _
theorem sto (x : Pfx) (d : VFld) (a : SReg) (b : VFld) : Statement (.sto x d a b) := wordsP_length x _
theorem ldob (x : Pfx) (d : VFld) (a b : SReg) : Statement (.ldob x d a b) := wordsP_length x _
theorem stob (x : Pfx) (d : VFld) (a b : SReg) : Statement (.stob x d a b) := wordsP_length x _
theorem oinfo (x : Pfx) (d a : SReg) (n : Fin 8) : Statement (.oinfo x d a n) := wordsP_length x _
theorem oprobe (x : Pfx) (d : PReg) (a : VFld) (b : SReg) : Statement (.oprobe x d a b) := wordsP_length x _
theorem fence (kind scope : Fin 4) : Statement (.fence kind scope) := Nat.le_of_ble_eq_true rfl
theorem pfence (p t : Fin 16) : Statement (.pfence p t) := Nat.le_of_ble_eq_true rfl
theorem mwait (y : YPre) (d a b : SReg) : Statement (.mwait y d a b) := Nat.le_of_ble_eq_true rfl
theorem fla : Statement (.fla) := Nat.le_of_ble_eq_true rfl
theorem cinv (a : SReg) : Statement (.cinv a) := Nat.le_of_ble_eq_true rfl
theorem cwb (a : SReg) : Statement (.cwb a) := Nat.le_of_ble_eq_true rfl
theorem crsz (d a : SReg) : Statement (.crsz d a) := Nat.le_of_ble_eq_true rfl
theorem pref (a : SReg) (l : Fin 2) : Statement (.pref a l) := Nat.le_of_ble_eq_true rfl
theorem cpy (d a : SReg) (n : Fin 8) : Statement (.cpy d a n) := Nat.le_of_ble_eq_true rfl
theorem cpyb (d a : SReg) (n : Fin 8) : Statement (.cpyb d a n) := Nat.le_of_ble_eq_true rfl
theorem cpyt (d a : SReg) (n : Fin 8) : Statement (.cpyt d a n) := Nat.le_of_ble_eq_true rfl
theorem cpyx (d a : SReg) (n : Fin 8) : Statement (.cpyx d a n) := Nat.le_of_ble_eq_true rfl
theorem gath (d a : SReg) (n : Fin 8) : Statement (.gath d a n) := Nat.le_of_ble_eq_true rfl
theorem scat (d a : SReg) (n : Fin 8) : Statement (.scat d a n) := Nat.le_of_ble_eq_true rfl
theorem scata (d a : SReg) (n : Fin 8) : Statement (.scata d a n) := Nat.le_of_ble_eq_true rfl
theorem mma (d a : SReg) : Statement (.mma d a) := Nat.le_of_ble_eq_true rfl
theorem mxloop (d a : SReg) : Statement (.mxloop d a) := Nat.le_of_ble_eq_true rfl
theorem mxzero (d a : SReg) : Statement (.mxzero d a) := Nat.le_of_ble_eq_true rfl
theorem tld (d : VFld) (a : SReg) : Statement (.tld d a) := Nat.le_of_ble_eq_true rfl
theorem tst (d : VFld) (a : SReg) : Statement (.tst d a) := Nat.le_of_ble_eq_true rfl
theorem mxcfg (a : SReg) : Statement (.mxcfg a) := Nat.le_of_ble_eq_true rfl
theorem mxrel (d a : SReg) : Statement (.mxrel d a) := Nat.le_of_ble_eq_true rfl
theorem balloc (d : SReg) (a : PReg) (b : SReg) : Statement (.balloc d a b) := Nat.le_of_ble_eq_true rfl
theorem bfree (a : SReg) : Statement (.bfree a) := Nat.le_of_ble_eq_true rfl
theorem barv (d a : SReg) : Statement (.barv d a) := Nat.le_of_ble_eq_true rfl
theorem barw (a b : SReg) : Statement (.barw a b) := Nat.le_of_ble_eq_true rfl
theorem barx (a b : SReg) : Statement (.barx a b) := Nat.le_of_ble_eq_true rfl
theorem bar : Statement (.bar) := Nat.le_of_ble_eq_true rfl
theorem barPx : Statement (.barPx) := Nat.le_of_ble_eq_true rfl
theorem semaAdd (a b : SReg) : Statement (.semaAdd a b) := Nat.le_of_ble_eq_true rfl
theorem semaSet (a b : SReg) : Statement (.semaSet a b) := Nat.le_of_ble_eq_true rfl
theorem semw (a b : SReg) : Statement (.semw a b) := Nat.le_of_ble_eq_true rfl
theorem tlrd (d a : SReg) : Statement (.tlrd d a) := Nat.le_of_ble_eq_true rfl
theorem tlwait (a b : SReg) : Statement (.tlwait a b) := Nat.le_of_ble_eq_true rfl
theorem waitk (h l : Fin 16) : Statement (.waitk h l) := Nat.le_of_ble_eq_true rfl
theorem waitr (p : Fin 4) (a : SReg) : Statement (.waitr p a) := Nat.le_of_ble_eq_true rfl
theorem spawn (d : VFld) (a : SReg) (b : VFld) : Statement (.spawn d a b) := Nat.le_of_ble_eq_true rfl
theorem sendh (d : VFld) : Statement (.sendh d) := Nat.le_of_ble_eq_true rfl
theorem recvq (d : VFld) (a : SReg) (b : PReg) : Statement (.recvq d a b) := Nat.le_of_ble_eq_true rfl
theorem coll (d a : SReg) : Statement (.coll d a) := Nat.le_of_ble_eq_true rfl
theorem peerq (d : PReg) (a : VFld) (q : Fin 4) : Statement (.peerq d a q) := Nat.le_of_ble_eq_true rfl
theorem launch (d a : SReg) : Statement (.launch d a) := Nat.le_of_ble_eq_true rfl
theorem preempt (d a b : SReg) : Statement (.preempt d a b) := Nat.le_of_ble_eq_true rfl
theorem resume (d a b : SReg) : Statement (.resume d a b) := Nat.le_of_ble_eq_true rfl
theorem cfgrd (d a : SReg) : Statement (.cfgrd d a) := Nat.le_of_ble_eq_true rfl
theorem cfgwr (a b : SReg) : Statement (.cfgwr a b) := Nat.le_of_ble_eq_true rfl
theorem wait (ld st tl mx : Fin 32) : Statement (.wait ld st tl mx) := Nat.le_of_ble_eq_true rfl
theorem doorbellWrite (f q : Nat) (tail : Word) : Statement (.doorbellWrite f q tail) := Nat.le_of_ble_eq_true rfl
theorem launchRecordTake (q : Nat) : Statement (.launchRecordTake q) := Nat.le_of_ble_eq_true rfl
theorem lqstatResume (f q : Nat) : Statement (.lqstatResume f q) := Nat.le_of_ble_eq_true rfl
theorem hostWindowRead (f off len : Nat) : Statement (.hostWindowRead f off len) := Nat.le_of_ble_eq_true rfl
theorem hostWindowWrite (f off : Nat) (data : List Byte) : Statement (.hostWindowWrite f off data) := Nat.le_of_ble_eq_true rfl
theorem placeWorkgroup (core : Nat) (slots : List Nat) (base : Nat) (areas : List (Nat × Nat)) : Statement (.placeWorkgroup core slots base areas) := Nat.le_of_ble_eq_true rfl
theorem eprioAge (grid : Bool) (key : Nat) : Statement (.eprioAge grid key) := Nat.le_of_ble_eq_true rfl
theorem evictWorkgroup (w : Nat) : Statement (.evictWorkgroup w) := Nat.le_of_ble_eq_true rfl
theorem saveBegin (w : Nat) : Statement (.saveBegin w) := Nat.le_of_ble_eq_true rfl
theorem saveComplete (w : Nat) : Statement (.saveComplete w) := Nat.le_of_ble_eq_true rfl
theorem resumeWorkgroup (w core : Nat) (slots : List Nat) (base : Nat) : Statement (.resumeWorkgroup w core slots base) := Nat.le_of_ble_eq_true rfl
theorem resumeComplete (w : Nat) : Statement (.resumeComplete w) := Nat.le_of_ble_eq_true rfl
theorem gridComplete (g : Nat) : Statement (.gridComplete g) := Nat.le_of_ble_eq_true rfl
theorem regroupBinTimer (core bin : Nat) : Statement (.regroupBinTimer core bin) := Nat.le_of_ble_eq_true rfl
theorem regroupStoreRoom (core : Nat) : Statement (.regroupStoreRoom core) := Nat.le_of_ble_eq_true rfl
theorem clusterIdleGate (l : Nat) : Statement (.clusterIdleGate l) := Nat.le_of_ble_eq_true rfl
theorem clusterUngate (l : Nat) : Statement (.clusterUngate l) := Nat.le_of_ble_eq_true rfl
theorem rulingClassHoldEnd (core : Nat) : Statement (.rulingClassHoldEnd core) := Nat.le_of_ble_eq_true rfl
theorem classWaitRaise (k : Nat) : Statement (.classWaitRaise k) := Nat.le_of_ble_eq_true rfl
theorem urgentCandidate (k : Nat) : Statement (.urgentCandidate k) := Nat.le_of_ble_eq_true rfl
theorem yieldEnd (k : Nat) : Statement (.yieldEnd k) := Nat.le_of_ble_eq_true rfl
theorem sleepWake (k : Nat) : Statement (.sleepWake k) := Nat.le_of_ble_eq_true rfl
theorem spillTransferDone (k : Nat) : Statement (.spillTransferDone k) := Nat.le_of_ble_eq_true rfl
theorem trapEnter (k : Nat) : Statement (.trapEnter k) := Nat.le_of_ble_eq_true rfl
theorem handlerWatchdog (k : Nat) : Statement (.handlerWatchdog k) := Nat.le_of_ble_eq_true rfl
theorem contextHaltDeadline (n : Nat) : Statement (.contextHaltDeadline n) := Nat.le_of_ble_eq_true rfl
theorem contextFaultReport (n : Nat) : Statement (.contextFaultReport n) := Nat.le_of_ble_eq_true rfl
theorem reportVectorTimer (f : Nat) : Statement (.reportVectorTimer f) := Nat.le_of_ble_eq_true rfl
theorem loadReturn (k op : Nat) : Statement (.loadReturn k op) := Nat.le_of_ble_eq_true rfl
theorem storePerformed (k op : Nat) : Statement (.storePerformed k op) := Nat.le_of_ble_eq_true rfl
theorem waitingTableRetry (k op : Nat) : Statement (.waitingTableRetry k op) := Nat.le_of_ble_eq_true rfl
theorem walkComplete (u n va : Nat) : Statement (.walkComplete u n va) := Nat.le_of_ble_eq_true rfl
theorem serviceRecordPost (n : Nat) : Statement (.serviceRecordPost n) := Nat.le_of_ble_eq_true rfl
theorem osvcServiceDone (n obj sub : Nat) : Statement (.osvcServiceDone n obj sub) := Nat.le_of_ble_eq_true rfl
theorem osvcServiceFail (n obj sub : Nat) : Statement (.osvcServiceFail n obj sub) := Nat.le_of_ble_eq_true rfl
theorem publishRecord (n obj : Nat) : Statement (.publishRecord n obj) := Nat.le_of_ble_eq_true rfl
theorem publishMove (n obj sub : Nat) : Statement (.publishMove n obj sub) := Nat.le_of_ble_eq_true rfl
theorem publishRelease (n obj sub : Nat) : Statement (.publishRelease n obj sub) := Nat.le_of_ble_eq_true rfl
theorem publishEntries (n obj first count : Nat) : Statement (.publishEntries n obj first count) := Nat.le_of_ble_eq_true rfl
theorem publishGranules (n first count : Nat) : Statement (.publishGranules n first count) := Nat.le_of_ble_eq_true rfl
theorem publishDone : Statement (.publishDone) := Nat.le_of_ble_eq_true rfl
theorem remoteAccessArrive (r : RemoteReq) : Statement (.remoteAccessArrive r) := Nat.le_of_ble_eq_true rfl
theorem copyStart (w c : Nat) : Statement (.copyStart w c) := Nat.le_of_ble_eq_true rfl
theorem aonVersionAcquire (w c g : Nat) : Statement (.aonVersionAcquire w c g) := Nat.le_of_ble_eq_true rfl
theorem verPassEnd (w c g : Nat) : Statement (.verPassEnd w c g) := Nat.le_of_ble_eq_true rfl
theorem copySliceComplete (w c g : Nat) : Statement (.copySliceComplete w c g) := Nat.le_of_ble_eq_true rfl
theorem barvReleaseDone (k op : Nat) : Statement (.barvReleaseDone k op) := Nat.le_of_ble_eq_true rfl
theorem copyComplete (w c : Nat) : Statement (.copyComplete w c) := Nat.le_of_ble_eq_true rfl
theorem timelineEntryWrite (x : Nat) (v : DWord) : Statement (.timelineEntryWrite x v) := Nat.le_of_ble_eq_true rfl
theorem matrixStepStart (k : Nat) : Statement (.matrixStepStart k) := Nat.le_of_ble_eq_true rfl
theorem matrixStepComplete (k : Nat) : Statement (.matrixStepComplete k) := Nat.le_of_ble_eq_true rfl
theorem tileTransferDone (k op : Nat) : Statement (.tileTransferDone k op) := Nat.le_of_ble_eq_true rfl
theorem homeGets (d line : Nat) : Statement (.homeGets d line) := Nat.le_of_ble_eq_true rfl
theorem homeGetm (d line : Nat) : Statement (.homeGetm d line) := Nat.le_of_ble_eq_true rfl
theorem homePutm (d line : Nat) : Statement (.homePutm d line) := Nat.le_of_ble_eq_true rfl
theorem homePute (d line : Nat) : Statement (.homePute d line) := Nat.le_of_ble_eq_true rfl
theorem homeWritePerform (rid : ReqId) (da : Nat) (data : List Byte) : Statement (.homeWritePerform rid da data) := Nat.le_of_ble_eq_true rfl
theorem snoopInv (d line : Nat) : Statement (.snoopInv d line) := Nat.le_of_ble_eq_true rfl
theorem snoopRecToS (d line : Nat) : Statement (.snoopRecToS d line) := Nat.le_of_ble_eq_true rfl
theorem snoopRecToI (d line : Nat) : Statement (.snoopRecToI d line) := Nat.le_of_ble_eq_true rfl
theorem snoopAnswer (d line : Nat) : Statement (.snoopAnswer d line) := Nat.le_of_ble_eq_true rfl
theorem grantArrive (d line : Nat) : Statement (.grantArrive d line) := Nat.le_of_ble_eq_true rfl
theorem putAck (d line : Nat) : Statement (.putAck d line) := Nat.le_of_ble_eq_true rfl
theorem snoopResend (d line : Nat) : Statement (.snoopResend d line) := Nat.le_of_ble_eq_true rfl
theorem atomicPerform (k op lane : Nat) : Statement (.atomicPerform k op lane) := Nat.le_of_ble_eq_true rfl
theorem replayRequest (rid : ReqId) (req : HomeReq) : Statement (.replayRequest rid req) := Nat.le_of_ble_eq_true rfl
theorem monitorTimeout (k : Nat) : Statement (.monitorTimeout k) := Nat.le_of_ble_eq_true rfl
theorem monitorStatusDeliver (k : Nat) : Statement (.monitorStatusDeliver k) := Nat.le_of_ble_eq_true rfl
theorem cumulusAgeExpire (d buf : Nat) : Statement (.cumulusAgeExpire d buf) := Nat.le_of_ble_eq_true rfl
theorem cumulusPacketApply (id : Nat) (bad : List (Nat × Nat × Nat)) : Statement (.cumulusPacketApply id bad) := Nat.le_of_ble_eq_true rfl
theorem cumulusRejectLog : Statement (.cumulusRejectLog) := Nat.le_of_ble_eq_true rfl
theorem egressDeliver (q : Nat) : Statement (.egressDeliver q) := Nat.le_of_ble_eq_true rfl
theorem rrtWrite (c t : Nat) (v : DWord) : Statement (.rrtWrite c t v) := Nat.le_of_ble_eq_true rfl
theorem strandFail (c t strand : Nat) : Statement (.strandFail c t strand) := Nat.le_of_ble_eq_true rfl
theorem flitReceive (c t seq : Nat) (ok : Bool) : Statement (.flitReceive c t seq ok) := Nat.le_of_ble_eq_true rfl
theorem flitAck (c t seq : Nat) : Statement (.flitAck c t seq) := Nat.le_of_ble_eq_true rfl
theorem relayForward (k c t : Nat) : Statement (.relayForward k c t) := Nat.le_of_ble_eq_true rfl
theorem strandGate (c t : Nat) : Statement (.strandGate c t) := Nat.le_of_ble_eq_true rfl
theorem strandWakeDone (c t : Nat) : Statement (.strandWakeDone c t) := Nat.le_of_ble_eq_true rfl
theorem heartbeatSend (c : Nat) : Statement (.heartbeatSend c) := Nat.le_of_ble_eq_true rfl
theorem heartbeatMiss (r c : Nat) : Statement (.heartbeatMiss r c) := Nat.le_of_ble_eq_true rfl
theorem deadDieVerdict (c : Nat) : Statement (.deadDieVerdict c) := Nat.le_of_ble_eq_true rfl
theorem dieHaltDeadline (n : Nat) : Statement (.dieHaltDeadline n) := Nat.le_of_ble_eq_true rfl
theorem dieReportPost (n : Nat) : Statement (.dieReportPost n) := Nat.le_of_ble_eq_true rfl
theorem wavelengthFail (p w reason : Nat) : Statement (.wavelengthFail p w reason) := Nat.le_of_ble_eq_true rfl
theorem laneRemapDone (p lane : Nat) : Statement (.laneRemapDone p lane) := Nat.le_of_ble_eq_true rfl
theorem codewordReceive (p first errs : Nat) (flits : List LinkFlit) : Statement (.codewordReceive p first errs flits) := Nat.le_of_ble_eq_true rfl
theorem tagGroupVerify (p : Nat) (ok : Bool) : Statement (.tagGroupVerify p ok) := Nat.le_of_ble_eq_true rfl
theorem portSessionEstablish (p : Nat) (ok : Bool) (lat : Nat) : Statement (.portSessionEstablish p ok lat) := Nat.le_of_ble_eq_true rfl
theorem sessionRekey (p : Nat) : Statement (.sessionRekey p) := Nat.le_of_ble_eq_true rfl
theorem portEnable (p : Nat) (v : DWord) : Statement (.portEnable p v) := Nat.le_of_ble_eq_true rfl
theorem portDisable (p : Nat) (v : DWord) : Statement (.portDisable p v) := Nat.le_of_ble_eq_true rfl
theorem portNarrow (p : Nat) (v : DWord) : Statement (.portNarrow p v) := Nat.le_of_ble_eq_true rfl
theorem portWake (p : Nat) (v : DWord) : Statement (.portWake p v) := Nat.le_of_ble_eq_true rfl
theorem portNarrowDone (p : Nat) : Statement (.portNarrowDone p) := Nat.le_of_ble_eq_true rfl
theorem portWakeDone (p : Nat) : Statement (.portWakeDone p) := Nat.le_of_ble_eq_true rfl
theorem portAutoWake (p : Nat) : Statement (.portAutoWake p) := Nat.le_of_ble_eq_true rfl
theorem farEndNarrow (p width : Nat) : Statement (.farEndNarrow p width) := Nat.le_of_ble_eq_true rfl
theorem farEndWake (p width : Nat) : Statement (.farEndWake p width) := Nat.le_of_ble_eq_true rfl
theorem lageUpdate (p w bias mpwr temp hrs : Nat) : Statement (.lageUpdate p w bias mpwr temp hrs) := Nat.le_of_ble_eq_true rfl
theorem timeCounterSend (p : Nat) : Statement (.timeCounterSend p) := Nat.le_of_ble_eq_true rfl
theorem timeCounterReceive (p t : Nat) : Statement (.timeCounterReceive p t) := Nat.le_of_ble_eq_true rfl
theorem fabricPacketReceive (p : Nat) (pkt : FabPkt) : Statement (.fabricPacketReceive p pkt) := Nat.le_of_ble_eq_true rfl
theorem fabricRetryTimeout (dst cls seq : Nat) : Statement (.fabricRetryTimeout dst cls seq) := Nat.le_of_ble_eq_true rfl
theorem frgenWrite (v : DWord) : Statement (.frgenWrite v) := Nat.le_of_ble_eq_true rfl
theorem reachabilityRereadDone : Statement (.reachabilityRereadDone) := Nat.le_of_ble_eq_true rfl
theorem sendQueueDepart (core : Nat) : Statement (.sendQueueDepart core) := Nat.le_of_ble_eq_true rfl
theorem messageDeliver (m : Msg) : Statement (.messageDeliver m) := Nat.le_of_ble_eq_true rfl
theorem collHandoff (n c : Nat) : Statement (.collHandoff n c) := Nat.le_of_ble_eq_true rfl
theorem collComplete (n c : Nat) (peers : List (Nat × List Byte × List Byte)) : Statement (.collComplete n c peers) := Nat.le_of_ble_eq_true rfl
theorem collAbandon (n c reason : Nat) : Statement (.collAbandon n c reason) := Nat.le_of_ble_eq_true rfl
theorem coldReset : Statement (.coldReset) := Nat.le_of_ble_eq_true rfl
theorem bootStepDone (ok : Bool) (info : Nat) : Statement (.bootStepDone ok info) := Nat.le_of_ble_eq_true rfl
theorem deviceReset : Statement (.deviceReset) := Nat.le_of_ble_eq_true rfl
theorem functionReset (f : Nat) : Statement (.functionReset f) := Nat.le_of_ble_eq_true rfl
theorem contextDisable (n : Nat) : Statement (.contextDisable n) := Nat.le_of_ble_eq_true rfl
theorem attestationRequest (f : Nat) : Statement (.attestationRequest f) := Nat.le_of_ble_eq_true rfl
theorem attestationDone (f : Nat) : Statement (.attestationDone f) := Nat.le_of_ble_eq_true rfl
theorem ownClaim (f prio : Nat) : Statement (.ownClaim f prio) := Nat.le_of_ble_eq_true rfl
theorem ownRelease (f : Nat) : Statement (.ownRelease f) := Nat.le_of_ble_eq_true rfl
theorem ownHeartbeat (f : Nat) : Statement (.ownHeartbeat f) := Nat.le_of_ble_eq_true rfl
theorem ownerTimeout : Statement (.ownerTimeout) := Nat.le_of_ble_eq_true rfl
theorem pcieLinkDown (pd : Nat) : Statement (.pcieLinkDown pd) := Nat.le_of_ble_eq_true rfl
theorem stratusTakeover : Statement (.stratusTakeover) := Nat.le_of_ble_eq_true rfl
theorem powerEstimate (core : Nat) (drop : Bool) : Statement (.powerEstimate core drop) := Nat.le_of_ble_eq_true rfl
theorem lvEnter (core : Nat) : Statement (.lvEnter core) := Nat.le_of_ble_eq_true rfl
theorem lvExit (core : Nat) : Statement (.lvExit core) := Nat.le_of_ble_eq_true rfl
theorem lvTransitionDone (core : Nat) : Statement (.lvTransitionDone core) := Nat.le_of_ble_eq_true rfl
theorem powerCapStep (pkg cds mem pho : Nat) : Statement (.powerCapStep pkg cds mem pho) := Nat.le_of_ble_eq_true rfl
theorem phyLaser (p w : Nat) (on : Bool) : Statement (.phyLaser p w on) := Nat.le_of_ble_eq_true rfl
theorem phyLock (p w : Nat) : Statement (.phyLock p w) := Nat.le_of_ble_eq_true rfl
theorem phyTrain (p w : Nat) : Statement (.phyTrain p w) := Nat.le_of_ble_eq_true rfl
theorem phyLaserOnDone (p w : Nat) (ok : Bool) : Statement (.phyLaserOnDone p w ok) := Nat.le_of_ble_eq_true rfl
theorem phyLockDone (p w : Nat) (ok : Bool) : Statement (.phyLockDone p w ok) := Nat.le_of_ble_eq_true rfl
theorem phyTrainDone (p w : Nat) (ok : Bool) (eyeh eyew : Nat) : Statement (.phyTrainDone p w ok eyeh eyew) := Nat.le_of_ble_eq_true rfl
theorem lageFlashStore : Statement (.lageFlashStore) := Nat.le_of_ble_eq_true rfl
theorem configRegisterWrite (f ca : Nat) (v : DWord) : Statement (.configRegisterWrite f ca v) := Nat.le_of_ble_eq_true rfl
theorem illegalWord (word : Word) : Statement (.illegalWord word) := Nat.le_of_ble_eq_true rfl
theorem fetchFault : Statement (.fetchFault) := Nat.le_of_ble_eq_true rfl
theorem contextEnable (n : Nat) (v : DWord) : Statement (.contextEnable n v) := Nat.le_of_ble_eq_true rfl
theorem pcieLinkUp (pd gen : Nat) : Statement (.pcieLinkUp pd gen) := Nat.le_of_ble_eq_true rfl
theorem clusterPowered (l : Nat) : Statement (.clusterPowered l) := Nat.le_of_ble_eq_true rfl
theorem resultWriteBack (k : Nat) : Statement (.resultWriteBack k) := Nat.le_of_ble_eq_true rfl
theorem strandGatingDisable (c : Nat) : Statement (.strandGatingDisable c) := Nat.le_of_ble_eq_true rfl

end Sys2Proof.Laws.Coded
end

