-- ==== Sys2Proof/Laws/Units.lean ====
section
/-! SUPPORT. The issue of a unit in the terms of the statements: what `Ready` and `Quiet` give. -/

namespace Sys2Proof.Claims

open Sys2Proof.Machine

/-- Only majors 12 and 13 have a pipe that depends on the function code. -/
theorem pipeOf_fn {maj : Nat} (fn : Nat) (h : maj ≠ 12) (h' : maj ≠ 13) : pipeOf maj fn = pipeOf maj 0 := by
  simp [pipeOf, isFloat, h, h']

/-- What a unit occupies and reads, in the terms of the statements. -/
theorem issuedAs_eq (u : Uop) (g : Group) {fn : Nat} {src : List VFld}
    (hf : u.maj = 9 ∨ u.maj = 12 ∨ u.maj = 13 → u.base.toNat % 64 = fn)
    (hb : u.maj = 25 → u.base.toNat % 64 ≠ 0 ∧ u.base.toNat % 64 ≠ 7)
    (hs : u.vr ++ u.vr2.flatMap (pairFields g) ++ (if u.active g = allOnes then [] else u.vk) = src) :
    u.issuedAs g = { pipe := pipeOf u.maj fn, cls := u.cost, reads := g.physReads src, div := u.maj = 9 && 6 ≤ fn && fn ≤ 9 } := by
  subst hs
  have h0 : (decide (u.maj = 25) && decide (u.base.toNat % 64 = 0)) = false := by
    by_cases h : u.maj = 25 <;> simp [h, hb]
  have h7 : (decide (u.maj = 25) && decide (u.base.toNat % 64 = 7)) = false := by
    by_cases h : u.maj = 25 <;> simp [h, hb]
  simp only [Uop.issuedAs, h0, h7]
  by_cases h : u.maj = 9 ∨ u.maj = 12 ∨ u.maj = 13
  · rw [hf h]
  · have h9 : u.maj ≠ 9 := by omega
    rw [pipeOf_fn (u.base.toNat % 64) (by omega) (by omega), pipeOf_fn fn (by omega) (by omega)]
    simp [h9]

/-- Units of majors 0 to 8 take every lane as active. -/
theorem active_scalar {u : Uop} {g : Group} (h : u.maj ≤ 8) : u.active g = allOnes := by simp [Uop.active, h]

theorem not_faultPoint {u : Uop} {g : Group} (fp : u.fp = false)
    (q : (g.takable.any fun f => dstMeet (u.reads g ++ u.writes g) f.targets) = false) : u.faultPoint g = false := by
  simp only [Uop.faultPoint, fp, Bool.false_or]; exact q

/-- A scalar unit that is no fault point of itself has its own effect. -/
theorem issue2_scalar {eff str : Effect} {s : State} {k : Nat} {g h : Group} (r : Ready s k g) (u : Uop) (rd wr : List Dst)
    (hr : u.reads g = rd) (hw : u.writes g = wr) (q : Quiet g rd wr) (hm : u.maj ≤ 8) (fp : u.fp = false)
    (hnd : u.hnd = true → g.inH = false) (pr : u.priv = true → s.sysCtx g.ctx = true) (v : u.vr = []) (v2 : u.vr2 = []) (w : u.vw = [])
    (hx : u.cost = u.cls) (he : eff s k allOnes g (u.past g) = .grp h) :
    issue2 u eff str s = .next (done s k g h u.maj u.cls) := by
  subst hr hw
  rw [issue2_takes r.cur r.grp r.can r.res (fun hf => by simp [not_faultPoint fp q.flt] at hf) hnd pr
    (by simp only [Uop.ready, q.pend, q.kept, v]; simp; right; omega) (by simp [v, w])]
  rw [active_scalar hm, he]
  simp only [applyEff, State.issuedUnit, done]
  rw [issuedAs_eq u g (fn := 0) (src := []) (by omega) (by omega) (by simp [v, v2, active_scalar hm]), hx]
  simp [show u.maj ≠ 9 by omega]

/-- A scalar unit that is a fault point has its own effect when nothing is to be taken there. -/
theorem issue2_point {eff str : Effect} {s : State} {k : Nat} {g h : Group} (r : Ready s k g) (u : Uop) (rd wr : List Dst)
    (hr : u.reads g = rd) (hw : u.writes g = wr) (c : Clear s g) (pend : dstMeet (rd ++ wr) g.pending = false)
    (kept : dstMeet wr g.kept = false) (hm : u.maj ≤ 8)
    (hnd : u.hnd = true → g.inH = false) (pr : u.priv = true → s.sysCtx g.ctx = true) (v : u.vr = []) (v2 : u.vr2 = []) (w : u.vw = [])
    (hx : u.cost = u.cls) (he : eff s k allOnes g (u.past g) = .grp h) :
    issue2 u eff str s = .next (done s k g h u.maj u.cls) := by
  subst hr hw
  rw [issue2_takes r.cur r.grp r.can r.res (fun _ => ⟨c.flt, c.die⟩) hnd pr
    (by simp only [Uop.ready, pend, kept, v]; simp; right; omega) (by simp [v, w])]
  rw [active_scalar hm, he]
  simp only [applyEff, State.issuedUnit, done]
  rw [issuedAs_eq u g (fn := 0) (src := []) (by omega) (by omega) (by simp [v, v2, active_scalar hm]), hx]
  simp [show u.maj ≠ 9 by omega]

/-- Popping queues moves no PC and changes no mode. -/
@[simp] theorem popQs_pc (l : List Nat) (g : Group) : (l.foldl Group.popQ g).pc = g.pc := by
  induction l generalizing g with
  | nil => rfl
  | cons a r ih => exact ih _
@[simp] theorem popQs_inH (l : List Nat) (g : Group) : (l.foldl Group.popQ g).inH = g.inH := by
  induction l generalizing g with
  | nil => rfl
  | cons a r ih => exact ih _
@[simp] theorem popQs_upc (l : List Nat) (g : Group) : (l.foldl Group.popQ g).upc = g.upc := by
  induction l generalizing g with
  | nil => rfl
  | cons a r ih => exact ih _

/-- The function code of an A-format word. -/
theorem wordA_fn (maj d a b fn : Nat) (h : fn < 64) : (wordA maj d a b fn).toNat % 64 = fn := by
  simp only [wordA, BitVec.toNat_ofNat]; omega

/-- What a float unit writes, in the terms of the statements. -/
theorem fWrite_eq (g1 : Group) (d : VFld) (m : DWord) (f : Nat → FRes) : fWrite d m g1 f = .grp (floatWrite g1 d m f) := by
  simp only [fWrite, floatWrite]
  have h1 : resLane (laneResults m f) = fun i => BitVec.ofNat 32 (if i < 64 ∧ laneBit m i then (f i).1 else 0) := by
    funext i
    simp only [resLane, laneResults, laneIdx]
    by_cases hi : i < 64
    · simp [hi]; split <;> rfl
    · simp [hi]
  have h2 : orFlags (laneResults m f) = (laneIdx.map fun i => if laneBit m i then (f i).2 else 0).foldl Nat.lor 0 := by
    simp only [orFlags, laneResults, List.foldl_map]
    congr 1; funext acc i; split <;> simp
  rw [h1, h2]

/-- Only lanes 0 to 63 count in a mask. -/
theorem maskOf_congr {f h : Nat → Bool} (e : ∀ i, i < 64 → f i = h i) : maskOf f = maskOf h := by
  have go : ∀ l : List Nat, (∀ i ∈ l, i < 64) →
      l.foldr (fun i acc => acc + (if f i then 2 ^ i else 0)) 0 = l.foldr (fun i acc => acc + (if h i then 2 ^ i else 0)) 0 := by
    intro l hl
    induction l with
    | nil => rfl
    | cons a r ih =>
      simp only [List.foldr_cons]
      rw [ih fun i hi => hl i (List.mem_cons_of_mem _ hi), e a (hl a List.mem_cons_self)]
  simp only [maskOf, natOfBits]
  rw [go _ fun i hi => List.mem_range.mp hi]

theorem writePBits_congr (g : Group) (d : Nat) (m : DWord) {f h : Nat → Bool} (e : ∀ i, i < 64 → f i = h i) :
    g.writePBits d m f = g.writePBits d m h := by
  simp only [Group.writePBits, maskOf_congr e]

/-- A vector unit of majors 9 to 15 that may take its effect takes it. -/
theorem issue2_vec {eff str : Effect} {s : State} {k : Nat} {g h : Group} {x src dst rd wr} (r : ReadyV s k g x src dst rd wr)
    (u : Uop) (all : List VFld) (hsrc : u.vr = src)
    (hall : u.vr ++ u.vr2.flatMap (pairFields g) ++ (if activeMask x g = allOnes then [] else u.vk) = all) (hdst : u.vw = dst) (hp : u.pfx = x) (hk : u.peek = x.peek)
    (hr : u.vr.map g.vReg ++ (u.vr2.flatMap (pairFields g)).map g.vReg ++ u.sr.map g.sDst ++ u.pr.map Dst.p ++
      (if u.tscale && g.scm = 2 then [g.sDst g.sreg] else []) = rd)
    (hw : u.writes g = wr) (hm : 9 ≤ u.maj ∧ u.maj ≤ 15) (fp : u.fp = false) (hnd : u.hnd = false) (pr : u.priv = false) (fn : Nat)
    (hf : u.maj = 9 ∨ u.maj = 12 ∨ u.maj = 13 → u.base.toNat % 64 = fn)
    (he : eff s k (activeMask x g) g (pastV g x src) = .grp h) :
    issue2 u eff str s = .next (doneV s k g h x u.maj fn u.cls all) := by
  subst hsrc hdst hp hr hw
  have ha : u.active g = activeMask u.pfx g := by simp [Uop.active, show ¬ u.maj ≤ 8 by omega]
  have hpast : u.past g = pastV g u.pfx u.vr := by
    simp only [Uop.past, pastV, past, ha, hk]
    split <;> first | rfl | simp_all [popQs_pc]
  have q := r.quiet
  rw [issue2_takes r.now.cur r.now.grp r.now.can r.now.res (fun hf => by rw [not_faultPoint fp q.flt] at hf; cases hf)
    (by simp [hnd]) (by simp [pr])
    (by
      have h1 : dstMeet (u.reads g ++ u.writes g) g.pending = false := q.pend
      simp only [Uop.ready, h1, q.kept, r.heads]
      simp; right; omega) (by rw [ha, hk]; exact r.queues)]
  rw [ha, hpast, he]
  simp only [applyEff, State.issuedUnit, doneV]
  rw [issuedAs_eq u g (fn := fn) (src := all) hf (by omega) (by rw [ha]; exact hall)]; rfl

/-- A unit of major 16 or higher that may take its effect takes it. -/
theorem issue2_mem {eff str : Effect} {s t : State} {k : Nat} {g : Group} {x src dst rd wr} (r : ReadyM s k g x src dst rd wr)
    (u : Uop) (all : List VFld) (hsrc : u.vr = src)
    (hall : u.vr ++ u.vr2.flatMap (pairFields g) ++ (if activeMask x g = allOnes then [] else u.vk) = all) (hdst : u.vw = dst)
    (hp : u.pfx = x) (hk : u.peek = false)
    (hr : u.vr.map g.vReg ++ (u.vr2.flatMap (pairFields g)).map g.vReg ++ u.sr.map g.sDst ++ u.pr.map Dst.p ++
      (if u.tscale && g.scm = 2 then [g.sDst g.sreg] else []) = rd)
    (hw : u.writes g = wr) (hm : 16 ≤ u.maj) (fp : u.fp = true → Clear s g) (hnd : u.hnd = true → g.inH = false)
    (pr : u.priv = true → s.sysCtx g.ctx = true)
    (he : eff s k (activeMask x g) g (pastM g x src) = .st t ∨
      ∃ h, eff s k (activeMask x g) g (pastM g x src) = .grp h ∧ t = s.setGrp k h)
    (hb : u.maj ≠ 25 := by exact Nat.ne_of_beq_eq_false rfl) : issue2 u eff str s = .next (doneM t g x u.maj u.cls all) := by
  subst hsrc hdst hp hr hw
  have ha : u.active g = activeMask u.pfx g := by simp [Uop.active, show ¬ u.maj ≤ 8 by omega]
  have hpast : u.past g = pastM g u.pfx u.vr := by
    simp only [Uop.past, pastM, past, ha, hk]
    by_cases h0 : activeMask u.pfx g = 0
    · simp [h0]
    · simp
      split <;> simp
  have q := r.quiet
  rw [issue2_takes r.now.cur r.now.grp r.now.can r.now.res
    (fun hf => by
      cases h : u.fp with
      | true => exact ⟨(fp h).flt, (fp h).die⟩
      | false => rw [not_faultPoint h q.flt] at hf; cases hf) hnd pr
    (by
      have h1 : dstMeet (u.reads g ++ u.writes g) g.pending = false := q.pend
      simp only [Uop.ready, h1, q.kept, r.heads, r.hold]
      simp) (by rw [ha, hk]; exact r.queues)]
  rw [ha, hpast]
  rcases he with he | ⟨h, he, rfl⟩ <;>
  · rw [he]
    simp only [applyEff, State.issuedUnit, doneM]
    rw [issuedAs_eq u g (fn := 0) (src := all) (by omega) (by omega) (by rw [ha]; exact hall)]
    simp [show u.maj ≠ 9 by omega, Uop.cost]

/-- A unit without vector operands, of major 22 or higher, comes to its own effect. -/
theorem issue2_own {eff str : Effect} {s : State} {k : Nat} {g : Group} {rd wr : List Dst} (r : Ready s k g) (u : Uop)
    (hr : u.reads g = rd) (hw : u.writes g = wr) (pend : dstMeet (rd ++ wr) g.pending = false)
    (kept : dstMeet wr g.kept = false) (fp : u.faultPoint g = true → Clear s g) (hm : 22 ≤ u.maj)
    (hnd : u.hnd = true → g.inH = false) (pr : u.priv = true → s.sysCtx g.ctx = true) (v : u.vr = []) (w : u.vw = [])
    (hp : u.pfx = Pfx.none) :
    issue2 u eff str s = .next (applyEff u k g s (eff s k (activeMask Pfx.none g) g (past g 1))) := by
  subst hr hw
  have ha : u.active g = activeMask Pfx.none g := by simp [Uop.active, hp, show ¬ u.maj ≤ 8 by omega]
  have hpast : u.past g = past g 1 := by simp [Uop.past, past, v, queuesOf, hp, Pfx.none, Pfx.len]
  rw [issue2_takes r.cur r.grp r.can r.res (fun hf => ⟨(fp hf).flt, (fp hf).die⟩) hnd pr
    (by simp only [Uop.ready, pend, kept, v]; simp; right; omega) (by simp [v, w]), ha, hpast]

/-- A unit that meets no fault and is no fault point of itself. -/
theorem faultPoint_quiet {u : Uop} {g : Group} {rd wr : List Dst} (fp : u.fp = false) (hr : u.reads g = rd) (hw : u.writes g = wr)
    (q : Quiet g rd wr) {P : Prop} : u.faultPoint g = true → P := by
  subst hr hw
  intro h; rw [not_faultPoint fp q.flt] at h; cases h

/-- The effect of such a unit as a machine or as a group. -/
theorem applyEff_done {u : Uop} {k : Nat} {g : Group} {s t : State} {e : Eff} (hm : 22 ≤ u.maj) (hc : u.cost = 1) (hb : u.maj = 25 → u.base.toNat % 64 ≠ 0 ∧ u.base.toNat % 64 ≠ 7)
    (v : u.vr = []) (v2 : u.vr2 = []) (vk : u.vk = []) (he : e = .st t ∨ ∃ h, e = .grp h ∧ t = s.setGrp k h) : applyEff u k g s e = finished t g u.maj := by
  rcases he with rfl | ⟨h, rfl, rfl⟩ <;>
  · simp only [applyEff, State.issuedUnit, finished]
    rw [issuedAs_eq u g (fn := 0) (src := []) (by omega) hb (by simp [v, v2, vk]), hc]
    simp [show u.maj ≠ 9 by omega]

/-- A unit without vector operands that may take its effect takes it. -/
theorem issue2_plain {eff str : Effect} {s t : State} {k : Nat} {g : Group} {rd wr : List Dst} (r : Ready s k g) (u : Uop)
    (hr : u.reads g = rd) (hw : u.writes g = wr) (pend : dstMeet (rd ++ wr) g.pending = false)
    (kept : dstMeet wr g.kept = false) (fp : u.faultPoint g = true → Clear s g) (hm : 22 ≤ u.maj)
    (hnd : u.hnd = true → g.inH = false) (pr : u.priv = true → s.sysCtx g.ctx = true) (v : u.vr = []) (v2 : u.vr2 = []) (w : u.vw = [])
    (hp : u.pfx = Pfx.none) (hc : u.cls = 1)
    (he : eff s k (activeMask Pfx.none g) g (past g 1) = .st t ∨
      ∃ h, eff s k (activeMask Pfx.none g) g (past g 1) = .grp h ∧ t = s.setGrp k h)
    (hb : u.maj = 25 → u.base.toNat % 64 ≠ 0 ∧ u.base.toNat % 64 ≠ 7 := by
      first
      | exact fun h => absurd h (Nat.ne_of_beq_eq_false rfl)
      | exact fun _ => by show (wordA 25 _ _ _ _).toNat % 64 ≠ 0 ∧ (wordA 25 _ _ _ _).toNat % 64 ≠ 7; rw [wordA_fn _ _ _ _ _ (by decide)]; decide)
    (vk : u.vk = [] := by rfl) : issue2 u eff str s = .next (finished t g u.maj) := by
  rw [issue2_own r u hr hw pend kept fp hm hnd pr v w hp,
    applyEff_done hm (by simp [Uop.cost, hp, hc, Pfx.none, Pfx.xa, Pfx.xb]) hb v v2 vk he]

/-- A unit without vector operands that is not ready has no effect. -/
theorem issue2_wait {eff str : Effect} {s : State} {k : Nat} {g : Group} {rd wr : List Dst} (r : Ready s k g) (u : Uop)
    (hr : u.reads g = rd) (hw : u.writes g = wr) (pend : dstMeet (rd ++ wr) g.pending = false)
    (kept : dstMeet wr g.kept = false) (fp : u.faultPoint g = true → Clear s g) (hm : 22 ≤ u.maj)
    (hnd : u.hnd = true → g.inH = false) (pr : u.priv = true → s.sysCtx g.ctx = true) (v : u.vr = []) (w : u.vw = [])
    (hp : u.pfx = Pfx.none) (he : eff s k (activeMask Pfx.none g) g (past g 1) = .wait) :
    issue2 u eff str s = .next s.stall := by
  rw [issue2_own r u hr hw pend kept fp hm hnd pr v w hp, he]; rfl

/-- A trap of a group that can enter its handler enters it (R105). -/
theorem takeTrap_enters {s : State} {k : Nat} {g : Group} {t : Trap} (c : CanEnter s g) :
    s.takeTrap k g t =
      s.setGrp k (({ g with park := 0, woken := false, parkArg := [], exiting := false, flaWait := false } : Group).enterHandler t
        s.dev.tns s.nextId) := by
  have e1 := c.out
  have e2 := c.has
  have e3 : ((s.bankHolder g.core (partOfSlot g.slot)).isNone && (s.bankWaiters g.core (partOfSlot g.slot)).isEmpty) = true := by
    simp [c.free, c.line]
  simp only [State.takeTrap, c.run, State.trapIn]
  rw [if_neg (by simp [e1]), if_neg e2]
  exact if_pos e3

/-- The same in the terms of the statements, for a precise trap that is no QUE trap. -/
theorem takeTrap_entered {s : State} {k : Nat} {g : Group} {t : Trap} (c : CanEnter s g) (ht : t.cause ≠ 3)
    (hd : t.deferred = false) (hc : t.cause < 256) : s.takeTrap k g t = s.setGrp k (entered g s t.cause t.a t.pc t.i t.resume) := by
  have hw := c.wait
  rw [takeTrap_enters c]
  simp [Group.enterHandler, entered, ht, hd, hw, Nat.mod_eq_of_lt hc]

end Sys2Proof.Claims
end

