-- ==== Sys2Proof/Safety.lean ====
section
/-! DEFINITION. What counts as a safe run: no step ends in a fault, and no instruction is without a meaning. -/

namespace Sys2Proof.Safety

open Sys2Proof.Machine

/-- The step answers a next state. -/
def goesOn (s : State) : Prop := ∃ t, step s = .next t

/-- States reached from `s` by `n` steps that all answered a next state. -/
def reaches : Nat → State → State → Prop
  | 0, s, t => s = t
  | n + 1, s, t => ∃ u, step s = .next u ∧ reaches n u t

/-- A run of any length from `s` never stops. -/
def safe (s : State) : Prop := ∀ n t, reaches n s t → goesOn t

end Sys2Proof.Safety
end

