-- ==== Sys2Proof/Tests/Slice0.lean ====
section
/-! SUPPORT. The model's own tests: ill-formed terms that the well-formedness check refuses; words written out from the spec's
encodings that decode to the instruction they stand for; words that run as the first instruction after reset; and, for every
statement with hypotheses, a concrete state and operands that meet them. -/

set_option Elab.async false

open Sys2Proof Sys2Proof.Machine Sys2Proof.Claims

namespace Sys2Proof.Tests

/-! ### Small states -/

/-- A group of workgroup 1: s[n] = n, p1 lanes 0 and 2, p2 all, v0 lane = index, v1 = 3; a handler at 0x1000. -/
def g0 : Group :=
  { wg := 1, pc := 0x100, handler := 0x1000, s := (List.range 64).map fun n => BitVec.ofNat 64 n,
    p := [0, 5, allOnes] ++ List.replicate 13 0,
    vreg := [(0, lanesOf fun i => BitVec.ofNat 32 i), (1, lanesOf fun _ => 3)] }

/-- The group in its handler: banked s62 = 0xFF, s63 = 0x200. -/
def gh : Group := { g0 with inH := true, bank := [0, 0, 0, 0, 0, 0, 0xFF, 0x200] }

/-- The workgroup of the tests. -/
def w0 : Workgroup := { state := .resident, wgmw := 1, tsrows := 4 }

/-- The reset machine with one resident group, whose turn it is. -/
def one (g : Group) : State := { State.reset with cur := .grp 16, groups := [(16, g)], wgs := [(1, w0)] }

/-- The same, its context with system privilege. -/
def sys (g : Group) : State := { one g with ctxs := [(0, { en := true, sys := true })] }

theorem ready_one (g : Group) (h : g.wg = 1) (c : g.canIssue = true) : Ready (one g) 16 g :=
  ⟨rfl, rfl, c, by simp only [State.residentGrp, h]; rfl⟩

theorem ready_sys (g : Group) (h : g.wg = 1) (c : g.canIssue = true) : Ready (sys g) 16 g :=
  ⟨rfl, rfl, c, by simp only [State.residentGrp, h]; rfl⟩

/-- Without operations and faults every register is at rest. -/
theorem quiet_idle (g : Group) (h : g.ops = []) (f : g.faults = []) (rd wr : List Dst) : Quiet g rd wr := by
  constructor <;> simp [Group.pending, Group.kept, Group.takable, dstMeet, h, f]

theorem ready0 : Ready (one g0) 16 g0 := ready_one g0 rfl rfl

theorem readyH : Ready (one gh) 16 gh := ready_one gh rfl rfl

theorem quiet0 (rd wr : List Dst) : Quiet g0 rd wr := quiet_idle g0 rfl rfl rd wr

theorem clear0 : Clear (one g0) g0 := ⟨rfl, rfl⟩

theorem enter0 : CanEnter (one g0) g0 := ⟨by decide, rfl, rfl, rfl, rfl, rfl⟩

/-! ### Hypotheses met: registers, control, traps -/

/-- HardwiredAndBankedRegisters: outside and inside handler mode, at s1, s56, s63, p1 and p15. -/
theorem witness_HardwiredAndBankedRegisters : (g0.s.length = 64 ∧ g0.p.length = 16 ∧ g0.bank.length = 8 ∧ g0.inH = false) ∧
    (gh.s.length = 64 ∧ gh.p.length = 16 ∧ gh.bank.length = 8 ∧ gh.inH = true) ∧
    ((1 : SReg).val ≠ 0 ∧ (2 : SReg) ≠ 1 ∧ (1 : PReg).val ≠ 0 ∧ (15 : PReg) ≠ 1 ∧ 56 ≤ (56 : SReg).val ∧ 56 ≤ (63 : SReg).val) := by
  decide

/-- Window moves at both ends of the file, a queue depth at the limit. -/
def gEdge : Group := { g0 with wb := 16280 }

theorem readyEdge : Ready (one gEdge) 16 gEdge := ready_one gEdge rfl rfl

theorem witness_ControlResults : Ready (one g0) 16 g0 ∧ g0.inH = false ∧ (∀ rd, Quiet g0 rd []) ∧ g0.readS 0 = 0 ∧ g0.readS 5 ≠ 0 ∧
    (0 ≤ (g0.wb : Int) + 8 * sextNat 7 0 ∧ (g0.wb : Int) + 8 * sextNat 7 0 + 96 ≤ 16384) ∧
    (Ready (one gEdge) 16 gEdge ∧ 0 ≤ (gEdge.wb : Int) + 8 * sextNat 7 1 ∧ (gEdge.wb : Int) + 8 * sextNat 7 1 + 96 = 16384) ∧
    g0.qtot - (g0.queues.getD 3 {}).depth + 32 = g0.n - 96 :=
  ⟨ready0, rfl, fun rd => quiet0 rd [], by decide, by decide, by decide, ⟨readyEdge, by decide⟩, by decide⟩

theorem witness_SoftwareTraps : Ready (one g0) 16 g0 ∧ CanEnter (one g0) g0 := ⟨ready0, enter0⟩

/-- A handler's group whose banked return PC is misaligned, and one whose is out of range. -/
def ghOdd : Group := { gh with bank := [0, 0, 0, 0, 0, 0, 0xFF, 0x202] }
def ghFar : Group := { gh with bank := [0, 0, 0, 0, 0, 0, 0xFF, 0x10000000000000] }

/-- Two groups of one partition: one in its handler, one that waits for the bank. -/
def sBank : State :=
  { one gh with groups := [(16, gh), (17, { g0 with slot := 4, idx := 1, bankWait := some { cause := 1 } })] }

theorem readyBank : Ready sBank 16 gh := ⟨rfl, rfl, rfl, rfl⟩

/-- The other groups of the partition of group 16 that are not halted. -/
def mates (s : State) (g : Group) : List (Nat × Group) :=
  s.groups.filter fun kv => kv.1 ≠ 16 && kv.2.core = g.core && partOfSlot kv.2.slot = partOfSlot g.slot && !kv.2.halted

theorem witness_HandlerReturn : (Ready (one g0) 16 g0 ∧ g0.inH = false) ∧
    (Ready (one ghOdd) 16 ghOdd ∧ ghOdd.inH = true ∧ (regGet ghOdd.bank 7).toNat % 4 ≠ 0) ∧
    (Ready (one ghFar) 16 ghFar ∧ ghFar.inH = true ∧ 2 ^ 52 ≤ (regGet ghFar.bank 7).toNat) ∧
    (Ready (one gh) 16 gh ∧ gh.inH = true ∧ (regGet gh.bank 7).toNat % 4 = 0 ∧ (regGet gh.bank 7).toNat < 2 ^ 52 ∧
      ((one gh).groups.map Prod.fst).Pairwise (· < ·) ∧ (∀ kv ∈ mates (one gh) gh, kv.2.inH = false ∧ kv.2.bankWait = none)) ∧
    (Ready sBank 16 gh ∧ (sBank.groups.map Prod.fst).Pairwise (· < ·) ∧ (∀ kv ∈ mates sBank gh, kv.2.inH = false) ∧
      ∃ kv ∈ mates sBank gh, kv.2.bankWait = some { cause := 1 } ∧ sBank.residentGrp kv.2 = true ∧ (sBank.ctx kv.2.ctx).stop = .running ∧
        ∀ jv ∈ mates sBank gh, jv.2.bankWait.isSome = true → jv.1 ≠ kv.1 →
          kv.2.bankOrder < jv.2.bankOrder ∨ (kv.2.bankOrder = jv.2.bankOrder ∧ kv.2.slot < jv.2.slot)) :=
  ⟨⟨ready0, rfl⟩, ⟨ready_one _ rfl rfl, rfl, by decide⟩, ⟨ready_one _ rfl rfl, rfl, by decide⟩, ⟨readyH, by decide⟩,
    readyBank, by decide, by decide, by decide⟩

/-- A group with one entry on its return stack, and one whose stack has one entry left. -/
def gRet : Group := { g0 with ret := [{ pc := 0x40, frame := 2 }], wb := 16 }
def gDeep : Group := { g0 with retSp := 4095 }

theorem witness_ReturnStack : (Ready (one g0) 16 g0 ∧ g0.inH = false ∧ Clear (one g0) g0 ∧ g0.ret = [] ∧ g0.retSp = 0) ∧
    (Ready (one gDeep) 16 gDeep ∧ Clear (one gDeep) gDeep ∧ gDeep.ret.length + gDeep.retSp < 4096 ∧ gDeep.wb + 8 * 63 + 96 ≤ 16384 ∧
      (target gDeep (1 : BitVec 18).toInt).toNat % 4 = 0 ∧ dstMeet [gDeep.sDst 4] gDeep.pending = false ∧ (gDeep.readS 4).toNat % 4 = 0) ∧
    (Ready (one gRet) 16 gRet ∧ Clear (one gRet) gRet ∧ gRet.ret = [] ++ [{ pc := 0x40, frame := 2 }] ∧ 8 * 2 = gRet.wb ∧
      gRet.wb - 8 * 2 + 96 ≤ 16384) :=
  ⟨⟨ready0, rfl, clear0, rfl, rfl⟩, ⟨ready_one _ rfl rfl, ⟨rfl, rfl⟩, by decide⟩, ⟨ready_one _ rfl rfl, ⟨rfl, rfl⟩, by decide⟩⟩

theorem witness_ExitEndsTheGroup : Ready (one g0) 16 g0 ∧ Clear (one g0) g0 ∧ g0.ops = [] ∧ g0.mxq = [] ∧ g0.dirtyMask = 0 ∧
    g0.agg = false ∧ g0.peerP = false := ⟨ready0, clear0, rfl, rfl, rfl, rfl, rfl⟩

/-- A register that a write to WB takes at its end: s8 = 16288. -/
def gWb : Group := { g0 with s := g0.s.set 8 16288 }

theorem witness_SpecialRegisters : (Ready (one g0) 16 g0 ∧ (∀ rd wr, Quiet g0 rd wr) ∧ g0.inH = false ∧ CanEnter (one g0) g0 ∧
      ((one g0).ctx 0).sys = false) ∧
    (Ready (one gWb) 16 gWb ∧ gWb.inH = false ∧ (gWb.readS 8).toNat % 8 = 0 ∧ (gWb.readS 8).toNat + 96 = 16384) ∧
    (Ready (sys g0) 16 g0 ∧ ((sys g0).ctx g0.ctx).sys = true) :=
  ⟨⟨ready0, quiet0, rfl, enter0, rfl⟩, ⟨ready_one _ rfl rfl, by decide⟩, ready_sys _ rfl rfl, rfl⟩

/-! ### Hypotheses met: scalar, vector and conversion units -/

/-- Queues q0 full at depth 2, q1 empty at depth 1, the others not configured. -/
def gQ : Group :=
  { g0 with queues := [{ depth := 2, ents := [{ lanes := lanesOf fun _ => 7, filled := true }, { lanes := lanesOf fun _ => 8, filled := true }] },
                       { depth := 1 }] ++ List.replicate 14 {} }

/-- No lane active. -/
def gNone : Group := { g0 with exm := 0 }

/-- A guard p1 and a rotation by one lane; a third source v3; PEEK. -/
def xG : Pfx := { x := some { g := true, neg := false, pred := 1, xa := 65, xb := 0, rm := 0 }, y := none }
def xE : Pfx := { x := none, y := some { e := 1, imm := 0 } }
def xPeek : Pfx := { x := none, y := some { e := 0, imm := 1 } }

theorem readyV_idle (g : Group) (w : g.wg = 1) (c : g.canIssue = true) (o : g.ops = []) (f : g.faults = []) (x : Pfx)
    (src dst : List VFld) (rd wr : List Dst) (hf : headsFilled g (queuesOf src) = true)
    (qc : queueCheck g (queuesOf src) (queuesOf dst) x.peek (activeMask x g ≠ 0) = none) : ReadyV (one g) 16 g x src dst rd wr :=
  ⟨ready_one g w c, quiet_idle g o f _ _, hf, qc⟩

theorem readyM_idle (g : Group) (w : g.wg = 1) (c : g.canIssue = true) (o : g.ops = []) (f : g.faults = []) (x : Pfx)
    (src dst : List VFld) (rd wr : List Dst) (hf : headsFilled g (queuesOf src) = true)
    (qc : queueCheck g (queuesOf src) (queuesOf dst) false (activeMask x g ≠ 0) = none) : ReadyM (one g) 16 g x src dst rd wr :=
  ⟨ready_one g w c, quiet_idle g o f _ _, hf, qc, by simp [Group.holding, o]⟩

theorem readyS0 (rd wr : List Dst) : ReadyS (one g0) 16 g0 rd wr := ⟨ready0, quiet0 rd wr⟩

theorem witness_ScalarResults : Ready (one g0) 16 g0 ∧ (∀ rd wr, Quiet g0 rd wr) ∧ Ready (one gh) 16 gh ∧ ∀ rd wr, Quiet gh rd wr :=
  ⟨ready0, quiet0, readyH, quiet_idle gh rfl rfl⟩

/-- Branches, calls and divergence at the last free place of a stack and with one entry to pop. -/
def gRec : Group := { g0 with recs := [{ kindD := true, pc := 0x80, exm := 3, fmt := 0 }] }
def gRecFull : Group := { g0 with recSp := 4095 }

theorem witness_BranchesAndDivergence :
    (Ready (one gDeep) 16 gDeep ∧ Clear (one gDeep) gDeep ∧ gDeep.inH = false ∧ dstMeet [gDeep.sDst 4] gDeep.pending = false ∧
      (gDeep.readS 4).toNat % 4 = 0 ∧ gDeep.wb + 8 * 63 + 96 ≤ 16384 ∧ gDeep.ret.length + gDeep.retSp < 4096 ∧
      (target gDeep (1 : BitVec 18).toInt).toNat % 4 = 0) ∧
    (Ready (one gRecFull) 16 gRecFull ∧ Clear (one gRecFull) gRecFull ∧ dstMeet [.p 1] gRecFull.pending = false ∧
      gRecFull.inH = false ∧ gRecFull.recs.length + gRecFull.recSp < 4096) ∧
    (Ready (one gRec) 16 gRec ∧ Clear (one gRec) gRec ∧ dstMeet [.p 1] gRec.pending = false ∧ gRec.inH = false ∧
      gRec.recs = [] ++ [{ kindD := true, pc := 0x80, exm := 3, fmt := 0 }]) :=
  ⟨⟨ready_one _ rfl rfl, ⟨rfl, rfl⟩, by decide⟩, ⟨ready_one _ rfl rfl, ⟨rfl, rfl⟩, by decide⟩, ⟨ready_one _ rfl rfl, ⟨rfl, rfl⟩, by decide⟩⟩

/-- Window registers under a guard; a full queue popped and pushed; a unit without an active lane. -/
theorem witness_VectorIntegerResults : (∀ rd wr, ReadyV (one g0) 16 g0 xG [0, 1] [2] rd wr) ∧
    (∀ rd wr, ReadyV (one gQ) 16 gQ Pfx.none [96, 1] [96] rd wr) ∧ (∀ rd wr, ReadyV (one gQ) 16 gQ xPeek [96] [97] rd wr) ∧
    (∀ rd wr, ReadyV (one g0) 16 g0 xE [0, 1, 1] [2] rd wr) ∧ (∀ rd wr, ReadyV (one gNone) 16 gNone Pfx.none [0] [2] rd wr) ∧
    ∀ rd wr, ReadyV (one g0) 16 g0 Pfx.none [] [2, 3] rd wr :=
  ⟨fun _ _ => readyV_idle _ rfl rfl rfl rfl _ _ _ _ _ rfl (by decide), fun _ _ => readyV_idle _ rfl rfl rfl rfl _ _ _ _ _ rfl (by decide),
    fun _ _ => readyV_idle _ rfl rfl rfl rfl _ _ _ _ _ rfl (by decide), fun _ _ => readyV_idle _ rfl rfl rfl rfl _ _ _ _ _ rfl (by decide),
    fun _ _ => readyV_idle _ rfl rfl rfl rfl _ _ _ _ _ rfl (by decide), fun _ _ => readyV_idle _ rfl rfl rfl rfl _ _ _ _ _ rfl (by decide)⟩

theorem witness_VectorFloatResults : (∀ rd wr, ReadyV (one g0) 16 g0 xG [0, 1] [2] rd wr) ∧
    (∀ rd wr, ReadyV (one gQ) 16 gQ Pfx.none [96] [97] rd wr) ∧ ∀ rd wr, ReadyV (one g0) 16 g0 xE [0, 1, 1] [2] rd wr :=
  ⟨fun _ _ => readyV_idle _ rfl rfl rfl rfl _ _ _ _ _ rfl (by decide), fun _ _ => readyV_idle _ rfl rfl rfl rfl _ _ _ _ _ rfl (by decide),
    fun _ _ => readyV_idle _ rfl rfl rfl rfl _ _ _ _ _ rfl (by decide)⟩

theorem witness_PredicateResults : (∀ rd wr, ReadyV (one g0) 16 g0 xG [0, 1] [] rd wr) ∧
    (∀ rd wr, ReadyV (one g0) 16 g0 Pfx.none [] [] rd wr) ∧ ∀ rd wr, ReadyV (one gQ) 16 gQ Pfx.none [96] [97] rd wr :=
  ⟨fun _ _ => readyV_idle _ rfl rfl rfl rfl _ _ _ _ _ rfl (by decide), fun _ _ => readyV_idle _ rfl rfl rfl rfl _ _ _ _ _ rfl (by decide),
    fun _ _ => readyV_idle _ rfl rfl rfl rfl _ _ _ _ _ rfl (by decide)⟩

theorem witness_LaneUnits : (∀ rd wr, ReadyV (one g0) 16 g0 xG [0, 1] [2] rd wr) ∧ (∀ rd wr, ReadyV (one gQ) 16 gQ Pfx.none [96] [] rd wr) ∧
    (∀ rd wr, ReadyV (one g0) 16 g0 Pfx.none [0] [2, 3] rd wr) ∧
    (Ready (one gQ) 16 gQ ∧ (∀ rd wr, Quiet gQ rd wr) ∧ headsFilled gQ (queuesOf [96]) = true ∧
      queueCheck gQ (queuesOf [96]) [] false true = none) ∧
    ((95 : VFld).val < 96 ∧ 112 ≤ (112 : VFld).val) :=
  ⟨fun _ _ => readyV_idle _ rfl rfl rfl rfl _ _ _ _ _ rfl (by decide), fun _ _ => readyV_idle _ rfl rfl rfl rfl _ _ _ _ _ rfl (by decide),
    fun _ _ => readyV_idle _ rfl rfl rfl rfl _ _ _ _ _ rfl (by decide), ⟨ready_one _ rfl rfl, quiet_idle _ rfl rfl, rfl, by decide⟩, by decide⟩

/-- The plain formats and the block formats of FMT.NF. -/
theorem witness_ConversionUnits : (∀ rd wr, ReadyV (one g0) 16 g0 xG [0] [2] rd wr) ∧ (∀ rd wr, ReadyV (one g0) 16 g0 xG [0, 2] [2] rd wr) ∧
    (∀ rd wr, ReadyV (one g0) 16 g0 Pfx.none [2] [2] rd wr) ∧ (∀ rd wr, ReadyV (one g0) 16 g0 Pfx.none [0] [2, 3] rd wr) ∧
    (∀ rd wr, ReadyV (one g0) 16 g0 Pfx.none [0] [] rd wr) ∧ (∀ rd wr, ReadyV (one g0) 16 g0 Pfx.none [] [] rd wr) ∧ activeMask xG g0 ≠ 0 :=
  ⟨fun _ _ => readyV_idle _ rfl rfl rfl rfl _ _ _ _ _ rfl (by decide), fun _ _ => readyV_idle _ rfl rfl rfl rfl _ _ _ _ _ rfl (by decide),
    fun _ _ => readyV_idle _ rfl rfl rfl rfl _ _ _ _ _ rfl (by decide), fun _ _ => readyV_idle _ rfl rfl rfl rfl _ _ _ _ _ rfl (by decide),
    fun _ _ => readyV_idle _ rfl rfl rfl rfl _ _ _ _ _ rfl (by decide), fun _ _ => readyV_idle _ rfl rfl rfl rfl _ _ _ _ _ rfl (by decide),
    by decide⟩

theorem witness_VectorOperands : (63 < 64) ∧ (xbarOk 0 = true ∧ xbarOk 127 = true ∧ xbarOk 257 = true ∧ xbarOk 262 = true ∧
      xbarOk 383 = true ∧ xbarOk 447 = true) ∧
    ((95 : VFld).val < 96 ∧ 96 ≤ (96 : VFld).val ∧ (111 : VFld).val < 112 ∧ 112 ≤ (112 : VFld).val ∧ 112 ≤ (127 : VFld).val) ∧
    (g0.low ≤ g0.wb + 95 ∧ g0.wb + 95 < g0.high ∧ g0.queues.length = 16) := by decide

/-- A source that is not configured, one that is empty, a destination that is full under PEEK. -/
theorem witness_QueueRules : (Ready (one gQ) 16 gQ ∧ CanEnter (one gQ) gQ ∧ ∀ rd wr, Quiet gQ rd wr) ∧
    (headsFilled gQ (queuesOf [98, 97]) = true ∧ queueCheck gQ (queuesOf [98, 97]) (queuesOf [96]) false true = some (3, 2)) ∧
    (headsFilled gQ (queuesOf [97, 97]) = true ∧ queueCheck gQ (queuesOf [97, 97]) (queuesOf [96]) false true = some (0, 1)) ∧
    (headsFilled gQ (queuesOf [96, 1]) = true ∧ queueCheck gQ (queuesOf [96, 1]) (queuesOf [96]) xPeek.peek (activeMask xPeek gQ ≠ 0) = some (1, 0)) :=
  ⟨⟨ready_one _ rfl rfl, ⟨by decide, rfl, rfl, rfl, rfl, rfl⟩, quiet_idle _ rfl rfl⟩, by decide, by decide, by decide⟩

/-- A recorded fault; handler mode; a misaligned target; the ends of the window, the stack and the queues. -/
def gFlt : Group := { g0 with faults := [{ trap := { cause := 7 }, targets := [] }] }
def gEnd : Group := { g0 with wb := 16288, retSp := 4096 }

theorem witness_IssueTraps :
    (Ready (one gFlt) 16 gFlt ∧ (one gFlt).dieWaits gFlt = false ∧ gFlt.takable = [{ trap := { cause := 7 }, targets := [] }] ∧
      gFlt.lowerDone { trap := { cause := 7 }, targets := [] } = true) ∧
    (Ready (one gh) 16 gh ∧ (one gh).dieWaits gh = false ∧ gh.takable = [] ∧ gh.inH = true) ∧
    (Ready (one ghOdd) 16 ghOdd ∧ (one ghOdd).dieWaits ghOdd = false ∧ ghOdd.takable = [] ∧ ghOdd.inH = true ∧
      ¬ ((regGet ghOdd.bank 7).toNat % 4 = 0 ∧ (regGet ghOdd.bank 7).toNat < 2 ^ 52)) ∧
    (Ready (one g0) 16 g0 ∧ (one g0).dieWaits g0 = false ∧ g0.takable = [] ∧ CanEnter (one g0) g0 ∧ (one g0).sysCtx g0.ctx = false ∧
      dstMeet [g0.sDst 5] g0.pending = false ∧ (g0.readS 5).toNat % 4 ≠ 0 ∧ (g0.wb : Int) + 8 * sextNat 7 127 < 0 ∧
      g0.n - 96 < g0.qtot - depthOf g0 3 + 33) ∧
    (Ready (one gEnd) 16 gEnd ∧ (one gEnd).dieWaits gEnd = false ∧ gEnd.takable = [] ∧ CanEnter (one gEnd) gEnd ∧
      16384 < (gEnd.wb : Int) + 8 * sextNat 7 1 + 96 ∧ 4096 ≤ gEnd.ret.length + gEnd.retSp ∧
      (target gEnd (1 : BitVec 18).toInt).toNat % 4 = 0) :=
  ⟨⟨ready_one _ rfl rfl, rfl, rfl, rfl⟩, ⟨readyH, rfl, rfl, rfl⟩, ⟨ready_one _ rfl rfl, rfl, rfl, rfl, by decide⟩,
    ⟨ready0, rfl, rfl, enter0, rfl, by decide, by decide, by decide, by decide⟩,
    ⟨ready_one _ rfl rfl, rfl, rfl, ⟨by decide, rfl, rfl, rfl, rfl, rfl⟩, by decide, by decide, by decide⟩⟩

/-- The machine of one group, its context stopped. -/
def stopped (g : Group) (st : StopSt) : State := { one g with ctxs := [(0, { en := true, stop := st })] }

/-- TrapOutcomes: in handler mode; without a handler; with the bank held, or waited for; a context that a fault or DIE has stopped. -/
theorem witness_TrapOutcomes :
    (∀ g ∈ [gh, { g0 with handler := 0 }, g0], g.park = 0 ∧ g.woken = false ∧ g.parkArg = [] ∧ g.exiting = false ∧ g.flaWait = false ∧
      ((one g).ctx g.ctx).stop = .running) ∧
    gh.inH = true ∧ ({ g0 with handler := 0 } : Group).inH = false ∧
    (g0.inH = false ∧ g0.handler ≠ 0 ∧ (sBank.ctx g0.ctx).stop = .running ∧ sBank.bankHolder g0.core (partOfSlot g0.slot) = some 16 ∧
      sBank.bankWaiters g0.core (partOfSlot g0.slot) ≠ []) ∧
    ((stopped g0 (.faulted 0 { cause := 5 } 0 0 false)).ctx g0.ctx).stop = .faulted 0 { cause := 5 } 0 0 false ∧
    (((stopped g0 (.die 0 [3] true false)).ctx g0.ctx).stop = .die 0 [3] true false ∧ g0.inDie = false) ∧
    (17 ≠ 16 ∧ ({ g0 with ctx := 1 } : Group).ctx ≠ g0.ctx) := by decide

theorem witness_RegisterUnitsFrame : (Ready (one g0) 16 g0 ∧ ∀ rd wr, Quiet g0 rd wr) ∧ (∀ rd wr, ReadyV (one g0) 16 g0 xG [0, 1] [2] rd wr) ∧
    (∀ rd wr, ReadyV (one gh) 16 gh Pfx.none [0, 1] [127] rd wr) ∧ (∀ rd wr, ReadyV (one gQ) 16 gQ Pfx.none [96, 1] [96] rd wr) ∧
    ∀ rd wr, ReadyV (one g0) 16 g0 Pfx.none [0, 1] [] rd wr :=
  ⟨⟨ready0, quiet0⟩, fun _ _ => readyV_idle _ rfl rfl rfl rfl _ _ _ _ _ rfl (by decide), fun _ _ => readyV_idle _ rfl rfl rfl rfl _ _ _ _ _ rfl (by decide),
    fun _ _ => readyV_idle _ rfl rfl rfl rfl _ _ _ _ _ rfl (by decide), fun _ _ => readyV_idle _ rfl rfl rfl rfl _ _ _ _ _ rfl (by decide)⟩

/-! ### Hypotheses met: memory, objects, copies, matrix, synchronization, fabric, management units -/

/-- A linear object, 8 KiB at VA 0 of context 0, readable, writable, atomic: sub-tile 0 resident at 0x50000 with the bytes
0x44332211 first, sub-tile 1 absent. -/
def mapMem : Mem :=
  let put (m : Mem) (a n v : Nat) : Mem := memWriteBytes m a (leBytes n v)
  put (put (put (put (put (put (put (put [] 0x10040 8 (27 * 2 ^ 2 + 12 * 2 ^ 19)) 0x10048 8 (2 ^ 31)) 0x10050 8 0x40000) 0x10058 8 0x2000)
    0x20000 8 0x30001) 0x30000 4 0x80000001) 0x40000 8 0x50001) 0x50000 4 0x44332211

def mapped (g : Group) : State :=
  { one g with mem := mapMem, ctxs := [(0, { en := true, orb := 0x4000000010000, otdr := 0x20000 })] }

/-- A counter at the most its unit allows: 254 accesses that have been performed. -/
def gFull (c : Ctr) : Group := { g0 with ops := (List.range 254).map fun i => { id := i + 1, ctr := c, performed := true } }

/-- Fields of the M format: no offset register; an offset register v1, release order, DEV scope. -/
def m0 : MFld := { d := 2, sb := 4, vo := 112, ord := 0, scope := 0 }
def m1 : MFld := { d := 92, sb := 4, vo := 1, ord := 2, scope := 2 }
/-- A range v2 to v4. -/
def xR : Pfx := { x := none, y := some { e := 4, imm := 0 } }

theorem readyFull (c : Ctr) (rd wr : List Dst) : ReadyM (one (gFull c)) 16 (gFull c) Pfx.none [] [] rd wr := by
  refine ⟨ready_one _ rfl rfl, ⟨?_, ?_, ?_⟩, rfl, by cases c <;> decide +kernel, ?_⟩
  · have : (gFull c).pending = [] := by simp [Group.pending, gFull]
    simp [this, dstMeet]
  · have : (gFull c).kept = [] := by simp [Group.kept, gFull]
    simp [this, dstMeet]
  · simp [Group.takable, gFull, g0]
  · simp [Group.holding, gFull]

theorem witness_LoadAndStoreUnits : (∀ rd wr, ReadyM (one g0) 16 g0 Pfx.none (offset m0) (regs m0.d 4) rd wr) ∧
    (∀ rd wr, ReadyM (one g0) 16 g0 xG (offset m1) (regs m1.d 4) rd wr) ∧
    (∀ rd wr, ReadyM (one g0) 16 g0 xG (offset m1 ++ sources g0 m1.d 16) [] rd wr) ∧
    (∀ rd wr, ReadyM (one g0) 16 g0 xR (offset m0) (range xR m0.d) rd wr) ∧
    (∀ rd wr, ReadyM (one g0) 16 g0 xR (offset m0 ++ range xR m0.d) [] rd wr) ∧
    (∀ rd wr, ReadyM (one (gFull .ld)) 16 (gFull .ld) Pfx.none [] [] rd wr) ∧
    (gFull .ld).counter .ld = 254 ∧ (gFull .st).counter .st = 254 ∧ g0.counter .ld + (range xR m0.d).length ≤ 255 :=
  ⟨fun _ _ => readyM_idle _ rfl rfl rfl rfl _ _ _ _ _ rfl (by decide), fun _ _ => readyM_idle _ rfl rfl rfl rfl _ _ _ _ _ rfl (by decide),
    fun _ _ => readyM_idle _ rfl rfl rfl rfl _ _ _ _ _ rfl (by decide), fun _ _ => readyM_idle _ rfl rfl rfl rfl _ _ _ _ _ rfl (by decide),
    fun _ _ => readyM_idle _ rfl rfl rfl rfl _ _ _ _ _ rfl (by decide), readyFull .ld, by decide +kernel, by decide +kernel,
    by decide +kernel⟩

theorem witness_AccessIssueFrame : (∀ rd wr, ReadyM (mapped g0) 16 g0 xG (offset m1) (regs m1.d 1) rd wr) ∧ g0.counter .ld ≤ 254 ∧
    (∀ rd wr, ReadyM (mapped g0) 16 g0 xG (offset m1 ++ sources g0 m1.d 4) [] rd wr) ∧ g0.counter .st ≤ 254 :=
  ⟨fun _ _ => ⟨⟨rfl, rfl, rfl, rfl⟩, quiet0 _ _, rfl, by decide, rfl⟩, by decide,
    fun _ _ => ⟨⟨rfl, rfl, rfl, rfl⟩, quiet0 _ _, rfl, by decide, rfl⟩, by decide⟩

theorem witness_AtomicAndAggregatingUnits : (∀ rd wr, ReadyM (one g0) 16 g0 xG (offset m1 ++ [m1.d]) [] rd wr) ∧
    (∀ rd wr, ReadyM (one g0) 16 g0 xG [1] [] rd wr) ∧ (∀ rd wr, ReadyM (one g0) 16 g0 xG [1, 2] [2] rd wr) ∧
    (∀ rd wr, ReadyM (one g0) 16 g0 xG (offset m1 ++ regs m1.d 2) [m1.d] rd wr) ∧ g0.counter .ld ≤ 254 ∧ (gFull .st).counter .st ≤ 254 :=
  ⟨fun _ _ => readyM_idle _ rfl rfl rfl rfl _ _ _ _ _ rfl (by decide), fun _ _ => readyM_idle _ rfl rfl rfl rfl _ _ _ _ _ rfl (by decide),
    fun _ _ => readyM_idle _ rfl rfl rfl rfl _ _ _ _ _ rfl (by decide), fun _ _ => readyM_idle _ rfl rfl rfl rfl _ _ _ _ _ rfl (by decide),
    by decide, by decide +kernel⟩

theorem witness_ObjectUnits : (∀ rd wr, ReadyM (one g0) 16 g0 xG (regs 1 5) [10] rd wr) ∧ (∀ rd wr, ReadyM (one g0) 16 g0 xG (10 :: regs 1 5) [] rd wr) ∧
    (∀ rd wr, ReadyM (one g0) 16 g0 xR [] (range xR 2) rd wr) ∧ (∀ rd wr, ReadyM (one g0) 16 g0 xR (range xR 2) [] rd wr) ∧
    (∀ rd wr, ReadyM (one g0) 16 g0 xG [] [] rd wr) ∧ g0.counter .ld ≤ 254 ∧ g0.counter .st ≤ 254 ∧ (gFull .tl).counter .tl ≤ 254 :=
  ⟨fun _ _ => readyM_idle _ rfl rfl rfl rfl _ _ _ _ _ rfl (by decide), fun _ _ => readyM_idle _ rfl rfl rfl rfl _ _ _ _ _ rfl (by decide),
    fun _ _ => readyM_idle _ rfl rfl rfl rfl _ _ _ _ _ rfl (by decide), fun _ _ => readyM_idle _ rfl rfl rfl rfl _ _ _ _ _ rfl (by decide),
    fun _ _ => readyM_idle _ rfl rfl rfl rfl _ _ _ _ _ rfl (by decide), by decide, by decide, by decide +kernel⟩

/-- A load and a store outstanding. -/
def gOut : Group :=
  { g0 with ops := [{ id := 1, ctr := .ld, kind := .load 4 false }, { id := 2, ctr := .st, kind := .store }] }

theorem witness_FenceAndCacheUnits :
    (Ready (one g0) 16 g0 ∧ Clear (one g0) g0 ∧ openOps g0 = [] ∧ (openOps g0).all (fun o => !o.isAgg) = true ∧ g0.dirtyMask = 0 ∧ g0.agg = false ∧ g0.peerP = false ∧ g0.mxq = [] ∧
      (∀ w, Of (one g0) g0 w → g0.cpn ≤ w.ctl) ∧ g0.counter .ld ≤ 0 ∧ g0.inH = false ∧ dstMeet [g0.sDst 0] g0.pending = false ∧
      g0.counter (ctrOf 0) ≤ (g0.readS 0).toNat) ∧
    (Ready (one gOut) 16 gOut ∧ Clear (one gOut) gOut ∧ (openOps gOut).any Op.returns = true ∧ (openOps gOut).any Op.isAcc = true ∧
      ¬ (gOut.counter .ld ≤ 0) ∧ dstMeet [gOut.sDst 0] gOut.pending = false ∧ (gOut.readS 0).toNat < gOut.counter (ctrOf 0)) ∧
    (∀ rd wr, ReadyS (mapped g0) 16 g0 rd wr) ∧ (mapped g0).daOf g0 0 (g0.readS 5) = some 0x50005 ∧
    (mapped g0).daOf g0 1 (g0.readS 5) = some 0x50005 ∧ (mapped g0).lineOf g0.die 0xA00 ≠ .M ∧ (mapped g0).lineFree 0xA00 = true ∧
    (mapped g0).linesReady g0 [0x50005 / 128] = true ∧
    (let s : State := { mapped g0 with dies := [(0, { lines := [(0xA00, { st := .M })] })] }
     (∀ rd wr, ReadyS s 16 g0 rd wr) ∧ s.daOf g0 0 (g0.readS 5) = some 0x50005 ∧ s.lineOf g0.die 0xA00 = .M ∧ s.lineFree 0xA00 = true) ∧
    ((∀ rd wr, ReadyS (one g0) 16 g0 rd wr) ∧ (one g0).daOf g0 0 (g0.readS 5) = none ∧ (5 : SReg) ≠ 0) :=
  ⟨⟨ready0, clear0, rfl, rfl, rfl, rfl, rfl, rfl, fun w h => by cases h; decide, by decide⟩, ⟨ready_one _ rfl rfl, ⟨rfl, rfl⟩, by decide⟩,
    fun _ _ => ⟨⟨rfl, rfl, rfl, rfl⟩, quiet0 _ _⟩, by decide +kernel, by decide +kernel, by decide, by decide,
    by decide +kernel, ⟨fun _ _ => ⟨⟨rfl, rfl, rfl, rfl⟩, quiet0 _ _⟩, by decide +kernel, by decide, by decide⟩, readyS0, by decide +kernel, by decide⟩

/-- Registers for the synchronization units: s20 and s21 barrier counts 1 and 255, s22 = 2^47 − 2, s23 names device timeline 1. -/
def gS : Group := { g0 with s := (((g0.s.set 20 0x101).set 21 0xFFFF).set 22 0x7FFFFFFFFFFE).set 23 0x100000003 }

/-- A workgroup that holds barrier 5 with two references and one arrival to come, barrier 6 with one reference, and semaphore 9. -/
def wS : Workgroup :=
  { w0 with bars := [{ reg := 5, expa := 1, pend := 1, refs := 2, tx := 1, phase := 1 }, { reg := 6, expa := 1, pend := 1, refs := 1 }],
            semas := [(9, 4)], tok := [1, 0, 0, 0, 0, 0, 0, 0], tokUsed := 1 }
def sS : State := { one gS with wgs := [(1, wS)], ctxs := [(0, { en := true, tlcfg := 0x20000 })] }

theorem readySync : Ready sS 16 gS := ⟨rfl, rfl, rfl, rfl⟩

/-- The same with 64 barriers held. -/
def sS64 : State := { sS with wgs := [(1, { wS with bars := (List.range 64).map fun i => { reg := i } })] }

theorem witness_SynchronizationUnits :
    (Ready sS 16 gS ∧ Clear sS gS ∧ gS.inH = false ∧ dstMeet [gS.sDst 0, gS.sDst 1, gS.sDst 9] gS.pending = false ∧
      dstMeet [gS.sDst 9] gS.kept = false ∧ sS.selOk gS (gS.readS 0) = true ∧ sS.selOk gS (gS.readS 1) = true ∧
      sS.selOk gS (gS.readS 23) = true ∧ sS.waitMet { gS with park := 4, parkArg := [gS.readS 0, gS.readS 0] } = true ∧
      sS.waitMet { gS with park := 4, parkArg := [gS.readS 0, gS.readS 1] } = false ∧
      sS.waitMet { gS with park := 5, parkArg := [1] } = false ∧ sS.waitMet { gS with park := 5, parkArg := [0] } = true) ∧
    (Released gS ∧ gS.mxq = [] ∧ sS.copyReads gS = false) ∧
    ((∀ rd wr, Quiet gS rd wr) ∧ Of sS gS wS ∧ ((gS.readS 20).toNat < 2 ^ 16 ∧ (gS.readS 20).toNat % 256 ≠ 0 ∧ (gS.readS 20).toNat / 256 ≠ 0) ∧
      ((gS.readS 21).toNat < 2 ^ 16 ∧ (gS.readS 21).toNat % 256 ≠ 0 ∧ (gS.readS 21).toNat / 256 ≠ 0) ∧ wS.bars.length < 64 ∧ sS.barsOn gS.core < 256 ∧
      (Ready sS64 16 gS ∧ ∃ w, Of sS64 gS w ∧ 64 ≤ w.bars.length)) ∧
    ((gS.readS 5).toNat < 64 ∧ (∃ t, wS.bar? (gS.readS 5).toNat = some t ∧ 2 ≤ t.refs ∧ t.pend ≠ 0 ∧
        -(2 ^ 47 : Int) ≤ t.tx + (gS.readS 22).toInt ∧ t.tx + (gS.readS 22).toInt = 2 ^ 47 - 1) ∧
      (∃ t, wS.bar? (gS.readS 6).toNat = some t ∧ t.refs ≤ 1) ∧ sS.waitMet { gS with park := 2, parkArg := [gS.readS 5, gS.readS 0] } = true ∧
      sS.waitMet { gS with park := 2, parkArg := [gS.readS 5, gS.readS 1] } = false) ∧
    ((∀ rd wr, ReadyS sS 16 gS rd wr) ∧ (∃ t, sS.nameSema gS.wg ((gS.readS 9).toNat % 64) = some t ∧
        t.waitMet { gS with park := 6, parkArg := [gS.readS 9, gS.readS 4] } = true ∧
        t.waitMet { gS with park := 6, parkArg := [gS.readS 9, gS.readS 5] } = false) ∧
      ∃ t, sS.nameSema gS.wg ((gS.readS 63).toNat % 64) = some t) :=
  ⟨⟨readySync, ⟨rfl, rfl⟩, by decide +kernel⟩, ⟨fun o h => (nomatch h), rfl, rfl⟩,
    ⟨quiet_idle _ rfl rfl, rfl, by decide, by decide, by decide, by decide, ⟨rfl, rfl, rfl, rfl⟩, _, rfl, by decide⟩,
    ⟨by decide, ⟨_, rfl, by decide⟩, ⟨_, rfl, by decide⟩, by decide, by decide⟩,
    fun _ _ => ⟨readySync, quiet_idle _ rfl rfl _ _⟩, ⟨_, rfl, by decide, by decide⟩, _, rfl⟩

/-- A descriptor in s8 to s15: two rows of 16 bytes from WGM offset 0 to WGM offset 1024, semaphore 5 rises by 3. -/
def gD : Group :=
  { g0 with s := g0.s.take 8 ++ [0x10000000000000, 0x10000000000400, 0x200000010, 0xC5800, 16, 16, 0, 0, 0, 0, 1, 0, 0x1000400] ++ g0.s.drop 21,
            idx := 0 }

/-- Fifteen copies that have started and one that has not. -/
def w15 : Workgroup := { w0 with copies := { num := 16 } :: (List.range 14).map fun i => { num := i + 2, started := true } }

def slice0 : CopySlice := { grp := gD.idx, fn := 0, tok := 7, pc := gD.pc, opId := 1, desc := svals gD 8 8 }

theorem witness_CopyUnits : (∀ w, w.state = .resident → ∀ rd wr, ReadyS { one gD with wgs := [(1, w)] } 16 gD rd wr) ∧ gD.inH = false ∧
    State.reset.nextId = 1 ∧ copyOk slice0 = true ∧ slice0.sen = true ∧
    (let s : State := { one gD with wgs := [(1, w15)] }
     Of s gD w15 ∧ (w15.copies.filter fun c => !c.done).length = 15 ∧
       (w15.copies.filter fun c => c.num ≠ gD.cpn + 1 && !c.started && !s.supplied gD.wg c).length = 1 ∧
       ∃ t v, (if slice0.sen then s.nameSema gD.wg (slice0.fld 3 12 6) else some s) = some t ∧ Of t gD v) ∧
    (let w : Workgroup := { w0 with copies := [{ num := 1 }] }
     Of ({ one gD with wgs := [(1, w)] } : State) gD w ∧ (w.copies.any fun c => c.num = gD.cpn + 1) = true) :=
  ⟨fun w h rd wr => ⟨⟨rfl, rfl, rfl, by simp only [State.residentGrp]; exact decide_eq_true h⟩, quiet_idle _ rfl rfl rd wr⟩, rfl, rfl, by decide, by decide,
    ⟨rfl, by decide, by decide, _, _, rfl, rfl⟩, rfl, by decide⟩

/-- Matrix units of each kind: one of mma, a loop of one step, a zeroed rectangle of one row, a release. -/
def gM : Group := { gD with s := gD.s.set 3 0x1C03 }

theorem witness_MatrixUnits : (∀ rd wr, ReadyS (one gM) 16 gM rd wr) ∧ gM.inH = false ∧
    (∀ e ∈ [(0, svals gM 16 2), (1, svals gM 16 4), (2, svals gM 20 1), (3, svals gM 0 1)],
      let m : MxUnit := { num := gM.nis + 1, op := e.1, desc := e.2, pc := gM.pc, arg := gM.mxc }
      m.ok = true ∧ ∃ t, (one gM).nameSemas gM.wg m.sems = some t) ∧
    gM.mxq.length < 8 ∧ gM.holdsMatrix = false ∧ (gFull .mx).counter .mx ≤ 254 ∧ mxcOk (gM.readS 0).toNat = true ∧
    (∃ w, Of (one gM) gM w ∧ (gM.readS 3).toNat < 2 ^ 13 ∧ (gM.readS 3).toNat % 1024 + 1 = w.tsrows) ∧ (gM.readS 3).toNat / 1024 = 7 ∧
    gM.counter .tl ≤ 254 ∧ (gM.mxq.any fun m => m.touches 3 7) = false ∧ (∀ rd wr, ReadyM (one gM) 16 gM Pfx.none [] [2] rd wr) ∧
    ∀ rd wr, ReadyM (one gM) 16 gM Pfx.none [1] [] rd wr := by
  refine ⟨fun _ _ => ⟨ready_one _ rfl rfl, quiet_idle _ rfl rfl _ _⟩, rfl, ?_, by decide, by decide, by decide +kernel, by decide,
    ⟨_, rfl, by decide⟩, by decide, by decide, by decide, fun _ _ => readyM_idle _ rfl rfl rfl rfl _ _ _ _ _ rfl (by decide),
    fun _ _ => readyM_idle _ rfl rfl rfl rfl _ _ _ _ _ rfl (by decide)⟩
  intro e he
  simp only [List.mem_cons, List.not_mem_nil, or_false] at he
  rcases he with rfl | rfl | rfl | rfl
  · exact ⟨by decide, _, rfl⟩
  · exact ⟨by decide, _, rfl⟩
  · exact ⟨by decide, _, rfl⟩
  · exact ⟨by decide, _, rfl⟩

/-- A core whose bins are all closed takes no deposit. -/
def sClosed : State :=
  { one g0 with cores := [(0, { bins := (List.range 32).map fun i => (i, { ctx := 0, grid := 0, entry := 0, key := 0, closed := true }) })] }

theorem witness_SpawnAndManagementUnits :
    ((∀ rd wr, ReadyM (one g0) 16 g0 Pfx.none (1 :: regs 2 4) [] rd wr) ∧ g0.inH = false ∧ Of (one g0) g0 w0 ∧ (g0.readS 4).toNat % 4 = 0 ∧
      (g0.readS 4).toNat < 2 ^ 52 ∧ Released g0 ∧ (openOps g0).all (fun o => !o.isAgg) = true ∧ g0.dirtyMask = 0) ∧
    (let l (s : State) : Option State := (s.setGrp 16 (pastM g0 Pfx.none (1 :: regs 2 4))).deposits g0.core ((onLanes g0.exm).map fun i =>
       (({ ctx := g0.ctx, grid := w0.grid, entry := g0.readS 4, key := g0.src 1 i } : Bin), (regs 2 4).map fun f => g0.src f i))
     (l (one g0)).isSome = true ∧ (l sClosed).isNone = true) ∧ (∀ rd wr, ReadyM sClosed 16 g0 Pfx.none (1 :: regs 2 4) [] rd wr) ∧
    ((∀ rd wr, ReadyS (one g0) 16 g0 rd wr) ∧ (g0.readS 0).toNat % 64 = 0 ∧ (g0.readS 0).toNat < 2 ^ 52 ∧ g0.counter .ld ≤ 254) ∧
    ((∀ rd wr, ReadyS (sys g0) 16 g0 rd wr) ∧ (sys g0).sysCtx g0.ctx = true ∧ (g0.readS 8).toNat % 8 = 0 ∧ (g0.readS 8).toNat < 2 ^ 62 ∧
      g0.counter .st ≤ 254) :=
  ⟨⟨fun _ _ => readyM_idle _ rfl rfl rfl rfl _ _ _ _ _ rfl (by decide), rfl, rfl, by decide, by decide, fun o h => (nomatch h), rfl, rfl⟩,
    ⟨by decide +kernel, by decide +kernel⟩, fun _ _ => ⟨⟨rfl, rfl, rfl, rfl⟩, quiet0 _ _, rfl, by decide, rfl⟩,
    ⟨readyS0, by decide, by decide, by decide⟩, fun _ _ => ⟨ready_sys _ rfl rfl, quiet0 _ _⟩, rfl, by decide, by decide, by decide⟩

/-- A send queue with room for one message a lane, and a full one. -/
def sSend (n : Nat) : State :=
  { one g0 with cores := [(0, { sendq := List.replicate n { grp := 16, op := 1, lane := 0, msg := { src := 0, dst := 0, ctx := 0, rq := 0, words := [] } } })] }

/-- A broadcast in communicator 0 of one member. -/
def gC : Group := { g0 with s := g0.s.take 8 ++ [0x1000, 0x2000, 4, 0x4 + 0x20 * 2, 0, 0, 0, 0] ++ g0.s.drop 16 }
def sC : State := { one gC with ctxs := [(0, { en := true, ccomm := [(0, 3)] })] }

theorem witness_FabricUnits :
    ((∀ rd wr, ReadyM (sSend 192) 16 g0 Pfx.none (regs 1 8) [] rd wr) ∧ g0.inH = false ∧ g0.counter .st ≤ 254 ∧
      onLanes (activeMask Pfx.none g0) ≠ [] ∧
      ((sSend 192).core g0.core).sendq.length + (onLanes (activeMask Pfx.none g0)).length = 256) ∧
    ((∀ rd wr, ReadyM { sSend 256 with groups := [(16, gNone)] } 16 gNone Pfx.none (regs 1 8) [] rd wr) ∧
      onLanes (activeMask Pfx.none gNone) = [] ∧ ((sSend 256).core g0.core).sendq.length = 256) ∧
    ((∀ rd wr, ReadyM (one g0) 16 g0 Pfx.none [] (regs 1 8) rd wr) ∧ g0.counter .ld ≤ 254) ∧
    (∀ rd wr, ReadyM (one g0) 16 g0 Pfx.none [1] [] rd wr) ∧
    ((∀ rd wr, ReadyS sC 16 gC rd wr) ∧ gC.inH = false ∧ collLegal (svals gC 8 8) = true ∧
      ¬ bitsOf (regGet (svals gC 8 8) 3).toNat 0 3 ≤ 1 ∧ (mapGet (sC.ctx 0).ccomm 0 0).toNat % 2 = 1 ∧
      bitsOf (regGet (svals gC 8 8) 3).toNat 15 12 < (sC.ctx 0).nrank 0) :=
  ⟨⟨fun _ _ => ⟨⟨rfl, rfl, rfl, rfl⟩, quiet0 _ _, rfl, by decide, rfl⟩, rfl, by decide, by decide, by decide +kernel⟩,
    ⟨fun _ _ => ⟨⟨rfl, rfl, rfl, rfl⟩, quiet_idle _ rfl rfl _ _, rfl, by decide, rfl⟩, by decide, by decide +kernel⟩,
    ⟨fun _ _ => readyM_idle _ rfl rfl rfl rfl _ _ _ _ _ rfl (by decide), by decide⟩,
    fun _ _ => readyM_idle _ rfl rfl rfl rfl _ _ _ _ _ rfl (by decide),
    fun _ _ => ⟨⟨rfl, rfl, rfl, rfl⟩, quiet_idle _ rfl rfl _ _⟩, by decide⟩

/-! ### Hypotheses met: events of the sequencer, traps, coherence, atomics, loads and stores -/

def gSleep : Group := { g0 with park := 7, parkArg := [10] }
def gone (g : Group) (st : WgState) : State := { one g with wgs := [(1, { w0 with state := st })] }
/-- A queue entry to fill; a value to write back. -/
def gFill : Group := { g0 with queues := { depth := 1, ents := [{ lanes := zeroLanes, filled := false }] } :: List.replicate 15 {} }
def gVal : Group := { g0 with ops := [{ id := 1, dst := [.s 9], result := 7 }] }
/-- The private object is the mapped object; the spill engine moves a window position, or an entry beyond the object. -/
def spilling (dir : Bool) (stk : Nat) (mv : List (Nat × Nat)) : State :=
  let g : Group := { g0 with spc := { act := true, dir := dir, stk := stk } }
  { mapped g with ctxs := [(0, { en := true, orb := 0x4000000010000, otdr := 0x20000, privobj := 1, moving := mv })] }

/-- A group that has waited 64 cycles for its class, and 16 as first of its partition. -/
def gOld : Group := { g0 with firstN := 64, streak := 16 }

theorem witness_SequencerAndSpillEvents :
    ((one g0).core 0).hold = 0 ∧
    ((one gOld).grp? 16 = some gOld ∧ (one gOld).mayIssue gOld = true ∧ ((one gOld).core gOld.core).clsw ≤ gOld.firstN ∧ 16 ≤ gOld.streak) ∧
    ((one gSleep).grp? 16 = some gSleep ∧ gSleep.park = 7 ∧ gSleep.woken = false ∧ gSleep.halted = false ∧ (one gSleep).residentGrp gSleep = true ∧
      (gone gSleep .swapped).grp? 16 = some gSleep ∧ (gone gSleep .swapped).residentGrp gSleep = false) ∧
    ((∃ h, gFill.fillQ = some h) ∧ gVal.fillQ = none ∧
      (gVal.ops.find? fun o => o.kind = .value && !o.done) = some { id := 1, dst := [.s 9], result := 7 }) ∧
    ∀ p ∈ [(false, 0, []), (true, 0, []), (false, 1, []), (false, 0, [(1, 0)])], let s := spilling p.1 p.2.1 p.2.2
      ∃ g, s.grp? 16 = some g ∧ g.spc.act = true ∧ g.inH = false ∧ g.bankWait = none ∧ g.halted = false ∧ s.residentGrp g = true ∧
        s.spillHeld g = false ∧ (g.spc.stk = 0 → g.pending.contains (.pos g.spc.pos) = false) ∧ g.spc.dir = p.1 ∧ CanEnter s g ∧
        (match s.spillPlaces g (!g.spc.dir) g.spc.pos with
        | .ok ps => p.2.1 = 0 && p.2.2.isEmpty && (ps.all fun p => match p with | .da a => s.storeRoom (a / 128) | _ => true) &&
            s.waysFree g.die (linesIn ps)
        | .fault .. => p.2.1 = 1 | .hold .. => !p.2.2.isEmpty | .miss .. => false) = true := by
  refine ⟨rfl, ⟨rfl, rfl, by decide, by decide⟩, ⟨rfl, rfl, rfl, rfl, rfl, rfl, rfl⟩, ⟨⟨_, rfl⟩, rfl, rfl⟩, ?_⟩
  intro p hp
  simp only [List.mem_cons, List.not_mem_nil, or_false] at hp
  rcases hp with rfl | rfl | rfl | rfl <;>
    exact ⟨_, rfl, rfl, rfl, rfl, rfl, rfl, rfl, fun _ => rfl, rfl, ⟨by decide, rfl, rfl, rfl, rfl, rfl⟩, by decide +kernel⟩

/-- The mapped object as code. -/
def coded (pc : DWord) (mv : List (Nat × Nat)) : State :=
  let g : Group := { g0 with pc := pc }
  { mapped g with mem := memWriteBytes mapMem 0x10040 (leBytes 8 (3 + 5 * 2 ^ 2 + 12 * 2 ^ 19)),
                  ctxs := [(0, { en := true, orb := 0x4000000010000, otdr := 0x20000, moving := mv })] }

def gWait : Group := { g0 with bankWait := some { cause := 1 } }
/-- A group with a recorded fault of a register that nothing below holds back. -/
def fLone : PFault := { id := 1, targets := [.pos 1], trap := { cause := 5 } }
def gLone : Group := { g0 with faults := [fLone] }
/-- A context that has faulted, its group running or halted. -/
def faulted (g : Group) : State := { one g with ctxs := [(0, { en := true, stop := .faulted 0 { cause := 5 } 0 0 false })] }

theorem witness_TrapEvents :
    ((one gWait).grp? 16 = some gWait ∧ gWait.halted = false ∧ (one gWait).residentGrp gWait = true ∧
      (one gWait).bankHolder gWait.core (partOfSlot gWait.slot) = none ∧
      ((one gWait).ctx gWait.ctx).stop = .running ∧ ((one gWait).groups.map Prod.fst).Pairwise (· < ·) ∧
      ∀ kv ∈ (one gWait).groups, kv.1 ≠ 16 → kv.2.core = gWait.core → partOfSlot kv.2.slot = partOfSlot gWait.slot → kv.2.bankWait.isSome = true →
        kv.2.halted = false → gWait.bankOrder < kv.2.bankOrder ∨ (gWait.bankOrder = kv.2.bankOrder ∧ gWait.slot < kv.2.slot)) ∧
    ((one gh).grp? 16 = some gh ∧ gh.inH = true ∧ gh.halted = false) ∧
    ((faulted g0).ctx 0).stop = .faulted 0 { cause := 5 } 0 0 false ∧ (faulted g0).ctxHalted 0 = false ∧
    (faulted { g0 with halted := true }).ctxHalted 0 = true ∧
    ((one gLone).cur = .grp 16 ∧ (one gLone).grp? 16 = some gLone ∧ (one gLone).mayIssue gLone = true ∧ gLone.takable = [fLone] ∧
      gLone.lowerDone fLone = true ∧ (one gLone).dieWaits gLone = false ∧ faultWord (baseWord (one gLone) gLone 0x08000000) = true ∧
      faultWord (baseWord (one gLone) gLone 0x18000000) = false) ∧ (faultWord (baseWord (one g0) g0 0x08000000) = true ∧ g0.takable = []) ∧
    (∀ p ∈ [((0x8000000 : DWord), ([] : List (Nat × Nat))), (0x1000, []), (0, [(1, 0)])], let s := coded p.1 p.2
      ∃ g, s.cur = .grp 16 ∧ s.grp? 16 = some g ∧ s.mayIssue g = true ∧ g.takable = [] ∧ CanEnter s g ∧
        (match s.fetchGrp g with
        | .fault c _ _ => p.1 = 0x8000000 && c < 256 && c ≠ 3 | .miss .. => p.1 = 0x1000 | .hold .. => !p.2.isEmpty | .ok _ => false) = true) := by
  refine ⟨⟨rfl, rfl, rfl, rfl, rfl, by decide, by decide⟩, ⟨rfl, rfl, rfl⟩, rfl, by decide, by decide,
    ⟨rfl, rfl, rfl, rfl, by decide, rfl, by decide +kernel, by decide +kernel⟩, ⟨by decide +kernel, rfl⟩, ?_⟩
  intro p hp
  simp only [List.mem_cons, List.not_mem_nil, or_false] at hp
  rcases hp with rfl | rfl | rfl <;> exact ⟨_, rfl, rfl, rfl, rfl, ⟨by decide, rfl, rfl, rfl, rfl, rfl⟩, by decide +kernel⟩

/-- Line 640 with its die states, its directory state, and a request in progress. -/
def line (l : List (Nat × LineSt)) (d : DirSt) (q : Option LineReq) : State :=
  { State.reset with dies := l.map fun p => (p.1, { lines := [(640, { st := p.2 })] }),
                     home := { dir := if d = .U then [] else [(640, d)], busy := match q with | some q => [(640, q)] | none => [] } }
def snoop (k : Nat) : Option LineReq := some { kind := 1, die := 0, snoops := [{ die := 1, kind := k, sent := 0 }] }

/-- A write-back of line 640 by die 0 under way. -/
def putting (m : Bool) : State :=
  let s := line [(0, .WP)] (.X 0) none
  { s with home := { s.home with puts := [{ die := 0, line := 640, dirty := m }] } }

theorem witness_CoherenceAndReplay :
    (∀ s ∈ [line [] .U none, line [] (.S 2) none, line [(1, .M)] (.X 1) none, line [(0, .S)] (.S 3) none],
      (s.die 0).dead = false ∧ s.lineFree 640 = true ∧ s.isMem (640 * 128) = true ∧ s.home.dir.length + s.home.busy.length < 16 ∧
        (s.die 0).lines.length < 16 ∧ (s.lineOf 0 640 = .I ∨ s.lineOf 0 640 = .S) ∧
        (s.dirOf 640 = .U ∨ s.dirOf 640 = .S 2 ∨ s.dirOf 640 = .S 3 ∨ s.dirOf 640 = .X 1)) ∧
    (∀ p ∈ [(LineSt.M, true), (.E, false)], let s := line [(0, p.1)] (.X 0) none
      s.putOf 0 640 p.2 = none ∧ s.lineOf 0 640 = p.1 ∧ s.dirOf 640 = .X 0 ∧ s.putRoom 0 640 = true) ∧
    (∀ m, (∃ p, (putting m).putOf 0 640 m = some p) ∧ (putting m).onWay (.put 0 640) = false ∧
      (putting m).filterRoom ((putting m).sliceOf (640 * 128)) = true) ∧
    (let s := line [(0, .WP)] .U none
     s.lineOf 0 640 = .WP ∧ (s.home.puts.any fun p => p.die = 0 && p.line = 640) = false ∧ s.onWay (.putAck 0 640) = false) ∧
    (∀ p ∈ [(0, LineSt.S), (0, .SWT), (0, .SM), (1, .E), (1, .M), (1, .WP), (2, .E), (2, .M), (2, .WP)], let s := line [(1, p.2)] (.S 2) (snoop p.1)
      s.onWay (.snoop 1 640) = false ∧ s.openSnoop 1 640 p.1 = true ∧ s.lineOf 1 640 = p.2) ∧
    (line [] .U (snoop 0)).onWay (.answer 1 640) = false ∧
    (∃ q n, mapGet? (line [] .U (snoop 0)).home.busy 640 = some q ∧ (q.snoops.find? fun n => n.die = 1 && !n.answered) = some n) ∧
    (∃ q st, mapGet? (line [] .U (some { kind := 0, die := 0, grant := some .E })).home.busy 640 = some q ∧ q.grant = some st ∧ q.die = 0 ∧
      (line [] .U (some { kind := 0, die := 0, grant := some .E })).onWay (.grant 0 640) = false) ∧
    (let r : ReqId := { src := 0, req := 0, seq := 1 }; let d : List Byte := [1]
     d ≠ [] ∧ State.reset.isMem (0x1DFFFFFFFFF + d.length - 1) = true ∧ State.reset.filterGet (State.reset.sliceOf 0x1DFFFFFFFFF) r = none ∧
       ((spanLines 0x1DFFFFFFFFF d.length).all fun l => State.reset.writeRoom l) = true ∧
       ((State.reset.filterAdd 0 r 5).filterGet (State.reset.sliceOf 0) r = some 5)) :=
  ⟨by decide +kernel, by decide +kernel, fun m => ⟨by cases m <;> exact ⟨_, rfl⟩, by cases m <;> decide +kernel, by cases m <;> decide +kernel⟩,
    by decide +kernel, by decide +kernel, by decide +kernel, ⟨_, _, rfl, rfl⟩, ⟨_, _, rfl, rfl, rfl, by decide +kernel⟩, by decide +kernel⟩

/-- An atomic whose lane 0 lies at 0x50000; a reduction; two lanes of one word. -/
def oAt (kind : OpKind) : Op :=
  { id := 1, unit := 1, maj := 18, ctr := .ld, kind := kind, wr := true, dst := [.pos 2],
    accs := [{ lane := 0, va := 0, places := (List.range 4).map fun i => .da (0x50000 + i), data := leBytes 4 7 ++ leBytes 4 9 },
             { lane := 1, va := 0, places := (List.range 4).map fun i => .da (0x50000 + i), data := leBytes 4 8 ++ leBytes 4 9 }] }
def gAt (kind : OpKind) : Group := { g0 with ops := [oAt kind] }
def yW : YPre := { e := 0x11, imm := 5 }
def sMon (dl : Nat) : State :=
  { mapped { g0 with park := 3, parkArg := [0, 0, 1, 0, 9, 5] } with
      home := { mons := [{ slice := 0, ctx := 0, grp := 16, da := 0x50000, cmp := 0, val := 0, deadline := dl, order := 1 }],
                msgs := [{ grp := 16, status := 1 }] } }

theorem witness_MonitorsAndHomeAtomics :
    (let arg : List DWord := [(g0.readS 5) &&& 0xFFFFFFFF, 1, 1, BitVec.ofNat 64 5000, 9, g0.readS 4]
     let o := mwaitOp g0 (mapped g0).nextId (g0.readS 4) arg
     let h : Group := { (pastM g0 { x := none, y := some yW } []).addOp o with park := 3, parkArg := arg, parkTns := 0 }
     (g0.readS 4).toNat < 0xF000000000000 ∧ g0.inH = false ∧
       (match ((named (mapped g0)).setGrp 16 h).decideOp h o with
        | .ok (p :: _) => (match p.places with | .da _ :: _ => true | _ => false)
        | _ => false) = true ∧
       (((named (mapped g0)).setGrp 16 h).wordVia (((named (mapped g0)).setGrp 16 h).xl h) (regGet arg 5).toNat).1 = false) ∧
    (∀ rd wr, ReadyM (mapped g0) 16 g0 { x := none, y := some yW } [] [] rd wr) ∧
    (∀ kind ∈ [OpKind.atom 0, .red 0, .red 12], let g := gAt kind; let s := mapped g; let o := oAt kind
      s.grp? 16 = some g ∧ g.op? o.id = some o ∧
        (∀ a ∈ o.accs.take 1, (o.accs.find? fun b => b.lane = a.lane) = some a ∧ a.places.head? = some (.da 0x50000) ∧ a.settled = false ∧
          (o.accs.any fun b => b.lane < a.lane && !b.settled && b.places.head? = some (.da 0x50000)) = false) ∧
        g.mayPerform o = true ∧ s.writeRoom (0x50000 / 128) = true ∧ s.linesRouted g.die [0x50000 / 128] = true ∧ g.mustFlush o = false) ∧
    (∃ m, ((sMon 9).home.mons.find? fun m => m.grp = 16 && m.deadline ≠ 0) = some m) ∧
    (∃ m g, 16 < 2 ^ 60 ∧ ((sMon 0).home.msgs.find? fun m => m.grp = 16) = some m ∧ (sMon 0).grp? 16 = some g ∧ g.park = 3 ∧
      (sMon 0).residentGrp g = true ∧ ((sMon 0).ctx g.ctx).stopped = false) :=
  ⟨⟨by decide, rfl, by decide +kernel, by decide +kernel⟩, fun _ _ => ⟨⟨rfl, rfl, rfl, rfl⟩, quiet0 _ _, rfl, by decide, rfl⟩, by decide +kernel, ⟨_, rfl⟩,
    _, _, by decide, rfl, rfl, rfl, rfl, rfl⟩

/-- A load through the L1 and one past it; a store of two lanes to one word. -/
def oLd (l1 : Nat) : Op :=
  { id := 1, unit := 1, maj := 16, fn := 4, ctr := .ld, kind := .load 4 false, acq := true, scope := 1, l1 := l1, dst := [.pos 2],
    accs := [{ lane := 0, va := 0, places := (List.range 4).map fun i => .da (0x50000 + i) }] }
def oSt : Op := { oAt .store with maj := 17, ctr := .st, dst := [] }

theorem performs_mapped (o : Op) (g : Group) (hg : g.ops = [o]) (h0 : g.wg = 1) (hp : g.park = 0) (hd : g.dirtyMask = 0)
    (ho : o.performed = false ∧ o.wait = .flight) (hh : ∀ a ∈ o.accs, ∀ p ∈ a.places, (∃ d, p = .da d) ∨ (∃ w, p = .wgm w) ∨ p = .gone)
    (hb : ∀ a ∈ o.accs, a.bad = none ∧ a.lfault = none) (hr : (mapped g).linesReady g o.lines = true) : Performs (mapped g) 16 g o := by
  refine ⟨rfl, ?_, ?_, ?_, ?_, hh, hb, hr, ?_⟩
  · simp [Group.op?, hg]
  · simp only [State.live, h0]; rfl
  · simp [Group.mayPerform, Group.before, hg, ho.1, ho.2]
  · simp [Group.mustFlush, hd]
  · simp [Group.parkedToTake, hp]

theorem canonical_mapped (g : Group) : Canonical (mapped g) :=
  ⟨show memWf mapMem = true by decide +kernel, List.Pairwise.nil⟩

theorem witness_LoadReturns : (∀ l1 ∈ [0, 1], Performs (mapped { g0 with ops := [oLd l1] }) 16 { g0 with ops := [oLd l1] } (oLd l1) ∧
      (oLd l1).kind = .load 4 false ∧ Canonical (mapped { g0 with ops := [oLd l1] })) ∧ (oLd 1).l1 = 1 ∧
    ∃ w, (mapped g0).wg? g0.wg = some w :=
  ⟨fun l1 h1 => ⟨performs_mapped _ _ rfl rfl rfl rfl ⟨rfl, rfl⟩ (by
        intro a ha p hp
        simp only [oLd, List.mem_singleton] at ha
        subst ha
        obtain ⟨i, -, rfl⟩ := List.mem_map.1 hp
        exact .inl ⟨_, rfl⟩) (by simp [oLd])
        (by simp only [List.mem_cons, List.not_mem_nil, or_false] at h1; rcases h1 with rfl | rfl <;> decide +kernel),
      rfl, canonical_mapped _⟩, rfl, _, rfl⟩

theorem witness_StoresPerformed : Performs (mapped { g0 with ops := [oSt] }) 16 { g0 with ops := [oSt] } oSt ∧ oSt.kind = .store ∧
    (∀ l ∈ oSt.lines, (mapped { g0 with ops := [oSt] }).storeRoom l = true) ∧ Canonical (mapped { g0 with ops := [oSt] }) ∧ stored oSt (.da 0x50000) = some 8 ∧ stored oSt (.da 0x50004) = none :=
  ⟨performs_mapped _ _ rfl rfl rfl rfl ⟨rfl, rfl⟩ (by
      intro a ha p hp
      simp only [oSt, oAt, List.mem_cons, List.not_mem_nil, or_false] at ha
      rcases ha with rfl | rfl <;> (obtain ⟨i, -, rfl⟩ := List.mem_map.1 hp; exact .inl ⟨_, rfl⟩))
    (by simp [oSt, oAt]) (by decide +kernel), rfl, by decide +kernel, canonical_mapped _, by decide +kernel, by decide +kernel⟩

/-- A parked load whose service has ended, on the resident sub-tile and beyond the object; a barv arrival. -/
def oPark (va : DWord) : Op :=
  { id := 1, unit := 1, maj := 16, fn := 4, ctr := .ld, kind := .load 4 false, align := 4, need := 1, dst := [.pos 2], wait := .parked 1 0 0 0, again := 1,
    accs := [{ lane := 0, va := va }] }
def oBarv : Op := { id := 1, kind := .barvRel, arg := [0] }
def gBarv : Group := { g0 with ops := [oBarv] }
def bBarv : TxBar := { reg := 5, expa := 1, pend := 0, refs := 1 }
def wBarv : Workgroup := { w0 with bars := [bBarv], barvRel := [(16, 1, 0)] }
def sBarv : State := { one gBarv with wgs := [(1, wBarv)] }

theorem witness_RetriesAndReleases :
    (∀ n ∈ [0, 0x2000], let va := BitVec.ofNat 64 n; let o := oPark va; let g : Group := { g0 with ops := [o] }; let s := mapped g
      s.grp? 16 = some g ∧ g.op? o.id = some o ∧ s.live g = true ∧ o.performed = false ∧ o.wait ≠ .flight ∧ o.again = 1 ∧ g.againBefore o = false ∧
        (∀ p ∈ g.ops, p.unit = o.unit → p.id ≤ o.id) ∧
        (match s.decideOp g o with
        | .ok accs => va = 0 && accs.all fun a => a.remote = none | .fault _ => va ≠ 0 | _ => false) = true) ∧
    (∃ n sx, (oPark 0).kind = .load n sx) ∧
    (sBarv.grp? 16 = some gBarv ∧ gBarv.op? oBarv.id = some oBarv ∧ oBarv.kind = .barvRel ∧ (gBarv.before oBarv).any Op.isAcc = false ∧
      sBarv.wg? gBarv.wg = some wBarv ∧ (wBarv.bars.find? fun b => b.aid = (regGet oBarv.arg 0).toNat) = some bBarv) :=
  ⟨by decide +kernel, ⟨4, false, rfl⟩, by decide +kernel⟩

/-- Lanes in the object, beyond it, on the absent sub-tile, misaligned; WGM at its size and beyond; an atomic in a window. -/
def oDec (maj : Nat) (l : List DWord) : Op := { id := 1, maj := maj, align := 4, need := 1, accs := l.zipIdx.map fun p => { lane := p.2, va := p.1 } }

theorem witness_AccessDecision :
    (∀ a ∈ (oDec 16 [0, 0xFFC]).accs, (match (mapped g0).resolve g0 (oDec 16 [0, 0xFFC]) a with | .ok _ => true | _ => false) = true) ∧
    (∀ p ∈ (oDec 16 [0x1000, 0x2000]).accs.zip [true, false],
      ((mapped g0).resolve g0 (oDec 16 [0x1000, 0x2000]) p.1).isFault = !p.2 ∧
        ((mapped g0).resolve g0 (oDec 16 [0x1000, 0x2000]) p.1).remote = false) ∧
    (match (mapped g0).resolve g0 (oDec 16 [0, 0x1000]) { lane := 1, va := 0x1000 } with | .miss .. => true | _ => false) = true ∧
    ((mapped g0).resolve g0 (oDec 16 [0, 0x1000]) { lane := 0, va := 0 }).waits = false ∧
    ((oDec 16 []).multi = none ∧ (oDec 16 []).maj ≠ 21 ∧ 2 % (oDec 16 []).align ≠ 0) ∧
    ((oDec 20 []).maj = 20 ∧ (mapped g0).wg? g0.wg = some w0 ∧ w0.wgmw * 32768 < 32768 + (oDec 20 []).size ∧
      32764 + (oDec 20 []).size = w0.wgmw * 32768 ∧ 32764 % (oDec 20 []).align = 0) ∧
    ((oDec 18 []).maj = 18 ∧ 0xF000000000000 % (oDec 18 []).align = 0 ∧ 0xF1FFFFFFFFFFC % (oDec 18 []).align = 0 ∧
      0xF1FFFFFFFFFFC < 0xF200000000000) := by decide +kernel

/-! ### Hypotheses met: Cumulus, reset and boot, copies, matrix steps, power -/

/-- An entry for the word at 0x50000; a die with a buffer, a packet in flight, a rejection whose log has 2^log records, one
egress slot bound and empty and one with a record. -/
def cuE : CuEntry := { ctx := 0, op := 0, word := 0x50000, val := 1, grps := [0] }
def cuS (log : Nat) : State :=
  { State.reset with dies := [(0, { bufs := [(3, { ents := [cuE] })] })], cuPkts := [{ id := 5, src := 0, bit := 3, ents := [cuE] }],
                     cuRejs := [{ ent := cuE, src := 0, bit := 3, why := 5 }],
                     ctxs := [(0, { en := true, aflb := BitVec.ofNat 64 (0x70000 + log * 2 ^ 48) })],
                     egress := [(0, { state := 1 }), (1, { state := 2, recs := [cuE] }), (2, { state := 2 })] }

theorem witness_CumulusEvents :
    (∃ v, mapGet? ((cuS 0).die 0).bufs 3 = some v ∧ v.ents ≠ []) ∧
    (∃ p : CuPkt, ((cuS 0).cuPkts.find? fun q => q.id = p.id) = some p ∧ p.bit < 32 ∧
      ((cuS 0).cuPkts.find? fun q => q.src = p.src && q.bit = p.bit) = some p ∧ (p.ents.all fun e => (cuS 0).writeRoom (e.word / 128) &&
        (cuS 0).linesRouted p.src [e.word / 128]) = true) ∧
    (∃ r rest, (cuS 0).cuRejs = r :: rest ∧ bitsOf ((cuS 0).ctx r.ent.ctx).aflb.toNat 48 5 < 4) ∧
    (∃ r rest, (cuS 4).cuRejs = r :: rest ∧ 4 ≤ bitsOf ((cuS 4).ctx r.ent.ctx).aflb.toNat 48 5 ∧
      (((cuS 4).ctx r.ent.ctx).aflt - ((cuS 4).ctx r.ent.ctx).aflh).toNat < 2 ^ bitsOf ((cuS 4).ctx r.ent.ctx).aflb.toNat 48 5 ∧
      r.ent.grps ≠ []) ∧
    (((cuS 0).egr 0).state ≠ 0 ∧ (cuS 0).disconnected ((cuS 0).egr 0).peer = false ∧ ((cuS 0).egr 0).state ≠ 2) ∧
    (((cuS 0).egr 2).state = 2 ∧ (cuS 0).disconnected ((cuS 0).egr 2).peer = false ∧ ((cuS 0).egr 2).recs = []) ∧
    ((cuS 0).egr 1).state = 2 ∧ (cuS 0).disconnected ((cuS 0).egr 1).peer = false ∧ ∃ e, ((cuS 0).egr 1).recs = [e] :=
  ⟨⟨_, rfl, by decide⟩, ⟨{ id := 5, src := 0, bit := 3, ents := [cuE] }, rfl, by decide, rfl, by decide⟩, ⟨_, _, rfl, by decide⟩, ⟨_, _, rfl, by decide, by decide, by decide⟩,
    ⟨by decide, by decide, by decide⟩, ⟨by decide, by decide, rfl⟩, by decide, by decide, _, rfl⟩

/-- The device at boot step n; the device whose standby Stratus is alive. -/
def booting (n : Nat) : State := { State.reset with dev := { bootStep := n } }
def standing (lost halt : Bool) : State :=
  { State.reset with str := { standby := true, halted := halt }, dies := [(48, { dead := lost })] }

theorem witness_ResetAndBoot : (∀ n ∈ [1, 2, 3, 4, 5, 6, 8], (booting n).dev.bootReady = false ∧ (booting n).dev.bootCode = 0 ∧
      (booting n).dev.reset = false ∧ (booting n).dev.bootStep = n) ∧
    ((booting 3).str.rollback ≤ 7 % 2 ^ 32 ∧ 1 % 2 ^ 32 < ({ booting 3 with str := { rollback := 2 } } : State).str.rollback) ∧
    ∀ p ∈ [(true, false), (false, true), (false, false)], let s := standing p.1 p.2
      s.str.standby = true ∧ s.str.active = 48 ∧ (s.die 49).dead = false ∧ (s.die 48).dead = p.1 ∧ s.str.halted = p.2 := by decide

/-- A copy with its slice: handed and not started; started; done. -/
def slA (fn : Nat) : CopySlice := { slice0 with fn := fn, handed := true }
def sCp (l : CopySlice) (st : Bool) : State :=
  { mapped gD with wgs := [(1, { w0 with copies := [{ num := 1, slices := [l], started := st }] })] }

/-- A slice of a row of 16 bytes from WGM to VA 0x40 of the object: all or nothing, or version-checked, with its version word at a
VA (odd at 0, even at 8). -/
def slV (sig : DWord) (ver : DWord) (passed : Bool) : CopySlice :=
  { slA 0 with desc := [0x10000000000000, 0x40, 0x100000010, sig, 16, 16, ver, 0], passed := passed }
/-- The same with its version word at the mapped bytes and its box staged. -/
def slW (da : Nat) (ver : Option Nat) : CopySlice :=
  { slV 1 8 false with vps := (List.range 8).map fun i => .da (da + i), stage := List.replicate 16 7, ver := ver,
                       dst := (List.range 16).map fun i => .da (0x50040 + i) }

theorem work_sCp (l : CopySlice) (h : l.done = false) (hh : l.handed = true) :
    (sCp l true).work? 1 1 0 = some ({ w0 with copies := [{ num := 1, slices := [l], started := true }] }, l) := by
  have w : (sCp l true).wg? 1 = some { w0 with copies := [{ num := 1, slices := [l], started := true }] } := rfl
  have g : (sCp l true).wgs = [(1, { w0 with copies := [{ num := 1, slices := [l], started := true }] })] := rfl
  have p : (sCp l true).waits (.slice 1 1 0) = false := rfl
  simp [State.work?, w, g, h, hh, p, w0]

/-- Whether the machine's copy 1 of workgroup 1 has moved its slice, with no remote write open. -/
def moved (l : CopySlice) (s : State) : Bool :=
  match State.runMoves 1 1 0 l.total s with
  | .go t => (match t.work? 1 1 0 with | some (_, x) => x.racks.isEmpty | none => false)
  | _ => false
/-- Whether its version word is read, with a test of its value. -/
def readsVer (l : CopySlice) (s : State) (f : Nat → Bool) : Bool :=
  match s.work? 1 1 0 with
  | some (w, _) => (match s.verPlaces (.slice 1 1 0) w l with
    | .ok ps => (match (s.readVer 1 w 1 0 l ps).1 with | some v => f v | none => false)
    | _ => false)
  | none => false

theorem witness_CopyEvents :
    (let s := sCp (slA 0) false; ∃ w cp, s.wg? 1 = some w ∧ (w.copies.find? fun x => x.num = 1) = some cp ∧ cp.started = false ∧
      s.supplied 1 cp = true ∧ w.state = .resident ∧ ∀ x ∈ w.copies, x.num = 1 → x.slices.all CopySlice.handed = true) ∧
    (let l := slV 2 8 false; let s := sCp l true
      ∃ w, s.work? 1 1 0 = some (w, l) ∧ l.fn = 0 ∧ l.verf = true ∧ l.passed = false ∧ l.ver = none ∧ readsVer l s (fun v => v % 2 = 0) = true) ∧
    (let l := { slV 2 8 false with ver := some 0 }; let s := sCp l true
      ∃ w, s.work? 1 1 0 = some (w, l) ∧ l.fn = 0 ∧ l.verf = true ∧ l.passed = false ∧ l.ver = some 0 ∧
        (match State.runMoves 1 1 0 l.total s with
         | .go t => (match t.work? 1 1 0 with | some (_, x) => readsVer x t (fun v => v = 0) | none => false) | _ => false) = true) ∧
    (∀ fn ∈ [0, 3], let l := slA fn; let s := sCp l true
      ∃ w, s.work? 1 1 0 = some (w, l) ∧ (l.fn ≠ 0 ∨ (l.aon = false ∧ l.verf = false)) ∧ moved l s = true) ∧
    (let l := { slA 0 with desc := (slA 0).desc.set 1 0x8000000 }; let s := sCp { l with desc := l.desc.set 3 0 } true
      ∃ w x, s.work? 1 1 0 = some (w, x) ∧ x.fn = 0 ∧ x.aon = false ∧ x.verf = false ∧
        (match State.runMoves 1 1 0 x.total s with | .fault .. => true | _ => false) = true) ∧
    (let l := slV 2 8 true; ∃ w, (sCp l true).work? 1 1 0 = some (w, l) ∧ l.fn = 0 ∧ l.aon = false ∧ l.verf = true ∧ l.passed = true ∧
      l.racks = []) ∧
    (let l := slV 1 8 false; let s := sCp l true
      ∃ w, s.work? 1 1 0 = some (w, l) ∧ l.fn = 0 ∧ l.aon = true ∧ l.ver = none ∧ l.vps = [] ∧ l.stage = [] ∧
        (match s.srcsFrom (.slice 1 1 0) w l l.total 0, s.destsFrom (.slice 1 1 0) w l l.total 0, s.verPlaces (.slice 1 1 0) w l with
         | .ok _, .ok _, .ok _ => true | _, _, _ => false) = true ∧ needsResp l.dst = false ∧ l.racks = [] ∧ s.stagedOn w.clu + l.total ≤ 2 ^ 20 ∧
        (match State.fillStage 1 1 0 l.total l.total s with | .go _ => true | _ => false) = true) ∧
    (∀ n ∈ [0, 8], let l := slW (0x50000 + n) none; let s := sCp l true
      ∃ w, s.work? 1 1 0 = some (w, l) ∧ l.fn = 0 ∧ l.aon = true ∧ l.vps ≠ [] ∧ needsResp l.vps = false ∧
        (l.vps.all fun p => match p with | .da d => s.writeRoom (d / 128) | _ => true) = true ∧ l.ver = none ∧
        decide (leNat (s.cread w 0 l.vps []) % 2 = 1) = decide (n = 0)) ∧
    (let l := slW 0x50008 (some 0); let s := sCp l true
      ∃ w, s.work? 1 1 0 = some (w, l) ∧ l.fn = 0 ∧ l.aon = true ∧ l.vps ≠ [] ∧ needsResp l.vps = false ∧
        (l.vps.all fun p => match p with | .da d => s.writeRoom (d / 128) | _ => true) = true ∧ l.ver = some 0 ∧ l.racks = [] ∧ l.fin = false) ∧
    (let s := (sCp { slA 0 with done := true } true).pull 1; ∃ w cp, s.wg? 1 = some w ∧ (w.copies.find? fun x => x.num = 1) = some cp ∧
      cp.started = true ∧ cp.done = false ∧ (cp.slices.all fun l => l.done) = true) := by
  refine ⟨⟨_, _, rfl, rfl, rfl, by decide, by decide, by decide⟩, ⟨_, work_sCp _ rfl rfl, rfl, by decide, rfl, rfl, by decide +kernel⟩,
    ⟨_, work_sCp _ rfl rfl, rfl, by decide, rfl, rfl, by decide +kernel⟩, ?_,
    ⟨_, _, work_sCp _ rfl rfl, rfl, by decide, by decide, by decide +kernel⟩,
    ⟨_, work_sCp _ rfl rfl, rfl, by decide, by decide, rfl, rfl⟩,
    ⟨_, work_sCp _ rfl rfl, rfl, by decide, rfl, rfl, rfl, by decide +kernel, rfl, rfl, by decide +kernel, by decide +kernel⟩, ?_,
    ⟨_, work_sCp _ rfl rfl, rfl, by decide, by decide, by decide, by decide +kernel, rfl, rfl, rfl⟩,
    _, _, rfl, rfl, rfl, rfl, by decide⟩
  · intro n hn
    simp only [List.mem_cons, List.not_mem_nil, or_false] at hn
    rcases hn with rfl | rfl <;> exact ⟨_, work_sCp _ rfl rfl, by decide, by decide +kernel⟩
  · intro n hn
    simp only [List.mem_cons, List.not_mem_nil, or_false] at hn
    rcases hn with rfl | rfl <;>
      exact ⟨_, work_sCp _ rfl rfl, rfl, by decide, by decide, by decide, by decide +kernel, rfl, by decide +kernel⟩

/-- A zeroed row of the tile store, not started and started; a tile load and a store of row 1. -/
def mZ (n : Nat) : MxUnit := { num := 1, op := 2, desc := [0], pc := 0x100, started := n }
def oTile (k : OpKind) : Op :=
  { id := 1, maj := 24, ctr := .tl, kind := k, dst := [.pos 2], arg := [1, 0], accs := [{ lane := 0, va := 0, data := leBytes 4 7 }] }

theorem witness_MatrixEvents :
    (∀ k ∈ [OpKind.tld, .tst], let g : Group := { g0 with ops := [oTile k] }; let s := one g
      s.grp? 16 = some g ∧ Of s g w0 ∧ g.op? 1 = some (oTile k) ∧ (oTile k).performed = false ∧ s.live g = true ∧
        ((g.before (oTile k)).any fun p => p.kind = .tld || p.kind = .tst) = false) ∧
    (let g : Group := { g0 with mxq := [mZ 0] }; let s := one g
      s.nextMatrix (clusterOfCore g.core) = some 16 ∧ firstUnstarted g.mxq 0 = some (0, mZ 0) ∧ mxCheck w0 (mZ 0) 0 = none) ∧
    (let g : Group := { g0 with mxq := [mZ 1] }; (one g).live g = true ∧ (mZ 1).op ≠ 3 ∧ (mZ 1).step < (mZ 1).started ∧ (mZ 1).bad = none) :=
  ⟨by
    intro k hk
    simp only [List.mem_cons, List.not_mem_nil, or_false] at hk
    rcases hk with rfl | rfl <;> exact ⟨rfl, rfl, rfl, rfl, rfl, by decide⟩,
   ⟨by decide +kernel, rfl, by decide⟩, rfl, by decide, by decide, rfl⟩

/-- Low-voltage mode off, on and in transition, on core 255. -/
def sLv (c : Core) : State := { State.reset with cores := [(255, c)] }

def lvCore (lv : Bool) (b : Nat) : Core := { lv := lv, lvTarget := lv, busy := 200000, bound := [(0, (b, 200))] }
def sLvAt (lv : Bool) (b : Nat) : State := { sLv (lvCore lv b) with dev := { tns := 1000, lven := true } }

theorem witness_PowerEvents_lowVoltage :
    (let s := sLvAt false 200; let b := ((s.settleCore 255).core 255).boundOf (s.dev.now5 / 200000) s.dev.lvwin
     s.dev.lven = true ∧ (s.core 255).lv = false ∧ b.2 ≠ 0 ∧ s.dev.lvthr * b.2 ≤ 100 * b.1) ∧
    (let s := sLvAt false 0; let b := ((s.settleCore 255).core 255).boundOf (s.dev.now5 / 200000) s.dev.lvwin
     100 * b.1 < s.dev.lvthr * b.2) ∧
    ((sLvAt true 0).lvAsks 255 false = true ∧ (sLvAt true 200).lvAsks 255 false = false ∧
      ((sLvAt true 200).groups.any fun kv => kv.2.core = 255 && kv.2.urgent) = false) ∧
    (let v : Core := { filler := true, fillTns := 5 }; v.filler = true ∧ 0 < v.fillTns + 8000 ∧ v.fillTns + 8000 ≤ 8005) := by decide +kernel

theorem witness_PowerEvents : (255 < 256 ∧ State.reset.dev.shape = true ∧ State.reset.dev.lven = true ∧ (State.reset.core 255).lv = false) ∧
    (((sLv { lv := true, lvTarget := true }).core 255).lv = true ∧ ((sLv { lv := true, lvTarget := true }).core 255).lvTarget = true ∧
      ((sLv { lv := true, lvTarget := true }).core 255).lvCap = false) ∧ ((sLv { trn := true }).core 255).trn = true ∧
    (∀ p ∈ [5701, 6000], p < 65536 ∧ p ≤ State.reset.dev.pcap ∧ State.reset.dev.pcap * 95 < p * 100) := by decide

/-! ### Hypotheses met: link, fabric, router, dies -/

/-- A port in bring-up, one with its session, one that holds a tag group that has failed n times. -/
def sPort (v : Port) : State := { State.reset with ports := [(31, v)] }
def vTag (n : Nat) : Port :=
  { state := 1, session := true, tagFails := n, tagHeld := [{ kind := .data, seq := 0, payload := [0, 0] }, { kind := .tag, seq := 1, payload := [] }] }

theorem witness_LinkEvents :
    (((sPort { bring := true }).port 31).bring = true ∧ ((sPort { bring := true }).port 31).goodWl ≠ []) ∧
    (let v := (sPort { state := 1, session := true }).port 31; v.session = true ∧ v.state ≠ 0 ∧ v.rxGap = false ∧ v.skida = false ∧ 8 < 9 ∧
      (∀ e ∈ [0, 8], e ≤ 8) ∧ (∀ q ∈ [0, 65535], let f : LinkFlit := { kind := .idle, seq := q, payload := [] }
        f.kind = .idle ∧ ((f.seq = v.rxSeq) = (q = 0)))) ∧
    (∀ n ∈ [0, 2], (((sPort (vTag n)).port 31).tagHeld.findIdx? fun (f : LinkFlit) => f.kind = .tag) = some 1) ∧
    2 ≤ ((sPort (vTag 2)).port 31).tagFails := by decide

/-- A packet of device 3 for device d; a machine with port 5 up, which holds packets of it. -/
def pk (type d seq : Nat) : FabPkt :=
  { type := type, src := 3, dst := d, rctx := 0, cls := 1, seq := seq, rid := { src := 3, req := 0, seq := 0 }, ronum := 0, off := 0,
    opnd := [], payload := [] }
def rq (k : RemoteKind) (ctx off : Nat) : RemoteReq :=
  { src := 3, kind := k, rctx := ctx, ronum := 1, off := off, size := 4, data := [1, 2, 3, 4], op := 0, val := 0, cmp := 0,
    rid := { src := 3, req := 0, seq := off + ctx }, seq := 0 }
def sFab : State :=
  { mapped g0 with ports := [(5, { state := 1 })],
                   fab := { reorder := [(fabKey 3 1, [pk 0 0 2])], unacked := [(fabKey 3 1, [{ pkt := pk 0 3 7 }])], rereading := true },
                   remHeld := [rq .read 0 0, rq .write 0 4, rq .read 0 0x1000, rq .read 9 0] }

/-- The same with an early store held, to be performed again when its replay comes, and one dealt with long ago. -/
def sFab2 : State :=
  { sFab with ports := [(5, { state := 1, again := [(3, 1, 0), (3, 1, 4096)] })], fab := { reorder := [(fabKey 3 1, [pk 1 0 0])] } }

theorem witness_FabricEvents :
    ((sFab.port 4).state = 0 ∧ (sFab.port 5).state ≠ 0) ∧ ((pk 0 1 0).dst ≠ sFab.fab.dev ∧ (pk 0 0 0).dst = sFab.fab.dev) ∧
    ((∀ n ∈ [9, 15], 9 ≤ (pk n 0 0).type) ∧ (pk 8 0 0).type = 8 ∧ ∀ n ∈ [0, 7], (pk n 0 0).type ≤ 7) ∧
    (let k := fabKey 3 1; let held (n : Nat) : Bool := (mapGet sFab.fab.reorder k []).any fun x => x.seq = n
     let ahead (n : Nat) : Nat := ((pk 0 0 n).seq + 2 ^ 32 - mapGet sFab.fab.rxSeq k 0) % 2 ^ 32
     (ahead 0 = 0 ∧ held 1 = false) ∧ (1 ≤ ahead 1 ∧ held 1 = false) ∧ (ahead 2 < 4096 ∧ held 2 = true) ∧ (ahead 4095 < 4096 ∧ held 4095 = false) ∧
       4096 ≤ ahead 4096 ∧ (pk 0 0 4096).type ≠ 1) ∧
    (((mapGet sFab2.fab.reorder (fabKey 3 1) []).filter fun x => x.seq = (pk 1 0 0).seq) = [pk 1 0 0] ∧
      ((mapGet sFab2.fab.reorder (fabKey 3 1) []).any fun x => x.seq = 1) = false ∧ (sFab2.port 5).again.contains (3, 1, 0) = true ∧
      (sFab2.port 5).again.contains (3, 1, 4096) = true ∧ (pk 1 0 4096).type = 1 ∧ (sFab2.port 5).again.contains (3, 1, 7) = false) ∧
    (∃ x : TxPkt, ((mapGet sFab.fab.unacked (fabKey 3 1) []).find? fun y => y.pkt.seq = 7) = some x) ∧
    ((0xFFFFFFFF : DWord).toNat < 2 ^ 32 ∧ 2 ^ 32 ≤ (0x100000000 : DWord).toNat) ∧
    (sFab.fab.rereading = true ∧ sFab.fab.frmb.toNat % 2 ^ 48 = 0) ∧
    (∀ r ∈ sFab.remHeld, r.kind ≠ .cumulus ∧ sFab.waits (.remote r) = false ∧
      ((sFab.remHeld.takeWhile fun y => y ≠ r).any fun x => heldBehind x r) = false) ∧ (rq .read 9 0 ∈ sFab.remHeld ∧ (match sFab.remoteXl (rq .read 9 0) with | .fault .. => true | _ => false) = true) ∧
    (rq .read 0 0x1000 ∈ sFab.remHeld ∧ (match sFab.remoteXl (rq .read 0 0x1000) with | .miss .. => true | _ => false) = true) ∧
    (∀ r ∈ [rq .read 0 0, rq .write 0 4], r ∈ sFab.remHeld ∧ r.op < 256 ∧
      (match sFab.remoteXl r with
       | .ok (.da d :: ps) => ((Place.da d :: ps).all fun p => match p with | .da a => sFab.writeRoom (a / 128) && sFab.lineFree (a / 128) | _ => true) &&
          (sFab.filterGet (sFab.sliceOf d) r.rid).isNone && sFab.filterRoom (sFab.sliceOf d)
       | _ => false) = true) :=
  ⟨by decide, by decide, by decide, by decide, by decide, ⟨_, rfl⟩, by decide, by decide, by decide, by decide +kernel, by decide +kernel, by decide +kernel⟩

/-- Pair (1, 2) with flits 4 and 5 under way, for chiplet 2 and for chiplet 7 by relay 2; the next it accepts; packets at the relay. -/
def pkt (d : Nat) : RPkt := { src := 1, dst := d, vc := 2, msg := .heartbeat 9 }
def vPair (e : Nat) (l : List RPkt) : Pair :=
  { retry := [{ seq := 4, vc := 2, strands := 1, pkt := pkt 2 }, { seq := 5, vc := 2, strands := 1, pkt := pkt 7 }], expect := e, atRelay := l,
    waking := some 100 }
def sPair (e : Nat) (l : List RPkt) : State := { State.reset with pairs := [(1 * 64 + 2, vPair e l)] }
/-- As many packets as fill channel VC5 of a second hop (R356). -/
def many : List RPkt := List.replicate (Config.channelRoom 5 + 1) (pkt 7)

theorem taken_sPair (l : List RPkt) (h : ∀ p ∈ l, p = pkt 7) : (sPair 5 l).taken 2 7 5 = l.length + 1 := by
  have a : (l.filter fun p => p.dst = 7) = l := List.filter_eq_self.2 fun p q => by simp [h p q, pkt]
  have c : (sPair 5 l).pair 2 7 = {} := rfl
  have e : ({} : Pair).unseen = [] := rfl
  have q : (sPair 5 l).pairs = [(66, vPair 5 l)] := rfl
  have u : (vPair 5 l).unseen = (vPair 5 []).unseen := rfl
  have w : (vPair 5 []).unseen.map RFlit.pkt = [pkt 7] := by decide
  have d : (sPair 5 l).comingBy 2 7 = [pkt 7] := by simp only [State.comingBy, q, List.flatMap_cons, List.flatMap_nil, u, w]; decide
  simp only [State.taken, c, e, d, List.filter_nil, List.length_nil, State.toForward, q]
  simp [vPair, a, pkt]
  exact fun p r => by simp [h p r, pkt]

/-- A context that traps DIE, its group halted or not. -/
def sDie (h : Bool) : State := { one { g0 with halted := h } with ctxs := [(0, { en := true, stop := .die 5 [4] false false })] }

theorem witness_RouterAndDieLossEvents :
    ((∃ m : Fin 4, m.val = 3 ∧ 1 < 50 ∧ 49 < 50 ∧ (49 : Nat) ≠ 1 ∧ (49 : Nat) ≠ 2) ∧
    (∀ n ∈ [0, 5, 6, 11], n < 12 ∧ bitOf (State.reset.pair 1 2).fail n = false ∧
      (let v := (State.reset.pair 1 2).without n 0; v.good ≠ 0 ∧ v.good &&& (if n < 6 then 0x3F else 0xFC0) ≠ 0)) ∧
    ((sPair 4 []).pair 1 2 = vPair 4 [] ∧ ∃ f r, (vPair 4 []).unseen = f :: r ∧ f.pkt.dst = 2) ∧
    (∀ l, (sPair 5 l).pair 1 2 = vPair 5 l ∧ (∃ f r, (vPair 5 l).unseen = f :: r ∧ f.pkt = pkt 7 ∧ f.pkt.dst ≠ 2) ∧
      ((sPair 5 l).pair 2 7).good ≠ 0 ∧ ((sPair 5 l).chip 7).dead = false) ∧
    ((sPair 5 []).relayTakes 2 (pkt 7) = true ∧ (sPair 5 many).relayTakes 2 (pkt 7) = false) ∧
    ((vPair 5 []).retry.findIdx? (fun f => f.seq = 4) = some 0 ∧ ((vPair 5 []).unseen.any fun f => f.seq = 4) = false ∧
      ((sPair 5 []).pair 2 1).good ≠ 0) ∧
    (let s := sPair 5 [pkt 7]
     ((s.pair 1 2).atRelay.find? fun p => p.dst = 7 && p.vc = s.nextFwd 2 7) = some (pkt 7) ∧ (s.chip 2).dead = false ∧ (s.pair 2 7).good ≠ 0 ∧
       (s.pair 2 7).retry.length < 256) ∧
    (vPair 4 []).waking = some 100 ∧ (State.reset.chip 7).dead = false ∧
    (let v := State.reset.pair 1 2; (State.reset.chip 1).gen = true ∧ v.waking = none ∧ State.reset.wakeDue 1 2 = false ∧
      v.gated ≠ v.good &&& (0xFFF ^^^ 2 ^ v.sentinel) ∧ (1 ≠ 2) ∧ 1 < 50 ∧ 2 < 50) ∧
    (49 < 50 ∧ (State.reset.chip 49).dead = false ∧ (State.reset.chip 49).reported = false)) ∧
    (({ State.reset with chips := [(4, { dead := true })] } : State).chip 4).dead = true ∧ (State.reset.chip 4).reported = false ∧
    (let s : State := { State.reset with chips := [(4, { reported := true })] }; (s.chip 4).dead = false ∧ (s.chip 4).reported = true) ∧
    (16 ≤ 16 ∧ 47 < 48 ∧ State.reset.dev.memOpen = false ∧ ∀ m ∈ State.reset.home.lost, m / 16 ≠ (16 - 16) / 16) ∧
    ((sDie false).ctx 0).stop = .die 5 [4] false false ∧ ((sDie false).groups.all fun kv => kv.2.ctx ≠ 0 || kv.2.halted || kv.2.inDie) = false ∧
    ((sDie true).groups.all fun kv => kv.2.ctx ≠ 0 || kv.2.halted || kv.2.inDie) = true :=
  ⟨⟨⟨3, by decide⟩, by decide, ⟨rfl, _, _, rfl, rfl⟩, fun l => ⟨rfl, ⟨_, _, rfl, rfl, by decide⟩, by rw [show (sPair 5 l).pair 2 7 = {} from rfl]; decide, rfl⟩,
      ⟨by simp [State.relayTakes, taken_sPair, show (pkt 7).dst = 7 from rfl, show (pkt 7).vc + 3 = 5 from rfl],
       by simp [State.relayTakes, show (pkt 7).dst = 7 from rfl, show (pkt 7).vc + 3 = 5 from rfl, taken_sPair many fun p h => List.eq_of_mem_replicate h, show many.length = _ from List.length_replicate]⟩,
      by decide, by decide, rfl, rfl, by decide, by decide⟩, by decide⟩

/-! ### Hypotheses met: contexts, hosts, work distribution -/

/-- Port die 0 walks: the mapped VA 0, and a VA beyond the object. -/
def sWalk : State := { mapped g0 with ptr := [(48, { walks := [(0, 0), (0, 0x8000000)] })] }
/-- A service open on sub-tile 1 of the object, its queue of 2^log records. -/
def sSrv (log : Nat) : State :=
  { mapped g0 with ctxs := [(0, { en := true, orb := 0x4000000010000, otdr := 0x20000, otsq := BitVec.ofNat 64 (log * 2 ^ 48),
                                  services := [{ obj := 1, sub := 1, src := 0, wr := false, unit := 0, va := 0x1000 }] })] }

/-- A publish under way while die 0 holds Cumulus buffers. -/
def sPub (l : NMap CuBuf) : State :=
  { mapped g0 with dies := [(0, { bufs := l })], dev := { pub := some { op := 3, ctx := 0, obj := 1, first := 0, count := 2 } } }

theorem witness_ContextAndObjectEvents :
    (63 < 64 ∧ (0x141 : DWord).getLsbD 0 = true ∧ (State.reset.ctx 63).en = false ∧ ctxCfgOk 0x141 = true) ∧
    (((mapped g0).ctx 0).en = true ∧ ∀ f < 4, ((mapped g0).host f).heldWin = []) ∧
    ((mapped g0).trc 304).walks.contains (0, 0) = false ∧
    ((sWalk.trc 304).walks.contains (0, 0x8000000) = true ∧
      (match sWalk.look { u := 304, ctx := 0, sys := true } 0x8000000 with | .bad .. => true | _ => false) = true) ∧
    ((sWalk.trc 304).walks.contains (0, 0) = true ∧
      (match sWalk.look { u := 304, ctx := 0, sys := true } 0 with | .ok _ r => r.kind ≠ 2 && decide (0 - r.base < r.sz) | _ => false) = true) ∧
    (∃ v, (((sSrv 0).ctx 0).services.find? fun v => !v.posted) = some v ∧ ((sSrv 0).ctx 0).sqlog < 4 ∧
      4 ≤ ((sSrv 4).ctx 0).sqlog ∧ ((sSrv 4).ctx 0).services = ((sSrv 0).ctx 0).services ∧
      (((sSrv 4).ctx 0).sqTail - ((sSrv 4).ctx 0).sqHead).toNat < 2 ^ ((sSrv 4).ctx 0).sqlog) ∧
    ((sSrv 4).serviceOpen 0 1 0 = false ∧ (sSrv 4).serviceOpen 0 1 1 = true ∧
      ∃ v, (((sSrv 4).ctx 0).services.find? fun v => v.obj = 1 && v.sub = 1) = some v) ∧
    (({ opState := 1 } : Device).opState = 1 ∧ State.reset.dev.opState ≠ 1 ∧ 2 ^ 24 - 1 < 2 ^ 24 ∧ 2 ^ 32 - 1 < 2 ^ 32) ∧
    ∀ l ∈ [[], [(3, { ents := [cuE] })]], ∃ p, (sPub l).dev.pub = some p ∧ (sPub l).pubDrained p = true ∧
      (sPub l).holdsCtx p.ctx = !l.isEmpty :=
  ⟨by decide, by decide, by decide, by decide +kernel, by decide +kernel, ⟨_, rfl, by decide⟩, ⟨by decide, by decide, _, rfl⟩, by decide, by
      intro l h
      simp only [List.mem_cons, List.not_mem_nil, or_false] at h
      rcases h with rfl | rfl <;> exact ⟨_, rfl, by decide, by decide⟩⟩

/-- Functions 0 and 3 up; an owner. -/
def sHost (held : Bool) : State :=
  { State.reset with hosts := [(0, { up := true, attstat := 1 }), (3, { up := true, attstat := 3 })], dev := { ownHeld := held } }

/-- Port die 0 and its walker hold the mapped object's directory entries, record and first sub-tile entry. -/
def cached : State :=
  { mapped g0 with
      gdir := [(0, [(dirKey1 0 0, 0x30001), (dirKey2 0 0, 0x80000001)])],
      ptr := [(48, { recs := [(recKey 0 1, { words := [BitVec.ofNat 64 (27 * 2 ^ 2 + 12 * 2 ^ 19), 0x80000000, 0x40000, 0x2000, 0, 0, 0, 0] })],
                     ents := [(entKey 0 1 0, { word := 0x50001 })] })] }

/-- Function 0 up with a window on context 0, the owner of a device that is ready; queue 5 running, queue 6 halted. -/
def sWin : State :=
  { cached with hosts := [(0, { up := true, hwin := 1, vecPending := true })], dev := { ownHeld := true, bootReady := true },
                lq := [(5, { en := true, state := 1, logn := 4 }), (6, { en := true, state := 2 })] }

theorem witness_HostSideEvents :
    (7 < 8 ∧ 3 < 4 ∧ ((sHost false).host 3).up = true ∧ (sHost false).dev.ownHeld = false ∧ (sHost false).dev.claims = []) ∧
    (((sHost true).host 3).up = true ∧ (sHost true).dev.ownHeld = true ∧ ((sHost true).dev.claims.any fun c => c.f = 3) = false) ∧
    ((sHost true).owns 0 = true ∧ (sHost true).dev.claims = [] ∧ (sHost true).owns 3 = false) ∧
    (((sHost true).host 0).attstat = 1 ∧ ((sHost true).host 3).attstat = 3) ∧ (1 < 2 ∧ 7 ≤ 7 ∧ ((sHost true).die (48 + 1)).dead = false) ∧
    (sWin.host 0).vecPending = true ∧
    (let s : State := { sHost true with dies := [(48, { dead := true })], str := { standby := true } }
     (3 < 4) ∧ (s.host 3).up = true ∧ heldWrites (s.host 3).heldWin = false ∧ s.heldByLoss 3 = true) ∧
    (heldWrites (sWin.host 0).heldWin = false ∧ sWin.heldByLoss 0 = false ∧ sWin.owns 0 = true ∧ sWin.dev.bootReady = true ∧ 2 ^ 28 - 1 < 2 ^ 28 ∧ 63 < 64 ∧
      (sWin.queue 5).en = true ∧ ((16 : Word) - (sWin.queue 5).head).toNat = 2 ^ (sWin.queue 5).logn ∧
      2 ^ (sWin.queue 5).logn < ((17 : Word) - (sWin.queue 5).head).toNat ∧ (sWin.queue 6).state = 2 ∧ 65535 < 65536) ∧
    ((sWin.host 0).up = true ∧ (sWin.host 0).hwin.getLsbD 0 = true ∧ (sWin.ctx (sWin.winXl 0).ctx).en = true ∧
      (∀ off ∈ [0, 0x1000, 0x8000000], off < 2 ^ 40 ∧ 0 < 4 ∧ off + 4 ≤ 2 ^ 36 ∧ sWin.waits (.win 0 none off 4) = false ∧
        (match sWin.xlate (sWin.winXl 0) 17 false false ((sWin.host 0).winVa off) 4 false with
         | .ok ps => off = 0 && (match sWin.spanIn (.win 0 none off 4) 0 ps with | .ok _ => true | _ => false)
         | .miss .. => off = 0x1000
         | .fault .. => off = 0x8000000
         | .hold .. => false) = true)) ∧
    (let p : Party := .win 0 (some [1, 2, 3, 4]) 0 4
     sWin.waits p = false ∧ (match sWin.xlate (sWin.winXl 0) 18 true false ((sWin.host 0).winVa 0) 4 false with
       | .ok ps => (match sWin.spanOut p 0 ps [1, 2, 3, 4] with | .ok _ => true | _ => false) | _ => false) = true) :=
  ⟨by decide, by decide, by decide, by decide, by decide, rfl, by decide, by decide +kernel, by decide +kernel⟩

/-- A launch record at VA 0x100 (one workgroup of one group) in a queue whose ring begins at a VA; limits of so many groups. -/
def qMax (gs : Nat) : Quota := { gs := gs, rf := 64, wgm := 16, ts := 16, bs := 16 }
def sQ (base gs : Nat) : State :=
  { cached with
      mem := memWriteBytes (memWriteBytes [] 0x50118 (leBytes 8 (4 + 2 ^ 38))) 0x50140 (leBytes 8 (64 + 3 * 2 ^ 36)),
      ctxs := [(0, { en := true, orb := 0x4000000010000, otdr := 0x20000, quota := qMax gs, slotkb := 64 })], classes := [(0, qMax 1)],
      lq := [(63, { en := true, state := 1, base := BitVec.ofNat 64 base, tail := 1 })] }

/-- A grid whose workgroup waits, in a machine with nothing resident; private object 1 of 16 MiB. -/
def gr1 : Grid := { lrec := { lev := [(64, 0, 3)] }, total := 1 }
def sWait (q : Quota) (ws : NMap Workgroup) (gs : NMap Group) : State :=
  { State.reset with
      mem := memWriteBytes (memWriteBytes mapMem 0x10048 (leBytes 8 (8 * 2 ^ 31))) 0x10058 (leBytes 8 0x1000000), grids := [(2, gr1)], wgs := ws, groups := gs,
      ctxs := [(0, { en := true, orb := 0x4000000010000, otdr := 0x20000, quota := q, privobj := 1, nslot := 1 })], classes := [(0, q)],
      dev := { tns := 1000000 } }
/-- A workgroup in a state, without groups. -/
def sSt (st : WgState) (ev : Bool) (pre : Bool := false) : State :=
  { State.reset with wgs := [(1, { state := st, evict := ev, preempted := pre })], ctxs := [(0, { en := true, nslot := 1 })] }

/-- A bin of core 9; cluster 2 idle, gated with work waiting, or powering up. -/
def sBin (n : Nat) : State :=
  { State.reset with cores := [(9, { bins := [(31, { ctx := 0, grid := 0, entry := 0, key := 0 })] })],
                     wgs := (List.range n).map fun i => (i, ({} : Workgroup)) }
def sGate (g : Gate) : State := { sWait (qMax 1) [] [] with clusters := (List.range 64).map fun i => (i, { gate := g }) }

theorem witness_WorkDistributionEvents :
    (∀ p ∈ [(0x8000000, 0, 0), (0x1000, 0, 1), (0x100, 1, 2), (0x100, 0, 3)], let s := sQ p.1 p.2.1; let v := s.queue 63
      s.queueReady v = true ∧
        (match s.headRecord 63 with
         | .bad => p.2.2 = 0
         | .wait _ => p.2.2 = 1 && !s.waits (.queue 63) && (match s.span { u := 304, ctx := v.ctx, sys := s.sysCtx v.ctx } 1 false
             (v.base.toNat % 2 ^ 52 + 256 * (v.head.toNat % 2 ^ v.logn)) 256 with | .miss .. => true | _ => false)
         | .raw raw => decide ((s.launchCode v.ctx ((parseLaunch raw).ctx = v.ctx) raw (parseLaunch raw) false = 0) = (p.2.2 = 2)) && 2 ≤ p.2.2) = true) ∧
    (let s : State := { State.reset with grids := [(2, { gr1 with nextW := 1 })] }
     ∃ g, mapGet? s.grids 2 = some g ∧ g.total ≤ g.nextW ∧ (s.ctx g.lrec.ctx).stopped = false ∧ g.live = 0 ∧ g.spawned = 0 ∧
       (s.wgs.all fun kv => kv.2.grid ≠ 2) = true ∧ (s.cores.all fun kv => kv.2.bins.all fun b => b.2.grid ≠ 2) = true) ∧
    (let s := sWait (qMax 1) [] []
     ∃ w, s.candidate 0 (fun w => s.fitsAt (s.need w) 0 [5] 11) = some w ∧
       (match w.key.bind s.wg? with | some v => decide (v.state = .waiting) | none => true) = true ∧ [(256, 0)].length = (s.need w).n ∧
       areasOk (s.privSize (s.need w).ctx) (mapGet s.grids w.grid {}).lrec.privu (s.privUsed (s.need w).ctx) [(256, 0)] = true) ∧
    (∃ g, mapGet? (sWait {} [] []).grids 2 = some g ∧ g.eprio < 7 ∧ g.next?.isSome = true) ∧
    (∃ w, (sSt .swapped false).wg? 1 = some w ∧ w.eprio < 7 ∧ w.state = .swapped) ∧
    (let s := sWait {} [(1, { w0 with residentTns := 0 })] [(16, { g0 with park := 2 })]
     ∃ h, firstWait s.waiting = some h ∧ s.headStuck h = true ∧ s.victim? h = some 1) ∧
    (let s0 := sWait {} [(1, { w0 with residentTns := 0 })] [(16, { g0 with park := 2 })]
     let s := { s0 with ctxs := mapMod s0.ctxs 0 fun c => { c with nslot := 0 } }
     ∃ h v, firstWait s.waiting = some h ∧ s.headStuck h = true ∧ s.victim? h ≠ some 1 ∧
       ((s.withheldFor h).find? fun kv => kv.1 = 1) = some (1, v) ∧
       v.withheld ≠ some (h.grid, h.wgid, h.since)) ∧
    (∃ v i, (sSt .resident true true).wg? 1 = some v ∧ (sSt .resident true true).freeSaveSlot v.ctx = some i ∧ v.evict = true ∧
      v.state = .resident ∧ (sSt .resident true true).inTrap 1 = false ∧ (sSt .resident true true).saveWanted 1 v = true) ∧
    (∃ v, (sSt .resident true).wg? 1 = some v ∧ v.evict = true ∧ v.state = .resident ∧ (sSt .resident true).saveWanted 1 v = false) ∧
    (∀ m ∈ [0, 1], let s := { sSt .saving false with groups := [(16, { g0 with dirtyMask := m })] }
     ∃ v, s.wg? 1 = some v ∧ v.state = .saving ∧ (((s.groupsOf 1).filterMap s.grp?).all Group.drained) = true ∧
       ((((s.groupsOf 1).filterMap s.grp?).any fun g => g.dirtyMask ≠ 0) = decide (m = 1)) ∧
       (m = 1 ∨ let u := ((s.endExiting 1).passFlas 1).finishReads 1
         ((u.wg? 1).map fun x => x.copies.any Copy.own) = some false ∧ ((u.groupsOf 1).filterMap u.grp?).isEmpty = false)) ∧
    (let s := { sWait (qMax 1) [(1, { state := .swapped })] [(16, { g0 with slot := 0 })] with grids := [] }
     ∃ x v, s.candidate 0 (fun x => x.key = some 1 && s.fitsAt (s.need x) 0 [5] 11) = some x ∧ s.wg? 1 = some v ∧ v.state = .swapped) ∧
    (∃ v, (sSt .resuming false).wg? 1 = some v ∧ v.state = .resuming) ∧
    (∃ b, mapGet? ((sBin 0).core 9).bins 31 = some b ∧ b.closed = false ∧
      (((sBin 0).atLeast (b.start + ((sBin 0).core 9).sptmr * 1000)).formBin 9 31).isSome = true ∧
      (((sBin 1024).atLeast (b.start + ((sBin 1024).core 9).sptmr * 1000)).formBin 9 31).isNone = true) ∧
    ((State.reset.cluster 2).gate = .powered ∧ (State.reset.cluster 2).idle = true ∧ State.reset.clusterIdle 2 = true ∧
      State.reset.dispatches 2 = false) ∧
    (let s := sWait (qMax 1) [] []; (s.cluster 0).gate = .powered ∧ (s.cluster 0).idle = true ∧ s.clusterIdle 0 = true ∧ s.dispatches 0 = true) ∧
    (((sGate .gating).cluster 2).gate = .gating ∧ (sGate .gating).wantsCluster 2 = true) ∧ ((sGate .ungating).cluster 2).gate = .ungating :=
  ⟨by decide +kernel, ⟨_, rfl, by decide⟩, ⟨{ eprio := 0, since := 0, grid := 2, wgid := 0, key := none }, by decide +kernel⟩, ⟨gr1, rfl, by decide⟩,
    ⟨_, rfl, by decide, rfl⟩,
    ⟨{ eprio := 0, since := 0, grid := 2, wgid := 0, key := none }, by decide +kernel⟩,
    ⟨{ eprio := 0, since := 0, grid := 2, wgid := 0, key := none }, { w0 with residentTns := 0 }, by decide +kernel⟩,
    ⟨_, _, rfl, rfl, rfl, rfl, by decide, by decide⟩, ⟨_, rfl, rfl, rfl, by decide +kernel⟩, by
      intro m h
      simp only [List.mem_cons, List.not_mem_nil, or_false] at h
      rcases h with rfl | rfl <;> exact ⟨_, rfl, rfl, by decide, by decide, by decide⟩,
    ⟨{ eprio := 0, since := 0, grid := 0, wgid := 0, key := some 1 }, _, by decide +kernel, rfl, rfl⟩,
    ⟨_, rfl, rfl⟩, ⟨_, rfl, rfl, by decide +kernel, by decide +kernel⟩, by decide, by decide +kernel, by decide +kernel, by decide⟩

/-! ### Hypotheses met: ports, messages, collectives, the step, encodings, memory -/

/-- Port 31 with a wavelength failed, with a remap under way, and with the states and widths of PortWidthEvents. -/
def vFail (w : Nat) : Port := { state := 1, lageH := [(w, 0x1000000)] }

theorem witness_PortEvents :
    (31 < 32 ∧ 9 < 10 ∧ ((sPort (vFail 9)).port 31).failed 9 = true) ∧
    (let v := (sPort {}).port 31; v.failed 0 = false ∧ v.state = 0) ∧
    (let v := (sPort { state := 1 }).port 31
     (v.failed 8 = false ∧ v.mapped 8 = false ∧ ∀ r ∈ v.remaps, r.2.1 ≠ 8) ∧
       (∀ e ∈ [(0, 0), (7, 7)], v.failed e.1 = false ∧ v.state ≠ 0 ∧ v.remaps = [] ∧ ((List.range 8).find? fun k => v.lane k = e.1) = some e.2 ∧
         (failedAt v e.1 0).spare = some 8)) ∧
    ((sPort { remaps := [(3, 8, 0)] }).port 31).remaps = [(3, 8, 0)] ∧
    ((∀ n ∈ [2, 3], let v := (sPort { state := n }).port 31; v.state = n ∧ v.pending = []) ∧
     (let v := (sPort { state := 1, cfg := 0x17, width := 3 }).port 31
      v.state = 1 ∧ v.cfg.getLsbD 4 = true ∧ v.wmax < v.width ∧ max v.wmax v.bound < v.oldWidth ∧ 16 * (v.cfg.toNat / 256 % 256) ≤ v.txWait.length ∧
        v.pending = []) ∧
     (∀ n ∈ [1, 3], let v := (sPort { state := 1, cfg := 3 }).port 31; v.state = 1 ∧ n < 4 ∧ v.oldWidth < n ∧ n ≤ v.wreq) ∧
     (∀ n ∈ [0, 2], let v := (sPort { state := 1, width := 3 }).port 31; v.state = 1 ∧ v.pending = [] ∧ max n v.bound < v.oldWidth ∧ n < 4) ∧
     (let v := (sPort { state := 1 }).port 31; v.state = 1 ∧ v.wreq < (0x20003 : DWord).toNat % 4 ∧ v.oldWidth < (0x20003 : DWord).toNat % 4 ∧
        (0x20003 : DWord).getLsbD 17 = true) ∧
     (let v := (sPort { state := 1, cfg := 0x20003, width := 3 }).port 31; v.state = 1 ∧ (0x20000 : DWord).toNat % 4 < v.wreq ∧
        (0x20000 : DWord).toNat % 4 < v.oldWidth ∧ (0x20000 : DWord).getLsbD 17 = true) ∧
     (let v := (sPort {}).port 31; v.state = 0 ∧ v.bring = false ∧ v.goodWl ≠ [] ∧ (0x0 : DWord).getLsbD 17 = false) ∧
     (sPort { bring := true }).port 31 = { bring := true }) := by decide

theorem witness_PcfgLegal : PcfgLegal {} (0x20003 : DWord).toNat ∧ PcfgLegal {} (0x20000 : DWord).toNat ∧ PcfgLegal {} 0 ∧
    ¬ PcfgLegal {} (0x20010 : DWord).toNat := by
  refine ⟨?_, ?_, ?_, ?_⟩ <;> unfold PcfgLegal <;> decide

/-- AgeingTimeAndPhotonicEvents; the ageing index of a wavelength whose bias current was 1000 at manufacture. -/
theorem witness_AgeingTimeAndPhotonicEvents :
    (State.reset.ports.map Prod.fst).Pairwise (· < ·) ∧ (State.reset.port 31).state = 0 ∧ ((sPort { state := 1 }).port 31).state ≠ 0 ∧
    (∀ b, ageIndex (0 % 65536) b < 49152) ∧ (49152 ≤ ageIndex (1376 % 65536) 1000 ∧ ageIndex (1376 % 65536) 1000 < 65535) ∧
    (let d (f t : Nat) : Nat := (f + 0 + 2 ^ 48 - t % 2 ^ 48) % 2 ^ 48
     d 1 0 = 1 ∧ d (2 ^ 47 - 1) 0 = 2 ^ 47 - 1 ∧ d 0 0 = 0 ∧ d (2 ^ 47) 0 = 2 ^ 47) ∧
    (let v := (sPort {}).port 31; 31 < 32 ∧ 9 < 10 ∧ v.en = false ∧ mapGet v.phyctl 9 0 = 0) ∧
    (∀ l ∈ [0, 1], let v := (sPort { phyctl := [(9, 1)], physt := [(9, BitVec.ofNat 64 l)] }).port 31
      v.en = false ∧ mapGet v.phyctl 9 0 = 1 ∧ physt v 9 0 2 = l ∧ (mapGet v.phyctl 9 0).getLsbD 0 = true ∧ v.failed 9 = false) ∧
    ((sPort { phyctl := [(9, 1)], lageH := [(9, 0x1000000)] }).port 31).failed 9 = true ∧
    (let v := (sPort { phyctl := [(9, 3)], physt := [(9, 9)] }).port 31; v.en = false ∧ mapGet v.phyctl 9 0 = 3 ∧ physt v 9 2 2 = 2) ∧
    (let v := (sPort { physt := [(9, 5)] }).port 31; physt v 9 2 2 = 1) ∧ (let v := (sPort { physt := [(9, 0x19)] }).port 31; physt v 9 4 2 = 1) := by
  refine ⟨by decide, by decide, by decide, fun b => by simp [ageIndex], by decide, by decide, by decide, by decide, by decide, by decide, by decide, by decide⟩

/-- A message for this device in a send queue, one for a device out of reach, and messages held for rings: one not configured, one
with room, one full, one beyond the object. -/
def msg (d q : Nat) : Msg := { src := 0, dst := d, ctx := 0, rq := q, words := List.replicate 8 7 }
def sMsg : State :=
  { cached with
      mem := memWriteBytes [] 0x50400 (leBytes 8 1),
      ctxs := [(0, { en := true, orb := 0x4000000010000, otdr := 0x20000, mrq := [0, 0x200, 0x400, 0x8000000] ++ List.replicate 12 0 })],
      cores := [(0, { sendq := [{ grp := 16, op := 1, lane := 0, msg := msg 0 1 }] }), (1, { sendq := [{ grp := 16, op := 1, lane := 0, msg := msg 5 1 }] })],
      fab := { reachAll := false, inbox := (List.range 4).map fun q => { msg := msg 0 q } } }

/-- A reducing collective of FP32 elements between ranks 0 and 1, this device rank 0: one element, from VA 0 to VA 0x40. -/
def xColl (h : Bool) : Coll :=
  { num := 5, ctx := 0, comm := 0, grp := 16, pc := 0x100, desc := [0, 0x40, 1, 0xE0, 0, 0, 0, 0], opId := 1, handed := h }
def sColl (h : Bool) : State :=
  { cached with colls := [xColl h],
                ctxs := [(0, { en := true, orb := 0x4000000010000, otdr := 0x20000, ccomm := [(0, BitVec.ofNat 64 (1 + 2 * 2 + 2 ^ 37))] })] }

theorem witness_MessageAndCollectiveEvents :
    (∃ e g, sMsg.nextSend 0 = some e ∧ sMsg.grp? e.grp = some g ∧ g.dirtyMask = 0 ∧ e.msg.dst = sMsg.fab.dev) ∧
    (∃ e g, sMsg.nextSend 1 = some e ∧ sMsg.grp? e.grp = some g ∧ g.dirtyMask = 0 ∧
      (sMsg.modCore 1 fun c => { c with sendq := c.sendq.erase e }).reachable e.msg.dst = false) ∧
    (∀ q ∈ [0, 1, 2, 3], let c := sMsg.ctx 0; let x := sMsg.pdXl 0
      (sMsg.fab.inbox.find? fun x => x.msg.ctx = 0 && x.msg.rq = q) = some { msg := msg 0 q } ∧ sMsg.waits (.msg { msg := msg 0 q }) = false ∧ ((c.ringVa q = 0) = (q = 0)) ∧ c.en = true ∧
      (q = 0 ∨ (match sMsg.span x 3 true (c.ringVa q) 24 with
        | .fault .. => q = 3
        | .ok ps => (match sMsg.spanIn (.msg { msg := msg 0 q }) 0 ps with
         | .ok bs =>
          let f (i : Nat) : Nat := leNat ((bs.drop (8 * i)).take 8)
          decide ((f 0 + 2 ^ 64 - f 1) % 2 ^ 64 < 2 ^ c.ringLog q) = decide (q = 1) && (q = 2 ||
            match sMsg.span x 3 true (c.ringVa q + 64 + 32 * (f 0 % 2 ^ c.ringLog q)) 32 with | .ok _ => true | _ => false)
         | _ => false)
        | _ => false) = true)) ∧
    (∃ x g, (sColl false).coll? 0 5 = some x ∧ (sColl false).grp? x.grp = some g ∧ x.handed = false ∧ x.done = false ∧ g.released x.opId = true ∧
      g.dirtyMask = 0) ∧
    (let s := sColl true; let x := xColl true; let kind := cf x 3 0 3; let ef := cf x 3 5 4; let count := cf x 2 0 40
     let root := cf x 3 15 12; let cx := s.ctx 0; let rank := cx.rank x.comm; let bl := elemBytes ef count
     let peers : List (Nat × List Byte × List Byte) := [(1, [0, 0, 0x80, 0x3F], [])]
     s.coll? 0 5 = some x ∧ x.handed = true ∧ x.done = false ∧ s.waits (.coll 0 5) = false ∧ cf x 3 27 1 = 0 ∧
       (peers.map Prod.fst) = (if kind = 4 then (if rank = root then [] else [root]) else (List.range (cx.nrank x.comm)).filter fun r => r ≠ rank) ∧
       (peers.map Prod.fst).Nodup ∧ (∀ p ∈ peers, p.2.1.length = bl ∧ p.2.2 = []) ∧
       let mine := collSources kind (cx.nrank x.comm) rank root
       (match s.collSpans (s.pdXl 0) 1 false (mine.map (fun b => (cf x 0 0 52 + b * bl, bl)) ++ mine.map fun _ => (cf x 4 0 52, 0)) with
        | .ok sp => (match s.spanIn (.coll 0 5) 0 sp with
         | .ok data =>
          let out := collResult kind (cf x 3 3 2) ef count rank root (cx.rankDev x.comm) (fun b => (data.drop (b * bl)).take bl) (peers.map fun p => (p.1, p.2.1))
          (match s.collSpans (s.pdXl 0) 2 true (out.map fun b => (cf x 1 0 52 + b.1 * bl, bl)) with
           | .ok dp => (match s.spanOut (.coll 0 5) 0 dp (out.flatMap Prod.snd) with | .ok _ => true | _ => false) | _ => false)
         | _ => false)
        | _ => false) = true) :=
  ⟨⟨{ grp := 16, op := 1, lane := 0, msg := msg 0 1 }, g0, rfl, rfl, rfl, by decide⟩,
    ⟨{ grp := 16, op := 1, lane := 0, msg := msg 5 1 }, g0, rfl, rfl, rfl, by decide⟩, by decide +kernel,
    ⟨xColl false, g0, rfl, rfl, rfl, rfl, by decide, rfl⟩, by decide +kernel⟩

/-- The mapped object executable, a word at VA 0x100, its core's instruction cache empty. -/
def code (w : Word) : State :=
  { mapped g0 with plan := [.grp 16], cur := .stratus,
                   mem := memWriteBytes (memWriteBytes mapMem 0x10040 (leBytes 8 (3 + 5 * 2 ^ 2 + 12 * 2 ^ 19))) 0x50100 (leBytes 4 w.toNat) }
/-- A Stratus core awake at a word. -/
def strAt (w : Word) : State := { State.reset with plan := [.stratus], str := { halted := false, code := memWriteBytes [] 0 (leBytes 4 w.toNat) } }

/-- The machine in which the group's turn has come. -/
def turnOf (s : State) : State := { s with cur := .grp 16, plan := [], stalled := false }

/-- A step that runs a unit, an illegal word, a fetch fault, a Stratus unit, an event of the agenda; the end of a cycle; a device that
holds reset. -/
theorem witness_StepRunsTheDecodedInstruction :
    (∀ w ∈ [(0x28512345 : Word), 0x1800003F], (code w).dev.reset = false ∧ (code w).agenda = [] ∧ (code w).plan = [.grp 16] ∧
      (code w).grp? 16 = some g0 ∧ (turnOf (code w)).fetchGrp g0 = .ok [w] ∧
      (match decode g0.inH [w] with | .ok _ => decide (w = 0x28512345) | .error _ => decide (w = 0x1800003F)) = true ∧
      ((turnOf (code w)).core g0.core).icache = [] ∧ w.toNat / 2 ^ 27 < 30 ∧
      (match (turnOf (code w)).xlate ((turnOf (code w)).xl g0) 4 false true g0.pc.toNat 4 with
        | .ok ps => leNat ((turnOf (code w)).spanRead ps) = w.toNat | _ => false) = true) ∧
    (match (turnOf (one g0)).fetchGrp g0 with | .ok _ => false | _ => true) = true ∧
    (let s := strAt 0x28512345; s.dev.reset = false ∧ s.agenda = [] ∧ s.plan = [.stratus] ∧ s.sgrp.pc.toNat + 4 ≤ 0x200000 ∧
      leNat (memReadBytes s.str.code s.sgrp.pc.toNat 4) = 0x28512345 ∧ (decode s.sgrp.inH [(0x28512345 : Word)]).toOption.isSome = true) ∧
    (State.reset.dev.reset = false ∧ State.reset.agenda = [] ∧ State.reset.plan = []) ∧
    (encode .coldReset = [] ∧ encode .nop ≠ [] ∧ ({ State.reset with agenda := [.publishDone] } : State).agenda.head? ≠ some .coldReset ∧
      ({ State.reset with dev := { reset := true } } : State).dev.reset = true) := by
  refine ⟨?_, by decide +kernel, by decide +kernel, by decide +kernel, by decide +kernel⟩
  intro w hw
  simp only [List.mem_cons, List.not_mem_nil, or_false] at hw
  rcases hw with rfl | rfl <;> decide +kernel

theorem witness_RoundTripScalar : (encode (.ssel 9 10 11 (some 12))).getLast?.map majOf = some 3 ∧ wellFormed false (.ssel 9 10 11 (some 12)) = true ∧
    (encode (.sli 63 (-1))).getLast?.map majOf = some 5 ∧ wellFormed true (.sli 63 (-1)) = true := by decide +kernel

/-- The longest unit of the vector majors, with both prefixes. -/
def longV : Instr := .ffma { x := some { g := true, neg := true, pred := 15, xa := 65, xb := 262, rm := 6 }, y := some { e := 127, imm := 1 } } 111 127 96

theorem witness_RoundTripVector : (encode longV).getLast?.map majOf = some 11 ∧ wellFormed false longV = true ∧ (encode longV).length = 3 ∧
    (encode (.vadd Pfx.none 127 0 0)).getLast?.map majOf = some 9 ∧ wellFormed true (.vadd Pfx.none 127 0 0) = true ∧
    (encode (.srseed Pfx.none 63)).getLast?.map majOf = some 15 ∧ wellFormed false (.srseed Pfx.none 63) = true := by decide +kernel

theorem witness_RoundTripEngines : (encode (.ldI8 Pfx.none { d := 95, sb := 63, vo := 127, ord := 1, scope := 3 })).getLast?.map majOf = some 16 ∧
    wellFormed false (.ldI8 Pfx.none { d := 95, sb := 63, vo := 127, ord := 1, scope := 3 }) = true ∧
    (encode (.wait 31 0 31 0)).getLast?.map majOf = some 28 ∧ wellFormed true (.wait 31 0 31 0) = true := by decide +kernel

/-- A step of a machine with memory listed, and one that writes memory: a home slice applies a Cumulus packet. -/
theorem witness_MemoryStaysCanonical : memWf (code 0x28512345).mem = true ∧
    (match step (code 0x28512345) with | .next t => decide (t.mem ≠ []) | _ => false) = true ∧
    (let s := { cached with cuPkts := [{ id := 5, src := 0, bit := 3, ents := [cuE] }], agenda := [.cumulusPacketApply 5 []] }
     memWf s.mem = true ∧ (match step s with | .next t => decide (t.mem ≠ s.mem) | _ => false) = true) := by decide +kernel

/-! ### Hypotheses met: second part -/

/-- Full and empty resident stacks: 16 return entries, 32 reconvergence entries; spilled entries alone. -/
def gStk : Group :=
  { g0 with ret := List.replicate 16 { pc := 0x40, frame := 2 }, recs := List.replicate 32 { kindD := true, pc := 0x80, exm := 3, fmt := 0 } }
def gSpilled : Group := { g0 with retSp := 8, recSp := 8 }

theorem witness_BranchesAndDivergence_stacks :
    (Ready (one gStk) 16 gStk ∧ Clear (one gStk) gStk ∧ gStk.inH = false ∧ 16 ≤ gStk.ret.length ∧ gStk.ret.length + gStk.retSp < 4096 ∧
      gStk.wb + 8 * 63 + 96 ≤ 16384 ∧ (target gStk (1 : BitVec 18).toInt).toNat % 4 = 0 ∧ dstMeet [gStk.sDst 4] gStk.pending = false ∧
      (gStk.readS 4).toNat % 4 = 0 ∧ 32 ≤ gStk.recs.length ∧ gStk.recs.length + gStk.recSp < 4096 ∧
      dstMeet [.p 1] gStk.pending = false ∧ gStk.exm &&& gStk.readP 1 ≠ 0 ∧ gStk.exm &&& ~~~ (gStk.exm &&& gStk.readP 1) ≠ 0) ∧
    (Ready (one gSpilled) 16 gSpilled ∧ Clear (one gSpilled) gSpilled ∧ gSpilled.inH = false ∧ gSpilled.ret = [] ∧ gSpilled.retSp ≠ 0 ∧
      gSpilled.recs = [] ∧ gSpilled.recSp ≠ 0) :=
  ⟨⟨ready_one _ rfl rfl, ⟨rfl, rfl⟩, by decide⟩, ready_one _ rfl rfl, ⟨rfl, rfl⟩, by decide⟩

/-- Two groups of one workgroup. -/
def sTwo : State := { one g0 with groups := [(16, g0), (17, { g0 with slot := 1, idx := 1 })] }

theorem witness_ExitEndsTheGroup_others : Ready sTwo 16 g0 ∧ Clear sTwo g0 ∧ g0.ops = [] ∧ g0.mxq = [] ∧ g0.dirtyMask = 0 ∧ g0.agg = false ∧
    g0.peerP = false ∧ (sTwo.groups.map Prod.fst).Pairwise (· < ·) ∧ g0.inH = false ∧ (∃ kv ∈ sTwo.groups, kv.1 ≠ 16 ∧ kv.2.wg = g0.wg) ∧
    (∃ w, sTwo.wg? g0.wg = some w ∧ w.barArr = []) ∧ (17 : Nat) ≠ 16 :=
  ⟨⟨rfl, rfl, rfl, rfl⟩, ⟨rfl, rfl⟩, rfl, rfl, rfl, rfl, rfl, by decide, rfl, by decide, ⟨_, rfl, rfl⟩, by decide⟩

/-- A handler's group in a workgroup that holds every semaphore, a fault of it recorded or not. -/
def wAll : Workgroup := { w0 with semas := (List.range 64).map fun i => (i, 0) }
def sAll (g : Group) : State := { one g with wgs := [(1, wAll)] }
def ghFlt : Group := { gh with faults := [{ trap := { cause := 7 }, targets := [] }] }
def fields0 : Fields :=
  { a := 4, b := 5, d := 9, p := 1, v := 2, f := 0, m := 1, n := 2, w := 1, t := 0, q := 0, neg := false, o := 1, r := 1, y := { e := 0x11, imm := 5 } }

theorem rest_sAll (g : Group) (h : g.wg = 1) (o : g.ops = []) (m : g.mxq = []) : AtRest (sAll g) g :=
  ⟨o, m, rfl, wAll, by simp only [h]; rfl, rfl, by decide⟩

theorem witness_IssueTraps_barred :
    (∀ g ∈ [gh, ghFlt], Ready (sAll g) 16 g ∧ (sAll g).dieWaits g = false ∧ g.inH = true ∧ AtRest (sAll g) g ∧ ∀ rd wr, Quiet g rd wr) ∧
    (ghFlt.takable = [{ trap := { cause := 7 }, targets := [] }] ∧ ghFlt.lowerDone { trap := { cause := 7 }, targets := [] } = true ∧ gh.takable = []) ∧
    (∃ e ∈ barred gh fields0, e.fp = true ∧ headsFilled gh (queuesOf e.vr) = true) ∧
    (∃ e ∈ barred ghFlt fields0, e.fp = false ∧ headsFilled ghFlt (queuesOf e.vr) = true) ∧
    (Ready (one g0) 16 g0 ∧ CanEnter (one g0) g0 ∧ (one g0).sysCtx g0.ctx = false ∧ g0.counter .ld ≤ 254 ∧ g0.counter .st ≤ 254 ∧
      ∀ rd wr, Quiet g0 rd wr) :=
  ⟨by
    intro g h
    simp only [List.mem_cons, List.not_mem_nil, or_false] at h
    rcases h with rfl | rfl
    · exact ⟨⟨rfl, rfl, rfl, rfl⟩, rfl, rfl, rest_sAll _ rfl rfl rfl, quiet_idle _ rfl rfl⟩
    · exact ⟨⟨rfl, rfl, rfl, rfl⟩, rfl, rfl, rest_sAll _ rfl rfl rfl, fun _ _ => by
        constructor <;> simp [Group.pending, Group.kept, Group.takable, dstMeet, ghFlt, gh, g0]⟩,
   ⟨rfl, rfl, rfl⟩, ⟨_, List.mem_cons_self, rfl, rfl⟩, ⟨⟨.winb 1, false, [], [], []⟩, by simp [barred, fields0], rfl, rfl⟩,
   ready0, enter0, rfl, by decide, by decide, quiet0⟩

theorem witness_GroupKeysRise : (sTwo.groups.map Prod.fst).Pairwise (· < ·) ∧
    (match step sTwo with | .next t => decide (t.groups ≠ []) | _ => false) = true := by decide +kernel

theorem witness_RegisterFilesKeepTheirSizes : (∀ e ∈ sTwo.groups, Files e.2) ∧ Files sTwo.sgrp ∧
    (match step sTwo with | .next t => decide (t.groups ≠ []) | _ => false) = true := by
  refine ⟨fun e h => ?_, ⟨rfl, rfl, rfl⟩, by decide +kernel⟩
  simp only [sTwo, List.mem_cons, List.not_mem_nil, or_false] at h
  rcases h with rfl | rfl <;> exact ⟨rfl, rfl, rfl⟩

/-- Object 2 of context 0, the granule at VA 2^21, lies at device 5 of the domain. -/
def remMem : Mem :=
  let put (m : Mem) (a n v : Nat) : Mem := memWriteBytes m a (leBytes n v)
  put (put (put (put mapMem 0x10080 8 (2 + 27 * 2 ^ 2)) 0x10088 8 (1 + 2 ^ 31)) 0x10098 8 (5 + 3 * 2 ^ 18)) 0x30004 4 0x80000002
def sRem : State := { mapped g0 with mem := remMem, fab := { domain := [5] } }

/-- A lane beyond the object beside a remote lane; a lane whose service has failed. -/
theorem witness_AccessDecision_remote :
    (let o := oDec 16 [0x2000, 0x200010]
     (match o.accs with
      | [a, b] => (sRem.laneRes g0 o a).isFault && (sRem.laneRes g0 o b).remote && !(sRem.laneRes g0 o a).waits && !(sRem.laneRes g0 o b).waits
      | _ => false) = true ∧ o.isAgg = false) ∧
    ({ lane := 0, va := 0, lfault := some (8, 0, 0) } : LaneAcc).lfault = some (8, 0, 0) := by decide +kernel

/-- An all-or-nothing slice whose destination lies at a peer, its peer not asked yet. -/
def slRem : CopySlice := { slV 1 8 false with desc := (slV 1 8 false).desc.set 1 0x200040 }
def sCpRem : State := { sCp slRem true with mem := remMem, fab := { domain := [5] } }
def wRem : Workgroup := { w0 with copies := [{ num := 1, slices := [slRem], started := true }] }

theorem witness_CopyEvents_remote : sCpRem.work? 1 1 0 = some (wRem, slRem) ∧ slRem.fn = 0 ∧ slRem.aon = true ∧ slRem.ver = none ∧
    slRem.vps = [] ∧ slRem.stage = [] ∧ slRem.asked = false ∧
    (match sCpRem.srcsFrom (.slice 1 1 0) wRem slRem slRem.total 0, sCpRem.destsFrom (.slice 1 1 0) wRem slRem slRem.total 0,
        sCpRem.verPlaces (.slice 1 1 0) wRem slRem with
      | .ok _, .ok ds, .ok _ => needsResp ds | _, _, _ => false) = true :=
  ⟨by decide +kernel, rfl, by decide, rfl, rfl, rfl, rfl, by decide +kernel⟩

/-! ### Well-formedness (R31 to R41): for each check a term that it refuses -/

/-- A prefix Y, a prefix X. -/
def yP (e : Fin 128) (imm : BitVec 20) : Pfx := { x := none, y := some { e := e, imm := imm } }
def xP (x : XPre) : Pfx := { x := some x, y := none }
def x0 : XPre := { g := false, neg := false, pred := 0, xa := 0, xb := 0, rm := 0 }
def mem (d : VFld) (ord scope : Fin 4) : MFld := { d := d, sb := 1, vo := 1, ord := ord, scope := scope }

/-- Refused outside handler mode. -/
abbrev IllFormed (l : List Instr) : Prop := (l.all fun i => !wellFormed false i) = true

/-- Operands: a destination of 112; a queue or 112 as a load's destination; an odd pair as source, an odd pair, a queue and 112 as
destination; a quad at 2 and at 93; an odd address pair, one at 96. -/
theorem test_ill_formed_operands : IllFormed [.vadd Pfx.none 112 0 0, .ldB32 Pfx.none (mem 96 0 0), .sins 112 0 0, .vadd64 Pfx.none 0 1 0,
    .vadd64 Pfx.none 0 0 97, .vadd64 Pfx.none 3 0 0, .vadd64 Pfx.none 96 0 0, .vadd64 Pfx.none 112 0 0, .ldB128 Pfx.none (mem 2 0 0),
    .ldB128 Pfx.none (mem 93 0 0), .atomAdd Pfx.none 0 5 0 0, .redAdd Pfx.none false 96 0 0, .oprobe Pfx.none 0 5 0] := by decide +kernel

/-- X: NEG or a predicate without G; identity with an amount, mir 0 and 7, pattern 111; RM 111; a crossbar over no vector source;
RM without rounding. -/
theorem test_ill_formed_x : IllFormed [.vadd (xP { x0 with neg := true }) 0 0 0, .vadd (xP { x0 with pred := 1 }) 0 0 0,
    .vadd (xP { x0 with xa := 1 }) 0 0 0, .vadd (xP { x0 with xa := 256 }) 0 0 0, .vadd (xP { x0 with xb := 263 }) 0 0 0,
    .vadd (xP { x0 with xb := 448 }) 0 0 0, .fadd (xP { x0 with rm := 7 }) 0 0 0, .vaddi (xP { x0 with xb := 64 }) 0 0 0,
    .srseed (xP { x0 with xa := 64 }) 0, .vadd (xP { x0 with rm := 1 }) 0 0 0, .ldo (xP { x0 with xa := 64 }) 0 0 0] := by decide +kernel

/-- Y: E without a third source, IMM20 beyond the peek bit; a third source that D names in a queue; a range missing, downwards, past
v95, longer than 32; E of a load; IMM20 of an atomic; an acquiring and an aggregating release of red; Y where major 21 takes
none, its IMM20. -/
theorem test_ill_formed_y : IllFormed [.vadd (yP 1 0) 0 0 0, .vadd (yP 0 2) 0 0 0, .ffma Pfx.none 96 0 0, .ldm Pfx.none (mem 0 0 0),
    .ldm (yP 3 0) (mem 4 0 0), .ldm (yP 96 0) (mem 70 0 0), .stm (yP 32 0) (mem 0 0 0), .ldB32 (yP 1 0) (mem 0 0 0),
    .atomAdd (yP 0 4) 0 0 0 0, .redAdd (yP 0 1) false 0 0 0, .redAdd (yP 0 2) true 0 0 0, .ldo (yP 0 0) 0 0 0, .ldob Pfx.none 0 0 0,
    .ldob (yP 0 1) 0 0 0, .mwait { e := 0x70, imm := 0 } 0 0 0] := by decide +kernel

/-- Ranges: ORD and SCOPE; sta not rlx; wcas stream; and the ranges that units state for their own fields. -/
theorem test_ill_formed_ranges : IllFormed [.ldB32 Pfx.none (mem 0 0 1), .ldB32 Pfx.none (mem 0 3 2), .sta Pfx.none (mem 0 0 0),
    .ldwB32 Pfx.none (mem 0 1 1), .wcas Pfx.none (mem 0 3 0), .winb 13, .winb 115, .qcfg 0 17, .setfmt 5, .setfmt 0x18, .setfmt 4096,
    .setmode 0, .setmode 7, .setmode 1024, .call 13 0, .calli 0 13, .sshli 0 0 64, .vshli Pfx.none 0 0 32, .cvtfh Pfx.none 0 0 4,
    .cvtf8 Pfx.none 0 0 12, .cvt8f Pfx.none 0 0 32, .fpack4 Pfx.none 0 0 4, .funpk4 Pfx.none 1 0 0, .ldo Pfx.none 0 0 92,
    .stob (yP 0 0) 0 0 62, .fence 0 0, .pfence 0 1, .pfence 1 0, .cpy 0 4 0, .cpy 0 56 0, .cpyb 0 0 0, .mma 0 2, .mma 0 0, .tld 96 0,
    .spawn 2 0 0, .spawn 96 0 0, .sendh 4, .recvq 96 0 0, .coll 0 12, .peerq 0 0 3] := by decide +kernel

/-- In handler mode h0 to h15 are destinations (R32, R33), in even pairs. -/
theorem test_well_formed_handler : ([Instr.vadd Pfx.none 112 0 0, .vadd64 Pfx.none 126 112 0, .ldB128 Pfx.none (mem 124 0 0)].all fun i =>
    wellFormed true i) = true ∧ wellFormed true (.vadd64 Pfx.none 0 113 0) = false := by decide +kernel

/-! ### Decoding (R28 to R41): one word of every unit, written out from its row of the opcode table, every operand field at a value
of its own; units with prefixes; the words that the spec works out; words that are no unit -/

/-- Each list of words decodes, outside handler mode, to its unit, all of its words taken. -/
abbrev Reads (l : List (List Word × Instr)) : Prop :=
  (l.all fun e => match decode false e.1 with | .ok (i, n) => decide (i = e.2) && n = e.1.length | .error _ => false) = true

/-- Each list of words is refused so. -/
abbrev Refused (l : List (List Word × DecodeReject)) : Prop :=
  (l.all fun e => match decode false e.1 with | .ok _ => false | .error r => decide (r = e.2)) = true

theorem test_decode_sequencer : Reads [
      ([0x00000000], .nop),
      ([0x00000001], .exit),
      ([0x00001942], .trap 101),
      ([0x00001943], .brk 101),
      ([0x00000004], .rte),
      ([0x00000005], .yield),
      ([0x00000006], .ret),
      ([0x00001E07], .winb 120),
      ([0x00000008], .vsync),
      ([0x0002A009], .sleep 21),
      ([0x06D003CA], .qcfg 13 15),
      ([0x0002A00B], .qrst 21),
      ([0x00016ACC], .setfmt 1451),
      ([0x0000554D], .setmode 341)] := by decide +kernel

theorem test_decode_scalar_branches : Reads [
      ([0x0803FFFB], .bra (-5)),
      ([0x0C27FFFB], .bz 33 (-5)),
      ([0x0C2BFFFB], .bnz 33 (-5)),
      ([0x0C2FFFFB], .bltz 33 (-5)),
      ([0x0C33FFFB], .bgez 33 (-5)),
      ([0x0977FFFB], .call 11 (-5)),
      ([0x0C38000B], .calli 33 11),
      ([0x0C3C0000], .jmpi 33)] := by decide +kernel

theorem test_decode_vector_branches : Reads [
      ([0x14CFFFF9], .vbr 9 true (-7)),
      ([0x14DFFFF9], .vbrall 9 true (-7)),
      ([0x14EFFFF9], .vbrany 9 true (-7)),
      ([0x103FFFF9], .vjoin (-7))] := by decide +kernel

theorem test_decode_scalar : Reads [
      ([0x1A12AA80], .sadd 33 21 42),
      ([0x1A12AA81], .ssub 33 21 42),
      ([0x1A12AA82], .smul 33 21 42),
      ([0x1A12AA83], .smulh 33 21 42),
      ([0x1A12AA84], .smulhn 33 21 42),
      ([0x1A12AA85], .sdiv 33 21 42),
      ([0x1A12AA86], .sdivn 33 21 42),
      ([0x1A12AA87], .srem 33 21 42),
      ([0x1A12AA88], .sremn 33 21 42),
      ([0x1A12AA89], .sand 33 21 42),
      ([0x1A12AA8A], .sor 33 21 42),
      ([0x1A12AA8B], .sxor 33 21 42),
      ([0x1A12AA8C], .sandn 33 21 42),
      ([0x1A12AA8D], .sshl 33 21 42),
      ([0x1A12AA8E], .sshr 33 21 42),
      ([0x1A12AA8F], .ssra 33 21 42),
      ([0x1A12AA90], .srol 33 21 42),
      ([0x1A12AA91], .smin 33 21 42),
      ([0x1A12AA92], .smax 33 21 42),
      ([0x1A12AA93], .sminn 33 21 42),
      ([0x1A12AA94], .smaxn 33 21 42),
      ([0x1A12AA95], .sceq 33 21 42),
      ([0x1A12AA96], .scne 33 21 42),
      ([0x1A12AA97], .sclt 33 21 42),
      ([0x1A12AA98], .scle 33 21 42),
      ([0x1A12AA99], .scltn 33 21 42),
      ([0x1A12AA9A], .sclen 33 21 42),
      ([0x1A12AA9B], .ssel 33 21 42 none)] := by decide +kernel

theorem test_decode_scalar_immediate : Reads [
      ([0x2212A3FB], .saddi 33 21 (-5)),
      ([0x2212A7FB], .sandi 33 21 (-5)),
      ([0x2212ABFB], .sori 33 21 (-5)),
      ([0x2212AFFB], .sxori 33 21 (-5)),
      ([0x2212B01D], .sshli 33 21 29),
      ([0x2212B41D], .sshri 33 21 29),
      ([0x2212B81D], .ssrai 33 21 29),
      ([0x2212BFFB], .sclti 33 21 (-5))] := by decide +kernel

theorem test_decode_long_immediates : Reads [
      ([0x2A1FFFF9], .sli 33 (-7)),
      ([0x321FFFF9], .slih 33 (-7)),
      ([0x3A1FFFF9], .sadpc 33 (-7))] := by decide +kernel

theorem test_decode_special_and_lane_moves : Reads [
      ([0x42122000], .mfs 33 17),
      ([0x4052A001], .mts 5 21),
      ([0x42158A82], .sext 33 44 42),
      ([0x4442AA83], .sins 68 21 42),
      ([0x4212A004], .spopc 33 21),
      ([0x4212A005], .sclz 33 21),
      ([0x4212A006], .sctz 33 21),
      ([0x4212A007], .sbrev 33 21),
      ([0x4210C008], .sfirst 33 6),
      ([0x4210C009], .sballot 33 6),
      ([0x4092A00A], .smask 9 21)] := by decide +kernel

theorem test_decode_vector_integer : Reads [
      ([0x4C458680], .vadd Pfx.none 68 44 26),
      ([0x4C458681], .vsub Pfx.none 68 44 26),
      ([0x4C458682], .vmul Pfx.none 68 44 26),
      ([0x4C458683], .vmulh Pfx.none 68 44 26),
      ([0x4C458684], .vmulhn Pfx.none 68 44 26),
      ([0x4C458685], .vmad Pfx.none 68 44 26),
      ([0x4C458686], .vdiv Pfx.none 68 44 26),
      ([0x4C458687], .vdivn Pfx.none 68 44 26),
      ([0x4C458688], .vrem Pfx.none 68 44 26),
      ([0x4C458689], .vremn Pfx.none 68 44 26),
      ([0x4C45868A], .vmin Pfx.none 68 44 26),
      ([0x4C45868B], .vmax Pfx.none 68 44 26),
      ([0x4C45868C], .vminn Pfx.none 68 44 26),
      ([0x4C45868D], .vmaxn Pfx.none 68 44 26),
      ([0x4C45800E], .vabs Pfx.none 68 44),
      ([0x4C45868F], .vand Pfx.none 68 44 26),
      ([0x4C458690], .vor Pfx.none 68 44 26),
      ([0x4C458691], .vxor Pfx.none 68 44 26),
      ([0x4C458692], .vandn Pfx.none 68 44 26),
      ([0x4C458693], .vshl Pfx.none 68 44 26),
      ([0x4C458694], .vshr Pfx.none 68 44 26),
      ([0x4C458695], .vsra Pfx.none 68 44 26),
      ([0x4C458696], .vrol Pfx.none 68 44 26),
      ([0x4C458697], .vfsh Pfx.none 68 44 26),
      ([0x4C458018], .vpopc Pfx.none 68 44),
      ([0x4C458019], .vclz Pfx.none 68 44),
      ([0x4C45801A], .vbrev Pfx.none 68 44),
      ([0x4C45869B], .vbfe Pfx.none 68 44 26),
      ([0x4C45869C], .vbfi Pfx.none 68 44 26),
      ([0x4C45869D], .vclmul Pfx.none 68 44 26),
      ([0x4C45869E], .vclmulh Pfx.none 68 44 26),
      ([0x4C45869F], .vsadd Pfx.none 68 44 26),
      ([0x4C4586A0], .vssub Pfx.none 68 44 26),
      ([0x4C4586A1], .vadd64 Pfx.none 68 44 26),
      ([0x4C4586A2], .vsub64 Pfx.none 68 44 26),
      ([0x4C458023], .vmov Pfx.none 68 44),
      ([0x4C4586A4], .vdot4 Pfx.none 68 44 26),
      ([0x4C4586A5], .vdot4n Pfx.none 68 44 26)] := by decide +kernel

theorem test_decode_vector_immediate : Reads [
      ([0x544583FB], .vaddi Pfx.none 68 44 (-5)),
      ([0x544587FB], .vandi Pfx.none 68 44 (-5)),
      ([0x54458BFB], .vori Pfx.none 68 44 (-5)),
      ([0x54458FFB], .vxori Pfx.none 68 44 (-5)),
      ([0x5445901D], .vshli Pfx.none 68 44 29),
      ([0x5445941D], .vshri Pfx.none 68 44 29),
      ([0x5445981D], .vsrai Pfx.none 68 44 29),
      ([0x54459FFB], .vmuli Pfx.none 68 44 (-5))] := by decide +kernel

theorem test_decode_vector_float : Reads [
      ([0x5C458680], .fadd Pfx.none 68 44 26),
      ([0x5C458681], .fsub Pfx.none 68 44 26),
      ([0x5C458682], .fmul Pfx.none 68 44 26),
      ([0x5C458683], .ffma Pfx.none 68 44 26),
      ([0x5C458684], .ffms Pfx.none 68 44 26),
      ([0x5C458685], .fnma Pfx.none 68 44 26),
      ([0x5C458686], .fmin Pfx.none 68 44 26),
      ([0x5C458687], .fmax Pfx.none 68 44 26),
      ([0x5C458688], .fminm Pfx.none 68 44 26),
      ([0x5C458689], .fmaxm Pfx.none 68 44 26),
      ([0x5C45800A], .fabs Pfx.none 68 44),
      ([0x5C45800B], .fneg Pfx.none 68 44),
      ([0x5C45868C], .fcpys Pfx.none 68 44 26),
      ([0x5C45868D], .fdot2 Pfx.none 68 44 26),
      ([0x5C45868E], .hadd2 Pfx.none 68 44 26),
      ([0x5C45868F], .hmul2 Pfx.none 68 44 26),
      ([0x5C458690], .hfma2 Pfx.none 68 44 26),
      ([0x5C458011], .fround Pfx.none 68 44),
      ([0x5C458692], .fldexp Pfx.none 68 44 26),
      ([0x5C458013], .fgetexp Pfx.none 68 44)] := by decide +kernel

theorem test_decode_compares : Reads [
      ([0x60958680], .vceq Pfx.none 9 44 26),
      ([0x60958681], .vcne Pfx.none 9 44 26),
      ([0x60958682], .vclt Pfx.none 9 44 26),
      ([0x60958683], .vcle Pfx.none 9 44 26),
      ([0x60958684], .vcltn Pfx.none 9 44 26),
      ([0x60958685], .vclen Pfx.none 9 44 26),
      ([0x60958686], .fceq Pfx.none 9 44 26),
      ([0x60958687], .fcne Pfx.none 9 44 26),
      ([0x60958688], .fclt Pfx.none 9 44 26),
      ([0x60958689], .fcle Pfx.none 9 44 26),
      ([0x6095868A], .fcun Pfx.none 9 44 26),
      ([0x6095868B], .fcls Pfx.none 9 44 26),
      ([0x6090C0CC], .pand Pfx.none 9 6 3),
      ([0x6090C0CD], .por Pfx.none 9 6 3),
      ([0x6090C0CE], .pxor Pfx.none 9 6 3),
      ([0x6090C0CF], .pandn Pfx.none 9 6 3),
      ([0x6090C010], .pnot Pfx.none 9 6),
      ([0x644580D1], .vmrg Pfx.none 68 44 3)] := by decide +kernel

theorem test_decode_lanes : Reads [
      ([0x6C458680], .vperm Pfx.none 68 44 26),
      ([0x6C458681], .vlane Pfx.none 68 44 26),
      ([0x6A158002], .vredadd Pfx.none 33 44),
      ([0x6A158003], .vredmin Pfx.none 33 44),
      ([0x6A158004], .vredmax Pfx.none 33 44),
      ([0x6A158005], .vredminn Pfx.none 33 44),
      ([0x6A158006], .vredmaxn Pfx.none 33 44),
      ([0x6A158007], .vredand Pfx.none 33 44),
      ([0x6A158008], .vredor Pfx.none 33 44),
      ([0x6A158009], .vredxor Pfx.none 33 44),
      ([0x6A15800A], .fredadd Pfx.none 33 44),
      ([0x6A15800B], .fredmin Pfx.none 33 44),
      ([0x6A15800C], .fredmax Pfx.none 33 44),
      ([0x6C45800D], .vscan Pfx.none 68 44),
      ([0x6C45800E], .vscanx Pfx.none 68 44),
      ([0x6C45800F], .fscan Pfx.none 68 44),
      ([0x6C458010], .vcompact Pfx.none 68 44),
      ([0x6C458011], .vexpand Pfx.none 68 44),
      ([0x6C458012], .vmatch Pfx.none 68 44)] := by decide +kernel

theorem test_decode_transcendentals : Reads [
      ([0x74458000], .frcp Pfx.none 68 44),
      ([0x74458001], .frsq Pfx.none 68 44),
      ([0x74458002], .fsqrt Pfx.none 68 44),
      ([0x74458683], .fdiv Pfx.none 68 44 26),
      ([0x74458004], .fexp2 Pfx.none 68 44),
      ([0x74458005], .flog2 Pfx.none 68 44),
      ([0x74458006], .fsin Pfx.none 68 44),
      ([0x74458007], .fcos Pfx.none 68 44),
      ([0x74458008], .ftanh Pfx.none 68 44),
      ([0x74458009], .fsig Pfx.none 68 44),
      ([0x7445800A], .ferf Pfx.none 68 44)] := by decide +kernel

theorem test_decode_conversions : Reads [
      ([0x7C458000], .cvtfi Pfx.none 68 44),
      ([0x7C458001], .cvtfn Pfx.none 68 44),
      ([0x7C458002], .cvtif Pfx.none 68 44),
      ([0x7C458003], .cvtnf Pfx.none 68 44),
      ([0x7C4580C4], .cvtfh Pfx.none 68 44 3),
      ([0x7C4580C5], .cvthf Pfx.none 68 44 3),
      ([0x7C458286], .cvtf8 Pfx.none 68 44 10),
      ([0x7C458287], .cvt8f Pfx.none 68 44 10),
      ([0x7C458088], .fpack4 Pfx.none 68 44 2),
      ([0x7C458089], .funpk4 Pfx.none 68 44 2),
      ([0x7A15800A], .mxscl Pfx.none 33 44),
      ([0x7C458A8B], .mxq Pfx.none 68 44 42),
      ([0x7C458A8C], .mxdq Pfx.none 68 44 42),
      ([0x7802A00D], .srseed Pfx.none 21)] := by decide +kernel

theorem test_decode_loads : Reads [
      ([0x8445728B], .ldI8 Pfx.none { d := 68, sb := 21, vo := 101, ord := 2, scope := 3 }),
      ([0x8445729B], .ldN8 Pfx.none { d := 68, sb := 21, vo := 101, ord := 2, scope := 3 }),
      ([0x844572AB], .ldI16 Pfx.none { d := 68, sb := 21, vo := 101, ord := 2, scope := 3 }),
      ([0x844572BB], .ldN16 Pfx.none { d := 68, sb := 21, vo := 101, ord := 2, scope := 3 }),
      ([0x844572CB], .ldB32 Pfx.none { d := 68, sb := 21, vo := 101, ord := 2, scope := 3 }),
      ([0x844572DB], .ldB64 Pfx.none { d := 68, sb := 21, vo := 101, ord := 2, scope := 3 }),
      ([0x844572EB], .ldB128 Pfx.none { d := 68, sb := 21, vo := 101, ord := 2, scope := 3 })] := by decide +kernel

theorem test_decode_stores : Reads [
      ([0x8C45728B], .stB8 Pfx.none { d := 68, sb := 21, vo := 101, ord := 2, scope := 3 }),
      ([0x8C45729B], .stB16 Pfx.none { d := 68, sb := 21, vo := 101, ord := 2, scope := 3 }),
      ([0x8C4572AB], .stB32 Pfx.none { d := 68, sb := 21, vo := 101, ord := 2, scope := 3 }),
      ([0x8C4572BB], .stB64 Pfx.none { d := 68, sb := 21, vo := 101, ord := 2, scope := 3 }),
      ([0x8C4572CB], .stB128 Pfx.none { d := 68, sb := 21, vo := 101, ord := 2, scope := 3 }),
      ([0x8C4572E7], .sta Pfx.none { d := 68, sb := 21, vo := 101, ord := 1, scope := 3 }),
      ([0x8C4572F7], .sta64 Pfx.none { d := 68, sb := 21, vo := 101, ord := 1, scope := 3 })] := by decide +kernel

theorem test_decode_atomics : Reads [
      ([0x94458682], .atomAdd Pfx.none 68 44 26 2),
      ([0x94458686], .atomSub Pfx.none 68 44 26 2),
      ([0x9445868A], .atomMin Pfx.none 68 44 26 2),
      ([0x9445868E], .atomMax Pfx.none 68 44 26 2),
      ([0x94458692], .atomMinn Pfx.none 68 44 26 2),
      ([0x94458696], .atomMaxn Pfx.none 68 44 26 2),
      ([0x9445869A], .atomAnd Pfx.none 68 44 26 2),
      ([0x9445869E], .atomOr Pfx.none 68 44 26 2),
      ([0x944586A2], .atomXor Pfx.none 68 44 26 2),
      ([0x944586A6], .atomXchg Pfx.none 68 44 26 2),
      ([0x944586AA], .atomCas Pfx.none 68 44 26 2),
      ([0x944586AE], .atomFadd Pfx.none 68 44 26 2),
      ([0x944586B2], .atomFmin Pfx.none 68 44 26 2),
      ([0x944586B6], .atomFmax Pfx.none 68 44 26 2),
      ([0x944586BA], .atomBfadd2 Pfx.none 68 44 26 2),
      ([0x944586BE], .atomIncw Pfx.none 68 44 26 2)] := by decide +kernel

theorem test_decode_reductions : Reads [
      ([0x98158682], .redAdd Pfx.none true 44 26 2),
      ([0x98158686], .redSub Pfx.none true 44 26 2),
      ([0x9815868A], .redMin Pfx.none true 44 26 2),
      ([0x9815868E], .redMax Pfx.none true 44 26 2),
      ([0x98158692], .redMinn Pfx.none true 44 26 2),
      ([0x98158696], .redMaxn Pfx.none true 44 26 2),
      ([0x9815869A], .redAnd Pfx.none true 44 26 2),
      ([0x9815869E], .redOr Pfx.none true 44 26 2),
      ([0x981586A2], .redXor Pfx.none true 44 26 2),
      ([0x981586A6], .redFadd Pfx.none true 44 26 2),
      ([0x981586AA], .redFmin Pfx.none true 44 26 2),
      ([0x981586AE], .redFmax Pfx.none true 44 26 2),
      ([0x981586B2], .redBfadd2 Pfx.none true 44 26 2)] := by decide +kernel

theorem test_decode_wgm : Reads [
      ([0xA4457284], .ldwB32 Pfx.none { d := 68, sb := 21, vo := 101, ord := 1, scope := 0 }),
      ([0xA4457294], .ldwB64 Pfx.none { d := 68, sb := 21, vo := 101, ord := 1, scope := 0 }),
      ([0xA44572A4], .ldwB128 Pfx.none { d := 68, sb := 21, vo := 101, ord := 1, scope := 0 }),
      ([0xA44572B4], .stwB32 Pfx.none { d := 68, sb := 21, vo := 101, ord := 1, scope := 0 }),
      ([0xA44572C4], .stwB64 Pfx.none { d := 68, sb := 21, vo := 101, ord := 1, scope := 0 }),
      ([0xA44572D4], .stwB128 Pfx.none { d := 68, sb := 21, vo := 101, ord := 1, scope := 0 }),
      ([0xA44572E4], .wadd Pfx.none { d := 68, sb := 21, vo := 101, ord := 1, scope := 0 }),
      ([0xA44572F4], .wcas Pfx.none { d := 68, sb := 21, vo := 101, ord := 1, scope := 0 })] := by decide +kernel

theorem test_decode_object_accesses : Reads [
      ([0xAC42A680], .ldo Pfx.none 68 21 26),
      ([0xAC42A681], .sto Pfx.none 68 21 26),
      ([0xAA12A144], .oinfo Pfx.none 33 21 5),
      ([0xA8958A85], .oprobe Pfx.none 9 44 42)] := by decide +kernel

theorem test_decode_fences : Reads [
      ([0xB00001C0], .fence 1 3),
      ([0xB0012141], .pfence 9 5),
      ([0xB0000003], .fla),
      ([0xB002A004], .cinv 21),
      ([0xB002A005], .cwb 21),
      ([0xB212A006], .crsz 33 21),
      ([0xB002A047], .pref 21 1)] := by decide +kernel

theorem test_decode_copies : Reads [
      ([0xBA130140], .cpy 33 24 5),
      ([0xBA130141], .cpyb 33 24 5),
      ([0xBA130142], .cpyt 33 24 5),
      ([0xBA130143], .cpyx 33 24 5),
      ([0xBA130144], .gath 33 24 5),
      ([0xBA130145], .scat 33 24 5),
      ([0xBA130146], .scata 33 24 5)] := by decide +kernel

theorem test_decode_matrix : Reads [
      ([0xC2138000], .mma 33 28),
      ([0xC2138001], .mxloop 33 28),
      ([0xC212A002], .mxzero 33 21),
      ([0xC442A003], .tld 68 21),
      ([0xC442A004], .tst 68 21),
      ([0xC002A005], .mxcfg 21),
      ([0xC212A006], .mxrel 33 21)] := by decide +kernel

theorem test_decode_synchronization : Reads [
      ([0xCA10CA80], .balloc 33 6 42),
      ([0xC802A001], .bfree 21),
      ([0xCA12A002], .barv 33 21),
      ([0xC802AA83], .barw 21 42),
      ([0xC802AA84], .barx 21 42),
      ([0xC8000005], .bar),
      ([0xC8000045], .barPx),
      ([0xC802AA86], .semaAdd 21 42),
      ([0xC812AA86], .semaSet 21 42),
      ([0xC802AA87], .semw 21 42),
      ([0xCA12A008], .tlrd 33 21),
      ([0xC802AA89], .tlwait 21 42),
      ([0xC801214A], .waitk 9 5),
      ([0xC822A00B], .waitr 2 21),
      ([0xCC42A68C], .spawn 68 21 26)] := by decide +kernel

theorem test_decode_fabric : Reads [
      ([0xD4800000], .sendh 72),
      ([0xD482A0C1], .recvq 72 21 3),
      ([0xD2130002], .coll 33 24),
      ([0xD0958083], .peerq 9 44 2)] := by decide +kernel

theorem test_decode_management : Reads [
      ([0xDA12A000], .launch 33 21),
      ([0xDA12AA81], .preempt 33 21 42),
      ([0xDA12AA82], .resume 33 21 42),
      ([0xDA12A003], .cfgrd 33 21),
      ([0xD802AA84], .cfgwr 21 42)] := by decide +kernel

theorem test_decode_wait : Reads [
      ([0xE7AA9180], .wait 30 21 9 3)] := by decide +kernel

/-- The words that the spec works out in its text: R78 to R80, R120, R131, R134, R143, R177, R179, R181, R319, R329, R330, R333. -/
theorem test_decode_worked : Reads [
      ([0xD850C000], .launch 5 6), ([0xC880850C], .spawn 8 4 20), ([0xD850C1C1], .preempt 5 6 7), ([0x08940080], .call 4 0x80),
      ([0x09380002], .calli 9 2), ([0x093C0000], .jmpi 9), ([0x1870E141], .ssub 7 7 5),
      ([0xF0C00000, 0x189142DB], .ssel 9 10 11 (some 12)), ([0x204083F8], .saddi 4 4 (-8)), ([0x2060B003], .sshli 6 5 3),
      ([0x28512345], .sli 5 0x12345), ([0x3056789A], .slih 5 0x6789A), ([0x305BCDEF], .slih 5 (-0x43211)),
      ([0x40822000], .mfs 8 0x11), ([0x4000A001], .mts 0 5), ([0x50408001], .vaddi Pfx.none 4 4 1),
      ([0x50205004], .vshli Pfx.none 2 2 4), ([0x50913FFD], .vmuli Pfx.none 9 9 (-3)), ([0x788140C8], .fpack4 Pfx.none 8 10 3),
      ([0x7800A00D], .srseed Pfx.none 5), ([0x79E1424B], .mxq Pfx.none 30 10 9),
      ([0xF8000002, 0x78206000], .cvtfi { x := some { g := false, neg := false, pred := 0, xa := 0, xb := 0, rm := 2 }, y := none } 2 3),
      ([0xF0100064, 0xB0908142], .mwait { e := 1, imm := 100 } 9 4 5), ([0xF2100000, 0xB0908142], .mwait { e := 0x21, imm := 0 } 9 4 5),
      ([0xB0000240], .fence 2 1), ([0xB0004101], .pfence 2 4), ([0xB0000003], .fla),
      ([0x981280C2], .redAdd Pfx.none true 20 3 2), ([0x98119D82], .redAdd Pfx.none true 12 118 2),
      ([0xB8920044], .gath 9 16 1), ([0x0000024D], .setmode 9),
      ([0x80C2B84A], .ldB32 Pfx.none { d := 12, sb := 10, vo := 112, ord := 2, scope := 2 }),
      ([0x80D3384A], .ldB32 Pfx.none { d := 13, sb := 12, vo := 112, ord := 2, scope := 2 }),
      ([0xC840C20C], .spawn 4 6 8)] := by decide +kernel

/-- The words that the spec lists with its units: the tables of its chapters (vector, float, compares, lanes, special
functions, loads and stores, cache units, WGM, objects, atomics, aggregating stores, management). -/
theorem test_decode_tables : Reads [
      ([0x48308140], .vadd Pfx.none 3 4 5), ([0x4860FCD5], .vsra Pfx.none 6 7 115), ([0x48A040DD], .vclmul Pfx.none 10 2 3),
      ([0x48814321], .vadd64 Pfx.none 8 10 12), ([0xF0400000, 0x481040D7], .vfsh (yP 4 0) 1 2 3),
      ([0x588040C3], .ffma Pfx.none 8 2 3), ([0xF0D00000, 0x58A16310], .hfma2 (yP 13 0) 10 11 12),
      ([0xF8000003, 0x58102080], .fadd (xP { x0 with rm := 3 }) 1 1 2), ([0x6020C1C8], .fclt Pfx.none 2 6 7),
      ([0x60109C8B], .fcls Pfx.none 1 4 114), ([0x6040A18F], .pandn Pfx.none 4 5 6), ([0x6050C0D1], .vmrg Pfx.none 5 6 3),
      ([0x68908002], .vredadd Pfx.none 9 4), ([0x6942A00F], .fscan Pfx.none 20 21), ([0x69E3E012], .vmatch Pfx.none 30 31),
      ([0x70C1C009], .fsig Pfx.none 12 14), ([0xF8000002, 0x7050C1C3], .fdiv (xP { x0 with rm := 2 }) 5 6 7),
      ([0xF80C1000, 0x48206023], .vmov (xP { x0 with xa := 0xC1 }) 2 3), ([0xF8000700, 0x48100000], .vadd (xP { x0 with xb := 0xE0 }) 1 0 0),
      ([0x80318380], .ldI8 Pfx.none { d := 3, sb := 6, vo := 7, ord := 0, scope := 0 }),
      ([0xF0000008, 0x80A13850], .ldB64 (yP 0 8) { d := 10, sb := 4, vo := 112, ord := 0, scope := 0 }),
      ([0x88523829], .stB32 Pfx.none { d := 5, sb := 8, vo := 112, ord := 2, scope := 1 }),
      ([0xFC441000, 0x885200A0], .stB32 (xP { x0 with g := true, pred := 2, xa := 65 }) { d := 5, sb := 8, vo := 1, ord := 0, scope := 0 }),
      ([0x8E210320], .stB32 Pfx.none { d := 98, sb := 4, vo := 6, ord := 0, scope := 0 }),
      ([0x894281CC], .stB128 Pfx.none { d := 20, sb := 10, vo := 3, ord := 3, scope := 0 }),
      ([0xE03FFF80], .wait 0 31 31 31), ([0xE081FF80], .wait 2 0 31 31), ([0xC810A00B], .waitr 1 5),
      ([0xB0000004], .cinv 0), ([0xB000A004], .cinv 5), ([0xB000A005], .cwb 5), ([0xB060E006], .crsz 6 7), ([0xB000A047], .pref 5 1),
      ([0xF0000040, 0xA060C100], .ldwB32 (yP 0 64) { d := 6, sb := 3, vo := 2, ord := 0, scope := 0 }),
      ([0xA0C081C0], .stwB64 Pfx.none { d := 12, sb := 2, vo := 3, ord := 0, scope := 0 }),
      ([0xA0417868], .wadd Pfx.none { d := 4, sb := 5, vo := 112, ord := 2, scope := 0 }),
      ([0xA08004F0], .wcas Pfx.none { d := 8, sb := 0, vo := 9, ord := 0, scope := 0 }),
      ([0xA8608280], .ldo Pfx.none 6 4 10), ([0xFC200000, 0xA8608280], .ldo (xP { x0 with g := true, pred := 1 }) 6 4 10),
      ([0xA8608281], .sto Pfx.none 6 4 10), ([0xF1700000, 0xA9008202], .ldob (yP 23 0) 16 4 8),
      ([0xF1700000, 0xA9008203], .stob (yP 23 0) 16 4 8), ([0xA87080C4], .oinfo Pfx.none 7 4 3), ([0xA8228145], .oprobe Pfx.none 2 20 5),
      ([0x906280EA], .atomCas Pfx.none 6 20 3 2), ([0xFC400000, 0x90414141], .atomAdd (xP { x0 with g := true, pred := 2 }) 4 10 5 1),
      ([0x90815D7C], .atomIncw Pfx.none 8 10 117 0), ([0x9023C27B], .atomBfadd2 Pfx.none 2 30 9 3),
      ([0x980280C3], .redAdd Pfx.none false 20 3 3), ([0xF0000002, 0x980280E6], .redFadd (yP 0 2) false 20 3 2),
      ([0x885104E6], .sta Pfx.none { d := 5, sb := 4, vo := 9, ord := 1, scope := 2 }),
      ([0xF0000010, 0x8881B877], .sta64 (yP 0 16) { d := 8, sb := 6, vo := 112, ord := 1, scope := 3 }),
      ([0xFC400000, 0x885200E4], .sta (xP { x0 with g := true, pred := 2 }) { d := 5, sb := 8, vo := 1, ord := 1, scope := 0 }),
      ([0xD8910003], .cfgrd 9 8), ([0xD972A003], .cfgrd 23 21), ([0xD8010144], .cfgwr 8 5), ([0xD8028584], .cfgwr 20 22),
      ([0xF1700000, 0x81014170], .ldm (yP 23 0) { d := 16, sb := 5, vo := 2, ord := 0, scope := 0 })] ∧
    Refused [([0xF8000001, 0x70206000], .badBase 0x70206000), ([0x906260EA], .badBase 0x906260EA)] := by decide +kernel

/-- Prefixes bit by bit (R35): a guard with crossbars and rounding, a peek, third sources, a register range with an offset, an
ordering, a range of an object access; X before Y. -/
theorem test_decode_prefixes : Reads [
      -- X: MAJ 11111, G 1, NEG 1, PRED 0101, XA 001 000001, XB 011 000010, RM 010; fadd v2, v0, s3
      ([0b11111_1_1_0101_001000001_011000010_010, 0b01011_0000010_0000000_1110011_000000],
        .fadd { x := some { g := true, neg := true, pred := 5, xa := 65, xb := 194, rm := 2 }, y := none } 2 0 115),
      -- Y: MAJ 11110, E 0, IMM20 1; vmov v1, q0
      ([0b11110_0000000_00000000000000000001, 0b01001_0000001_1100000_0000000_100011], .vmov { x := none, y := some { e := 0, imm := 1 } } 1 96),
      -- Y: E 5; ffma v1, v2, v3
      ([0b11110_0000101_00000000000000000000, 0b01011_0000001_0000010_0000011_000011], .ffma { x := none, y := some { e := 5, imm := 0 } } 1 2 3),
      -- X: G, p15, XA mir 6; Y: IMM20 -4; ld.b32 v9, [s8 + v1]
      ([0b11111_1_0_1111_100000110_000000000_000, 0b11110_0000000_11111111111111111100, 0b10000_0001001_001000_0000001_100_00_00],
        .ldB32 { x := some { g := true, neg := false, pred := 15, xa := 262, xb := 0, rm := 0 }, y := some { e := 0, imm := -4 } }
          { d := 9, sb := 8, vo := 1, ord := 0, scope := 0 }),
      -- Y: E 95, IMM20 64; ldm v64-v95, [s21 + s0], rlx SYS
      ([0b11110_1011111_00000000000001000000, 0b10000_1000000_010101_1110000_111_01_11],
        .ldm { x := none, y := some { e := 95, imm := 64 } } { d := 64, sb := 21, vo := 112, ord := 1, scope := 3 }),
      ([0b11110_0000011_00000000000000000000, 0b10001_0000011_010101_1110000_101_00_00],
        .stm { x := none, y := some { e := 3, imm := 0 } } { d := 3, sb := 21, vo := 112, ord := 0, scope := 0 }),
      -- Y: IMM20 3 (acqrel); atom.cas v2, [v4], v6 at SYS
      ([0b11110_0000000_00000000000000000011, 0b10010_0000010_0000100_0000110_1010_11], .atomCas { x := none, y := some { e := 0, imm := 3 } } 2 4 6 3),
      ([0b11110_0001000_00000000000000000000, 0b10101_0000111_0001001_0111101_000010], .ldob { x := none, y := some { e := 8, imm := 0 } } 7 9 61),
      ([0b11110_0001000_00000000000000000000, 0b10101_0000111_0001001_0111101_000011], .stob { x := none, y := some { e := 8, imm := 0 } } 7 9 61)]
    := by decide +kernel

/-- Words that are no unit (R31, R34, R45): each of the four checks, and the earlier of two that fail. -/
theorem test_decode_refuses : Refused [
      -- MAJ 29; a reserved function code; a reserved bit of nop; a scalar field of 64; W[6:0] not zero
      ([0xE8000000], .reservedMajor 0xE8000000), ([0x1800003F], .badBase 0x1800003F), ([0x00000040], .badBase 0x00000040),
      ([0x1C000000], .badBase 0x1C000000), ([0xE0000001], .badBase 0xE0000001),
      -- X after X, X after Y, Y after Y
      ([0xF8000000, 0xF8000001, 0x48000000], .prefixOrder 0xF8000001), ([0xF0000000, 0xF8000000, 0x48000000], .prefixOrder 0xF8000000),
      ([0xF0000000, 0xF0000001, 0x48000000], .prefixOrder 0xF0000001),
      -- NEG without G; crossbar pattern 111; RM 111; X before major 3; Y before major 28
      ([0xFA000000, 0x48000000], .badPrefix 0xFA000000), ([0xF81C0000, 0x48000000], .badPrefix 0xF81C0000),
      ([0xF8000007, 0x58000000], .badPrefix 0xF8000007), ([0xFC000000, 0x18000001], .badPrefix 0xFC000000),
      ([0xF0000000, 0xE0000000], .badPrefix 0xF0000000),
      -- RM on a unit that does not round; E where there is no third source; a vector destination of 112 outside handler mode
      ([0xF8000001, 0x48000000], .badBase 0x48000000), ([0xF0100000, 0x48000000], .badBase 0x48000000), ([0x4F000000], .badBase 0x4F000000),
      -- MAJ 29 under a bad prefix, and after a misplaced one: check 1 comes first
      ([0xF0000000, 0xF8000000, 0xE8000000], .reservedMajor 0xE8000000), ([0xFA000000, 0xE8000000], .reservedMajor 0xE8000000), ([0xF0000000], .truncated), ([], .truncated)] := by decide +kernel

/-! ### Steps from reset: a word where `step` fetches next, one step, one field of what follows -/

/-- A field of the machine after one step that runs a unit first after reset. -/
noncomputable def after {α : Type} (n w : Nat) (f : State → Group → α) : Option α :=
  match step (State.reset.withFetchWord n w) with
  | .next t => (t.grp? 16).map fun g => f t g
  | _ => none

/-- R132: `sli s5, 0x12345`. -/
theorem test_step_sli : (after 32 0x28512345 fun _ g => (g.readS 5, g.pc)) = some (0x12345, 4) := by decide +kernel
/-- R132: `slih s5, 0x6789A` over 0. -/
theorem test_step_slih : (after 32 0x3056789A fun _ g => g.readS 5) = some 0x6789A := by decide +kernel
/-- R131: `saddi s4, s4, -8` from 0 wraps. -/
theorem test_step_saddi : (after 32 0x204083F8 fun _ g => g.readS 4) = some 0xFFFFFFFFFFFFFFF8 := by decide +kernel
/-- R34: a write to s0 is discarded: `sli s0, 1`. -/
theorem test_step_sli_s0 : (after 32 0x28000001 fun _ g => (g.readS 0, g.pc)) = some (0, 4) := by decide +kernel
/-- R133: `sadpc s3, -1` at PC 0. -/
theorem test_step_sadpc : (after 32 0x383FFFFF fun _ g => g.readS 3) = some 0xFFFFFFFFFFFFFFFC := by decide +kernel
/-- R119: `bra` by 5 words. -/
theorem test_step_bra : (after 32 0x08000005 fun _ g => g.pc) = some 20 := by decide +kernel
/-- R120: `call` with a frame of 32 to 0x200: WB and the return entry. -/
theorem test_step_call : (after 32 0x08940080 fun _ g => (g.pc, g.wb, g.ret)) = some (0x200, 32, [{ pc := 4, frame := 4 }]) := by
  decide +kernel
/-- R143: `vaddi v4, v4, 1` in every lane, from zeros. -/
theorem test_step_vaddi : (after 32 0x50408001 fun _ g => (laneGet (g.readV 4) 0, laneGet (g.readV 4) 63)) = some (1, 1) := by decide +kernel
/-- R127: `mfs s8, EXM`. -/
theorem test_step_mfs : (after 32 0x40800000 fun _ g => g.readS 8) = some allOnes := by decide +kernel
/-- R128: `mts EXM, s5` with s5 = 0. -/
theorem test_step_mts : (after 32 0x4000A001 fun _ g => g.exm) = some 0 := by decide +kernel
/-- R45, R107: a reserved function code traps ILL at its PC, with the word in TRAPI, and the handler runs. -/
theorem test_step_illegal : (match step (code 0x1800003F) with
    | .next t => (t.grp? 16).map fun g => (g.trapc.toNat % 256, g.trappc, g.trapi, g.inH, g.pc)
    | _ => none) = some (1, 0x100, 0x1800003F, true, 0x1000) := by decide +kernel
/-- R402, R403: from reset with nothing placed the boot takes its next step. -/
theorem test_step_reset : (match step State.reset with | .next _ => true | _ => false) = true := by decide +kernel

end Sys2Proof.Tests
end

/-! ## The canonical forms that every step keeps (O35, O59)

The memory lists its bytes by rising address, none of them zero, and the groups are listed by rising key. `Kept s t` says that `t`
still has each of these forms that `s` has. It is carried along a chain of updates: for an operation `f` of the state there is one
lemma `Kept.f : Kept s t → Kept s (t.f ..)`, so that the proof about a function has the shape of its body. An operation that changes
neither the memory nor the groups cites `Kept.frame`; the few that do cite `Kept.withMem` or `Kept.withGroups` with the rule of the
table operation they use. The same predicate is stated for each type in which an operation hands a state back (`KeptEff`, `KeptOut`
and so on). The headings name the part of the model whose functions follow, in the order of their definitions. -/

namespace Sys2Proof.Machine

/-! ### Canonical tables -/

/-- The keys of a table rise strictly. -/
abbrev Rising {α : Type} (m : NMap α) : Prop := (m.map Prod.fst).Pairwise (· < ·)

theorem mem_keys_mapSet {α : Type} {m : NMap α} {n k : Nat} {v : α} (h : k ∈ (mapSet m n v).map Prod.fst) :
    k = n ∨ k ∈ m.map Prod.fst := by
  induction m with
  | nil => simpa [mapSet] using h
  | cons kv r ih =>
    obtain ⟨j, w⟩ := kv
    simp only [mapSet] at h
    split at h
    · simpa using h
    · split at h
      · next e => subst e; exact Or.inr (by simpa using h)
      · rcases List.mem_cons.mp h with rfl | h
        · exact Or.inr (by simp)
        · exact (ih h).imp_right (List.mem_cons_of_mem _)

theorem Rising.mapSet {α : Type} {m : NMap α} {n : Nat} {v : α} (h : Rising m) : Rising (mapSet m n v) := by
  induction m with
  | nil => simp [Rising, Machine.mapSet]
  | cons kv r ih =>
    obtain ⟨j, w⟩ := kv
    obtain ⟨hj, hr⟩ := List.pairwise_cons.mp h
    simp only [Rising, Machine.mapSet]
    split
    · next hn =>
      refine List.pairwise_cons.mpr ⟨fun k hk => ?_, h⟩
      rcases List.mem_cons.mp hk with rfl | hk
      · exact hn
      · exact hn.trans (hj k hk)
    · split
      · next e => subst e; exact h
      · next h2 =>
        refine List.pairwise_cons.mpr ⟨fun k hk => ?_, ih hr⟩
        rcases mem_keys_mapSet hk with rfl | hk
        · show j < k; omega
        · exact hj k hk

theorem Rising.sublist {α : Type} {m m' : NMap α} (h : Rising m) (hs : m'.Sublist m) : Rising m' :=
  List.Pairwise.sublist (hs.map Prod.fst) h

theorem Rising.filter {α : Type} {m : NMap α} {p : Nat × α → Bool} (h : Rising m) : Rising (m.filter p) :=
  h.sublist List.filter_sublist

theorem mapDel_sublist {α : Type} (m : NMap α) (n : Nat) : (mapDel m n).Sublist m := by
  induction m with
  | nil => exact .slnil
  | cons kv r ih =>
    obtain ⟨j, w⟩ := kv
    simp only [mapDel]
    split
    · exact List.sublist_cons_self _ _
    · exact ih.cons_cons _

theorem Rising.mapDel {α : Type} {m : NMap α} {n : Nat} (h : Rising m) : Rising (mapDel m n) :=
  h.sublist (mapDel_sublist m n)

theorem Rising.mapAll {α : Type} {m : NMap α} {f : Nat → α → α} (h : Rising m) : Rising (mapAll m f) := by
  simpa [Rising, Machine.mapAll, List.map_map, Function.comp_def] using h

theorem Rising.mapMod {α : Type} {m : NMap α} {n : Nat} {f : α → α} (h : Rising m) : Rising
    (mapMod m n f) := by
  unfold Machine.mapMod
  split
  · exact h.mapSet
  · exact h

/-! ### What every operation keeps -/

/-- The canonical forms of `s` that `t` still has: of the memory, and of the list of groups. -/
structure Kept (s t : State) : Prop where
  mem : memWf s.mem = true → memWf t.mem = true
  keys : Rising s.groups → Rising t.groups

/-- `Kept` of the state that a pair holds second. -/
def KeptSnd {α : Type} (s : State) (p : α × State) : Prop := Kept s p.2

/-- `Kept` of the state that a pair holds first. -/
def KeptFst {α : Type} (s : State) (p : State × α) : Prop := Kept s p.1

/-- `Kept` of the state, where there is one. -/
def KeptOpt (s : State) : Option State → Prop
  | some t => Kept s t
  | none => True

def KeptOptSnd {α : Type} (s : State) : Option (α × State) → Prop
  | some p => Kept s p.2
  | none => True

/-- `Kept` of the next state, where there is one. -/
def KeptOut (s : State) : Out → Prop
  | .next t => Kept s t
  | _ => True

/-- The effect of a unit, with the machine that it may carry. -/
inductive KeptEff (s : State) : Eff → Prop
  | grp {g} : KeptEff s (.grp g)
  | st {t} : Kept s t → KeptEff s (.st t)
  | trap {x} : KeptEff s (.trap x)
  | wait : KeptEff s .wait
  | waitSt {t} : Kept s t → KeptEff s (.waitSt t)

/-- `KeptEff`, where there is an effect. -/
def KeptOptEff (s : State) : Option Eff → Prop
  | some e => KeptEff s e
  | none => True

/-- `Kept` of the state in which an access waits. -/
def KeptIo (s : State) : Io → Prop
  | .wait t => Kept s t
  | _ => True

/-- `Kept` of the state in which a copy's moves leave the machine. -/
def KeptRun (s : State) : Run → Prop
  | .go t => Kept s t
  | .fault t .. => Kept s t
  | .hold t => Kept s t

/-- `Kept` of the state in which a record is awaited. -/
def KeptRec (s : State) : RecRead → Prop
  | .wait t => Kept s t
  | _ => True

/-- `Kept` of the state in which an attempt to receive leaves the machine. -/
def KeptRecv (s : State) : Recv → Prop
  | .done t => Kept s t
  | .io t => Kept s t
  | _ => True

/-- `Kept` of the state in which a remote access leaves the machine. -/
def KeptRem (s : State) : RemRes → Prop
  | .done t _ => Kept s t
  | .armed t => Kept s t
  | .wait t => Kept s t
  | _ => True

/-- `Kept` of the state in which a window's write leaves the machine. -/
def KeptWin (s : State) : Win → Prop
  | .done t _ => Kept s t
  | .wait t => Kept s t

/-- `Kept` of the state in which a copy waits for its translation. -/
def KeptHold {α : Type} (s : State) : CRes α → Prop
  | .hold t => Kept s t
  | _ => True

/-- `Kept` of either state in which a list's entry is found. -/
def KeptEntry (s : State) : CRes (State × Nat × Nat) → Prop
  | .ok v => Kept s v.1
  | .hold t => Kept s t
  | _ => True

variable {s t : State}

theorem KeptSnd.mk {α : Type} {a : α} (h : Kept s t) : KeptSnd s (a, t) := h

theorem KeptFst.mk {α : Type} {a : α} (h : Kept s t) : KeptFst s (t, a) := h

theorem KeptOpt.some (h : Kept s t) : KeptOpt s (.some t) := h

theorem KeptOpt.none : KeptOpt s .none := trivial

theorem KeptOut.next (h : Kept s t) : KeptOut s (.next t) := h

theorem KeptOut.fault {r} : KeptOut s (.fault r) := trivial

theorem KeptEff.of_st (h : KeptEff s (.st t)) : Kept s t := by cases h; assumption

theorem KeptEff.of_waitSt (h : KeptEff s (.waitSt t)) : Kept s t := by cases h; assumption

theorem KeptEntry.along {a b} (h : KeptEntry s a) (e : a = b) : KeptEntry s b := e ▸ h

theorem KeptFst.along {α : Type} {a b : State × α} (h : KeptFst s a) (e : a = b) : KeptFst s b := e ▸ h

theorem KeptHold.along {α : Type} {a b : CRes α} (h : KeptHold s a) (e : a = b) : KeptHold s b := e ▸ h

theorem KeptIo.along {a b} (h : KeptIo s a) (e : a = b) : KeptIo s b := e ▸ h

theorem KeptOpt.along {a b} (h : KeptOpt s a) (e : a = b) : KeptOpt s b := e ▸ h

theorem KeptOptEff.along {a b} (h : KeptOptEff s a) (e : a = b) : KeptOptEff s b := e ▸ h

/-- `Kept` of the state that a pair holds second, where there is one. -/
theorem KeptOptSnd.along {α : Type} {a b : Option (α × State)} (h : KeptOptSnd s a) (e : a = b) :
    KeptOptSnd s b := e ▸ h

theorem KeptOut.along {a b} (h : KeptOut s a) (e : a = b) : KeptOut s b := e ▸ h

theorem KeptRec.along {a b} (h : KeptRec s a) (e : a = b) : KeptRec s b := e ▸ h

theorem KeptRecv.along {a b} (h : KeptRecv s a) (e : a = b) : KeptRecv s b := e ▸ h

theorem KeptRem.along {a b} (h : KeptRem s a) (e : a = b) : KeptRem s b := e ▸ h

theorem KeptRun.along {a b} (h : KeptRun s a) (e : a = b) : KeptRun s b := e ▸ h

theorem KeptSnd.along {α : Type} {a b : α × State} (h : KeptSnd s a) (e : a = b) : KeptSnd s b := e ▸ h

theorem KeptWin.along {a b} (h : KeptWin s a) (e : a = b) : KeptWin s b := e ▸ h

theorem KeptOpt.orElse {o : Option State} {f u} (ho : KeptOpt s o) (hf : KeptOpt s (f ()))
    (e : o.orElse f = .some u) : Kept s u := by
  cases o with
  | some v => exact Option.some.inj e ▸ ho
  | none => exact KeptOpt.along (b := .some u) hf e

theorem KeptOptEff.some {e} (h : KeptEff s e) : KeptOptEff s (.some e) := h

theorem KeptOptEff.none : KeptOptEff s .none := trivial

theorem KeptIo.ok {b} : KeptIo s (.ok b) := trivial

theorem KeptIo.bad {a b c d} : KeptIo s (.bad a b c d) := trivial

theorem KeptIo.wait (h : Kept s t) : KeptIo s (.wait t) := h

theorem KeptRun.go (h : Kept s t) : KeptRun s (.go t) := h

theorem KeptRec.raw {n} : KeptRec s (.raw n) := trivial

theorem KeptRec.bad : KeptRec s .bad := trivial

theorem KeptRec.wait (h : Kept s t) : KeptRec s (.wait t) := h

theorem KeptRecv.done (h : Kept s t) : KeptRecv s (.done t) := h

theorem KeptRecv.fault {x} : KeptRecv s (.fault x) := trivial

theorem KeptRecv.miss {a b c} : KeptRecv s (.miss a b c) := trivial

theorem KeptRecv.hold : KeptRecv s .hold := trivial

theorem KeptRem.done {b} (h : Kept s t) : KeptRem s (.done t b) := h

theorem KeptRem.armed (h : Kept s t) : KeptRem s (.armed t) := h

theorem KeptRem.wait (h : Kept s t) : KeptRem s (.wait t) := h

theorem KeptRem.fault {a b c} : KeptRem s (.fault a b c) := trivial

theorem KeptHold.ok {α : Type} {v : α} : KeptHold s (.ok v) := trivial

theorem KeptHold.fault {α : Type} {c a i} : KeptHold s (.fault c a i : CRes α) := trivial

theorem KeptHold.hold {α : Type} (h : Kept s t) : KeptHold s (.hold t : CRes α) := h

theorem KeptWin.done {b} (h : Kept s t) : KeptWin s (.done t b) := h

theorem KeptWin.wait (h : Kept s t) : KeptWin s (.wait t) := h

theorem Kept.refl (s : State) : Kept s s := ⟨id, id⟩

theorem Kept.ite {c : Prop} {_ : Decidable c} {u : State} (h1 : Kept s t) (h2 : Kept s u) : Kept s
    (if c then t else u) := by
  split <;> assumption

theorem KeptEff.ite {c : Prop} {_ : Decidable c} {a b : Eff} (h1 : KeptEff s a) (h2 : KeptEff s b) :
    KeptEff s (if c then a else b) := by
  split <;> assumption

theorem KeptOut.ite {c : Prop} {_ : Decidable c} {a b : Out} (h1 : KeptOut s a) (h2 : KeptOut s b) :
    KeptOut s (if c then a else b) := by
  split <;> assumption

theorem KeptHold.ite {α : Type} {c : Prop} {_ : Decidable c} {a b : CRes α} (h1 : KeptHold s a)
    (h2 : KeptHold s b) :
    KeptHold s (if c then a else b) := by
  split <;> assumption

theorem Kept.foldl {α : Type} {f : State → α → State} {l : List α} (h : Kept s t)
    (hf : ∀ u a, Kept s u → Kept s (f u a)) : Kept s (l.foldl f t) := by
  induction l generalizing t with
  | nil => exact h
  | cons a r ih => exact ih (hf t a h)

theorem KeptSnd.foldl {α β : Type} {f : α × State → β → α × State} {l : List β} {p : α × State}
    (h : KeptSnd s p)
    (hf : ∀ q b, KeptSnd s q → KeptSnd s (f q b)) : KeptSnd s (l.foldl f p) := by
  induction l generalizing p with
  | nil => exact h
  | cons b r ih => exact ih (hf p b h)

theorem KeptFst.foldl {α β : Type} {f : State × α → β → State × α} {l : List β} {p : State × α}
    (h : KeptFst s p)
    (hf : ∀ q b, KeptFst s q → KeptFst s (f q b)) : KeptFst s (l.foldl f p) := by
  induction l generalizing p with
  | nil => exact h
  | cons b r ih => exact ih (hf p b h)

theorem KeptOpt.getD {o} (ho : KeptOpt s o) (h : Kept s t) : Kept s (o.getD t) := by
  cases o with
  | some u => exact ho
  | none => exact h

theorem memWf_foldl_memWrite {l : List Host.Cell} {m : Mem} (h : memWf m = true) :
    memWf (l.foldl (fun m c => memWrite m c.1 c.2) m) = true := by
  induction l generalizing m with
  | nil => exact h
  | cons c r ih => exact ih (memWrite_wf h c.1 c.2)

/-- Fields other than the memory and the groups may be anything. -/
theorem Kept.frame {agenda cur plan cyc issued stalled turn tried came nextId fresh dev wgs grids lq ctxs classes cores clusters dies
    ptr gdir home cuPkts cuRejs egress pairs chips ports fab colls remHeld svcWaits rio sgrp str hosts} (h : Kept s t) :
    Kept s { t with agenda, cur, plan, cyc, issued, stalled, turn, tried, came, nextId, fresh, dev, wgs, grids, lq, ctxs, classes,
                    cores, clusters, dies, ptr, gdir, home, cuPkts, cuRejs, egress, pairs, chips, ports, fab, colls, remHeld, svcWaits,
                    rio, sgrp, str, hosts } := ⟨h.mem, h.keys⟩

theorem Kept.withGroups {agenda cur plan cyc issued stalled turn tried came nextId fresh dev groups wgs grids lq ctxs classes cores
    clusters dies ptr gdir home cuPkts cuRejs egress pairs chips ports fab colls remHeld svcWaits rio sgrp str hosts} (h : Kept s t)
    (hg : Rising t.groups → Rising groups) :
    Kept s { t with agenda, cur, plan, cyc, issued, stalled, turn, tried, came, nextId, fresh, dev, groups, wgs, grids, lq, ctxs,
                    classes, cores, clusters, dies, ptr, gdir, home, cuPkts, cuRejs, egress, pairs, chips, ports, fab, colls, remHeld,
                    svcWaits, rio, sgrp, str, hosts } := ⟨h.mem, fun k => hg (h.keys k)⟩

theorem Kept.withMem {agenda cur plan cyc issued stalled turn tried came nextId fresh dev mem wgs grids lq ctxs classes cores
    clusters dies ptr gdir home cuPkts cuRejs egress pairs chips ports fab colls remHeld svcWaits rio sgrp str hosts} (h : Kept s t)
    (hm : memWf t.mem = true → memWf mem = true) :
    Kept s { t with agenda, cur, plan, cyc, issued, stalled, turn, tried, came, nextId, fresh, dev, mem, wgs, grids, lq, ctxs,
                    classes, cores, clusters, dies, ptr, gdir, home, cuPkts, cuRejs, egress, pairs, chips, ports, fab, colls, remHeld,
                    svcWaits, rio, sgrp, str, hosts } := ⟨fun k => hm (h.mem k), h.keys⟩

/-! ### Ops -/

theorem Kept.setCore {c v} (h : Kept s t) : Kept s (t.setCore c v) :=
  .frame h

theorem Kept.modCore {c f} (h : Kept s t) : Kept s (t.modCore c f) :=
  .setCore h

theorem Kept.setCluster {l v} (h : Kept s t) : Kept s (t.setCluster l v) :=
  .frame h

theorem Kept.setDie {d v} (h : Kept s t) : Kept s (t.setDie d v) :=
  .frame h

theorem Kept.setCtx {n v} (h : Kept s t) : Kept s (t.setCtx n v) :=
  .frame h

theorem Kept.modCtx {n f} (h : Kept s t) : Kept s (t.modCtx n f) :=
  .setCtx h

theorem Kept.setQueue {n v} (h : Kept s t) : Kept s (t.setQueue n v) :=
  .frame h

theorem Kept.setPort {p v} (h : Kept s t) : Kept s (t.setPort p v) :=
  .frame h

theorem Kept.setPair {c t2 v} (h : Kept s t) : Kept s (t.setPair c t2 v) :=
  .frame h

theorem Kept.setChip {c v} (h : Kept s t) : Kept s (t.setChip c v) :=
  .frame h

theorem Kept.setHost {f v} (h : Kept s t) : Kept s (t.setHost f v) :=
  .frame h

theorem Kept.setEgr {q v} (h : Kept s t) : Kept s (t.setEgr q v) :=
  .frame h

theorem Kept.setGrp {k g} (h : Kept s t) : Kept s (t.setGrp k g) :=
  .withGroups h .mapSet

theorem Kept.modGrp {k f} (h : Kept s t) : Kept s (t.modGrp k f) :=
  .withGroups h .mapMod

theorem Kept.setWg {w v} (h : Kept s t) : Kept s (t.setWg w v) :=
  .frame h

theorem Kept.modWg {w f} (h : Kept s t) : Kept s (t.modWg w f) :=
  .frame h

theorem Kept.modDev {f} (h : Kept s t) : Kept s (t.modDev f) :=
  .frame h

theorem Kept.modHome {f} (h : Kept s t) : Kept s (t.modHome f) :=
  .frame h

theorem Kept.stall (h : Kept s t) : Kept s (t.stall) :=
  .frame h

theorem Kept.count {i} (h : Kept s t) : Kept s (t.count i) :=
  .modDev h

theorem Kept.logged {kind args} (h : Kept s t) : Kept s (t.logged kind args) :=
  .frame h

theorem Kept.fresh1 (h : Kept s t) : KeptSnd s (t.fresh1) :=
  .mk (.frame h)

theorem Kept.freeValue (h : Kept s t) : KeptSnd s (t.freeValue) :=
  .mk (.frame h)

theorem Kept.l1Trim {c} (h : Kept s t) : Kept s (t.l1Trim c) :=
  .modCore h

theorem Kept.l1Clear {c} (h : Kept s t) : Kept s (t.l1Clear c) :=
  .modCore h

theorem Kept.l1Drop {c line} (h : Kept s t) : Kept s (t.l1Drop c line) :=
  .modCore h

theorem Kept.l1Write {c a b} (h : Kept s t) : Kept s (t.l1Write c a b) :=
  .modCore h

theorem Kept.energy {n e} (h : Kept s t) : Kept s (t.energy n e) :=
  .modCtx h

theorem Kept.fillEnergy {v n2 n3} (h : Kept s t) : Kept s (t.fillEnergy v n2 n3) := by
  unfold State.fillEnergy
  exact .ite (.energy h) h

theorem Kept.settleCore {c} (h : Kept s t) : Kept s (t.settleCore c) := by
  unfold State.settleCore
  exact .modCore (.ite (.fillEnergy h) h)

theorem Kept.atLeast {t1} (h : Kept s t) : Kept s (t.atLeast t1) :=
  .modDev h

theorem Kept.lvOut {core} (h : Kept s t) : Kept s (t.lvOut core) :=
  .modCore h

theorem Kept.lvWish {core b} (h : Kept s t) : Kept s (t.lvWish core b) :=
  .modCore h

theorem Kept.leaveLv {core} (h : Kept s t) : Kept s (t.leaveLv core) := by
  unfold State.leaveLv
  exact .ite (.lvWish (.lvOut h)) h

theorem Kept.charge {c part ctx pipe cls} (h : Kept s t) : Kept s (t.charge c part ctx pipe cls) := by
  unfold State.charge
  exact .energy (.setCore h)

theorem Kept.divides {c part} (h : Kept s t) : Kept s (t.divides c part) :=
  .modCore h

theorem Kept.paid {g i} (h : Kept s t) : Kept s (t.paid g i) := by
  unfold State.paid
  exact .frame (.charge (.ite (.divides h) h))

theorem Kept.dropWork {n} (h : Kept s t) : Kept s (t.dropWork n) :=
  .withGroups h .mapAll

theorem Kept.contextFault {k g t3} (h : Kept s t) : Kept s (t.contextFault k g t3) := by
  unfold State.contextFault
  extract_lets +onlyGivenNames s1
  split
  · exact .modCtx (.dropWork (.setGrp h))
  · exact .setGrp h

theorem Kept.trapIn {k g t3} (h : Kept s t) : Kept s (t.trapIn k g t3) := by
  unfold State.trapIn
  exact .ite (.contextFault h) (.ite (.contextFault h) (.ite (.setGrp h) (.setGrp (.setCore h))))

theorem Kept.dieAtFaultPoint {k g} (h : Kept s t) : Kept s (t.dieAtFaultPoint k g) := by
  unfold State.dieAtFaultPoint
  split
  · exact .modCtx (.ite (.trapIn h) (.setGrp h))
  · exact h

theorem Kept.takeTrap {k g t3} (h : Kept s t) : Kept s (t.takeTrap k g t3) := by
  unfold State.takeTrap
  split
  · exact .trapIn h
  · exact .setGrp h
  · exact .ite (.trapIn h) (.dieAtFaultPoint h)

theorem Kept.passBank {c part} (h : Kept s t) : Kept s (t.passBank c part) := by
  unfold State.passBank
  refine .ite h ?_
  split
  · exact h
  · split
    · exact h
    · refine .ite h ?_
      split
      · exact .setGrp h
      · exact .setGrp h
      · exact .ite (.setGrp h) (.dieAtFaultPoint h)

theorem Kept.takeFault {k g f} (h : Kept s t) : Kept s (t.takeFault k g f) :=
  .takeTrap h

theorem Kept.takeParked {k} (h : Kept s t) : Kept s (t.takeParked k) := by
  unfold State.takeParked
  split
  · exact h
  · refine .ite ?_ h
    split
    · exact .ite (.takeFault h) h
    · exact h

theorem Kept.recordFault {k g f} (h : Kept s t) : Kept s (t.recordFault k g f) :=
  .takeParked (.setGrp h)

theorem Kept.noteIdle {l} (h : Kept s t) : Kept s (t.noteIdle l) := by
  unfold State.noteIdle
  exact .ite h (.setCluster h)

theorem Kept.exitWg {w v} (h : Kept s t) : Kept s (t.exitWg w v) := by
  unfold State.exitWg
  exact .noteIdle (.frame (.ite (.frame h) (.setWg h)))

theorem Kept.barCheck {w} (h : Kept s t) : Kept s (t.barCheck w) := by
  unfold State.barCheck
  split
  · exact h
  · extract_lets +onlyGivenNames ks waiting
    refine .ite h ?_
    exact .foldl (.setWg h) fun _ _ h1 => by
      split
      · exact .takeParked (.setGrp h1)
      · exact h1

theorem Kept.endGroup {k g} (h : Kept s t) : Kept s (t.endGroup k g) := by
  unfold State.endGroup
  extract_lets s1 s2
  have h1 : Kept s s1 := .modWg (.withGroups h .mapDel)
  have h2 : Kept s s2 := by
    unfold s2
    split
    · exact h1
    · exact .ite (.exitWg h1) (.barCheck h1)
  exact .ite (.passBank h2) h2

/-! ### Home -/

theorem Kept.setDir {line d} (h : Kept s t) : Kept s (t.setDir line d) :=
  .modHome h

theorem Kept.setLine {d line st} (h : Kept s t) : Kept s (t.setLine d line st) := by
  unfold State.setLine
  exact .setDie h

theorem Kept.touchLine {d line stream} (h : Kept s t) : Kept s (t.touchLine d line stream) := by
  unfold State.touchLine
  exact .setDie h

theorem Kept.filterAdd {da rid w} (h : Kept s t) : Kept s (t.filterAdd da rid w) := by
  unfold State.filterAdd
  exact .modHome h

theorem Kept.filterDrop {rids} (h : Kept s t) : Kept s (t.filterDrop rids) :=
  .modHome h

theorem Kept.homeUse {line wr} (h : Kept s t) : Kept s (t.homeUse line wr) := by
  unfold State.homeUse
  exact .modHome h

theorem Kept.flushLine {line} (h : Kept s t) : Kept s (t.flushLine line) := by
  unfold State.flushLine
  extract_lets +onlyGivenNames mine hm s1
  have h1 : Kept s s1 := .withMem h memWf_foldl_memWrite
  exact .ite h1 (.homeUse h1)

theorem Kept.modReq {line f} (h : Kept s t) : Kept s (t.modReq line f) :=
  .modHome h

theorem Kept.landPut {p} (h : Kept s t) : Kept s (t.landPut p) := by
  unfold State.landPut
  extract_lets +onlyGivenNames s1 s2 s3
  have hs2 : Kept s s2 := .ite (.filterAdd (.homeUse (.flushLine (.modHome h)))) (.modHome h)
  exact .modReq (.ite (.setDir hs2) hs2)

theorem Kept.putAcked {d line} (h : Kept s t) : Kept s (t.putAcked d line) :=
  .filterDrop (.setLine h)

theorem Kept.quiet {line} (h : Kept s t) : Kept s (t.quiet line) := by
  unfold State.quiet
  exact .foldl (.foldl h fun _ _ h1 => .landPut h1) fun _ _ h1 => .putAcked h1

theorem Kept.recallAll {line} (h : Kept s t) : Kept s (t.recallAll line) :=
  .setDir (.foldl (.flushLine h) fun _ _ h0 => .setLine h0)

theorem Kept.recall {line writer} (h : Kept s t) : Kept s (t.recall line writer) := by
  unfold State.recall
  extract_lets +onlyGivenNames x0
  have hx0 : Kept s x0 := .flushLine (.quiet h)
  split
  · exact hx0
  · exact .recallAll hx0
  · exact .setDir (.setLine hx0)
  · extract_lets +onlyGivenNames s1
    split
    · exact .ite (.setDir (.foldl hx0 fun _ _ h2 => .setLine h2))
        (.setDir (.foldl hx0 fun _ _ h2 => .setLine h2))
    · exact .setDir (.foldl hx0 fun _ _ h2 => .setLine h2)

theorem Kept.dirRoom {line} (h : Kept s t) : Kept s (t.dirRoom line) := by
  unfold State.dirRoom
  refine .ite h ?_
  split
  · exact .recall h
  · exact h

theorem Kept.dieRoom {d line} (h : Kept s t) : Kept s (t.dieRoom d line) := by
  unfold State.dieRoom
  extract_lets +onlyGivenNames v
  refine .ite h ?_
  extract_lets +onlyGivenNames set
  refine .ite h ?_
  extract_lets +onlyGivenNames out
  split
  · exact h
  · exact .ite (.setLine (.setDir (.homeUse (.flushLine h)))) (.setLine h)

theorem Kept.takeLine {d line st stream} (h : Kept s t) : Kept s (t.takeLine d line st stream) :=
  .ite (.touchLine (.setLine (.dieRoom h))) h

theorem Kept.getS {d line stream} (h : Kept s t) : Kept s (t.getS d line stream) := by
  unfold State.getS
  extract_lets +onlyGivenNames x0
  refine .ite (.touchLine (.quiet h)) ?_
  extract_lets +onlyGivenNames s1 mon mine fresh
  have hs1 : Kept s s1 := .homeUse (.dirRoom (.quiet h))
  split
  · exact .ite (.setDir (.takeLine hs1)) (.setDir (.takeLine hs1))
  · exact .ite (.setDir (.takeLine (.recallAll hs1))) (.setDir (.takeLine (.recallAll hs1)))
  · exact .setDir (.takeLine hs1)
  · exact .ite (.ite (.setDir (.takeLine (.flushLine hs1))) (.setDir (.takeLine (.flushLine hs1))))
      (.setDir (.takeLine (.setLine (.flushLine hs1))))

theorem Kept.getM {d line stream} (h : Kept s t) : Kept s (t.getM d line stream) := by
  unfold State.getM
  extract_lets +onlyGivenNames x0 st
  refine .ite (.touchLine (.quiet h)) ?_
  extract_lets +onlyGivenNames s1 s2
  have hs2 : Kept s s2 := by
    unfold s2
    split
    · exact .homeUse (.dirRoom (.quiet h))
    · exact .homeUse (.recallAll (.dirRoom (.quiet h)))
    · exact .homeUse (.foldl (.dirRoom (.quiet h)) fun _ _ h3 => .setLine h3)
    · exact .ite (.dirRoom (.quiet h)) (.setLine (.dirRoom (.quiet h)))
  exact .ite (.setDir (.takeLine (.flushLine hs2))) (.setDir (.takeLine hs2))

theorem Kept.lineStep {line} (h : Kept s t) : Kept s (t.lineStep line) := by
  unfold State.lineStep
  split
  · exact h
  · refine .ite h ?_
    extract_lets +onlyGivenNames mon give
    refine .ite ?_ (.ite (.homeUse (.setDir (.modReq (.ite (.flushLine h) h))))
        (.homeUse (.setDir (.modReq (.ite (.flushLine h) h)))))
    split
    · exact .homeUse (.setDir (.modReq (.ite (.flushLine h) h)))
    · exact .homeUse (.setDir (.modReq (.ite (.flushLine h) h)))
    · exact .ite (.homeUse (.setDir (.modReq (.ite (.flushLine h) h))))
        (.homeUse (.setDir (.modReq (.ite (.flushLine h) h))))

theorem Kept.arriveSnoop {d line gone data} (h : Kept s t) : Kept s (t.arriveSnoop d line gone data) :=
  .modReq h

theorem Kept.invSnoop {d line} (h : Kept s t) : Kept s (t.invSnoop d line) := by
  unfold State.invSnoop
  refine .ite h ?_
  extract_lets +onlyGivenNames s1
  split
  · exact .setLine (.arriveSnoop h)
  · exact .setLine (.arriveSnoop h)
  · exact .setLine (.arriveSnoop h)
  · exact .arriveSnoop h

theorem Kept.recallSnoop {d line kind after} (h : Kept s t) : Kept s (t.recallSnoop d line kind after) := by
  unfold State.recallSnoop
  refine .ite h ?_
  split
  · exact .setLine (.arriveSnoop h)
  · exact .setLine (.arriveSnoop h)
  · exact .arriveSnoop h
  · exact .setLine (.arriveSnoop h)
  · exact .setLine (.arriveSnoop h)
  · exact .arriveSnoop h

theorem Kept.answerSnoop {d line} (h : Kept s t) : Kept s (t.answerSnoop d line) := by
  unfold State.answerSnoop
  exact .lineStep (.modReq (.ite (.flushLine h) h))

theorem Kept.arriveGrant {d line} (h : Kept s t) : Kept s (t.arriveGrant d line) := by
  unfold State.arriveGrant
  split
  · split
    · exact .ite (.modHome (.takeLine h)) h
    · exact h
  · exact h

theorem Kept.settleLine {line} (h : Kept s t) : Kept s (t.settleLine line) := by
  unfold State.settleLine
  split
  · exact h
  · exact .arriveGrant (.foldl (.lineStep h) fun _ _ h1 => .answerSnoop (.foldl (by
      split
      · exact .invSnoop h1
      · exact .recallSnoop h1
      · exact .recallSnoop h1) fun _ _ h3 => .landPut h3))

theorem Kept.evalMons {line} (h : Kept s t) : Kept s (t.evalMons line) := by
  unfold State.evalMons
  exact .modHome h

theorem Kept.homeWrite {writer a bs} (h : Kept s t) : Kept s (t.homeWrite writer a bs) := by
  unfold State.homeWrite
  extract_lets lines s1 s2
  have h1 : Kept s s1 := .foldl h fun _ _ h => .homeUse (.recall (.settleLine h))
  have h2 : Kept s s2 := .withMem h1 (memWriteBytes_wf · a bs)
  exact .foldl h2 fun _ _ h => .evalMons h

theorem Kept.dieWrite {d a bs stream} (h : Kept s t) : Kept s (t.dieWrite d a bs stream) := by
  unfold State.dieWrite
  exact .ite (.homeWrite (.getM h)) (.modHome (.getM h))

theorem Kept.l1Fill {c line} (h : Kept s t) : Kept s (t.l1Fill c line) :=
  .ite h (.modCore h)

/-! ### Report -/

theorem Kept.ringPost {f r} (h : Kept s t) : Kept s (t.ringPost f r) := by
  unfold State.ringPost
  exact .ite (.setHost h) (.setHost (.homeWrite h))

theorem Kept.post {r0} (h : Kept s t) : Kept s (t.post r0) := by
  unfold State.post
  exact .ite (.ringPost h) (.ite (.ringPost h) (.modDev h))

theorem Kept.postHeld (h : Kept s t) : Kept s (t.postHeld) :=
  .ite (.foldl (.modDev h) fun _ _ h0 => .ringPost h0) h

/-! ### Image -/

theorem Kept.writeHeader {w st} (h : Kept s t) : Kept s (t.writeHeader w st) :=
  .homeWrite h

theorem Kept.writeImage {wk} (h : Kept s t) : Kept s (t.writeImage wk) := by
  unfold State.writeImage
  split
  · exact h
  · exact .energy (.writeHeader (.homeWrite (.foldl (.homeWrite (.homeWrite (.foldl h fun _ _ h1 => by
      split
      · exact .homeWrite h1
      · exact .homeWrite (.homeWrite (.foldl (.homeWrite h1) fun _ _ h4 => .homeWrite h4))))) fun _ _ h4 =>
          .homeWrite (.homeWrite (.homeWrite h4)))))

theorem Kept.pull {wk} (h : Kept s t) : Kept s (t.pull wk) := by
  unfold State.pull
  split
  · exact .ite (.setWg h) h
  · exact h

theorem Kept.putNat {a n v} (h : Kept s t) : Kept s (t.putNat a n v) :=
  .homeWrite h

theorem Kept.push {wk} (h : Kept s t) : Kept s (t.push wk) := by
  unfold State.push
  split
  · exact h
  · exact .ite h (.foldl (.foldl (.putNat (.putNat h)) fun _ _ h2 => .putNat h2) fun _ _ h2 => .putNat h2)

theorem Kept.applied {wk} (h : Kept s t) : Kept s (t.applied wk) := by
  unfold State.applied
  split
  · exact h
  · exact .ite (.push (.setWg h)) h

theorem Kept.pushWoken {k} (h : Kept s t) : Kept s (t.pushWoken k) := by
  unfold State.pushWoken
  split
  · exact h
  · split
    · exact h
    · exact .ite (.putNat h) h

theorem Kept.pushHold {wk} (h : Kept s t) : Kept s (t.pushHold wk) := by
  unfold State.pushHold
  split
  · exact h
  · exact .ite (.putNat h) h

/-! ### Issue -/

theorem Kept.issuedUnit {u1 g} (h : Kept s t) : Kept s (t.issuedUnit u1 g) :=
  .paid h

/-- A unit keeps the forms when its effect does: the lemma the units are proved by. -/
theorem applyEff_kept {u k g} {e : Eff} (h : Kept s t) (he : KeptEff s e) : Kept s (applyEff u k g t e) := by
  cases he with
  | grp => exact .issuedUnit (.setGrp h)
  | st hs => exact .issuedUnit hs
  | trap => exact .takeTrap h
  | wait => exact .stall h
  | waitSt hs => exact .stall hs

theorem issueGrp_kept {u eff k g} (h : Kept s t) (he : ∀ m g1, KeptEff s (eff t k m g g1)) : Kept s
    (issueGrp u eff k g t) := by
  unfold issueGrp
  split
  · exact .stall h
  · split
    · exact .dieAtFaultPoint h
    · split
      · exact .ite (.takeFault h) (.stall h)
      · extract_lets +onlyGivenNames e
        have hk : Kept s (applyEff u k g t e) := applyEff_kept h (he _ _)
        split
        · exact .stall h
        · split
          · exact .contextFault h
          · split
            · exact .takeTrap h
            · split
              · exact .takeTrap h
              · exact hk

theorem Kept.stratusTrap {t1} (h : Kept s t) : Kept s (t.stratusTrap t1) := by
  unfold State.stratusTrap
  exact .ite (.post (.modDev (.frame h))) (.frame h)

theorem issueStr_kept {u eff} (h : Kept s t) (he : ∀ k m g g1, KeptEff s (eff t k m g g1)) : Kept s
    (issueStr u eff t) := by
  unfold issueStr
  extract_lets +onlyGivenNames g
  split
  · exact .stall h
  · split
    · exact .stall h
    · split
      · exact .stratusTrap h
      · extract_lets past
        have hp := he 0 allOnes g past
        split
        · exact .frame h
        · next e => exact KeptEff.of_st (e ▸ hp)
        · exact .stratusTrap h
        · exact .stall h
        · next e => exact .stall (KeptEff.of_waitSt (e ▸ hp))

theorem issue2_kept {u eff str} (h : Kept s t) (he : ∀ k m g g1, KeptEff s (eff t k m g g1))
    (hs : ∀ k m g g1, KeptEff s (str t k m g g1)) : KeptOut s (issue2 u eff str t) := by
  unfold issue2
  refine .next ?_
  split
  · exact issueStr_kept h hs
  · split
    · exact issueGrp_kept h fun _ _ => he ..
    · exact .stall h

theorem issue_kept {u eff} (h : Kept s t) (he : ∀ k m g g1, KeptEff s (eff t k m g g1)) : KeptOut s
    (issue u eff t) :=
  issue2_kept h he he

/-! ### Fabric -/

theorem Kept.putOnRail {p avoid} (h : Kept s t) : KeptSnd s (t.putOnRail p avoid) := by
  unfold State.putOnRail
  split
  · exact .mk h
  · exact .mk (.setPort (.frame h))

theorem Kept.flitEnergy {ctx p} (h : Kept s t) : Kept s (t.flitEnergy ctx p) := by
  unfold State.flitEnergy
  split
  · exact .energy h
  · exact h

theorem Kept.fabDrain {l} (h : Kept s t) : Kept s (t.fabDrain l) := by
  induction l generalizing t with
  | nil => exact h
  | cons e r ih =>
    unfold State.fabDrain
    extract_lets +onlyGivenNames p k un
    split
    · exact .frame (ih h)
    · exact ih (.frame (.putOnRail (.flitEnergy h)))

theorem Kept.fabSend {ctx p} (h : Kept s t) : Kept s (t.fabSend ctx p) :=
  .fabDrain (.frame h)

theorem Kept.fabAck {p} (h : Kept s t) : Kept s (t.fabAck p) := by
  unfold State.fabAck
  exact .putOnRail (.flitEnergy h)

/-! ### Atom -/

theorem Kept.syncDirty {d} (h : Kept s t) : Kept s (t.syncDirty d) :=
  .withGroups h .mapAll

theorem Kept.egressAppend {src bit peer e} (h : Kept s t) : Kept s (t.egressAppend src bit peer e) := by
  unfold State.egressAppend
  extract_lets +onlyGivenNames refuse slot slot'
  clear_value slot'
  split
  · exact .frame h
  · exact .ite (.frame h) (.ite (.frame (.setEgr h)) (.homeWrite (.setEgr h)))

theorem Kept.sendEntries {d peer base l} (h : Kept s t) : KeptSnd s (t.sendEntries d peer base l) := by
  induction l generalizing t base with
  | nil => exact h
  | cons es r ih => exact ih (.fabSend (.fresh1 h))

theorem Kept.cuSend {d b peer ents} (h : Kept s t) : Kept s (t.cuSend d b peer ents) := by
  have hp : KeptSnd s (if b < 32 then (([] : List Nat), t.fresh1.2) else t.fresh1.2.sendEntries d peer 0
      (cuParts 40 ents)) := by
    split
    · exact .mk (.fresh1 h)
    · exact Kept.sendEntries (.fresh1 h)
  exact .frame hp

theorem Kept.cuLeave {d b} (h : Kept s t) : Kept s (t.cuLeave d b) := by
  unfold State.cuLeave
  split
  · exact h
  · exact .ite (.setDie h) (.ite (.syncDirty (.foldl (.setDie h) fun _ _ h1 => .egressAppend h1))
      (.cuSend (.setDie h)))

theorem Kept.cuFlush {g} (h : Kept s t) : Kept s (t.cuFlush g) :=
  .foldl h fun _ _ h0 => .ite (.cuLeave h0) h0

theorem Kept.peerBuf {d peer} (h : Kept s t) : KeptSnd s (t.peerBuf d peer) := by
  unfold State.peerBuf
  extract_lets +onlyGivenNames bufs
  split
  · exact .mk h
  · split
    · exact .mk h
    · exact .mk (.cuLeave h)

theorem Kept.cuAccept {d peer need x} (h : Kept s t) : Kept s (t.cuAccept d peer need x) := by
  let p : Nat × State := match peer with
    | some q => t.peerBuf d q
    | none => (homeDie t.dev.memOpen x.word, t)
  have hp : KeptSnd s p := by
    unfold p
    split
    · exact Kept.peerBuf h
    · exact .mk h
  exact .syncDirty (.ite (.cuLeave (.setDie (.fresh1 (.ite (.cuLeave hp) hp))))
      (.setDie (.fresh1 (.ite (.cuLeave hp) hp))))

/-! ### Control -/

theorem passEff_kept {x1 x2 x3 g1} : KeptEff s (passEff t x1 x2 x3 g1) :=
  .grp

theorem execNop_kept (h : Kept s t) : KeptOut s (execNop t) :=
  issue_kept h fun _ _ _ _ => passEff_kept

theorem exitEff_kept {k x2 g x4} (h : Kept s t) : KeptEff s (exitEff t k x2 g x4) :=
  .ite (.waitSt (.modGrp h)) (.ite (.waitSt (.modGrp (.cuFlush h)))
      (.ite (.st (.takeTrap h)) (.st (.endGroup h))))

theorem execExit_kept (h : Kept s t) : KeptOut s (execExit t) :=
  issue_kept h fun _ _ _ _ => exitEff_kept h

theorem trapEff_kept {u0 cause n x4 x5 g g1} : KeptEff s (trapEff u0 cause n t x4 x5 g g1) :=
  .trap

theorem execTrap_kept {n} (h : Kept s t) : KeptOut s (execTrap n t) := by
  unfold execTrap
  exact issue_kept h fun _ _ _ _ => trapEff_kept

theorem execBrk_kept {n} (h : Kept s t) : KeptOut s (execBrk n t) := by
  unfold execBrk
  exact issue_kept h fun _ _ _ _ => trapEff_kept

theorem rteEff_kept {u0 k x3 g x5} (h : Kept s t) : KeptEff s (rteEff u0 t k x3 g x5) :=
  .ite .trap (.ite (.st (.contextFault h)) (.st (.passBank (.setGrp h))))

theorem rteStr_kept {u0 x2 x3 g x5} : KeptEff s (rteStr u0 t x2 x3 g x5) :=
  .ite .trap (.ite .trap .grp)

theorem execRte_kept (h : Kept s t) : KeptOut s (execRte t) := by
  unfold execRte
  exact issue2_kept h (fun _ _ _ _ => rteEff_kept h) fun _ _ _ _ => rteStr_kept

theorem execYield_kept (h : Kept s t) : KeptOut s (execYield t) :=
  issue2_kept h (fun _ _ _ _ => .grp) fun _ _ _ _ => passEff_kept

theorem Kept.startStack {k g pos dir stk} (h : Kept s t) : Kept s (t.startStack k g pos dir stk) :=
  .setGrp h

theorem retEff_kept {u0 k m g g1} (h : Kept s t) : KeptEff s (retEff u0 t k m g g1) := by
  unfold retEff
  split
  · exact .ite .grp .trap
  · exact .ite (exitEff_kept h) (.waitSt (.startStack h))

theorem retStr_kept {u0 x2 x3 g g1} : KeptEff s (retStr u0 t x2 x3 g g1) := by
  unfold retStr
  split
  · exact .grp
  · exact .trap

theorem execRet_kept (h : Kept s t) : KeptOut s (execRet t) := by
  unfold execRet
  exact issue2_kept h (fun _ _ _ _ => retEff_kept h) fun _ _ _ _ => retStr_kept

theorem spfTrap_kept {u0 g} : KeptEff s (spfTrap u0 g) :=
  .trap

theorem winbEff_kept {u0 m x3 x4 g g1} : KeptEff s (winbEff u0 m t x3 x4 g g1) :=
  .ite .grp spfTrap_kept

theorem execWinb_kept {m} (h : Kept s t) : KeptOut s (execWinb m t) := by
  unfold execWinb
  exact issue_kept h fun _ _ _ _ => winbEff_kept

theorem vsyncEff_kept {u0 k x3 g g1} (h : Kept s t) : KeptEff s (vsyncEff u0 t k x3 g g1) := by
  unfold vsyncEff
  split
  · exact .grp
  · exact .ite .trap (.waitSt (.startStack h))

theorem execVsync_kept (h : Kept s t) : KeptOut s (execVsync t) := by
  unfold execVsync
  exact issue_kept h fun _ _ _ _ => vsyncEff_kept h

theorem sleepEff_kept {a x2 x3 g g1} : KeptEff s (sleepEff a t x2 x3 g g1) := by
  unfold sleepEff
  exact .ite .grp .grp

theorem sleepStr_kept {a x2 x3 g g1} (h : Kept s t) : KeptEff s (sleepStr a t x2 x3 g g1) :=
  .st (.frame h)

theorem execSleep_kept {a} (h : Kept s t) : KeptOut s (execSleep a t) :=
  issue2_kept h (fun _ _ _ _ => sleepEff_kept) fun _ _ _ _ => sleepStr_kept h

theorem qcfgEff_kept {q d x3 x4 g g1} : KeptEff s (qcfgEff q d t x3 x4 g g1) :=
  .ite .trap .grp

theorem execQcfg_kept {q n} (h : Kept s t) : KeptOut s (execQcfg q n t) :=
  issue_kept h fun _ _ _ _ => qcfgEff_kept

theorem qrstEff_kept {a x2 x3 g g1} : KeptEff s (qrstEff a t x2 x3 g g1) :=
  .grp

theorem execQrst_kept {a} (h : Kept s t) : KeptOut s (execQrst a t) :=
  issue_kept h fun _ _ _ _ => qrstEff_kept

theorem execSetfmt_kept {i} (h : Kept s t) : KeptOut s (execSetfmt i t) :=
  issue_kept h fun _ _ _ _ => .grp

theorem execSetmode_kept {i} (h : Kept s t) : KeptOut s (execSetmode i t) :=
  issue_kept h fun _ _ _ _ => .grp

theorem branchEff_kept {o c x3 x4 g g1} : KeptEff s (branchEff o c t x3 x4 g g1) :=
  .grp

theorem execBra_kept {o} (h : Kept s t) : KeptOut s (execBra o t) :=
  issue_kept h fun _ _ _ _ => branchEff_kept

theorem execBz_kept {a o} (h : Kept s t) : KeptOut s (execBz a o t) :=
  issue_kept h fun _ _ _ _ => branchEff_kept

theorem execBnz_kept {a o} (h : Kept s t) : KeptOut s (execBnz a o t) :=
  issue_kept h fun _ _ _ _ => branchEff_kept

theorem execBltz_kept {a o} (h : Kept s t) : KeptOut s (execBltz a o t) :=
  issue_kept h fun _ _ _ _ => branchEff_kept

theorem execBgez_kept {a o} (h : Kept s t) : KeptOut s (execBgez a o t) :=
  issue_kept h fun _ _ _ _ => branchEff_kept

theorem callEff_kept {u0 f8 target k x5 g g1} (h : Kept s t) : KeptEff s
    (callEff u0 f8 target t k x5 g g1) := by
  unfold callEff
  exact .ite .trap (.ite spfTrap_kept (.ite (.waitSt (.startStack h)) .grp))

theorem callStr_kept {u0 f8 target x4 x5 g g1} : KeptEff s (callStr u0 f8 target t x4 x5 g g1) := by
  unfold callStr
  exact .ite .trap (.ite .trap (.ite .trap .grp))

theorem execCall_kept {f o} (h : Kept s t) : KeptOut s (execCall f o t) := by
  unfold execCall
  exact issue2_kept h (fun _ _ _ _ => callEff_kept h) fun _ _ _ _ => callStr_kept

theorem execCalli_kept {a f} (h : Kept s t) : KeptOut s (execCalli a f t) := by
  unfold execCalli
  exact issue2_kept h (fun _ _ _ _ => callEff_kept h) fun _ _ _ _ => callStr_kept

theorem jmpiEff_kept {u0 a x3 x4 g g1} : KeptEff s (jmpiEff u0 a t x3 x4 g g1) :=
  .ite .trap .grp

theorem execJmpi_kept {a} (h : Kept s t) : KeptOut s (execJmpi a t) := by
  unfold execJmpi
  exact issue_kept h fun _ _ _ _ => jmpiEff_kept

theorem pushRec_kept {u0 k g g1 e} (h : Kept s t) : KeptEff s (pushRec u0 t k g g1 e) :=
  .ite spfTrap_kept (.ite (.waitSt (.startStack h)) .grp)

theorem vbrEff_kept {u0 p neg o k x6 g g1} (h : Kept s t) : KeptEff s (vbrEff u0 p neg o t k x6 g g1) := by
  unfold vbrEff
  exact .ite .grp (.ite .grp (pushRec_kept h))

theorem execVbr_kept {p neg o} (h : Kept s t) : KeptOut s (execVbr p neg o t) := by
  unfold execVbr
  exact issue_kept h fun _ _ _ _ => vbrEff_kept h

theorem execVbrall_kept {p neg o} (h : Kept s t) : KeptOut s (execVbrall p neg o t) :=
  issue_kept h fun _ _ _ _ => .grp

theorem execVbrany_kept {p neg o} (h : Kept s t) : KeptOut s (execVbrany p neg o t) :=
  issue_kept h fun _ _ _ _ => .grp

theorem vjoinEff_kept {u0 o k x4 g g1} (h : Kept s t) : KeptEff s (vjoinEff u0 o t k x4 g g1) :=
  pushRec_kept h

theorem execVjoin_kept {o} (h : Kept s t) : KeptOut s (execVjoin o t) := by
  unfold execVjoin
  exact issue_kept h fun _ _ _ _ => vjoinEff_kept h

/-! ### Translate -/

theorem Kept.modTr {u1 f} (h : Kept s t) : Kept s (t.modTr u1 f) :=
  .ite (.modCore h) (.frame h)

theorem Kept.startWalk {x va} (h : Kept s t) : Kept s (t.startWalk x va) := by
  unfold State.startWalk
  split
  · exact h
  · exact .modTr h

theorem Kept.openService {ctx obj sub src wr unit va} (h : Kept s t) : Kept s
    (t.openService ctx obj sub src wr unit va) :=
  .modCtx h

/-! ### Remote -/

theorem Kept.sendPart {k key p ls} (h : KeptFst s p) : KeptFst s (State.sendPart k key p ls) :=
  .mk (.fabSend (.fresh1 h))

theorem Kept.sendReqs {k o l} (h : Kept s t) : KeptFst s (t.sendReqs k o l) := by
  induction l generalizing t o with
  | nil => exact h
  | cons key r ih => exact ih (KeptFst.foldl h fun _ _ => .sendPart)

theorem Kept.sendRemote {k o} (h : Kept s t) : KeptFst s (t.sendRemote k o) :=
  Kept.sendReqs h

/-! ### Span -/

theorem Kept.parkOn {p ctx obj sub src wr unit va} (h : Kept s t) : Kept s
    (t.parkOn p ctx obj sub src wr unit va) := by
  unfold State.parkOn
  exact .frame (.openService h)

theorem Kept.release {p} (h : Kept s t) : Kept s (t.release p) :=
  .frame h

theorem Kept.spanWrite {ps bs} (h : Kept s t) : Kept s (t.spanWrite ps bs) :=
  .foldl h fun _ _ h0 => .homeWrite h0

theorem Kept.spanEnergy {n ps} (h : Kept s t) : Kept s (t.spanEnergy n ps) :=
  .energy h

theorem Kept.runReq {ctx req type op r bs} (h : Kept s t) : KeptSnd s (t.runReq ctx req type op r bs) :=
  .mk (.fabSend (.fresh1 h))

theorem Kept.askRun {p ctx wr bs r} (h : Kept s t) : Kept s (t.askRun p ctx wr bs r) :=
  .ite h (.frame (.runReq h))

theorem Kept.runsDone {p ctx wr bs runs} (h : Kept s t) : KeptIo s (t.runsDone p ctx wr bs runs) := by
  unfold State.runsDone
  split
  · exact .bad
  · split
    · exact .ok
    · exact .wait (.foldl h fun _ _ h0 => .askRun h0)

theorem Kept.spanIn {p ctx ps} (h : Kept s t) : KeptIo s (t.spanIn p ctx ps) := by
  unfold State.spanIn
  extract_lets +onlyGivenNames runs
  split
  · exact .ok
  · exact Kept.runsDone h

theorem Kept.spanOut {p ctx ps bs} (h : Kept s t) : KeptIo s (t.spanOut p ctx ps bs) :=
  Kept.runsDone h

theorem Kept.respIo {n cause why obj data} (h : Kept s t) : Kept s (t.respIo n cause why obj data) :=
  .frame h

/-! ### Access -/

theorem Kept.acceptElem {k g o op a e} (h : Kept s t) : Kept s (t.acceptElem k g o op a e) := by
  unfold State.acceptElem
  extract_lets +onlyGivenNames base
  split
  · exact .cuAccept (.l1Drop h)
  · exact .cuAccept h
  · exact h

theorem Kept.acceptAll {k g o op} (h : Kept s t) : Kept s (t.acceptAll k g o op) :=
  .foldl h fun _ _ h0 => .foldl h0 fun _ _ h1 => .acceptElem h1

theorem Kept.acceptOp {k g o op} (h : Kept s t) : Kept s (t.acceptOp k g o op) :=
  .ite (.modGrp (.acceptAll h)) h

theorem Kept.launchOp {k o} (h : Kept s t) : Kept s (t.launchOp k o) := by
  unfold State.launchOp
  split
  · exact h
  · split
    · exact .acceptOp h
    · exact .ite (.modGrp (.sendRemote h)) h

theorem Kept.addOps {k l} (h : Kept s t) : Kept s (t.addOps k l) := by
  induction l generalizing t with
  | nil => exact h
  | cons o r ih =>
    unfold State.addOps
    split
    · exact h
    · extract_lets +onlyGivenNames later
      split
      · exact .recordFault h
      · exact ih (.launchOp (.setGrp h))
      · exact .setGrp (.openService h)
      · exact .setGrp h

theorem Kept.useCaches {g o} (h : Kept s t) : Kept s (t.useCaches g o) :=
  .foldl h fun _ _ h0 => .startWalk h0

theorem Kept.issueOps {k g1 n mk} (h : Kept s t) : Kept s (t.issueOps k g1 n mk) := by
  unfold State.issueOps
  exact .addOps (.foldl (.setGrp (.frame h)) fun _ _ h1 => .useCaches h1)

theorem Kept.prepLine {c d mode line} (h : Kept s t) : Kept s (t.prepLine c d mode line) := by
  unfold State.prepLine
  split
  · exact .ite h (.l1Fill (.getS h))
  · exact .l1Drop (.getS h)
  · exact .ite h (.getS h)

theorem Kept.storeRun {g mode a bs} (h : Kept s t) : Kept s (t.storeRun g mode a bs) := by
  unfold State.storeRun
  exact .ite (.l1Drop (.dieWrite h)) (.foldl (.dieWrite h) fun _ _ h1 => .l1Write h1)

theorem Kept.storeLane {g mode ps bs} (h : Kept s t) : Kept s (t.storeLane g mode ps bs) := by
  unfold State.storeLane
  exact .foldl (.modWg h) fun _ _ h1 => .storeRun h1

theorem Kept.storeLanes {g o} (h : Kept s t) : Kept s (t.storeLanes g o) :=
  .foldl h fun _ _ h0 => .storeLane h0

theorem Kept.wgmAtomic {g a cas} (h : Kept s t) : KeptSnd s (t.wgmAtomic g a cas) := by
  unfold State.wgmAtomic
  split
  · exact .mk (.setWg h)
  · exact .mk h

theorem Kept.wgmLanes {g cas l} (h : Kept s t) : KeptSnd s (t.wgmLanes g cas l) := by
  induction l generalizing t with
  | nil => exact h
  | cons a r ih => exact ih (.wgmAtomic h)

theorem Kept.served {g o held} (h : Kept s t) : Kept s (t.served g o held) := by
  unfold State.served
  exact .energy h

theorem Kept.returnLoad {k g o} (h : Kept s t) : Kept s (t.returnLoad k g o) := by
  unfold State.returnLoad
  refine .ite h ?_
  refine .ite (.cuFlush h) ?_
  extract_lets +onlyGivenNames s1
  have hs1 : Kept s s1 := .foldl (.served h) fun _ _ h1 => .prepLine h1
  exact .setGrp (by
    refine .ite ?_ ?_
    · exact .l1Clear (by
        split
        · exact .wgmLanes hs1
        · exact .wgmLanes hs1
        · exact hs1
        · exact hs1)
    · split
      · exact .wgmLanes hs1
      · exact .wgmLanes hs1
      · exact hs1
      · exact hs1)

theorem Kept.performStore {k g o} (h : Kept s t) : Kept s (t.performStore k g o) :=
  .ite h (.ite (.cuFlush h) (.modGrp (.storeLanes (.served h))))

theorem Kept.retryOp {k g o} (h : Kept s t) : Kept s (t.retryOp k g o) := by
  unfold State.retryOp
  extract_lets +onlyGivenNames g0 still fault
  split
  · exact .recordFault h
  · split
    · exact .recordFault h
    · exact .modGrp (.launchOp (.setGrp (.useCaches h)))
    · exact .setGrp (.openService h)
    · exact .setGrp h

/-! ### LoadStore -/

theorem loadUnit_kept {maj fn size n sx x m} (h : Kept s t) : KeptOut s (loadUnit maj fn size n sx x m t) :=
  issue_kept h fun _ _ _ _ => .ite .wait (.st (.issueOps h))

theorem execLdI8_kept {x m} (h : Kept s t) : KeptOut s (execLdI8 x m t) :=
  loadUnit_kept h

theorem execLdN8_kept {x m} (h : Kept s t) : KeptOut s (execLdN8 x m t) :=
  loadUnit_kept h

theorem execLdI16_kept {x m} (h : Kept s t) : KeptOut s (execLdI16 x m t) :=
  loadUnit_kept h

theorem execLdN16_kept {x m} (h : Kept s t) : KeptOut s (execLdN16 x m t) :=
  loadUnit_kept h

theorem execLdB32_kept {x m} (h : Kept s t) : KeptOut s (execLdB32 x m t) :=
  loadUnit_kept h

theorem execLdB64_kept {x m} (h : Kept s t) : KeptOut s (execLdB64 x m t) :=
  loadUnit_kept h

theorem execLdB128_kept {x m} (h : Kept s t) : KeptOut s (execLdB128 x m t) :=
  loadUnit_kept h

theorem execLdwB32_kept {x m} (h : Kept s t) : KeptOut s (execLdwB32 x m t) :=
  loadUnit_kept h

theorem execLdwB64_kept {x m} (h : Kept s t) : KeptOut s (execLdwB64 x m t) :=
  loadUnit_kept h

theorem execLdwB128_kept {x m} (h : Kept s t) : KeptOut s (execLdwB128 x m t) :=
  loadUnit_kept h

theorem execLdm_kept {x m} (h : Kept s t) : KeptOut s (execLdm x m t) := by
  unfold execLdm
  exact issue_kept h fun _ _ _ _ => .ite .wait (.st (.issueOps h))

theorem storeUnit_kept {maj fn size x m} (h : Kept s t) : KeptOut s (storeUnit maj fn size x m t) :=
  issue_kept h fun _ _ _ _ => .ite .wait (.st (.issueOps h))

theorem execStB8_kept {x m} (h : Kept s t) : KeptOut s (execStB8 x m t) :=
  storeUnit_kept h

theorem execStB16_kept {x m} (h : Kept s t) : KeptOut s (execStB16 x m t) :=
  storeUnit_kept h

theorem execStB32_kept {x m} (h : Kept s t) : KeptOut s (execStB32 x m t) :=
  storeUnit_kept h

theorem execStB64_kept {x m} (h : Kept s t) : KeptOut s (execStB64 x m t) :=
  storeUnit_kept h

theorem execStB128_kept {x m} (h : Kept s t) : KeptOut s (execStB128 x m t) :=
  storeUnit_kept h

theorem execStwB32_kept {x m} (h : Kept s t) : KeptOut s (execStwB32 x m t) :=
  storeUnit_kept h

theorem execStwB64_kept {x m} (h : Kept s t) : KeptOut s (execStwB64 x m t) :=
  storeUnit_kept h

theorem execStwB128_kept {x m} (h : Kept s t) : KeptOut s (execStwB128 x m t) :=
  storeUnit_kept h

theorem execStm_kept {x m} (h : Kept s t) : KeptOut s (execStm x m t) := by
  unfold execStm
  exact issue_kept h fun _ _ _ _ => .ite .wait (.st (.issueOps h))

theorem staUnit_kept {fn size x m} (h : Kept s t) : KeptOut s (staUnit fn size x m t) :=
  issue_kept h fun _ _ _ _ => .ite .wait (.st (.issueOps h))

theorem execSta_kept {x m} (h : Kept s t) : KeptOut s (execSta x m t) :=
  staUnit_kept h

theorem execSta64_kept {x m} (h : Kept s t) : KeptOut s (execSta64 x m t) :=
  staUnit_kept h

theorem wgmAtomUnit_kept {fn n kind x m} (h : Kept s t) : KeptOut s (wgmAtomUnit fn n kind x m t) := by
  unfold wgmAtomUnit
  exact issue_kept h fun _ _ _ _ => .ite .wait (.st (.issueOps h))

theorem execWadd_kept {x m} (h : Kept s t) : KeptOut s (execWadd x m t) :=
  wgmAtomUnit_kept h

theorem execWcas_kept {x m} (h : Kept s t) : KeptOut s (execWcas x m t) :=
  wgmAtomUnit_kept h

theorem execWait_kept {ld st tl mx} (h : Kept s t) : KeptOut s (execWait ld st tl mx t) :=
  issue_kept h fun _ _ _ _ => .ite .grp .wait

theorem execWaitr_kept {p a} (h : Kept s t) : KeptOut s (execWaitr p a t) :=
  issue_kept h fun _ _ _ _ => .ite .grp .wait

theorem execCinv_kept {a} (h : Kept s t) : KeptOut s (execCinv a t) :=
  issue2_kept h (fun _ _ _ _ => by
    extract_lets +onlyGivenNames s1
    refine .ite (.st (.l1Clear (.setGrp h))) ?_
    split
    · exact .st (.l1Drop (.setGrp h))
    · exact .st (.setGrp h)) fun _ _ _ _ => passEff_kept

theorem execCwb_kept {a} (h : Kept s t) : KeptOut s (execCwb a t) :=
  issue2_kept h (fun _ _ _ _ => by
    extract_lets +onlyGivenNames s1
    split
    · exact .ite (.st (.setLine (.flushLine (.setGrp h)))) (.st (.setGrp h))
    · exact .st (.setGrp h)) fun _ _ _ _ => passEff_kept

theorem execCrsz_kept {d a} (h : Kept s t) : KeptOut s (execCrsz d a t) :=
  issue_kept h fun _ _ _ _ => .ite .wait (.st (.setGrp (.frame h)))

theorem execPref_kept {a l} (h : Kept s t) : KeptOut s (execPref a l t) :=
  issue2_kept h (fun _ _ _ _ => by
    extract_lets +onlyGivenNames s1
    split
    · refine .ite ?_ .wait
      extract_lets +onlyGivenNames s2
      have hs2 : Kept s s2 := .ite (.energy (.setGrp h)) (.setGrp h)
      exact .st (.ite (.l1Fill (.getS hs2)) (.getS hs2))
    · exact .st (.setGrp h)) fun _ _ _ _ => passEff_kept

/-! ### Atomics -/

theorem atomUnit_kept {n x d a b scope} (h : Kept s t) : KeptOut s (atomUnit n x d a b scope t) := by
  unfold atomUnit
  exact issue_kept h fun _ _ _ _ => .ite .wait (.st (.issueOps h))

theorem redUnit_kept {n x agg a b scope} (h : Kept s t) : KeptOut s (redUnit n x agg a b scope t) := by
  unfold redUnit
  exact issue_kept h fun _ _ _ _ => .ite .wait (.st (.issueOps h))

theorem execAtomAdd_kept {x d a b scope} (h : Kept s t) : KeptOut s (execAtomAdd x d a b scope t) :=
  atomUnit_kept h

theorem execAtomSub_kept {x d a b scope} (h : Kept s t) : KeptOut s (execAtomSub x d a b scope t) :=
  atomUnit_kept h

theorem execAtomMin_kept {x d a b scope} (h : Kept s t) : KeptOut s (execAtomMin x d a b scope t) :=
  atomUnit_kept h

theorem execAtomMax_kept {x d a b scope} (h : Kept s t) : KeptOut s (execAtomMax x d a b scope t) :=
  atomUnit_kept h

theorem execAtomMinn_kept {x d a b scope} (h : Kept s t) : KeptOut s (execAtomMinn x d a b scope t) :=
  atomUnit_kept h

theorem execAtomMaxn_kept {x d a b scope} (h : Kept s t) : KeptOut s (execAtomMaxn x d a b scope t) :=
  atomUnit_kept h

theorem execAtomAnd_kept {x d a b scope} (h : Kept s t) : KeptOut s (execAtomAnd x d a b scope t) :=
  atomUnit_kept h

theorem execAtomOr_kept {x d a b scope} (h : Kept s t) : KeptOut s (execAtomOr x d a b scope t) :=
  atomUnit_kept h

theorem execAtomXor_kept {x d a b scope} (h : Kept s t) : KeptOut s (execAtomXor x d a b scope t) :=
  atomUnit_kept h

theorem execAtomXchg_kept {x d a b scope} (h : Kept s t) : KeptOut s (execAtomXchg x d a b scope t) :=
  atomUnit_kept h

theorem execAtomCas_kept {x d a b scope} (h : Kept s t) : KeptOut s (execAtomCas x d a b scope t) :=
  atomUnit_kept h

theorem execAtomFadd_kept {x d a b scope} (h : Kept s t) : KeptOut s (execAtomFadd x d a b scope t) :=
  atomUnit_kept h

theorem execAtomFmin_kept {x d a b scope} (h : Kept s t) : KeptOut s (execAtomFmin x d a b scope t) :=
  atomUnit_kept h

theorem execAtomFmax_kept {x d a b scope} (h : Kept s t) : KeptOut s (execAtomFmax x d a b scope t) :=
  atomUnit_kept h

theorem execAtomBfadd2_kept {x d a b scope} (h : Kept s t) : KeptOut s (execAtomBfadd2 x d a b scope t) :=
  atomUnit_kept h

theorem execAtomIncw_kept {x d a b scope} (h : Kept s t) : KeptOut s (execAtomIncw x d a b scope t) :=
  atomUnit_kept h

theorem execRedAdd_kept {x agg a b scope} (h : Kept s t) : KeptOut s (execRedAdd x agg a b scope t) :=
  redUnit_kept h

theorem execRedSub_kept {x agg a b scope} (h : Kept s t) : KeptOut s (execRedSub x agg a b scope t) :=
  redUnit_kept h

theorem execRedMin_kept {x agg a b scope} (h : Kept s t) : KeptOut s (execRedMin x agg a b scope t) :=
  redUnit_kept h

theorem execRedMax_kept {x agg a b scope} (h : Kept s t) : KeptOut s (execRedMax x agg a b scope t) :=
  redUnit_kept h

theorem execRedMinn_kept {x agg a b scope} (h : Kept s t) : KeptOut s (execRedMinn x agg a b scope t) :=
  redUnit_kept h

theorem execRedMaxn_kept {x agg a b scope} (h : Kept s t) : KeptOut s (execRedMaxn x agg a b scope t) :=
  redUnit_kept h

theorem execRedAnd_kept {x agg a b scope} (h : Kept s t) : KeptOut s (execRedAnd x agg a b scope t) :=
  redUnit_kept h

theorem execRedOr_kept {x agg a b scope} (h : Kept s t) : KeptOut s (execRedOr x agg a b scope t) :=
  redUnit_kept h

theorem execRedXor_kept {x agg a b scope} (h : Kept s t) : KeptOut s (execRedXor x agg a b scope t) :=
  redUnit_kept h

theorem execRedFadd_kept {x agg a b scope} (h : Kept s t) : KeptOut s (execRedFadd x agg a b scope t) :=
  redUnit_kept h

theorem execRedFmin_kept {x agg a b scope} (h : Kept s t) : KeptOut s (execRedFmin x agg a b scope t) :=
  redUnit_kept h

theorem execRedFmax_kept {x agg a b scope} (h : Kept s t) : KeptOut s (execRedFmax x agg a b scope t) :=
  redUnit_kept h

theorem execRedBfadd2_kept {x agg a b scope} (h : Kept s t) : KeptOut s (execRedBfadd2 x agg a b scope t) :=
  redUnit_kept h

theorem Kept.homeAtomic {rid da op b c} (h : Kept s t) : KeptSnd s (t.homeAtomic rid da op b c) := by
  unfold State.homeAtomic
  exact .mk (.filterAdd (.homeWrite (.recall h)))

theorem Kept.atomLane {k g o lane} (h : Kept s t) : Kept s (t.atomLane k g o lane) := by
  unfold State.atomLane
  split
  · exact h
  · split
    · extract_lets +onlyGivenNames op earlier
      clear_value op
      split
      · exact h
      · exact .ite h (.ite (.cuFlush h) (.modGrp (.l1Drop (.energy (.homeAtomic h)))))
    · exact h

theorem Kept.returnAtom {k g o} (h : Kept s t) : Kept s (t.returnAtom k g o) :=
  .ite h (.setGrp (.filterDrop (.ite (.l1Clear h) h)))

theorem Kept.doneRed {k g o} (h : Kept s t) : Kept s (t.doneRed k g o) :=
  .ite h (.setGrp (.filterDrop h))

theorem execAtomicPerform_kept {k op lane} (h : Kept s t) : KeptOut s (execAtomicPerform k op lane t) :=
  .next (by
    split
    · split
      · exact .atomLane h
      · exact h
    · exact h)

/-! ### Router -/

theorem Kept.putFlit {c t2 vc bands p} (h : Kept s t) : Kept s (t.putFlit c t2 vc bands p) := by
  unfold State.putFlit
  exact .setPair h

theorem Kept.pump {c d vcs n} (h : Kept s t) : Kept s (t.pump c d vcs n) := by
  induction n generalizing t with
  | zero => exact h
  | succ n ih =>
    unfold State.pump
    split
    · exact h
    · exact ih (.putFlit (.setPair h))

theorem Kept.pumpAll (h : Kept s t) : Kept s (t.pumpAll) := by
  unfold State.pumpAll
  exact .foldl (.foldl h fun _ _ h0 => .ite h0 (.pump h0)) fun _ _ h0 => .ite h0 (.pump h0)

theorem Kept.wakeIf {c t2} (h : Kept s t) : Kept s (t.wakeIf c t2) := by
  unfold State.wakeIf
  exact .ite (.setPair h) h

theorem Kept.sendPkt {p} (h : Kept s t) : Kept s (t.sendPkt p) := by
  unfold State.sendPkt
  refine .ite h ?_
  extract_lets +onlyGivenNames v p1 new s1
  have hs1 : Kept s s1 := .wakeIf (.setPair h)
  exact .pump (.ite (.logged hs1) hs1)

theorem Kept.resend {l} (h : Kept s t) : Kept s (t.resend l) := by
  unfold State.resend
  exact .foldl (.foldl h fun _ _ h1 => .setPair h1) fun _ _ h1 => .logged h1

theorem Kept.giveUp {c t2} (h : Kept s t) : Kept s (t.giveUp c t2) := by
  unfold State.giveUp
  exact .pumpAll (.resend (.setPair (.frame h)))

theorem Kept.cutOff {x} (h : Kept s t) : Kept s (t.cutOff x) := by
  unfold State.cutOff
  exact .pumpAll (.resend (.frame h))

/-! ### ObjUnits -/

theorem execLdo_kept {x d a b} (h : Kept s t) : KeptOut s (execLdo x d a b t) :=
  issue_kept h fun _ _ _ _ => .ite .wait (.st (.issueOps h))

theorem execSto_kept {x d a b} (h : Kept s t) : KeptOut s (execSto x d a b t) :=
  issue_kept h fun _ _ _ _ => .ite .wait (.st (.issueOps h))

theorem execLdob_kept {x d a b} (h : Kept s t) : KeptOut s (execLdob x d a b t) := by
  unfold execLdob
  exact issue_kept h fun _ _ _ _ => .ite .wait (.st (.issueOps h))

theorem execStob_kept {x d a b} (h : Kept s t) : KeptOut s (execStob x d a b t) := by
  unfold execStob
  exact issue_kept h fun _ _ _ _ => .ite .wait (.st (.issueOps h))

theorem execOinfo_kept {x d a n} (h : Kept s t) : KeptOut s (execOinfo x d a n t) :=
  issue_kept h fun _ _ _ _ => .st (.setGrp (.startWalk (.frame h)))

theorem execOprobe_kept {x d a b} (h : Kept s t) : KeptOut s (execOprobe x d a b t) :=
  issue_kept h fun _ _ _ _ => .grp

/-! ### Fences -/

theorem passOrAgg_kept {k g after} (h : Kept s t) (ha : Kept s after) : KeptEff s
    (passOrAgg t k g after) := by
  unfold passOrAgg
  split
  · exact .st (.takeTrap h)
  · exact .st ha

theorem execFence_kept {kind scope} (h : Kept s t) : KeptOut s (execFence kind scope t) :=
  issue2_kept h (fun _ _ _ _ => .ite .wait (.ite .wait (.ite (.waitSt (.cuFlush h))
      (passOrAgg_kept h (.ite (.l1Clear (.setGrp h)) (.setGrp h)))))) fun _ _ _ _ => passEff_kept

theorem execPfence_kept {p t1} (h : Kept s t) : KeptOut s (execPfence p t1 t) :=
  issue2_kept h (fun _ _ _ _ => .ite .grp .wait) fun _ _ _ _ => passEff_kept

theorem execFla_kept (h : Kept s t) : KeptOut s (execFla t) := by
  unfold execFla
  exact issue2_kept h (fun _ _ _ _ => .ite (.waitSt (.modGrp (.cuFlush h)))
      (.ite (.waitSt (.modGrp h)) (passOrAgg_kept h (.setGrp h)))) fun _ _ _ _ => passEff_kept

theorem Kept.monStatus {k st} (h : Kept s t) : Kept s (t.monStatus k st) :=
  .modHome h

theorem Kept.armAt {k n da via cmp v deadline} (h : Kept s t) : Kept s
    (t.armAt k n da via cmp v deadline) := by
  unfold State.armAt
  extract_lets +onlyGivenNames s0
  have hs0 : Kept s s0 := .quiet (.settleLine h)
  refine .ite (.monStatus hs0) ?_
  extract_lets +onlyGivenNames slice mine s1 line s2
  have hs1 : Kept s s1 := by
    unfold s1
    refine .ite hs0 ?_
    split
    · exact .monStatus (.modHome hs0)
    · exact hs0
  exact .modHome (.fresh1 (by
    refine .ite hs1 ?_
    split
    · exact .setDir (.setLine (.homeUse (.flushLine hs1)))
    · exact .recallAll hs1
    · exact hs1))

theorem Kept.armMon {k g da via cmp v deadline} (h : Kept s t) : Kept s
    (t.armMon k g da via cmp v deadline) :=
  .armAt (.l1Drop h)

theorem Kept.mwaitGo {k g o places} (h : Kept s t) : Kept s (t.mwaitGo k g o places) := by
  unfold State.mwaitGo
  extract_lets +onlyGivenNames s1
  split
  · exact .armMon (.setGrp h)
  · exact .ite (.recordFault (.setGrp h)) (.fabSend (.modGrp (.fresh1 (.setGrp h))))
  · exact .monStatus (.setGrp h)

theorem Kept.mwaitTry {k g o} (h : Kept s t) : Kept s (t.mwaitTry k g o) := by
  unfold State.mwaitTry
  split
  · exact .recordFault h
  · exact .mwaitGo h
  · exact .setGrp (.openService h)
  · exact .setGrp h

theorem execMwait_kept {y d a b} (h : Kept s t) : KeptOut s (execMwait y d a b t) := by
  unfold execMwait
  exact issue_kept h fun _ _ _ _ => .ite .trap (.st (.mwaitTry (.setGrp (.frame h))))

theorem Kept.giveStatus {k g st} (h : Kept s t) : Kept s (t.giveStatus k g st) := by
  unfold State.giveStatus
  exact .setGrp (.l1Clear h)

theorem Kept.answerMon {k st} (h : Kept s t) : Kept s (t.answerMon k st) := by
  unfold State.answerMon
  exact .fabSend h

theorem Kept.statusTo {k st} (h : Kept s t) : Kept s (t.statusTo k st) := by
  unfold State.statusTo
  split
  · exact h
  · exact .ite h (.ite (.giveStatus h) (.pushWoken (.applied (.setGrp h))))

theorem execMonitorStatusDeliver_kept {k} (h : Kept s t) : KeptOut s (execMonitorStatusDeliver k t) :=
  .next (by
    split
    · split
      · exact .ite (.statusTo h) h
      · exact h
    · exact .ite (.answerMon (.modHome h)) (.statusTo (.modHome h)))

theorem execMonitorTimeout_kept {k} (h : Kept s t) : KeptOut s (execMonitorTimeout k t) :=
  .next (by
    split
    · exact h
    · exact .monStatus (.modHome (.atLeast h)))

/-! ### SyncUnits -/

theorem Kept.endWait {k g} (h : Kept s t) : Kept s (t.endWait k g) :=
  .setGrp (.ite (.l1Clear h) h)

theorem Kept.syncWake (h : Kept s t) : Kept s (t.syncWake) :=
  .foldl h fun _ _ h0 => by
    split
    · exact .ite (.endWait h0) h0
    · exact h0

theorem waitUnit_kept {u park arg pre} (h : Kept s t) (hp : ∀ u, Kept s u → ∀ k g, KeptOptEff s (pre u k g)) :
    KeptOut s (waitUnit u park arg pre t) :=
  issue_kept h fun k _ g _ => by
    have hk := hp t h k g
    split
    · next e => exact hk.along e
    · extract_lets g2
      split
      · exact .st (.endWait h)
      · exact .st (.setGrp h)

theorem selTrap_kept {u0 g a} : KeptEff s (selTrap u0 g a) :=
  .trap

theorem execTlrd_kept {d a} (h : Kept s t) : KeptOut s (execTlrd d a t) := by
  unfold execTlrd
  exact issue_kept h fun _ _ _ _ => by
    extract_lets +onlyGivenNames sel
    refine .ite selTrap_kept ?_
    extract_lets +onlyGivenNames s1
    have hs1 : Kept s s1 := .setGrp (.frame h)
    exact .st (.ite hs1 (.l1Clear hs1))

theorem execTlwait_kept {a b} (h : Kept s t) : KeptOut s (execTlwait a b t) := by
  unfold execTlwait
  exact waitUnit_kept h (fun _ h0 _ _ => by
    split
    · exact .none
    · exact .some selTrap_kept)

theorem execWaitk_kept {h0 l} (h : Kept s t) : KeptOut s (execWaitk h0 l t) :=
  waitUnit_kept h fun _ _ _ _ => .none

theorem Kept.arrive {k g g1} (h : Kept s t) : Kept s (t.arrive k g g1) :=
  .barCheck (.modWg (.setGrp h))

theorem execBar_kept (h : Kept s t) : KeptOut s (execBar t) :=
  issue_kept h fun _ _ _ _ => .ite .wait (.st (.arrive h))

theorem execBarPx_kept (h : Kept s t) : KeptOut s (execBarPx t) :=
  issue_kept h fun _ _ _ _ => .ite .wait (.st (.arrive h))

theorem execBalloc_kept {d a b} (h : Kept s t) : KeptOut s (execBalloc d a b t) := by
  unfold execBalloc
  exact issue_kept h fun _ _ _ _ => by
    extract_lets +onlyGivenNames v
    refine .ite .trap ?_
    split
    · exact .wait
    · exact .ite .grp (.st (.setGrp (.setWg h)))

theorem barUnit_kept {u a f} (h : Kept s t) (hf : ∀ u, Kept s u → ∀ k g g1 w b, KeptEff s (f u k g g1 w b)) :
    KeptOut s (barUnit u a f t) :=
  issue_kept h fun _ _ _ _ => by
    split
    · exact .wait
    · split
      · exact .trap
      · exact hf _ h ..

theorem Kept.barFreed {w h2} (h : Kept s t) : Kept s (t.barFreed w h2) :=
  .foldl h fun _ _ h0 => by
    split
    · exact .takeTrap h0
    · exact h0

theorem execBfree_kept {a} (h : Kept s t) : KeptOut s (execBfree a t) :=
  barUnit_kept h (fun _ h0 _ _ _ _ _ => .ite (.st (.barFreed (.setWg (.setGrp h0))))
      (.st (.setWg (.setGrp h0))))

theorem execBarv_kept {d a} (h : Kept s t) : KeptOut s (execBarv d a t) := by
  unfold execBarv
  exact barUnit_kept h (fun _ h0 _ _ _ _ _ => .ite .trap (.st (.setWg (.setGrp (.frame h0)))))

theorem execBarvReleaseDone_kept {k op} (h : Kept s t) : KeptOut s (execBarvReleaseDone k op t) :=
  .next (by
    split
    · exact h
    · split
      · exact h
      · refine .ite h ?_
        extract_lets +onlyGivenNames s1
        split
        · exact .setGrp h
        · exact .syncWake (.setWg (.setGrp h)))

theorem execBarw_kept {a b} (h : Kept s t) : KeptOut s (execBarw a b t) := by
  unfold execBarw
  exact waitUnit_kept h (fun _ h0 _ _ => by
    split
    · split
      · exact .none
      · exact .some .trap
    · exact .some .wait)

theorem execBarx_kept {a b} (h : Kept s t) : KeptOut s (execBarx a b t) := by
  unfold execBarx
  exact barUnit_kept h (fun _ h0 _ _ _ _ _ => .ite .trap (.st (.syncWake (.setWg (.setGrp h0)))))

theorem Kept.nameSema {w n} (h : Kept s t) : KeptOpt s (t.nameSema w n) := by
  unfold State.nameSema
  split
  · exact .none
  · split
    · exact .some h
    · split
      · exact .none
      · exact .some (.setWg h)

theorem Kept.semaSet {w n f} (h : Kept s t) : Kept s (t.semaSet w n f) :=
  .syncWake (.modWg h)

theorem semaUnit_kept {u0 a b f} (h : Kept s t) : KeptOut s (semaUnit u0 a b f t) :=
  issue_kept h fun _ _ _ _ => by
    extract_lets +onlyGivenNames n
    split
    · exact .wait
    · next e0 => exact .ite .wait (.st (.semaSet (.setGrp ((Kept.nameSema h).along e0))))

theorem execSemaAdd_kept {a b} (h : Kept s t) : KeptOut s (execSemaAdd a b t) :=
  semaUnit_kept h

theorem execSemaSet_kept {a b} (h : Kept s t) : KeptOut s (execSemaSet a b t) :=
  semaUnit_kept h

theorem execSemw_kept {a b} (h : Kept s t) : KeptOut s (execSemw a b t) :=
  issue_kept h fun _ _ _ _ => by
    split
    · exact .wait
    · next e0 =>
        exact .ite (.st (.endWait ((Kept.nameSema h).along e0))) (.st (.setGrp ((Kept.nameSema h).along e0)))

/-! ### CopyUnits -/

theorem Kept.startCopy {wk k} (h : Kept s t) : Kept s (t.startCopy wk k) := by
  unfold State.startCopy
  split
  · exact h
  · split
    · exact h
    · exact .ite h (.setWg (.fresh1 h))

theorem copyUnit_kept {fn d a n} (h : Kept s t) : KeptOut s (copyUnit fn d a n t) := by
  unfold copyUnit
  exact issue_kept h fun _ _ _ _ => by
    split
    · exact .wait
    · extract_lets +onlyGivenNames num l
      refine .ite .wait (.ite .wait (.ite .trap ?_))
      extract_lets +onlyGivenNames sem
      have hs : KeptOpt s sem := by
        unfold sem
        split
        · exact Kept.nameSema h
        · exact h
      clear_value sem
      split
      · exact .wait
      · exact .st (.startCopy (.setGrp (.setWg (.frame hs))))

theorem execCpy_kept {d a n} (h : Kept s t) : KeptOut s (execCpy d a n t) :=
  copyUnit_kept h

theorem execCpyb_kept {d a n} (h : Kept s t) : KeptOut s (execCpyb d a n t) :=
  copyUnit_kept h

theorem execCpyt_kept {d a n} (h : Kept s t) : KeptOut s (execCpyt d a n t) :=
  copyUnit_kept h

theorem execCpyx_kept {d a n} (h : Kept s t) : KeptOut s (execCpyx d a n t) :=
  copyUnit_kept h

theorem execGath_kept {d a n} (h : Kept s t) : KeptOut s (execGath d a n t) :=
  copyUnit_kept h

theorem execScat_kept {d a n} (h : Kept s t) : KeptOut s (execScat d a n t) :=
  copyUnit_kept h

theorem execScata_kept {d a n} (h : Kept s t) : KeptOut s (execScata d a n t) :=
  copyUnit_kept h

theorem Kept.cplaces {who w sp a n need wr whole} (h : Kept s t) : KeptHold s
    (t.cplaces who w sp a n need wr whole) := by
  unfold State.cplaces
  extract_lets +onlyGivenNames va
  split
  · extract_lets +onlyGivenNames x one rs
    split
    · exact .fault
    · split
      · exact .fault
      · split
        · exact .hold (.parkOn h)
        · exact .hold h
        · exact .ite .ok (.hold h)
  · split
    · exact .fault
    · exact .ok

theorem Kept.cwrite {wk sp ps bs} (h : Kept s t) : Kept s (t.cwrite wk sp ps bs) := by
  unfold State.cwrite
  exact .modWg (.foldl h fun _ _ h1 => .homeWrite h1)

theorem Kept.modSlice {wk c i f} (h : Kept s t) : Kept s (t.modSlice wk c i f) :=
  .modWg h

theorem Kept.copyReq {w type op ps bs} (h : Kept s t) : KeptSnd s (t.copyReq w type op ps bs) := by
  unfold State.copyReq
  split
  · exact Kept.runReq h
  · exact .mk h

theorem Kept.readFor {wk w c i l sp va ps} (h : Kept s t) : KeptSnd s (t.readFor wk w c i l sp va ps) := by
  unfold State.readFor
  split
  · exact .mk h
  · split
    · exact .mk (.modSlice h)
    · split
      · exact .mk h
      · exact .mk (.modSlice (.copyReq h))

theorem Kept.listEntry {wk w c i l k} (h : Kept s t) : KeptEntry s (t.listEntry wk w c i l k) := by
  unfold State.listEntry
  extract_lets +onlyGivenNames e known a
  clear_value known
  split
  · exact h
  · split
    · exact h
    · split
      · trivial
      · next e => exact (Kept.cplaces h).along e
      · split
        · next e => exact (Kept.readFor h).along e
        · next e => exact Kept.modSlice ((Kept.readFor h).along e)

theorem Kept.fillStage {wk c i n fuel} (h : Kept s t) : KeptRun s (State.fillStage wk c i n fuel t) := by
  induction fuel generalizing t with
  | zero => exact h
  | succ fuel ih =>
    unfold State.fillStage
    split
    · exact h
    · extract_lets +onlyGivenNames k
      split
      · exact h
      · split
        split
        extract_lets +onlyGivenNames m
        split
        · exact h
        · next e => exact (Kept.cplaces h).along e
        · split
          · next e => exact (Kept.readFor h).along e
          · next e => exact ih (.modSlice (.energy ((Kept.readFor h).along e)))

theorem Kept.putMove {wk w c i l ds va qs out} (h : Kept s t) : Kept s
    (t.putMove wk w c i l ds va qs out) := by
  unfold State.putMove
  extract_lets +onlyGivenNames aop
  refine .ite (.modSlice (.copyReq h)) ?_
  refine .ite ?_ (.cwrite h)
  split
  · exact .homeWrite (.recall h)
  · exact h

theorem Kept.doMove {wk c i} (h : Kept s t) : KeptRun s (t.doMove wk c i) := by
  unfold State.doMove
  split
  · exact h
  · split
    · exact h
    · next e => exact (Kept.listEntry h).along e
    · next e =>
      have h1 : Kept s _ := (Kept.listEntry h).along e
      extract_lets +onlyGivenNames m
      split
      · exact h1
      · split
        · next e => exact (Kept.fillStage h1).along e
        · next e => exact (Kept.fillStage h1).along e
        · next e =>
          have h2 : Kept s _ := (Kept.fillStage h1).along e
          split
          · exact h2
          · exact h2
          · next e _ => exact (Kept.cplaces h2).along e
          · exact .go (.modSlice (.putMove (.energy h2)))

theorem Kept.runMoves {wk c i fuel} (h : Kept s t) : KeptRun s (State.runMoves wk c i fuel t) := by
  induction fuel generalizing t with
  | zero => exact h
  | succ fuel ih =>
    unfold State.runMoves
    split
    · exact h
    · split
      · exact h
      · have hm := Kept.doMove (wk := wk) (c := c) (i := i) h
        split
        · next e => exact ih (hm.along e)
        · exact hm

theorem Kept.faultGroup {wk idx f} (h : Kept s t) : Kept s (t.faultGroup wk idx f) := by
  unfold State.faultGroup
  split
  · exact .recordFault h
  · exact h

theorem Kept.copyBar {wk w l why bh} (h : Kept s t) : Kept s (t.copyBar wk w l why bh) := by
  unfold State.copyBar
  extract_lets +onlyGivenNames x0
  split
  · split
    · exact .recordFault h
    · exact h
  · split
    · exact .modCtx (.dropWork h)
    · exact h

theorem Kept.sliceDone {wk c i} (h : Kept s t) : Kept s (t.sliceDone wk c i) := by
  unfold State.sliceDone
  extract_lets +onlyGivenNames x0 s0 s1
  have hs0 : Kept s s0 := by
    unfold s0
    split
    · exact .modWg (.pull h)
    · exact .pull h
  split
  · exact .modSlice hs0
  · split
    · exact .modSlice hs0
    · split
      · refine .ite (.modSlice hs0) ?_
        extract_lets +onlyGivenNames bh
        split
        · exact .copyBar (.applied (.modSlice hs0))
        · exact .ite (.copyBar (.modSlice hs0)) (.syncWake (.applied (.setWg (.modSlice hs0))))
      · exact .modSlice hs0

theorem Kept.sliceFault {wk c i l cause a t7} (h : Kept s t) : Kept s (t.sliceFault wk c i l cause a t7) :=
  .faultGroup (.sliceDone h)

theorem Kept.verPlaces {who w l} (h : Kept s t) : KeptHold s (t.verPlaces who w l) :=
  Kept.cplaces h

theorem Kept.readVer {wk w c i l ps} (h : Kept s t) : KeptSnd s (t.readVer wk w c i l ps) :=
  .mk (.readFor h)

theorem Kept.setVer {wk w c i l ps v} (h : Kept s t) : Kept s (t.setVer wk w c i l ps v) :=
  .putMove h

theorem Kept.destsFrom {who w l fuel k} (h : Kept s t) : KeptHold s (t.destsFrom who w l fuel k) := by
  induction fuel generalizing k with
  | zero => exact .ok
  | succ fuel ih =>
    unfold State.destsFrom
    split
    · exact .ok
    · extract_lets m
      split
      · exact .fault
      · next e => exact (Kept.cplaces h).along e
      · split
        · exact .ok
        · exact ih

theorem Kept.srcsFrom {who w l fuel k} (h : Kept s t) : KeptHold s (t.srcsFrom who w l fuel k) := by
  induction fuel generalizing k with
  | zero => exact .ok
  | succ fuel ih =>
    unfold State.srcsFrom
    split
    · exact .ok
    · obtain ⟨sp, a, rest⟩ := l.srcAt k 0 0
      dsimp only
      split
      · exact .fault
      · next e => exact KeptHold.hold ((Kept.cplaces h).along e)
      · exact ih

theorem Kept.writeStaged {wk w c i l n k ps bs} (h : Kept s t) : Kept s
    (State.writeStaged wk w c i l n k ps bs t) := by
  induction n generalizing t k ps bs with
  | zero => exact h
  | succ n ih =>
    unfold State.writeStaged
    exact .ite h (ih (.putMove h))

theorem Kept.aonWrite {wk w c i l v} (h : Kept s t) : Kept s (t.aonWrite wk w c i l v) :=
  .modSlice (.writeStaged h)

theorem Kept.askDests {wk w c i l ds} (h : Kept s t) : Kept s (t.askDests wk w c i l ds) :=
  .foldl (.modSlice h) fun _ _ h0 => .modSlice (.runReq h0)

theorem execAonVersionAcquire_kept {wk c i} (h : Kept s t) : KeptOut s (execAonVersionAcquire wk c i t) := by
  unfold execAonVersionAcquire
  refine .next ?_
  split
  · exact h
  · refine .ite h (.ite ?_ (.ite (.ite h ?_) (.ite ?_ ?_)))
    · split
      · exact .sliceFault h
      · next e => exact (Kept.srcsFrom h).along e
      · exact .sliceFault h
      · next e _ _ => exact (Kept.destsFrom h).along e
      · exact .sliceFault h
      · next e _ _ _ _ => exact (Kept.verPlaces h).along e
      · refine .ite (.askDests h) (.ite h ?_)
        split
        · next e => exact .sliceFault ((Kept.fillStage h).along e)
        · next e => exact (Kept.fillStage h).along e
        · next e => exact .modSlice ((Kept.fillStage h).along e)
    · extract_lets v
      exact .ite h (.aonWrite (.setVer h))
    · split
      · exact .modSlice h
      · exact .ite h (.modSlice (.copyReq h))
    · split
      · next e => exact .aonWrite ((Kept.readVer h).along e)
      · next e => exact (Kept.readVer h).along e

theorem execVerPassEnd_kept {wk c i} (h : Kept s t) : KeptOut s (execVerPassEnd wk c i t) :=
  .next (by
    split
    · exact h
    · refine .ite h ?_
      split
      · split
        · exact .sliceFault h
        · next e0 => exact (Kept.verPlaces h).along e0
        · split
          · next e1 => exact .ite ((Kept.readVer h).along e1) (.modSlice ((Kept.readVer h).along e1))
          · next e1 => exact (Kept.readVer h).along e1
      · split
        · next e0 => exact .sliceFault ((Kept.runMoves h).along e0)
        · next e0 => exact (Kept.runMoves h).along e0
        · next e0 =>
            split
            · exact (Kept.runMoves h).along e0
            · split
              · exact .sliceFault ((Kept.runMoves h).along e0)
              · next e1 => exact (Kept.verPlaces ((Kept.runMoves h).along e0)).along e1
              · split
                · next e2 => exact .modSlice ((Kept.readVer ((Kept.runMoves h).along e0)).along e2)
                · next e2 => exact ((Kept.readVer ((Kept.runMoves h).along e0)).along e2))

theorem execCopySliceComplete_kept {wk c i} (h : Kept s t) : KeptOut s (execCopySliceComplete wk c i t) :=
  .next (by
    split
    · exact h
    · refine .ite ?_ ?_
      · split
        · exact h
        · refine .ite h ?_
          refine .ite (.sliceDone h) ?_
          refine .ite h ?_
          extract_lets +onlyGivenNames s1
          have hs1 : Kept s s1 := .modSlice (.setVer h)
          exact .ite hs1 (.sliceDone hs1)
      · refine .ite (.ite (.sliceDone h) h) ?_
        split
        · next e0 => exact .sliceFault ((Kept.runMoves h).along e0)
        · next e0 => exact (Kept.runMoves h).along e0
        · next e0 =>
            split
            · exact .ite (.sliceDone ((Kept.runMoves h).along e0)) ((Kept.runMoves h).along e0)
            · exact ((Kept.runMoves h).along e0))

theorem Kept.handSlices {wk f} (h : Kept s t) : Kept s (t.handSlices wk f) :=
  .modWg h

theorem execCopyStart_kept {wk c} (h : Kept s t) : KeptOut s (execCopyStart wk c t) := by
  unfold execCopyStart
  exact .next (by
    split
    · exact .startCopy h
    · exact .handSlices (.startCopy h))

theorem Kept.reap {wk} (h : Kept s t) : Kept s (t.reap wk) := by
  unfold State.reap
  split
  · exact .noteIdle (.ite (.frame h) h)
  · exact h

theorem execCopyComplete_kept {wk c} (h : Kept s t) : KeptOut s (execCopyComplete wk c t) := by
  unfold execCopyComplete
  exact .next (by
    split
    · exact .pull h
    · split
      · exact .pull h
      · refine .ite (.pull h) ?_
        extract_lets +onlyGivenNames s1 ctl s2
        have hs1 : Kept s s1 := by
          unfold s1
          split
          · exact .ite (.applied (.semaSet (.pull h))) (.pull h)
          · exact .pull h
        exact .syncWake (.reap (.ite (.applied (.modWg hs1)) (.modWg hs1))))

/-! ### Restore -/

theorem Kept.restoreOps {k area} (h : Kept s t) : Kept s (t.restoreOps k area) := by
  unfold State.restoreOps
  split
  · exact h
  · exact .setGrp (.frame h)

theorem Kept.restore {wk} (h : Kept s t) : Kept s (t.restore wk) := by
  unfold State.restore
  split
  · exact h
  · refine .foldl (.energy (.setWg h)) fun _ _ h => ?_
    split
    · exact h
    · exact .ite (.withGroups h .mapDel) (.restoreOps (.setGrp h))

/-! ### WorkDist -/

theorem Kept.readRecord {who n va unit} (h : Kept s t) : KeptRec s (t.readRecord who n va unit) := by
  unfold State.readRecord
  split
  · exact .wait h
  · split
    · exact .bad
    · exact .wait (.parkOn h)
    · exact .wait h
    · split
      · exact .raw
      · exact .bad
      · next e0 => exact .wait ((Kept.spanIn h).along e0)

theorem Kept.enterGrid {src r} (h : Kept s t) : Kept s (t.enterGrid src r) := by
  unfold State.enterGrid
  exact .modDev (.frame h)

theorem Kept.haltQueue {q code idx} (h : Kept s t) : Kept s (t.haltQueue q code idx) := by
  unfold State.haltQueue
  exact .setQueue (.release h)

theorem Kept.doorbell {q tail} (h : Kept s t) : Kept s (t.doorbell q tail) := by
  unfold State.doorbell
  exact .ite (.count h) (.ite (.haltQueue h) (.setQueue h))

theorem Kept.headRecord {q} (h : Kept s t) : KeptRec s (t.headRecord q) := by
  unfold State.headRecord
  exact Kept.readRecord h

theorem execLaunchRecordTake_kept {q} (h : Kept s t) : KeptOut s (execLaunchRecordTake q t) := by
  unfold execLaunchRecordTake
  exact .next (by
    refine .ite h ?_
    extract_lets +onlyGivenNames s1
    have hs1 : Kept s s1 := .setQueue (.release h)
    split
    · exact .haltQueue hs1
    · next e1 => exact (Kept.headRecord h).along e1
    · extract_lets +onlyGivenNames r
      split
      · exact .enterGrid hs1
      · exact .haltQueue hs1)

theorem Kept.setDiem {n d} (h : Kept s t) : Kept s (t.setDiem n d) :=
  .modCtx h

theorem Kept.onCore {ctx core} (h : Kept s t) : Kept s (t.onCore ctx core) :=
  .setCluster (.l1Clear (.setDiem h))

theorem Kept.placeNew {w core slots base areas} (h : Kept s t) : Kept s
    (t.placeNew w core slots base areas) := by
  unfold State.placeNew
  split
  · exact h
  · extract_lets +onlyGivenNames r slot
    split
    · split
      · exact h
      · exact .onCore (.setGrp (.setWg h))
    · exact .onCore (.foldl (.frame (.setWg (.fresh1 h))) fun _ _ h1 => .setGrp h1)

theorem execPlaceWorkgroup_kept {core slots base areas} (h : Kept s t) : KeptOut s
    (execPlaceWorkgroup core slots base areas t) := by
  unfold execPlaceWorkgroup
  exact .next (by
    split
    · exact h
    · exact .ite (.l1Trim (.placeNew h)) h)

theorem execEprioAge_kept {grid key} (h : Kept s t) : KeptOut s (execEprioAge grid key t) :=
  .next (by
    refine .ite ?_ ?_
    · split
      · exact .ite h (.frame (.atLeast h))
      · exact h
    · split
      · exact .ite h (.setWg (.atLeast h))
      · exact h)

theorem execEvictWorkgroup_kept {w} (h : Kept s t) : KeptOut s (execEvictWorkgroup w t) :=
  .next (by
    split
    · exact h
    · refine .ite h ?_
      refine .ite (.modWg h) ?_
      split
      · exact .ite (.count (.setWg h)) h
      · exact h)

theorem execSaveBegin_kept {w} (h : Kept s t) : KeptOut s (execSaveBegin w t) :=
  .next (by
    split
    · exact h
    · refine .ite h ?_
      refine .ite (.setWg h) ?_
      split
      · exact h
      · refine .ite h ?_
        exact .foldl (.modCtx (.modWg (.foldl h fun _ _ h1 => .startCopy h1))) fun _ _ h2 => by
          split
          · exact .cuFlush h2
          · exact h2)

theorem Kept.finishReads {wk} (h : Kept s t) : Kept s (t.finishReads wk) := by
  unfold State.finishReads
  split
  · exact h
  · exact .foldl h fun _ _ h0 => by
      extract_lets +onlyGivenNames l
      refine .ite ?_ h0
      split
      · next e1 => exact (Kept.fillStage h0).along e1
      · exact h0

theorem Kept.endExiting {wk} (h : Kept s t) : Kept s (t.endExiting wk) :=
  .foldl h fun _ _ h0 => by
    split
    · exact .ite (.endGroup h0) h0
    · exact h0

theorem Kept.passFlas {wk} (h : Kept s t) : Kept s (t.passFlas wk) :=
  .foldl h fun _ _ h0 => .modGrp h0

theorem Kept.freeSlot {n slot} (h : Kept s t) : Kept s (t.freeSlot n slot) :=
  .modCtx h

theorem execSaveComplete_kept {w} (h : Kept s t) : KeptOut s (execSaveComplete w t) :=
  .next (by
    split
    · exact h
    · extract_lets +onlyGivenNames gs
      refine .ite h ?_
      refine .ite (.foldl h fun _ _ h0 => .cuFlush h0) ?_
      extract_lets +onlyGivenNames s0
      have hs0 : Kept s s0 := .finishReads (.passFlas (.endExiting h))
      split
      · exact .freeSlot hs0
      · exact .ite (.freeSlot (.modWg hs0)) (.ite hs0 (.noteIdle
          (.syncDirty (.setWg (.foldl (.writeImage hs0) fun _ _ h3 => .modGrp h3))))))

theorem execResumeWorkgroup_kept {w core slots base} (h : Kept s t) : KeptOut s
    (execResumeWorkgroup w core slots base t) := by
  unfold execResumeWorkgroup
  exact .next (by
    split
    · exact .ite h (.l1Trim (.onCore (.foldl (.setWg (.writeHeader h)) fun _ _ h2 => .modGrp h2)))
    · exact h)

theorem Kept.reissue {k ids} (h : Kept s t) : Kept s (t.reissue k ids) :=
  .foldl h fun _ _ h0 => by
    split
    · split
      · split
        · exact h0
        · exact h0
        · exact .ite (.mwaitTry h0) (.retryOp h0)
      · exact h0
    · exact h0

theorem Kept.resumeGrp {k} (h : Kept s t) : Kept s (t.resumeGrp k) := by
  unfold State.resumeGrp
  split
  · exact h
  · extract_lets +onlyGivenNames slept spc g s1
    have h1 : Kept s s1 := .reissue (.setGrp h)
    split
    · exact h1
    · split
      · exact .giveStatus h1
      · exact .takeParked h1

theorem execResumeComplete_kept {w} (h : Kept s t) : KeptOut s (execResumeComplete w t) :=
  .next (by
    split
    · exact h
    · exact .ite h (.syncWake (.barCheck (.handSlices (.foldl (.freeSlot (.modWg (.restore h))) fun _ _ h2 =>
        .resumeGrp h2)))))

theorem Kept.raiseTl {n x v} (h : Kept s t) : Kept s (t.raiseTl n x v) := by
  unfold State.raiseTl
  exact .ite (.syncWake (.modDev h)) h

theorem execGridComplete_kept {n} (h : Kept s t) : KeptOut s (execGridComplete n t) :=
  .next (by
    split
    · exact h
    · exact .ite h (.ite (.frame h) (.raiseTl (.frame h))))

theorem Kept.formBin {core bin} (h : Kept s t) : KeptOpt s (t.formBin core bin) := by
  unfold State.formBin
  split
  · exact .some h
  · split
    · exact .none
    · exact .some (.modCtx (.frame (.modCore (.setWg (.fresh1 h)))))

theorem Kept.newBin {core} (h : Kept s t) : KeptOptSnd s (t.newBin core) := by
  unfold State.newBin
  extract_lets +onlyGivenNames bins
  split
  · exact h
  · extract_lets old
    clear_value old
    split
    · cases e : t.formBin core ‹Nat› with
      | none => trivial
      | some u => exact (Kept.formBin h).along e
    · trivial

theorem Kept.deposit {core b d} (h : Kept s t) : KeptOpt s (t.deposit core b d) := by
  unfold State.deposit
  extract_lets +onlyGivenNames same put
  have hput : ∀ u i x, Kept s u → KeptOpt s (put u i x) := by
    intro u i x hu
    unfold put
    extract_lets u1
    split
    · exact Kept.formBin (.modCore hu)
    · exact Kept.modCore hu
  split
  · exact hput _ _ _ h
  · split
    · exact .none
    · next e => exact hput _ _ _ (.fresh1 ((Kept.newBin h).along e))

theorem Kept.deposits {core l} (h : Kept s t) : KeptOpt s (t.deposits core l) := by
  induction l generalizing t with
  | nil => exact h
  | cons x r ih =>
    unfold State.deposits
    split
    · next e => exact ih ((Kept.deposit h).along e)
    · exact .none

theorem execSpawn_kept {d a b} (h : Kept s t) : KeptOut s (execSpawn d a b t) := by
  unfold execSpawn
  exact issue_kept h fun _ _ _ _ => by
    extract_lets +onlyGivenNames va
    refine .ite .trap ?_
    refine .ite .trap ?_
    refine .ite .wait ?_
    refine .ite (.waitSt (.cuFlush h)) ?_
    split
    · next e0 => exact .st ((Kept.deposits (.setGrp h)).along e0)
    · exact .st (.setGrp h)

theorem execRegroupBinTimer_kept {core bin} (h : Kept s t) : KeptOut s (execRegroupBinTimer core bin t) :=
  .next (by
    split
    · exact h
    · refine .ite h ?_
      extract_lets +onlyGivenNames s1
      split
      · next e1 => exact (Kept.formBin (.atLeast h)).along e1
      · exact .modCore (.atLeast h))

theorem Kept.retrySpawn {k} (h : Kept s t) : Kept s (t.retrySpawn k) := by
  unfold State.retrySpawn
  split
  · exact h
  · refine .ite h ?_
    extract_lets +onlyGivenNames fld l qs g1
    split
    · next e0 => exact (Kept.deposits (.setGrp h)).along e0
    · exact h

theorem execRegroupStoreRoom_kept {core} (h : Kept s t) : KeptOut s (execRegroupStoreRoom core t) := by
  unfold execRegroupStoreRoom
  exact .next (.foldl (.foldl h fun _ _ h1 => KeptOpt.getD (Kept.formBin h1) h1) fun _ _ h1 => .retrySpawn h1)

theorem execClusterIdleGate_kept {l} (h : Kept s t) : KeptOut s (execClusterIdleGate l t) := by
  unfold execClusterIdleGate
  exact .next (.ite h (.ite (.setCluster h) (.setCluster (.foldl (.atLeast h) fun _ _ h1 => .settleCore h1))))

theorem execClusterUngate_kept {l} (h : Kept s t) : KeptOut s (execClusterUngate l t) := by
  unfold execClusterUngate
  exact .next (.ite (.setCluster h) h)

theorem execClusterPowered_kept {l} (h : Kept s t) : KeptOut s (execClusterPowered l t) := by
  unfold execClusterPowered
  exact .next (.ite (.foldl (.setCluster h) fun _ _ h0 => .modCore h0) h)

theorem Kept.giveCode {k o c} (h : Kept s t) : Kept s (t.giveCode k o c) :=
  .modGrp h

theorem Kept.doLaunch {g id va} (h : Kept s t) : KeptSnd s (t.doLaunch g id va) := by
  unfold State.doLaunch
  split
  · exact .mk (.release h)
  · next e0 => exact .mk ((Kept.readRecord h).along e0)
  · extract_lets +onlyGivenNames r0 p r
    split
    · exact .mk (.enterGrid (.release h))
    · exact .mk (.release h)

theorem Kept.holdNamed {a wgid h3} (h : Kept s t) : Kept s (t.holdNamed a wgid h3) := by
  unfold State.holdNamed
  exact .frame h

theorem Kept.holdImages {a wgid} (h : Kept s t) : Kept s (t.holdImages a wgid) :=
  .foldl h fun _ _ h0 => .pushHold h0

theorem Kept.doPreempt {a wgid} (h : Kept s t) : Kept s (t.doPreempt a wgid) := by
  unfold State.doPreempt
  exact .ite (.holdImages (.holdNamed (.frame h))) (.frame h)

theorem Kept.doCrsz {g n} (h : Kept s t) : KeptSnd s (t.doCrsz g n) := by
  unfold State.doCrsz
  split
  · exact .mk h
  · extract_lets +onlyGivenNames more
    split
    · exact .mk h
    · split
      · exact .mk h
      · split
        · exact .mk h
        · exact .mk (.l1Trim (.setWg h))

/-! ### MatrixUnits -/

theorem Kept.nameSemas {w l} (h : Kept s t) : KeptOpt s (t.nameSemas w l) := by
  induction l generalizing t with
  | nil => exact h
  | cons n r ih =>
    unfold State.nameSemas
    split
    · next e => exact ih ((Kept.nameSema h).along e)
    · exact .none

theorem mxUnit_kept {op n d a} (h : Kept s t) : KeptOut s (mxUnit op n d a t) := by
  unfold mxUnit
  exact issue_kept h fun _ _ _ _ => by
    extract_lets +onlyGivenNames m
    refine .ite .wait ?_
    refine .ite .trap ?_
    split
    · exact .wait
    · next e0 => exact .st (.setGrp (.frame ((Kept.nameSemas h).along e0)))

theorem execMma_kept {d a} (h : Kept s t) : KeptOut s (execMma d a t) :=
  mxUnit_kept h

theorem execMxloop_kept {d a} (h : Kept s t) : KeptOut s (execMxloop d a t) :=
  mxUnit_kept h

theorem execMxzero_kept {d a} (h : Kept s t) : KeptOut s (execMxzero d a t) :=
  mxUnit_kept h

theorem execMxrel_kept {d a} (h : Kept s t) : KeptOut s (execMxrel d a t) :=
  mxUnit_kept h

theorem execMxcfg_kept {a} (h : Kept s t) : KeptOut s (execMxcfg a t) := by
  unfold execMxcfg
  exact issue_kept h fun _ _ _ _ => .ite .grp .trap

theorem tileUnit_kept {fn u1 d a} (h : Kept s t) : KeptOut s (tileUnit fn u1 d a t) :=
  issue_kept h fun _ _ _ _ => .ite .wait (.ite .trap (.ite (.st (.recordFault (.frame h)))
      (.st (.setGrp (.frame h)))))

theorem execTld_kept {d a} (h : Kept s t) : KeptOut s (execTld d a t) :=
  tileUnit_kept h

theorem execTst_kept {d a} (h : Kept s t) : KeptOut s (execTst d a t) :=
  tileUnit_kept h

theorem execTileTransferDone_kept {k op} (h : Kept s t) : KeptOut s (execTileTransferDone k op t) :=
  .next (by
    split
    · exact h
    · split
      · extract_lets +onlyGivenNames row col
        refine .ite h ?_
        split
        · exact .setGrp h
        · exact .setGrp (.setWg h)
        · exact h
      · exact h)

theorem execMatrixStepStart_kept {k} (h : Kept s t) : KeptOut s (execMatrixStepStart k t) :=
  .next (by
    split
    · exact h
    · extract_lets +onlyGivenNames l
      refine .ite h ?_
      split
      · extract_lets +onlyGivenNames s1
        split
        · exact .setGrp (.setCluster h)
        · exact .recordFault (.setCluster h)
      · exact h)

theorem Kept.unitDone {k m} (h : Kept s t) : Kept s (t.unitDone k m) := by
  unfold State.unitDone
  split
  · exact h
  · exact .syncWake (.applied (.setGrp h))

theorem Kept.mxSignal {w n v} (h : Kept s t) : Kept s (t.mxSignal w n v) :=
  .applied (.semaSet h)

theorem execMatrixStepComplete_kept {k} (h : Kept s t) : KeptOut s (execMatrixStepComplete k t) :=
  .next (by
    split
    · exact h
    · split
      · refine .ite h ?_
        refine .ite (.ite (.unitDone (.applied (.semaSet h))) h) ?_
        refine .ite h ?_
        extract_lets +onlyGivenNames s1 s2 m1 s3
        have hs1 : Kept s s1 := .ite (.energy (.setWg h)) h
        have hs2 : Kept s s2 := .ite (.mxSignal hs1) hs1
        exact .ite (.modGrp hs2) (.unitDone (.modGrp hs2))
      · exact h)

/-! ### FabricUnits -/

theorem execSendh_kept {d} (h : Kept s t) : KeptOut s (execSendh d t) :=
  issue_kept h fun _ _ _ _ => .ite .wait (.ite .grp (.st (.setGrp (.frame (.setCore h)))))

theorem Kept.msgLost {n} (h : Kept s t) : Kept s (t.msgLost n) :=
  .modCtx h

theorem Kept.sentLane {k op lane} (h : Kept s t) : Kept s (t.sentLane k op lane) :=
  .modGrp h

theorem Kept.sendMsg {e} (h : Kept s t) : Kept s (t.sendMsg e) := by
  unfold State.sendMsg
  exact .ite (.sentLane (.msgLost h)) (.ite (.frame h) (.fabSend (.modGrp (.fresh1 h))))

theorem execSendQueueDepart_kept {core} (h : Kept s t) : KeptOut s (execSendQueueDepart core t) :=
  .next (by
    split
    · exact h
    · split
      · exact .ite (.cuFlush h) (.sendMsg (.modCore h))
      · exact .modCore h)

theorem Kept.msgDone {e} (h : Kept s t) : Kept s (t.msgDone e) := by
  unfold State.msgDone
  extract_lets +onlyGivenNames s1
  split
  · exact .sentLane (.frame h)
  · exact .fabSend (.frame h)
  · exact .frame h

theorem Kept.ringSpan {e va n lost go} (h : Kept s t) (hl : Kept s lost) (hg : ∀ ps, Kept s (go ps)) :
    Kept s (t.ringSpan e va n lost go) := by
  unfold State.ringSpan
  extract_lets x
  split
  · exact hl
  · exact .parkOn h
  · exact h
  · exact hg _

theorem Kept.ringWrite {e ps bs lost go} (h : Kept s t) (hl : Kept s lost)
    (hg : ∀ u, Kept s u → Kept s (go u)) :
    Kept s (t.ringWrite e ps bs lost go) := by
  unfold State.ringWrite
  split
  · exact hl
  · next e => exact (Kept.spanOut h).along e
  · exact hg _ (.spanEnergy (.spanWrite h))

theorem Kept.appendMsg {e} (h : Kept s t) : Kept s (t.appendMsg e) := by
  unfold State.appendMsg
  extract_lets +onlyGivenNames m c lost done
  have hlost : Kept s lost := .msgDone (.msgLost (.release h))
  refine .ite h ?_
  refine .ite hlost ?_
  exact .ringSpan h hlost (fun _ => by
    split
    · exact hlost
    · next e2 => exact (Kept.spanIn h).along e2
    · exact .ite (.ringWrite h hlost (fun _ h3 => .msgDone (.release h3)))
        (.ringSpan h hlost (fun _ => .ringWrite h hlost
        (fun _ h4 => .ringWrite h4 hlost (fun _ h5 => .msgDone (.release h5))))))

theorem execMessageDeliver_kept {m} (h : Kept s t) : KeptOut s (execMessageDeliver m t) :=
  .next (by
    split
    · exact .ite (.appendMsg h) h
    · exact h)

theorem execRecvq_kept {d a b} (h : Kept s t) : KeptOut s (execRecvq d a b t) :=
  issue_kept h fun _ _ _ _ => .ite .wait (.st (.setGrp (.frame h)))

theorem Kept.recvSpan {g o need wr l go} (hg : ∀ ps, KeptRecv s (go ps)) : KeptRecv s
    (t.recvSpan g o need wr l go) := by
  unfold State.recvSpan
  extract_lets rs
  split
  · exact .fault
  · split
    · exact .miss
    · exact .hold
    · exact hg _

theorem recvIo_kept {o wr va lane r go} (hr : KeptIo s r) (hg : ∀ bs, KeptRecv s (go bs)) : KeptRecv s
    (recvIo o wr va lane r go) := by
  unfold recvIo
  split
  · exact hg _
  · exact hr
  · exact .fault

theorem Kept.recvTry {k g o} (h : Kept s t) : KeptRecv s (t.recvTry k g o) := by
  unfold State.recvTry
  extract_lets +onlyGivenNames q act b c who finish
  have hf : ∀ u g', Kept s u → KeptRecv s (finish u g') := fun _ _ hu => .done
      (.setGrp (.l1Clear (.release hu)))
  clear_value finish
  split
  · exact hf _ _ h
  · refine Kept.recvSpan fun hd => recvIo_kept (Kept.spanIn h) fun bs => ?_
    extract_lets +onlyGivenNames h' ls m got slot
    refine Kept.recvSpan fun ps => recvIo_kept (Kept.spanIn h) fun data => ?_
    extract_lets +onlyGivenNames ws g1 s1
    have h1 : Kept s s1 := .spanEnergy h
    split
    · exact hf _ _ h1
    · exact Kept.recvSpan fun hw => recvIo_kept (Kept.spanOut h) fun _ => hf _ _ (.spanWrite h1)

theorem Kept.recvGo {k g o} (h : Kept s t) : Kept s (t.recvGo k g o) := by
  unfold State.recvGo
  refine .ite h ?_
  refine .ite (.cuFlush h) ?_
  split
  · next e0 => exact (Kept.recvTry h).along e0
  · exact .recordFault (.release h)
  · next e0 => exact (Kept.recvTry h).along e0
  · exact .setGrp (.openService h)
  · exact .setGrp h

theorem execPeerq_kept {d a q} (h : Kept s t) : KeptOut s (execPeerq d a q t) :=
  issue_kept h fun _ _ _ _ => .grp

theorem execColl_kept {d a} (h : Kept s t) : KeptOut s (execColl d a t) := by
  unfold execColl
  exact issue_kept h fun _ _ _ _ => .ite .trap (.ite .trap (.ite .trap (.st (.modCtx (.setGrp (.frame h))))))

theorem Kept.modColl {n c f} (h : Kept s t) : Kept s (t.modColl n c f) :=
  .frame h

theorem execCollHandoff_kept {n c} (h : Kept s t) : KeptOut s (execCollHandoff n c t) :=
  .next (by
    split
    · exact h
    · refine .ite h ?_
      split
      · exact .ite h (.ite (.cuFlush h) (.modColl h))
      · exact .modColl h)

theorem Kept.raiseKtl {n} (h : Kept s t) : Kept s (t.raiseKtl n) := by
  unfold State.raiseKtl
  exact .syncWake (.modCtx (.frame h))

theorem Kept.collFault {x cause a i} (h : Kept s t) : Kept s (t.collFault x cause a i) := by
  unfold State.collFault
  extract_lets +onlyGivenNames x0
  split
  · exact .recordFault h
  · split
    · exact .modCtx (.dropWork h)
    · exact h

theorem Kept.endColl {n c} (h : Kept s t) : Kept s (t.endColl n c) :=
  .raiseKtl (.modColl h)

theorem execCollComplete_kept {n c peers} (h : Kept s t) : KeptOut s (execCollComplete n c peers t) := by
  unfold execCollComplete
  refine .next ?_
  split
  · exact h
  · extract_lets +onlyGivenNames f cx kind ef count root rank scl bl sl need good ps who
    refine .ite h ?_
    extract_lets +onlyGivenNames xl src red dev fault unit reach io from_
    have hreach : ∀ wr l go, (∀ ps, Kept s (go ps)) → Kept s (reach wr l go) := by
      intro wr l go hg
      unfold reach
      split
      · exact .endColl (.collFault (.release h))
      · exact .parkOn h
      · exact h
      · exact hg _
    have hio : ∀ wr l r go, KeptIo s r → (∀ bs, Kept s (go bs)) → Kept s (io wr l r go) := by
      intro wr l r go hr hg
      unfold io
      split
      · exact .endColl (.collFault (.release h))
      · exact hr
      · exact hg _
    exact hreach _ _ _ fun _ => hio _ _ _ _ (Kept.spanIn h) fun _ =>
      hreach _ _ _ fun _ => hio _ _ _ _ (Kept.spanOut h) fun _ => .endColl
          (.release (.spanEnergy (.energy (.spanWrite h))))

theorem execCollAbandon_kept {n c reason} (h : Kept s t) : KeptOut s (execCollAbandon n c reason t) :=
  .next (by
    split
    · exact h
    · exact .ite h (.endColl (.collFault (.release h))))

/-! ### Fetch -/

theorem Kept.fillI {g ws} (h : Kept s t) : Kept s (t.fillI g ws) := by
  unfold State.fillI
  exact .ite (.setCore h) (.energy (.setCore h))

/-! ### SeqEvents -/

theorem Kept.raiseClass {c cls} (h : Kept s t) : Kept s (t.raiseClass c cls) :=
  .modCore h

theorem execRulingClassHoldEnd_kept {core} (h : Kept s t) : KeptOut s (execRulingClassHoldEnd core t) := by
  unfold execRulingClassHoldEnd
  exact .next (.modCore h)

theorem execClassWaitRaise_kept {k} (h : Kept s t) : KeptOut s (execClassWaitRaise k t) :=
  .next (by
    split
    · exact .ite (.raiseClass h) h
    · exact h)

theorem execUrgentCandidate_kept {k} (h : Kept s t) : KeptOut s (execUrgentCandidate k t) :=
  .next (by
    split
    · exact .ite (.leaveLv (.raiseClass (.setGrp h))) h
    · exact h)

theorem execYieldEnd_kept {k} (h : Kept s t) : KeptOut s (execYieldEnd k t) :=
  .next (.modGrp h)

theorem execSleepWake_kept {k} (h : Kept s t) : KeptOut s (execSleepWake k t) :=
  .next (by
    split
    · exact .ite h (.ite (.setGrp (.atLeast h)) (.pushWoken (.setGrp (.atLeast h))))
    · exact h)

theorem Kept.spillEnergy {g wr ps} (h : Kept s t) : Kept s (t.spillEnergy g wr ps) :=
  .spanEnergy h

theorem execSpillTransferDone_kept {k} (h : Kept s t) : KeptOut s (execSpillTransferDone k t) :=
  .next (by
    split
    · exact h
    · extract_lets +onlyGivenNames wr park
      refine .ite h ?_
      split
      · exact .takeTrap h
      · exact .setGrp (.openService h)
      · exact .setGrp h
      · exact .ite h (.ite (.setGrp (.storeLane (.spillEnergy h))) (.setGrp (.spillEnergy h))))

theorem execTrapEnter_kept {k} (h : Kept s t) : KeptOut s (execTrapEnter k t) :=
  .next (by
    split
    · exact h
    · exact .ite (.passBank h) h)

theorem execHandlerWatchdog_kept {k} (h : Kept s t) : KeptOut s (execHandlerWatchdog k t) :=
  .next (by
    split
    · exact h
    · exact .ite h (.contextFault (.atLeast h)))

theorem Kept.haltCtx {n} (h : Kept s t) : Kept s (t.haltCtx n) :=
  .withGroups h .mapAll

theorem execContextHaltDeadline_kept {n} (h : Kept s t) : KeptOut s (execContextHaltDeadline n t) :=
  .next (by
    split
    · exact .ite h (.haltCtx (.atLeast h))
    · exact h)

theorem execContextFaultReport_kept {n} (h : Kept s t) : KeptOut s (execContextFaultReport n t) :=
  .next (by
    split
    · exact .ite h (.post (.modCtx h))
    · exact h)

theorem execReportVectorTimer_kept {f} (h : Kept s t) : KeptOut s (execReportVectorTimer f t) := by
  unfold execReportVectorTimer
  exact .next (.ite h (.setHost (.atLeast h)))

theorem execResultWriteBack_kept {k} (h : Kept s t) : KeptOut s (execResultWriteBack k t) :=
  .next (by
    split
    · exact h
    · split
      · exact .setGrp h
      · split
        · exact h
        · exact .setGrp h)

theorem execIllegalWord_kept {word} (h : Kept s t) : KeptOut s (execIllegalWord word t) := by
  unfold execIllegalWord
  exact .next (by
    split
    · exact .ite (.stall h) (.stratusTrap h)
    · split
      · extract_lets +onlyGivenNames point
        refine .ite (.stall h) ?_
        refine .ite (.dieAtFaultPoint h) ?_
        split
        · exact .ite (.takeFault h) (.stall h)
        · exact .takeTrap h
      · exact .stall h)

theorem execFetchFault_kept (h : Kept s t) : KeptOut s (execFetchFault t) :=
  .next (by
    split
    · refine .ite (.stall h) ?_
      split
      · exact .stratusTrap h
      · exact .stall h
    · split
      · refine .ite (.stall h) ?_
        split
        · exact .stall h
        · exact .takeTrap h
        · exact .setGrp (.openService h)
        · exact .setGrp h
      · exact .stall h)

/-! ### HomeEvents -/

theorem Kept.toDie {d line vc data m} (h : Kept s t) : Kept s (t.toDie d line vc data m) :=
  .sendPkt h

theorem Kept.toHome {d line vc data m} (h : Kept s t) : Kept s (t.toHome d line vc data m) :=
  .sendPkt h

theorem Kept.grantOut {s1 line} (h : Kept s t) : Kept s (t.grantOut s1 line) := by
  unfold State.grantOut
  split
  · exact .ite (.toDie h) h
  · exact h

theorem Kept.startReq {d line wait kind} (h : Kept s t) : Kept s (t.startReq d line wait kind) := by
  unfold State.startReq
  exact .grantOut (.lineStep (.foldl (.modHome (.setLine (.dieRoom (.dirRoom h)))) fun _ _ h2 => .toDie h2))

theorem execHomeGets_kept {d line} (h : Kept s t) : KeptOut s (execHomeGets d line t) :=
  .next (.ite h (.startReq h))

theorem execHomeGetm_kept {d line} (h : Kept s t) : KeptOut s (execHomeGetm d line t) := by
  unfold execHomeGetm
  exact .next (.ite h (.startReq h))

theorem Kept.sendPut {d line dirty} (h : Kept s t) : Kept s (t.sendPut d line dirty) :=
  .toHome (.modHome (.setDie (.fresh1 h)))

theorem Kept.putStep {d line dirty} (h : Kept s t) : Kept s (t.putStep d line dirty) := by
  unfold State.putStep
  split
  · exact .ite h (.toDie (.grantOut (.lineStep (.landPut h))))
  · exact .ite (.sendPut h) h

theorem execHomePutm_kept {d line} (h : Kept s t) : KeptOut s (execHomePutm d line t) :=
  .next (.putStep h)

theorem execHomePute_kept {d line} (h : Kept s t) : KeptOut s (execHomePute d line t) :=
  .next (.putStep h)

theorem execPutAck_kept {d line} (h : Kept s t) : KeptOut s (execPutAck d line t) :=
  .next (.ite (.putAcked h) h)

theorem Kept.takeSnoop {d line kind f} (h : Kept s t) (hf : ∀ u, Kept s u → Kept s (f u)) : Kept s
    (t.takeSnoop d line kind f) :=
  .ite h (.toHome (hf t h))

theorem execSnoopInv_kept {d line} (h : Kept s t) : KeptOut s (execSnoopInv d line t) :=
  .next (.takeSnoop h (fun _ h0 => .invSnoop h0))

theorem execSnoopRecToS_kept {d line} (h : Kept s t) : KeptOut s (execSnoopRecToS d line t) :=
  .next (.takeSnoop h (fun _ h0 => .recallSnoop h0))

theorem execSnoopRecToI_kept {d line} (h : Kept s t) : KeptOut s (execSnoopRecToI d line t) :=
  .next (.takeSnoop h (fun _ h0 => .recallSnoop h0))

theorem execSnoopAnswer_kept {d line} (h : Kept s t) : KeptOut s (execSnoopAnswer d line t) :=
  .next (.ite h (.grantOut (.answerSnoop h)))

theorem execSnoopResend_kept {d line} (h : Kept s t) : KeptOut s (execSnoopResend d line t) :=
  .next (by
    split
    · exact h
    · exact .count (.toDie (.modReq (.atLeast h))))

theorem execGrantArrive_kept {d line} (h : Kept s t) : KeptOut s (execGrantArrive d line t) :=
  .next (.ite h (.arriveGrant h))

theorem Kept.homeRequest {rid req} (h : Kept s t) : Kept s (t.homeRequest rid req) := by
  unfold State.homeRequest
  extract_lets +onlyGivenNames go
  split
  · exact .ite h (.filterAdd (.homeWrite h))
  · exact .ite h (.homeAtomic h)

theorem execHomeWritePerform_kept {rid da data} (h : Kept s t) : KeptOut s
    (execHomeWritePerform rid da data t) :=
  .next (.homeRequest h)

theorem execReplayRequest_kept {rid req} (h : Kept s t) : KeptOut s (execReplayRequest rid req t) :=
  .next (.homeRequest h)

/-! ### CumulusEvents -/

theorem execCumulusAgeExpire_kept {d buf} (h : Kept s t) : KeptOut s (execCumulusAgeExpire d buf t) :=
  .next (by
    split
    · exact .ite h (.cuLeave (.atLeast h))
    · exact h)

theorem Kept.cuApply {e hi} (h : Kept s t) : Kept s (t.cuApply e hi) := by
  unfold State.cuApply
  exact .energy (.homeWrite h)

theorem Kept.cuApplyAll {p bad} (h : Kept s t) : Kept s (t.cuApplyAll p bad) :=
  .foldl h fun _ _ h0 => by
    split
    · exact .frame h0
    · exact .ite (.cuApply h0) h0

theorem execCumulusPacketApply_kept {id bad} (h : Kept s t) : KeptOut s (execCumulusPacketApply id bad t) :=
  .next (by
    split
    · exact h
    · exact .ite h (.syncDirty (.cuApplyAll (.frame h))))

theorem Kept.cuAnswered {n last bad} (h : Kept s t) : Kept s (t.cuAnswered n last bad) :=
  .frame h

theorem Kept.pendAgg {r} (h : Kept s t) : Kept s (t.pendAgg r) :=
  .withGroups h .mapAll

theorem execCumulusRejectLog_kept (h : Kept s t) : KeptOut s (execCumulusRejectLog t) :=
  .next (by
    split
    · exact h
    · exact .syncDirty (by
        refine .ite (.modCtx (.frame h)) ?_
        extract_lets +onlyGivenNames a s2
        have hs2 : Kept s s2 := .modCtx (.homeWrite (.frame h))
        exact .ite (.post hs2) (.pendAgg hs2)))

theorem Kept.reconnect (h : Kept s t) : Kept s (t.reconnect) :=
  .frame h

theorem execEgressDeliver_kept {q} (h : Kept s t) : KeptOut s (execEgressDeliver q t) := by
  unfold execEgressDeliver
  exact .next (by
    refine .ite h ?_
    refine .ite (.reconnect h) ?_
    split
    · exact .setEgr h
    · exact .cuSend (.setEgr h))

theorem Kept.dropCumulus {n} (h : Kept s t) : Kept s (t.dropCumulus n) := by
  unfold State.dropCumulus
  exact .foldl (.frame h) fun _ _ h1 => .syncDirty h1

/-! ### RouterEvents -/

theorem Kept.rrtWrite {c t2 v} (h : Kept s t) : Kept s (t.rrtWrite c t2 v) := by
  unfold State.rrtWrite
  exact .ite (.logged (.count h)) (.ite (.logged (.count h)) (.pumpAll (.setPair h)))

theorem execRrtWrite_kept {c t1 v} (h : Kept s t) : KeptOut s (execRrtWrite c t1 v t) :=
  .next (.rrtWrite h)

theorem Kept.heard {t1 c} (h : Kept s t) : Kept s (t.heard t1 c) := by
  unfold State.heard
  exact .setChip h

theorem execHeartbeatSend_kept {c} (h : Kept s t) : KeptOut s (execHeartbeatSend c t) := by
  unfold execHeartbeatSend
  exact .next (.ite h (.foldl (.setChip (.atLeast h)) fun _ _ h1 => .sendPkt h1))

theorem Kept.delivered {p} (h : Kept s t) : Kept s (t.delivered p) := by
  unfold State.delivered
  split
  · exact .heard h
  · exact h

theorem Kept.loseStrand {c t2 strand} (h : Kept s t) : Kept s (t.loseStrand c t2 strand) := by
  unfold State.loseStrand
  extract_lets +onlyGivenNames v1 s1 s2 s3
  have hs1 : Kept s s1 := .logged (.setPair h)
  have hs2 : Kept s s2 := .ite (.logged hs1) hs1
  have hs3 : Kept s s3 := .ite (.post hs2) hs2
  exact .ite (.giveUp hs3) (.pumpAll hs3)

theorem execStrandFail_kept {c t1 strand} (h : Kept s t) : KeptOut s (execStrandFail c t1 strand t) :=
  .next (.ite h (.loseStrand h))

theorem Kept.badFlit {c t2 f} (h : Kept s t) : Kept s (t.badFlit c t2 f) := by
  unfold State.badFlit
  extract_lets +onlyGivenNames v strand bad s1
  have hs1 : Kept s s1 := .setPair (.frame h)
  exact .ite (.loseStrand hs1) hs1

theorem execFlitReceive_kept {c t1 seq ok} (h : Kept s t) : KeptOut s (execFlitReceive c t1 seq ok t) := by
  unfold execFlitReceive
  exact .next (by
    split
    · exact h
    · exact .ite (.badFlit h) (.ite h (.ite (.pumpAll (.delivered (.setPair h)))
        (.ite (.pumpAll (.resend (.setPair h))) (.ite (.setPair h) h)))))

theorem execFlitAck_kept {c t1 seq} (h : Kept s t) : KeptOut s (execFlitAck c t1 seq t) := by
  unfold execFlitAck
  exact .next (by
    split
    · exact .ite h (.pumpAll (.setPair h))
    · exact h)

theorem execRelayForward_kept {k c t2} (h : Kept s t) : KeptOut s (execRelayForward k c t2 t) := by
  unfold execRelayForward
  exact .next (by
    split
    · exact .ite h (.pumpAll (.putFlit (.ite (.setPair h) (.setPair (.setPair h)))))
    · exact h)

theorem execStrandGate_kept {c t1} (h : Kept s t) : KeptOut s (execStrandGate c t1 t) := by
  unfold execStrandGate
  exact .next (.ite h (.setPair (.atLeast h)))

theorem execStrandWakeDone_kept {c t1} (h : Kept s t) : KeptOut s (execStrandWakeDone c t1 t) := by
  unfold execStrandWakeDone
  exact .next (by
    split
    · exact .setPair (.atLeast h)
    · exact h)

theorem Kept.wakeAll {c} (h : Kept s t) : Kept s (t.wakeAll c) :=
  .foldl h fun _ _ h0 => .ite (.setPair h0) h0

theorem Kept.rgcfgWrite {c v} (h : Kept s t) : Kept s (t.rgcfgWrite c v) := by
  unfold State.rgcfgWrite
  exact .ite (.count h) (.ite (.setChip h) (.wakeAll (.setChip h)))

theorem execStrandGatingDisable_kept {c} (h : Kept s t) : KeptOut s (execStrandGatingDisable c t) :=
  .next (.ite h (.wakeAll (.setChip h)))

theorem execHeartbeatMiss_kept {r c} (h : Kept s t) : KeptOut s (execHeartbeatMiss r c t) :=
  .next (.ite h (.setChip (.atLeast h)))

/-! ### PortEvents -/

theorem Kept.modPort {p f} (h : Kept s t) : Kept s (t.modPort p f) :=
  .setPort h

theorem Kept.resendRail {p} (h : Kept s t) : Kept s (t.resendRail p) := by
  unfold State.resendRail
  refine .foldl h fun u kv hu => ?_
  refine .frame (KeptSnd.foldl (p := (([] : List TxPkt), u)) hu fun q x hq => ?_)
  split
  · exact Kept.putOnRail (.flitEnergy hq)
  · exact hq

theorem Kept.portDown {p reason} (h : Kept s t) : Kept s (t.portDown p reason) := by
  unfold State.portDown
  exact .resendRail (.post (.setPort h))

theorem Kept.remapped {p w reason how lmap} (h : Kept s t) : Kept s (t.remapped p w reason how lmap) :=
  .post (.logged h)

theorem Kept.tellWl {p w reason} (h : Kept s t) : Kept s (t.tellWl p w reason) :=
  .post (.logged h)

theorem Kept.failWl {p w reason} (h : Kept s t) : Kept s (t.failWl p w reason) := by
  unfold State.failWl
  extract_lets +onlyGivenNames v
  refine .ite h ?_
  extract_lets +onlyGivenNames s1 v1
  have h1 : Kept s s1 := .tellWl h
  refine .ite (.setPort h1) ?_
  extract_lets +onlyGivenNames target lane
  clear_value lane
  split
  · exact .setPort h1
  · split
    · exact .setPort (.ite h1 (.remapped h1))
    · exact .portDown (.setPort h1)

theorem execWavelengthFail_kept {p w reason} (h : Kept s t) : KeptOut s (execWavelengthFail p w reason t) :=
  .next (.failWl h)

theorem execLaneRemapDone_kept {p lane} (h : Kept s t) : KeptOut s (execLaneRemapDone p lane t) := by
  unfold execLaneRemapDone
  exact .next (by
    split
    · exact h
    · exact .setPort (.remapped h))

theorem execPortNarrowDone_kept {p} (h : Kept s t) : KeptOut s (execPortNarrowDone p t) :=
  .next (.ite (.modPort h) h)

theorem execPortWakeDone_kept {p} (h : Kept s t) : KeptOut s (execPortWakeDone p t) :=
  .next (.ite (.modPort h) h)

theorem execPortAutoWake_kept {p} (h : Kept s t) : KeptOut s (execPortAutoWake p t) := by
  unfold execPortAutoWake
  exact .next (.ite (.setPort h) h)

theorem execFarEndNarrow_kept {p width} (h : Kept s t) : KeptOut s (execFarEndNarrow p width t) := by
  unfold execFarEndNarrow
  exact .next (.ite (.setPort h) h)

theorem execFarEndWake_kept {p width} (h : Kept s t) : KeptOut s (execFarEndWake p width t) := by
  unfold execFarEndWake
  exact .next (.ite (.setPort h) h)

theorem Kept.pcfgWrite {p v} (h : Kept s t) : Kept s (t.pcfgWrite p v) := by
  unfold State.pcfgWrite
  exact .ite (.count h) (.ite (.ite (.portDown (.setPort h)) (.setPort h))
      (.ite (.ite (.setPort h) (.ite (.post (.setPort h)) (.setPort h))) (.setPort h)))

theorem execPortEnable_kept {p v} (h : Kept s t) : KeptOut s (execPortEnable p v t) :=
  .next (.ite (.pcfgWrite h) h)

theorem execPortDisable_kept {p v} (h : Kept s t) : KeptOut s (execPortDisable p v t) :=
  .next (.ite (.pcfgWrite h) h)

theorem execPortNarrow_kept {p v} (h : Kept s t) : KeptOut s (execPortNarrow p v t) :=
  .next (.ite (.pcfgWrite h) h)

theorem execPortWake_kept {p v} (h : Kept s t) : KeptOut s (execPortWake p v t) :=
  .next (.ite (.pcfgWrite h) h)

theorem Kept.lmapWrite {p v} (h : Kept s t) : Kept s (t.lmapWrite p v) := by
  unfold State.lmapWrite
  exact .ite (.count h) (.setPort h)

theorem execPortSessionEstablish_kept {p ok lat} (h : Kept s t) : KeptOut s
    (execPortSessionEstablish p ok lat t) := by
  unfold execPortSessionEstablish
  exact .next (.ite h (.ite (.reconnect (.setPort h)) (.post (.setPort h))))

theorem execSessionRekey_kept {p} (h : Kept s t) : KeptOut s (execSessionRekey p t) :=
  .next (.ite (.modPort h) h)

theorem Kept.badCodeword {p first} (h : Kept s t) : Kept s (t.badCodeword p first) := by
  unfold State.badCodeword
  extract_lets +onlyGivenNames v w l s1
  have hs1 : Kept s s1 := .setPort (.frame h)
  exact .ite (.failWl hs1) hs1

theorem execCodewordReceive_kept {p first errs flits} (h : Kept s t) : KeptOut s
    (execCodewordReceive p first errs flits t) := by
  unfold execCodewordReceive
  exact .next (.ite h (.ite (.badCodeword h) (.setPort h)))

theorem execTagGroupVerify_kept {p ok} (h : Kept s t) : KeptOut s (execTagGroupVerify p ok t) := by
  unfold execTagGroupVerify
  exact .next (by
    split
    · exact h
    · exact .ite (.setPort h) (.ite (.portDown (.setPort h)) (.setPort h)))

theorem execLageUpdate_kept {p w bias mpwr temp hrs} (h : Kept s t) : KeptOut s
    (execLageUpdate p w bias mpwr temp hrs t) := by
  unfold execLageUpdate
  exact .next (by
    refine .ite h ?_
    extract_lets +onlyGivenNames s1 s2
    have hs2 : Kept s s2 := .ite (.post (.setPort h)) (.setPort h)
    exact .ite (.failWl hs2) hs2)

theorem execLageFlashStore_kept (h : Kept s t) : KeptOut s (execLageFlashStore t) :=
  .next (.frame h)

theorem execTimeCounterSend_kept {p} (h : Kept s t) : KeptOut s (execTimeCounterSend p t) :=
  .next (.ite h (.modPort h))

theorem execTimeCounterReceive_kept {p t1} (h : Kept s t) : KeptOut s (execTimeCounterReceive p t1 t) := by
  unfold execTimeCounterReceive
  exact .next (.ite h (.ite (.modDev (.setPort h)) (.setPort h)))

theorem Kept.phyFail {p w reason} (h : Kept s t) : Kept s (t.phyFail p w reason) :=
  .ite (.tellWl h) (.failWl h)

theorem Kept.phyWrite {p w c} (h : Kept s t) : Kept s (t.phyWrite p w c) := by
  unfold State.phyWrite
  extract_lets +onlyGivenNames v n old
  refine .ite h (.ite (.count h) ?_)
  extract_lets +onlyGivenNames v0
  refine .ite (.setPort h) ?_
  exact .ite (.phyFail (.ite (.phyFail (.setPort h)) (.setPort h)))
      (.ite (.phyFail (.setPort h)) (.setPort h))

theorem execPhyLaser_kept {p w on} (h : Kept s t) : KeptOut s (execPhyLaser p w on t) := by
  unfold execPhyLaser
  exact .next (.ite h (.phyWrite h))

theorem execPhyLock_kept {p w} (h : Kept s t) : KeptOut s (execPhyLock p w t) := by
  unfold execPhyLock
  exact .next (.ite h (.phyWrite h))

theorem execPhyTrain_kept {p w} (h : Kept s t) : KeptOut s (execPhyTrain p w t) := by
  unfold execPhyTrain
  exact .next (.ite h (.phyWrite h))

theorem execPhyLaserOnDone_kept {p w ok} (h : Kept s t) : KeptOut s (execPhyLaserOnDone p w ok t) := by
  unfold execPhyLaserOnDone
  exact .next (.ite (.setPort h) h)

theorem execPhyLockDone_kept {p w ok} (h : Kept s t) : KeptOut s (execPhyLockDone p w ok t) := by
  unfold execPhyLockDone
  exact .next (by
    refine .ite h ?_
    extract_lets +onlyGivenNames s0 s1
    have hs0 : Kept s s0 := .ite h (.atLeast h)
    exact .ite (.setPort hs0) (.phyFail (.setPort hs0)))

theorem execPhyTrainDone_kept {p w ok eyeh eyew} (h : Kept s t) : KeptOut s
    (execPhyTrainDone p w ok eyeh eyew t) := by
  unfold execPhyTrainDone
  exact .next (by
    refine .ite h ?_
    extract_lets +onlyGivenNames bits s0 s1
    have hs0 : Kept s s0 := .ite h (.atLeast h)
    exact .ite (.setPort hs0) (.phyFail (.setPort hs0)))

/-! ### FabricEvents -/

theorem Kept.remoteWrite {r ps} (h : Kept s t) : KeptRem s (t.remoteWrite r ps) := by
  unfold State.remoteWrite
  split
  · split
    · exact .done h
    · split
      · exact .wait h
      · split
        · exact .done (.filterAdd (.spanWrite h))
        · exact .done (.homeAtomic h)
        · exact .done (.homeAtomic h)
        · exact .done (.filterAdd (.homeWrite h))
  · exact .done h

theorem Kept.remoteDo {r} (h : Kept s t) : KeptRem s (t.remoteDo r) := by
  unfold State.remoteDo
  split
  · exact .fault
  · exact .wait (.parkOn h)
  · exact .wait h
  · extract_lets +onlyGivenNames free
    split
    · exact .wait h
    · extract_lets +onlyGivenNames s1
      have h1 : Kept s s1 := by
        unfold s1
        split
        · exact .energy h
        · exact h
      split
      · exact .done h
      · split
        · exact Kept.remoteWrite h1
        · split
          · split
            · split
              split
              · exact .done h1
              · exact .armed (.armAt h1)
            · exact .done h1
          · exact .done h1

theorem Kept.remoteAnswer {r cause why obj last data} (h : Kept s t) : Kept s
    (t.remoteAnswer r cause why obj last data) :=
  .ite h (.fabSend h)

theorem Kept.remoteStep {r} (h : Kept s t) : Kept s (t.remoteStep r) := by
  unfold State.remoteStep
  extract_lets +onlyGivenNames before rest keep
  refine .ite (.ite h (.frame h)) ?_
  refine .ite h ?_
  extract_lets +onlyGivenNames last
  split
  · next e0 => exact .ite ((Kept.remoteDo h).along e0) (.frame ((Kept.remoteDo h).along e0))
  · next e0 => exact .frame ((Kept.remoteDo h).along e0)
  · exact .remoteAnswer (.frame h)
  · next e0 => exact .remoteAnswer (.frame ((Kept.remoteDo h).along e0))

theorem execRemoteAccessArrive_kept {r} (h : Kept s t) : KeptOut s (execRemoteAccessArrive r t) :=
  .next (.remoteStep h)

theorem Kept.respGroup {n r} (h : Kept s t) : Kept s (t.respGroup n r) := by
  unfold State.respGroup
  split
  · split
    · split
      · exact .sentLane h
      · exact h
    · exact .modGrp h
  · split
    · exact .ite (.monStatus h) (.recordFault h)
    · exact h

theorem Kept.respCopy {n r} (h : Kept s t) : Kept s (t.respCopy n r) := by
  unfold State.respCopy
  split
  · exact h
  · extract_lets +onlyGivenNames s1
    refine .ite (.modSlice h) ?_
    split
    · exact .modSlice h
    · exact .ite (.modSlice h) (.sliceFault (.modSlice h))

theorem Kept.respond {p} (h : Kept s t) : Kept s (t.respond p) := by
  unfold State.respond
  exact .ite (.respIo h) (.ite (.cuAnswered h) (.ite (.respCopy h) (.respGroup h)))

theorem Kept.fabAcked {dev cls seq} (h : Kept s t) : Kept s (t.fabAcked dev cls seq) := by
  unfold State.fabAcked
  extract_lets +onlyGivenNames k l
  split
  · exact h
  · exact .fabDrain (.ite (.modHome (.frame h)) (.frame h))

theorem Kept.ackPkt {p} (h : Kept s t) : Kept s (t.ackPkt p) :=
  .ite (.fabAcked h) (.fabAck h)

theorem Kept.pktEffect {p} (h : Kept s t) : Kept s (t.pktEffect p) := by
  unfold State.pktEffect
  split
  · exact .respond h
  · exact .frame h
  · exact h
  · exact .frame h

theorem Kept.deliverFrom {n p} (h : Kept s t) : Kept s (State.deliverFrom n t p) := by
  induction n generalizing t p with
  | zero => exact h
  | succ n ih =>
    unfold State.deliverFrom
    extract_lets k n held twice left fab s1 s2
    have h2 : Kept s s2 := .foldl (.ackPkt (.pktEffect (.frame h))) fun _ _ h => .ackPkt (.pktEffect h)
    split
    · exact ih (.frame h2)
    · exact h2

theorem Kept.pktArrive {port p} (h : Kept s t) : Kept s (t.pktArrive port p) := by
  unfold State.pktArrive
  exact .ite h (.ite (.count h) (.ite (.fabAcked h) (.ite (.deliverFrom h)
      (.ite (.ite h (.frame (.ite (.setPort h) h))) (.ite (.ackPkt (.pktEffect (.setPort h))) (.ackPkt h))))))

theorem execFabricPacketReceive_kept {p pkt} (h : Kept s t) : KeptOut s
    (execFabricPacketReceive p pkt t) := by
  unfold execFabricPacketReceive
  exact .next (.ite (.pktArrive h) (.ite h (.pktArrive (.setPort h))))

theorem execFabricRetryTimeout_kept {dst cls seq} (h : Kept s t) : KeptOut s
    (execFabricRetryTimeout dst cls seq t) := by
  unfold execFabricRetryTimeout
  exact .next (by
    split
    · exact h
    · exact .frame (.putOnRail (.flitEnergy (.atLeast h))))

theorem execFrgenWrite_kept {v} (h : Kept s t) : KeptOut s (execFrgenWrite v t) :=
  .next (.ite (.count h) (.frame h))

theorem execReachabilityRereadDone_kept (h : Kept s t) : KeptOut s (execReachabilityRereadDone t) := by
  unfold execReachabilityRereadDone
  exact .next (.ite h (.reconnect (.frame h)))

/-! ### Services -/

theorem execWalkComplete_kept {u0 n va} (h : Kept s t) : KeptOut s (execWalkComplete u0 n va t) := by
  unfold execWalkComplete
  exact .next (by
    refine .ite h ?_
    extract_lets +onlyGivenNames s0 e1 e2 d g1
    split
    · exact .modTr h
    · exact .ite (.modTr (.frame (.modTr h))) (.ite (.modTr (.modTr (.frame (.modTr h))))
        (.modTr (.frame (.modTr h)))))

theorem execServiceRecordPost_kept {n} (h : Kept s t) : KeptOut s (execServiceRecordPost n t) := by
  unfold execServiceRecordPost
  exact .next (by
    split
    · exact h
    · exact .ite h (.post (.modCtx (.homeWrite h))))

theorem Kept.winFault {p} (h : Kept s t) : KeptWin s (t.winFault p) :=
  .done (.frame (.release h))

theorem Kept.winTry {f data off len} (h : Kept s t) : KeptWin s (t.winTry f data off len) := by
  unfold State.winTry
  extract_lets +onlyGivenNames x0 x0 wr p
  split
  · exact .wait h
  · split
    · exact .done (.release h)
    · split
      · exact Kept.winFault h
      · exact .wait (.parkOn h)
      · exact .wait h
      · split
        · split
          · exact .done (.release (.spanEnergy (.spanWrite h)))
          · exact Kept.winFault h
          · next x0 e0 => exact .wait ((Kept.spanOut h).along e0)
        · split
          · exact .done (.release (.spanEnergy h))
          · exact Kept.winFault h
          · next x0 e0 => exact .wait ((Kept.spanIn h).along e0)

theorem Kept.complete {f wr c} (h : Kept s t) : Kept s (t.complete f wr c) :=
  .ite h (.setHost h)

theorem Kept.winRetry {f l} (h : Kept s t) : Kept s (State.winRetry f l t) := by
  induction l generalizing t with
  | nil => exact h
  | cons e r ih =>
    unfold State.winRetry
    extract_lets keep
    split
    · exact ih (.setHost h)
    · have hw := Kept.winTry (f := f) (data := e.1) (off := e.2.1) (len := e.2.2) h
      split
      · next e => exact ih (.complete (hw.along e))
      · next e => exact ih (.setHost (hw.along e))

theorem Kept.winAgain (h : Kept s t) : Kept s (t.winAgain) :=
  .foldl h fun _ _ h0 => .ite h0 (.winRetry (.setHost h0))

theorem Kept.wakeOps {n obj sub code} (h : Kept s t) : Kept s (t.wakeOps n obj sub code) :=
  .withGroups h .mapAll

theorem Kept.wakeFetch {n obj sub} (h : Kept s t) : Kept s (t.wakeFetch n obj sub) :=
  .withGroups h .mapAll

theorem Kept.dropService {n obj sub} (h : Kept s t) : Kept s (t.dropService n obj sub) :=
  .modCtx h

theorem Kept.wakeParties {n obj sub} (h : Kept s t) : Kept s (t.wakeParties n obj sub) :=
  .frame h

theorem Kept.osvcDone {n obj sub} (h : Kept s t) : Kept s (t.osvcDone n obj sub) :=
  .ite (.count h) (.winAgain (.wakeFetch (.wakeOps (.wakeParties (.dropService h)))))

theorem execOsvcServiceDone_kept {n obj sub} (h : Kept s t) : KeptOut s (execOsvcServiceDone n obj sub t) :=
  .next (.osvcDone h)

theorem stateOf_kept {o : Out} (h : Kept s t) (ho : KeptOut s o) : Kept s (stateOf t o) := by
  unfold stateOf
  split
  · exact ho
  · exact h

theorem Kept.failParty {w} (h : Kept s t) : Kept s (t.failParty w) := by
  unfold State.failParty
  split
  · split
    · exact .sliceFault h
    · exact h
  · exact .ite h (.remoteAnswer (.frame h))
  · refine .ite h ?_
    split
    · next e0 => exact .complete ((Kept.winFault (.setHost h)).along e0)
    · next e0 => exact (Kept.winFault (.setHost h)).along e0
  · split
    · exact .endColl (.collFault (.release h))
    · exact h
  · exact .haltQueue (.setQueue (.release h))
  · split
    · exact .giveCode (.release h)
    · exact h
  · exact .msgDone (.msgLost (.release h))

theorem Kept.failParties {n obj sub} (h : Kept s t) : Kept s (t.failParties n obj sub) := by
  unfold State.failParties
  exact .foldl (.wakeParties h) fun _ _ h0 => .failParty h0

theorem Kept.failGroups {n obj sub} (h : Kept s t) : Kept s (t.failGroups n obj sub) :=
  .foldl h fun _ _ h0 => by
    split
    · exact h0
    · exact .ite h0 (.ite (.setGrp h0) (.ite (.takeTrap h0) (.takeTrap h0)))

theorem Kept.osvcFail {n obj sub} (h : Kept s t) : Kept s (t.osvcFail n obj sub) :=
  .ite (.count h) (.winAgain (.failParties (.failGroups (.wakeOps (.dropService h)))))

theorem execOsvcServiceFail_kept {n obj sub} (h : Kept s t) : KeptOut s (execOsvcServiceFail n obj sub t) :=
  .next (.osvcFail h)

theorem Kept.osvcWrite {v} (h : Kept s t) : Kept s (t.osvcWrite v) := by
  unfold State.osvcWrite
  exact .ite (.count h) (.ite (.osvcFail (.modDev h)) (.osvcDone (.modDev h)))

theorem Kept.allTr {f} (h : Kept s t) : Kept s (t.allTr f) :=
  .frame h

theorem Kept.shoot {p} (h : Kept s t) : Kept s (t.shoot p) := by
  unfold State.shoot
  split
  · exact .frame (.allTr h)
  · exact .frame h
  · exact .allTr h

theorem Kept.flushCtx {n} (h : Kept s t) : Kept s (t.flushCtx n) :=
  .foldl h fun _ _ h0 => .foldl h0 fun _ _ h1 => .cuLeave h1

theorem Kept.evictMons {p} (h : Kept s t) : Kept s (t.evictMons p) :=
  .ite h (.modHome h)

theorem Kept.raiseGen {n obj} (h : Kept s t) : Kept s (t.raiseGen n obj) := by
  unfold State.raiseGen
  exact .allTr (.homeWrite h)

theorem Kept.publish {p} (h : Kept s t) : Kept s (t.publish p) := by
  unfold State.publish
  extract_lets +onlyGivenNames fail
  split
  · extract_lets s1 s2
    have h1 : Kept s s1 := .modDev (.shoot (.evictMons h))
    unfold s2
    split
    · exact .modCtx h1
    · exact .modCtx h1
    · exact .modCtx (.raiseGen h1)
    · exact h1
  · exact .ite (.modDev (.modCtx (.shoot h))) (.modDev h)

theorem Kept.opubWrite {v} (h : Kept s t) : Kept s (t.opubWrite v) := by
  unfold State.opubWrite
  exact .ite (.count h) (.ite (.modDev (.modDev h)) (.publish (.modDev h)))

theorem Kept.publishAs {op n obj first count} (h : Kept s t) : Kept s (t.publishAs op n obj first count) :=
  .ite (.count h) (.opubWrite (.modDev h))

theorem execPublishRecord_kept {n obj} (h : Kept s t) : KeptOut s (execPublishRecord n obj t) :=
  .next (.publishAs h)

theorem execPublishMove_kept {n obj sub} (h : Kept s t) : KeptOut s (execPublishMove n obj sub t) :=
  .next (.publishAs h)

theorem execPublishRelease_kept {n obj sub} (h : Kept s t) : KeptOut s (execPublishRelease n obj sub t) :=
  .next (.publishAs h)

theorem execPublishEntries_kept {n obj first count} (h : Kept s t) : KeptOut s
    (execPublishEntries n obj first count t) :=
  .next (.publishAs h)

theorem execPublishGranules_kept {n first count} (h : Kept s t) : KeptOut s
    (execPublishGranules n first count t) :=
  .next (.publishAs h)

theorem execPublishDone_kept (h : Kept s t) : KeptOut s (execPublishDone t) := by
  unfold execPublishDone
  refine .next ?_
  split
  · exact h
  · refine .ite h (.ite (.flushCtx h) ?_)
    extract_lets s1 wake
    exact .winAgain (.withGroups (.modDev h) .mapAll)

/-! ### HostEvents -/

theorem Kept.elect (h : Kept s t) : Kept s (t.elect) := by
  unfold State.elect
  refine .ite h ?_
  split
  · exact h
  · exact .post (.postHeld (.modDev h))

theorem Kept.loseOwner (h : Kept s t) : Kept s (t.loseOwner) := by
  unfold State.loseOwner
  extract_lets +onlyGivenNames s1
  have hs1 : Kept s s1 := .elect (.modDev h)
  exact .ite hs1 (.post hs1)

theorem Kept.ownClaim {f prio} (h : Kept s t) : Kept s (t.ownClaim f prio) :=
  .ite h (.elect (.modDev h))

theorem execOwnClaim_kept {f prio} (h : Kept s t) : KeptOut s (execOwnClaim f prio t) :=
  .next (.ownClaim h)

theorem execOwnRelease_kept {f} (h : Kept s t) : KeptOut s (execOwnRelease f t) :=
  .next (.ite (.loseOwner h) h)

theorem execOwnHeartbeat_kept {f} (h : Kept s t) : KeptOut s (execOwnHeartbeat f t) :=
  .next (.ite (.modDev h) h)

theorem execOwnerTimeout_kept (h : Kept s t) : KeptOut s (execOwnerTimeout t) :=
  .next (.ite (.loseOwner (.atLeast h)) h)

theorem Kept.detach {f link} (h : Kept s t) : Kept s (t.detach f link) := by
  unfold State.detach
  extract_lets +onlyGivenNames x0 s0 s1
  have hs1 : Kept s s1 := .modDev (.setHost (.frame h))
  exact .ite (.loseOwner hs1) hs1

theorem execFunctionReset_kept {f} (h : Kept s t) : KeptOut s (execFunctionReset f t) :=
  .next (.ite (.detach h) h)

theorem Kept.linkDown {pd} (h : Kept s t) : Kept s (t.linkDown pd) :=
  .foldl h fun _ _ h0 => .ite (.detach h0) h0

theorem execPcieLinkDown_kept {pd} (h : Kept s t) : KeptOut s (execPcieLinkDown pd t) :=
  .next (.ite (.linkDown h) h)

theorem execPcieLinkUp_kept {pd gen} (h : Kept s t) : KeptOut s (execPcieLinkUp pd gen t) :=
  .next (.ite h (.foldl h fun _ _ h0 => .setHost h0))

theorem Kept.attWrite {f go} (h : Kept s t) : Kept s (t.attWrite f go) := by
  unfold State.attWrite
  exact .ite h (.ite (.setHost h) (.ite (.setHost h) h))

theorem Kept.attRequest {f} (h : Kept s t) : Kept s (t.attRequest f) :=
  .attWrite h

theorem execAttestationRequest_kept {f} (h : Kept s t) : KeptOut s (execAttestationRequest f t) :=
  .next (.ite (.attRequest h) h)

theorem execAttestationDone_kept {f} (h : Kept s t) : KeptOut s (execAttestationDone f t) := by
  unfold execAttestationDone
  exact .next (.ite (.setHost h) h)

/-! ### DieEvents -/

theorem Kept.forgetCtx {n} (h : Kept s t) : Kept s (t.forgetCtx n) := by
  unfold State.forgetCtx
  exact .frame h

theorem Kept.noteAllIdle (h : Kept s t) : Kept s (t.noteAllIdle) :=
  .foldl h fun _ _ h0 => .noteIdle h0

theorem Kept.disableCtx {n} (h : Kept s t) : Kept s (t.disableCtx n) := by
  unfold State.disableCtx
  extract_lets s1 s2 s0 qs s3
  have h1 : Kept s s1 := .forgetCtx (.dropCumulus (.dropWork h))
  have h2 : Kept s s2 := .withGroups h1 .filter
  have h3 : Kept s s3 := .foldl (.frame h2) fun _ _ h => .haltQueue h
  exact .noteAllIdle (.winAgain (.modCtx h3))

theorem Kept.ctxCfgWrite {n v} (h : Kept s t) : Kept s (t.ctxCfgWrite n v) := by
  unfold State.ctxCfgWrite
  exact .ite (.count h) (.ite (.setCtx h) (.ite (.count h) (.ite (.setCtx h) (.disableCtx (.setCtx h)))))

theorem execContextEnable_kept {n v} (h : Kept s t) : KeptOut s (execContextEnable n v t) :=
  .next (.ite (.ctxCfgWrite h) h)

theorem execContextDisable_kept {n} (h : Kept s t) : KeptOut s (execContextDisable n t) :=
  .next (.ite (.disableCtx h) h)

theorem Kept.dieCtx {n d} (h : Kept s t) : Kept s (t.dieCtx n d) := by
  unfold State.dieCtx
  split
  · extract_lets s1 gone s2 s3
    have h1 : Kept s s1 := .dropCumulus (.dropWork h)
    have h2 : Kept s s2 := .withGroups h1 .filter
    have h3 : Kept s s3 := .withGroups h2 .mapAll
    exact .modCtx h3
  · exact .ite h (.modCtx h)
  · exact h

theorem Kept.dieAll {d} (h : Kept s t) : Kept s (t.dieAll d) :=
  .foldl h fun _ _ h0 => .dieCtx h0

theorem execDieHaltDeadline_kept {n} (h : Kept s t) : KeptOut s (execDieHaltDeadline n t) := by
  unfold execDieHaltDeadline
  refine .next ?_
  split
  · exact .ite h (.withGroups (.atLeast h) .mapAll)
  · exact h

theorem execDieReportPost_kept {n} (h : Kept s t) : KeptOut s (execDieReportPost n t) :=
  .next (by
    split
    · exact .ite h (.post (.modCtx h))
    · exact h)

theorem Kept.loseCompute {d} (h : Kept s t) : Kept s (t.loseCompute d) := by
  unfold State.loseCompute
  extract_lets mine s1 s2 v s3
  have h3 : Kept s s3 := .setDie (.foldl (.modHome h) fun _ _ h => .lineStep h)
  exact .withGroups h3 .mapAll

theorem Kept.loseMemory {n} (h : Kept s t) : Kept s (t.loseMemory n) := by
  unfold State.loseMemory
  exact .post (.foldl (.modHome (.foldl h fun _ _ h1 => .settleLine h1)) fun _ _ h2 => .filterAdd h2)

theorem Kept.losePort {pd} (h : Kept s t) : Kept s (t.losePort pd) := by
  unfold State.losePort
  extract_lets s1 down str s2
  have h1 : Kept s s1 := .foldl h fun _ _ h => .ite (.portDown h) h
  have h2 : Kept s s2 := by
    unfold s2
    split
    · exact .frame (.linkDown h1)
    · exact .linkDown h1
  exact .ite (.modDev h2) h2

theorem Kept.verdict {c} (h : Kept s t) : Kept s (t.verdict c) := by
  unfold State.verdict
  refine .ite h ?_
  extract_lets +onlyGivenNames chip s1 die s2 s3
  have h3 : Kept s s3 := .cutOff (.setDie (.modDev (.setChip h)))
  exact .ite (.foldl (.loseCompute h3) fun _ _ h => .dieCtx h)
    (.ite (.ite (.dieAll (.modHome h3)) (.loseMemory h3)) (.losePort h3))

theorem execDeadDieVerdict_kept {c} (h : Kept s t) : KeptOut s (execDeadDieVerdict c t) :=
  .next (.ite (.verdict h) h)

theorem Kept.resetTo {cold} (h : Kept s t) : Kept s (t.resetTo cold) where
  mem hm := by
    cases cold
    · exact h.mem hm
    · rfl
  keys _ := .nil

theorem execColdReset_kept (h : Kept s t) : KeptOut s (execColdReset t) :=
  .next (.resetTo h)

theorem execDeviceReset_kept (h : Kept s t) : KeptOut s (execDeviceReset t) :=
  .next (.resetTo h)

theorem Kept.bootTo {n} (h : Kept s t) : Kept s (t.bootTo n) :=
  .modDev h

theorem Kept.startFirmware (h : Kept s t) : Kept s (t.startFirmware) := by
  unfold State.startFirmware
  exact .frame h

theorem execBootStepDone_kept {ok info} (h : Kept s t) : KeptOut s (execBootStepDone ok info t) := by
  unfold execBootStepDone
  refine .next (.ite h ?_)
  split
  · exact .ite (.bootTo (.frame h)) (.modDev h)
  · exact .bootTo h
  · exact .ite (.bootTo (.modDev h)) (.ite (.modDev h) (.modDev h))
  · exact .bootTo (.startFirmware h)
  · extract_lets s1 s2
    have h2 : Kept s s2 := .ite (.frame h) (.foldl (.frame h) fun _ _ h => .verdict h)
    exact .bootTo (.frame h2)
  · extract_lets s1 s2 s3
    have h2 : Kept s s2 := .withMem (.modHome (.modDev h)) fun _ => rfl
    have h3 : Kept s s3 := .ite h2 (.foldl h2 fun _ _ h => .verdict h)
    exact .bootTo h3
  · exact .bootTo (.frame h)
  · exact .modDev h

theorem execStratusTakeover_kept (h : Kept s t) : KeptOut s (execStratusTakeover t) := by
  unfold execStratusTakeover
  exact .next (.ite h (.ite (.post (.modDev (.frame h))) (.ite (.post (.modDev (.frame (.atLeast h)))) h)))

/-! ### ConfigSpace -/

theorem Kept.ruled {ok u} (h : Kept s t) (hu : Kept s u) : Kept s (t.ruled ok u) :=
  .ite hu (.count h)

theorem Kept.devWrite {f o v} (h : Kept s t) : Kept s (t.devWrite f o v) := by
  unfold State.devWrite
  split
  · exact .ruled h (by
      split
      · split
        · exact .ownClaim h
        · exact .ite (.loseOwner h) h
        · exact .ite (.modDev h) h
        · exact h
      · exact h)
  · exact .ruled h (.ite (.resetTo h) h)
  · exact .ruled h (.frame h)
  · exact stateOf_kept h (execFrgenWrite_kept h)
  · exact .opubWrite h
  · exact .modDev h
  · exact .osvcWrite h
  · exact .ruled h (.modDev h)
  · exact .ruled h (.modDev h)
  · exact h

theorem Kept.fnWrite {f o v} (h : Kept s t) : Kept s (t.fnWrite f o v) := by
  unfold State.fnWrite
  extract_lets +onlyGivenNames x0
  refine .ite (.setHost h) ?_
  split
  · exact .ruled h (.setHost h)
  · exact .ruled h (.setHost h)
  · exact .ruled h (.setHost h)
  · exact .ruled h (.attWrite h)
  · exact h

theorem Kept.ctxWrite {n o v} (h : Kept s t) : Kept s (t.ctxWrite n o v) := by
  unfold State.ctxWrite
  extract_lets +onlyGivenNames put
  refine .ite (.ruled h (.modCtx h)) ?_
  refine .ite (.ruled h (.modCtx h)) ?_
  refine .ite (.ruled h (.modCtx h)) ?_
  split
  · exact .ctxCfgWrite h
  · exact .ruled h (.modCtx h)
  · exact .ruled h (.modCtx h)
  · exact .ruled h (.modCtx h)
  · exact .ruled h (.modCtx h)
  · exact .ruled h (.modCtx h)
  · exact .ruled h (.modCtx h)
  · exact .ruled h (.modCtx h)
  · exact .ruled h (.modCtx h)
  · exact .ruled h (.modCtx h)
  · exact .ruled h (.modCtx h)
  · exact .ruled h (.modCtx h)
  · exact h

theorem Kept.queueWrite {n o v} (h : Kept s t) : Kept s (t.queueWrite n o v) := by
  unfold State.queueWrite
  extract_lets +onlyGivenNames q
  split
  · exact .ruled h (.setQueue h)
  · exact .ruled h (.setQueue h)
  · exact .ruled h (.doorbell h)
  · exact .ite h (.ruled h (.setQueue h))
  · exact h

theorem Kept.coreWrite {k o v} (h : Kept s t) : Kept s (t.coreWrite k o v) := by
  unfold State.coreWrite
  split
  · exact .ruled h (.modCore h)
  · exact .ruled h (.modCore h)
  · exact h

theorem Kept.chipWrite {c o v} (h : Kept s t) : Kept s (t.chipWrite c o v) := by
  unfold State.chipWrite
  refine .ite (.rrtWrite h) ?_
  refine .ite h ?_
  split
  · exact .rgcfgWrite h
  · exact .ruled h (.setDie h)
  · exact .ruled h (.setCluster h)

theorem Kept.egressWrite {q o v} (h : Kept s t) : Kept s (t.egressWrite q o v) :=
  .ite h (.ruled h (.setEgr h))

theorem Kept.tlWrite {x v} (h : Kept s t) : Kept s (t.tlWrite x v) :=
  .syncWake (.modDev h)

theorem Kept.regWrite {f r v} (h : Kept s t) : Kept s (t.regWrite f r v) := by
  unfold State.regWrite
  split
  · exact .devWrite h
  · exact .fnWrite h
  · exact .ctxWrite h
  · exact .ruled h (.frame h)
  · exact .queueWrite h
  · exact .coreWrite h
  · exact .tlWrite h
  · exact .chipWrite h
  · exact .ite (.pcfgWrite h) (.ite (.lmapWrite h) h)
  · exact .egressWrite h
  · exact .ite (.phyWrite h) h

theorem Kept.noReg {a v} (h : Kept s t) : Kept s (t.noReg a v) := by
  unfold State.noReg
  exact .ite (.logged (.count h)) (.count h)

theorem Kept.cfgWrite {str f ca v} (h : Kept s t) : Kept s (t.cfgWrite str f ca v) := by
  unfold State.cfgWrite
  extract_lets +onlyGivenNames a
  refine .ite (.count h) ?_
  split
  · refine .ite ?_ (.count h)
    split
    · exact .regWrite h
    · exact .noReg h
  · exact .ite (.homeWrite h) (.count h)
  · exact .ite (.frame h) (.count h)
  · exact .count h

theorem Kept.bar0 {f ca v} (h : Kept s t) : Kept s (t.bar0 f ca v) := by
  unfold State.bar0
  exact .ite (.count h) (.ite (.count h) (.ite (.count h) (.cfgWrite h)))

theorem Kept.hostWrite {f ca v} (h : Kept s t) : Kept s (t.hostWrite f ca v) := by
  unfold State.hostWrite
  exact .ite h (.ite (.winAgain (.bar0 (.setHost h))) (.ite h (.ite (.setHost h) (.bar0 h))))

theorem execConfigRegisterWrite_kept {f ca v} (h : Kept s t) : KeptOut s (execConfigRegisterWrite f ca v t) :=
  .next (.hostWrite h)

theorem execTimelineEntryWrite_kept {x v} (h : Kept s t) : KeptOut s (execTimelineEntryWrite x v t) :=
  .next (.ite (.tlWrite h) h)

theorem execDoorbellWrite_kept {f q tail} (h : Kept s t) : KeptOut s (execDoorbellWrite f q tail t) :=
  .next (.ite (.hostWrite h) (.ite (.count h) h))

theorem execLqstatResume_kept {f q} (h : Kept s t) : KeptOut s (execLqstatResume f q t) :=
  .next (.ite (.hostWrite h) h)

theorem Kept.hostWindow {f data off len} (h : Kept s t) : Kept s (t.hostWindow f data off len) := by
  unfold State.hostWindow
  extract_lets +onlyGivenNames x0 e
  refine .ite h ?_
  refine .ite (.count h) ?_
  refine .ite (.setHost h) ?_
  split
  · next x0 c e0 => exact .complete ((Kept.winTry h).along e0)
  · next x0 e0 => exact .setHost ((Kept.winTry h).along e0)

theorem execHostWindowRead_kept {f off len} (h : Kept s t) : KeptOut s (execHostWindowRead f off len t) :=
  .next (.hostWindow h)

theorem execHostWindowWrite_kept {f off data} (h : Kept s t) : KeptOut s (execHostWindowWrite f off data t) :=
  .next (.hostWindow h)

/-! ### Scalar -/

theorem scalar3_kept {fn cls d a b f} (h : Kept s t) : KeptOut s (scalar3 fn cls d a b f t) :=
  issue_kept h fun _ _ _ _ => .grp

theorem execSadd_kept {d a b} (h : Kept s t) : KeptOut s (execSadd d a b t) :=
  scalar3_kept h

theorem execSsub_kept {d a b} (h : Kept s t) : KeptOut s (execSsub d a b t) :=
  scalar3_kept h

theorem execSmul_kept {d a b} (h : Kept s t) : KeptOut s (execSmul d a b t) :=
  scalar3_kept h

theorem execSmulh_kept {d a b} (h : Kept s t) : KeptOut s (execSmulh d a b t) :=
  scalar3_kept h

theorem execSmulhn_kept {d a b} (h : Kept s t) : KeptOut s (execSmulhn d a b t) :=
  scalar3_kept h

theorem execSdiv_kept {d a b} (h : Kept s t) : KeptOut s (execSdiv d a b t) :=
  scalar3_kept h

theorem execSdivn_kept {d a b} (h : Kept s t) : KeptOut s (execSdivn d a b t) :=
  scalar3_kept h

theorem execSrem_kept {d a b} (h : Kept s t) : KeptOut s (execSrem d a b t) :=
  scalar3_kept h

theorem execSremn_kept {d a b} (h : Kept s t) : KeptOut s (execSremn d a b t) :=
  scalar3_kept h

theorem execSand_kept {d a b} (h : Kept s t) : KeptOut s (execSand d a b t) :=
  scalar3_kept h

theorem execSor_kept {d a b} (h : Kept s t) : KeptOut s (execSor d a b t) :=
  scalar3_kept h

theorem execSxor_kept {d a b} (h : Kept s t) : KeptOut s (execSxor d a b t) :=
  scalar3_kept h

theorem execSandn_kept {d a b} (h : Kept s t) : KeptOut s (execSandn d a b t) :=
  scalar3_kept h

theorem execSshl_kept {d a b} (h : Kept s t) : KeptOut s (execSshl d a b t) :=
  scalar3_kept h

theorem execSshr_kept {d a b} (h : Kept s t) : KeptOut s (execSshr d a b t) :=
  scalar3_kept h

theorem execSsra_kept {d a b} (h : Kept s t) : KeptOut s (execSsra d a b t) :=
  scalar3_kept h

theorem execSrol_kept {d a b} (h : Kept s t) : KeptOut s (execSrol d a b t) :=
  scalar3_kept h

theorem execSmin_kept {d a b} (h : Kept s t) : KeptOut s (execSmin d a b t) :=
  scalar3_kept h

theorem execSmax_kept {d a b} (h : Kept s t) : KeptOut s (execSmax d a b t) :=
  scalar3_kept h

theorem execSminn_kept {d a b} (h : Kept s t) : KeptOut s (execSminn d a b t) :=
  scalar3_kept h

theorem execSmaxn_kept {d a b} (h : Kept s t) : KeptOut s (execSmaxn d a b t) :=
  scalar3_kept h

theorem execSceq_kept {d a b} (h : Kept s t) : KeptOut s (execSceq d a b t) :=
  scalar3_kept h

theorem execScne_kept {d a b} (h : Kept s t) : KeptOut s (execScne d a b t) :=
  scalar3_kept h

theorem execSclt_kept {d a b} (h : Kept s t) : KeptOut s (execSclt d a b t) :=
  scalar3_kept h

theorem execScle_kept {d a b} (h : Kept s t) : KeptOut s (execScle d a b t) :=
  scalar3_kept h

theorem execScltn_kept {d a b} (h : Kept s t) : KeptOut s (execScltn d a b t) :=
  scalar3_kept h

theorem execSclen_kept {d a b} (h : Kept s t) : KeptOut s (execSclen d a b t) :=
  scalar3_kept h

theorem execSsel_kept {d a b e} (h : Kept s t) : KeptOut s (execSsel d a b e t) := by
  unfold execSsel
  exact issue_kept h fun _ _ _ _ => .grp

theorem scalar4_kept {fn cls d a i f} (h : Kept s t) : KeptOut s (scalar4 fn cls d a i f t) :=
  issue_kept h fun _ _ _ _ => .grp

theorem execSaddi_kept {d a i} (h : Kept s t) : KeptOut s (execSaddi d a i t) :=
  scalar4_kept h

theorem execSandi_kept {d a i} (h : Kept s t) : KeptOut s (execSandi d a i t) :=
  scalar4_kept h

theorem execSori_kept {d a i} (h : Kept s t) : KeptOut s (execSori d a i t) :=
  scalar4_kept h

theorem execSxori_kept {d a i} (h : Kept s t) : KeptOut s (execSxori d a i t) :=
  scalar4_kept h

theorem execSshli_kept {d a i} (h : Kept s t) : KeptOut s (execSshli d a i t) :=
  scalar4_kept h

theorem execSshri_kept {d a i} (h : Kept s t) : KeptOut s (execSshri d a i t) :=
  scalar4_kept h

theorem execSsrai_kept {d a i} (h : Kept s t) : KeptOut s (execSsrai d a i t) :=
  scalar4_kept h

theorem execSclti_kept {d a i} (h : Kept s t) : KeptOut s (execSclti d a i t) :=
  scalar4_kept h

theorem execSli_kept {d i} (h : Kept s t) : KeptOut s (execSli d i t) :=
  issue_kept h fun _ _ _ _ => .grp

theorem execSlih_kept {d i} (h : Kept s t) : KeptOut s (execSlih d i t) :=
  issue_kept h fun _ _ _ _ => .grp

theorem execSadpc_kept {d i} (h : Kept s t) : KeptOut s (execSadpc d i t) :=
  issue_kept h fun _ _ _ _ => .grp

theorem execMfs_kept {d r} (h : Kept s t) : KeptOut s (execMfs d r t) :=
  issue2_kept h (fun _ _ _ _ => .ite (.st (.setGrp (.l1Clear h))) .grp) fun _ _ _ _ => .grp

theorem mtsWb_kept {u0 g g1 v} : KeptEff s (mtsWb u0 g g1 v) :=
  .ite .trap (.ite spfTrap_kept .grp)

theorem mtsPriv_kept {u0 k g g1 r v} (h : Kept s t) : KeptEff s (mtsPriv u0 t k g g1 r v) :=
  .ite .trap (.ite (.st (.modCtx (.setGrp h))) (.st (.modWg (.setGrp h))))

theorem mtsEff_kept {u0 r a k x5 g g1} (h : Kept s t) : KeptEff s (mtsEff u0 r a t k x5 g g1) := by
  unfold mtsEff
  extract_lets +onlyGivenNames v
  split
  · exact .grp
  · exact .grp
  · exact .grp
  · exact mtsWb_kept
  · exact .grp
  · exact .grp
  · exact .grp
  · exact .grp
  · exact .trap
  · exact mtsPriv_kept h
  · exact mtsPriv_kept h
  · exact .trap

theorem mtsStr_kept {u0 r a x4 x5 g g1} : KeptEff s (mtsStr u0 r a t x4 x5 g g1) := by
  unfold mtsStr
  extract_lets +onlyGivenNames v
  split
  · exact .grp
  · exact .grp
  · exact .grp
  · exact .grp
  · exact .grp
  · exact .grp
  · exact .trap

theorem execMts_kept {r a} (h : Kept s t) : KeptOut s (execMts r a t) := by
  unfold execMts
  exact issue2_kept h (fun _ _ _ _ => mtsEff_kept h) fun _ _ _ _ => mtsStr_kept

theorem execSext_kept {d a b} (h : Kept s t) : KeptOut s (execSext d a b t) :=
  issue_kept h fun _ _ _ _ => .grp

theorem execSins_kept {d a b} (h : Kept s t) : KeptOut s (execSins d a b t) :=
  issue_kept h fun _ _ _ _ => .grp

theorem scalar8_kept {fn d a f} (h : Kept s t) : KeptOut s (scalar8 fn d a f t) :=
  issue_kept h fun _ _ _ _ => .grp

theorem execSpopc_kept {d a} (h : Kept s t) : KeptOut s (execSpopc d a t) :=
  scalar8_kept h

theorem execSclz_kept {d a} (h : Kept s t) : KeptOut s (execSclz d a t) :=
  scalar8_kept h

theorem execSctz_kept {d a} (h : Kept s t) : KeptOut s (execSctz d a t) :=
  scalar8_kept h

theorem execSbrev_kept {d a} (h : Kept s t) : KeptOut s (execSbrev d a t) :=
  scalar8_kept h

theorem execSfirst_kept {d a} (h : Kept s t) : KeptOut s (execSfirst d a t) :=
  issue_kept h fun _ _ _ _ => .grp

theorem execSballot_kept {d a} (h : Kept s t) : KeptOut s (execSballot d a t) :=
  issue_kept h fun _ _ _ _ => .grp

theorem execSmask_kept {d a} (h : Kept s t) : KeptOut s (execSmask d a t) :=
  issue_kept h fun _ _ _ _ => .grp

/-! ### VecInt -/

theorem lane2_kept {fn cls x d a b f} (h : Kept s t) : KeptOut s (lane2 fn cls x d a b f t) :=
  issue_kept h fun _ _ _ _ => .grp

theorem lane1_kept {fn cls x d a f} (h : Kept s t) : KeptOut s (lane1 fn cls x d a f t) :=
  issue_kept h fun _ _ _ _ => .grp

theorem lane3_kept {fn cls x d a b f} (h : Kept s t) : KeptOut s (lane3 fn cls x d a b f t) :=
  issue_kept h fun _ _ _ _ => .grp

theorem execVadd_kept {x d a b} (h : Kept s t) : KeptOut s (execVadd x d a b t) :=
  lane2_kept h

theorem execVsub_kept {x d a b} (h : Kept s t) : KeptOut s (execVsub x d a b t) :=
  lane2_kept h

theorem execVmul_kept {x d a b} (h : Kept s t) : KeptOut s (execVmul x d a b t) :=
  lane2_kept h

theorem execVmulh_kept {x d a b} (h : Kept s t) : KeptOut s (execVmulh x d a b t) :=
  lane2_kept h

theorem execVmulhn_kept {x d a b} (h : Kept s t) : KeptOut s (execVmulhn x d a b t) :=
  lane2_kept h

theorem execVmad_kept {x d a b} (h : Kept s t) : KeptOut s (execVmad x d a b t) :=
  lane3_kept h

theorem execVdiv_kept {x d a b} (h : Kept s t) : KeptOut s (execVdiv x d a b t) :=
  lane2_kept h

theorem execVdivn_kept {x d a b} (h : Kept s t) : KeptOut s (execVdivn x d a b t) :=
  lane2_kept h

theorem execVrem_kept {x d a b} (h : Kept s t) : KeptOut s (execVrem x d a b t) :=
  lane2_kept h

theorem execVremn_kept {x d a b} (h : Kept s t) : KeptOut s (execVremn x d a b t) :=
  lane2_kept h

theorem execVmin_kept {x d a b} (h : Kept s t) : KeptOut s (execVmin x d a b t) :=
  lane2_kept h

theorem execVmax_kept {x d a b} (h : Kept s t) : KeptOut s (execVmax x d a b t) :=
  lane2_kept h

theorem execVminn_kept {x d a b} (h : Kept s t) : KeptOut s (execVminn x d a b t) :=
  lane2_kept h

theorem execVmaxn_kept {x d a b} (h : Kept s t) : KeptOut s (execVmaxn x d a b t) :=
  lane2_kept h

theorem execVabs_kept {x d a} (h : Kept s t) : KeptOut s (execVabs x d a t) :=
  lane1_kept h

theorem execVand_kept {x d a b} (h : Kept s t) : KeptOut s (execVand x d a b t) :=
  lane2_kept h

theorem execVor_kept {x d a b} (h : Kept s t) : KeptOut s (execVor x d a b t) :=
  lane2_kept h

theorem execVxor_kept {x d a b} (h : Kept s t) : KeptOut s (execVxor x d a b t) :=
  lane2_kept h

theorem execVandn_kept {x d a b} (h : Kept s t) : KeptOut s (execVandn x d a b t) :=
  lane2_kept h

theorem execVshl_kept {x d a b} (h : Kept s t) : KeptOut s (execVshl x d a b t) :=
  lane2_kept h

theorem execVshr_kept {x d a b} (h : Kept s t) : KeptOut s (execVshr x d a b t) :=
  lane2_kept h

theorem execVsra_kept {x d a b} (h : Kept s t) : KeptOut s (execVsra x d a b t) :=
  lane2_kept h

theorem execVrol_kept {x d a b} (h : Kept s t) : KeptOut s (execVrol x d a b t) :=
  lane2_kept h

theorem execVfsh_kept {x d a b} (h : Kept s t) : KeptOut s (execVfsh x d a b t) :=
  lane3_kept h

theorem execVpopc_kept {x d a} (h : Kept s t) : KeptOut s (execVpopc x d a t) :=
  lane1_kept h

theorem execVclz_kept {x d a} (h : Kept s t) : KeptOut s (execVclz x d a t) :=
  lane1_kept h

theorem execVbrev_kept {x d a} (h : Kept s t) : KeptOut s (execVbrev x d a t) :=
  lane1_kept h

theorem execVbfe_kept {x d a b} (h : Kept s t) : KeptOut s (execVbfe x d a b t) :=
  lane2_kept h

theorem execVbfi_kept {x d a b} (h : Kept s t) : KeptOut s (execVbfi x d a b t) :=
  lane3_kept h

theorem execVclmul_kept {x d a b} (h : Kept s t) : KeptOut s (execVclmul x d a b t) :=
  lane2_kept h

theorem execVclmulh_kept {x d a b} (h : Kept s t) : KeptOut s (execVclmulh x d a b t) :=
  lane2_kept h

theorem execVsadd_kept {x d a b} (h : Kept s t) : KeptOut s (execVsadd x d a b t) :=
  lane2_kept h

theorem execVssub_kept {x d a b} (h : Kept s t) : KeptOut s (execVssub x d a b t) :=
  lane2_kept h

theorem lanePair_kept {fn x d a b f} (h : Kept s t) : KeptOut s (lanePair fn x d a b f t) :=
  issue_kept h fun _ _ _ _ => .grp

theorem execVadd64_kept {x d a b} (h : Kept s t) : KeptOut s (execVadd64 x d a b t) :=
  lanePair_kept h

theorem execVsub64_kept {x d a b} (h : Kept s t) : KeptOut s (execVsub64 x d a b t) :=
  lanePair_kept h

theorem execVmov_kept {x d a} (h : Kept s t) : KeptOut s (execVmov x d a t) :=
  lane1_kept h

theorem execVdot4_kept {x d a b} (h : Kept s t) : KeptOut s (execVdot4 x d a b t) :=
  lane3_kept h

theorem execVdot4n_kept {x d a b} (h : Kept s t) : KeptOut s (execVdot4n x d a b t) :=
  lane3_kept h

theorem lane10_kept {fn cls x d a i f} (h : Kept s t) : KeptOut s (lane10 fn cls x d a i f t) :=
  issue_kept h fun _ _ _ _ => .grp

theorem execVaddi_kept {x d a i} (h : Kept s t) : KeptOut s (execVaddi x d a i t) :=
  lane10_kept h

theorem execVandi_kept {x d a i} (h : Kept s t) : KeptOut s (execVandi x d a i t) :=
  lane10_kept h

theorem execVori_kept {x d a i} (h : Kept s t) : KeptOut s (execVori x d a i t) :=
  lane10_kept h

theorem execVxori_kept {x d a i} (h : Kept s t) : KeptOut s (execVxori x d a i t) :=
  lane10_kept h

theorem execVshli_kept {x d a i} (h : Kept s t) : KeptOut s (execVshli x d a i t) :=
  lane10_kept h

theorem execVshri_kept {x d a i} (h : Kept s t) : KeptOut s (execVshri x d a i t) :=
  lane10_kept h

theorem execVsrai_kept {x d a i} (h : Kept s t) : KeptOut s (execVsrai x d a i t) :=
  lane10_kept h

theorem execVmuli_kept {x d a i} (h : Kept s t) : KeptOut s (execVmuli x d a i t) :=
  lane10_kept h

/-! ### VecFloat -/

theorem fWrite_kept {d m g1 f} : KeptEff s (fWrite d m g1 f) := by
  unfold fWrite
  exact .grp

theorem fl2_kept {maj fn cls x d a b f} (h : Kept s t) : KeptOut s (fl2 maj fn cls x d a b f t) :=
  issue_kept h fun _ _ _ _ => fWrite_kept

theorem fl1_kept {maj fn cls x d a f} (h : Kept s t) : KeptOut s (fl1 maj fn cls x d a f t) :=
  issue_kept h fun _ _ _ _ => fWrite_kept

theorem fl3_kept {fn cls x d a b f} (h : Kept s t) : KeptOut s (fl3 fn cls x d a b f t) :=
  issue_kept h fun _ _ _ _ => fWrite_kept

theorem execFadd_kept {x d a b} (h : Kept s t) : KeptOut s (execFadd x d a b t) :=
  fl2_kept h

theorem execFsub_kept {x d a b} (h : Kept s t) : KeptOut s (execFsub x d a b t) :=
  fl2_kept h

theorem execFmul_kept {x d a b} (h : Kept s t) : KeptOut s (execFmul x d a b t) :=
  fl2_kept h

theorem execFfma_kept {x d a b} (h : Kept s t) : KeptOut s (execFfma x d a b t) :=
  fl3_kept h

theorem execFfms_kept {x d a b} (h : Kept s t) : KeptOut s (execFfms x d a b t) :=
  fl3_kept h

theorem execFnma_kept {x d a b} (h : Kept s t) : KeptOut s (execFnma x d a b t) :=
  fl3_kept h

theorem execFmin_kept {x d a b} (h : Kept s t) : KeptOut s (execFmin x d a b t) :=
  fl2_kept h

theorem execFmax_kept {x d a b} (h : Kept s t) : KeptOut s (execFmax x d a b t) :=
  fl2_kept h

theorem execFminm_kept {x d a b} (h : Kept s t) : KeptOut s (execFminm x d a b t) :=
  fl2_kept h

theorem execFmaxm_kept {x d a b} (h : Kept s t) : KeptOut s (execFmaxm x d a b t) :=
  fl2_kept h

theorem execFabs_kept {x d a} (h : Kept s t) : KeptOut s (execFabs x d a t) :=
  fl1_kept h

theorem execFneg_kept {x d a} (h : Kept s t) : KeptOut s (execFneg x d a t) :=
  fl1_kept h

theorem execFcpys_kept {x d a b} (h : Kept s t) : KeptOut s (execFcpys x d a b t) :=
  fl2_kept h

theorem execFdot2_kept {x d a b} (h : Kept s t) : KeptOut s (execFdot2 x d a b t) :=
  fl3_kept h

theorem execHadd2_kept {x d a b} (h : Kept s t) : KeptOut s (execHadd2 x d a b t) :=
  fl2_kept h

theorem execHmul2_kept {x d a b} (h : Kept s t) : KeptOut s (execHmul2 x d a b t) :=
  fl2_kept h

theorem execHfma2_kept {x d a b} (h : Kept s t) : KeptOut s (execHfma2 x d a b t) :=
  fl3_kept h

theorem execFround_kept {x d a} (h : Kept s t) : KeptOut s (execFround x d a t) :=
  fl1_kept h

theorem execFldexp_kept {x d a b} (h : Kept s t) : KeptOut s (execFldexp x d a b t) :=
  fl2_kept h

theorem execFgetexp_kept {x d a} (h : Kept s t) : KeptOut s (execFgetexp x d a t) :=
  fl1_kept h

theorem cmpI_kept {fn x d a b f} (h : Kept s t) : KeptOut s (cmpI fn x d a b f t) :=
  issue_kept h fun _ _ _ _ => .grp

theorem cmpF_kept {fn kind x d a b} (h : Kept s t) : KeptOut s (cmpF fn kind x d a b t) :=
  issue_kept h fun _ _ _ _ => .grp

theorem predOp_kept {fn x d a b f} (h : Kept s t) : KeptOut s (predOp fn x d a b f t) :=
  issue_kept h fun _ _ _ _ => .grp

theorem execVceq_kept {x d a b} (h : Kept s t) : KeptOut s (execVceq x d a b t) :=
  cmpI_kept h

theorem execVcne_kept {x d a b} (h : Kept s t) : KeptOut s (execVcne x d a b t) :=
  cmpI_kept h

theorem execVclt_kept {x d a b} (h : Kept s t) : KeptOut s (execVclt x d a b t) :=
  cmpI_kept h

theorem execVcle_kept {x d a b} (h : Kept s t) : KeptOut s (execVcle x d a b t) :=
  cmpI_kept h

theorem execVcltn_kept {x d a b} (h : Kept s t) : KeptOut s (execVcltn x d a b t) :=
  cmpI_kept h

theorem execVclen_kept {x d a b} (h : Kept s t) : KeptOut s (execVclen x d a b t) :=
  cmpI_kept h

theorem execFceq_kept {x d a b} (h : Kept s t) : KeptOut s (execFceq x d a b t) :=
  cmpF_kept h

theorem execFcne_kept {x d a b} (h : Kept s t) : KeptOut s (execFcne x d a b t) :=
  cmpF_kept h

theorem execFclt_kept {x d a b} (h : Kept s t) : KeptOut s (execFclt x d a b t) :=
  cmpF_kept h

theorem execFcle_kept {x d a b} (h : Kept s t) : KeptOut s (execFcle x d a b t) :=
  cmpF_kept h

theorem execFcun_kept {x d a b} (h : Kept s t) : KeptOut s (execFcun x d a b t) :=
  cmpF_kept h

theorem execFcls_kept {x d a b} (h : Kept s t) : KeptOut s (execFcls x d a b t) :=
  issue_kept h fun _ _ _ _ => .grp

theorem execPand_kept {x d a b} (h : Kept s t) : KeptOut s (execPand x d a b t) :=
  predOp_kept h

theorem execPor_kept {x d a b} (h : Kept s t) : KeptOut s (execPor x d a b t) :=
  predOp_kept h

theorem execPxor_kept {x d a b} (h : Kept s t) : KeptOut s (execPxor x d a b t) :=
  predOp_kept h

theorem execPandn_kept {x d a b} (h : Kept s t) : KeptOut s (execPandn x d a b t) :=
  predOp_kept h

theorem execPnot_kept {x d a} (h : Kept s t) : KeptOut s (execPnot x d a t) :=
  predOp_kept h

theorem execVmrg_kept {x d a b} (h : Kept s t) : KeptOut s (execVmrg x d a b t) :=
  issue_kept h fun _ _ _ _ => .grp

theorem execFrcp_kept {x d a} (h : Kept s t) : KeptOut s (execFrcp x d a t) :=
  fl1_kept h

theorem execFrsq_kept {x d a} (h : Kept s t) : KeptOut s (execFrsq x d a t) :=
  fl1_kept h

theorem execFsqrt_kept {x d a} (h : Kept s t) : KeptOut s (execFsqrt x d a t) :=
  fl1_kept h

theorem execFdiv_kept {x d a b} (h : Kept s t) : KeptOut s (execFdiv x d a b t) :=
  fl2_kept h

theorem execFexp2_kept {x d a} (h : Kept s t) : KeptOut s (execFexp2 x d a t) :=
  fl1_kept h

theorem execFlog2_kept {x d a} (h : Kept s t) : KeptOut s (execFlog2 x d a t) :=
  fl1_kept h

theorem execFsin_kept {x d a} (h : Kept s t) : KeptOut s (execFsin x d a t) :=
  fl1_kept h

theorem execFcos_kept {x d a} (h : Kept s t) : KeptOut s (execFcos x d a t) :=
  fl1_kept h

theorem execFtanh_kept {x d a} (h : Kept s t) : KeptOut s (execFtanh x d a t) :=
  fl1_kept h

theorem execFsig_kept {x d a} (h : Kept s t) : KeptOut s (execFsig x d a t) :=
  fl1_kept h

theorem execFerf_kept {x d a} (h : Kept s t) : KeptOut s (execFerf x d a t) :=
  fl1_kept h

/-! ### VecLane -/

theorem execVperm_kept {x d a b} (h : Kept s t) : KeptOut s (execVperm x d a b t) :=
  issue_kept h fun _ _ _ _ => .grp

theorem execVlane_kept {x d a b} (h : Kept s t) : KeptOut s (execVlane x d a b t) :=
  issue_kept h fun _ _ _ _ => .grp

theorem redInt_kept {fn cls x d a e f sx} (h : Kept s t) : KeptOut s (redInt fn cls x d a e f sx t) :=
  issue_kept h fun _ _ _ _ => .grp

theorem execVredadd_kept {x d a} (h : Kept s t) : KeptOut s (execVredadd x d a t) :=
  redInt_kept h

theorem execVredmin_kept {x d a} (h : Kept s t) : KeptOut s (execVredmin x d a t) :=
  redInt_kept h

theorem execVredmax_kept {x d a} (h : Kept s t) : KeptOut s (execVredmax x d a t) :=
  redInt_kept h

theorem execVredminn_kept {x d a} (h : Kept s t) : KeptOut s (execVredminn x d a t) :=
  redInt_kept h

theorem execVredmaxn_kept {x d a} (h : Kept s t) : KeptOut s (execVredmaxn x d a t) :=
  redInt_kept h

theorem execVredand_kept {x d a} (h : Kept s t) : KeptOut s (execVredand x d a t) :=
  redInt_kept h

theorem execVredor_kept {x d a} (h : Kept s t) : KeptOut s (execVredor x d a t) :=
  redInt_kept h

theorem execVredxor_kept {x d a} (h : Kept s t) : KeptOut s (execVredxor x d a t) :=
  redInt_kept h

theorem redFl_kept {fn x d a e op} (h : Kept s t) : KeptOut s (redFl fn x d a e op t) :=
  issue_kept h fun _ _ _ _ => .grp

theorem execFredadd_kept {x d a} (h : Kept s t) : KeptOut s (execFredadd x d a t) :=
  redFl_kept h

theorem execFredmin_kept {x d a} (h : Kept s t) : KeptOut s (execFredmin x d a t) :=
  redFl_kept h

theorem execFredmax_kept {x d a} (h : Kept s t) : KeptOut s (execFredmax x d a t) :=
  redFl_kept h

theorem scanInt_kept {fn x d a keep} (h : Kept s t) : KeptOut s (scanInt fn x d a keep t) :=
  issue_kept h fun _ _ _ _ => .grp

theorem execVscan_kept {x d a} (h : Kept s t) : KeptOut s (execVscan x d a t) :=
  scanInt_kept h

theorem execVscanx_kept {x d a} (h : Kept s t) : KeptOut s (execVscanx x d a t) :=
  scanInt_kept h

theorem execFscan_kept {x d a} (h : Kept s t) : KeptOut s (execFscan x d a t) :=
  issue_kept h fun _ _ _ _ => fWrite_kept

theorem execVcompact_kept {x d a} (h : Kept s t) : KeptOut s (execVcompact x d a t) :=
  issue_kept h fun _ _ _ _ => .grp

theorem execVexpand_kept {x d a} (h : Kept s t) : KeptOut s (execVexpand x d a t) :=
  issue_kept h fun _ _ _ _ => .grp

theorem execVmatch_kept {x d a} (h : Kept s t) : KeptOut s (execVmatch x d a t) :=
  issue_kept h fun _ _ _ _ => .grp

/-! ### Convert -/

theorem conv1U_kept {u0 x d a f} (h : Kept s t) : KeptOut s (conv1U u0 x d a f t) :=
  issue_kept h fun _ _ _ _ => fWrite_kept

theorem conv1_kept {fn cls x d a b f} (h : Kept s t) : KeptOut s (conv1 fn cls x d a b f t) :=
  conv1U_kept h

theorem execCvtfi_kept {x d a} (h : Kept s t) : KeptOut s (execCvtfi x d a t) :=
  conv1_kept h

theorem execCvtfn_kept {x d a} (h : Kept s t) : KeptOut s (execCvtfn x d a t) :=
  conv1_kept h

theorem execCvtif_kept {x d a} (h : Kept s t) : KeptOut s (execCvtif x d a t) :=
  conv1_kept h

theorem execCvtnf_kept {x d a} (h : Kept s t) : KeptOut s (execCvtnf x d a t) :=
  conv1_kept h

theorem execCvtfh_kept {x d a h3} (h : Kept s t) : KeptOut s (execCvtfh x d a h3 t) := by
  unfold execCvtfh
  exact issue_kept h fun _ _ _ _ => fWrite_kept

theorem execCvthf_kept {x d a h3} (h : Kept s t) : KeptOut s (execCvthf x d a h3 t) := by
  unfold execCvthf
  exact conv1_kept h

theorem execCvtf8_kept {x d a c} (h : Kept s t) : KeptOut s (execCvtf8 x d a c t) :=
  issue_kept h fun _ _ _ _ => fWrite_kept

theorem execCvt8f_kept {x d a c} (h : Kept s t) : KeptOut s (execCvt8f x d a c t) :=
  conv1U_kept h

theorem execFpack4_kept {x d a c} (h : Kept s t) : KeptOut s (execFpack4 x d a c t) :=
  issue_kept h fun _ _ _ _ => fWrite_kept

theorem execFunpk4_kept {x d a c} (h : Kept s t) : KeptOut s (execFunpk4 x d a c t) :=
  issue_kept h fun _ _ _ _ => .grp

theorem execMxscl_kept {x d a} (h : Kept s t) : KeptOut s (execMxscl x d a t) :=
  issue_kept h fun _ _ _ _ => .ite .grp .grp

theorem execMxq_kept {x d a b} (h : Kept s t) : KeptOut s (execMxq x d a b t) :=
  issue_kept h fun _ _ _ _ => .ite .grp (.ite .grp .grp)

theorem execMxdq_kept {x d a b} (h : Kept s t) : KeptOut s (execMxdq x d a b t) :=
  issue_kept h fun _ _ _ _ => .ite fWrite_kept fWrite_kept

theorem execSrseed_kept {x a} (h : Kept s t) : KeptOut s (execSrseed x a t) :=
  issue_kept h fun _ _ _ _ => .grp

/-! ### PowerEvents -/

theorem Kept.fill {core} (h : Kept s t) : Kept s (t.fill core) := by
  unfold State.fill
  exact .modCore (.freeValue (.freeValue h))

theorem execPowerEstimate_kept {core drop} (h : Kept s t) : KeptOut s (execPowerEstimate core drop t) := by
  unfold execPowerEstimate
  exact .next (.ite h (.noteIdle (.ite (.fill (.setCore (.settleCore h))) (.setCore (.settleCore h)))))

theorem Kept.lvIn {core} (h : Kept s t) : Kept s (t.lvIn core) :=
  .modCore (.settleCore h)

theorem execLvEnter_kept {core} (h : Kept s t) : KeptOut s (execLvEnter core t) :=
  .next (.ite h (.ite (.ite (.lvWish h) h) (.lvWish (.lvIn h))))

theorem execLvExit_kept {core} (h : Kept s t) : KeptOut s (execLvExit core t) := by
  unfold execLvExit
  exact .next (.ite h (.ite (.lvWish h) (.lvWish (.lvOut h))))

theorem execLvTransitionDone_kept {core} (h : Kept s t) : KeptOut s (execLvTransitionDone core t) := by
  unfold execLvTransitionDone
  exact .next (.ite h (.modCore (.settleCore (.atLeast h))))

theorem Kept.capOne {l} (h : Kept s t) : Kept s (t.capOne l) :=
  .foldl h fun _ _ h0 => .modCore (.ite h0 (.lvIn h0))

theorem Kept.uncapOne {l} (h : Kept s t) : Kept s (t.uncapOne l) :=
  .foldl h fun _ _ h0 => .ite (.modCore h0) (.lvOut (.modCore h0))

theorem execPowerCapStep_kept {pkg cds mem pho} (h : Kept s t) : KeptOut s
    (execPowerCapStep pkg cds mem pho t) := by
  unfold execPowerCapStep
  exact .next (by
    refine .ite ?_ ?_
    · split
      · exact .capOne (.modDev (.atLeast h))
      · exact .modDev (.atLeast h)
    · refine .ite ?_ (.modDev (.atLeast h))
      split
      · exact .uncapOne (.modDev (.atLeast h))
      · exact (.modDev (.atLeast h)))

/-! ### MgmtUnits -/

theorem launchEff_kept {u0 d a k x5 g g1} (h : Kept s t) : KeptEff s (launchEff u0 d a t k x5 g g1) := by
  unfold launchEff
  exact .ite .trap (.ite .trap (.ite .wait (.st (.setGrp (.frame h)))))

theorem execLaunch_kept {d a} (h : Kept s t) : KeptOut s (execLaunch d a t) := by
  unfold execLaunch
  exact issue_kept h fun _ _ _ _ => launchEff_kept h

theorem preemptEff_kept {d a b k m g g1} (h : Kept s t) : KeptEff s (preemptEff d a b t k m g g1) := by
  unfold preemptEff
  exact .ite .wait (.st (.ite (.doPreempt (.setGrp (.frame h))) (.setGrp (.frame h))))

theorem preemptStr_kept {d a b x4 x5 g g1} (h : Kept s t) : KeptEff s (preemptStr d a b t x4 x5 g g1) := by
  unfold preemptStr
  extract_lets +onlyGivenNames x0 y c s1
  have hs1 : Kept s s1 := .ite (.doPreempt h) h
  exact .ite .grp (.ite (.st (.frame hs1)) (.waitSt (.frame hs1)))

theorem execPreempt_kept {d a b} (h : Kept s t) : KeptOut s (execPreempt d a b t) := by
  unfold execPreempt
  exact issue2_kept h (fun _ _ _ _ => preemptEff_kept h) fun _ _ _ _ => preemptStr_kept h

theorem resumeEff_kept {d a b k m g g1} (h : Kept s t) : KeptEff s (resumeEff d a b t k m g g1) := by
  unfold resumeEff
  exact .ite .wait (.st (.ite (.holdImages (.holdNamed (.setGrp (.frame h)))) (.setGrp (.frame h))))

theorem resumeStr_kept {d a b x4 x5 g g1} (h : Kept s t) : KeptEff s (resumeStr d a b t x4 x5 g g1) := by
  unfold resumeStr
  exact .st (.frame (.ite (.holdImages (.holdNamed h)) h))

theorem execResume_kept {d a b} (h : Kept s t) : KeptOut s (execResume d a b t) := by
  unfold execResume
  exact issue2_kept h (fun _ _ _ _ => resumeEff_kept h) fun _ _ _ _ => resumeStr_kept h

theorem cfgrdEff_kept {u0 d a k x5 g g1} (h : Kept s t) : KeptEff s (cfgrdEff u0 d a t k x5 g g1) := by
  unfold cfgrdEff
  extract_lets +onlyGivenNames ca
  split
  · exact .trap
  · exact .ite .wait (.st (.setGrp (.l1Clear (.frame h))))

theorem cfgrdStr_kept {u0 d a x4 x5 g g1} : KeptEff s (cfgrdStr u0 d a t x4 x5 g g1) := by
  unfold cfgrdStr
  extract_lets +onlyGivenNames ca
  split
  · exact .trap
  · exact .grp

theorem execCfgrd_kept {d a} (h : Kept s t) : KeptOut s (execCfgrd d a t) := by
  unfold execCfgrd
  exact issue2_kept h (fun _ _ _ _ => cfgrdEff_kept h) fun _ _ _ _ => cfgrdStr_kept

theorem cfgwrEff_kept {u0 a b k x5 g g1} (h : Kept s t) : KeptEff s (cfgwrEff u0 a b t k x5 g g1) := by
  unfold cfgwrEff
  extract_lets +onlyGivenNames ca
  split
  · exact .trap
  · exact .ite .wait (.st (.setGrp (.frame h)))

theorem cfgwrStr_kept {u0 a b x4 x5 g g1} (h : Kept s t) : KeptEff s (cfgwrStr u0 a b t x4 x5 g g1) := by
  unfold cfgwrStr
  extract_lets +onlyGivenNames ca
  split
  · exact .trap
  · exact .st (.cfgWrite (.frame h))

theorem execCfgwr_kept {a b} (h : Kept s t) : KeptOut s (execCfgwr a b t) := by
  unfold execCfgwr
  exact issue2_kept h (fun _ _ _ _ => cfgwrEff_kept h) fun _ _ _ _ => cfgwrStr_kept h

/-! ### MemEvents -/

theorem Kept.sendOp {k g o} (h : Kept s t) : Kept s (t.sendOp k g o) :=
  .ite h (.ite (.cuFlush h) (.ite (.modGrp (.sendRemote h)) h))

theorem Kept.remoteFault {k g o a} (h : Kept s t) : Kept s (t.remoteFault k g o a) := by
  unfold State.remoteFault
  extract_lets +onlyGivenNames b f s1
  have hs1 : Kept s s1 := by
    unfold s1
    split
    · exact .storeLanes h
    · exact .filterDrop h
  split
  · exact .recordFault hs1
  · exact hs1

theorem Kept.returnLaunch {k g o} (h : Kept s t) : Kept s (t.returnLaunch k g o) := by
  unfold State.returnLaunch
  refine .ite h ?_
  refine .ite (.cuFlush h) ?_
  split
  · next e0 => exact .giveCode ((Kept.doLaunch h).along e0)
  · next e0 => exact (Kept.doLaunch h).along e0

theorem Kept.returnCrsz {k g o} (h : Kept s t) : Kept s (t.returnCrsz k g o) := by
  unfold State.returnCrsz
  exact .ite h (.giveCode (.doCrsz h))

theorem Kept.returnCfgrd {k g o} (h : Kept s t) : Kept s (t.returnCfgrd k g o) :=
  .ite h (.l1Clear (.giveCode h))

theorem Kept.performCfgwr {k g o} (h : Kept s t) : Kept s (t.performCfgwr k g o) :=
  .ite h (.ite (.cuFlush h) (.cfgWrite (.modGrp h)))

theorem execLoadReturn_kept {k op} (h : Kept s t) : KeptOut s (execLoadReturn k op t) :=
  .next (.takeParked (by
    split
    · exact h
    · refine .ite h ?_
      refine .ite (.sendOp h) ?_
      split
      · exact .remoteFault h
      · exact .returnLoad h
      · exact .returnLoad h
      · exact .returnLoad h
      · exact .ite (.remoteFault h) h
      · exact .returnAtom h
      · exact .returnLaunch h
      · exact .ite (.giveCode h) h
      · exact .giveCode h
      · exact .returnCrsz h
      · exact .returnCfgrd h
      · exact .recvGo h
      · exact h))

theorem execStorePerformed_kept {k op} (h : Kept s t) : KeptOut s (execStorePerformed k op t) :=
  .next (.takeParked (by
    split
    · exact h
    · refine .ite h ?_
      refine .ite (.sendOp h) ?_
      split
      · exact .ite (.remoteFault h) h
      · exact .performStore h
      · exact .ite (.remoteFault h) h
      · exact .doneRed h
      · exact .performCfgwr h
      · exact .acceptOp h
      · exact h))

theorem execWaitingTableRetry_kept {k op} (h : Kept s t) : KeptOut s (execWaitingTableRetry k op t) :=
  .next (by
    split
    · exact h
    · refine .ite h ?_
      split
      · exact .ite (.retryOp h) (.mwaitTry h)
      · exact .ite (.retryOp h) (.modGrp h)
      · exact .retryOp h)

/-! ### Dispatch -/

/-- Every instruction keeps the forms, one lemma for each. -/
theorem exec_kept {i} (h : Kept s t) : KeptOut s (exec i t) := by
  cases i with
  | nop => exact execNop_kept h
  | exit => exact execExit_kept h
  | trap => exact execTrap_kept h
  | brk => exact execBrk_kept h
  | rte => exact execRte_kept h
  | yield => exact execYield_kept h
  | ret => exact execRet_kept h
  | winb => exact execWinb_kept h
  | vsync => exact execVsync_kept h
  | sleep => exact execSleep_kept h
  | qcfg => exact execQcfg_kept h
  | qrst => exact execQrst_kept h
  | setfmt => exact execSetfmt_kept h
  | setmode => exact execSetmode_kept h
  | bra => exact execBra_kept h
  | bz => exact execBz_kept h
  | bnz => exact execBnz_kept h
  | bltz => exact execBltz_kept h
  | bgez => exact execBgez_kept h
  | call => exact execCall_kept h
  | calli => exact execCalli_kept h
  | jmpi => exact execJmpi_kept h
  | vbr => exact execVbr_kept h
  | vbrall => exact execVbrall_kept h
  | vbrany => exact execVbrany_kept h
  | vjoin => exact execVjoin_kept h
  | sadd => exact execSadd_kept h
  | ssub => exact execSsub_kept h
  | smul => exact execSmul_kept h
  | smulh => exact execSmulh_kept h
  | smulhn => exact execSmulhn_kept h
  | sdiv => exact execSdiv_kept h
  | sdivn => exact execSdivn_kept h
  | srem => exact execSrem_kept h
  | sremn => exact execSremn_kept h
  | sand => exact execSand_kept h
  | sor => exact execSor_kept h
  | sxor => exact execSxor_kept h
  | sandn => exact execSandn_kept h
  | sshl => exact execSshl_kept h
  | sshr => exact execSshr_kept h
  | ssra => exact execSsra_kept h
  | srol => exact execSrol_kept h
  | smin => exact execSmin_kept h
  | smax => exact execSmax_kept h
  | sminn => exact execSminn_kept h
  | smaxn => exact execSmaxn_kept h
  | sceq => exact execSceq_kept h
  | scne => exact execScne_kept h
  | sclt => exact execSclt_kept h
  | scle => exact execScle_kept h
  | scltn => exact execScltn_kept h
  | sclen => exact execSclen_kept h
  | ssel => exact execSsel_kept h
  | saddi => exact execSaddi_kept h
  | sandi => exact execSandi_kept h
  | sori => exact execSori_kept h
  | sxori => exact execSxori_kept h
  | sshli => exact execSshli_kept h
  | sshri => exact execSshri_kept h
  | ssrai => exact execSsrai_kept h
  | sclti => exact execSclti_kept h
  | sli => exact execSli_kept h
  | slih => exact execSlih_kept h
  | sadpc => exact execSadpc_kept h
  | mfs => exact execMfs_kept h
  | mts => exact execMts_kept h
  | sext => exact execSext_kept h
  | sins => exact execSins_kept h
  | spopc => exact execSpopc_kept h
  | sclz => exact execSclz_kept h
  | sctz => exact execSctz_kept h
  | sbrev => exact execSbrev_kept h
  | sfirst => exact execSfirst_kept h
  | sballot => exact execSballot_kept h
  | smask => exact execSmask_kept h
  | vadd => exact execVadd_kept h
  | vsub => exact execVsub_kept h
  | vmul => exact execVmul_kept h
  | vmulh => exact execVmulh_kept h
  | vmulhn => exact execVmulhn_kept h
  | vmad => exact execVmad_kept h
  | vdiv => exact execVdiv_kept h
  | vdivn => exact execVdivn_kept h
  | vrem => exact execVrem_kept h
  | vremn => exact execVremn_kept h
  | vmin => exact execVmin_kept h
  | vmax => exact execVmax_kept h
  | vminn => exact execVminn_kept h
  | vmaxn => exact execVmaxn_kept h
  | vabs => exact execVabs_kept h
  | vand => exact execVand_kept h
  | vor => exact execVor_kept h
  | vxor => exact execVxor_kept h
  | vandn => exact execVandn_kept h
  | vshl => exact execVshl_kept h
  | vshr => exact execVshr_kept h
  | vsra => exact execVsra_kept h
  | vrol => exact execVrol_kept h
  | vfsh => exact execVfsh_kept h
  | vpopc => exact execVpopc_kept h
  | vclz => exact execVclz_kept h
  | vbrev => exact execVbrev_kept h
  | vbfe => exact execVbfe_kept h
  | vbfi => exact execVbfi_kept h
  | vclmul => exact execVclmul_kept h
  | vclmulh => exact execVclmulh_kept h
  | vsadd => exact execVsadd_kept h
  | vssub => exact execVssub_kept h
  | vadd64 => exact execVadd64_kept h
  | vsub64 => exact execVsub64_kept h
  | vmov => exact execVmov_kept h
  | vdot4 => exact execVdot4_kept h
  | vdot4n => exact execVdot4n_kept h
  | vaddi => exact execVaddi_kept h
  | vandi => exact execVandi_kept h
  | vori => exact execVori_kept h
  | vxori => exact execVxori_kept h
  | vshli => exact execVshli_kept h
  | vshri => exact execVshri_kept h
  | vsrai => exact execVsrai_kept h
  | vmuli => exact execVmuli_kept h
  | fadd => exact execFadd_kept h
  | fsub => exact execFsub_kept h
  | fmul => exact execFmul_kept h
  | ffma => exact execFfma_kept h
  | ffms => exact execFfms_kept h
  | fnma => exact execFnma_kept h
  | fmin => exact execFmin_kept h
  | fmax => exact execFmax_kept h
  | fminm => exact execFminm_kept h
  | fmaxm => exact execFmaxm_kept h
  | fabs => exact execFabs_kept h
  | fneg => exact execFneg_kept h
  | fcpys => exact execFcpys_kept h
  | fdot2 => exact execFdot2_kept h
  | hadd2 => exact execHadd2_kept h
  | hmul2 => exact execHmul2_kept h
  | hfma2 => exact execHfma2_kept h
  | fround => exact execFround_kept h
  | fldexp => exact execFldexp_kept h
  | fgetexp => exact execFgetexp_kept h
  | vceq => exact execVceq_kept h
  | vcne => exact execVcne_kept h
  | vclt => exact execVclt_kept h
  | vcle => exact execVcle_kept h
  | vcltn => exact execVcltn_kept h
  | vclen => exact execVclen_kept h
  | fceq => exact execFceq_kept h
  | fcne => exact execFcne_kept h
  | fclt => exact execFclt_kept h
  | fcle => exact execFcle_kept h
  | fcun => exact execFcun_kept h
  | fcls => exact execFcls_kept h
  | pand => exact execPand_kept h
  | por => exact execPor_kept h
  | pxor => exact execPxor_kept h
  | pandn => exact execPandn_kept h
  | pnot => exact execPnot_kept h
  | vmrg => exact execVmrg_kept h
  | vperm => exact execVperm_kept h
  | vlane => exact execVlane_kept h
  | vredadd => exact execVredadd_kept h
  | vredmin => exact execVredmin_kept h
  | vredmax => exact execVredmax_kept h
  | vredminn => exact execVredminn_kept h
  | vredmaxn => exact execVredmaxn_kept h
  | vredand => exact execVredand_kept h
  | vredor => exact execVredor_kept h
  | vredxor => exact execVredxor_kept h
  | fredadd => exact execFredadd_kept h
  | fredmin => exact execFredmin_kept h
  | fredmax => exact execFredmax_kept h
  | vscan => exact execVscan_kept h
  | vscanx => exact execVscanx_kept h
  | fscan => exact execFscan_kept h
  | vcompact => exact execVcompact_kept h
  | vexpand => exact execVexpand_kept h
  | vmatch => exact execVmatch_kept h
  | frcp => exact execFrcp_kept h
  | frsq => exact execFrsq_kept h
  | fsqrt => exact execFsqrt_kept h
  | fdiv => exact execFdiv_kept h
  | fexp2 => exact execFexp2_kept h
  | flog2 => exact execFlog2_kept h
  | fsin => exact execFsin_kept h
  | fcos => exact execFcos_kept h
  | ftanh => exact execFtanh_kept h
  | fsig => exact execFsig_kept h
  | ferf => exact execFerf_kept h
  | cvtfi => exact execCvtfi_kept h
  | cvtfn => exact execCvtfn_kept h
  | cvtif => exact execCvtif_kept h
  | cvtnf => exact execCvtnf_kept h
  | cvtfh => exact execCvtfh_kept h
  | cvthf => exact execCvthf_kept h
  | cvtf8 => exact execCvtf8_kept h
  | cvt8f => exact execCvt8f_kept h
  | fpack4 => exact execFpack4_kept h
  | funpk4 => exact execFunpk4_kept h
  | mxscl => exact execMxscl_kept h
  | mxq => exact execMxq_kept h
  | mxdq => exact execMxdq_kept h
  | srseed => exact execSrseed_kept h
  | ldI8 => exact execLdI8_kept h
  | ldN8 => exact execLdN8_kept h
  | ldI16 => exact execLdI16_kept h
  | ldN16 => exact execLdN16_kept h
  | ldB32 => exact execLdB32_kept h
  | ldB64 => exact execLdB64_kept h
  | ldB128 => exact execLdB128_kept h
  | ldm => exact execLdm_kept h
  | stB8 => exact execStB8_kept h
  | stB16 => exact execStB16_kept h
  | stB32 => exact execStB32_kept h
  | stB64 => exact execStB64_kept h
  | stB128 => exact execStB128_kept h
  | stm => exact execStm_kept h
  | sta => exact execSta_kept h
  | sta64 => exact execSta64_kept h
  | atomAdd => exact execAtomAdd_kept h
  | atomSub => exact execAtomSub_kept h
  | atomMin => exact execAtomMin_kept h
  | atomMax => exact execAtomMax_kept h
  | atomMinn => exact execAtomMinn_kept h
  | atomMaxn => exact execAtomMaxn_kept h
  | atomAnd => exact execAtomAnd_kept h
  | atomOr => exact execAtomOr_kept h
  | atomXor => exact execAtomXor_kept h
  | atomXchg => exact execAtomXchg_kept h
  | atomCas => exact execAtomCas_kept h
  | atomFadd => exact execAtomFadd_kept h
  | atomFmin => exact execAtomFmin_kept h
  | atomFmax => exact execAtomFmax_kept h
  | atomBfadd2 => exact execAtomBfadd2_kept h
  | atomIncw => exact execAtomIncw_kept h
  | redAdd => exact execRedAdd_kept h
  | redSub => exact execRedSub_kept h
  | redMin => exact execRedMin_kept h
  | redMax => exact execRedMax_kept h
  | redMinn => exact execRedMinn_kept h
  | redMaxn => exact execRedMaxn_kept h
  | redAnd => exact execRedAnd_kept h
  | redOr => exact execRedOr_kept h
  | redXor => exact execRedXor_kept h
  | redFadd => exact execRedFadd_kept h
  | redFmin => exact execRedFmin_kept h
  | redFmax => exact execRedFmax_kept h
  | redBfadd2 => exact execRedBfadd2_kept h
  | ldwB32 => exact execLdwB32_kept h
  | ldwB64 => exact execLdwB64_kept h
  | ldwB128 => exact execLdwB128_kept h
  | stwB32 => exact execStwB32_kept h
  | stwB64 => exact execStwB64_kept h
  | stwB128 => exact execStwB128_kept h
  | wadd => exact execWadd_kept h
  | wcas => exact execWcas_kept h
  | ldo => exact execLdo_kept h
  | sto => exact execSto_kept h
  | ldob => exact execLdob_kept h
  | stob => exact execStob_kept h
  | oinfo => exact execOinfo_kept h
  | oprobe => exact execOprobe_kept h
  | fence => exact execFence_kept h
  | pfence => exact execPfence_kept h
  | mwait => exact execMwait_kept h
  | fla => exact execFla_kept h
  | cinv => exact execCinv_kept h
  | cwb => exact execCwb_kept h
  | crsz => exact execCrsz_kept h
  | pref => exact execPref_kept h
  | cpy => exact execCpy_kept h
  | cpyb => exact execCpyb_kept h
  | cpyt => exact execCpyt_kept h
  | cpyx => exact execCpyx_kept h
  | gath => exact execGath_kept h
  | scat => exact execScat_kept h
  | scata => exact execScata_kept h
  | mma => exact execMma_kept h
  | mxloop => exact execMxloop_kept h
  | mxzero => exact execMxzero_kept h
  | tld => exact execTld_kept h
  | tst => exact execTst_kept h
  | mxcfg => exact execMxcfg_kept h
  | mxrel => exact execMxrel_kept h
  | balloc => exact execBalloc_kept h
  | bfree => exact execBfree_kept h
  | barv => exact execBarv_kept h
  | barw => exact execBarw_kept h
  | barx => exact execBarx_kept h
  | bar => exact execBar_kept h
  | barPx => exact execBarPx_kept h
  | semaAdd => exact execSemaAdd_kept h
  | semaSet => exact execSemaSet_kept h
  | semw => exact execSemw_kept h
  | tlrd => exact execTlrd_kept h
  | tlwait => exact execTlwait_kept h
  | waitk => exact execWaitk_kept h
  | waitr => exact execWaitr_kept h
  | spawn => exact execSpawn_kept h
  | sendh => exact execSendh_kept h
  | recvq => exact execRecvq_kept h
  | coll => exact execColl_kept h
  | peerq => exact execPeerq_kept h
  | launch => exact execLaunch_kept h
  | preempt => exact execPreempt_kept h
  | resume => exact execResume_kept h
  | cfgrd => exact execCfgrd_kept h
  | cfgwr => exact execCfgwr_kept h
  | wait => exact execWait_kept h
  | doorbellWrite => exact execDoorbellWrite_kept h
  | launchRecordTake => exact execLaunchRecordTake_kept h
  | lqstatResume => exact execLqstatResume_kept h
  | hostWindowRead => exact execHostWindowRead_kept h
  | hostWindowWrite => exact execHostWindowWrite_kept h
  | placeWorkgroup => exact execPlaceWorkgroup_kept h
  | eprioAge => exact execEprioAge_kept h
  | evictWorkgroup => exact execEvictWorkgroup_kept h
  | saveBegin => exact execSaveBegin_kept h
  | saveComplete => exact execSaveComplete_kept h
  | resumeWorkgroup => exact execResumeWorkgroup_kept h
  | resumeComplete => exact execResumeComplete_kept h
  | gridComplete => exact execGridComplete_kept h
  | regroupBinTimer => exact execRegroupBinTimer_kept h
  | regroupStoreRoom => exact execRegroupStoreRoom_kept h
  | clusterIdleGate => exact execClusterIdleGate_kept h
  | clusterUngate => exact execClusterUngate_kept h
  | rulingClassHoldEnd => exact execRulingClassHoldEnd_kept h
  | classWaitRaise => exact execClassWaitRaise_kept h
  | urgentCandidate => exact execUrgentCandidate_kept h
  | yieldEnd => exact execYieldEnd_kept h
  | sleepWake => exact execSleepWake_kept h
  | spillTransferDone => exact execSpillTransferDone_kept h
  | trapEnter => exact execTrapEnter_kept h
  | handlerWatchdog => exact execHandlerWatchdog_kept h
  | contextHaltDeadline => exact execContextHaltDeadline_kept h
  | contextFaultReport => exact execContextFaultReport_kept h
  | reportVectorTimer => exact execReportVectorTimer_kept h
  | loadReturn => exact execLoadReturn_kept h
  | storePerformed => exact execStorePerformed_kept h
  | waitingTableRetry => exact execWaitingTableRetry_kept h
  | walkComplete => exact execWalkComplete_kept h
  | serviceRecordPost => exact execServiceRecordPost_kept h
  | osvcServiceDone => exact execOsvcServiceDone_kept h
  | osvcServiceFail => exact execOsvcServiceFail_kept h
  | publishRecord => exact execPublishRecord_kept h
  | publishMove => exact execPublishMove_kept h
  | publishRelease => exact execPublishRelease_kept h
  | publishEntries => exact execPublishEntries_kept h
  | publishGranules => exact execPublishGranules_kept h
  | publishDone => exact execPublishDone_kept h
  | remoteAccessArrive => exact execRemoteAccessArrive_kept h
  | copyStart => exact execCopyStart_kept h
  | aonVersionAcquire => exact execAonVersionAcquire_kept h
  | verPassEnd => exact execVerPassEnd_kept h
  | copySliceComplete => exact execCopySliceComplete_kept h
  | barvReleaseDone => exact execBarvReleaseDone_kept h
  | copyComplete => exact execCopyComplete_kept h
  | timelineEntryWrite => exact execTimelineEntryWrite_kept h
  | matrixStepStart => exact execMatrixStepStart_kept h
  | matrixStepComplete => exact execMatrixStepComplete_kept h
  | tileTransferDone => exact execTileTransferDone_kept h
  | homeGets => exact execHomeGets_kept h
  | homeGetm => exact execHomeGetm_kept h
  | homePutm => exact execHomePutm_kept h
  | homePute => exact execHomePute_kept h
  | homeWritePerform => exact execHomeWritePerform_kept h
  | snoopInv => exact execSnoopInv_kept h
  | snoopRecToS => exact execSnoopRecToS_kept h
  | snoopRecToI => exact execSnoopRecToI_kept h
  | snoopAnswer => exact execSnoopAnswer_kept h
  | grantArrive => exact execGrantArrive_kept h
  | putAck => exact execPutAck_kept h
  | snoopResend => exact execSnoopResend_kept h
  | atomicPerform => exact execAtomicPerform_kept h
  | replayRequest => exact execReplayRequest_kept h
  | monitorTimeout => exact execMonitorTimeout_kept h
  | monitorStatusDeliver => exact execMonitorStatusDeliver_kept h
  | cumulusAgeExpire => exact execCumulusAgeExpire_kept h
  | cumulusPacketApply => exact execCumulusPacketApply_kept h
  | cumulusRejectLog => exact execCumulusRejectLog_kept h
  | egressDeliver => exact execEgressDeliver_kept h
  | rrtWrite => exact execRrtWrite_kept h
  | strandFail => exact execStrandFail_kept h
  | flitReceive => exact execFlitReceive_kept h
  | flitAck => exact execFlitAck_kept h
  | relayForward => exact execRelayForward_kept h
  | strandGate => exact execStrandGate_kept h
  | strandWakeDone => exact execStrandWakeDone_kept h
  | heartbeatSend => exact execHeartbeatSend_kept h
  | heartbeatMiss => exact execHeartbeatMiss_kept h
  | deadDieVerdict => exact execDeadDieVerdict_kept h
  | dieHaltDeadline => exact execDieHaltDeadline_kept h
  | dieReportPost => exact execDieReportPost_kept h
  | wavelengthFail => exact execWavelengthFail_kept h
  | laneRemapDone => exact execLaneRemapDone_kept h
  | codewordReceive => exact execCodewordReceive_kept h
  | tagGroupVerify => exact execTagGroupVerify_kept h
  | portSessionEstablish => exact execPortSessionEstablish_kept h
  | sessionRekey => exact execSessionRekey_kept h
  | portEnable => exact execPortEnable_kept h
  | portDisable => exact execPortDisable_kept h
  | portNarrow => exact execPortNarrow_kept h
  | portWake => exact execPortWake_kept h
  | portNarrowDone => exact execPortNarrowDone_kept h
  | portWakeDone => exact execPortWakeDone_kept h
  | portAutoWake => exact execPortAutoWake_kept h
  | farEndNarrow => exact execFarEndNarrow_kept h
  | farEndWake => exact execFarEndWake_kept h
  | lageUpdate => exact execLageUpdate_kept h
  | timeCounterSend => exact execTimeCounterSend_kept h
  | timeCounterReceive => exact execTimeCounterReceive_kept h
  | fabricPacketReceive => exact execFabricPacketReceive_kept h
  | fabricRetryTimeout => exact execFabricRetryTimeout_kept h
  | frgenWrite => exact execFrgenWrite_kept h
  | reachabilityRereadDone => exact execReachabilityRereadDone_kept h
  | sendQueueDepart => exact execSendQueueDepart_kept h
  | messageDeliver => exact execMessageDeliver_kept h
  | collHandoff => exact execCollHandoff_kept h
  | collComplete => exact execCollComplete_kept h
  | collAbandon => exact execCollAbandon_kept h
  | coldReset => exact execColdReset_kept h
  | bootStepDone => exact execBootStepDone_kept h
  | deviceReset => exact execDeviceReset_kept h
  | functionReset => exact execFunctionReset_kept h
  | contextDisable => exact execContextDisable_kept h
  | attestationRequest => exact execAttestationRequest_kept h
  | attestationDone => exact execAttestationDone_kept h
  | ownClaim => exact execOwnClaim_kept h
  | ownRelease => exact execOwnRelease_kept h
  | ownHeartbeat => exact execOwnHeartbeat_kept h
  | ownerTimeout => exact execOwnerTimeout_kept h
  | pcieLinkDown => exact execPcieLinkDown_kept h
  | stratusTakeover => exact execStratusTakeover_kept h
  | powerEstimate => exact execPowerEstimate_kept h
  | lvEnter => exact execLvEnter_kept h
  | lvExit => exact execLvExit_kept h
  | lvTransitionDone => exact execLvTransitionDone_kept h
  | powerCapStep => exact execPowerCapStep_kept h
  | phyLaser => exact execPhyLaser_kept h
  | phyLock => exact execPhyLock_kept h
  | phyTrain => exact execPhyTrain_kept h
  | phyLaserOnDone => exact execPhyLaserOnDone_kept h
  | phyLockDone => exact execPhyLockDone_kept h
  | phyTrainDone => exact execPhyTrainDone_kept h
  | lageFlashStore => exact execLageFlashStore_kept h
  | configRegisterWrite => exact execConfigRegisterWrite_kept h
  | illegalWord => exact execIllegalWord_kept h
  | fetchFault => exact execFetchFault_kept h
  | contextEnable => exact execContextEnable_kept h
  | pcieLinkUp => exact execPcieLinkUp_kept h
  | clusterPowered => exact execClusterPowered_kept h
  | resultWriteBack => exact execResultWriteBack_kept h
  | strandGatingDisable => exact execStrandGatingDisable_kept h

/-! ### Sched -/

theorem Kept.firstChange {l} (h : Kept s t) : KeptOpt s (t.firstChange l) := by
  induction l with
  | nil => exact .none
  | cons i r ih =>
    unfold State.firstChange
    split
    · next e =>
      split
      · exact ih
      · exact (exec_kept h).along e
    · exact ih

theorem Kept.firstTimer {l} (h : Kept s t) : KeptOpt s (t.firstTimer l) := by
  induction l with
  | nil => exact .none
  | cons x r ih =>
    obtain ⟨d, _ | i⟩ := x
    · unfold State.firstTimer
      split
      · exact .some (.atLeast h)
      · exact ih
    · unfold State.firstTimer
      split
      · next e => exact (Kept.firstChange h).along e
      · exact ih

theorem runWords_kept {h0 ws} (h : Kept s t) : KeptOut s (runWords h0 ws t) := by
  unfold runWords
  split <;> exact exec_kept h

theorem Kept.runUnit (h : Kept s t) : KeptOut s (t.runUnit) := by
  unfold State.runUnit
  split
  · split
    · exact runWords_kept h
    · exact exec_kept h
  · split
    · split
      · exact runWords_kept (.fillI h)
      · exact exec_kept h
    · exact .next h

theorem Kept.trial {k} (h : Kept s t) : Kept s (t.trial k) := by
  unfold State.trial
  split
  · next e0 => exact (Kept.runUnit (.frame h)).along e0
  · exact .stall h

theorem Kept.tryGrp {p k} (h : KeptFst s p) : KeptFst s (State.tryGrp p k) := by
  unfold State.tryGrp
  split
  · exact h
  · extract_lets t waits
    split
    · exact .mk (.frame (.trial h))
    · exact .mk h

theorem Kept.candidates {c} (h : Kept s t) : KeptFst s (t.candidates c) :=
  .mk (KeptFst.foldl h fun _ _ => .tryGrp)

theorem Kept.beginCore {c} (h : Kept s t) : Kept s (t.beginCore c) := by
  unfold State.beginCore
  split
  next s1 l e =>
  have h1 : Kept s s1 := (Kept.candidates h).along e
  exact .ite (.leaveLv (.withGroups (.setCore h1) .mapAll)) (.withGroups (.setCore h1) .mapAll)

theorem Kept.nextCycle (h : Kept s t) : Kept s (t.nextCycle) := by
  unfold State.nextCycle
  split
  · exact h
  · exact .ite (.frame (.modDev h)) (.beginCore (.settleCore (.modDev h)))

theorem Kept.endCycle (h : Kept s t) : Kept s (t.endCycle) := by
  unfold State.endCycle
  split
  · exact h
  · refine .ite (.frame h) ?_
    extract_lets f u
    have hu : Kept s u := .modCore (.fillEnergy h)
    refine ⟨hu.mem, fun k => ?_⟩
    dsimp only
    exact Rising.mapAll (h.keys k)

theorem Kept.turnOver (h : Kept s t) : Kept s (t.turnOver) := by
  have h1 : Kept s t.endCycle := .endCycle h
  have hl : ∀ c : Prop, ∀ _ : Decidable c, ∀ l, KeptOpt s (if c then t.endCycle.firstTimer l else none) := by
    intro c _ l
    split
    · exact Kept.firstTimer h1
    · exact .none
  unfold State.turnOver
  extract_lets s1 quiet late
  refine .ite ?_ (.nextCycle h1)
  split
  · next e => exact .frame (KeptOpt.orElse (Kept.firstChange h1) (hl _ _ _) e)
  · exact .nextCycle (.frame h1)

theorem Kept.comes {i r} (h : Kept s t) : KeptOut s (t.comes i r) :=
  .ite (exec_kept (.frame h)) (.next (.frame h))

/-! ### Step -/

/-- A step runs one instruction, or ends the cycle under way. -/
theorem step_kept (h : Kept s t) : KeptOut s (step t) := by
  unfold step
  refine .ite .fault ?_
  split
  · exact Kept.comes h
  · split
    · exact Kept.runUnit (.frame h)
    · exact .next (.turnOver h)

/-- Settles O35: a step changes the memory by `memWrite` and by dropping cells alone. -/
theorem memoryStaysCanonical : Obligations.MemoryStaysCanonical := fun s t e =>
  ((step_kept (.refl s)).along e : Kept s t).mem

/-- Settles O59: a step changes the groups by `mapSet`, by `mapAll` and by dropping groups alone. -/
theorem groupKeysRise : Obligations.GroupKeysRise := fun s t e =>
  ((step_kept (.refl s)).along e : Kept s t).keys

end Sys2Proof.Machine

/-! ## The special registers (O7) -/

namespace Sys2Proof.Claims

open Sys2Proof.Machine

/-! ### A core settled up to now (R85, R89, R411) -/

@[simp] theorem core_fillEnergy (s : State) (v : Core) (n2 n3 c : Nat) : (s.fillEnergy v n2 n3).core c = s.core c := by
  simp only [State.fillEnergy]
  split <;> rfl

@[simp] theorem core_modCore (s : State) (c : Nat) (f : Core → Core) : (s.modCore c f).core c = f (s.core c) := by
  simp [State.modCore]

theorem settleCore_cyc (s : State) (c : Nat) : let v := s.core c
    let f := v.fillIn (s.dev.now5 - v.busy)
    ((s.settleCore c).core c).cyc = v.cyc + if (s.cluster (clusterOfCore c)).gate = .powered then
      f.2 + f.1 + (s.dev.now5 - (v.busy + f.1 * period 3 v.lv + f.2 * period 2 v.lv)) / period 1 v.lv else 0 := by
  by_cases on : (s.cluster (clusterOfCore c)).gate = .powered
  · simp only [State.settleCore, core_modCore, on]
    simp
    omega
  · simp [State.settleCore, on]

theorem settleCore_cls1 (s : State) (c : Nat) : let v := s.core c
    ((s.settleCore c).core c).cls.getD 1 0 = v.cls.getD 1 0 + if (s.cluster (clusterOfCore c)).gate = .powered then
      (v.fillIn (s.dev.now5 - v.busy)).2 else 0 := by
  by_cases on : (s.cluster (clusterOfCore c)).gate = .powered
  · simp [State.settleCore, on]
  · simp [State.settleCore, on]

/-! ### Units of majors 0 to 8 -/

/-- A unit that names no crossbar pattern keeps its class (R43). -/
theorem cost_of_noPfx {u : Uop} (hp : u.pfx = Pfx.none) : u.cost = u.cls := by
  simp [Uop.cost, hp, Pfx.none, Pfx.xa, Pfx.xb]

/-- Such a unit pops no queue and is one word. -/
theorem past_scalar {u : Uop} {g : Group} (v : u.vr = []) (hp : u.pfx = Pfx.none) : u.past g = past g 1 := by
  simp [Uop.past, past, v, queuesOf, hp, Pfx.none, Pfx.len]

/-- Where it meets nothing that its group has to wait for, it comes to its own effect. -/
theorem issue2_quiet {eff str : Effect} {s : State} {k : Nat} {g : Group} {rd wr : List Dst} (r : Ready s k g) (u : Uop)
    (hr : u.reads g = rd) (hw : u.writes g = wr) (q : Quiet g rd wr) (hm : u.maj ≤ 8) (fp : u.fp = false)
    (hnd : u.hnd = true → g.inH = false) (pr : u.priv = false) (v : u.vr = []) (w : u.vw = []) (hp : u.pfx = Pfx.none) :
    issue2 u eff str s = .next (applyEff u k g s (eff s k allOnes g (past g 1))) := by
  have rdy : u.ready g = true := by
    subst hr hw
    simp only [Uop.ready, q.pend, q.kept, v]
    simp
    omega
  rw [issue2_takes r.cur r.grp r.can r.res (faultPoint_quiet fp hr hw q) hnd (by simp [pr]) rdy (by simp [v, w]),
    active_scalar hm, past_scalar v hp]

/-- Where its effect is a machine, it occupies its pipe in that one. -/
theorem applyEff_st_scalar {u : Uop} {k : Nat} {g : Group} {s t : State} (hm : u.maj ≤ 8) (v : u.vr = []) (v2 : u.vr2 = [])
    (hp : u.pfx = Pfx.none) : applyEff u k g s (.st t) = t.paid g { pipe := pipeOf u.maj 0, cls := u.cls } := by
  simp only [applyEff, State.issuedUnit]
  rw [issuedAs_eq u g (fn := 0) (src := []) (by omega) (by omega) (by simp [v, v2, active_scalar hm]), cost_of_noPfx hp]
  simp [show u.maj ≠ 9 by omega]

/-! ### mfs -/

/-- What a group reads is what R125 lists: the counters of its core are those up to now. -/
theorem map_readSpecial (s : State) (g : Group) :
    (specialRead s g).map (fun e => readSpecial s g e.1.val) = (specialRead s g).map Prod.snd := by
  simp only [specialRead, List.map_cons, List.map_nil]
  rw [← settleCore_cyc, ← settleCore_cls1]
  rfl

theorem readSpecial_of_mem {s : State} {g : Group} {e : SpecReg × DWord} (h : e ∈ specialRead s g) :
    readSpecial s g e.1.val = e.2 :=
  List.map_inj_left.mp (map_readSpecial s g) e h

/-- TKS, whose read has an effect, is not in that list. -/
theorem ne_tks_of_mem {s : State} {g : Group} {e : SpecReg × DWord} (h : e ∈ specialRead s g) : e.1.val ≠ 0x17 := by
  have hm : e.1 ∈ (specialRead s g).map Prod.fst := List.mem_map_of_mem h
  exact (by decide : ∀ r ∈ ([0x00, 0x01, 0x02, 0x03, 0x04, 0x05, 0x06, 0x07, 0x08, 0x0F, 0x10, 0x11, 0x13, 0x16, 0x19, 0x1A,
    0x1B, 0x1C, 0x1D, 0x1E, 0x1F, 0x20, 0x22] : List SpecReg), r.val ≠ 0x17) e.1 hm

theorem mfs_reads {s : State} {k : Nat} {g : Group} (r : Ready s k g) {d : SReg} (q : Quiet g [] [g.sDst d.val]) {e : SpecReg × DWord}
    (h : e ∈ specialRead s g) : exec (.mfs d e.1) s = .next (done s k g ((past g 1).writeS d.val e.2) 8 1) := by
  refine issue2_scalar r _ [] [g.sDst d.val] rfl rfl q (Nat.le_refl 8) rfl (by simp) (by simp) rfl rfl rfl (cost_of_noPfx rfl) ?_
  simp only [readSpecial_of_mem h, if_neg (ne_tks_of_mem h)]
  rfl

theorem mfs_tks {s : State} {k : Nat} {g : Group} (r : Ready s k g) {d : SReg} (q : Quiet g [] [g.sDst d.val]) :
    exec (.mfs d 0x17) s =
      .next (done (s.l1Clear g.core) k g ((past g 1).writeS d.val (tksOf ((s.wg? g.wg).getD {}))) 8 1) := by
  refine (issue2_quiet (rd := []) (wr := [g.sDst d.val]) r _ rfl rfl q (Nat.le_refl 8) rfl (by simp) rfl rfl rfl rfl).trans ?_
  exact congrArg _ (applyEff_st_scalar (Nat.le_refl 8) rfl rfl rfl)

/-! ### mts -/

section
variable {s : State} {k : Nat} {g : Group} (r : Ready s k g) {a : SReg} (q : Quiet g [g.sDst a.val] [])
include r q

/-- A register of the group alone. -/
theorem mts_grp {x : SpecReg} {h : Group} (hnd : x.val = 3 → g.inH = false)
    (he : ∀ u, mtsEff u x.val a s k allOnes g (past g 1) = .grp h) : exec (.mts x a) s = .next (done s k g h 8 1) :=
  issue2_scalar r _ [g.sDst a.val] [] rfl rfl q (Nat.le_refl 8) rfl (by simpa using hnd) (by simp) rfl rfl rfl
    (cost_of_noPfx rfl) (he _)

/-- A register of the context or of the workgroup. -/
theorem mts_st {x : SpecReg} {t : State} (hx : x.val ≠ 3)
    (he : ∀ u, mtsEff u x.val a s k allOnes g (past g 1) = .st t) :
    exec (.mts x a) s = .next (t.paid g { pipe := 0, cls := 1 }) := by
  refine (issue2_quiet (rd := [g.sDst a.val]) (wr := []) r _ rfl rfl q (Nat.le_refl 8) rfl (by simp [hx]) rfl rfl rfl rfl).trans ?_
  rw [he]
  exact congrArg _ (applyEff_st_scalar (Nat.le_refl 8) rfl rfl rfl)

/-- A register that the group's privilege does not reach. -/
theorem mts_trap {x : SpecReg} (c : CanEnter s g) (hx : x.val ≠ 3)
    (he : ∀ u, mtsEff u x.val a s k allOnes g (past g 1) = .trap (u.preciseTrap g 2 0)) :
    exec (.mts x a) s =
      .next (s.setGrp k (entered g s 0x02 0 g.pc ((wordA 8 x.val a.val 0 1).setWidth 64) g.pc)) := by
  refine (issue2_quiet (rd := [g.sDst a.val]) (wr := []) r _ rfl rfl q (Nat.le_refl 8) rfl (by simp [hx]) rfl rfl rfl rfl).trans ?_
  rw [he]
  exact congrArg _ (takeTrap_entered c (show 2 ≠ 3 by decide) rfl (show 2 < 256 by decide))

end

/-- WB takes a multiple of 8 whose frame lies on the stack (R93, R128). -/
theorem mtsWb_takes {u : Uop} {g g1 : Group} {v : DWord} (h8 : v.toNat % 8 = 0) (hv : v.toNat + 96 ≤ 16384) :
    mtsWb u g g1 v = .grp (g1.setWb v.toNat) := by
  have ok : wbOk (v.toNat : Int) = true := by simp [wbOk]; omega
  unfold mtsWb
  rw [if_neg (by simp; omega), ok]
  rfl

/-- Settles O7: each register in turn; a read of TKS clears the core's L1, and ENRG and GPRIO are the privileged ones. -/
theorem specialRegisters : Obligations.SpecialRegisters := by
  intro s k g r
  refine ⟨fun d q e h => mfs_reads r q h, fun d q => mfs_tks r q, fun a q => ⟨?_, ?_, ?_, ?_⟩⟩
  · intro e h
    simp only [List.mem_cons, List.not_mem_nil, or_false] at h
    rcases h with rfl | rfl | rfl | rfl | rfl | rfl | rfl
    all_goals exact mts_grp r q (by simp) fun _ => rfl
  · exact fun hi h8 hv => mts_grp r q (fun _ => hi) fun _ => mtsWb_takes h8 hv
  · intro hs
    have hp : (!s.sysCtx g.ctx) = false := by simp [State.sysCtx, hs]
    exact ⟨mts_st r q (by simp) fun u => by simp [mtsEff, mtsPriv, hp], mts_st r q (by simp) fun u => by simp [mtsEff, mtsPriv, hp]⟩
  · intro hs c x hx
    have hp : (!s.sysCtx g.ctx) = true := by simp [State.sysCtx, hs]
    simp only [List.mem_cons, List.not_mem_nil, or_false] at hx
    rcases hx with rfl | rfl
    all_goals exact mts_trap r q c (by simp) fun u => by simp [mtsEff, mtsPriv, hp]

end Sys2Proof.Claims

/-! ## The router and lost chiplets (O51) -/

namespace Sys2Proof.Machine

/-! ### What leaves the memory dies as they are

As for the canonical forms there is one lemma per operation: the home slices, the pumps of the router and the posting of a report lose
no memory die. -/

/-- In `t` the same memory dies are lost as in `s`, and the mode of memory is the same. -/
structure SameDies (s t : State) : Prop where
  lost : t.home.lost = s.home.lost
  memOpen : t.dev.memOpen = s.dev.memOpen

variable {s t : State}

theorem SameDies.ite {c : Prop} {_ : Decidable c} {u : State} (h1 : SameDies s t) (h2 : SameDies s u) :
    SameDies s (if c then t else u) := by
  split <;> assumption

theorem SameDies.foldl {α : Type} {f : State → α → State} {l : List α} (h : SameDies s t)
    (hf : ∀ u a, SameDies s u → SameDies s (f u a)) : SameDies s (l.foldl f t) := by
  induction l generalizing t with
  | nil => exact h
  | cons a r ih => exact ih (hf t a h)

theorem SameDies.setDie {d v} (h : SameDies s t) : SameDies s (t.setDie d v) := ⟨h.lost, h.memOpen⟩

theorem SameDies.setHost {f v} (h : SameDies s t) : SameDies s (t.setHost f v) := ⟨h.lost, h.memOpen⟩

theorem SameDies.modDev {f} (h : SameDies s t) (hf : (f t.dev).memOpen = t.dev.memOpen := by rfl) :
    SameDies s (t.modDev f) := ⟨h.lost, hf.trans h.memOpen⟩

theorem SameDies.modHome {f} (h : SameDies s t) (hf : (f t.home).lost = t.home.lost := by rfl) :
    SameDies s (t.modHome f) := ⟨hf.trans h.lost, h.memOpen⟩

theorem SameDies.setDir {line d} (h : SameDies s t) : SameDies s (t.setDir line d) :=
  .modHome h

theorem SameDies.setLine {d line st} (h : SameDies s t) : SameDies s (t.setLine d line st) := by
  unfold State.setLine
  exact .setDie h

theorem SameDies.touchLine {d line stream} (h : SameDies s t) : SameDies s (t.touchLine d line stream) := by
  unfold State.touchLine
  exact .setDie h

theorem SameDies.filterAdd {da rid w} (h : SameDies s t) : SameDies s (t.filterAdd da rid w) := by
  unfold State.filterAdd
  exact .modHome h

theorem SameDies.filterDrop {rids} (h : SameDies s t) : SameDies s (t.filterDrop rids) :=
  .modHome h

theorem SameDies.homeUse {line wr} (h : SameDies s t) : SameDies s (t.homeUse line wr) := by
  unfold State.homeUse
  exact .modHome h

theorem SameDies.flushLine {line} (h : SameDies s t) : SameDies s (t.flushLine line) := by
  unfold State.flushLine
  extract_lets +onlyGivenNames mine hm s1
  have h1 : SameDies s s1 := ⟨h.lost, h.memOpen⟩
  exact .ite h1 (.homeUse h1)

theorem SameDies.modReq {line f} (h : SameDies s t) : SameDies s (t.modReq line f) :=
  .modHome h

theorem SameDies.landPut {p} (h : SameDies s t) : SameDies s (t.landPut p) := by
  unfold State.landPut
  extract_lets +onlyGivenNames s1 s2 s3
  have h2 : SameDies s s2 := .ite (.filterAdd (.homeUse (.flushLine (.modHome h)))) (.modHome h)
  exact .modReq (.ite (.setDir h2) h2)

theorem SameDies.putAcked {d line} (h : SameDies s t) : SameDies s (t.putAcked d line) :=
  .filterDrop (.setLine h)

theorem SameDies.quiet {line} (h : SameDies s t) : SameDies s (t.quiet line) := by
  unfold State.quiet
  exact .foldl (.foldl h fun _ _ h1 => .landPut h1) fun _ _ h1 => .putAcked h1

theorem SameDies.recallAll {line} (h : SameDies s t) : SameDies s (t.recallAll line) :=
  .setDir (.foldl (.flushLine h) fun _ _ h0 => .setLine h0)

theorem SameDies.recall {line writer} (h : SameDies s t) : SameDies s (t.recall line writer) := by
  unfold State.recall
  extract_lets +onlyGivenNames s0
  have h0 : SameDies s s0 := .flushLine (.quiet h)
  split
  · exact h0
  · exact .recallAll h0
  · exact .setDir (.setLine h0)
  · extract_lets +onlyGivenNames s1
    split
    · exact .ite (.setDir (.foldl h0 fun _ _ h2 => .setLine h2))
        (.setDir (.foldl h0 fun _ _ h2 => .setLine h2))
    · exact .setDir (.foldl h0 fun _ _ h2 => .setLine h2)

theorem SameDies.dieRoom {d line} (h : SameDies s t) : SameDies s (t.dieRoom d line) := by
  unfold State.dieRoom
  extract_lets +onlyGivenNames v
  refine .ite h ?_
  extract_lets +onlyGivenNames set
  refine .ite h ?_
  extract_lets +onlyGivenNames out
  split
  · exact h
  · exact .ite (.setLine (.setDir (.homeUse (.flushLine h)))) (.setLine h)

theorem SameDies.takeLine {d line st stream} (h : SameDies s t) : SameDies s (t.takeLine d line st stream) :=
  .ite (.touchLine (.setLine (.dieRoom h))) h

theorem SameDies.lineStep {line} (h : SameDies s t) : SameDies s (t.lineStep line) := by
  unfold State.lineStep
  split
  · exact h
  · refine .ite h ?_
    extract_lets +onlyGivenNames mon give
    refine .ite ?_ (.ite (.homeUse (.setDir (.modReq (.ite (.flushLine h) h))))
        (.homeUse (.setDir (.modReq (.ite (.flushLine h) h)))))
    split
    · exact .homeUse (.setDir (.modReq (.ite (.flushLine h) h)))
    · exact .homeUse (.setDir (.modReq (.ite (.flushLine h) h)))
    · exact .ite (.homeUse (.setDir (.modReq (.ite (.flushLine h) h))))
        (.homeUse (.setDir (.modReq (.ite (.flushLine h) h))))

theorem SameDies.arriveSnoop {d line gone data} (h : SameDies s t) : SameDies s (t.arriveSnoop d line gone data) :=
  .modReq h

theorem SameDies.invSnoop {d line} (h : SameDies s t) : SameDies s (t.invSnoop d line) := by
  unfold State.invSnoop
  refine .ite h ?_
  extract_lets +onlyGivenNames s1
  split
  · exact .setLine (.arriveSnoop h)
  · exact .setLine (.arriveSnoop h)
  · exact .setLine (.arriveSnoop h)
  · exact (.arriveSnoop h)

theorem SameDies.recallSnoop {d line kind after} (h : SameDies s t) : SameDies s (t.recallSnoop d line kind after) := by
  unfold State.recallSnoop
  refine .ite h ?_
  split
  · exact .setLine (.arriveSnoop h)
  · exact .setLine (.arriveSnoop h)
  · exact .arriveSnoop h
  · exact .setLine (.arriveSnoop h)
  · exact .setLine (.arriveSnoop h)
  · exact .arriveSnoop h

theorem SameDies.answerSnoop {d line} (h : SameDies s t) : SameDies s (t.answerSnoop d line) := by
  unfold State.answerSnoop
  exact .lineStep (.modReq (.ite (.flushLine h) h))

theorem SameDies.arriveGrant {d line} (h : SameDies s t) : SameDies s (t.arriveGrant d line) := by
  unfold State.arriveGrant
  split
  · split
    · exact .ite (.modHome (.takeLine h)) h
    · exact h
  · exact h

theorem SameDies.settleLine {line} (h : SameDies s t) : SameDies s (t.settleLine line) := by
  unfold State.settleLine
  split
  · exact h
  · exact .arriveGrant (.foldl (.lineStep h) fun _ _ h1 => .answerSnoop (.foldl (by
      split
      · exact .invSnoop h1
      · exact .recallSnoop h1
      · exact .recallSnoop h1) fun _ _ h3 => .landPut h3))

theorem SameDies.evalMons {line} (h : SameDies s t) : SameDies s (t.evalMons line) := by
  unfold State.evalMons
  exact .modHome h

theorem SameDies.homeWrite {writer a bs} (h : SameDies s t) : SameDies s (t.homeWrite writer a bs) := by
  unfold State.homeWrite
  extract_lets lines s1 s2
  have h1 : SameDies s s1 := .foldl h fun _ _ h => .homeUse (.recall (.settleLine h))
  have h2 : SameDies s s2 := ⟨h1.lost, h1.memOpen⟩
  exact .foldl h2 fun _ _ h => .evalMons h

theorem SameDies.ringPost {f r} (h : SameDies s t) : SameDies s (t.ringPost f r) := by
  unfold State.ringPost
  exact .ite (.setHost h) (.setHost (.homeWrite h))

theorem SameDies.post {r0} (h : SameDies s t) : SameDies s (t.post r0) := by
  unfold State.post
  exact .ite (.ringPost h) (.ite (.ringPost h) (.modDev h))

theorem SameDies.setPair {c t2 v} (h : SameDies s t) : SameDies s (t.setPair c t2 v) := ⟨h.lost, h.memOpen⟩

theorem SameDies.logged {kind args} (h : SameDies s t) : SameDies s (t.logged kind args) := ⟨h.lost, h.memOpen⟩

theorem SameDies.putFlit {c t2 vc bands p} (h : SameDies s t) : SameDies s (t.putFlit c t2 vc bands p) := by
  unfold State.putFlit
  exact .setPair h

theorem SameDies.pump {c d vcs n} (h : SameDies s t) : SameDies s (t.pump c d vcs n) := by
  induction n generalizing t with
  | zero => exact h
  | succ n ih =>
    unfold State.pump
    split
    · exact h
    · exact ih (.putFlit (.setPair h))

theorem SameDies.pumpAll (h : SameDies s t) : SameDies s (t.pumpAll) := by
  unfold State.pumpAll
  exact .foldl (.foldl h fun _ _ h0 => .ite h0 (.pump h0)) fun _ _ h0 => .ite h0 (.pump h0)

theorem SameDies.resend {l} (h : SameDies s t) : SameDies s (t.resend l) := by
  unfold State.resend
  exact .foldl (.foldl h fun _ _ h1 => .setPair h1) fun _ _ h1 => .logged h1

theorem SameDies.cutOff {x} (h : SameDies s t) : SameDies s (t.cutOff x) := by
  unfold State.cutOff
  exact .pumpAll (.resend ⟨h.lost, h.memOpen⟩)

/-! ### The verdict on a chiplet (R24, R362) -/

/-- A memory die whose loss memory survives is the last of those lost (R305). -/
theorem loseMemory_lost (s : State) (n : Nat) : (s.loseMemory n).home.lost = s.home.lost ++ [n] := by
  unfold State.loseMemory
  extract_lets old moved u ents v
  have h : SameDies v (ents.foldl (fun t e => t.filterAdd e.da e.rid e.word) v) := .foldl ⟨rfl, rfl⟩ fun _ _ h => .filterAdd h
  exact (SameDies.post h).lost

theorem verdict_dead {s : State} {c : Nat} (h : (s.chip c).dead = true) : s.verdict c = s := by
  simp [State.verdict, h]

/-- In Single mode, with no die of its stack lost before it, a memory die is lost and the others go on. -/
theorem verdict_memory {s : State} {c : Nat} (h16 : 16 ≤ c) (h48 : c < 48) (hd : (s.chip c).dead = false)
    (hm : s.dev.memOpen = false) (hl : ∀ m ∈ s.home.lost, m / 16 ≠ (c - 16) / 16) :
    (s.verdict c).home.lost = s.home.lost ++ [c - 16] := by
  unfold State.verdict
  rw [if_neg (by simp [hd]; omega)]
  extract_lets chip s1 die s2 s3 n
  have h1 : SameDies s s1 := ⟨rfl, rfl⟩
  have h3 : SameDies s s3 := .cutOff (.setDie h1)
  rw [if_neg (by omega), if_pos h48, if_neg (by simp [h3.lost, h3.memOpen, hm]; exact hl), loseMemory_lost, h3.lost]

end Sys2Proof.Machine

namespace Sys2Proof.Claims

open Sys2Proof.Machine

/-! ### Bits of a mask -/

/-- A bit that is set is taken out by a subtraction. -/
theorem bitOf_sub_same {v i : Nat} (h : bitOf v i = true) : bitOf (v - 2 ^ i) i = false := by
  simp only [bitOf, beq_iff_eq] at h
  have hd : (v - 2 ^ i) / 2 ^ i = v / 2 ^ i - 1 := by simpa using Nat.sub_mul_div v (2 ^ i) 1
  simp only [bitOf, hd, beq_eq_false_iff_ne]
  omega

theorem bitOf_drop (v i : Nat) : bitOf (if bitOf v i then v - 2 ^ i else v) i = false := by
  split
  · next h => exact bitOf_sub_same h
  · next h => simpa using h

theorem ne_zero_of_and {a b : Nat} (h : a &&& b ≠ 0) : a ≠ 0 := by
  rintro rfl
  exact h (Nat.zero_and b)

theorem and_not_and_iff (a b : Bool) (p : Prop) [Decidable p] : (a && !b && decide p) = true ↔ a = true ∧ b = false ∧ p := by
  simp [and_assoc]

/-! ### The routing table (R352, R353) -/

/-- The fields of an entry as it is written. -/
theorem rrtWrite_entry {s : State} {c t : Nat} (m : Fin 4) {r : Nat} (auto : Bool) (hc : c < 50) (ht : t < 50) (htc : t ≠ c)
    (hr : r < 50) (hrc : r ≠ c) (hrt : r ≠ t) :
    s.rrtWrite c t (BitVec.ofNat 64 (m.val + r * 4 + if auto then 256 else 0)) =
      (s.setPair c t ((s.pair c t).written m.val r auto s.dev.now5)).pumpAll := by
  have hn : (BitVec.ofNat 64 (m.val + r * 4 + if auto then 256 else 0)).toNat = m.val + r * 4 + if auto then 256 else 0 := by
    simp only [BitVec.toNat_ofNat]
    split <;> omega
  have hm : (m.val + r * 4 + if auto then 256 else 0) % 4 = m.val := by split <;> omega
  have hrly : bitsOf (m.val + r * 4 + if auto then 256 else 0) 2 6 = r := by simp only [bitsOf]; split <;> omega
  have hauto : bitOf (m.val + r * 4 + if auto then 256 else 0) 8 = auto := by
    cases auto <;> simp [bitOf] <;> omega
  have hres : (m.val + r * 4 + if auto then 256 else 0) / 2 ^ 9 = 0 := by split <;> omega
  simp only [State.rrtWrite, hn, hm, hrly, hauto, hres]
  rw [if_neg (by simp; omega), if_neg (by simp [htc, hrc, hrt])]

/-! ### Strands (R351, R360) -/

@[simp] theorem narrow_fail (v : Pair) : v.narrow.fail = v.fail := by
  simp only [Pair.narrow, apply_ite Pair.fail, ite_self]

@[simp] theorem narrow_gated (v : Pair) : v.narrow.gated = v.gated := by
  simp only [Pair.narrow, apply_ite Pair.gated, ite_self]

@[simp] theorem without_fail (v : Pair) (n now : Nat) : (v.without n now).fail = v.fail + 2 ^ n := by
  simp [Pair.without]

/-- The sentinel depends on what has failed alone. -/
theorem sentinel_congr {v w : Pair} (h : v.fail = w.fail) : v.sentinel = w.sentinel := by
  simp only [Pair.sentinel, Pair.good, h]

/-- The strand that carries on as sentinel is not gated. -/
theorem without_sentinel (v : Pair) (n now : Nat) : bitOf (v.without n now).gated (v.without n now).sentinel = false := by
  rw [sentinel_congr (w := { v with fail := v.fail + 2 ^ n }) (without_fail v n now)]
  simp only [Pair.without, narrow_gated]
  exact bitOf_drop _ _

/-- With a strand of the colour left, nothing is given up and no colour is reported. -/
theorem loseStrand_of_band {s : State} {c t n : Nat}
    (h : ((s.pair c t).without n s.dev.now5).good &&& (if n < 6 then 0x3F else 0xFC0) ≠ 0) :
    let s1 := (s.setPair c t ((s.pair c t).without n s.dev.now5)).logged 1 [c, t, n]
    s.loseStrand c t n = (if n = 0 then s1.logged 2 [c, t] else s1).pumpAll := by
  have hg := ne_zero_of_and h
  simp [State.loseStrand, h, hg]

/-! ### The events of a pair -/

section
variable {s : State} {c t : Nat}

theorem strandFail_of_band {n : Nat} (hn : n < 12) (hc : c < 50) (ht : t < 50) (hct : c ≠ t)
    (hf : bitOf (s.pair c t).fail n = false)
    (h : ((s.pair c t).without n s.dev.now5).good &&& (if n < 6 then 0x3F else 0xFC0) ≠ 0) :
    let s1 := (s.setPair c t ((s.pair c t).without n s.dev.now5)).logged 1 [c, t, n]
    exec (.strandFail c t n) s = .next (if n = 0 then s1.logged 2 [c, t] else s1).pumpAll := by
  show execStrandFail c t n s = _
  unfold execStrandFail
  rw [if_neg (by simp [hct, hf]; omega), loseStrand_of_band h]

theorem flitReceive_none (h : (s.pair c t).unseen = []) (q : Nat) (ok : Bool) : exec (.flitReceive c t q ok) s = .next s := by
  show execFlitReceive c t q ok s = _
  simp [execFlitReceive, h]

section
variable {f : RFlit} {r : List RFlit} (h : (s.pair c t).unseen = f :: r)
include h

/-- A flit that fails its check is counted, and may be the last that its strand is allowed. -/
theorem flitReceive_bad (q : Nat) : let n := (Config.freeWord s.fresh).toNat % 16
    let bad := ((s.pair c t).bad ++ [(n, s.dev.tns)]).filter fun b => s.dev.tns < b.2 + 1000000
    let u := ({ s with fresh := s.fresh + 1 } : State).setPair c t
      { s.pair c t with crce := min (2 ^ 32 - 1) ((s.pair c t).crce + 1), bad := bad }
    exec (.flitReceive c t q false) s = .next
      (if bitOf f.strands n ∧ bitOf (s.pair c t).fail n = false ∧ 16 ≤ (bad.filter fun b => b.1 = n).length then u.loseStrand c t n
        else u) := by
  intro n bad u
  have hb : s.badFlit c t f = if bitOf f.strands n ∧ bitOf (s.pair c t).fail n = false ∧ 16 ≤ (bad.filter fun b => b.1 = n).length
      then u.loseStrand c t n else u :=
    if_congr (and_not_and_iff ..) rfl rfl
  show execFlitReceive c t q false s = _
  simp [execFlitReceive, h, hb]

/-- A flit in order reaches its destination. -/
theorem flitReceive_dst (hd : f.pkt.dst = t) : exec (.flitReceive c t f.seq true) s =
    .next ((s.setPair c t { s.pair c t with expect := ((s.pair c t).expect + 1) % 4096 }).delivered f.pkt).pumpAll := by
  show execFlitReceive c t f.seq true s = _
  simp [execFlitReceive, h, hd]

/-- At a relay with a way left to the destination it is accepted for a credit. -/
theorem flitReceive_relay (hd : f.pkt.dst ≠ t) (hg : (s.pair t f.pkt.dst).good ≠ 0) (hl : (s.chip f.pkt.dst).dead = false) :
    exec (.flitReceive c t f.seq true) s = .next (if s.relayTakes t f.pkt then
      s.setPair c t { s.pair c t with expect := ((s.pair c t).expect + 1) % 4096, atRelay := (s.pair c t).atRelay ++ [f.pkt] }
      else s) := by
  show execFlitReceive c t f.seq true s = _
  simp [execFlitReceive, h, hd, hg, hl]

end

theorem flitAck_accepted {q i : Nat} (hi : (s.pair c t).retry.findIdx? (fun f => f.seq = q) = some i)
    (hu : ((s.pair c t).unseen.any fun f => f.seq = q) = false) (hb : (s.pair t c).good ≠ 0 ∨ (s.relayOf t c).isSome = true) :
    exec (.flitAck c t q) s = .next (s.setPair c t { s.pair c t with retry := (s.pair c t).retry.drop (i + 1) }).pumpAll := by
  have back : ((s.pair t c).good = 0 && (s.relayOf t c).isNone) = false := by
    rcases hb with hb | hb
    · simp [hb]
    · simp [Option.isNone_eq_false_iff.mpr hb]
  show execFlitAck c t q s = _
  simp only [execFlitAck, hi, hu, back]
  rfl

theorem relayForward_next {k : Nat} {p : RPkt}
    (hp : ((s.pair c k).atRelay.find? fun p => p.dst = t && p.vc = s.nextFwd k t) = some p) (hd : (s.chip k).dead = false)
    (hg : (s.pair k t).good ≠ 0) (hr : (s.pair k t).retry.length < 256) :
    let u := s.setPair c k { s.pair c k with atRelay := (s.pair c k).atRelay.erase p }
    exec (.relayForward k c t) s = .next ((if p.vc = 2 then u else u.setPair k t { u.pair k t with turn2 := 1 - p.vc }).putFlit k t
      (p.vc + 3) 0xFFF p).pumpAll := by
  intro u
  show execRelayForward k c t s = _
  simp only [execRelayForward, hp]
  rw [if_neg (by simp [hd, hg]; omega)]

theorem strandGate_idle (hg : (s.chip c).gen = true) (hw : (s.pair c t).waking = none) (hd : s.wakeDue c t = false)
    (ho : (s.pair c t).gated ≠ (s.pair c t).good &&& (0xFFF ^^^ 2 ^ (s.pair c t).sentinel))
    (hct : c ≠ t) (hc : c < 50) (ht : t < 50) :
    exec (.strandGate c t) s = .next ((s.atLeast ((s.pair c t).idle + (s.chip c).idle)).setPair c t
      { s.pair c t with gated := (s.pair c t).good &&& (0xFFF ^^^ 2 ^ (s.pair c t).sentinel) }) := by
  refine congrArg Host.Outcome.next (if_neg ?_)
  simp [hg, hw, hd, ho, hct]
  omega

theorem strandWakeDone_waking {b : Nat} (hw : (s.pair c t).waking = some b) : exec (.strandWakeDone c t) s =
    .next ((s.atLeast (b + 1200)).setPair c t { s.pair c t with gated := 0, waking := none }) := by
  show execStrandWakeDone c t s = _
  simp only [execStrandWakeDone, hw]

theorem strandGatingDisable_chip (hc : c < 50) :
    exec (.strandGatingDisable c) s = .next ((s.setChip c { s.chip c with gen := false }).wakeAll c) :=
  congrArg Host.Outcome.next (if_neg (by omega))

/-! ### Heartbeats (R362) -/

theorem heartbeatSend_live (hc : c < 50) (hd : (s.chip c).dead = false) :
    let u := s.atLeast ((s.chip c).hbTns + 1000)
    exec (.heartbeatSend c) s = .next
      (((List.range 50).filter fun x => x ≠ c && !(s.chip x).dead).foldl
        (fun u x => u.sendPkt { src := c, dst := x, vc := 2, msg := .heartbeat (s.chip c).hbSeq })
        (u.setChip c { s.chip c with hbSeq := ((s.chip c).hbSeq + 1) % 1024, hbTns := u.dev.tns })) := by
  refine congrArg Host.Outcome.next (if_neg ?_)
  simp [hd]
  omega

theorem heartbeatMiss_silent (hc : c < 50) (ht : t < 50) (htc : t ≠ c) (hd : (s.chip c).dead = false)
    (hdt : (s.chip t).dead = false) (hr : (s.chip c).reported = false) :
    let u := s.atLeast (mapGet (s.chip t).seen c 0 + 64000)
    exec (.heartbeatMiss t c) s = .next (u.setChip c { u.chip c with reported := true }) := by
  refine congrArg Host.Outcome.next (if_neg ?_)
  simp [htc, hd, hdt, hr]
  omega

/-- The router's events, each by its own lemma. -/
theorem routerEvents : RouterEvents := by
  intro s c t v
  refine ⟨?_, ?_, fun h q ok => flitReceive_none h q ok, ?_, fun q i => flitAck_accepted, fun k p => relayForward_next,
    strandGate_idle, fun b => strandWakeDone_waking, strandGatingDisable_chip, heartbeatSend_live, heartbeatMiss_silent⟩
  · intro m r auto hc ht htc hr hrc hrt
    exact congrArg _ (rrtWrite_entry m auto hc ht htc hr hrc hrt)
  · intro n hn hc ht hct hf v1
    exact ⟨without_fail .., fun _ => without_sentinel .., strandFail_of_band hn hc ht hct hf⟩
  · intro f r h p
    refine ⟨flitReceive_bad h, flitReceive_dst h, fun hd hg hl => ⟨fun htake => ?_, fun htake => ?_⟩⟩
    · exact (flitReceive_relay h hd hg hl).trans (congrArg _ (if_pos htake))
    · exact (flitReceive_relay h hd hg hl).trans (congrArg _ (if_neg (Bool.eq_false_iff.mp htake)))

/-! ### Dead chiplets (R24, R26, R27, R362) -/

theorem deadDieVerdict_none (h : (s.chip c).dead = true ∨ (s.chip c).reported = false) : exec (.deadDieVerdict c) s = .next s := by
  show execDeadDieVerdict c s = _
  unfold execDeadDieVerdict
  rcases h with h | h
  · rw [verdict_dead h, ite_self]
  · rw [h]
    rfl

theorem deadDieVerdict_reported (h : (s.chip c).reported = true) : exec (.deadDieVerdict c) s = .next (s.verdict c) := by
  show execDeadDieVerdict c s = _
  unfold execDeadDieVerdict
  rw [if_pos h]

end

theorem deadChiplets : DeadChiplets := by
  intro s c n
  refine ⟨deadDieVerdict_none, ?_, ?_, ?_⟩
  · exact fun _ hd hr => ⟨deadDieVerdict_reported hr, fun h16 h48 => verdict_memory h16 h48 hd⟩
  · intro tns ds e p hs hall
    show execDieHaltDeadline n s = _
    simp only [execDieHaltDeadline, hs, hall]
    rfl
  · intro tns ds e hs hall
    show execDieReportPost n s = _
    simp only [execDieReportPost, hs, hall]
    rfl

/-- Settles O51: the events of the router, and the loss of chiplets. -/
theorem routerAndDieLossEvents : Obligations.RouterAndDieLossEvents := ⟨routerEvents, deadChiplets⟩

end Sys2Proof.Claims

/-! ## Encoded units decode to themselves (O32, O33, O34)

A unit is the words of its prefixes and a base word (`wordsP`). The fields of each format are read back from its word, so that the base word of
a unit decodes to the unit (`decodeBase_wordA` and the like, one for each format); a legal unit's prefixes pass the checks of their
own (`Pfx.fits`); and `decode_wordsP` puts the two together. -/

namespace Sys2Proof

/-! ### Fields of the formats (R29) -/

section
variable {maj d a b fn : Nat}

theorem wordA_fields (hm : maj < 32) (hd : d < 128) (ha : a < 128) (hb : b < 128) (hf : fn < 64) :
    (wordA maj d a b fn).toNat / 2 ^ 27 = maj ∧ (wordA maj d a b fn).toNat / 2 ^ 20 % 128 = d ∧
    (wordA maj d a b fn).toNat / 2 ^ 13 % 128 = a ∧ (wordA maj d a b fn).toNat / 2 ^ 6 % 128 = b ∧
    (wordA maj d a b fn).toNat % 64 = fn := by
  simp only [wordA, BitVec.toNat_ofNat]
  omega

theorem wordI_fields {i : BitVec 10} (hm : maj < 32) (hd : d < 128) (ha : a < 128) (hf : fn < 8) :
    (wordI maj d a fn i).toNat / 2 ^ 27 = maj ∧ (wordI maj d a fn i).toNat / 2 ^ 20 % 128 = d ∧
    (wordI maj d a fn i).toNat / 2 ^ 13 % 128 = a ∧ (wordI maj d a fn i).toNat / 2 ^ 10 % 8 = fn ∧
    BitVec.ofNat 10 (wordI maj d a fn i).toNat = i := by
  have hi := i.isLt
  refine ⟨?_, ?_, ?_, ?_, BitVec.eq_of_toNat_eq ?_⟩ <;> simp only [wordI, BitVec.toNat_ofNat] <;> omega

theorem wordU_fields {i : BitVec 20} (hm : maj < 32) (hd : d < 128) :
    (wordU maj d i).toNat / 2 ^ 27 = maj ∧ (wordU maj d i).toNat / 2 ^ 20 % 128 = d ∧
    BitVec.ofNat 20 (wordU maj d i).toNat = i := by
  have hi := i.isLt
  refine ⟨?_, ?_, BitVec.eq_of_toNat_eq ?_⟩ <;> simp only [wordU, BitVec.toNat_ofNat] <;> omega

theorem wordBR_fields {s6 kind : Nat} {o : BitVec 18} (hs : s6 < 64) (hk : kind < 8) :
    (wordBR s6 kind o.toNat).toNat / 2 ^ 27 = 1 ∧ (wordBR s6 kind o.toNat).toNat / 2 ^ 18 % 8 = kind ∧
    (wordBR s6 kind o.toNat).toNat / 2 ^ 21 % 64 = s6 ∧ BitVec.ofNat 18 (wordBR s6 kind o.toNat).toNat = o := by
  have ho := o.isLt
  refine ⟨?_, ?_, ?_, BitVec.eq_of_toNat_eq ?_⟩ <;> simp only [wordBR, BitVec.toNat_ofNat] <;> omega

theorem wordVB_fields {p kind : Nat} {neg : Bool} {o : BitVec 20} (hp : p < 16) (hk : kind < 4) :
    (wordVB p neg kind o).toNat / 2 ^ 27 = 2 ∧ (wordVB p neg kind o).toNat / 2 ^ 20 % 4 = kind ∧
    (wordVB p neg kind o).toNat / 2 ^ 23 % 16 = p ∧ (wordVB p neg kind o).toNat / 2 ^ 22 % 2 = neg.toNat ∧
    BitVec.ofNat 20 (wordVB p neg kind o).toNat = o := by
  have ho := o.isLt
  have hn := neg.toNat_lt
  refine ⟨?_, ?_, ?_, ?_, BitVec.eq_of_toNat_eq ?_⟩ <;> simp only [wordVB, BitVec.toNat_ofNat] <;> omega

theorem wordM_fields {m : MFld} (hm : maj < 32) (hf : fn < 8) :
    (wordM maj fn m).toNat / 2 ^ 27 = maj ∧ (wordM maj fn m).toNat / 16 % 8 = fn ∧
    (wordM maj fn m).toNat / 2 ^ 20 % 128 = m.d.val ∧ (wordM maj fn m).toNat / 2 ^ 14 % 64 = m.sb.val ∧
    (wordM maj fn m).toNat / 2 ^ 7 % 128 = m.vo.val ∧ (wordM maj fn m).toNat / 4 % 4 = m.ord.val ∧
    (wordM maj fn m).toNat % 4 = m.scope.val := by
  simp only [wordM, BitVec.toNat_ofNat]
  omega

end

/-! ### Operand fields read back -/

@[simp] theorem vfld_val (f : VFld) : vfld f.val = f := Fin.ofNat_val_eq_self f
@[simp] theorem sreg?_val (r : SReg) : sreg? r.val = some r := dif_pos r.isLt
@[simp] theorem sreg?_vfld (r : SReg) : sreg? (vfld r.val).val = some r := by
  rw [show (vfld r.val).val = r.val from Nat.mod_eq_of_lt (by omega), sreg?_val]
@[simp] theorem preg?_val (r : PReg) : preg? r.val = some r := dif_pos r.isLt
@[simp] theorem spec?_val (r : SpecReg) : spec? r.val = some r := dif_pos r.isLt
@[simp] theorem small?_val {k : Nat} (n : Fin k) : small? k n.val = some n := dif_pos n.isLt
@[simp] theorem must_self (n : Nat) (r : Option Instr) : must n n r = r := if_pos rfl
@[simp] theorem bare_none (r : Option Instr) : bare .none r = r := rfl

@[simp] theorem queue?_add (q : Fin 16) : queue? (96 + q.val) = some q := by
  simp only [queue?]
  rw [dif_pos ⟨by omega, by omega⟩]
  simp

@[simp] theorem small?_flag (f : Bool) : small? 2 (if f = true then 1 else 0) = some (if f = true then 1 else 0) := by cases f <;> rfl
@[simp] theorem flag_beq_one (f : Bool) : ((if f = true then 1 else 0 : Fin 2) == 1) = f := by cases f <;> rfl
theorem flag_lt (f : Bool) : (if f = true then 1 else 0) < 128 := by cases f <;> decide

@[simp] theorem decodeX_wordX (x : XPre) : decodeX (wordX x) = x := by
  obtain ⟨g, neg, pred, xa, xb, rm⟩ := x
  have hg := g.toNat_lt
  have hn := neg.toNat_lt
  simp only [decodeX, wordX, BitVec.toNat_ofNat, XPre.mk.injEq]
  refine ⟨?_, ?_, Fin.ext ?_, Fin.ext ?_, Fin.ext ?_, Fin.ext ?_⟩
  · rw [show _ / 2 ^ 26 % 2 = g.toNat by omega]; cases g <;> rfl
  · rw [show _ / 2 ^ 25 % 2 = neg.toNat by omega]; cases neg <;> rfl
  all_goals simp only [Fin.val_ofNat]; omega

@[simp] theorem decodeY_wordY (y : YPre) : decodeY (wordY y) = y := by
  obtain ⟨e, imm⟩ := y
  have hi := imm.isLt
  simp only [decodeY, wordY, BitVec.toNat_ofNat, YPre.mk.injEq]
  refine ⟨Fin.ext ?_, BitVec.eq_of_toNat_eq ?_⟩
  · simp only [Fin.val_ofNat]; omega
  · simp only [BitVec.toNat_ofNat]; omega

@[simp] theorem majOf_wordX (x : XPre) : majOf (wordX x) = 31 := by
  have hg := x.g.toNat_lt
  have hn := x.neg.toNat_lt
  simp only [majOf, wordX, BitVec.toNat_ofNat]
  omega

@[simp] theorem majOf_wordY (y : YPre) : majOf (wordY y) = 30 := by
  simp only [majOf, wordY, BitVec.toNat_ofNat]
  omega

/-! ### Prefixes -/

/-- The X word, where there is one, obeys its fields' rules, and the major takes the prefixes there are (check 3 of R45). -/
def Pfx.fits (p : Pfx) (maj : Nat) : Bool := p.x.all (fun x => x.ok && acceptsX maj) && p.y.all fun _ => acceptsY maj

variable {h : Bool} {i : Instr} {p : Pfx} {w : Word} {rest : List Word}

theorem finish_ok (hp : p.fits (majOf w) = true) (hm : majOf w < 29) (hd : decodeBase p w = some i) (hw : wellFormed h i = true) :
    finish h (p.x.map wordX) (p.y.map wordY) w = .ok i := by
  have hn : majOf w ≠ 29 := hm.ne
  simp only [Pfx.fits, Bool.and_eq_true] at hp
  obtain ⟨_ | x, _ | y⟩ := p <;>
    simp only [Option.map_none, Option.map_some, Option.all_none, Option.all_some] at hp ⊢ <;>
    simp [finish, hn, hd, hw, hp]

@[simp] theorem isXWord_wordX (x : XPre) : isXWord (wordX x) = true := by rw [isXWord, majOf_wordX, beq_self_eq_true]
@[simp] theorem isXWord_wordY (y : YPre) : isXWord (wordY y) = false := by rw [isXWord, majOf_wordY]; decide
@[simp] theorem isYWord_wordX (x : XPre) : isYWord (wordX x) = false := by rw [isYWord, majOf_wordX]; decide
@[simp] theorem isYWord_wordY (y : YPre) : isYWord (wordY y) = true := by rw [isYWord, majOf_wordY, beq_self_eq_true]
@[simp] theorem isPrefix_wordX (x : XPre) : isPrefix (wordX x) = true := by rw [isPrefix, isXWord_wordX, Bool.true_or]
@[simp] theorem isPrefix_wordY (y : YPre) : isPrefix (wordY y) = true := by
  rw [isPrefix, isYWord_wordY, Bool.or_true]

theorem isPrefix_base (hm : majOf w < 29) : isPrefix w = false := by
  simp only [isPrefix, isXWord, isYWord, Bool.or_eq_false_iff, beq_eq_false_iff_ne]
  omega

theorem decode_one (hb : isPrefix w = false) : decode h (w :: rest) = (finish h none none w).map (·, 1) := by
  simp [decode, hb]

theorem decode_two {w0 : Word} (h0 : isPrefix w0 = true) (hb : isPrefix w = false) :
    decode h (w0 :: w :: rest) = (if isXWord w0 then finish h (some w0) none w else finish h none (some w0) w).map (·, 2) := by
  simp [decode, h0, hb]

theorem decode_three {w0 w1 : Word} (h0 : isXWord w0 = true) (h1 : isYWord w1 = true) (hx : isXWord w1 = false)
    (hy : isYWord w0 = false) (hm : majOf w < 29) :
    decode h (w0 :: w1 :: w :: rest) = (finish h (some w0) (some w1) w).map (·, 3) := by
  have p0 : isPrefix w0 = true := by rw [isPrefix, h0, Bool.true_or]
  have p1 : isPrefix w1 = true := by rw [isPrefix, h1, Bool.or_true]
  simp [decode, p0, p1, hx, hy, isPrefix_base hm, hm.ne]

theorem decode_wordsP (hp : p.fits (majOf w) = true) (hm : majOf w < 29) (hd : decodeBase p w = some i) (hw : wellFormed h i = true) :
    decode h (wordsP p w ++ rest) = .ok (i, (wordsP p w).length) := by
  have hf := finish_ok hp hm hd hw
  have hb := isPrefix_base hm
  obtain ⟨_ | x, _ | y⟩ := p
  · exact (decode_one hb).trans (congrArg _ hf)
  · refine (decode_two (isPrefix_wordY y) hb).trans ?_
    rw [isXWord_wordY, if_neg Bool.false_ne_true]
    exact congrArg _ hf
  · refine (decode_two (isPrefix_wordX x) hb).trans ?_
    rw [isXWord_wordX, if_pos rfl]
    exact congrArg _ hf
  · exact (decode_three (isXWord_wordX x) (isYWord_wordY y) (isXWord_wordY y) (isYWord_wordX x) hm).trans (congrArg _ hf)

/-- The X word, where there is one, obeys its fields' rules. -/
def Pfx.xOk (p : Pfx) : Bool := p.x.all XPre.ok

theorem Pfx.fits_of_xOk {maj : Nat} (h : p.xOk = true) (hx : acceptsX maj = true) (hy : acceptsY maj = true) : p.fits maj = true := by
  obtain ⟨_ | x, _ | y⟩ := p <;> simp_all [Pfx.fits, Pfx.xOk]

theorem xOk_of_xFits {a b r : Bool} (h : xFits a b r p.x = true) : p.xOk = true := by
  obtain ⟨_ | x, y⟩ := p <;> simp_all [xFits, Pfx.xOk]

theorem xOk_of_pfxV {a b r : Bool} (h : pfxV a b r p = true) : p.xOk = true := xOk_of_xFits (Bool.and_elim_left h)
theorem xOk_of_pfx3 {r : Bool} {d : VFld} (h : pfx3 r d p = true) : p.xOk = true :=
  xOk_of_xFits (Bool.and_elim_left (Bool.and_elim_left h))
theorem xOk_of_pfxM {m : Bool} {d : VFld} (h : pfxM m d p = true) : p.xOk = true := xOk_of_xFits (Bool.and_elim_left h)
theorem xOk_of_pfxA (h : pfxA p = true) : p.xOk = true := xOk_of_xFits (Bool.and_elim_left h)
theorem xOk_of_pfxG {y : Bool} (h : pfxG y p = true) : p.xOk = true := xOk_of_xFits (Bool.and_elim_left h)

/-! ### Base words by format -/

/-- A base word of the A format by its fields. -/
noncomputable def decodeA (x : Pfx) (maj d a b fn : Nat) : Option Instr :=
  match maj with
  | 0 => decode0 fn d a b
  | 3 => decode3x x fn d a b
  | 8 => decode8 fn d a b
  | 9 => decode9 x fn d a b
  | 11 => decode11 x fn d a b
  | 12 => decode12 x fn d a b
  | 13 => decode13 x fn d a b
  | 14 => decode14 x fn d a b
  | 15 => decode15 x fn d a b
  | 18 => decode18 x (fn / 4) d a b (fn % 4)
  | 19 => decode19 x (fn / 4) d a b (fn % 4)
  | 21 => decode21 x fn d a b
  | 22 => decode22 x fn d a b
  | 23 => decode23 fn d a b
  | 24 => decode24 fn d a b
  | 25 => decode25 fn d a b
  | 26 => decode26 fn d a b
  | 27 => decode27 fn d a b
  | _ => none

/-- The majors whose base words have the A format. -/
def formatA : List Nat := [0, 3, 8, 9, 11, 12, 13, 14, 15, 18, 19, 21, 22, 23, 24, 25, 26, 27]

theorem lt_of_mem_formatA {maj : Nat} (h : maj ∈ formatA) : maj < 29 := by revert maj; decide

theorem decodeBase_wordA {maj d a b fn : Nat} (hm : maj ∈ formatA) (hd : d < 128) (ha : a < 128) (hb : b < 128) (hf : fn < 64) :
    decodeBase p (wordA maj d a b fn) = decodeA p maj d a b fn := by
  obtain ⟨h1, h2, h3, h4, h5⟩ := wordA_fields ((lt_of_mem_formatA hm).trans (by decide)) hd ha hb hf
  simp only [decodeBase, h1, h2, h3, h4, h5]
  simp only [formatA, List.mem_cons, List.not_mem_nil, or_false] at hm
  rcases hm with rfl | rfl | rfl | rfl | rfl | rfl | rfl | rfl | rfl | rfl | rfl | rfl | rfl | rfl | rfl | rfl | rfl | rfl <;> rfl

/-- Major 18: a function code with the scope in its two low bits (R41). -/
theorem decodeA_atom {n d a b : Nat} {c : Fin 4} : decodeA p 18 d a b (n * 4 + c.val) = decode18 p n d a b c.val := by
  simp only [decodeA, show (n * 4 + c.val) / 4 = n by omega, show (n * 4 + c.val) % 4 = c.val by omega]

theorem decodeA_red {n d a b : Nat} {c : Fin 4} : decodeA p 19 d a b (n * 4 + c.val) = decode19 p n d a b c.val := by
  simp only [decodeA, show (n * 4 + c.val) / 4 = n by omega, show (n * 4 + c.val) % 4 = c.val by omega]

/-- A fence's kind and scope in field B (R329). -/
theorem fence_field (k c : Fin 4) : (k.val * 4 + c.val) / 4 = k.val ∧ k.val * 4 + c.val < 16 ∧ (k.val * 4 + c.val) % 4 = c.val := by
  omega

theorem decode_of_base {maj : Nat} (hi : encode i = wordsP p w) (hj : majOf w = maj) (hl : maj < 29) (hp : p.fits maj = true)
    (he : decodeBase p w = some i) (hw : wellFormed h i = true) : decode h (encode i ++ rest) = .ok (i, (encode i).length) := by
  subst hj
  exact hi ▸ decode_wordsP hp hl he hw

theorem decode_A {maj d a b fn : Nat} (hi : encode i = wordsP p (wordA maj d a b fn)) (hm : maj ∈ formatA)
    (hb : d < 128 ∧ a < 128 ∧ b < 128 ∧ fn < 64) (hp : p.fits maj = true) (he : decodeA p maj d a b fn = some i)
    (hw : wellFormed h i = true) : decode h (encode i ++ rest) = .ok (i, (encode i).length) :=
  have hl := lt_of_mem_formatA hm
  have ⟨hd, ha, hb, hf⟩ := hb
  decode_of_base hi (wordA_fields (hl.trans (by decide)) hd ha hb hf).1 hl hp ((decodeBase_wordA hm hd ha hb hf).trans he) hw

theorem decodeBase_wordI {d a fn : Nat} {v : BitVec 10} (hd : d < 128) (ha : a < 128) (hf : fn < 8) :
    decodeBase p (wordI 4 d a fn v) = decode4 fn d a v ∧ decodeBase p (wordI 10 d a fn v) = decode10 p fn d a v := by
  obtain ⟨m4, d4, a4, f4, i4⟩ := wordI_fields (maj := 4) (i := v) (by decide) hd ha hf
  obtain ⟨m10, d10, a10, f10, i10⟩ := wordI_fields (maj := 10) (i := v) (by decide) hd ha hf
  simp only [decodeBase, m4, d4, a4, f4, i4, m10, d10, a10, f10, i10, and_self]

theorem decode_I4 {d a fn : Nat} {v : BitVec 10} (hi : encode i = [wordI 4 d a fn v]) (hd : d < 128) (ha : a < 128) (hf : fn < 8)
    (he : decode4 fn d a v = some i) (hw : wellFormed h i = true) : decode h (encode i ++ rest) = .ok (i, (encode i).length) :=
  decode_of_base (p := .none) hi (wordI_fields (by decide) hd ha hf).1 (by decide) rfl ((decodeBase_wordI hd ha hf).1.trans he) hw

theorem decode_I10 {d a fn : Nat} {v : BitVec 10} (hi : encode i = wordsP p (wordI 10 d a fn v)) (hd : d < 128) (ha : a < 128)
    (hf : fn < 8) (hp : p.xOk = true) (he : decode10 p fn d a v = some i) (hw : wellFormed h i = true) :
    decode h (encode i ++ rest) = .ok (i, (encode i).length) :=
  decode_of_base hi (wordI_fields (by decide) hd ha hf).1 (by decide) (Pfx.fits_of_xOk hp rfl rfl)
    ((decodeBase_wordI hd ha hf).2.trans he) hw

theorem decodeBase_wordU {d : SReg} {v : BitVec 20} : decodeBase p (wordU 5 d.val v) = some (.sli d v) ∧
    decodeBase p (wordU 6 d.val v) = some (.slih d v) ∧ decodeBase p (wordU 7 d.val v) = some (.sadpc d v) := by
  have hd : d.val < 128 := by omega
  obtain ⟨m5, d5, i5⟩ := wordU_fields (maj := 5) (i := v) (by decide) hd
  obtain ⟨m6, d6, i6⟩ := wordU_fields (maj := 6) (i := v) (by decide) hd
  obtain ⟨m7, d7, i7⟩ := wordU_fields (maj := 7) (i := v) (by decide) hd
  simp only [decodeBase, m5, d5, i5, m6, d6, i6, m7, d7, i7, sreg?_val]
  exact ⟨rfl, rfl, rfl⟩

theorem decode_BR {s6 kind : Nat} {o : BitVec 18} (hi : encode i = [wordBR s6 kind o.toNat]) (hs : s6 < 64) (hk : kind < 8)
    (he : decode1 kind s6 o = some i) (hw : wellFormed h i = true) : decode h (encode i ++ rest) = .ok (i, (encode i).length) := by
  obtain ⟨m, k, s, v⟩ := wordBR_fields (o := o) hs hk
  refine decode_of_base (p := .none) hi m (by decide) rfl ?_ hw
  simpa only [decodeBase, m, k, s, v] using he

/-- The frame of a `calli`, in the low bits of the offset (R119). -/
theorem frame_mod (f : Fin 16) : f.val % 262144 = f.val := Nat.mod_eq_of_lt (by omega)

@[simp] theorem toNat_beq_one (b : Bool) : (b.toNat == 1) = b := by cases b <;> rfl

theorem decode_VB {q kind : Nat} {neg : Bool} {o : BitVec 20} (hi : encode i = [wordVB q neg kind o]) (hq : q < 16) (hk : kind < 4)
    (he : decode2 kind q neg.toNat o = some i) (hw : wellFormed h i = true) :
    decode h (encode i ++ rest) = .ok (i, (encode i).length) := by
  obtain ⟨m, k, p, n, v⟩ := wordVB_fields (neg := neg) (o := o) hq hk
  refine decode_of_base (p := .none) hi m (by decide) rfl ?_ hw
  simpa only [decodeBase, m, k, p, n, v] using he

/-- A base word of the M format by its fields. -/
noncomputable def decodeM (x : Pfx) (maj fn3 : Nat) (m : MFld) : Option Instr :=
  match maj with
  | 16 => decode16 x fn3 m
  | 17 => decode17 x fn3 m
  | 20 => decode20 x fn3 m
  | _ => none

theorem decodeBase_wordM {maj fn : Nat} {m : MFld} (hm : maj ∈ [16, 17, 20]) (hf : fn < 8) :
    decodeBase p (wordM maj fn m) = decodeM p maj fn m := by
  have hl : maj < 32 := by simp only [List.mem_cons, List.not_mem_nil, or_false] at hm; omega
  obtain ⟨h1, h2, h3, h4, h5, h6, h7⟩ := wordM_fields (m := m) hl hf
  have hv : vfld ((wordM maj fn m).toNat / 2 ^ 7) = m.vo := Fin.ext h5
  have hs : Fin.ofNat 64 ((wordM maj fn m).toNat / 2 ^ 14) = m.sb := Fin.ext h4
  have ho : Fin.ofNat 4 ((wordM maj fn m).toNat / 4) = m.ord := Fin.ext h6
  have hc : Fin.ofNat 4 (wordM maj fn m).toNat = m.scope := Fin.ext h7
  simp only [List.mem_cons, List.not_mem_nil, or_false] at hm
  rcases hm with rfl | rfl | rfl <;> simp only [decodeBase, decodeM, h1, h2, h3, hv, hs, ho, hc, vfld_val]

theorem decode_M {maj fn : Nat} {m : MFld} (hi : encode i = wordsP p (wordM maj fn m)) (hm : maj ∈ [16, 17, 20]) (hf : fn < 8)
    (hp : p.xOk = true) (he : decodeM p maj fn m = some i) (hw : wellFormed h i = true) :
    decode h (encode i ++ rest) = .ok (i, (encode i).length) := by
  obtain ⟨hl, hx, hy⟩ : maj < 29 ∧ acceptsX maj = true ∧ acceptsY maj = true := by
    simp only [List.mem_cons, List.not_mem_nil, or_false] at hm
    rcases hm with rfl | rfl | rfl <;> decide
  exact decode_of_base hi (wordM_fields (hl.trans (by decide)) hf).1 hl (Pfx.fits_of_xOk hp hx hy)
    ((decodeBase_wordM hm hf).trans he) hw

theorem decode_W {ld st tl mx : Fin 32} (hw : wellFormed h (.wait ld st tl mx) = true) :
    decode h (encode (.wait ld st tl mx) ++ rest) = .ok (.wait ld st tl mx, (encode (.wait ld st tl mx)).length) := by
  let n := 28 * 2 ^ 27 + ld.val * 2 ^ 22 + st.val * 2 ^ 17 + tl.val * 2 ^ 12 + mx.val * 2 ^ 7
  have hn : (BitVec.ofNat 32 n).toNat = n := by simp only [BitVec.toNat_ofNat, n]; omega
  have hj : (BitVec.ofNat 32 n).toNat / 2 ^ 27 = 28 := by simp only [hn, n]; omega
  have hz : n % 128 = 0 := by simp only [n]; omega
  have h1 : Fin.ofNat 32 (n / 2 ^ 22) = ld := Fin.ext (by simp only [Fin.val_ofNat, n]; omega)
  have h2 : Fin.ofNat 32 (n / 2 ^ 17) = st := Fin.ext (by simp only [Fin.val_ofNat, n]; omega)
  have h3 : Fin.ofNat 32 (n / 2 ^ 12) = tl := Fin.ext (by simp only [Fin.val_ofNat, n]; omega)
  have h4 : Fin.ofNat 32 (n / 2 ^ 7) = mx := Fin.ext (by simp only [Fin.val_ofNat, n]; omega)
  refine decode_of_base (p := .none) (w := BitVec.ofNat 32 n) rfl hj (by decide) rfl ?_ hw
  simp only [decodeBase, hj]
  simp only [hn, hz, h1, h2, h3, h4, must_self]

/-- The units of majors 0 to 8. -/
def Instr.isScalarUnit : Instr → Bool
  | .nop .. | .exit .. | .trap .. | .brk .. | .rte .. | .yield .. | .ret .. | .winb .. | .vsync .. | .sleep .. | .qcfg ..
  | .qrst .. | .setfmt .. | .setmode .. | .bra .. | .bz .. | .bnz .. | .bltz .. | .bgez .. | .call .. | .calli .. | .jmpi ..
  | .vbr .. | .vbrall .. | .vbrany .. | .vjoin .. | .sadd .. | .ssub .. | .smul .. | .smulh .. | .smulhn .. | .sdiv .. | .sdivn ..
  | .srem .. | .sremn .. | .sand .. | .sor .. | .sxor .. | .sandn .. | .sshl .. | .sshr .. | .ssra .. | .srol .. | .smin ..
  | .smax .. | .sminn .. | .smaxn .. | .sceq .. | .scne .. | .sclt .. | .scle .. | .scltn .. | .sclen .. | .ssel .. | .saddi ..
  | .sandi .. | .sori .. | .sxori .. | .sshli .. | .sshri .. | .ssrai .. | .sclti .. | .sli .. | .slih .. | .sadpc .. | .mfs ..
  | .mts .. | .sext .. | .sins .. | .spopc .. | .sclz .. | .sctz .. | .sbrev .. | .sfirst .. | .sballot .. | .smask .. => true
  | _ => false

/-- The units of majors 9 to 15. -/
def Instr.isVectorUnit : Instr → Bool
  | .vadd .. | .vsub .. | .vmul .. | .vmulh .. | .vmulhn .. | .vmad .. | .vdiv .. | .vdivn .. | .vrem .. | .vremn .. | .vmin ..
  | .vmax .. | .vminn .. | .vmaxn .. | .vabs .. | .vand .. | .vor .. | .vxor .. | .vandn .. | .vshl .. | .vshr .. | .vsra ..
  | .vrol .. | .vfsh .. | .vpopc .. | .vclz .. | .vbrev .. | .vbfe .. | .vbfi .. | .vclmul .. | .vclmulh .. | .vsadd ..
  | .vssub .. | .vadd64 .. | .vsub64 .. | .vmov .. | .vdot4 .. | .vdot4n .. | .vaddi .. | .vandi .. | .vori .. | .vxori ..
  | .vshli .. | .vshri .. | .vsrai .. | .vmuli .. | .fadd .. | .fsub .. | .fmul .. | .ffma .. | .ffms .. | .fnma .. | .fmin ..
  | .fmax .. | .fminm .. | .fmaxm .. | .fabs .. | .fneg .. | .fcpys .. | .fdot2 .. | .hadd2 .. | .hmul2 .. | .hfma2 .. | .fround ..
  | .fldexp .. | .fgetexp .. | .vceq .. | .vcne .. | .vclt .. | .vcle .. | .vcltn .. | .vclen .. | .fceq .. | .fcne .. | .fclt ..
  | .fcle .. | .fcun .. | .fcls .. | .pand .. | .por .. | .pxor .. | .pandn .. | .pnot .. | .vmrg .. | .vperm .. | .vlane ..
  | .vredadd .. | .vredmin .. | .vredmax .. | .vredminn .. | .vredmaxn .. | .vredand .. | .vredor .. | .vredxor .. | .fredadd ..
  | .fredmin .. | .fredmax .. | .vscan .. | .vscanx .. | .fscan .. | .vcompact .. | .vexpand .. | .vmatch .. | .frcp ..
  | .frsq .. | .fsqrt .. | .fdiv .. | .fexp2 .. | .flog2 .. | .fsin .. | .fcos .. | .ftanh .. | .fsig .. | .ferf .. | .cvtfi ..
  | .cvtfn .. | .cvtif .. | .cvtnf .. | .cvtfh .. | .cvthf .. | .cvtf8 .. | .cvt8f .. | .fpack4 .. | .funpk4 .. | .mxscl ..
  | .mxq .. | .mxdq .. | .srseed .. => true
  | _ => false

theorem decode_encode_scalar (hc : i.isScalarUnit = true) (hw : wellFormed h i = true) :
    decode h (encode i ++ rest) = .ok (i, (encode i).length) := by
  cases i
  case nop | exit | trap | brk | rte | yield | ret | winb | vsync | sleep | qcfg | qrst =>
    exact decode_A (p := .none) rfl (by decide) (by omega) rfl (by simp [decodeA, decode0]) hw
  case setfmt | setmode =>
    exact decode_A (p := .none) rfl (by decide) (by omega) rfl (by simp [decodeA, decode0, Nat.div_add_mod']) hw
  case bra | bz | bnz | bltz | bgez | call =>
    exact decode_BR rfl (by omega) (by decide) (by simp [decode1]) hw
  case calli a f =>
    exact decode_BR (s6 := a.val) (kind := 6) (o := BitVec.ofNat 18 f.val) (by simp [encode, frame_mod]) (by omega) (by decide)
      (by simp [decode1, frame_mod]) hw
  case jmpi a => exact decode_BR (o := 0) rfl (by omega) (by decide) (by simp [decode1]) hw
  case vbr | vbrall | vbrany =>
    exact decode_VB rfl (by omega) (by decide) (by simp [decode2]) hw
  case vjoin => exact decode_VB rfl (by decide) (by decide) (by simp [decode2]) hw
  case sadd | ssub | smul | smulh | smulhn | sdiv | sdivn | srem | sremn | sand | sor | sxor | sandn | sshl | sshr | ssra | srol | smin
    | smax | sminn | smaxn | sceq | scne | sclt | scle | scltn | sclen =>
    exact decode_A (p := .none) rfl (by decide) (by omega) rfl (by simp [decodeA, decode3x, decode3]) hw
  case ssel e =>
    cases e with
    | none => exact decode_A (p := .none) rfl (by decide) (by omega) rfl (by simp [decodeA, decode3x, Pfx.none]) hw
    | some e =>
      exact decode_A (p := ⟨none, some ⟨vfld e.val, 0⟩⟩) rfl (by decide) (by omega) rfl (by simp [decodeA, decode3x]) hw
  case saddi | sandi | sori | sxori | sshli | sshri | ssrai | sclti =>
    exact decode_I4 rfl (by omega) (by omega) (by decide) (by simp [decode4]) hw
  case sli =>
    exact decode_of_base (p := .none) rfl (wordU_fields (by decide) (by omega)).1 (by decide) rfl decodeBase_wordU.1 hw
  case slih =>
    exact decode_of_base (p := .none) rfl (wordU_fields (by decide) (by omega)).1 (by decide) rfl decodeBase_wordU.2.1 hw
  case sadpc =>
    exact decode_of_base (p := .none) rfl (wordU_fields (by decide) (by omega)).1 (by decide) rfl decodeBase_wordU.2.2 hw
  case mfs | mts | sext | sins | spopc | sclz | sctz | sbrev | sfirst | sballot | smask =>
    exact decode_A (p := .none) rfl (by decide) (by omega) rfl (by simp [decodeA, decode8]) hw
  all_goals cases hc

theorem decode_encode_vector (hc : i.isVectorUnit = true) (hw : wellFormed h i = true) :
    decode h (encode i ++ rest) = .ok (i, (encode i).length) := by
  cases i
  case vadd | vsub | vmul | vmulh | vmulhn | vdiv | vdivn | vrem | vremn | vmin | vmax | vminn | vmaxn | vabs | vand | vor | vxor
    | vandn | vshl | vshr | vsra | vrol | vpopc | vclz | vbrev | vbfe | vclmul | vclmulh | vsadd | vssub | vmov =>
    exact decode_A rfl (by decide) (by omega) (Pfx.fits_of_xOk (xOk_of_pfxV (Bool.and_elim_left hw)) rfl rfl)
      (by simp [decodeA, decode9]) hw
  case vmad | vfsh | vbfi | vdot4 | vdot4n =>
    exact decode_A rfl (by decide) (by omega) (Pfx.fits_of_xOk (xOk_of_pfx3 (Bool.and_elim_left hw)) rfl rfl)
      (by simp [decodeA, decode9]) hw
  case vadd64 | vsub64 =>
    exact decode_A rfl (by decide) (by omega)
      (Pfx.fits_of_xOk (xOk_of_pfxV (Bool.and_elim_left <| Bool.and_elim_left <| Bool.and_elim_left hw)) rfl rfl)
      (by simp [decodeA, decode9]) hw
  case vaddi | vandi | vori | vxori | vmuli =>
    exact decode_I10 rfl (by omega) (by omega) (by decide) (xOk_of_pfxV (Bool.and_elim_left hw)) (by simp [decode10]) hw
  case vshli | vshri | vsrai =>
    exact decode_I10 rfl (by omega) (by omega) (by decide) (xOk_of_pfxV (Bool.and_elim_left <| Bool.and_elim_left hw))
      (by simp [decode10]) hw
  case fadd | fsub | fmul | fmin | fmax | fminm | fmaxm | fabs | fneg | fcpys | hadd2 | hmul2 | fround | fldexp | fgetexp =>
    exact decode_A rfl (by decide) (by omega) (Pfx.fits_of_xOk (xOk_of_pfxV (Bool.and_elim_left hw)) rfl rfl)
      (by simp [decodeA, decode11]) hw
  case ffma | ffms | fnma | fdot2 | hfma2 =>
    exact decode_A rfl (by decide) (by omega) (Pfx.fits_of_xOk (xOk_of_pfx3 (Bool.and_elim_left hw)) rfl rfl)
      (by simp [decodeA, decode11]) hw
  case vceq | vcne | vclt | vcle | vcltn | vclen | fceq | fcne | fclt | fcle | fcun | fcls | pand | por | pxor | pandn | pnot =>
    exact decode_A rfl (by decide) (by omega) (Pfx.fits_of_xOk (xOk_of_pfxV hw) rfl rfl) (by simp [decodeA, decode12]) hw
  case vmrg =>
    exact decode_A rfl (by decide) (by omega) (Pfx.fits_of_xOk (xOk_of_pfxV (Bool.and_elim_left hw)) rfl rfl)
      (by simp [decodeA, decode12]) hw
  case vperm | vlane | vscan | vscanx | fscan | vcompact | vexpand | vmatch =>
    exact decode_A rfl (by decide) (by omega) (Pfx.fits_of_xOk (xOk_of_pfxV (Bool.and_elim_left hw)) rfl rfl)
      (by simp [decodeA, decode13]) hw
  case vredadd | vredmin | vredmax | vredminn | vredmaxn | vredand | vredor | vredxor | fredadd | fredmin | fredmax =>
    exact decode_A rfl (by decide) (by omega) (Pfx.fits_of_xOk (xOk_of_pfxV hw) rfl rfl) (by simp [decodeA, decode13]) hw
  case frcp | frsq | fsqrt | fdiv | fexp2 | flog2 | fsin | fcos | ftanh | fsig | ferf =>
    exact decode_A rfl (by decide) (by omega) (Pfx.fits_of_xOk (xOk_of_pfxV (Bool.and_elim_left hw)) rfl rfl)
      (by simp [decodeA, decode14]) hw
  case cvtfi | cvtfn | cvtif | cvtnf | mxq | mxdq =>
    exact decode_A rfl (by decide) (by omega) (Pfx.fits_of_xOk (xOk_of_pfxV (Bool.and_elim_left hw)) rfl rfl)
      (by simp [decodeA, decode15]) hw
  case cvtfh | cvthf | cvtf8 | cvt8f | funpk4 =>
    exact decode_A rfl (by decide) (by omega)
      (Pfx.fits_of_xOk (xOk_of_pfxV (Bool.and_elim_left <| Bool.and_elim_left hw)) rfl rfl) (by simp [decodeA, decode15]) hw
  case fpack4 =>
    exact decode_A rfl (by decide) (by omega)
      (Pfx.fits_of_xOk (xOk_of_pfxV (Bool.and_elim_left <| Bool.and_elim_left <| Bool.and_elim_left hw)) rfl rfl)
      (by simp [decodeA, decode15]) hw
  case mxscl | srseed =>
    exact decode_A rfl (by decide) (by omega) (Pfx.fits_of_xOk (xOk_of_pfxV hw) rfl rfl) (by simp [decodeA, decode15]) hw
  all_goals cases hc

theorem decode_encode_engine (hc : (i.isScalarUnit || i.isVectorUnit) = false) (hi : encode i ≠ []) (hw : wellFormed h i = true) :
    decode h (encode i ++ rest) = .ok (i, (encode i).length) := by
  cases i
  case ldI8 | ldN8 | ldI16 | ldN16 | ldB32 | ldB64 | ldB128 =>
    exact decode_M rfl (by decide) (by decide) (xOk_of_pfxM (Bool.and_elim_left <| Bool.and_elim_left hw))
      (by simp [decodeM, decode16]) hw
  case ldm =>
    exact decode_M rfl (by decide) (by decide) (xOk_of_pfxM (Bool.and_elim_left hw)) (by simp [decodeM, decode16]) hw
  case stB8 | stB16 | stB32 | stm =>
    exact decode_M rfl (by decide) (by decide) (xOk_of_pfxM (Bool.and_elim_left hw)) (by simp [decodeM, decode17]) hw
  case stB64 | stB128 | sta =>
    exact decode_M rfl (by decide) (by decide) (xOk_of_pfxM (Bool.and_elim_left <| Bool.and_elim_left hw))
      (by simp [decodeM, decode17]) hw
  case sta64 =>
    exact decode_M rfl (by decide) (by decide) (xOk_of_pfxM (Bool.and_elim_left <| Bool.and_elim_left <| Bool.and_elim_left hw))
      (by simp [decodeM, decode17]) hw
  case atomAdd | atomSub | atomMin | atomMax | atomMinn | atomMaxn | atomAnd | atomOr | atomXor | atomXchg | atomCas | atomFadd
    | atomFmin | atomFmax | atomBfadd2 | atomIncw =>
    exact decode_A rfl (by decide) (by omega)
      (Pfx.fits_of_xOk (xOk_of_pfxA (Bool.and_elim_left <| Bool.and_elim_left hw)) rfl rfl)
      (decodeA_atom.trans (by simp [decode18])) hw
  case redAdd | redSub | redMin | redMax | redMinn | redMaxn | redAnd | redOr | redXor | redFadd | redFmin | redFmax | redBfadd2 =>
    exact decode_A rfl (by decide) ⟨flag_lt _, by omega⟩
      (Pfx.fits_of_xOk (xOk_of_pfxA (Bool.and_elim_left <| Bool.and_elim_left hw)) rfl rfl)
      (decodeA_red.trans (by simp [decode19])) hw
  case ldwB32 | ldwB64 | ldwB128 | stwB64 | stwB128 =>
    exact decode_M rfl (by decide) (by decide) (xOk_of_pfxM (Bool.and_elim_left <| Bool.and_elim_left hw))
      (by simp [decodeM, decode20]) hw
  case stwB32 =>
    exact decode_M rfl (by decide) (by decide) (xOk_of_pfxM (Bool.and_elim_left hw)) (by simp [decodeM, decode20]) hw
  case wadd | wcas =>
    exact decode_M rfl (by decide) (by decide) (xOk_of_pfxM (Bool.and_elim_left <| Bool.and_elim_left <| Bool.and_elim_left hw))
      (by simp [decodeM, decode20]) hw
  case ldo | ldob | stob =>
    exact decode_A rfl (by decide) (by omega)
      (Pfx.fits_of_xOk (xOk_of_pfxG (Bool.and_elim_left <| Bool.and_elim_left hw)) rfl rfl) (by simp [decodeA, decode21]) hw
  case sto | oprobe =>
    exact decode_A rfl (by decide) (by omega) (Pfx.fits_of_xOk (xOk_of_pfxG (Bool.and_elim_left hw)) rfl rfl)
      (by simp [decodeA, decode21]) hw
  case oinfo =>
    exact decode_A rfl (by decide) (by omega) (Pfx.fits_of_xOk (xOk_of_pfxG hw) rfl rfl) (by simp [decodeA, decode21]) hw
  case pfence | fla | cinv | cwb | crsz | pref =>
    exact decode_A (p := .none) rfl (by decide) (by omega) rfl (by simp [decodeA, decode22]) hw
  case fence kind scope =>
    exact decode_A (p := .none) rfl (by decide) (by omega) rfl (by simp [decodeA, decode22, fence_field, Fin.ext_iff]) hw
  case mwait y _ _ _ =>
    exact decode_A (p := ⟨none, some y⟩) rfl (by decide) (by omega) rfl (by simp [decodeA, decode22]) hw
  case cpy | cpyb | cpyt | cpyx | gath | scat | scata =>
    exact decode_A (p := .none) rfl (by decide) (by omega) rfl (by simp [decodeA, decode23]) hw
  case mma | mxloop | mxzero | tld | tst | mxcfg | mxrel =>
    exact decode_A (p := .none) rfl (by decide) (by omega) rfl (by simp [decodeA, decode24]) hw
  case balloc | bfree | barv | barw | barx | bar | barPx | semaAdd | semaSet | semw | tlrd | tlwait | waitk | waitr | spawn =>
    exact decode_A (p := .none) rfl (by decide) (by omega) rfl (by simp [decodeA, decode25, must]) hw
  case sendh | recvq | coll | peerq =>
    exact decode_A (p := .none) rfl (by decide) (by omega) rfl (by simp [decodeA, decode26]) hw
  case launch | preempt | resume | cfgrd | cfgwr =>
    exact decode_A (p := .none) rfl (by decide) (by omega) rfl (by simp [decodeA, decode27]) hw
  case wait =>
    exact decode_W hw
  case doorbellWrite | launchRecordTake | lqstatResume | hostWindowRead | hostWindowWrite | placeWorkgroup | eprioAge | evictWorkgroup
    | saveBegin | saveComplete | resumeWorkgroup | resumeComplete | gridComplete | regroupBinTimer | regroupStoreRoom | clusterIdleGate
    | clusterUngate | rulingClassHoldEnd | classWaitRaise | urgentCandidate | yieldEnd | sleepWake | spillTransferDone | trapEnter
    | handlerWatchdog | contextHaltDeadline | contextFaultReport | reportVectorTimer | loadReturn | storePerformed | waitingTableRetry
    | walkComplete | serviceRecordPost | osvcServiceDone | osvcServiceFail | publishRecord | publishMove | publishRelease
    | publishEntries | publishGranules | publishDone | remoteAccessArrive | copyStart | aonVersionAcquire | verPassEnd
    | copySliceComplete | barvReleaseDone | copyComplete | timelineEntryWrite | matrixStepStart | matrixStepComplete | tileTransferDone
    | homeGets | homeGetm | homePutm | homePute | homeWritePerform | snoopInv | snoopRecToS | snoopRecToI | snoopAnswer | grantArrive
    | putAck | snoopResend | atomicPerform | replayRequest | monitorTimeout | monitorStatusDeliver | cumulusAgeExpire
    | cumulusPacketApply | cumulusRejectLog | egressDeliver | rrtWrite | strandFail | flitReceive | flitAck | relayForward | strandGate
    | strandWakeDone | heartbeatSend | heartbeatMiss | deadDieVerdict | dieHaltDeadline | dieReportPost | wavelengthFail | laneRemapDone
    | codewordReceive | tagGroupVerify | portSessionEstablish | sessionRekey | portEnable | portDisable | portNarrow | portWake
    | portNarrowDone | portWakeDone | portAutoWake | farEndNarrow | farEndWake | lageUpdate | timeCounterSend | timeCounterReceive
    | fabricPacketReceive | fabricRetryTimeout | frgenWrite | reachabilityRereadDone | sendQueueDepart | messageDeliver | collHandoff
    | collComplete | collAbandon | coldReset | bootStepDone | deviceReset | functionReset | contextDisable | attestationRequest
    | attestationDone | ownClaim | ownRelease | ownHeartbeat | ownerTimeout | pcieLinkDown | stratusTakeover | powerEstimate | lvEnter
    | lvExit | lvTransitionDone | powerCapStep | phyLaser | phyLock | phyTrain | phyLaserOnDone | phyLockDone | phyTrainDone
    | lageFlashStore | configRegisterWrite | illegalWord | fetchFault | contextEnable | pcieLinkUp | clusterPowered | resultWriteBack
    | strandGatingDisable =>
    exact absurd rfl hi
  all_goals cases hc

theorem decode_encode (hi : encode i ≠ []) (hw : wellFormed h i = true) :
    decode h (encode i ++ rest) = .ok (i, (encode i).length) := by
  by_cases hs : i.isScalarUnit = true
  · exact decode_encode_scalar hs hw
  · by_cases hv : i.isVectorUnit = true
    · exact decode_encode_vector hv hw
    · exact decode_encode_engine (by simp only [hs, hv, Bool.or_self]) hi hw

theorem encode_ne_nil_of_major {m : Nat} (hm : (encode i).getLast?.map majOf = some m) : encode i ≠ [] := by
  intro he
  rw [he] at hm
  cases hm

/-- Settles O32: a case of `decode_encode`, which holds of every unit of every major. -/
theorem roundTripScalar : Obligations.RoundTripScalar :=
  fun _ _ _ _ hm _ hw => decode_encode (encode_ne_nil_of_major hm) hw

/-- Settles O33. -/
theorem roundTripVector : Obligations.RoundTripVector :=
  fun _ _ _ _ hm _ _ hw => decode_encode (encode_ne_nil_of_major hm) hw

/-- Settles O34. -/
theorem roundTripEngines : Obligations.RoundTripEngines :=
  fun _ _ _ _ hm _ hw => decode_encode (encode_ne_nil_of_major hm) hw

end Sys2Proof

/-! ## Scalar and predicate registers (O1) -/

namespace Sys2Proof.Claims

open Sys2Proof.Machine

theorem regGet_set_same {w : Nat} {l : List (BitVec w)} {n : Nat} (v : BitVec w) (h : n < l.length) : regGet (l.set n v) n = v := by
  simp [regGet, h]

theorem regGet_set_other {w : Nat} {l : List (BitVec w)} {m n : Nat} (v : BitVec w) (h : m ≠ n) :
    regGet (l.set m v) n = regGet l n := by
  simp only [regGet, List.getD_eq_getElem?_getD, List.getElem?_set_ne h]

variable {g : Group} {r q : Nat} {v : DWord}

/-- In handler mode s56 to s63 are the bank's. -/
theorem writeS_banked (hi : g.inH = true) (h : 56 ≤ r) : g.writeS r v = { g with bank := g.bank.set (r - 56) v } := by
  rw [Group.writeS, if_neg (by omega), if_pos ⟨hi, h⟩]

theorem writeS_plain (h0 : r ≠ 0) (h : ¬ (g.inH = true ∧ 56 ≤ r)) : g.writeS r v = { g with s := g.s.set r v } := by
  rw [Group.writeS, if_neg h0, if_neg h]

theorem readS_banked (hi : g.inH = true) (h : 56 ≤ r) : g.readS r = regGet g.bank (r - 56) := by
  rw [Group.readS, if_neg (by omega), if_pos ⟨hi, h⟩]

theorem readS_plain (h0 : r ≠ 0) (h : ¬ (g.inH = true ∧ 56 ≤ r)) : g.readS r = regGet g.s r := by
  rw [Group.readS, if_neg h0, if_neg h]

theorem readS_writeS_same (h0 : r ≠ 0) (h : r < 64) (hs : g.s.length = 64) (hb : g.bank.length = 8) : (g.writeS r v).readS r = v := by
  by_cases hr : g.inH = true ∧ 56 ≤ r
  · obtain ⟨hi, h56⟩ := hr
    rw [writeS_banked hi h56]
    exact (readS_banked (by exact hi) h56).trans (regGet_set_same v (by omega))
  · rw [writeS_plain h0 hr]
    exact (readS_plain h0 (by exact hr)).trans (regGet_set_same v (by omega))

theorem readS_writeS_other (h : q ≠ r) : (g.writeS r v).readS q = g.readS q := by
  by_cases h0 : r = 0
  · rw [h0, Group.writeS, if_pos rfl]
  · by_cases hr : g.inH = true ∧ 56 ≤ r
    · obtain ⟨hi, h56⟩ := hr
      rw [writeS_banked hi h56]
      simp only [Group.readS, hi, true_and]
      split
      · rfl
      · split
        · exact regGet_set_other v (by omega)
        · rfl
    · rw [writeS_plain h0 hr]
      simp only [Group.readS, regGet_set_other v h.symm]

theorem readP_writeP_same (h0 : r ≠ 0) (h : r < g.p.length) : (g.writeP r v).readP r = v := by
  rw [Group.writeP, if_neg h0, Group.readP, if_neg h0]
  exact regGet_set_same v h

theorem readP_writeP_other (h : q ≠ r) : (g.writeP r v).readP q = g.readP q := by
  simp only [Group.writeP]
  split
  · rfl
  · simp only [Group.readP, regGet_set_other v h.symm]

/-- Settles O1: the two hardwired registers by definition, the others by the rules of the lists. -/
theorem hardwiredAndBankedRegisters : Obligations.HardwiredAndBankedRegisters := by
  intro g v hs hp hb
  refine ⟨rfl, rfl, rfl, rfl, fun r h0 => ⟨readS_writeS_same h0 r.isLt hs hb, fun q hq => ?_⟩,
    fun r h0 => ⟨readP_writeP_same h0 (by omega), fun q hq => ?_⟩, fun r h56 => ⟨fun hi => ?_, fun hi => ?_⟩⟩
  · exact readS_writeS_other fun e => hq (Fin.ext e)
  · exact readP_writeP_other fun e => hq (Fin.ext e)
  · rw [writeS_banked hi h56]
    exact ⟨rfl, rfl⟩
  · rw [writeS_plain (by omega) (by simp [hi])]
    exact ⟨rfl, rfl⟩

end Sys2Proof.Claims

/-! ## Vector operands (O23) -/

namespace Sys2Proof.Claims

open Sys2Proof.Machine

/-! ### Lanes -/

theorem laneGet_lanesOf (f : Nat → Word) {i : Nat} (h : i < 64) : laneGet (lanesOf f) i = f i := by
  simp [laneGet, lanesOf, laneIdx, h]

@[simp] theorem laneGet_zeroLanes (i : Nat) : laneGet zeroLanes i = 0 := rfl

theorem laneGet_mergeLanes (m : DWord) (old : Lanes) (f : Nat → Word) {i : Nat} (h : i < 64) :
    laneGet (mergeLanes m old f) i = if laneBit m i then f i else laneGet old i := laneGet_lanesOf _ h

theorem laneBit_allOnes {i : Nat} (h : i < 64) : laneBit allOnes i = true :=
  BitVec.getLsbD_allOnes.trans (decide_eq_true h)

theorem laneBit_guardMask (x : Pfx) (g : Group) {i : Nat} (h : i < 64) : laneBit (guardMask x g) i =
    x.x.elim true fun y => !y.g || (laneBit (g.readP y.pred.val) i != y.neg) := by
  obtain ⟨_ | y, z⟩ := x
  · exact laneBit_allOnes h
  · obtain ⟨gd, neg, pred, xa, xb, rm⟩ := y
    cases gd
    · exact laneBit_allOnes h
    · cases neg
      · simp [guardMask]
      · simp [guardMask, laneBit, h]

/-! ### The crossbar (R36) -/

/-- Clearing the low bits of a lane number below 64. -/
theorem land_high_bits : ∀ n < 7, ∀ i < 64, i &&& (63 - (2 ^ n - 1)) = i / 2 ^ n * 2 ^ n := by decide

theorem xbarLane_eq {i : Nat} (hi : i < 64) {c : Fin 512} (h : xbarOk c = true) : let n := c.val % 64
    xbarLane c i = if c.val / 64 = 0 then some i else if c.val / 64 = 1 then some ((i + n) % 64) else if c.val / 64 = 2 then some n
      else if c.val / 64 = 3 then some (i ^^^ n)
      else if c.val / 64 = 4 then some ((i &&& (63 - (2 ^ n - 1))) + (2 ^ n - 1 - i % 2 ^ n))
      else if c.val / 64 = 5 then (if i + n ≤ 63 then some (i + n) else none) else if n ≤ i then some (i - n) else none := by
  have h8 : c.val / 64 < 8 := by omega
  simp only [xbarOk] at h
  simp only [xbarLane]
  generalize c.val / 64 = k at *
  interval_cases k
  · rfl
  · rfl
  · rfl
  · rfl
  · simp only [Bool.and_eq_true, decide_eq_true_eq] at h
    rw [land_high_bits _ (by omega) i hi]
    rfl
  · rfl
  · rfl
  · cases h

theorem xbarLane_lt {i j : Nat} (hi : i < 64) {c : Fin 512} (h : xbarOk c = true) (hj : xbarLane c i = some j) : j < 64 := by
  simp only [xbarLane] at hj
  split at hj
  · cases hj
    omega
  · cases hj
    omega
  · cases hj
    exact Nat.xor_lt_two_pow (n := 6) hi (Nat.mod_lt _ (by decide))
  · next h4 =>
    cases hj
    simp only [xbarOk, h4, Bool.and_eq_true, decide_eq_true_eq] at h
    obtain ⟨h1, h6⟩ := h
    generalize c.val % 64 = n at *
    interval_cases n <;> omega
  · split at hj <;> cases hj
    omega
  · split at hj <;> cases hj
    omega
  · cases hj
    exact hi

/-! ### Sources (R32) -/

variable {g : Group} {f : VFld} {i : Nat}

theorem src_window (h : f.val < 96) : g.src f i =
    if g.low ≤ g.wb + f.val ∧ g.wb + f.val < g.high then laneGet (mapGet g.vreg (g.wb + f.val) []) i else 0 := by
  simp only [Group.src, h, if_true, Group.readV, Group.readPos, Group.isRes, Bool.and_eq_true, decide_eq_true_eq]
  split <;> rfl

theorem src_queue (h : 96 ≤ f.val) (h' : f.val < 112) :
    g.src f i = ((g.queues.getD (f.val - 96) {}).ents.head?.map fun e => laneGet e.lanes i).getD 0 := by
  rw [Group.src, if_neg (by omega), if_pos h', Group.head]
  cases (g.queues.getD (f.val - 96) {}).ents <;> rfl

theorem src_scalar (h : 112 ≤ f.val) :
    g.src f i = if g.inH then laneGet (mapGet g.h (f.val - 112) []) i else (g.readS (f.val - 112)).setWidth 32 := by
  rw [Group.src, if_neg (by omega), if_neg (by omega)]
  rfl

/-! ### Destinations (R32, R96, R136) -/

variable {m : DWord} {v : Nat → Word}

theorem writeF_window {d : VFld} (hd : d.val < 96) (hl : g.low ≤ g.wb + d.val) (hh : g.wb + d.val < g.high) :
    g.writeF d m v = { g with vreg := mapSet g.vreg (g.wb + d.val) (mergeLanes m (mapGet g.vreg (g.wb + d.val) []) v) } := by
  have hr : g.isRes (g.wb + d.val) = true := by simp [Group.isRes, hl, hh]
  simp only [Group.writeF, Group.vDst, Group.writeDst, Group.writePos, Group.readPos, hr, hd, if_true]
  rw [if_neg (by omega)]
  rfl

theorem src_writeF_window (hi : i < 64) {d : VFld} (hd : d.val < 96) (hf : f.val < 96) (hl : g.low ≤ g.wb + d.val)
    (hh : g.wb + d.val < g.high) : (g.writeF d m v).src f i = if f = d ∧ laneBit m i = true then v i else g.src f i := by
  rw [writeF_window hd hl hh, src_window hf, src_window hf]
  by_cases e : f = d
  · subst e
    simp only [mapGet_mapSet_same, laneGet_mergeLanes _ _ _ hi, hl, hh, and_self, if_true, true_and]
  · have hne : g.wb + f.val ≠ g.wb + d.val := fun h => e (Fin.ext (by omega))
    simp only [mapGet_mapSet_other _ _ _ hne, e, false_and, if_false]

theorem queues_writeF_queue (h : 96 ≤ f.val) (h' : f.val < 112) : (g.writeF f m v).queues = if m = 0 then g.queues else
    g.queues.set (f.val - 96) { g.queues.getD (f.val - 96) {} with
      ents := (g.queues.getD (f.val - 96) {}).ents ++ [{ lanes := lanesOf fun j => if laneBit m j then v j else 0, filled := false }] } := by
  rw [Group.writeF, if_pos ⟨h, h'⟩]
  split <;> rfl

/-- A queue takes a whole entry, and no other queue changes (R96). -/
theorem ents_writeF_queue (h : 96 ≤ f.val) (h' : f.val < 112) (hq : g.queues.length = 16) :
    ((g.writeF f m v).queues.getD (f.val - 96) {}).ents = (g.queues.getD (f.val - 96) {}).ents ++
      if m = 0 then [] else [{ lanes := lanesOf fun j => if laneBit m j then v j else 0, filled := false }] := by
  rw [queues_writeF_queue h h']
  split
  · rw [List.append_nil]
  · have hn : f.val - 96 < g.queues.length := by omega
    simp [hn]

theorem queue_writeF_other (h : 96 ≤ f.val) (h' : f.val < 112) {n : Nat} (hn : n ≠ f.val - 96) :
    (g.writeF f m v).queues.getD n {} = g.queues.getD n {} := by
  rw [queues_writeF_queue h h']
  split
  · rfl
  · simp only [List.getD_eq_getElem?_getD, List.getElem?_set_ne hn.symm]

/-- Settles O23. -/
theorem vectorOperands : Obligations.VectorOperands := by
  intro g x i hi
  refine ⟨?_, fun c hc => ⟨xbarLane_eq hi hc, fun j hj => xbarLane_lt hi hc hj⟩, fun f => ⟨src_window, src_queue, src_scalar, fun m v =>
    ⟨fun d hd hf hl hh => src_writeF_window hi hd hf hl hh, fun h h' hq =>
      ⟨ents_writeF_queue h h' hq, fun n hn => queue_writeF_other h h' hn⟩⟩⟩⟩
  rw [laneBit, activeMask, BitVec.getLsbD_and]
  refine congrArg _ ((laneBit_guardMask x g hi).trans ?_)
  cases x.x <;> rfl

end Sys2Proof.Claims

/-! ## Traps and faults as events (O49) -/

namespace Sys2Proof.Claims

open Sys2Proof.Machine

/-! ### Entries of a table -/

theorem mem_of_mapGet? {α : Type} {m : NMap α} {n : Nat} {v : α} (h : mapGet? m n = some v) : (n, v) ∈ m := by
  induction m with
  | nil => cases h
  | cons kv r ih =>
    obtain ⟨k, w⟩ := kv
    simp only [mapGet?] at h
    split at h
    · next e =>
      cases h
      subst e
      exact List.mem_cons_self
    · exact List.mem_cons_of_mem _ (ih h)

theorem mapGet?_of_mem {α : Type} {m : NMap α} (hm : Rising m) {kv : Nat × α} (h : kv ∈ m) : mapGet? m kv.1 = some kv.2 := by
  induction m with
  | nil => cases h
  | cons e r ih =>
    obtain ⟨k, w⟩ := e
    obtain ⟨hk, hr⟩ := List.pairwise_cons.mp hm
    rcases List.mem_cons.mp h with rfl | h
    · exact if_pos rfl
    · have hlt : k < kv.1 := hk _ (List.mem_map_of_mem h)
      exact (if_neg (by omega)).trans (ih hr h)

/-! ### The first in line for a handler bank (R107) -/

/-- Group `x` comes before group `y`: it trapped earlier or, at the same time, has the lower slot. -/
def comesBefore (x y : Group) : Bool := x.bankOrder < y.bankOrder || (x.bankOrder = y.bankOrder && x.slot < y.slot)

theorem comesBefore_asymm {x y : Group} (h : comesBefore x y = true) : comesBefore y x = false := by
  simp only [comesBefore, Bool.or_eq_true, Bool.and_eq_true, decide_eq_true_eq, Bool.or_eq_false_iff, Bool.and_eq_false_iff,
    decide_eq_false_iff_not] at h ⊢
  omega

/-- Of the best so far and another, the one that comes first. -/
def better (b : Option (Nat × Group)) (kv : Nat × Group) : Option (Nat × Group) :=
  match b with
  | some x => if comesBefore kv.2 x.2 then some kv else b
  | none => some kv

theorem foldl_better {l : List (Nat × Group)} {a : Nat × Group} {b : Option (Nat × Group)}
    (hl : ∀ kv ∈ l, kv = a ∨ comesBefore a.2 kv.2 = true) (hb : ∀ x, b = some x → x = a ∨ comesBefore a.2 x.2 = true)
    (ha : a ∈ l ∨ b = some a) : l.foldl better b = some a := by
  induction l generalizing b with
  | nil => simpa using ha
  | cons kv r ih =>
    obtain ⟨hkv, hr⟩ := List.forall_mem_cons.mp hl
    refine ih hr (fun x hx => ?_) ?_
    · cases b with
      | none => cases hx; exact hkv
      | some y =>
        simp only [better] at hx
        split at hx
        · cases hx; exact hkv
        · exact hb x hx
    · by_cases e : kv = a
      · subst e
        right
        cases b with
        | none => rfl
        | some y =>
          rcases hb y rfl with rfl | hy
          · exact ite_self _
          · exact if_pos hy
      · have hkv := hkv.resolve_left e
        refine ha.imp (fun h => (List.mem_cons.mp h).resolve_left (Ne.symm e)) ?_
        rintro rfl
        simp only [better, comesBefore_asymm hkv, Bool.false_eq_true, if_false]

section
variable {s : State} {k n : Nat} {g : Group} {t : Trap}

/-- A waiting group that comes before every other of its partition is the first in line. -/
theorem nextWaiter_eq (hg : s.grp? k = some g) (hw : g.bankWait = some t) (hh : g.halted = false) (hr : Rising s.groups)
    (first : ∀ kv ∈ s.groups, kv.1 ≠ k → kv.2.core = g.core → partOfSlot kv.2.slot = partOfSlot g.slot → kv.2.bankWait.isSome = true →
      kv.2.halted = false → comesBefore g kv.2 = true) : s.nextWaiter g.core (partOfSlot g.slot) = some (k, g) := by
  refine foldl_better (a := (k, g)) (fun kv hkv => ?_) (fun _ h => by cases h) (.inl ?_)
  · obtain ⟨hm, hf⟩ := List.mem_filter.mp hkv
    simp only [Bool.and_eq_true, Bool.not_eq_true', decide_eq_true_eq] at hf
    obtain ⟨⟨⟨hs, hn⟩, hc⟩, hp⟩ := hf
    by_cases e : kv.1 = k
    · left
      have hv := mapGet?_of_mem hr hm
      rw [e] at hv
      exact Prod.ext e (Option.some.inj (hv.symm.trans hg))
    · exact .inr (first kv hm e hc hp hs hn)
  · exact List.mem_filter.mpr ⟨mem_of_mapGet? hg, by simp [hw, hh]⟩

theorem passBank_enters {c part : Nat} (hn : s.nextWaiter c part = some (k, g)) (hf : s.bankHolder c part = none)
    (hw : g.bankWait = some t) (hr : s.residentGrp g = true) (run : (s.ctx g.ctx).stop = .running) :
    s.passBank c part = s.setGrp k (g.enterHandler t s.dev.tns s.nextId) := by
  have hres : (!(match s.wg? g.wg with | some w => (w.state = .resident : Bool) | none => false)) = false := by
    rw [Bool.not_eq_false']
    exact hr
  simp only [State.passBank, hf, hn, hw, run, Option.isSome_none, Bool.false_eq_true, if_false]
  exact if_neg (Bool.not_eq_true _ ▸ hres)

theorem trapEnter_enters (hg : s.grp? k = some g) (hn : s.nextWaiter g.core (partOfSlot g.slot) = some (k, g))
    (hf : s.bankHolder g.core (partOfSlot g.slot) = none) (hw : g.bankWait = some t) (hr : s.residentGrp g = true)
    (run : (s.ctx g.ctx).stop = .running) : exec (.trapEnter k) s = .next (s.setGrp k (g.enterHandler t s.dev.tns s.nextId)) := by
  show execTrapEnter k s = _
  simp only [execTrapEnter, hg, hn, Option.map_some, if_true, passBank_enters hn hf hw hr run]

theorem handlerWatchdog_faults (hg : s.grp? k = some g) (hi : g.inH = true) (hh : g.halted = false) :
    exec (.handlerWatchdog k) s =
      .next ((s.atLeast (g.hTns + (s.core g.core).hwdt * 1000 + 1)).contextFault k g { cause := 0x12, pc := g.pc }) := by
  show execHandlerWatchdog k s = _
  simp only [execHandlerWatchdog, hg, hi, hh]
  rfl

theorem contextHaltDeadline_halts {tns slot : Nat} {w : DWord} {b : Bool} (hs : (s.ctx n).stop = .faulted tns t w slot b)
    (hh : s.ctxHalted n = false) : exec (.contextHaltDeadline n) s = .next ((s.atLeast (tns + 2000)).haltCtx n) := by
  show execContextHaltDeadline n s = _
  simp only [execContextHaltDeadline, hs, hh]
  rfl

theorem contextFaultReport_posts {tns slot : Nat} {w : DWord} (hs : (s.ctx n).stop = .faulted tns t w slot false)
    (hh : s.ctxHalted n = true) : exec (.contextFaultReport n) s =
      .next ((s.modCtx n fun c => { c with stop := .faulted tns t w slot true }).post { type := 1, ctx := n, args :=
        [w, BitVec.ofNat 64 (t.cause + (if t.deferred then 256 else 0) + slot % 2 ^ 15 * 2 ^ 24), t.a, t.pc, t.i] }) := by
  show execContextFaultReport n s = _
  simp only [execContextFaultReport, hs, hh]
  rfl

end

theorem trapAndFaultEvents : TrapAndFaultEvents := by
  intro s k n
  refine ⟨fun g t hg hw hh hr hf run rising first => ?_, fun g => handlerWatchdog_faults, fun tns slot t w => ⟨fun b hs hh => ?_, ?_⟩⟩
  · refine trapEnter_enters hg (nextWaiter_eq hg hw hh rising fun kv hm hk hc hp hb hn => ?_) hf hw hr run
    simpa [comesBefore] using first kv hm hk hc hp hb hn
  · exact contextHaltDeadline_halts hs hh
  · exact contextFaultReport_posts

/-! ### Units that cannot run (R45, R46) -/

section
variable {s : State} {k : Nat} {g : Group} (cur : s.cur = .grp k) (hg : s.grp? k = some g) (may : s.mayIssue g = true)
include cur hg may

/-- What an illegal word does, by whether the unit's base word is a fault point's. -/
theorem illegalWord_eq (w : Word) : exec (.illegalWord w) s = .next (
    if faultWord (baseWord s g w) && s.dieWaits g then s.dieAtFaultPoint k g
    else match g.takable, faultWord (baseWord s g w) with
      | f :: _, true => if g.lowerDone f then s.takeFault k g f else s.stall
      | _, _ => s.takeTrap k g { cause := 1, pc := g.pc, i := w.setWidth 64, resume := g.pc }) := by
  show execIllegalWord w s = _
  simp only [execIllegalWord, cur, hg, may, Bool.not_true, Bool.false_eq_true, if_false]
  rfl

theorem illegalWord_traps (c : CanEnter s g) {w : Word} (h : faultWord (baseWord s g w) = false ∨ g.takable = []) :
    exec (.illegalWord w) s = .next (s.setGrp k (entered g s 0x01 0 g.pc (w.setWidth 64) g.pc)) := by
  have hd : s.dieWaits g = false := by simp [State.dieWaits, c.run]
  rw [illegalWord_eq cur hg may, hd, Bool.and_false, if_neg Bool.false_ne_true]
  refine Eq.trans ?_ (congrArg _ (takeTrap_entered c (t := { cause := 1, pc := g.pc, i := w.setWidth 64, resume := g.pc })
    (show 1 ≠ 3 by decide) rfl (show 1 < 256 by decide)))
  rcases h with h | h
  · rw [h]
    cases g.takable <;> rfl
  · rw [h]

theorem illegalWord_takesFault {w : Word} {f : PFault} {r : List PFault} (hw : faultWord (baseWord s g w) = true)
    (ht : g.takable = f :: r) (hl : g.lowerDone f = true) (hd : s.dieWaits g = false) :
    exec (.illegalWord w) s = .next (s.takeFault k g f) := by
  rw [illegalWord_eq cur hg may, hd, Bool.and_false, if_neg Bool.false_ne_true, hw, ht]
  exact congrArg _ (if_pos hl)

/-- What a unit that cannot be fetched does. -/
theorem fetchFault_eq : exec .fetchFault s = .next (match s.fetchGrp g with
    | .ok _ => s.stall
    | .fault c a i => s.takeTrap k g { cause := c, a := a, pc := g.pc, i := i, resume := g.pc }
    | .miss ob sub va => (s.openService g.ctx ob sub 2 false g.core va).setGrp k { g with iparked := some (ob, sub) }
    | .hold ob sub _ => s.setGrp k { g with iparked := some (ob, sub) }) := by
  show execFetchFault s = _
  simp only [execFetchFault, cur, hg, may, Bool.not_true, Bool.false_eq_true, if_false] <;> rfl

end

theorem undecodableAndUnfetchable : UndecodableAndUnfetchable := by
  intro s k g cur hg may
  refine ⟨fun c w h => illegalWord_traps cur hg may c h, fun w f r hw ht hl hd => illegalWord_takesFault cur hg may hw ht hl hd,
    fun c a i hf ce hc h3 => ?_, fun ob sub va hf => ?_, fun ob sub va hf => ?_⟩ <;> rw [fetchFault_eq cur hg may, hf]
  exact congrArg _ (takeTrap_entered ce h3 rfl hc)

/-- Settles O49. -/
theorem trapEvents : Obligations.TrapEvents := ⟨trapAndFaultEvents, undecodableAndUnfetchable⟩

end Sys2Proof.Claims

/-! # The step runs the decoded instruction (O30)

What `step` does per case of the state it begins from (an event on the agenda, an agent of the plan, nothing planned), and what
`runUnit` does per answer of the fetch. -/
namespace Sys2Proof.Claims
open Sys2Proof.Machine

/-! ### A unit that is fetched -/

theorem runWords_decoded {h : Bool} {ws : List Word} {s : State} {i : Instr} {n : Nat} (hd : decode h ws = .ok (i, n)) :
    runWords h ws s = exec i s := by simp [runWords, hd]

theorem runWords_undecoded {h : Bool} {ws : List Word} {s : State} {e : DecodeReject} (hd : decode h ws = .error e) :
    runWords h ws s = exec (.illegalWord e.word) s := by simp [runWords, hd]

theorem runUnit_fetched {s : State} {k : Nat} {g : Group} {ws : List Word} (hc : s.cur = .grp k) (hg : s.grp? k = some g)
    (hf : s.fetchGrp g = .ok ws) : s.runUnit = runWords g.inH ws (s.fillI g ws) := by
  simp [State.runUnit, hc, hg, hf]

theorem runUnit_unfetched {s : State} {k : Nat} {g : Group} (hc : s.cur = .grp k) (hg : s.grp? k = some g)
    (hf : ∀ ws, s.fetchGrp g ≠ .ok ws) : s.runUnit = exec .fetchFault s := by
  cases hr : s.fetchGrp g with
  | ok ws => exact absurd hr (hf ws)
  | fault c a i => simp [State.runUnit, hc, hg, hr]
  | miss ob sub va => simp [State.runUnit, hc, hg, hr]
  | hold ob sub va => simp [State.runUnit, hc, hg, hr]

theorem runUnit_stratus {s : State} {ws : List Word} (hc : s.cur = .stratus) (hf : fetchUnit s.fetchStr s.sgrp.pc = .ok ws) :
    s.runUnit = runWords s.sgrp.inH ws s := by
  simp [State.runUnit, hc, hf]

/-! ### A unit of one word -/

/-- Majors 30 and 31 alone are prefixes (R28). -/
theorem isPrefix_of_lt {w : Word} (h : w.toNat / 2 ^ 27 < 30) : isPrefix w = false := by
  have hx : majOf w ≠ 30 := by unfold majOf; omega
  have hy : majOf w ≠ 31 := by unfold majOf; omega
  simp [isPrefix, isXWord, isYWord, hx, hy]

theorem fetchUnit_single {get : DWord → Fetched} {pc : DWord} {w : Word} (hg : get pc = .ok [w])
    (hw : w.toNat / 2 ^ 27 < 30) : fetchUnit get pc = .ok [w] := by
  simp [fetchUnit, hg, isPrefix_of_lt hw]

/-- With an empty instruction cache a word comes from memory (R222). -/
theorem fetch1_uncached {s : State} {g : Group} {va : DWord} {ps : List Place}
    (hx : s.xlate (s.xl g) 4 false true va.toNat 4 = .ok ps) (hi : (s.core g.core).icache = []) :
    s.fetch1 g va = .ok [BitVec.ofNat 32 (leNat (s.spanRead ps))] := by
  simp only [State.fetch1, State.fetchAs, hx, hi]
  rfl

theorem fetchStr_of_le {s : State} {va : DWord} (h : va.toNat + 4 ≤ 0x200000) :
    s.fetchStr va = .ok [BitVec.ofNat 32 (leNat (memReadBytes s.str.code va.toNat 4))] := by
  simp only [State.fetchStr, if_pos h]

/-! ### The cases of a step -/

theorem step_of_plan {s : State} {a : Agent} {r : List Agent} (hr : s.dev.reset = false) (ha : s.agenda = [])
    (hp : s.plan = a :: r) : step s = ({ s with cur := a, plan := r, stalled := false } : State).runUnit := by
  simp only [step, hr, ha, hp, Bool.false_and, Bool.false_eq_true, if_false]

theorem step_of_agenda {s : State} {i : Instr} {r : List Instr} (hr : s.dev.reset = false) (ha : s.agenda = i :: r) :
    step s = s.comes i r := by
  simp only [step, hr, ha, Bool.false_and, Bool.false_eq_true, if_false]

theorem step_turnOver {s : State} (hr : s.dev.reset = false) (ha : s.agenda = []) (hp : s.plan = []) :
    step s = .next s.turnOver := by
  simp only [step, hr, ha, hp, Bool.false_and, Bool.false_eq_true, if_false]

theorem isCold_iff (i : Instr) : isCold i = true ↔ i = .coldReset := by
  unfold isCold
  split <;> simp_all

theorem step_holdsReset {s : State} (hr : s.dev.reset = true) (ha : s.agenda.head? ≠ some .coldReset) :
    step s = .fault .holdsReset := by
  have hc : isCold (s.agenda.headD .nop) = false := by
    rw [Bool.eq_false_iff, ne_eq, isCold_iff]
    cases hl : s.agenda with
    | nil => simp
    | cons i r => simpa [hl] using ha
  simp only [step, hr, hc, Bool.not_false, Bool.and_self, if_true]

theorem comes_event {s : State} {i : Instr} {r : List Instr} (h : encode i = []) :
    s.comes i r = exec i { s with agenda := r, turn := 0, tried := 0 } := by
  simp [State.comes, h]

theorem comes_word {s : State} {i : Instr} {r : List Instr} (h : encode i ≠ []) :
    s.comes i r = .next { s with agenda := r } := by
  simp [State.comes, h]

/-- The step of an agent of the plan: the group's unit runs where its words are fetched and decoded, else the event that says
why it cannot. -/
theorem step_of_group {s : State} {k : Nat} {g : Group} {r : List Agent} (hr : s.dev.reset = false) (ha : s.agenda = [])
    (hp : s.plan = .grp k :: r) (hg : s.grp? k = some g) :
    let u : State := { s with cur := .grp k, plan := r, stalled := false }
    (∀ ws, u.fetchGrp g = .ok ws →
      (∀ i n, decode g.inH ws = .ok (i, n) → step s = exec i (u.fillI g ws)) ∧
      ∀ e, decode g.inH ws = .error e → step s = exec (.illegalWord e.word) (u.fillI g ws)) ∧
    ((∀ ws, u.fetchGrp g ≠ .ok ws) → step s = exec .fetchFault u) := by
  intro u
  have hu : step s = u.runUnit := step_of_plan hr ha hp
  have hug : u.grp? k = some g := hg
  refine ⟨fun ws hf => ⟨fun i n hd => ?_, fun e hd => ?_⟩, fun hf => ?_⟩
  · rw [hu, runUnit_fetched rfl hug hf, runWords_decoded hd]
  · rw [hu, runUnit_fetched rfl hug hf, runWords_undecoded hd]
  · rw [hu, runUnit_unfetched rfl hug hf]

/-- The step of Stratus, whose code is in its SRAM (R395). -/
theorem step_of_stratus {s : State} {r : List Agent} {w : Word} {i : Instr} {n : Nat} (hr : s.dev.reset = false)
    (ha : s.agenda = []) (hp : s.plan = .stratus :: r) (hf : s.fetchStr s.sgrp.pc = .ok [w]) (hw : w.toNat / 2 ^ 27 < 30)
    (hd : decode s.sgrp.inH [w] = .ok (i, n)) :
    step s = exec i { s with cur := .stratus, plan := r, stalled := false } := by
  let u : State := { s with cur := .stratus, plan := r, stalled := false }
  have hu : u.runUnit = runWords s.sgrp.inH [w] u := runUnit_stratus rfl (fetchUnit_single hf hw)
  rw [step_of_plan hr ha hp, hu, runWords_decoded hd]

/-- Settles O30, by the cases of the step and of the fetch. -/
theorem stepRunsTheDecodedInstruction : Obligations.StepRunsTheDecodedInstruction := by
  intro s
  refine ⟨fun hr ha => ⟨fun k g r hp hg => ?_, fun r hp hpc hw i n hd => ?_, step_turnOver hr ha⟩,
    fun hr i r ha => ⟨fun he => ?_, fun he => ?_⟩, step_holdsReset⟩
  · obtain ⟨hok, hno⟩ := step_of_group hr ha hp hg
    exact ⟨hok, hno, fun ps hx hi hw => fetchUnit_single (fetch1_uncached hx hi) hw⟩
  · exact step_of_stratus hr ha hp (fetchStr_of_le hpc) hw hd
  · rw [step_of_agenda hr ha, comes_event he]
  · rw [step_of_agenda hr ha, comes_word he]

end Sys2Proof.Claims

/-! # The encodings that the spec works out (O31) -/
namespace Sys2Proof.Claims
open Sys2Proof.Machine

/-- What `decode_encode` says of a unit with nothing after it, from its encoding written out. -/
theorem decode_of_encode {i : Instr} {ws : List Word} (he : encode i = ws) (hn : ws ≠ []) (hw : wellFormed false i = true) :
    decode false ws = .ok (i, ws.length) := by
  subst he
  simpa using decode_encode (rest := []) hn hw

/-- Settles O31: each encoding is computed, and decoding undoes it (O32 to O34). -/
theorem workedEncodings : Obligations.WorkedEncodings := by
  intro e he
  have hs : encode e.2 = e.1 ∧ e.1 ≠ [] ∧ wellFormed false e.2 = true := by
    revert e
    decide
  obtain ⟨henc, hne, hwf⟩ := hs
  exact ⟨decode_of_encode henc hne hwf, henc⟩

end Sys2Proof.Claims

/-! # What traps at issue (O25)

One lemma per outcome of `issueGrp` that comes before a unit's own effect: a recorded fault at a fault point, HND of a barred
unit, PRIV; and one for a unit whose own effect is a trap. The barred units of R106 are then gone through once, in `issuesAs`. -/
namespace Sys2Proof.Claims
open Sys2Proof.Machine

/-! ### What comes before a unit's own effect -/

section
variable {u : Uop} {eff str : Effect} {s : State} {k : Nat} {g : Group} (r : Ready s k g)
include r

theorem issue2_group : issue2 u eff str s = .next (issueGrp u eff k g s) := by
  simp only [issue2, r.cur, r.grp]

/-- At a fault point the first recorded fault is taken once the registers below it have completed (R104, R193). -/
theorem issue2_takesFault {f : PFault} {l : List PFault} (hd : s.dieWaits g = false) (fp : u.fp = true)
    (ht : g.takable = f :: l) (hl : g.lowerDone f = true) : issue2 u eff str s = .next (s.takeFault k g f) := by
  have hf : u.faultPoint g = true := by simp [Uop.faultPoint, fp]
  rw [issue2_group r]
  simp [issueGrp, r.can, r.res, hd, hf, ht, hl]

/-- A ready unit past its fault point: HND, then PRIV, then what its queue checks and its effect give (R82, R106, R109). -/
theorem issue2_ready (fp : u.faultPoint g = true → g.takable = [] ∧ s.dieWaits g = false) (rdy : u.ready g = true)
    (hw : (eff s k (u.active g) g (u.past g)).waits = false) :
    ∃ t, issue2 u eff str s = .next
      (if u.hnd && g.inH then s.contextFault k g { cause := 0x13, a := 0, pc := g.pc, i := u.base.setWidth 64 }
       else if u.priv && !s.sysCtx g.ctx then s.takeTrap k g (u.preciseTrap g 2 0) else t) := by
  rw [issue2_group r]
  unfold issueGrp
  cases hf : u.faultPoint g with
  | false =>
    simp only [r.can, r.res, rdy, hw, Bool.and_self, Bool.not_true, Bool.or_self, Bool.false_and, Bool.false_eq_true, if_false]
    cases g.takable <;> exact ⟨_, rfl⟩
  | true =>
    obtain ⟨ht, hd⟩ := fp hf
    simp only [r.can, r.res, rdy, hw, ht, hd, Bool.and_self, Bool.not_true, Bool.or_self, Bool.and_false, Bool.false_eq_true,
      if_false]
    exact ⟨_, rfl⟩

/-- A ready unit that is barred in handler mode is a context fault HND there, privileged or not (R106; LE 16). -/
theorem issue2_hnd (fp : u.faultPoint g = true → g.takable = [] ∧ s.dieWaits g = false) (rdy : u.ready g = true)
    (hw : (eff s k (u.active g) g (u.past g)).waits = false) (hnd : u.hnd = true) (hi : g.inH = true) :
    issue2 u eff str s = .next (s.contextFault k g { cause := 0x13, a := 0, pc := g.pc, i := u.base.setWidth 64 }) := by
  obtain ⟨t, ht⟩ := issue2_ready (str := str) r fp rdy hw
  rw [ht, hnd, hi]
  rfl

/-- A ready privileged unit without privilege traps PRIV (R44). -/
theorem issue2_priv (fp : u.faultPoint g = true → g.takable = [] ∧ s.dieWaits g = false) (rdy : u.ready g = true)
    (hw : (eff s k (u.active g) g (u.past g)).waits = false) (hi : g.inH = false) (pr : u.priv = true)
    (hs : s.sysCtx g.ctx = false) : issue2 u eff str s = .next (s.takeTrap k g (u.preciseTrap g 2 0)) := by
  obtain ⟨t, ht⟩ := issue2_ready (str := str) r fp rdy hw
  rw [ht, hi, pr, hs, Bool.and_false]
  rfl

/-- A unit without vector operands whose own effect is a trap takes it, where no recorded fault is to be taken first. -/
theorem issue2_traps {t : Trap} (hf : g.takable = []) (hd : s.dieWaits g = false) (hm : u.maj ≤ 8) (hi : g.inH = false)
    (pr : u.priv = false) (pend : dstMeet (u.reads g) g.pending = false) (hw : u.writes g = []) (v : u.vr = []) (w : u.vw = [])
    (he : ∀ m g1, eff s k m g g1 = .trap t) : issue2 u eff str s = .next (s.takeTrap k g t) := by
  have rdy : u.ready g = true := by
    simp only [Uop.ready, hw, List.append_nil, pend, v]
    simp [dstMeet]
    omega
  rw [issue2_takes r.cur r.grp r.can r.res (fun _ => ⟨hf, hd⟩) (fun _ => hi) (by simp [pr]) rdy (by simp [v, w]), he]
  rfl

end

/-! ### Units of a group that is at rest -/

section
variable {s : State} {g : Group} (r : AtRest s g)
include r

theorem counter_atRest (c : Ctr) : g.counter c = 0 := by simp [Group.counter, r.ops]
theorem room_atRest (c : Ctr) : g.room c 1 = true := by simp [Group.room, counter_atRest r]
theorem accOpen_atRest : g.accOpen = false := by simp [Group.accOpen, r.ops]

theorem nameSema_atRest {n : Nat} (h : n < 64) : s.nameSema g.wg n = some s := by
  obtain ⟨w, hw, -, hs⟩ := r.wg
  simp [State.nameSema, hw, hs n h]

theorem nameSemas_atRest {l : List Nat} (h : ∀ n ∈ l, n < 64) : s.nameSemas g.wg l = some s := by
  induction l with
  | nil => rfl
  | cons a l ih =>
    rw [State.nameSemas, nameSema_atRest r (h a List.mem_cons_self)]
    exact ih fun n hn => h n (List.mem_cons_of_mem a hn)

theorem copySema_atRest (l : CopySlice) : (if l.sen then s.nameSema g.wg (l.fld 3 12 6) else some s) = some s := by
  split
  · exact nameSema_atRest r (Nat.mod_lt _ (by decide))
  · rfl

theorem copyReads_atRest : s.copyReads g = false := by
  obtain ⟨w, hw, hc, -⟩ := r.wg
  simp [State.copyReads, hw, hc]

end

/-- The semaphores that a matrix unit names are fields of six bits (R290, R292). -/
theorem sems_lt (m : MxUnit) : ∀ n ∈ m.sems, n < 64 := by
  have hb (i lo : Nat) : m.fld i lo 6 < 64 := Nat.mod_lt _ (by decide)
  intro n hn
  unfold MxUnit.sems at hn
  split at hn
  · cases hn
  · simp only [List.mem_singleton] at hn
    exact hn ▸ hb 0 0
  · rw [List.mem_append] at hn
    rcases hn with hn | hn
    · split at hn
      · exact List.mem_singleton.mp hn ▸ hb 1 24
      · cases hn
    · split at hn
      · exact List.mem_singleton.mp hn ▸ hb 2 47
      · cases hn

theorem lanesOn_length_le (m : DWord) : (lanesOn m).length ≤ 64 := by
  simpa [laneIdx, lanesOn] using List.length_filter_le (fun i => laneBit m i) laneIdx

/-! ### The barred units (R106) -/

/-- A unit has the fault point, the registers and the base word that the statement lists, and is barred in handler mode. -/
structure Sees (u : Uop) (g : Group) (e : Seen) : Prop where
  fp : u.fp = e.fp
  hnd : u.hnd = true
  rd : u.reads g = e.rd
  wr : u.writes g = e.wr
  vr : u.vr = e.vr
  base : u.base.setWidth 64 = baseOf e.unit

/-- A unit issues as the statement sees it, and nothing of a group at rest keeps it waiting. -/
def IssuesAs (s : State) (k : Nat) (g : Group) (e : Seen) : Prop :=
  ∃ u eff str, exec e.unit s = issue2 u eff str s ∧ Sees u g e ∧ (AtRest s g → ∀ m g1, (eff s k m g g1).waits = false)

/-! The effects that are definitions of their own: which of them could wait, and why none does. -/

section
variable (u : Uop) (s : State) (k : Nat) (m : DWord) (g g1 : Group)

theorem callEff_waits (f : Nat) (t : Group → DWord) : (callEff u f t s k m g g1).waits = false := by
  simp only [callEff]
  split_ifs <;> rfl

theorem exitEff_waits : (exitEff s k m g g1).waits = false := by
  simp only [exitEff]
  split_ifs <;> rfl

theorem retEff_waits : (retEff u s k m g g1).waits = false := by
  unfold retEff
  split
  · split_ifs <;> rfl
  · split_ifs
    · exact exitEff_waits s k m g g1
    · rfl

theorem winbEff_waits (n : Int) : (winbEff u n s k m g g1).waits = false := by
  simp only [winbEff]
  split_ifs <;> rfl

theorem pushRec_waits (e : RecEnt) : (pushRec u s k g g1 e).waits = false := by
  simp only [pushRec]
  split_ifs <;> rfl

theorem vbrEff_waits (p : PReg) (neg : Bool) (o : BitVec 20) : (vbrEff u p neg o s k m g g1).waits = false := by
  simp only [vbrEff]
  split_ifs
  · rfl
  · rfl
  · exact pushRec_waits ..

theorem vsyncEff_waits : (vsyncEff u s k m g g1).waits = false := by
  unfold vsyncEff
  split
  · rfl
  · split_ifs <;> rfl

theorem sleepEff_waits (a : SReg) : (sleepEff a s k m g g1).waits = false := by
  simp only [sleepEff]
  split_ifs <;> rfl

theorem qcfgEff_waits (q n : Nat) : (qcfgEff q n s k m g g1).waits = false := by
  simp only [qcfgEff]
  split_ifs <;> rfl

theorem mtsWb_waits (v : DWord) : (mtsWb u g g1 v).waits = false := by
  simp only [mtsWb]
  split_ifs <;> rfl

variable {u s k m g g1}

theorem launchEff_waits (d a : SReg) (h : g.room .ld 1 = true) : (launchEff u d a s k m g g1).waits = false := by
  simp only [launchEff, h]
  split_ifs <;> simp_all [Eff.waits]

theorem preemptEff_waits (d a b : SReg) (h : g.room .ld 1 = true) : (preemptEff d a b s k m g g1).waits = false := by
  simp only [preemptEff, h]
  rfl

theorem resumeEff_waits (d a b : SReg) (h : g.room .ld 1 = true) : (resumeEff d a b s k m g g1).waits = false := by
  simp only [resumeEff, h]
  rfl

theorem cfgrdEff_waits (d a : SReg) (h : g.room .ld 1 = true) : (cfgrdEff u d a s k m g g1).waits = false := by
  simp only [cfgrdEff, h]
  split <;> rfl

theorem cfgwrEff_waits (a b : SReg) (h : g.room .st 1 = true) : (cfgwrEff u a b s k m g g1).waits = false := by
  simp only [cfgwrEff, h]
  split <;> rfl

end

/-! The families of units that share one definition. -/

section
variable {s : State} {k : Nat} {g : Group} {e : Seen} {u : Uop}

/-- A unit that names a transaction barrier waits for nothing but its workgroup. -/
theorem issuesAs_barUnit {a : SReg} {f : State → Nat → Group → Group → Workgroup → TxBar → Eff}
    (hx : exec e.unit s = barUnit u a f s) (h : Sees u g e) (hf : ∀ g1 w b, (f s k g g1 w b).waits = false) :
    IssuesAs s k g e := by
  refine ⟨u, _, _, hx, h, fun r m g1 => ?_⟩
  obtain ⟨w, hw, -⟩ := r.wg
  simp only [hw]
  split
  · rfl
  · exact hf ..

/-- A unit that waits parks its group; it is accepted unless its first check has it wait. -/
theorem issuesAs_waitUnit {park : Nat} {arg : Group → List DWord} {pre : State → Nat → Group → Option Eff}
    (hx : exec e.unit s = waitUnit u park arg pre s) (h : Sees { u with fp := true } g e)
    (hp : AtRest s g → ∀ f, pre s k g = some f → f.waits = false) : IssuesAs s k g e := by
  refine ⟨_, _, _, hx, h, fun r m g1 => ?_⟩
  cases hq : pre s k g with
  | some f => simpa only [hq] using hp r f hq
  | none =>
    simp only
    split_ifs <;> rfl

theorem issuesAs_semaUnit {a b : SReg} {f : Nat → Nat → Nat} (hx : exec e.unit s = semaUnit u a b f s)
    (h : Sees { u with sr := [a.val, b.val] } g e) : IssuesAs s k g e := by
  refine ⟨_, _, _, hx, h, fun r m g1 => ?_⟩
  simp only [nameSema_atRest r (Nat.mod_lt _ (by decide : 0 < 64)), accOpen_atRest r]
  rfl

/-- No copy of the workgroup is under way and its semaphores have their registers, so that a copy unit is accepted (R241). -/
theorem issuesAs_copyUnit {fn : Nat} {d a : SReg} {n : Fin 8} (hx : exec e.unit s = copyUnit fn d a n s)
    (h : Sees (u23 fn d a n) g e) : IssuesAs s k g e := by
  refine ⟨_, _, _, hx, h, fun r m g1 => ?_⟩
  obtain ⟨w, hw, hc, -⟩ := r.wg
  simp only [hw, hc, copySema_atRest r]
  split_ifs <;> simp_all [Eff.waits]

theorem issuesAs_mxUnit {op n : Nat} {d a : SReg} (hx : exec e.unit s = mxUnit op n d a s)
    (h : Sees { u24 (if op = 3 then 6 else op) d.val a.val with sr := (List.range n).map fun i => a.val + i, sw := [d.val] } g e) :
    IssuesAs s k g e := by
  refine ⟨_, _, _, hx, h, fun r m g1 => ?_⟩
  have hh : g.holdsMatrix = false := by simp [Group.holdsMatrix, r.ops]
  simp only [r.mxq, hh, room_atRest r, nameSemas_atRest r (sems_lt _)]
  split_ifs <;> simp_all [Eff.waits]

theorem issuesAs_tileUnit {fn : Nat} {d : VFld} {a : SReg} (hx : exec e.unit s = tileUnit fn u d a s) (h : Sees u g e) :
    IssuesAs s k g e := by
  refine ⟨_, _, _, hx, h, fun r m g1 => ?_⟩
  simp only [r.mxq, room_atRest r]
  split_ifs <;> simp_all [Eff.waits]

end

section
variable (s : State) (k : Nat) (g : Group) (x : Fields)

/-- Every unit of R106 issues as the statement lists it. -/
theorem issuesAs_of_barred : ∀ e ∈ barred g x, IssuesAs s k g e := by
  simp only [barred, List.forall_mem_append, List.forall_mem_cons, List.not_mem_nil, false_imp_iff, implies_true, and_true]
  refine ⟨⟨⟨?call, ?calli, ?ret, ?winb, ?vjoin, ?vbr, ?vsync, ?qcfg, ?qrst, ?sleep, ?yield, ?mts, ?mwait,
    ?cpy, ?cpyb, ?cpyt, ?cpyx, ?gath, ?scat, ?scata⟩,
    ?mma, ?mxloop, ?mxzero, ?mxrel, ?mxcfg, ?tld, ?tst, ?balloc, ?bfree, ?barv, ?barw, ?barx, ?bar, ?barPx,
    ?semaAdd, ?semaSet, ?semw, ?tlrd, ?tlwait, ?waitk, ?waitr⟩,
    ?sendh, ?recvq, ?peerq, ?coll, ?launch, ?preempt, ?resume, ?cfgrd, ?cfgwr⟩
  case call => exact ⟨_, _, _, rfl, ⟨rfl, rfl, rfl, rfl, rfl, rfl⟩, fun _ _ _ => callEff_waits ..⟩
  case calli => exact ⟨_, _, _, rfl, ⟨rfl, rfl, rfl, rfl, rfl, rfl⟩, fun _ _ _ => callEff_waits ..⟩
  case ret => exact ⟨_, _, _, rfl, ⟨rfl, rfl, rfl, rfl, rfl, rfl⟩, fun _ _ _ => retEff_waits ..⟩
  case winb => exact ⟨_, _, _, rfl, ⟨rfl, rfl, rfl, rfl, rfl, rfl⟩, fun _ _ _ => winbEff_waits ..⟩
  case vjoin => exact ⟨_, _, _, rfl, ⟨rfl, rfl, rfl, rfl, rfl, rfl⟩, fun _ _ _ => pushRec_waits ..⟩
  case vbr => exact ⟨_, _, _, rfl, ⟨rfl, rfl, rfl, rfl, rfl, rfl⟩, fun _ _ _ => vbrEff_waits ..⟩
  case vsync => exact ⟨_, _, _, rfl, ⟨rfl, rfl, rfl, rfl, rfl, rfl⟩, fun _ _ _ => vsyncEff_waits ..⟩
  case qcfg => exact ⟨_, _, _, rfl, ⟨rfl, rfl, rfl, rfl, rfl, rfl⟩, fun _ _ _ => qcfgEff_waits ..⟩
  case qrst => exact ⟨_, _, _, rfl, ⟨rfl, rfl, rfl, rfl, rfl, rfl⟩, fun _ _ _ => rfl⟩
  case sleep => exact ⟨_, _, _, rfl, ⟨rfl, rfl, rfl, rfl, rfl, rfl⟩, fun _ _ _ => sleepEff_waits ..⟩
  case yield => exact ⟨_, _, _, rfl, ⟨rfl, rfl, rfl, rfl, rfl, rfl⟩, fun _ _ _ => rfl⟩
  case mts => exact ⟨_, _, _, rfl, ⟨rfl, rfl, rfl, rfl, rfl, rfl⟩, fun _ _ _ => mtsWb_waits ..⟩
  case mwait =>
    refine ⟨_, _, _, rfl, ⟨rfl, rfl, rfl, rfl, rfl, rfl⟩, fun _ _ _ => ?_⟩
    simp only
    split_ifs <;> rfl
  case cpy => exact issuesAs_copyUnit rfl ⟨rfl, rfl, rfl, rfl, rfl, rfl⟩
  case cpyb => exact issuesAs_copyUnit rfl ⟨rfl, rfl, rfl, rfl, rfl, rfl⟩
  case cpyt => exact issuesAs_copyUnit rfl ⟨rfl, rfl, rfl, rfl, rfl, rfl⟩
  case cpyx => exact issuesAs_copyUnit rfl ⟨rfl, rfl, rfl, rfl, rfl, rfl⟩
  case gath => exact issuesAs_copyUnit rfl ⟨rfl, rfl, rfl, rfl, rfl, rfl⟩
  case scat => exact issuesAs_copyUnit rfl ⟨rfl, rfl, rfl, rfl, rfl, rfl⟩
  case scata => exact issuesAs_copyUnit rfl ⟨rfl, rfl, rfl, rfl, rfl, rfl⟩
  case mma => exact issuesAs_mxUnit rfl ⟨rfl, rfl, rfl, rfl, rfl, rfl⟩
  case mxloop => exact issuesAs_mxUnit rfl ⟨rfl, rfl, rfl, rfl, rfl, rfl⟩
  case mxzero => exact issuesAs_mxUnit rfl ⟨rfl, rfl, rfl, rfl, rfl, rfl⟩
  case mxrel => exact issuesAs_mxUnit rfl ⟨rfl, rfl, rfl, rfl, rfl, rfl⟩
  case mxcfg =>
    refine ⟨_, _, _, rfl, ⟨rfl, rfl, rfl, rfl, rfl, rfl⟩, fun _ _ _ => ?_⟩
    simp only
    split_ifs <;> rfl
  case tld => exact issuesAs_tileUnit rfl ⟨rfl, rfl, rfl, rfl, rfl, rfl⟩
  case tst => exact issuesAs_tileUnit rfl ⟨rfl, rfl, rfl, rfl, rfl, rfl⟩
  case balloc =>
    refine ⟨_, _, _, rfl, ⟨rfl, rfl, rfl, rfl, rfl, rfl⟩, fun r _ _ => ?_⟩
    obtain ⟨w, hw, -⟩ := r.wg
    simp only [hw]
    split_ifs <;> rfl
  case bfree =>
    refine issuesAs_barUnit rfl ⟨rfl, rfl, rfl, rfl, rfl, rfl⟩ fun _ _ _ => ?_
    simp only
    split_ifs <;> rfl
  case barv =>
    refine issuesAs_barUnit rfl ⟨rfl, rfl, rfl, rfl, rfl, rfl⟩ fun _ _ _ => ?_
    simp only
    split_ifs <;> rfl
  case barw =>
    refine issuesAs_waitUnit rfl ⟨rfl, rfl, rfl, rfl, rfl, rfl⟩ fun r f hf => ?_
    obtain ⟨w, hw, -⟩ := r.wg
    simp only [hw] at hf
    split_ifs at hf
    · cases hf; rfl
  case barx =>
    refine issuesAs_barUnit rfl ⟨rfl, rfl, rfl, rfl, rfl, rfl⟩ fun _ _ _ => ?_
    simp only
    split_ifs <;> rfl
  case bar =>
    refine ⟨_, _, _, rfl, ⟨rfl, rfl, rfl, rfl, rfl, rfl⟩, fun r _ _ => ?_⟩
    simp [accOpen_atRest r, Eff.waits]
  case barPx =>
    refine ⟨_, _, _, rfl, ⟨rfl, rfl, rfl, rfl, rfl, rfl⟩, fun r _ _ => ?_⟩
    simp [accOpen_atRest r, copyReads_atRest r, r.mxq, Eff.waits]
  case semaAdd => exact issuesAs_semaUnit rfl ⟨rfl, rfl, rfl, rfl, rfl, rfl⟩
  case semaSet => exact issuesAs_semaUnit (u := u25 6 1 x.a.val x.b.val) (f := fun _ v => v) rfl ⟨rfl, rfl, rfl, rfl, rfl, rfl⟩
  case semw =>
    refine ⟨_, _, _, rfl, ⟨rfl, rfl, rfl, rfl, rfl, rfl⟩, fun r _ _ => ?_⟩
    simp only [nameSema_atRest r (Nat.mod_lt _ (by decide : 0 < 64))]
    split_ifs <;> rfl
  case tlrd =>
    refine ⟨_, _, _, rfl, ⟨rfl, rfl, rfl, rfl, rfl, rfl⟩, fun _ _ _ => ?_⟩
    simp only
    split_ifs <;> rfl
  case tlwait =>
    refine issuesAs_waitUnit rfl ⟨rfl, rfl, rfl, rfl, rfl, rfl⟩ fun _ f hf => ?_
    simp only at hf
    split_ifs at hf
    · cases hf; rfl
  case waitk => exact issuesAs_waitUnit (pre := fun _ _ _ => none) rfl ⟨rfl, rfl, rfl, rfl, rfl, rfl⟩ (by simp)
  case waitr =>
    refine ⟨_, _, _, rfl, ⟨rfl, rfl, rfl, rfl, rfl, rfl⟩, fun r _ _ => ?_⟩
    simp [counter_atRest r, Eff.waits]
  case sendh =>
    refine ⟨_, _, _, rfl, ⟨rfl, rfl, rfl, rfl, rfl, rfl⟩, fun r m _ => ?_⟩
    have hl : ¬ 256 < (lanesOn m).length := by have := lanesOn_length_le m; omega
    simp only [room_atRest r, r.sendq, List.length_nil, Nat.zero_add, hl]
    split_ifs <;> simp_all [Eff.waits]
  case recvq =>
    refine ⟨_, _, _, rfl, ⟨rfl, rfl, rfl, rfl, rfl, rfl⟩, fun r _ _ => ?_⟩
    simp [room_atRest r, Eff.waits]
  case peerq => exact ⟨_, _, _, rfl, ⟨rfl, rfl, rfl, rfl, rfl, rfl⟩, fun _ _ _ => rfl⟩
  case coll =>
    refine ⟨_, _, _, rfl, ⟨rfl, rfl, rfl, rfl, rfl, rfl⟩, fun _ _ _ => ?_⟩
    simp only
    split_ifs <;> rfl
  case launch => exact ⟨_, _, _, rfl, ⟨rfl, rfl, rfl, rfl, rfl, rfl⟩, fun r _ _ => launchEff_waits _ _ (room_atRest r _)⟩
  case preempt => exact ⟨_, _, _, rfl, ⟨rfl, rfl, rfl, rfl, rfl, rfl⟩, fun r _ _ => preemptEff_waits _ _ _ (room_atRest r _)⟩
  case resume => exact ⟨_, _, _, rfl, ⟨rfl, rfl, rfl, rfl, rfl, rfl⟩, fun r _ _ => resumeEff_waits _ _ _ (room_atRest r _)⟩
  case cfgrd => exact ⟨_, _, _, rfl, ⟨rfl, rfl, rfl, rfl, rfl, rfl⟩, fun r _ _ => cfgrdEff_waits _ _ (room_atRest r _)⟩
  case cfgwr => exact ⟨_, _, _, rfl, ⟨rfl, rfl, rfl, rfl, rfl, rfl⟩, fun r _ _ => cfgwrEff_waits _ _ (room_atRest r _)⟩

end

/-! ### The statement, rule by rule -/

/-- A unit is ready whose registers are at rest and whose sources have their entries, where no access of the group is held in
translation (R82, R96, R194). -/
theorem ready_of_quiet {u : Uop} {rd wr : List Dst} (hr : u.reads g = rd) (hw : u.writes g = wr) (q : Quiet g rd wr)
    (hv : headsFilled g (queuesOf u.vr) = true) (hh : g.holding = false ∨ 22 ≤ u.maj) : u.ready g = true := by
  subst hr hw
  simp only [Uop.ready, q.pend, q.kept, hv]
  rcases hh with hh | hm
  · simp [hh]
  · simp
    right
    omega

section
variable {s : State} {k : Nat} {g : Group} (r : Ready s k g) (hd : s.dieWaits g = false)
include r hd

/-- A recorded fault is taken at a fault point, whatever the mode and also where the unit is barred (R104). -/
theorem fault_at_faultPoints {f : PFault} {l : List PFault} (ht : g.takable = f :: l) (hl : g.lowerDone f = true)
    (o : BitVec 18) (w : Fin 32) :
    let t := s.takeFault k g f
    exec (.bra o) s = .next t ∧ exec (.wait w w w w) s = .next t ∧ exec .exit s = .next t ∧
      ∀ (x : Fields) (e : Seen), e ∈ barred g x → e.fp = true → exec e.unit s = .next t := by
  refine ⟨issue2_takesFault r hd rfl ht hl, issue2_takesFault r hd rfl ht hl, issue2_takesFault r hd rfl ht hl,
    fun x e he hfp => ?_⟩
  obtain ⟨u, eff, str, hx, hs, -⟩ := issuesAs_of_barred s k g x e he
  rw [hx]
  exact issue2_takesFault r hd (hs.fp.trans hfp) ht hl

/-- A ready unit that is barred is a context fault HND in handler mode (R106). -/
theorem hnd_of_barred (hi : g.inH = true) (hr : AtRest s g) {x : Fields} {e : Seen} (he : e ∈ barred g x) (q : Quiet g e.rd e.wr)
    (hv : headsFilled g (queuesOf e.vr) = true) (ht : e.fp = true → g.takable = []) :
    exec e.unit s = .next (s.contextFault k g { cause := 0x13, a := 0, pc := g.pc, i := baseOf e.unit }) := by
  obtain ⟨u, eff, str, hx, hs, hw⟩ := issuesAs_of_barred s k g x e he
  have fp : u.faultPoint g = true → g.takable = [] ∧ s.dieWaits g = false := by
    intro hf
    cases h : u.fp with
    | true => exact ⟨ht (hs.fp.symm.trans h), hd⟩
    | false => exact faultPoint_quiet h hs.rd hs.wr q hf
  have rdy : u.ready g = true :=
    ready_of_quiet hs.rd hs.wr q (by rw [hs.vr]; exact hv) (.inl (by simp [Group.holding, hr.ops]))
  rw [hx, issue2_hnd r fp rdy (hw hr ..) hs.hnd hi, hs.base]

end

/-- Fewer registers meet no more than the more of them do. -/
theorem dstMeet_mono {l l' m : List Dst} (h : l ⊆ l') (hm : dstMeet l' m = false) : dstMeet l m = false := by
  simp only [dstMeet, List.any_eq_false] at hm ⊢
  exact fun d hd => hm d (h hd)

theorem quiet_mono {g : Group} {rd wr rd' wr' : List Dst} (hr : rd ⊆ rd') (hw : wr ⊆ wr') (q : Quiet g rd' wr') :
    Quiet g rd wr := by
  have hs : rd ++ wr ⊆ rd' ++ wr' := List.append_subset.mpr
    ⟨List.subset_append_of_subset_left _ hr, List.subset_append_of_subset_right _ hw⟩
  refine ⟨dstMeet_mono hs q.pend, dstMeet_mono hw q.kept, ?_⟩
  have hf := q.flt
  simp only [List.any_eq_false, Bool.not_eq_true] at hf ⊢
  exact fun f hm => dstMeet_mono hs (hf f hm)

theorem room_of_le {g : Group} {c : Ctr} (h : g.counter c ≤ 254) : g.room c 1 = true := by
  simp only [Group.room, decide_eq_true_eq]
  omega

section
variable {s : State} {k : Nat} {g : Group} (r : Ready s k g) (c : CanEnter s g)
include r c

/-- The four privileged units trap PRIV without privilege (R44), also past a recorded fault. -/
theorem priv_traps (hs : s.sysCtx g.ctx = false) (hl : g.counter .ld ≤ 254)
    (ht : g.counter .st ≤ 254) (a b d : SReg) (q : Quiet g [g.sDst a.val, g.sDst b.val] [g.sDst d.val]) :
    ∀ i ∈ [Instr.preempt d a b, .resume d a b, .cfgrd d a, .cfgwr a b],
      exec i s = .next (s.setGrp k (precise g s 2 0 (baseOf i))) := by
  have key {u : Uop} {eff str : Effect} {rd wr : List Dst} (hm : u.maj = 27) (hp : u.priv = true) (fp : u.fp = false)
      (hr : u.reads g = rd) (hw : u.writes g = wr) (hv : u.vr = []) (qu : Quiet g rd wr)
      (he : ∀ m g1, (eff s k m g g1).waits = false) :
      issue2 u eff str s = .next (s.setGrp k (precise g s 2 0 (u.base.setWidth 64))) := by
    rw [issue2_priv r (faultPoint_quiet fp hr hw qu)
      (ready_of_quiet hr hw qu (by simp [hv]) (.inr (by omega))) (he ..) c.out hp hs]
    exact congrArg _ (takeTrap_entered c (show 2 ≠ 3 by decide) rfl (show 2 < 256 by decide))
  simp only [List.forall_mem_cons, List.not_mem_nil, false_imp_iff, implies_true, and_true]
  refine ⟨key rfl rfl rfl rfl rfl rfl q fun _ _ => preemptEff_waits _ _ _ (room_of_le hl),
    key rfl rfl rfl rfl rfl rfl q fun _ _ => resumeEff_waits _ _ _ (room_of_le hl),
    key (rd := [g.sDst a.val]) (wr := [g.sDst d.val]) rfl rfl rfl rfl rfl rfl (quiet_mono (by simp) (by simp) q)
      fun _ _ => cfgrdEff_waits _ _ (room_of_le hl),
    key (rd := [g.sDst a.val, g.sDst b.val]) (wr := []) rfl rfl rfl rfl rfl rfl (quiet_mono (by simp) (by simp) q)
      fun _ _ => cfgwrEff_waits _ _ (room_of_le ht)⟩

/-- A unit of majors 0 to 8 whose own effect is a precise trap, no QUE trap, enters the handler, where no recorded fault is to
be taken first (R103, R105). -/
theorem issue2_precise {u : Uop} {eff str : Effect} {cause : Nat} {a i : DWord} (hf : g.takable = []) (hd : s.dieWaits g = false)
    (hm : u.maj ≤ 8) (pr : u.priv = false) (pend : dstMeet (u.reads g) g.pending = false) (hw : u.writes g = []) (v : u.vr = [])
    (w : u.vw = []) (h3 : cause ≠ 3) (hc : cause < 256)
    (he : ∀ m g1, eff s k m g g1 = .trap { cause := cause, a := a, pc := g.pc, i := i, resume := g.pc }) :
    issue2 u eff str s = .next (s.setGrp k (precise g s cause a i)) := by
  rw [issue2_traps r hf hd hm c.out pr pend hw v w he]
  exact congrArg _ (takeTrap_entered c h3 rfl hc)

variable (hd : s.dieWaits g = false) (hf : g.takable = [])
include hd hf

theorem rte_outside : exec .rte s = .next (s.setGrp k (precise g s 1 0 (baseOf .rte))) :=
  issue2_precise r c hf hd (Nat.le_of_ble_eq_true rfl) rfl rfl rfl rfl rfl (by decide) (by decide)
    fun m g1 => by simp only [rteEff, c.out]; rfl

section
variable {a : SReg} (pend : dstMeet [g.sDst a.val] g.pending = false)
include pend

theorem jmpi_misaligned (h4 : (g.readS a.val).toNat % 4 ≠ 0) :
    exec (.jmpi a) s = .next (s.setGrp k (precise g s 4 (g.readS a.val) (baseOf (.jmpi a)))) :=
  issue2_precise r c hf hd (Nat.le_of_ble_eq_true rfl) rfl pend rfl rfl rfl (by decide) (by decide)
    fun m g1 => by simp only [jmpiEff, if_pos h4]; rfl

theorem calli_misaligned (h4 : (g.readS a.val).toNat % 4 ≠ 0) (m : Fin 16) :
    exec (.calli a m) s = .next (s.setGrp k (precise g s 4 (g.readS a.val) (baseOf (.calli a m)))) :=
  issue2_precise r c hf hd (Nat.le_of_ble_eq_true rfl) rfl pend rfl rfl rfl (by decide) (by decide)
    fun m g1 => by simp only [callEff, if_pos h4]; rfl

/-- `mts` to a register that no group may write traps ILL (R125). -/
theorem mts_readOnly {x : SpecReg} (hx : x ∈ readOnly) :
    exec (.mts x a) s = .next (s.setGrp k (precise g s 1 0 (baseOf (.mts x a)))) := by
  refine issue2_precise r c hf hd (Nat.le_of_ble_eq_true rfl) rfl pend rfl rfl rfl (by decide) (by decide) fun m g1 => ?_
  simp only [readOnly, List.mem_cons, List.not_mem_nil, or_false] at hx
  rcases hx with rfl | rfl | rfl | rfl | rfl | rfl | rfl | rfl | rfl | rfl | rfl | rfl | rfl | rfl | rfl | rfl
  all_goals rfl

/-- DIEM is written by no group: PRIV (R125). -/
theorem mts_diem : exec (.mts 0x1F a) s = .next (s.setGrp k (precise g s 2 0 (baseOf (.mts 0x1F a)))) :=
  issue2_precise r c hf hd (Nat.le_of_ble_eq_true rfl) rfl pend rfl rfl rfl (by decide) (by decide) fun _ _ => rfl

end

theorem winb_beyond {m : Fin 128}
    (h : (g.wb : Int) + 8 * sextNat 7 m.val < 0 ∨ 16384 < (g.wb : Int) + 8 * sextNat 7 m.val + 96) :
    exec (.winb m) s = .next (s.setGrp k (precise g s 0x0E 0 g.spc.bits)) := by
  have hw : wbOk ((g.wb : Int) + 8 * sextNat 7 m.val) = false := by
    simp only [wbOk, Bool.and_eq_false_iff, decide_eq_false_iff_not]
    omega
  exact issue2_precise r c hf hd (Nat.le_of_ble_eq_true rfl) rfl rfl rfl rfl rfl (by decide) (by decide)
    fun _ _ => by simp only [winbEff, hw]; rfl

theorem call_beyond (hr : 4096 ≤ g.ret.length + g.retSp) {f : Fin 64} {o : BitVec 18} (ho : (target g o.toInt).toNat % 4 = 0) :
    exec (.call f o) s = .next (s.setGrp k (precise g s 0x0E 0 g.spc.bits)) := by
  have hb : ¬ (branchTo g o.toInt).toNat % 4 ≠ 0 := fun h => h ho
  exact issue2_precise r c hf hd (Nat.le_of_ble_eq_true rfl) rfl rfl rfl rfl rfl (by decide) (by decide)
    fun _ _ => by simp only [callEff, if_neg hb, hr]; simp [spfTrap, Uop.preciseTrap]

/-- A depth beyond what the group has for its queues is the QUE trap 2 of that queue (R97, R117). -/
theorem qcfg_beyond {q : Fin 16} {n : Fin 128} (h : g.n - 96 < g.qtot - depthOf g q.val + n.val) :
    exec (.qcfg q n) s = .next (s.setGrp k { precise g s 3 2 (BitVec.ofNat 64 q.val) with qtr := q.val, qwh := 2 }) := by
  have he (m : DWord) (g1 : Group) : qcfgEff q.val n.val s k m g g1 = .trap (queTrap g (2, q.val)) := if_pos h
  refine (issue2_traps r hf hd (Nat.le_of_ble_eq_true rfl) c.out rfl rfl rfl rfl rfl he).trans (congrArg _ ?_)
  rw [takeTrap_enters c]
  simp [Group.enterHandler, precise, entered, queTrap, c.wait, Nat.mod_eq_of_lt q.isLt]

end

/-- A bad return of `rte` in handler mode is a context fault HND; the unit has issued (R114). -/
theorem rte_bad {s : State} {k : Nat} {g : Group} (r : Ready s k g) (hf : g.takable = []) (hi : g.inH = true)
    (hp : ¬ ((regGet g.bank 7).toNat % 4 = 0 ∧ (regGet g.bank 7).toNat < 2 ^ 52)) :
    exec .rte s =
      .next ((s.contextFault k g { cause := 0x13, a := 0, pc := g.pc, i := baseOf .rte }).paid g { pipe := 0, cls := 1 }) := by
  have q : Quiet g [] [] := ⟨rfl, rfl, by simp [hf]⟩
  have hb : pcOk (regGet g.bank 7) = false := by
    simp only [pcOk, Bool.and_eq_false_iff, decide_eq_false_iff_not]
    omega
  refine (issue2_quiet (rd := []) (wr := []) r _ rfl rfl q (by decide) rfl (fun h => by cases h) rfl rfl rfl rfl).trans (congrArg _ ?_)
  have he (u : Uop) (m : DWord) (g1 : Group) : rteEff u s k m g g1 =
      .st (s.contextFault k g { cause := 0x13, a := 0, pc := g.pc, i := u.base.setWidth 64 }) := by
    simp only [rteEff, hi, hb]
    rfl
  rw [he]
  exact applyEff_st_scalar (by decide) rfl rfl rfl

/-- Settles O25, rule by rule in the order of issue. -/
theorem issueTraps : Obligations.IssueTraps := by
  intro s k g r hd
  refine ⟨fun f l ht hl o w => fault_at_faultPoints r hd ht hl o w,
    fun hi hr x e he q hv ht => hnd_of_barred r hd hi hr he q hv ht,
    fun c hs hl ht a b d q => priv_traps r c hs hl ht a b d q,
    fun hf a => ⟨fun hi hp => rte_bad r hf hi hp, fun c => ?_⟩⟩
  exact ⟨rte_outside r c hd hf,
    fun pend => ⟨fun h4 => ⟨jmpi_misaligned r c hd hf pend h4, calli_misaligned r c hd hf pend h4⟩,
      fun x hx => mts_readOnly r c hd hf pend hx, mts_diem r c hd hf pend⟩,
    fun m h => winb_beyond r c hd hf h, fun hr f o ho => call_beyond r c hd hf hr ho, fun q n h => qcfg_beyond r c hd hf h⟩

end Sys2Proof.Claims

/-! # The register files keep their sizes (O60)

`Sized t` says that every group of `t`, and Stratus, has 64 scalars, 16 predicates and eight banked scalars. -/
namespace Sys2Proof.Claims
set_option Elab.async false
open Sys2Proof.Machine

/-! ### What each operation on a group keeps -/

section
variable {g g' : Group}

/-- The files are those of another group. -/
theorem Files.of (h : Files g) (hs : g'.s = g.s := by rfl) (hp : g'.p = g.p := by rfl) (hb : g'.bank = g.bank := by rfl) :
    Files g' := ⟨hs ▸ h.s, hp ▸ h.p, hb ▸ h.bank⟩

theorem Files.ite {c : Prop} {_ : Decidable c} (h : Files g) (h' : Files g') : Files (if c then g else g') := by
  split <;> assumption

theorem Files.foldl {α : Type} {f : Group → α → Group} {l : List α} (h : Files g) (hf : ∀ u a, Files u → Files (f u a)) :
    Files (l.foldl f g) := by
  induction l generalizing g with
  | nil => exact h
  | cons a r ih => exact ih (hf g a h)

theorem Files.writeS {r v} (h : Files g) : Files (g.writeS r v) := by
  unfold Group.writeS
  refine .ite h (.ite ⟨h.s, h.p, ?_⟩ ⟨?_, h.p, h.bank⟩)
  · exact List.length_set.trans h.bank
  · exact List.length_set.trans h.s

theorem Files.writeP {r v} (h : Files g) : Files (g.writeP r v) := by
  unfold Group.writeP
  exact .ite h ⟨h.s, List.length_set.trans h.p, h.bank⟩

theorem Files.writePBits {d m f} (h : Files g) : Files (g.writePBits d m f) := h.writeP

theorem Files.writePos {p l} (h : Files g) : Files (g.writePos p l) := .ite (.of h) h

theorem Files.writeDst {d m f} (h : Files g) : Files (g.writeDst d m f) := by
  unfold Group.writeDst
  split
  · exact h.writePos
  · exact .of h
  · exact h

theorem Files.writeSDst {d v} (h : Files g) : Files (g.writeSDst d v) := by
  unfold Group.writeSDst
  split
  · exact ⟨List.length_set.trans h.s, h.p, h.bank⟩
  · exact ⟨h.s, h.p, List.length_set.trans h.bank⟩
  · exact h.writeP
  · exact h

theorem Files.pushQ {n l} (h : Files g) : Files (g.pushQ n l) := .of h

theorem Files.popQ {n} (h : Files g) : Files (g.popQ n) := .of h

theorem Files.writeF {d m f} (h : Files g) : Files (g.writeF d m f) := .ite (.ite h h.pushQ) h.writeDst

theorem Files.writeWords {dst ws} (h : Files g) : Files (g.writeWords dst ws) :=
  .foldl h fun _ _ h1 => h1.writeDst

theorem Files.kick (h : Files g) : Files g.kick := .ite h (.ite (.of h) (.ite (.of h) h))

theorem Files.setWb {w} (h : Files g) : Files (g.setWb w) := .kick (.of h)

theorem Files.addOp {o} (h : Files g) : Files (g.addOp o) := .of h

theorem Files.modOp {id f} (h : Files g) : Files (g.modOp id f) := .of h

theorem Files.finishOp {id} (h : Files g) : Files (g.finishOp id) := .of h

theorem Files.endUnit {o} (h : Files g) : Files (g.endUnit o) := .of h

theorem Files.raise {fl} (h : Files g) : Files (g.raise fl) := .of h

theorem Files.past {u : Uop} (h : Files g) : Files (u.past g) :=
  .of (g := if u.peek || u.active g = 0 then g else (queuesOf u.vr).eraseDups.foldl Group.popQ g)
    (.ite h (.foldl h fun _ _ h1 => h1.popQ))

theorem Files.enterHandler {x tns next} (h : Files g) : Files (g.enterHandler x tns next) := ⟨h.s, h.p, rfl⟩

theorem Files.leaveHandler (h : Files g) : Files g.leaveHandler := .of h

theorem Files.spilled (h : Files g) : Files g.spilled := by
  unfold Group.spilled
  extract_lets p go
  split <;> exact .of h

theorem Files.filled {bs} (h : Files g) : Files (g.filled bs) := by
  unfold Group.filled
  extract_lets p go
  split
  · exact .ite (.of h) (.of h)
  · exact .of h
  · exact .of h

theorem Files.waited {l issues k} (h : Files g) : Files (g.waited l issues k) := by
  unfold Group.waited
  split
  · extract_lets first
    exact .ite (.of h) (.of h)
  · exact .of h

theorem files_husk : Files g.husk := ⟨rfl, rfl, rfl⟩

theorem Files.restored {raw mx cpn reg} (h : Files g) : Files (g.restored raw mx cpn reg) :=
  ⟨by simp [Group.restored], by simp [Group.restored], h.bank⟩

end

theorem files_stratusReset : Files stratusReset := ⟨rfl, rfl, rfl⟩

theorem files_startGroup {r wk idx slot wgid area} : Files (startGroup r wk idx slot wgid area) := ⟨rfl, rfl, rfl⟩

theorem files_startSpawned {r wk slot w area} : Files (startSpawned r wk slot w area) := ⟨rfl, rfl, rfl⟩

end Sys2Proof.Claims

namespace Sys2Proof.Machine
set_option Elab.async false
open Sys2Proof.Claims

/-! ### Tables of groups -/

/-- A table holds only what `P` holds of. -/
abbrev Holds (m : NMap Group) : Prop := ∀ e ∈ m, Files e.2

theorem Holds.mapSet {m : NMap Group} {n : Nat} {v : Group} (h : Holds m) (hv : Files v) : Holds (mapSet m n v) := by
  induction m with
  | nil => simpa [Holds, Machine.mapSet] using hv
  | cons kv r ih =>
    obtain ⟨hk, hr⟩ := List.forall_mem_cons.mp h
    simp only [Holds, Machine.mapSet]
    split
    · exact List.forall_mem_cons.mpr ⟨hv, h⟩
    · split
      · exact List.forall_mem_cons.mpr ⟨hv, hr⟩
      · exact List.forall_mem_cons.mpr ⟨hk, ih hr⟩

theorem Holds.mapDel {m : NMap Group} {n : Nat} (h : Holds m) : Holds (mapDel m n) :=
  fun e he => h e ((mapDel_sublist m n).subset he)

theorem Holds.filter {m : NMap Group} {p : Nat × Group → Bool} (h : Holds m) : Holds (m.filter p) :=
  fun e he => h e (List.mem_filter.mp he).1

theorem Holds.mapAll {m : NMap Group} {f : Nat → Group → Group} (h : Holds m) (hf : ∀ k g, Files g → Files (f k g)) :
    Holds (mapAll m f) := by
  intro e he
  obtain ⟨a, ha, rfl⟩ := List.mem_map.mp he
  exact hf a.1 a.2 (h a ha)

theorem Holds.get {m : NMap Group} {n : Nat} {g : Group} (h : Holds m) (e : mapGet? m n = some g) : Files g := by
  induction m with
  | nil => cases e
  | cons kv r ih =>
    obtain ⟨hk, hr⟩ := List.forall_mem_cons.mp h
    simp only [Machine.mapGet?] at e
    split at e
    · exact Option.some.inj e ▸ hk
    · exact ih hr e

theorem Holds.mapMod {m : NMap Group} {n : Nat} {f : Group → Group} (h : Holds m) (hf : ∀ g, Files g → Files (f g)) :
    Holds (mapMod m n f) := by
  unfold Machine.mapMod
  split
  · next g e => exact h.mapSet (hf g (h.get e))
  · exact h

/-! ### What every operation keeps -/

/-- The register files of every group and of Stratus have their sizes. -/
structure Sized (t : State) : Prop where
  groups : Holds t.groups
  str : Files t.sgrp

/-- `Sized` of the state that a pair holds second. -/
def SizedSnd {α : Type} (p : α × State) : Prop := Sized p.2

/-- `Sized` of the state that a pair holds first. -/
def SizedFst {α : Type} (p : State × α) : Prop := Sized p.1

/-- `Sized` of the state, where there is one. -/
def SizedOpt : Option State → Prop
  | some t => Sized t
  | none => True

/-- `Sized` of the state that a pair holds second, where there is one. -/
def SizedOptSnd {α : Type} : Option (α × State) → Prop
  | some p => Sized p.2
  | none => True

/-- `Sized` of the next state, where there is one. -/
def SizedOut : Out → Prop
  | .next t => Sized t
  | _ => True

/-- The effect of a unit: the group or the machine that it carries. -/
inductive SizedEff : Eff → Prop
  | grp {g} : Files g → SizedEff (.grp g)
  | st {t} : Sized t → SizedEff (.st t)
  | trap {x} : SizedEff (.trap x)
  | wait : SizedEff .wait
  | waitSt {t} : Sized t → SizedEff (.waitSt t)

/-- `SizedEff`, where there is an effect. -/
def SizedOptEff : Option Eff → Prop
  | some e => SizedEff e
  | none => True

/-- `Sized` of the state in which an access waits. -/
def SizedIo : Io → Prop
  | .wait t => Sized t
  | _ => True

/-- `Sized` of the state in which a copy's moves leave the machine. -/
def SizedRun : Run → Prop
  | .go t => Sized t
  | .fault t .. => Sized t
  | .hold t => Sized t

/-- `Sized` of the state in which a record is awaited. -/
def SizedRec : RecRead → Prop
  | .wait t => Sized t
  | _ => True

/-- `Sized` of the state in which an attempt to receive leaves the machine. -/
def SizedRecv : Recv → Prop
  | .done t => Sized t
  | .io t => Sized t
  | _ => True

/-- `Sized` of the state in which a remote access leaves the machine. -/
def SizedRem : RemRes → Prop
  | .done t _ => Sized t
  | .armed t => Sized t
  | .wait t => Sized t
  | _ => True

/-- `Sized` of the state in which a window's write leaves the machine. -/
def SizedWin : Win → Prop
  | .done t _ => Sized t
  | .wait t => Sized t

/-- `Sized` of the state in which a copy waits for its translation. -/
def SizedHold {α : Type} : CRes α → Prop
  | .hold t => Sized t
  | _ => True

/-- `Sized` of either state in which a list's entry is found. -/
def SizedEntry : CRes (State × Nat × Nat) → Prop
  | .ok v => Sized v.1
  | .hold t => Sized t
  | _ => True

variable {t : State}

theorem SizedSnd.mk {α : Type} {a : α} (h : Sized t) : SizedSnd (a, t) := h

theorem SizedFst.mk {α : Type} {a : α} (h : Sized t) : SizedFst (t, a) := h

theorem SizedOpt.some (h : Sized t) : SizedOpt (.some t) := h

theorem SizedOpt.none : SizedOpt .none := trivial

theorem SizedOut.next (h : Sized t) : SizedOut (.next t) := h

theorem SizedOut.fault {r} : SizedOut (.fault r) := trivial

theorem SizedEff.of_grp {g} (h : SizedEff (.grp g)) : Files g := by cases h; assumption

theorem SizedEff.of_st (h : SizedEff (.st t)) : Sized t := by cases h; assumption

theorem SizedEff.of_waitSt (h : SizedEff (.waitSt t)) : Sized t := by cases h; assumption

theorem SizedEntry.along {a b} (h : SizedEntry a) (e : a = b) : SizedEntry b := e ▸ h

theorem SizedFst.along {α : Type} {a b : State × α} (h : SizedFst a) (e : a = b) : SizedFst b := e ▸ h

theorem SizedHold.along {α : Type} {a b : CRes α} (h : SizedHold a) (e : a = b) : SizedHold b := e ▸ h

theorem SizedIo.along {a b} (h : SizedIo a) (e : a = b) : SizedIo b := e ▸ h

theorem SizedOpt.along {a b} (h : SizedOpt a) (e : a = b) : SizedOpt b := e ▸ h

theorem SizedOptEff.along {a b} (h : SizedOptEff a) (e : a = b) : SizedOptEff b := e ▸ h

/-- `Sized` of the state that a pair holds second, where there is one. -/
theorem SizedOptSnd.along {α : Type} {a b : Option (α × State)} (h : SizedOptSnd a) (e : a = b) :
    SizedOptSnd b := e ▸ h

theorem SizedOut.along {a b} (h : SizedOut a) (e : a = b) : SizedOut b := e ▸ h

theorem SizedRec.along {a b} (h : SizedRec a) (e : a = b) : SizedRec b := e ▸ h

theorem SizedRecv.along {a b} (h : SizedRecv a) (e : a = b) : SizedRecv b := e ▸ h

theorem SizedRem.along {a b} (h : SizedRem a) (e : a = b) : SizedRem b := e ▸ h

theorem SizedRun.along {a b} (h : SizedRun a) (e : a = b) : SizedRun b := e ▸ h

theorem SizedSnd.along {α : Type} {a b : α × State} (h : SizedSnd a) (e : a = b) : SizedSnd b := e ▸ h

theorem SizedWin.along {a b} (h : SizedWin a) (e : a = b) : SizedWin b := e ▸ h

theorem SizedOpt.orElse {o : Option State} {f u} (ho : SizedOpt o) (hf : SizedOpt (f ()))
    (e : o.orElse f = .some u) : Sized u := by
  cases o with
  | some v => exact Option.some.inj e ▸ ho
  | none => exact SizedOpt.along (b := .some u) hf e

theorem SizedOptEff.some {e} (h : SizedEff e) : SizedOptEff (.some e) := h

theorem SizedOptEff.none : SizedOptEff .none := trivial

theorem SizedIo.ok {b} : SizedIo (.ok b) := trivial

theorem SizedIo.bad {a b c d} : SizedIo (.bad a b c d) := trivial

theorem SizedIo.wait (h : Sized t) : SizedIo (.wait t) := h

theorem SizedRun.go (h : Sized t) : SizedRun (.go t) := h

theorem SizedRec.raw {n} : SizedRec (.raw n) := trivial

theorem SizedRec.bad : SizedRec .bad := trivial

theorem SizedRec.wait (h : Sized t) : SizedRec (.wait t) := h

theorem SizedRecv.done (h : Sized t) : SizedRecv (.done t) := h

theorem SizedRecv.fault {x} : SizedRecv (.fault x) := trivial

theorem SizedRecv.miss {a b c} : SizedRecv (.miss a b c) := trivial

theorem SizedRecv.hold : SizedRecv .hold := trivial

theorem SizedRem.done {b} (h : Sized t) : SizedRem (.done t b) := h

theorem SizedRem.armed (h : Sized t) : SizedRem (.armed t) := h

theorem SizedRem.wait (h : Sized t) : SizedRem (.wait t) := h

theorem SizedRem.fault {a b c} : SizedRem (.fault a b c) := trivial

theorem SizedHold.ok {α : Type} {v : α} : SizedHold (.ok v) := trivial

theorem SizedHold.fault {α : Type} {c a i} : SizedHold (.fault c a i : CRes α) := trivial

theorem SizedHold.hold {α : Type} (h : Sized t) : SizedHold (.hold t : CRes α) := h

theorem SizedWin.done {b} (h : Sized t) : SizedWin (.done t b) := h

theorem SizedWin.wait (h : Sized t) : SizedWin (.wait t) := h

theorem Sized.ite {c : Prop} {_ : Decidable c} {u : State} (h1 : Sized t) (h2 : Sized u) : Sized
    (if c then t else u) := by
  split <;> assumption

theorem SizedEff.ite {c : Prop} {_ : Decidable c} {a b : Eff} (h1 : SizedEff a) (h2 : SizedEff b) :
    SizedEff (if c then a else b) := by
  split <;> assumption

theorem SizedOut.ite {c : Prop} {_ : Decidable c} {a b : Out} (h1 : SizedOut a) (h2 : SizedOut b) :
    SizedOut (if c then a else b) := by
  split <;> assumption

theorem SizedHold.ite {α : Type} {c : Prop} {_ : Decidable c} {a b : CRes α} (h1 : SizedHold a)
    (h2 : SizedHold b) :
    SizedHold (if c then a else b) := by
  split <;> assumption

theorem Sized.foldl {α : Type} {f : State → α → State} {l : List α} (h : Sized t)
    (hf : ∀ u a, Sized u → Sized (f u a)) : Sized (l.foldl f t) := by
  induction l generalizing t with
  | nil => exact h
  | cons a r ih => exact ih (hf t a h)

theorem SizedSnd.foldl {α β : Type} {f : α × State → β → α × State} {l : List β} {p : α × State}
    (h : SizedSnd p)
    (hf : ∀ q b, SizedSnd q → SizedSnd (f q b)) : SizedSnd (l.foldl f p) := by
  induction l generalizing p with
  | nil => exact h
  | cons b r ih => exact ih (hf p b h)

theorem SizedFst.foldl {α β : Type} {f : State × α → β → State × α} {l : List β} {p : State × α}
    (h : SizedFst p)
    (hf : ∀ q b, SizedFst q → SizedFst (f q b)) : SizedFst (l.foldl f p) := by
  induction l generalizing p with
  | nil => exact h
  | cons b r ih => exact ih (hf p b h)

theorem SizedOpt.getD {o} (ho : SizedOpt o) (h : Sized t) : Sized (o.getD t) := by
  cases o with
  | some u => exact ho
  | none => exact h

/-- Fields other than the groups and the Stratus core's registers may be anything. -/
theorem Sized.frame
    {agenda cur plan cyc issued stalled turn tried came nextId fresh dev mem wgs grids lq ctxs classes cores
     clusters dies ptr gdir home cuPkts cuRejs egress pairs chips ports fab colls remHeld svcWaits rio str hosts}
    (h : Sized t) :
    Sized { t with
      agenda, cur, plan, cyc, issued, stalled, turn, tried, came, nextId, fresh, dev, mem, wgs, grids, lq, ctxs,
      classes, cores, clusters, dies, ptr, gdir, home, cuPkts, cuRejs, egress, pairs, chips, ports, fab, colls,
      remHeld, svcWaits, rio, str, hosts } :=
  ⟨h.groups, h.str⟩

theorem Sized.withGroups
    {agenda cur plan cyc issued stalled turn tried came nextId fresh dev mem wgs grids lq ctxs classes cores
     clusters dies ptr gdir home cuPkts cuRejs egress pairs chips ports fab colls remHeld svcWaits rio str hosts
     groups}
    (h : Sized t) (hg : Holds t.groups → Holds groups) :
    Sized { t with
      agenda, cur, plan, cyc, issued, stalled, turn, tried, came, nextId, fresh, dev, mem, wgs, grids, lq, ctxs,
      classes, cores, clusters, dies, ptr, gdir, home, cuPkts, cuRejs, egress, pairs, chips, ports, fab, colls,
      remHeld, svcWaits, rio, str, hosts, groups } :=
  ⟨hg h.groups, h.str⟩

theorem Sized.withStr
    {agenda cur plan cyc issued stalled turn tried came nextId fresh dev mem wgs grids lq ctxs classes cores
     clusters dies ptr gdir home cuPkts cuRejs egress pairs chips ports fab colls remHeld svcWaits rio str hosts
     sgrp}
    (h : Sized t) (hg : Files t.sgrp → Files sgrp) :
    Sized { t with
      agenda, cur, plan, cyc, issued, stalled, turn, tried, came, nextId, fresh, dev, mem, wgs, grids, lq, ctxs,
      classes, cores, clusters, dies, ptr, gdir, home, cuPkts, cuRejs, egress, pairs, chips, ports, fab, colls,
      remHeld, svcWaits, rio, str, hosts, sgrp } :=
  ⟨h.groups, hg h.str⟩

theorem Sized.grp {k g} (h : Sized t) (e : t.grp? k = some g) : Files g := h.groups.get e

/-! ### Ops -/

theorem Sized.setCore {c v} (h : Sized t) : Sized (t.setCore c v) :=
  .frame h

theorem Sized.modCore {c f} (h : Sized t) : Sized (t.modCore c f) :=
  .setCore h

theorem Sized.setCluster {l v} (h : Sized t) : Sized (t.setCluster l v) :=
  .frame h

theorem Sized.setDie {d v} (h : Sized t) : Sized (t.setDie d v) :=
  .frame h

theorem Sized.setCtx {n v} (h : Sized t) : Sized (t.setCtx n v) :=
  .frame h

theorem Sized.modCtx {n f} (h : Sized t) : Sized (t.modCtx n f) :=
  .setCtx h

theorem Sized.setQueue {n v} (h : Sized t) : Sized (t.setQueue n v) :=
  .frame h

theorem Sized.setPort {p v} (h : Sized t) : Sized (t.setPort p v) :=
  .frame h

theorem Sized.setPair {c t2 v} (h : Sized t) : Sized (t.setPair c t2 v) :=
  .frame h

theorem Sized.setChip {c v} (h : Sized t) : Sized (t.setChip c v) :=
  .frame h

theorem Sized.setHost {f v} (h : Sized t) : Sized (t.setHost f v) :=
  .frame h

theorem Sized.setEgr {q v} (h : Sized t) : Sized (t.setEgr q v) :=
  .frame h

theorem Sized.setGrp {k g} (h : Sized t) (hg : Files g) : Sized (t.setGrp k g) :=
  .withGroups h (·.mapSet hg)

theorem Sized.modGrp {k f} (h : Sized t) (hf : ∀ g, Files g → Files (f g)) : Sized (t.modGrp k f) :=
  .withGroups h (·.mapMod hf)

theorem Sized.setWg {w v} (h : Sized t) : Sized (t.setWg w v) :=
  .frame h

theorem Sized.modWg {w f} (h : Sized t) : Sized (t.modWg w f) :=
  .frame h

theorem Sized.modDev {f} (h : Sized t) : Sized (t.modDev f) :=
  .frame h

theorem Sized.modHome {f} (h : Sized t) : Sized (t.modHome f) :=
  .frame h

theorem Sized.stall (h : Sized t) : Sized (t.stall) :=
  .frame h

theorem Sized.count {i} (h : Sized t) : Sized (t.count i) :=
  .modDev h

theorem Sized.logged {kind args} (h : Sized t) : Sized (t.logged kind args) :=
  .frame h

theorem Sized.fresh1 (h : Sized t) : SizedSnd (t.fresh1) :=
  .mk (.frame h)

theorem Sized.freeValue (h : Sized t) : SizedSnd (t.freeValue) :=
  .mk (.frame h)

theorem Sized.l1Trim {c} (h : Sized t) : Sized (t.l1Trim c) :=
  .modCore h

theorem Sized.l1Clear {c} (h : Sized t) : Sized (t.l1Clear c) :=
  .modCore h

theorem Sized.l1Drop {c line} (h : Sized t) : Sized (t.l1Drop c line) :=
  .modCore h

theorem Sized.l1Write {c a b} (h : Sized t) : Sized (t.l1Write c a b) :=
  .modCore h

theorem Sized.energy {n e} (h : Sized t) : Sized (t.energy n e) :=
  .modCtx h

theorem Sized.fillEnergy {v n2 n3} (h : Sized t) : Sized (t.fillEnergy v n2 n3) := by
  unfold State.fillEnergy
  exact .ite (.energy h) h

theorem Sized.settleCore {c} (h : Sized t) : Sized (t.settleCore c) := by
  unfold State.settleCore
  exact .modCore (.ite (.fillEnergy h) h)

theorem Sized.atLeast {t1} (h : Sized t) : Sized (t.atLeast t1) :=
  .modDev h

theorem Sized.lvOut {core} (h : Sized t) : Sized (t.lvOut core) :=
  .modCore h

theorem Sized.lvWish {core b} (h : Sized t) : Sized (t.lvWish core b) :=
  .modCore h

theorem Sized.leaveLv {core} (h : Sized t) : Sized (t.leaveLv core) := by
  unfold State.leaveLv
  exact .ite (.lvWish (.lvOut h)) h

theorem Sized.charge {c part ctx pipe cls} (h : Sized t) : Sized (t.charge c part ctx pipe cls) := by
  unfold State.charge
  exact .energy (.setCore h)

theorem Sized.divides {c part} (h : Sized t) : Sized (t.divides c part) :=
  .modCore h

theorem Sized.paid {g i} (h : Sized t) : Sized (t.paid g i) := by
  unfold State.paid
  exact .frame (.charge (.ite (.divides h) h))

theorem Sized.dropWork {n} (h : Sized t) : Sized (t.dropWork n) :=
  .withGroups h (·.mapAll fun _ _ hg => .ite (.of hg) hg)

theorem Sized.contextFault {k g t3} (h : Sized t) (hg : Files g) : Sized (t.contextFault k g t3) := by
  unfold State.contextFault
  extract_lets +onlyGivenNames s1
  split
  · exact .modCtx (.dropWork (.setGrp h (.of hg)))
  · exact .setGrp h (.of hg)

theorem Sized.trapIn {k g t3} (h : Sized t) (hg : Files g) : Sized (t.trapIn k g t3) := by
  unfold State.trapIn
  have hu : Files { g with park := 0, woken := false, parkArg := [], exiting := false, flaWait := false } := .of hg
  exact .ite (.contextFault h hu) (.ite (.contextFault h hu) (.ite (.setGrp h hu.enterHandler) (.setGrp (.setCore h) (.of hu))))

theorem Sized.dieAtFaultPoint {k g} (h : Sized t) (hg : Files g) : Sized (t.dieAtFaultPoint k g) := by
  unfold State.dieAtFaultPoint
  split
  · exact .modCtx (.ite (.trapIn h (.of hg)) (.setGrp h (.of hg)))
  · exact h

theorem Sized.takeTrap {k g t3} (h : Sized t) (hg : Files g) : Sized (t.takeTrap k g t3) := by
  unfold State.takeTrap
  split
  · exact .trapIn h hg
  · exact .setGrp h (.of hg)
  · exact .ite (.trapIn h hg) (.dieAtFaultPoint h hg)

theorem foldl_mem {α : Type} {f : Option α → α → Option α} (hf : ∀ b a, f b a = b ∨ f b a = some a) {l : List α} {b : Option α}
    {x : α} (h : l.foldl f b = some x) : b = some x ∨ x ∈ l := by
  induction l generalizing b with
  | nil => exact .inl h
  | cons a r ih =>
    rcases ih h with hx | hx
    · rcases hf b a with hb | hb
      · exact .inl (hb.symm.trans hx)
      · exact .inr (by simp [Option.some.inj (hb.symm.trans hx)])
    · exact .inr (List.mem_cons_of_mem a hx)

theorem Sized.nextWaiter {c part k g} (h : Sized t) (e : t.nextWaiter c part = some (k, g)) : Files g := by
  have hm : (k, g) ∈ t.bankWaiters c part := by
    refine (foldl_mem (fun b kv => ?_) e).resolve_left nofun
    split
    · split
      · exact .inr rfl
      · exact .inl rfl
    · exact .inr rfl
  exact h.groups _ (List.mem_filter.mp hm).1

theorem Sized.passBank {c part} (h : Sized t) : Sized (t.passBank c part) := by
  unfold State.passBank
  refine .ite h ?_
  split
  · exact h
  · next k g e =>
    have hg : Files g := h.nextWaiter e
    split
    · exact h
    · refine .ite h ?_
      split
      · exact .setGrp h hg.enterHandler
      · exact .setGrp h (.of hg)
      · exact .ite (.setGrp h hg.enterHandler) (.dieAtFaultPoint h hg)

theorem Sized.takeFault {k g f} (h : Sized t) (hg : Files g) : Sized (t.takeFault k g f) :=
  .takeTrap h (.of hg)

theorem Sized.takeParked {k} (h : Sized t) : Sized (t.takeParked k) := by
  unfold State.takeParked
  split
  · exact h
  · next e =>
    refine .ite ?_ h
    split
    · exact .ite (.takeFault h (h.grp e)) h
    · exact h

theorem Sized.recordFault {k g f} (h : Sized t) (hg : Files g) : Sized (t.recordFault k g f) :=
  .takeParked (.setGrp h (.of hg))

theorem Sized.noteIdle {l} (h : Sized t) : Sized (t.noteIdle l) := by
  unfold State.noteIdle
  exact .ite h (.setCluster h)

theorem Sized.exitWg {w v} (h : Sized t) : Sized (t.exitWg w v) := by
  unfold State.exitWg
  exact .noteIdle (.frame (.ite (.frame h) (.setWg h)))

theorem Sized.barCheck {w} (h : Sized t) : Sized (t.barCheck w) := by
  unfold State.barCheck
  split
  · exact h
  · extract_lets +onlyGivenNames ks waiting
    refine .ite h ?_
    exact .foldl (.setWg h) fun _ _ h1 => by
      split
      · next e => exact .takeParked (.setGrp h1 (.of (h1.grp e)))
      · exact h1

theorem Sized.endGroup {k g} (h : Sized t) : Sized (t.endGroup k g) := by
  unfold State.endGroup
  extract_lets s1 s2
  have h1 : Sized s1 := .modWg (.withGroups h .mapDel)
  have h2 : Sized s2 := by
    unfold s2
    split
    · exact h1
    · exact .ite (.exitWg h1) (.barCheck h1)
  exact .ite (.passBank h2) h2

/-! ### Home -/

theorem Sized.setDir {line d} (h : Sized t) : Sized (t.setDir line d) :=
  .modHome h

theorem Sized.setLine {d line st} (h : Sized t) : Sized (t.setLine d line st) := by
  unfold State.setLine
  exact .setDie h

theorem Sized.touchLine {d line stream} (h : Sized t) : Sized (t.touchLine d line stream) := by
  unfold State.touchLine
  exact .setDie h

theorem Sized.filterAdd {da rid w} (h : Sized t) : Sized (t.filterAdd da rid w) := by
  unfold State.filterAdd
  exact .modHome h

theorem Sized.filterDrop {rids} (h : Sized t) : Sized (t.filterDrop rids) :=
  .modHome h

theorem Sized.homeUse {line wr} (h : Sized t) : Sized (t.homeUse line wr) := by
  unfold State.homeUse
  exact .modHome h

theorem Sized.flushLine {line} (h : Sized t) : Sized (t.flushLine line) := by
  unfold State.flushLine
  extract_lets +onlyGivenNames mine hm s1
  have h1 : Sized s1 := .frame h
  exact .ite h1 (.homeUse h1)

theorem Sized.modReq {line f} (h : Sized t) : Sized (t.modReq line f) :=
  .modHome h

theorem Sized.landPut {p} (h : Sized t) : Sized (t.landPut p) := by
  unfold State.landPut
  extract_lets +onlyGivenNames s1 s2 s3
  have hs2 : Sized s2 := .ite (.filterAdd (.homeUse (.flushLine (.modHome h)))) (.modHome h)
  exact .modReq (.ite (.setDir hs2) hs2)

theorem Sized.putAcked {d line} (h : Sized t) : Sized (t.putAcked d line) :=
  .filterDrop (.setLine h)

theorem Sized.quiet {line} (h : Sized t) : Sized (t.quiet line) := by
  unfold State.quiet
  exact .foldl (.foldl h fun _ _ h1 => .landPut h1) fun _ _ h1 => .putAcked h1

theorem Sized.recallAll {line} (h : Sized t) : Sized (t.recallAll line) :=
  .setDir (.foldl (.flushLine h) fun _ _ h0 => .setLine h0)

theorem Sized.recall {line writer} (h : Sized t) : Sized (t.recall line writer) := by
  unfold State.recall
  extract_lets +onlyGivenNames x0
  have hx0 : Sized x0 := .flushLine (.quiet h)
  split
  · exact hx0
  · exact .recallAll hx0
  · exact .setDir (.setLine hx0)
  · extract_lets +onlyGivenNames s1
    split
    · exact .ite (.setDir (.foldl hx0 fun _ _ h2 => .setLine h2))
        (.setDir (.foldl hx0 fun _ _ h2 => .setLine h2))
    · exact .setDir (.foldl hx0 fun _ _ h2 => .setLine h2)

theorem Sized.dirRoom {line} (h : Sized t) : Sized (t.dirRoom line) := by
  unfold State.dirRoom
  refine .ite h ?_
  split
  · exact .recall h
  · exact h

theorem Sized.dieRoom {d line} (h : Sized t) : Sized (t.dieRoom d line) := by
  unfold State.dieRoom
  extract_lets +onlyGivenNames v
  refine .ite h ?_
  extract_lets +onlyGivenNames set
  refine .ite h ?_
  extract_lets +onlyGivenNames out
  split
  · exact h
  · exact .ite (.setLine (.setDir (.homeUse (.flushLine h)))) (.setLine h)

theorem Sized.takeLine {d line st stream} (h : Sized t) : Sized (t.takeLine d line st stream) :=
  .ite (.touchLine (.setLine (.dieRoom h))) h

theorem Sized.getS {d line stream} (h : Sized t) : Sized (t.getS d line stream) := by
  unfold State.getS
  extract_lets +onlyGivenNames x0
  refine .ite (.touchLine (.quiet h)) ?_
  extract_lets +onlyGivenNames s1 mon mine fresh
  have hs1 : Sized s1 := .homeUse (.dirRoom (.quiet h))
  split
  · exact .ite (.setDir (.takeLine hs1)) (.setDir (.takeLine hs1))
  · exact .ite (.setDir (.takeLine (.recallAll hs1))) (.setDir (.takeLine (.recallAll hs1)))
  · exact .setDir (.takeLine hs1)
  · exact .ite (.ite (.setDir (.takeLine (.flushLine hs1))) (.setDir (.takeLine (.flushLine hs1))))
      (.setDir (.takeLine (.setLine (.flushLine hs1))))

theorem Sized.getM {d line stream} (h : Sized t) : Sized (t.getM d line stream) := by
  unfold State.getM
  extract_lets +onlyGivenNames x0 st
  refine .ite (.touchLine (.quiet h)) ?_
  extract_lets +onlyGivenNames s1 s2
  have hs2 : Sized s2 := by
    unfold s2
    split
    · exact .homeUse (.dirRoom (.quiet h))
    · exact .homeUse (.recallAll (.dirRoom (.quiet h)))
    · exact .homeUse (.foldl (.dirRoom (.quiet h)) fun _ _ h3 => .setLine h3)
    · exact .ite (.dirRoom (.quiet h)) (.setLine (.dirRoom (.quiet h)))
  exact .ite (.setDir (.takeLine (.flushLine hs2))) (.setDir (.takeLine hs2))

theorem Sized.lineStep {line} (h : Sized t) : Sized (t.lineStep line) := by
  unfold State.lineStep
  split
  · exact h
  · refine .ite h ?_
    extract_lets +onlyGivenNames mon give
    refine .ite ?_ (.ite (.homeUse (.setDir (.modReq (.ite (.flushLine h) h))))
        (.homeUse (.setDir (.modReq (.ite (.flushLine h) h)))))
    split
    · exact .homeUse (.setDir (.modReq (.ite (.flushLine h) h)))
    · exact .homeUse (.setDir (.modReq (.ite (.flushLine h) h)))
    · exact .ite (.homeUse (.setDir (.modReq (.ite (.flushLine h) h))))
        (.homeUse (.setDir (.modReq (.ite (.flushLine h) h))))

theorem Sized.arriveSnoop {d line gone data} (h : Sized t) : Sized (t.arriveSnoop d line gone data) :=
  .modReq h

theorem Sized.invSnoop {d line} (h : Sized t) : Sized (t.invSnoop d line) := by
  unfold State.invSnoop
  refine .ite h ?_
  extract_lets +onlyGivenNames s1
  split
  · exact .setLine (.arriveSnoop h)
  · exact .setLine (.arriveSnoop h)
  · exact .setLine (.arriveSnoop h)
  · exact .arriveSnoop h

theorem Sized.recallSnoop {d line kind after} (h : Sized t) : Sized (t.recallSnoop d line kind after) := by
  unfold State.recallSnoop
  refine .ite h ?_
  split
  · exact .setLine (.arriveSnoop h)
  · exact .setLine (.arriveSnoop h)
  · exact .arriveSnoop h
  · exact .setLine (.arriveSnoop h)
  · exact .setLine (.arriveSnoop h)
  · exact .arriveSnoop h

theorem Sized.answerSnoop {d line} (h : Sized t) : Sized (t.answerSnoop d line) := by
  unfold State.answerSnoop
  exact .lineStep (.modReq (.ite (.flushLine h) h))

theorem Sized.arriveGrant {d line} (h : Sized t) : Sized (t.arriveGrant d line) := by
  unfold State.arriveGrant
  split
  · split
    · exact .ite (.modHome (.takeLine h)) h
    · exact h
  · exact h

theorem Sized.settleLine {line} (h : Sized t) : Sized (t.settleLine line) := by
  unfold State.settleLine
  split
  · exact h
  · exact .arriveGrant (.foldl (.lineStep h) fun _ _ h1 => .answerSnoop (.foldl (by
      split
      · exact .invSnoop h1
      · exact .recallSnoop h1
      · exact .recallSnoop h1) fun _ _ h3 => .landPut h3))

theorem Sized.evalMons {line} (h : Sized t) : Sized (t.evalMons line) := by
  unfold State.evalMons
  exact .modHome h

theorem Sized.homeWrite {writer a bs} (h : Sized t) : Sized (t.homeWrite writer a bs) := by
  unfold State.homeWrite
  extract_lets lines s1 s2
  have h1 : Sized s1 := .foldl h fun _ _ h => .homeUse (.recall (.settleLine h))
  have h2 : Sized s2 := .frame h1
  exact .foldl h2 fun _ _ h => .evalMons h

theorem Sized.dieWrite {d a bs stream} (h : Sized t) : Sized (t.dieWrite d a bs stream) := by
  unfold State.dieWrite
  exact .ite (.homeWrite (.getM h)) (.modHome (.getM h))

theorem Sized.l1Fill {c line} (h : Sized t) : Sized (t.l1Fill c line) :=
  .ite h (.modCore h)

/-! ### Report -/

theorem Sized.ringPost {f r} (h : Sized t) : Sized (t.ringPost f r) := by
  unfold State.ringPost
  exact .ite (.setHost h) (.setHost (.homeWrite h))

theorem Sized.post {r0} (h : Sized t) : Sized (t.post r0) := by
  unfold State.post
  exact .ite (.ringPost h) (.ite (.ringPost h) (.modDev h))

theorem Sized.postHeld (h : Sized t) : Sized (t.postHeld) :=
  .ite (.foldl (.modDev h) fun _ _ h0 => .ringPost h0) h

/-! ### Image -/

theorem Sized.writeHeader {w st} (h : Sized t) : Sized (t.writeHeader w st) :=
  .homeWrite h

theorem Sized.writeImage {wk} (h : Sized t) : Sized (t.writeImage wk) := by
  unfold State.writeImage
  split
  · exact h
  · exact .energy (.writeHeader (.homeWrite (.foldl (.homeWrite (.homeWrite (.foldl h fun _ _ h1 => by
      split
      · exact .homeWrite h1
      · exact .homeWrite (.homeWrite (.foldl (.homeWrite h1) fun _ _ h4 => .homeWrite h4))))) fun _ _ h4 =>
          .homeWrite (.homeWrite (.homeWrite h4)))))

theorem Sized.pull {wk} (h : Sized t) : Sized (t.pull wk) := by
  unfold State.pull
  split
  · exact .ite (.setWg h) h
  · exact h

theorem Sized.putNat {a n v} (h : Sized t) : Sized (t.putNat a n v) :=
  .homeWrite h

theorem Sized.push {wk} (h : Sized t) : Sized (t.push wk) := by
  unfold State.push
  split
  · exact h
  · exact .ite h (.foldl (.foldl (.putNat (.putNat h)) fun _ _ h2 => .putNat h2) fun _ _ h2 => .putNat h2)

theorem Sized.applied {wk} (h : Sized t) : Sized (t.applied wk) := by
  unfold State.applied
  split
  · exact h
  · exact .ite (.push (.setWg h)) h

theorem Sized.pushWoken {k} (h : Sized t) : Sized (t.pushWoken k) := by
  unfold State.pushWoken
  split
  · exact h
  · split
    · exact h
    · exact .ite (.putNat h) h

theorem Sized.pushHold {wk} (h : Sized t) : Sized (t.pushHold wk) := by
  unfold State.pushHold
  split
  · exact h
  · exact .ite (.putNat h) h

/-! ### Issue -/

theorem Sized.issuedUnit {u1 g} (h : Sized t) : Sized (t.issuedUnit u1 g) :=
  .paid h

/-- A unit keeps the files' sizes when its effect does: the lemma the units are proved by. -/
theorem applyEff_sized {u k g} {e : Eff} (h : Sized t) (hg : Files g) (he : SizedEff e) : Sized (applyEff u k g t e) := by
  cases he with
  | grp h1 => exact .issuedUnit (.setGrp h h1)
  | st hs => exact .issuedUnit hs
  | trap => exact .takeTrap h hg
  | wait => exact .stall h
  | waitSt hs => exact .stall hs

theorem issueGrp_sized {u eff k g} (h : Sized t) (hg : Files g) (he : ∀ m, SizedEff (eff t k m g (u.past g))) : Sized
    (issueGrp u eff k g t) := by
  unfold issueGrp
  split
  · exact .stall h
  · split
    · exact .dieAtFaultPoint h hg
    · split
      · exact .ite (.takeFault h hg) (.stall h)
      · extract_lets +onlyGivenNames e
        have hk : Sized (applyEff u k g t e) := applyEff_sized h hg (he _)
        split
        · exact .stall h
        · split
          · exact .contextFault h hg
          · split
            · exact .takeTrap h hg
            · split
              · exact .takeTrap h hg
              · exact hk

theorem Sized.stratusTrap {t1} (h : Sized t) : Sized (t.stratusTrap t1) := by
  unfold State.stratusTrap
  extract_lets g
  split
  · exact .post (.modDev (.withStr h fun hg => ⟨hg.s, hg.p, rfl⟩))
  · exact .withStr h fun hg => ⟨hg.s, hg.p, rfl⟩

theorem issueStr_sized {u eff} (h : Sized t) (he : ∀ k m g g1, Files g → Files g1 → SizedEff (eff t k m g g1)) : Sized
    (issueStr u eff t) := by
  unfold issueStr
  extract_lets +onlyGivenNames g
  split
  · exact .stall h
  · split
    · exact .stall h
    · split
      · exact .stratusTrap h
      · extract_lets past
        have hp := he 0 allOnes g past h.str (.of h.str)
        split
        · next e => exact .withStr h fun _ => SizedEff.of_grp (e ▸ hp)
        · next e => exact SizedEff.of_st (e ▸ hp)
        · exact .stratusTrap h
        · exact .stall h
        · next e => exact .stall (SizedEff.of_waitSt (e ▸ hp))

theorem issue2_sized {u eff str} (h : Sized t) (he : ∀ k m g g1, Files g → Files g1 → SizedEff (eff t k m g g1))
    (hs : ∀ k m g g1, Files g → Files g1 → SizedEff (str t k m g g1)) : SizedOut (issue2 u eff str t) := by
  unfold issue2
  refine .next ?_
  split
  · exact issueStr_sized h hs
  · split
    · next e => exact issueGrp_sized h (h.grp e) fun _ => he _ _ _ _ (h.grp e) (h.grp e).past
    · exact .stall h

theorem issue_sized {u eff} (h : Sized t) (he : ∀ k m g g1, Files g → Files g1 → SizedEff (eff t k m g g1)) : SizedOut
    (issue u eff t) :=
  issue2_sized h he he

/-! ### Fabric -/

theorem Sized.putOnRail {p avoid} (h : Sized t) : SizedSnd (t.putOnRail p avoid) := by
  unfold State.putOnRail
  split
  · exact .mk h
  · exact .mk (.setPort (.frame h))

theorem Sized.flitEnergy {ctx p} (h : Sized t) : Sized (t.flitEnergy ctx p) := by
  unfold State.flitEnergy
  split
  · exact .energy h
  · exact h

theorem Sized.fabDrain {l} (h : Sized t) : Sized (t.fabDrain l) := by
  induction l generalizing t with
  | nil => exact h
  | cons e r ih =>
    unfold State.fabDrain
    extract_lets +onlyGivenNames p k un
    split
    · exact .frame (ih h)
    · exact ih (.frame (.putOnRail (.flitEnergy h)))

theorem Sized.fabSend {ctx p} (h : Sized t) : Sized (t.fabSend ctx p) :=
  .fabDrain (.frame h)

theorem Sized.fabAck {p} (h : Sized t) : Sized (t.fabAck p) := by
  unfold State.fabAck
  exact .putOnRail (.flitEnergy h)

/-! ### Atom -/

theorem Sized.syncDirty {d} (h : Sized t) : Sized (t.syncDirty d) :=
  .withGroups h (·.mapAll fun _ _ hg => .ite (.of hg) hg)

theorem Sized.egressAppend {src bit peer e} (h : Sized t) : Sized (t.egressAppend src bit peer e) := by
  unfold State.egressAppend
  extract_lets +onlyGivenNames refuse slot slot'
  clear_value slot'
  split
  · exact .frame h
  · exact .ite (.frame h) (.ite (.frame (.setEgr h)) (.homeWrite (.setEgr h)))

theorem Sized.sendEntries {d peer base l} (h : Sized t) : SizedSnd (t.sendEntries d peer base l) := by
  induction l generalizing t base with
  | nil => exact h
  | cons es r ih => exact ih (.fabSend (.fresh1 h))

theorem Sized.cuSend {d b peer ents} (h : Sized t) : Sized (t.cuSend d b peer ents) := by
  have hp : SizedSnd (if b < 32 then (([] : List Nat), t.fresh1.2) else t.fresh1.2.sendEntries d peer 0
      (cuParts 40 ents)) := by
    split
    · exact .mk (.fresh1 h)
    · exact Sized.sendEntries (.fresh1 h)
  exact .frame hp

theorem Sized.cuLeave {d b} (h : Sized t) : Sized (t.cuLeave d b) := by
  unfold State.cuLeave
  split
  · exact h
  · exact .ite (.setDie h) (.ite (.syncDirty (.foldl (.setDie h) fun _ _ h1 => .egressAppend h1))
      (.cuSend (.setDie h)))

theorem Sized.cuFlush {g} (h : Sized t) : Sized (t.cuFlush g) :=
  .foldl h fun _ _ h0 => .ite (.cuLeave h0) h0

theorem Sized.peerBuf {d peer} (h : Sized t) : SizedSnd (t.peerBuf d peer) := by
  unfold State.peerBuf
  extract_lets +onlyGivenNames bufs
  split
  · exact .mk h
  · split
    · exact .mk h
    · exact .mk (.cuLeave h)

theorem Sized.cuAccept {d peer need x} (h : Sized t) : Sized (t.cuAccept d peer need x) := by
  let p : Nat × State := match peer with
    | some q => t.peerBuf d q
    | none => (homeDie t.dev.memOpen x.word, t)
  have hp : SizedSnd p := by
    unfold p
    split
    · exact Sized.peerBuf h
    · exact .mk h
  exact .syncDirty (.ite (.cuLeave (.setDie (.fresh1 (.ite (.cuLeave hp) hp))))
      (.setDie (.fresh1 (.ite (.cuLeave hp) hp))))

/-! ### Control -/

theorem passEff_sized {x1 x2 x3 g1} (h1 : Files g1) : SizedEff (passEff t x1 x2 x3 g1) :=
  .grp h1

theorem execNop_sized (h : Sized t) : SizedOut (execNop t) :=
  issue_sized h fun _ _ _ _ _ h1 => passEff_sized h1

theorem exitEff_sized {k x2 g x4} (h : Sized t) (hg : Files g) : SizedEff (exitEff t k x2 g x4) :=
  .ite (.waitSt (.modGrp h fun _ hg => .of hg)) (.ite (.waitSt (.modGrp (.cuFlush h) fun _ hg => .of hg))
      (.ite (.st (.takeTrap h (.ite (.of hg) (.of hg)))) (.st (.endGroup h))))

theorem execExit_sized (h : Sized t) : SizedOut (execExit t) :=
  issue_sized h fun _ _ _ _ hg _ => exitEff_sized h hg

theorem trapEff_sized {u0 cause n x4 x5 g g1} : SizedEff (trapEff u0 cause n t x4 x5 g g1) :=
  .trap

theorem execTrap_sized {n} (h : Sized t) : SizedOut (execTrap n t) := by
  unfold execTrap
  exact issue_sized h fun _ _ _ _ hg h1 => trapEff_sized

theorem execBrk_sized {n} (h : Sized t) : SizedOut (execBrk n t) := by
  unfold execBrk
  exact issue_sized h fun _ _ _ _ hg h1 => trapEff_sized

theorem rteEff_sized {u0 k x3 g x5} (h : Sized t) (hg : Files g) : SizedEff (rteEff u0 t k x3 g x5) :=
  .ite .trap (.ite (.st (.contextFault h hg)) (.st (.passBank (.setGrp h hg.leaveHandler))))

theorem rteStr_sized {u0 x2 x3 g x5} (hg : Files g) : SizedEff (rteStr u0 t x2 x3 g x5) :=
  .ite .trap (.ite .trap (.grp hg.leaveHandler))

theorem execRte_sized (h : Sized t) : SizedOut (execRte t) := by
  unfold execRte
  exact issue2_sized h (fun _ _ _ _ hg _ => rteEff_sized h hg) fun _ _ _ _ hg _ => rteStr_sized hg

theorem execYield_sized (h : Sized t) : SizedOut (execYield t) :=
  issue2_sized h (fun _ _ _ _ _ h1 => .grp (.of h1)) fun _ _ _ _ _ h1 => passEff_sized h1

theorem Sized.startStack {k g pos dir stk} (h : Sized t) (hg : Files g) : Sized (t.startStack k g pos dir stk) :=
  .setGrp h (.of hg)

theorem retEff_sized {u0 k m g g1} (h : Sized t) (hg : Files g) (h1 : Files g1) : SizedEff (retEff u0 t k m g g1) := by
  unfold retEff
  split
  · exact .ite (.grp (.setWb (.of h1))) .trap
  · exact .ite (exitEff_sized h hg) (.waitSt (.startStack h hg))

theorem retStr_sized {u0 x2 x3 g g1} (h1 : Files g1) : SizedEff (retStr u0 t x2 x3 g g1) := by
  unfold retStr
  split
  · exact .grp (.of h1)
  · exact .trap

theorem execRet_sized (h : Sized t) : SizedOut (execRet t) := by
  unfold execRet
  exact issue2_sized h (fun _ _ _ _ hg h1 => retEff_sized h hg h1) fun _ _ _ _ hg h1 => retStr_sized h1

theorem spfTrap_sized {u0 g} : SizedEff (spfTrap u0 g) :=
  .trap

theorem winbEff_sized {u0 m x3 x4 g g1} (h1 : Files g1) : SizedEff (winbEff u0 m t x3 x4 g g1) :=
  .ite (.grp h1.setWb) spfTrap_sized

theorem execWinb_sized {m} (h : Sized t) : SizedOut (execWinb m t) := by
  unfold execWinb
  exact issue_sized h fun _ _ _ _ hg h1 => winbEff_sized h1

theorem vsyncEff_sized {u0 k x3 g g1} (h : Sized t) (hg : Files g) (h1 : Files g1) : SizedEff (vsyncEff u0 t k x3 g g1) := by
  unfold vsyncEff
  split
  · exact .grp (.of h1)
  · exact .ite .trap (.waitSt (.startStack h hg))

theorem execVsync_sized (h : Sized t) : SizedOut (execVsync t) := by
  unfold execVsync
  exact issue_sized h fun _ _ _ _ hg h1 => vsyncEff_sized h hg h1

theorem sleepEff_sized {a x2 x3 g g1} (h1 : Files g1) : SizedEff (sleepEff a t x2 x3 g g1) := by
  unfold sleepEff
  exact .ite (.grp h1) (.grp (.of h1))

theorem sleepStr_sized {a x2 x3 g g1} (h : Sized t) (h1 : Files g1) : SizedEff (sleepStr a t x2 x3 g g1) :=
  .st (.withStr h fun _ => h1)

theorem execSleep_sized {a} (h : Sized t) : SizedOut (execSleep a t) :=
  issue2_sized h (fun _ _ _ _ _ h1 => sleepEff_sized h1) fun _ _ _ _ _ h1 => sleepStr_sized h h1

theorem qcfgEff_sized {q d x3 x4 g g1} (h1 : Files g1) : SizedEff (qcfgEff q d t x3 x4 g g1) :=
  .ite .trap (.grp (.kick (.of h1)))

theorem execQcfg_sized {q n} (h : Sized t) : SizedOut (execQcfg q n t) :=
  issue_sized h fun _ _ _ _ _ h1 => qcfgEff_sized h1

theorem qrstEff_sized {a x2 x3 g g1} (h1 : Files g1) : SizedEff (qrstEff a t x2 x3 g g1) :=
  .grp (.of h1)

theorem execQrst_sized {a} (h : Sized t) : SizedOut (execQrst a t) :=
  issue_sized h fun _ _ _ _ _ h1 => qrstEff_sized h1

theorem execSetfmt_sized {i} (h : Sized t) : SizedOut (execSetfmt i t) :=
  issue_sized h fun _ _ _ _ _ h1 => .grp (.of h1)

theorem execSetmode_sized {i} (h : Sized t) : SizedOut (execSetmode i t) :=
  issue_sized h fun _ _ _ _ _ h1 => .grp (.of h1)

theorem branchEff_sized {o c x3 x4 g g1} (h1 : Files g1) : SizedEff (branchEff o c t x3 x4 g g1) :=
  .grp (.ite (.of h1) h1)

theorem execBra_sized {o} (h : Sized t) : SizedOut (execBra o t) :=
  issue_sized h fun _ _ _ _ _ h1 => branchEff_sized h1

theorem execBz_sized {a o} (h : Sized t) : SizedOut (execBz a o t) :=
  issue_sized h fun _ _ _ _ _ h1 => branchEff_sized h1

theorem execBnz_sized {a o} (h : Sized t) : SizedOut (execBnz a o t) :=
  issue_sized h fun _ _ _ _ _ h1 => branchEff_sized h1

theorem execBltz_sized {a o} (h : Sized t) : SizedOut (execBltz a o t) :=
  issue_sized h fun _ _ _ _ _ h1 => branchEff_sized h1

theorem execBgez_sized {a o} (h : Sized t) : SizedOut (execBgez a o t) :=
  issue_sized h fun _ _ _ _ _ h1 => branchEff_sized h1

theorem callEff_sized {u0 f8 target k x5 g g1} (h : Sized t) (hg : Files g) (h1 : Files g1) : SizedEff
    (callEff u0 f8 target t k x5 g g1) := by
  unfold callEff
  exact .ite .trap (.ite spfTrap_sized (.ite (.waitSt (.startStack h hg)) (.grp (.setWb (.of h1)))))

theorem callStr_sized {u0 f8 target x4 x5 g g1} (h1 : Files g1) : SizedEff (callStr u0 f8 target t x4 x5 g g1) := by
  unfold callStr
  exact .ite .trap (.ite .trap (.ite .trap (.grp (.of h1))))

theorem execCall_sized {f o} (h : Sized t) : SizedOut (execCall f o t) := by
  unfold execCall
  exact issue2_sized h (fun _ _ _ _ hg h1 => callEff_sized h hg h1) fun _ _ _ _ hg h1 => callStr_sized h1

theorem execCalli_sized {a f} (h : Sized t) : SizedOut (execCalli a f t) := by
  unfold execCalli
  exact issue2_sized h (fun _ _ _ _ hg h1 => callEff_sized h hg h1) fun _ _ _ _ hg h1 => callStr_sized h1

theorem jmpiEff_sized {u0 a x3 x4 g g1} (h1 : Files g1) : SizedEff (jmpiEff u0 a t x3 x4 g g1) :=
  .ite .trap (.grp (.of h1))

theorem execJmpi_sized {a} (h : Sized t) : SizedOut (execJmpi a t) := by
  unfold execJmpi
  exact issue_sized h fun _ _ _ _ hg h1 => jmpiEff_sized h1

theorem pushRec_sized {u0 k g g1 e} (h : Sized t) (hg : Files g) (h1 : Files g1) : SizedEff (pushRec u0 t k g g1 e) :=
  .ite spfTrap_sized (.ite (.waitSt (.startStack h hg)) (.grp (.of h1)))

theorem vbrEff_sized {u0 p neg o k x6 g g1} (h : Sized t) (hg : Files g) (h1 : Files g1) :
    SizedEff (vbrEff u0 p neg o t k x6 g g1) := by
  unfold vbrEff
  exact .ite (.grp h1) (.ite (.grp (.of h1)) (pushRec_sized h hg (.of h1)))

theorem execVbr_sized {p neg o} (h : Sized t) : SizedOut (execVbr p neg o t) := by
  unfold execVbr
  exact issue_sized h fun _ _ _ _ hg h1 => vbrEff_sized h hg h1

theorem execVbrall_sized {p neg o} (h : Sized t) : SizedOut (execVbrall p neg o t) :=
  issue_sized h fun _ _ _ _ _ h1 => .grp (.ite (.of h1) h1)

theorem execVbrany_sized {p neg o} (h : Sized t) : SizedOut (execVbrany p neg o t) :=
  issue_sized h fun _ _ _ _ _ h1 => .grp (.ite (.of h1) h1)

theorem vjoinEff_sized {u0 o k x4 g g1} (h : Sized t) (hg : Files g) (h1 : Files g1) : SizedEff (vjoinEff u0 o t k x4 g g1) :=
  pushRec_sized h hg h1

theorem execVjoin_sized {o} (h : Sized t) : SizedOut (execVjoin o t) := by
  unfold execVjoin
  exact issue_sized h fun _ _ _ _ hg h1 => vjoinEff_sized h hg h1

/-! ### Translate -/

theorem Sized.modTr {u1 f} (h : Sized t) : Sized (t.modTr u1 f) :=
  .ite (.modCore h) (.frame h)

theorem Sized.startWalk {x va} (h : Sized t) : Sized (t.startWalk x va) := by
  unfold State.startWalk
  split
  · exact h
  · exact .modTr h

theorem Sized.openService {ctx obj sub src wr unit va} (h : Sized t) : Sized
    (t.openService ctx obj sub src wr unit va) :=
  .modCtx h

/-! ### Remote -/

theorem Sized.sendPart {k key p ls} (h : SizedFst p) : SizedFst (State.sendPart k key p ls) :=
  .mk (.fabSend (.fresh1 h))

theorem Sized.sendReqs {k o l} (h : Sized t) : SizedFst (t.sendReqs k o l) := by
  induction l generalizing t o with
  | nil => exact h
  | cons key r ih => exact ih (SizedFst.foldl h fun _ _ => .sendPart)

theorem Sized.sendRemote {k o} (h : Sized t) : SizedFst (t.sendRemote k o) :=
  Sized.sendReqs h

/-! ### Span -/

theorem Sized.parkOn {p ctx obj sub src wr unit va} (h : Sized t) : Sized
    (t.parkOn p ctx obj sub src wr unit va) := by
  unfold State.parkOn
  exact .frame (.openService h)

theorem Sized.release {p} (h : Sized t) : Sized (t.release p) :=
  .frame h

theorem Sized.spanWrite {ps bs} (h : Sized t) : Sized (t.spanWrite ps bs) :=
  .foldl h fun _ _ h0 => .homeWrite h0

theorem Sized.spanEnergy {n ps} (h : Sized t) : Sized (t.spanEnergy n ps) :=
  .energy h

theorem Sized.runReq {ctx req type op r bs} (h : Sized t) : SizedSnd (t.runReq ctx req type op r bs) :=
  .mk (.fabSend (.fresh1 h))

theorem Sized.askRun {p ctx wr bs r} (h : Sized t) : Sized (t.askRun p ctx wr bs r) :=
  .ite h (.frame (.runReq h))

theorem Sized.runsDone {p ctx wr bs runs} (h : Sized t) : SizedIo (t.runsDone p ctx wr bs runs) := by
  unfold State.runsDone
  split
  · exact .bad
  · split
    · exact .ok
    · exact .wait (.foldl h fun _ _ h0 => .askRun h0)

theorem Sized.spanIn {p ctx ps} (h : Sized t) : SizedIo (t.spanIn p ctx ps) := by
  unfold State.spanIn
  extract_lets +onlyGivenNames runs
  split
  · exact .ok
  · exact Sized.runsDone h

theorem Sized.spanOut {p ctx ps bs} (h : Sized t) : SizedIo (t.spanOut p ctx ps bs) :=
  Sized.runsDone h

theorem Sized.respIo {n cause why obj data} (h : Sized t) : Sized (t.respIo n cause why obj data) :=
  .frame h

/-! ### Access -/

theorem Sized.acceptElem {k g o op a e} (h : Sized t) : Sized (t.acceptElem k g o op a e) := by
  unfold State.acceptElem
  extract_lets +onlyGivenNames base
  split
  · exact .cuAccept (.l1Drop h)
  · exact .cuAccept h
  · exact h

theorem Sized.acceptAll {k g o op} (h : Sized t) : Sized (t.acceptAll k g o op) :=
  .foldl h fun _ _ h0 => .foldl h0 fun _ _ h1 => .acceptElem h1

theorem Sized.acceptOp {k g o op} (h : Sized t) : Sized (t.acceptOp k g o op) :=
  .ite (.modGrp (.acceptAll h) fun _ hg => .of hg) h

theorem Sized.launchOp {k o} (h : Sized t) : Sized (t.launchOp k o) := by
  unfold State.launchOp
  split
  · exact h
  · split
    · exact .acceptOp h
    · exact .ite (.modGrp (.sendRemote h) fun _ hg => .of hg) h

theorem Sized.addOps {k l} (h : Sized t) : Sized (t.addOps k l) := by
  induction l generalizing t with
  | nil => exact h
  | cons o r ih =>
    unfold State.addOps
    split
    · exact h
    · next e =>
      have hg := h.grp e
      extract_lets +onlyGivenNames later
      split
      · exact .recordFault h (.of hg)
      · exact ih (.launchOp (.setGrp h (.of hg)))
      · exact .setGrp (.openService h) (.of hg)
      · exact .setGrp h (.of hg)

theorem Sized.useCaches {g o} (h : Sized t) : Sized (t.useCaches g o) :=
  .foldl h fun _ _ h0 => .startWalk h0

theorem Sized.issueOps {k g1 n mk} (h : Sized t) (h1 : Files g1) : Sized (t.issueOps k g1 n mk) := by
  unfold State.issueOps
  exact .addOps (.foldl (.setGrp (.frame h) h1) fun _ _ h1 => .useCaches h1)

theorem Sized.prepLine {c d mode line} (h : Sized t) : Sized (t.prepLine c d mode line) := by
  unfold State.prepLine
  split
  · exact .ite h (.l1Fill (.getS h))
  · exact .l1Drop (.getS h)
  · exact .ite h (.getS h)

theorem Sized.storeRun {g mode a bs} (h : Sized t) : Sized (t.storeRun g mode a bs) := by
  unfold State.storeRun
  exact .ite (.l1Drop (.dieWrite h)) (.foldl (.dieWrite h) fun _ _ h1 => .l1Write h1)

theorem Sized.storeLane {g mode ps bs} (h : Sized t) : Sized (t.storeLane g mode ps bs) := by
  unfold State.storeLane
  exact .foldl (.modWg h) fun _ _ h1 => .storeRun h1

theorem Sized.storeLanes {g o} (h : Sized t) : Sized (t.storeLanes g o) :=
  .foldl h fun _ _ h0 => .storeLane h0

theorem Sized.wgmAtomic {g a cas} (h : Sized t) : SizedSnd (t.wgmAtomic g a cas) := by
  unfold State.wgmAtomic
  split
  · exact .mk (.setWg h)
  · exact .mk h

theorem Sized.wgmLanes {g cas l} (h : Sized t) : SizedSnd (t.wgmLanes g cas l) := by
  induction l generalizing t with
  | nil => exact h
  | cons a r ih => exact ih (.wgmAtomic h)

theorem Sized.served {g o held} (h : Sized t) : Sized (t.served g o held) := by
  unfold State.served
  exact .energy h

theorem Sized.returnLoad {k g o} (h : Sized t) (hg : Files g) : Sized (t.returnLoad k g o) := by
  unfold State.returnLoad
  refine .ite h ?_
  refine .ite (.cuFlush h) ?_
  extract_lets +onlyGivenNames s1
  have hs1 : Sized s1 := .foldl (.served h) fun _ _ h1 => .prepLine h1
  exact .setGrp (by
    refine .ite ?_ ?_
    · exact .l1Clear (by
        split
        · exact .wgmLanes hs1
        · exact .wgmLanes hs1
        · exact hs1
        · exact hs1)
    · split
      · exact .wgmLanes hs1
      · exact .wgmLanes hs1
      · exact hs1
      · exact hs1) hg.writeWords.finishOp

theorem Sized.performStore {k g o} (h : Sized t) : Sized (t.performStore k g o) :=
  .ite h (.ite (.cuFlush h) (.modGrp (.storeLanes (.served h)) fun _ hg => .of hg))

theorem Sized.retryOp {k g o} (h : Sized t) (hg : Files g) : Sized (t.retryOp k g o) := by
  unfold State.retryOp
  extract_lets +onlyGivenNames g0 still fault
  split
  · exact .recordFault h hg.endUnit
  · split
    · exact .recordFault h hg.endUnit
    · exact .modGrp (.launchOp (.setGrp (.useCaches h) hg.modOp)) fun _ hg => .of hg
    · exact .setGrp (.openService h) (.of hg)
    · exact .setGrp h (.of hg)

/-! ### LoadStore -/

theorem loadUnit_sized {maj fn size n sx x m} (h : Sized t) : SizedOut (loadUnit maj fn size n sx x m t) :=
  issue_sized h fun _ _ _ _ _ h1 => .ite .wait (.st (.issueOps h h1))

theorem execLdm_sized {x m} (h : Sized t) : SizedOut (execLdm x m t) := by
  unfold execLdm
  exact issue_sized h fun _ _ _ _ hg h1 => .ite .wait (.st (.issueOps h h1))

theorem storeUnit_sized {maj fn size x m} (h : Sized t) : SizedOut (storeUnit maj fn size x m t) :=
  issue_sized h fun _ _ _ _ _ h1 => .ite .wait (.st (.issueOps h h1))

theorem execStm_sized {x m} (h : Sized t) : SizedOut (execStm x m t) := by
  unfold execStm
  exact issue_sized h fun _ _ _ _ hg h1 => .ite .wait (.st (.issueOps h h1))

theorem staUnit_sized {fn size x m} (h : Sized t) : SizedOut (staUnit fn size x m t) :=
  issue_sized h fun _ _ _ _ _ h1 => .ite .wait (.st (.issueOps h h1))

theorem wgmAtomUnit_sized {fn n kind x m} (h : Sized t) : SizedOut (wgmAtomUnit fn n kind x m t) := by
  unfold wgmAtomUnit
  exact issue_sized h fun _ _ _ _ hg h1 => .ite .wait (.st (.issueOps h h1))

theorem execWait_sized {ld st tl mx} (h : Sized t) : SizedOut (execWait ld st tl mx t) :=
  issue_sized h fun _ _ _ _ _ h1 => .ite (.grp h1) .wait

theorem execWaitr_sized {p a} (h : Sized t) : SizedOut (execWaitr p a t) :=
  issue_sized h fun _ _ _ _ _ h1 => .ite (.grp h1) .wait

theorem execCinv_sized {a} (h : Sized t) : SizedOut (execCinv a t) :=
  issue2_sized h (fun _ _ _ _ _ h1 => by
    extract_lets +onlyGivenNames s1
    have hs : Sized s1 := .setGrp h h1
    refine .ite (.st (.l1Clear hs)) ?_
    split
    · exact .st (.l1Drop hs)
    · exact .st hs) fun _ _ _ _ _ h1 => passEff_sized h1

theorem execCwb_sized {a} (h : Sized t) : SizedOut (execCwb a t) :=
  issue2_sized h (fun _ _ _ _ _ h1 => by
    extract_lets +onlyGivenNames s1
    have hs : Sized s1 := .setGrp h h1
    split
    · exact .ite (.st (.setLine (.flushLine hs))) (.st hs)
    · exact .st hs) fun _ _ _ _ _ h1 => passEff_sized h1

theorem execCrsz_sized {d a} (h : Sized t) : SizedOut (execCrsz d a t) :=
  issue_sized h fun _ _ _ _ _ h1 => .ite .wait (.st (.setGrp (.frame h) (.of h1)))

theorem execPref_sized {a l} (h : Sized t) : SizedOut (execPref a l t) :=
  issue2_sized h (fun _ _ _ _ _ h1 => by
    extract_lets +onlyGivenNames s1
    have hs : Sized s1 := .setGrp h h1
    split
    · refine .ite ?_ .wait
      extract_lets +onlyGivenNames s2
      have hs2 : Sized s2 := .ite (.energy hs) hs
      exact .st (.ite (.l1Fill (.getS hs2)) (.getS hs2))
    · exact .st hs) fun _ _ _ _ _ h1 => passEff_sized h1

/-! ### Atomics -/

theorem atomUnit_sized {n x d a b scope} (h : Sized t) : SizedOut (atomUnit n x d a b scope t) := by
  unfold atomUnit
  exact issue_sized h fun _ _ _ _ hg h1 => .ite .wait (.st (.issueOps h h1))

theorem redUnit_sized {n x agg a b scope} (h : Sized t) : SizedOut (redUnit n x agg a b scope t) := by
  unfold redUnit
  exact issue_sized h fun _ _ _ _ hg h1 => .ite .wait (.st (.issueOps h h1))

theorem Sized.homeAtomic {rid da op b c} (h : Sized t) : SizedSnd (t.homeAtomic rid da op b c) := by
  unfold State.homeAtomic
  exact .mk (.filterAdd (.homeWrite (.recall h)))

theorem Sized.atomLane {k g o lane} (h : Sized t) : Sized (t.atomLane k g o lane) := by
  unfold State.atomLane
  split
  · exact h
  · split
    · extract_lets +onlyGivenNames op earlier
      clear_value op
      split
      · exact h
      · exact .ite h (.ite (.cuFlush h) (.modGrp (.l1Drop (.energy (.homeAtomic h))) fun _ hg => .of hg))
    · exact h

theorem Sized.returnAtom {k g o} (h : Sized t) (hg : Files g) : Sized (t.returnAtom k g o) :=
  .ite h (.setGrp (.filterDrop (.ite (.l1Clear h) h)) hg.writeWords.finishOp)

theorem Sized.doneRed {k g o} (h : Sized t) (hg : Files g) : Sized (t.doneRed k g o) :=
  .ite h (.setGrp (.filterDrop h) hg.finishOp)

theorem execAtomicPerform_sized {k op lane} (h : Sized t) : SizedOut (execAtomicPerform k op lane t) :=
  .next (by
    split
    · split
      · exact .atomLane h
      · exact h
    · exact h)

/-! ### Router -/

theorem Sized.putFlit {c t2 vc bands p} (h : Sized t) : Sized (t.putFlit c t2 vc bands p) := by
  unfold State.putFlit
  exact .setPair h

theorem Sized.pump {c d vcs n} (h : Sized t) : Sized (t.pump c d vcs n) := by
  induction n generalizing t with
  | zero => exact h
  | succ n ih =>
    unfold State.pump
    split
    · exact h
    · exact ih (.putFlit (.setPair h))

theorem Sized.pumpAll (h : Sized t) : Sized (t.pumpAll) := by
  unfold State.pumpAll
  exact .foldl (.foldl h fun _ _ h0 => .ite h0 (.pump h0)) fun _ _ h0 => .ite h0 (.pump h0)

theorem Sized.wakeIf {c t2} (h : Sized t) : Sized (t.wakeIf c t2) := by
  unfold State.wakeIf
  exact .ite (.setPair h) h

theorem Sized.sendPkt {p} (h : Sized t) : Sized (t.sendPkt p) := by
  unfold State.sendPkt
  refine .ite h ?_
  extract_lets +onlyGivenNames v p1 new s1
  have hs1 : Sized s1 := .wakeIf (.setPair h)
  exact .pump (.ite (.logged hs1) hs1)

theorem Sized.resend {l} (h : Sized t) : Sized (t.resend l) := by
  unfold State.resend
  exact .foldl (.foldl h fun _ _ h1 => .setPair h1) fun _ _ h1 => .logged h1

theorem Sized.giveUp {c t2} (h : Sized t) : Sized (t.giveUp c t2) := by
  unfold State.giveUp
  exact .pumpAll (.resend (.setPair (.frame h)))

theorem Sized.cutOff {x} (h : Sized t) : Sized (t.cutOff x) := by
  unfold State.cutOff
  exact .pumpAll (.resend (.frame h))

/-! ### ObjUnits -/

theorem execLdo_sized {x d a b} (h : Sized t) : SizedOut (execLdo x d a b t) :=
  issue_sized h fun _ _ _ _ _ h1 => .ite .wait (.st (.issueOps h h1))

theorem execSto_sized {x d a b} (h : Sized t) : SizedOut (execSto x d a b t) :=
  issue_sized h fun _ _ _ _ _ h1 => .ite .wait (.st (.issueOps h h1))

theorem execLdob_sized {x d a b} (h : Sized t) : SizedOut (execLdob x d a b t) := by
  unfold execLdob
  exact issue_sized h fun _ _ _ _ hg h1 => .ite .wait (.st (.issueOps h h1))

theorem execStob_sized {x d a b} (h : Sized t) : SizedOut (execStob x d a b t) := by
  unfold execStob
  exact issue_sized h fun _ _ _ _ hg h1 => .ite .wait (.st (.issueOps h h1))

theorem execOinfo_sized {x d a n} (h : Sized t) : SizedOut (execOinfo x d a n t) :=
  issue_sized h fun _ _ _ _ _ h1 => .st (.setGrp (.startWalk (.frame h)) (.of h1))

theorem execOprobe_sized {x d a b} (h : Sized t) : SizedOut (execOprobe x d a b t) :=
  issue_sized h fun _ _ _ _ _ h1 => .grp h1.writePBits

/-! ### Fences -/

theorem aggTrap_files {g g' : Group} {x} (hg : Files g) (e : t.aggTrap g = some (g', x)) : Files g' := by
  unfold State.aggTrap at e
  split_ifs at e
  · cases e; exact .of hg
  · cases e; exact .of hg

theorem passOrAgg_sized {k g after} (h : Sized t) (hg : Files g) (ha : Sized after) : SizedEff
    (passOrAgg t k g after) := by
  unfold passOrAgg
  split
  · next e => exact .st (.takeTrap h (aggTrap_files hg e))
  · exact .st ha

theorem execFence_sized {kind scope} (h : Sized t) : SizedOut (execFence kind scope t) :=
  issue2_sized h (fun _ _ _ _ hg h1 => .ite .wait (.ite .wait (.ite (.waitSt (.cuFlush h))
      (passOrAgg_sized h hg (.ite (.l1Clear (.setGrp h h1)) (.setGrp h h1)))))) fun _ _ _ _ _ h1 => passEff_sized h1

theorem execPfence_sized {p t1} (h : Sized t) : SizedOut (execPfence p t1 t) :=
  issue2_sized h (fun _ _ _ _ _ h1 => .ite (.grp h1) .wait) fun _ _ _ _ _ h1 => passEff_sized h1

theorem execFla_sized (h : Sized t) : SizedOut (execFla t) := by
  unfold execFla
  exact issue2_sized h (fun _ _ _ _ hg h1 => .ite (.waitSt (.modGrp (.cuFlush h) fun _ hg => .of hg))
      (.ite (.waitSt (.modGrp h fun _ hg => .of hg)) (passOrAgg_sized h (.of hg) (.setGrp h (.of h1)))))
      fun _ _ _ _ _ h1 => passEff_sized h1

theorem Sized.monStatus {k st} (h : Sized t) : Sized (t.monStatus k st) :=
  .modHome h

theorem Sized.armAt {k n da via cmp v deadline} (h : Sized t) : Sized
    (t.armAt k n da via cmp v deadline) := by
  unfold State.armAt
  extract_lets +onlyGivenNames s0
  have hs0 : Sized s0 := .quiet (.settleLine h)
  refine .ite (.monStatus hs0) ?_
  extract_lets +onlyGivenNames slice mine s1 line s2
  have hs1 : Sized s1 := by
    unfold s1
    refine .ite hs0 ?_
    split
    · exact .monStatus (.modHome hs0)
    · exact hs0
  exact .modHome (.fresh1 (by
    refine .ite hs1 ?_
    split
    · exact .setDir (.setLine (.homeUse (.flushLine hs1)))
    · exact .recallAll hs1
    · exact hs1))

theorem Sized.armMon {k g da via cmp v deadline} (h : Sized t) : Sized
    (t.armMon k g da via cmp v deadline) :=
  .armAt (.l1Drop h)

theorem Sized.mwaitGo {k g o places} (h : Sized t) (hg : Files g) : Sized (t.mwaitGo k g o places) := by
  unfold State.mwaitGo
  extract_lets +onlyGivenNames s1
  have hs : Sized s1 := .setGrp h hg.finishOp
  split
  · exact .armMon hs
  · exact .ite (.recordFault hs (.of hg)) (.fabSend (.modGrp (.fresh1 hs) fun _ hg => .of hg))
  · exact .monStatus hs

theorem Sized.mwaitTry {k g o} (h : Sized t) (hg : Files g) : Sized (t.mwaitTry k g o) := by
  unfold State.mwaitTry
  split
  · exact .recordFault h (.of hg)
  · exact .mwaitGo h hg
  · exact .setGrp (.openService h) (.of hg)
  · exact .setGrp h (.of hg)

theorem execMwait_sized {y d a b} (h : Sized t) : SizedOut (execMwait y d a b t) := by
  unfold execMwait
  exact issue_sized h fun _ _ _ _ _ h1 => .ite .trap (.st (.mwaitTry (.setGrp (.frame h) (.of h1)) (.of h1)))

theorem Sized.giveStatus {k g st} (h : Sized t) (hg : Files g) : Sized (t.giveStatus k g st) := by
  unfold State.giveStatus
  exact .setGrp (.l1Clear h) (.of hg.writeP.writeS)

theorem Sized.answerMon {k st} (h : Sized t) : Sized (t.answerMon k st) := by
  unfold State.answerMon
  exact .fabSend h

theorem Sized.statusTo {k st} (h : Sized t) : Sized (t.statusTo k st) := by
  unfold State.statusTo
  split
  · exact h
  · next e => exact .ite h (.ite (.giveStatus h (h.grp e)) (.pushWoken (.applied (.setGrp h (.of (h.grp e))))))

theorem execMonitorStatusDeliver_sized {k} (h : Sized t) : SizedOut (execMonitorStatusDeliver k t) :=
  .next (by
    split
    · split
      · exact .ite (.statusTo h) h
      · exact h
    · exact .ite (.answerMon (.modHome h)) (.statusTo (.modHome h)))

theorem execMonitorTimeout_sized {k} (h : Sized t) : SizedOut (execMonitorTimeout k t) :=
  .next (by
    split
    · exact h
    · exact .monStatus (.modHome (.atLeast h)))

/-! ### SyncUnits -/

theorem Sized.endWait {k g} (h : Sized t) (hg : Files g) : Sized (t.endWait k g) :=
  .setGrp (.ite (.l1Clear h) h) (.of hg)

theorem Sized.syncWake (h : Sized t) : Sized (t.syncWake) :=
  .foldl h fun _ _ h0 => by
    split
    · next e => exact .ite (.endWait h0 (h0.grp e)) h0
    · exact h0

theorem waitUnit_sized {u park arg pre} (h : Sized t) (hp : ∀ u, Sized u → ∀ k g, SizedOptEff (pre u k g)) :
    SizedOut (waitUnit u park arg pre t) :=
  issue_sized h fun k _ g _ hg _ => by
    have hk := hp t h k g
    split
    · next e => exact hk.along e
    · extract_lets g2
      split
      · exact .st (.endWait h (.of hg))
      · exact .st (.setGrp h (.of hg))

theorem selTrap_sized {u0 g a} : SizedEff (selTrap u0 g a) :=
  .trap

theorem execTlrd_sized {d a} (h : Sized t) : SizedOut (execTlrd d a t) := by
  unfold execTlrd
  exact issue_sized h fun _ _ _ _ _ h1 => by
    extract_lets +onlyGivenNames sel
    refine .ite selTrap_sized ?_
    extract_lets +onlyGivenNames s1
    have hs1 : Sized s1 := .setGrp (.frame h) (.of h1)
    exact .st (.ite hs1 (.l1Clear hs1))

theorem execTlwait_sized {a b} (h : Sized t) : SizedOut (execTlwait a b t) := by
  unfold execTlwait
  exact waitUnit_sized h (fun _ h0 _ _ => by
    split
    · exact .none
    · exact .some selTrap_sized)

theorem execWaitk_sized {h0 l} (h : Sized t) : SizedOut (execWaitk h0 l t) :=
  waitUnit_sized h fun _ _ _ _ => .none

theorem Sized.arrive {k g g1} (h : Sized t) (h1 : Files g1) : Sized (t.arrive k g g1) :=
  .barCheck (.modWg (.setGrp h (.of h1)))

theorem execBar_sized (h : Sized t) : SizedOut (execBar t) :=
  issue_sized h fun _ _ _ _ _ h1 => .ite .wait (.st (.arrive h h1))

theorem execBarPx_sized (h : Sized t) : SizedOut (execBarPx t) :=
  issue_sized h fun _ _ _ _ _ h1 => .ite .wait (.st (.arrive h h1))

theorem execBalloc_sized {d a b} (h : Sized t) : SizedOut (execBalloc d a b t) := by
  unfold execBalloc
  exact issue_sized h fun _ _ _ _ _ h1 => by
    extract_lets +onlyGivenNames v
    refine .ite .trap ?_
    split
    · exact .wait
    · exact .ite (.grp h1.writeS.writeP) (.st (.setGrp (.setWg h) h1.writeS.writeP))

theorem barUnit_sized {u a f} (h : Sized t)
    (hf : ∀ u, Sized u → ∀ k g g1 w b, Files g → Files g1 → SizedEff (f u k g g1 w b)) : SizedOut (barUnit u a f t) :=
  issue_sized h fun _ _ _ _ hg h1 => by
    split
    · exact .wait
    · split
      · exact .trap
      · exact hf _ h _ _ _ _ _ hg h1

theorem Sized.barFreed {w h2} (h : Sized t) : Sized (t.barFreed w h2) :=
  .foldl h fun _ _ h0 => by
    split
    · next e => exact .takeTrap h0 (h0.grp e)
    · exact h0

theorem execBfree_sized {a} (h : Sized t) : SizedOut (execBfree a t) :=
  barUnit_sized h (fun _ h0 _ _ _ _ _ _ h1 => .ite (.st (.barFreed (.setWg (.setGrp h0 h1))))
      (.st (.setWg (.setGrp h0 h1))))

theorem execBarv_sized {d a} (h : Sized t) : SizedOut (execBarv d a t) := by
  unfold execBarv
  exact barUnit_sized h (fun _ h0 _ _ _ _ _ _ h1 => .ite .trap (.st (.setWg (.setGrp (.frame h0) (.of h1.writeS)))))

theorem execBarvReleaseDone_sized {k op} (h : Sized t) : SizedOut (execBarvReleaseDone k op t) :=
  .next (by
    split
    · exact h
    · next e =>
      split
      · exact h
      · refine .ite h ?_
        extract_lets +onlyGivenNames s1
        have hs : Sized s1 := .setGrp h (h.grp e).finishOp
        split
        · exact hs
        · exact .syncWake (.setWg hs))

theorem execBarw_sized {a b} (h : Sized t) : SizedOut (execBarw a b t) := by
  unfold execBarw
  exact waitUnit_sized h (fun _ h0 _ _ => by
    split
    · split
      · exact .none
      · exact .some .trap
    · exact .some .wait)

theorem execBarx_sized {a b} (h : Sized t) : SizedOut (execBarx a b t) := by
  unfold execBarx
  exact barUnit_sized h (fun _ h0 _ _ _ _ _ _ h1 => .ite .trap (.st (.syncWake (.setWg (.setGrp h0 h1)))))

theorem Sized.nameSema {w n} (h : Sized t) : SizedOpt (t.nameSema w n) := by
  unfold State.nameSema
  split
  · exact .none
  · split
    · exact .some h
    · split
      · exact .none
      · exact .some (.setWg h)

theorem Sized.semaSet {w n f} (h : Sized t) : Sized (t.semaSet w n f) :=
  .syncWake (.modWg h)

theorem semaUnit_sized {u0 a b f} (h : Sized t) : SizedOut (semaUnit u0 a b f t) :=
  issue_sized h fun _ _ _ _ _ h1 => by
    extract_lets +onlyGivenNames n
    split
    · exact .wait
    · next e0 => exact .ite .wait (.st (.semaSet (.setGrp ((Sized.nameSema h).along e0) h1)))

theorem execSemw_sized {a b} (h : Sized t) : SizedOut (execSemw a b t) :=
  issue_sized h fun _ _ _ _ hg _ => by
    split
    · exact .wait
    · next e0 =>
        have hs := (Sized.nameSema h).along e0
        exact .ite (.st (.endWait hs (.of hg))) (.st (.setGrp hs (.of hg)))

/-! ### CopyUnits -/

theorem Sized.startCopy {wk k} (h : Sized t) : Sized (t.startCopy wk k) := by
  unfold State.startCopy
  split
  · exact h
  · split
    · exact h
    · exact .ite h (.setWg (.fresh1 h))

theorem copyUnit_sized {fn d a n} (h : Sized t) : SizedOut (copyUnit fn d a n t) := by
  unfold copyUnit
  exact issue_sized h fun _ _ _ _ _ h1 => by
    split
    · exact .wait
    · extract_lets +onlyGivenNames num l
      refine .ite .wait (.ite .wait (.ite .trap ?_))
      extract_lets +onlyGivenNames sem
      have hs : SizedOpt sem := by
        unfold sem
        split
        · exact Sized.nameSema h
        · exact h
      clear_value sem
      split
      · exact .wait
      · exact .st (.startCopy (.setGrp (.setWg (.frame hs)) (.of h1.writeS)))

theorem Sized.cplaces {who w sp a n need wr whole} (h : Sized t) : SizedHold
    (t.cplaces who w sp a n need wr whole) := by
  unfold State.cplaces
  extract_lets +onlyGivenNames va
  split
  · extract_lets +onlyGivenNames x one rs
    split
    · exact .fault
    · split
      · exact .fault
      · split
        · exact .hold (.parkOn h)
        · exact .hold h
        · exact .ite .ok (.hold h)
  · split
    · exact .fault
    · exact .ok

theorem Sized.cwrite {wk sp ps bs} (h : Sized t) : Sized (t.cwrite wk sp ps bs) := by
  unfold State.cwrite
  exact .modWg (.foldl h fun _ _ h1 => .homeWrite h1)

theorem Sized.modSlice {wk c i f} (h : Sized t) : Sized (t.modSlice wk c i f) :=
  .modWg h

theorem Sized.copyReq {w type op ps bs} (h : Sized t) : SizedSnd (t.copyReq w type op ps bs) := by
  unfold State.copyReq
  split
  · exact Sized.runReq h
  · exact .mk h

theorem Sized.readFor {wk w c i l sp va ps} (h : Sized t) : SizedSnd (t.readFor wk w c i l sp va ps) := by
  unfold State.readFor
  split
  · exact .mk h
  · split
    · exact .mk (.modSlice h)
    · split
      · exact .mk h
      · exact .mk (.modSlice (.copyReq h))

theorem Sized.listEntry {wk w c i l k} (h : Sized t) : SizedEntry (t.listEntry wk w c i l k) := by
  unfold State.listEntry
  extract_lets +onlyGivenNames e known a
  clear_value known
  split
  · exact h
  · split
    · exact h
    · split
      · trivial
      · next e => exact (Sized.cplaces h).along e
      · split
        · next e => exact (Sized.readFor h).along e
        · next e => exact Sized.modSlice ((Sized.readFor h).along e)

theorem Sized.fillStage {wk c i n fuel} (h : Sized t) : SizedRun (State.fillStage wk c i n fuel t) := by
  induction fuel generalizing t with
  | zero => exact h
  | succ fuel ih =>
    unfold State.fillStage
    split
    · exact h
    · extract_lets +onlyGivenNames k
      split
      · exact h
      · split
        split
        extract_lets +onlyGivenNames m
        split
        · exact h
        · next e => exact (Sized.cplaces h).along e
        · split
          · next e => exact (Sized.readFor h).along e
          · next e => exact ih (.modSlice (.energy ((Sized.readFor h).along e)))

theorem Sized.putMove {wk w c i l ds va qs out} (h : Sized t) : Sized
    (t.putMove wk w c i l ds va qs out) := by
  unfold State.putMove
  extract_lets +onlyGivenNames aop
  refine .ite (.modSlice (.copyReq h)) ?_
  refine .ite ?_ (.cwrite h)
  split
  · exact .homeWrite (.recall h)
  · exact h

theorem Sized.doMove {wk c i} (h : Sized t) : SizedRun (t.doMove wk c i) := by
  unfold State.doMove
  split
  · exact h
  · split
    · exact h
    · next e => exact (Sized.listEntry h).along e
    · next e =>
      have h1 : Sized _ := (Sized.listEntry h).along e
      extract_lets +onlyGivenNames m
      split
      · exact h1
      · split
        · next e => exact (Sized.fillStage h1).along e
        · next e => exact (Sized.fillStage h1).along e
        · next e =>
          have h2 : Sized _ := (Sized.fillStage h1).along e
          split
          · exact h2
          · exact h2
          · next e _ => exact (Sized.cplaces h2).along e
          · exact .go (.modSlice (.putMove (.energy h2)))

theorem Sized.runMoves {wk c i fuel} (h : Sized t) : SizedRun (State.runMoves wk c i fuel t) := by
  induction fuel generalizing t with
  | zero => exact h
  | succ fuel ih =>
    unfold State.runMoves
    split
    · exact h
    · split
      · exact h
      · have hm := Sized.doMove (wk := wk) (c := c) (i := i) h
        split
        · next e => exact ih (hm.along e)
        · exact hm

theorem Sized.faultGroup {wk idx f} (h : Sized t) : Sized (t.faultGroup wk idx f) := by
  unfold State.faultGroup
  split
  · next e => exact .recordFault h (h.grp e)
  · exact h

theorem Sized.copyBar {wk w l why bh} (h : Sized t) : Sized (t.copyBar wk w l why bh) := by
  unfold State.copyBar
  extract_lets +onlyGivenNames x0
  split
  · split
    · next e => exact .recordFault h (h.grp e)
    · exact h
  · split
    · exact .modCtx (.dropWork h)
    · exact h

theorem Sized.sliceDone {wk c i} (h : Sized t) : Sized (t.sliceDone wk c i) := by
  unfold State.sliceDone
  extract_lets +onlyGivenNames x0 s0 s1
  have hs0 : Sized s0 := by
    unfold s0
    split
    · exact .modWg (.pull h)
    · exact .pull h
  split
  · exact .modSlice hs0
  · split
    · exact .modSlice hs0
    · split
      · refine .ite (.modSlice hs0) ?_
        extract_lets +onlyGivenNames bh
        split
        · exact .copyBar (.applied (.modSlice hs0))
        · exact .ite (.copyBar (.modSlice hs0)) (.syncWake (.applied (.setWg (.modSlice hs0))))
      · exact .modSlice hs0

theorem Sized.sliceFault {wk c i l cause a t7} (h : Sized t) : Sized (t.sliceFault wk c i l cause a t7) :=
  .faultGroup (.sliceDone h)

theorem Sized.verPlaces {who w l} (h : Sized t) : SizedHold (t.verPlaces who w l) :=
  Sized.cplaces h

theorem Sized.readVer {wk w c i l ps} (h : Sized t) : SizedSnd (t.readVer wk w c i l ps) :=
  .mk (.readFor h)

theorem Sized.setVer {wk w c i l ps v} (h : Sized t) : Sized (t.setVer wk w c i l ps v) :=
  .putMove h

theorem Sized.destsFrom {who w l fuel k} (h : Sized t) : SizedHold (t.destsFrom who w l fuel k) := by
  induction fuel generalizing k with
  | zero => exact .ok
  | succ fuel ih =>
    unfold State.destsFrom
    split
    · exact .ok
    · extract_lets m
      split
      · exact .fault
      · next e => exact (Sized.cplaces h).along e
      · split
        · exact .ok
        · exact ih

theorem Sized.srcsFrom {who w l fuel k} (h : Sized t) : SizedHold (t.srcsFrom who w l fuel k) := by
  induction fuel generalizing k with
  | zero => exact .ok
  | succ fuel ih =>
    unfold State.srcsFrom
    split
    · exact .ok
    · obtain ⟨sp, a, rest⟩ := l.srcAt k 0 0
      dsimp only
      split
      · exact .fault
      · next e => exact SizedHold.hold ((Sized.cplaces h).along e)
      · exact ih

theorem Sized.writeStaged {wk w c i l n k ps bs} (h : Sized t) : Sized
    (State.writeStaged wk w c i l n k ps bs t) := by
  induction n generalizing t k ps bs with
  | zero => exact h
  | succ n ih =>
    unfold State.writeStaged
    exact .ite h (ih (.putMove h))

theorem Sized.aonWrite {wk w c i l v} (h : Sized t) : Sized (t.aonWrite wk w c i l v) :=
  .modSlice (.writeStaged h)

theorem Sized.askDests {wk w c i l ds} (h : Sized t) : Sized (t.askDests wk w c i l ds) :=
  .foldl (.modSlice h) fun _ _ h0 => .modSlice (.runReq h0)

theorem execAonVersionAcquire_sized {wk c i} (h : Sized t) : SizedOut (execAonVersionAcquire wk c i t) := by
  unfold execAonVersionAcquire
  refine .next ?_
  split
  · exact h
  · refine .ite h (.ite ?_ (.ite (.ite h ?_) (.ite ?_ ?_)))
    · split
      · exact .sliceFault h
      · next e => exact (Sized.srcsFrom h).along e
      · exact .sliceFault h
      · next e _ _ => exact (Sized.destsFrom h).along e
      · exact .sliceFault h
      · next e _ _ _ _ => exact (Sized.verPlaces h).along e
      · refine .ite (.askDests h) (.ite h ?_)
        split
        · next e => exact .sliceFault ((Sized.fillStage h).along e)
        · next e => exact (Sized.fillStage h).along e
        · next e => exact .modSlice ((Sized.fillStage h).along e)
    · extract_lets v
      exact .ite h (.aonWrite (.setVer h))
    · split
      · exact .modSlice h
      · exact .ite h (.modSlice (.copyReq h))
    · split
      · next e => exact .aonWrite ((Sized.readVer h).along e)
      · next e => exact (Sized.readVer h).along e

theorem execVerPassEnd_sized {wk c i} (h : Sized t) : SizedOut (execVerPassEnd wk c i t) :=
  .next (by
    split
    · exact h
    · refine .ite h ?_
      split
      · split
        · exact .sliceFault h
        · next e0 => exact (Sized.verPlaces h).along e0
        · split
          · next e1 => exact .ite ((Sized.readVer h).along e1) (.modSlice ((Sized.readVer h).along e1))
          · next e1 => exact (Sized.readVer h).along e1
      · split
        · next e0 => exact .sliceFault ((Sized.runMoves h).along e0)
        · next e0 => exact (Sized.runMoves h).along e0
        · next e0 =>
            split
            · exact (Sized.runMoves h).along e0
            · split
              · exact .sliceFault ((Sized.runMoves h).along e0)
              · next e1 => exact (Sized.verPlaces ((Sized.runMoves h).along e0)).along e1
              · split
                · next e2 => exact .modSlice ((Sized.readVer ((Sized.runMoves h).along e0)).along e2)
                · next e2 => exact ((Sized.readVer ((Sized.runMoves h).along e0)).along e2))

theorem execCopySliceComplete_sized {wk c i} (h : Sized t) : SizedOut (execCopySliceComplete wk c i t) :=
  .next (by
    split
    · exact h
    · refine .ite ?_ ?_
      · split
        · exact h
        · refine .ite h ?_
          refine .ite (.sliceDone h) ?_
          refine .ite h ?_
          extract_lets +onlyGivenNames s1
          have hs1 : Sized s1 := .modSlice (.setVer h)
          exact .ite hs1 (.sliceDone hs1)
      · refine .ite (.ite (.sliceDone h) h) ?_
        split
        · next e0 => exact .sliceFault ((Sized.runMoves h).along e0)
        · next e0 => exact (Sized.runMoves h).along e0
        · next e0 =>
            split
            · exact .ite (.sliceDone ((Sized.runMoves h).along e0)) ((Sized.runMoves h).along e0)
            · exact ((Sized.runMoves h).along e0))

theorem Sized.handSlices {wk f} (h : Sized t) : Sized (t.handSlices wk f) :=
  .modWg h

theorem execCopyStart_sized {wk c} (h : Sized t) : SizedOut (execCopyStart wk c t) := by
  unfold execCopyStart
  exact .next (by
    split
    · exact .startCopy h
    · exact .handSlices (.startCopy h))

theorem Sized.reap {wk} (h : Sized t) : Sized (t.reap wk) := by
  unfold State.reap
  split
  · exact .noteIdle (.ite (.frame h) h)
  · exact h

theorem execCopyComplete_sized {wk c} (h : Sized t) : SizedOut (execCopyComplete wk c t) := by
  unfold execCopyComplete
  exact .next (by
    split
    · exact .pull h
    · split
      · exact .pull h
      · refine .ite (.pull h) ?_
        extract_lets +onlyGivenNames s1 ctl s2
        have hs1 : Sized s1 := by
          unfold s1
          split
          · exact .ite (.applied (.semaSet (.pull h))) (.pull h)
          · exact .pull h
        exact .syncWake (.reap (.ite (.applied (.modWg hs1)) (.modWg hs1))))

/-! ### Restore -/

theorem Sized.restoreOps {k area} (h : Sized t) : Sized (t.restoreOps k area) := by
  unfold State.restoreOps
  split
  · exact h
  · next e => exact .setGrp (.frame h) (.of (h.grp e))

theorem Sized.restore {wk} (h : Sized t) : Sized (t.restore wk) := by
  unfold State.restore
  split
  · exact h
  · refine .foldl (.energy (.setWg h)) fun _ _ h => ?_
    split
    · exact h
    · next e => exact .ite (.withGroups h .mapDel) (.restoreOps (.setGrp h (h.grp e).restored))

/-! ### WorkDist -/

theorem Sized.readRecord {who n va unit} (h : Sized t) : SizedRec (t.readRecord who n va unit) := by
  unfold State.readRecord
  split
  · exact .wait h
  · split
    · exact .bad
    · exact .wait (.parkOn h)
    · exact .wait h
    · split
      · exact .raw
      · exact .bad
      · next e0 => exact .wait ((Sized.spanIn h).along e0)

theorem Sized.enterGrid {src r} (h : Sized t) : Sized (t.enterGrid src r) := by
  unfold State.enterGrid
  exact .modDev (.frame h)

theorem Sized.haltQueue {q code idx} (h : Sized t) : Sized (t.haltQueue q code idx) := by
  unfold State.haltQueue
  exact .setQueue (.release h)

theorem Sized.doorbell {q tail} (h : Sized t) : Sized (t.doorbell q tail) := by
  unfold State.doorbell
  exact .ite (.count h) (.ite (.haltQueue h) (.setQueue h))

theorem Sized.headRecord {q} (h : Sized t) : SizedRec (t.headRecord q) := by
  unfold State.headRecord
  exact Sized.readRecord h

theorem execLaunchRecordTake_sized {q} (h : Sized t) : SizedOut (execLaunchRecordTake q t) := by
  unfold execLaunchRecordTake
  exact .next (by
    refine .ite h ?_
    extract_lets +onlyGivenNames s1
    have hs1 : Sized s1 := .setQueue (.release h)
    split
    · exact .haltQueue hs1
    · next e1 => exact (Sized.headRecord h).along e1
    · extract_lets +onlyGivenNames r
      split
      · exact .enterGrid hs1
      · exact .haltQueue hs1)

theorem Sized.setDiem {n d} (h : Sized t) : Sized (t.setDiem n d) :=
  .modCtx h

theorem Sized.onCore {ctx core} (h : Sized t) : Sized (t.onCore ctx core) :=
  .setCluster (.l1Clear (.setDiem h))

theorem Sized.placeNew {w core slots base areas} (h : Sized t) : Sized
    (t.placeNew w core slots base areas) := by
  unfold State.placeNew
  split
  · exact h
  · extract_lets +onlyGivenNames r slot
    split
    · split
      · exact h
      · exact .onCore (.setGrp (.setWg h) files_startSpawned)
    · exact .onCore (.foldl (.frame (.setWg (.fresh1 h))) fun _ _ h1 => .setGrp h1 files_startGroup)

theorem execPlaceWorkgroup_sized {core slots base areas} (h : Sized t) : SizedOut
    (execPlaceWorkgroup core slots base areas t) := by
  unfold execPlaceWorkgroup
  exact .next (by
    split
    · exact h
    · exact .ite (.l1Trim (.placeNew h)) h)

theorem execEprioAge_sized {grid key} (h : Sized t) : SizedOut (execEprioAge grid key t) :=
  .next (by
    refine .ite ?_ ?_
    · split
      · exact .ite h (.frame (.atLeast h))
      · exact h
    · split
      · exact .ite h (.setWg (.atLeast h))
      · exact h)

theorem execEvictWorkgroup_sized {w} (h : Sized t) : SizedOut (execEvictWorkgroup w t) :=
  .next (by
    split
    · exact h
    · refine .ite h ?_
      refine .ite (.modWg h) ?_
      split
      · exact .ite (.count (.setWg h)) h
      · exact h)

theorem execSaveBegin_sized {w} (h : Sized t) : SizedOut (execSaveBegin w t) :=
  .next (by
    split
    · exact h
    · refine .ite h ?_
      refine .ite (.setWg h) ?_
      split
      · exact h
      · refine .ite h ?_
        exact .foldl (.modCtx (.modWg (.foldl h fun _ _ h1 => .startCopy h1))) fun _ _ h2 => by
          split
          · exact .cuFlush h2
          · exact h2)

theorem Sized.finishReads {wk} (h : Sized t) : Sized (t.finishReads wk) := by
  unfold State.finishReads
  split
  · exact h
  · exact .foldl h fun _ _ h0 => by
      extract_lets +onlyGivenNames l
      refine .ite ?_ h0
      split
      · next e1 => exact (Sized.fillStage h0).along e1
      · exact h0

theorem Sized.endExiting {wk} (h : Sized t) : Sized (t.endExiting wk) :=
  .foldl h fun _ _ h0 => by
    split
    · exact .ite (.endGroup h0) h0
    · exact h0

theorem Sized.passFlas {wk} (h : Sized t) : Sized (t.passFlas wk) :=
  .foldl h fun _ _ h0 => .modGrp h0 fun _ hg => .ite (.of hg) (.of hg)

theorem Sized.freeSlot {n slot} (h : Sized t) : Sized (t.freeSlot n slot) :=
  .modCtx h

theorem execSaveComplete_sized {w} (h : Sized t) : SizedOut (execSaveComplete w t) :=
  .next (by
    split
    · exact h
    · extract_lets +onlyGivenNames gs
      refine .ite h ?_
      refine .ite (.foldl h fun _ _ h0 => .cuFlush h0) ?_
      extract_lets +onlyGivenNames s0
      have hs0 : Sized s0 := .finishReads (.passFlas (.endExiting h))
      split
      · exact .freeSlot hs0
      · exact .ite (.freeSlot (.modWg hs0)) (.ite hs0 (.noteIdle
          (.syncDirty (.setWg (.foldl (.writeImage hs0) fun _ _ h3 => .modGrp h3 fun _ _ => files_husk))))))

theorem execResumeWorkgroup_sized {w core slots base} (h : Sized t) : SizedOut
    (execResumeWorkgroup w core slots base t) := by
  unfold execResumeWorkgroup
  exact .next (by
    split
    · exact .ite h (.l1Trim (.onCore (.foldl (.setWg (.writeHeader h)) fun _ _ h2 => .modGrp h2 fun _ hg => .of hg)))
    · exact h)

theorem Sized.reissue {k ids} (h : Sized t) : Sized (t.reissue k ids) :=
  .foldl h fun _ _ h0 => by
    split
    · next e =>
      have hg := h0.grp e
      split
      · split
        · exact h0
        · exact h0
        · exact .ite (.mwaitTry h0 hg) (.retryOp h0 hg)
      · exact h0
    · exact h0

theorem Sized.resumeGrp {k} (h : Sized t) : Sized (t.resumeGrp k) := by
  unfold State.resumeGrp
  split
  · exact h
  · next e =>
    extract_lets +onlyGivenNames slept spc g s1
    have h1 : Sized s1 := .reissue (.setGrp h (.of (h.grp e)))
    split
    · exact h1
    · next e1 =>
      split
      · exact .giveStatus h1 (h1.grp e1)
      · exact .takeParked h1

theorem execResumeComplete_sized {w} (h : Sized t) : SizedOut (execResumeComplete w t) :=
  .next (by
    split
    · exact h
    · exact .ite h (.syncWake (.barCheck (.handSlices (.foldl (.freeSlot (.modWg (.restore h))) fun _ _ h2 =>
        .resumeGrp h2)))))

theorem Sized.raiseTl {n x v} (h : Sized t) : Sized (t.raiseTl n x v) := by
  unfold State.raiseTl
  exact .ite (.syncWake (.modDev h)) h

theorem execGridComplete_sized {n} (h : Sized t) : SizedOut (execGridComplete n t) :=
  .next (by
    split
    · exact h
    · exact .ite h (.ite (.frame h) (.raiseTl (.frame h))))

theorem Sized.formBin {core bin} (h : Sized t) : SizedOpt (t.formBin core bin) := by
  unfold State.formBin
  split
  · exact .some h
  · split
    · exact .none
    · exact .some (.modCtx (.frame (.modCore (.setWg (.fresh1 h)))))

theorem Sized.newBin {core} (h : Sized t) : SizedOptSnd (t.newBin core) := by
  unfold State.newBin
  extract_lets +onlyGivenNames bins
  split
  · exact h
  · extract_lets old
    clear_value old
    split
    · cases e : t.formBin core ‹Nat› with
      | none => trivial
      | some u => exact (Sized.formBin h).along e
    · trivial

theorem Sized.deposit {core b d} (h : Sized t) : SizedOpt (t.deposit core b d) := by
  unfold State.deposit
  extract_lets +onlyGivenNames same put
  have hput : ∀ u i x, Sized u → SizedOpt (put u i x) := by
    intro u i x hu
    unfold put
    extract_lets u1
    split
    · exact Sized.formBin (.modCore hu)
    · exact Sized.modCore hu
  split
  · exact hput _ _ _ h
  · split
    · exact .none
    · next e => exact hput _ _ _ (.fresh1 ((Sized.newBin h).along e))

theorem Sized.deposits {core l} (h : Sized t) : SizedOpt (t.deposits core l) := by
  induction l generalizing t with
  | nil => exact h
  | cons x r ih =>
    unfold State.deposits
    split
    · next e => exact ih ((Sized.deposit h).along e)
    · exact .none

theorem execSpawn_sized {d a b} (h : Sized t) : SizedOut (execSpawn d a b t) := by
  unfold execSpawn
  exact issue_sized h fun _ _ _ _ hg h1 => by
    extract_lets +onlyGivenNames va
    refine .ite .trap ?_
    refine .ite .trap ?_
    refine .ite .wait ?_
    refine .ite (.waitSt (.cuFlush h)) ?_
    split
    · next e0 => exact .st ((Sized.deposits (.setGrp h h1)).along e0)
    · exact .st (.setGrp h (.of hg))

theorem execRegroupBinTimer_sized {core bin} (h : Sized t) : SizedOut (execRegroupBinTimer core bin t) :=
  .next (by
    split
    · exact h
    · refine .ite h ?_
      extract_lets +onlyGivenNames s1
      split
      · next e1 => exact (Sized.formBin (.atLeast h)).along e1
      · exact .modCore (.atLeast h))

theorem Sized.retrySpawn {k} (h : Sized t) : Sized (t.retrySpawn k) := by
  unfold State.retrySpawn
  split
  · exact h
  · next e =>
    refine .ite h ?_
    extract_lets +onlyGivenNames fld l qs g1
    have h1 : Files g1 := .ite (h.grp e) (.foldl (h.grp e) fun _ _ hg => hg.popQ)
    split
    · next e0 => exact (Sized.deposits (.setGrp h (.of h1))).along e0
    · exact h

theorem execRegroupStoreRoom_sized {core} (h : Sized t) : SizedOut (execRegroupStoreRoom core t) := by
  unfold execRegroupStoreRoom
  exact .next (.foldl (.foldl h fun _ _ h1 => SizedOpt.getD (Sized.formBin h1) h1) fun _ _ h1 => .retrySpawn h1)

theorem execClusterIdleGate_sized {l} (h : Sized t) : SizedOut (execClusterIdleGate l t) := by
  unfold execClusterIdleGate
  exact .next (.ite h (.ite (.setCluster h) (.setCluster (.foldl (.atLeast h) fun _ _ h1 => .settleCore h1))))

theorem execClusterUngate_sized {l} (h : Sized t) : SizedOut (execClusterUngate l t) := by
  unfold execClusterUngate
  exact .next (.ite (.setCluster h) h)

theorem execClusterPowered_sized {l} (h : Sized t) : SizedOut (execClusterPowered l t) := by
  unfold execClusterPowered
  exact .next (.ite (.foldl (.setCluster h) fun _ _ h0 => .modCore h0) h)

theorem Sized.giveCode {k o c} (h : Sized t) : Sized (t.giveCode k o c) :=
  .modGrp h fun _ hg => .finishOp (.foldl hg fun _ _ h1 => h1.writeSDst)

theorem Sized.doLaunch {g id va} (h : Sized t) : SizedSnd (t.doLaunch g id va) := by
  unfold State.doLaunch
  split
  · exact .mk (.release h)
  · next e0 => exact .mk ((Sized.readRecord h).along e0)
  · extract_lets +onlyGivenNames r0 p r
    split
    · exact .mk (.enterGrid (.release h))
    · exact .mk (.release h)

theorem Sized.holdNamed {a wgid h3} (h : Sized t) : Sized (t.holdNamed a wgid h3) := by
  unfold State.holdNamed
  exact .frame h

theorem Sized.holdImages {a wgid} (h : Sized t) : Sized (t.holdImages a wgid) :=
  .foldl h fun _ _ h0 => .pushHold h0

theorem Sized.doPreempt {a wgid} (h : Sized t) : Sized (t.doPreempt a wgid) := by
  unfold State.doPreempt
  exact .ite (.holdImages (.holdNamed (.frame h))) (.frame h)

theorem Sized.doCrsz {g n} (h : Sized t) : SizedSnd (t.doCrsz g n) := by
  unfold State.doCrsz
  split
  · exact .mk h
  · extract_lets +onlyGivenNames more
    split
    · exact .mk h
    · split
      · exact .mk h
      · split
        · exact .mk h
        · exact .mk (.l1Trim (.setWg h))

/-! ### MatrixUnits -/

theorem Sized.nameSemas {w l} (h : Sized t) : SizedOpt (t.nameSemas w l) := by
  induction l generalizing t with
  | nil => exact h
  | cons n r ih =>
    unfold State.nameSemas
    split
    · next e => exact ih ((Sized.nameSema h).along e)
    · exact .none

theorem mxUnit_sized {op n d a} (h : Sized t) : SizedOut (mxUnit op n d a t) := by
  unfold mxUnit
  exact issue_sized h fun _ _ _ _ _ h1 => by
    extract_lets +onlyGivenNames m
    refine .ite .wait ?_
    refine .ite .trap ?_
    split
    · exact .wait
    · next e0 => exact .st (.setGrp (.frame ((Sized.nameSemas h).along e0)) (.ite (.of h1.writeS) (.of h1.writeS)))

theorem execMxcfg_sized {a} (h : Sized t) : SizedOut (execMxcfg a t) := by
  unfold execMxcfg
  exact issue_sized h fun _ _ _ _ _ h1 => .ite (.grp (.of h1)) .trap

theorem tileUnit_sized {fn u1 d a} (h : Sized t) : SizedOut (tileUnit fn u1 d a t) :=
  issue_sized h fun _ _ _ _ _ h1 => .ite .wait (.ite .trap (.ite (.st (.recordFault (.frame h) (.of h1)))
      (.st (.setGrp (.frame h) (.of h1)))))

theorem execTileTransferDone_sized {k op} (h : Sized t) : SizedOut (execTileTransferDone k op t) :=
  .next (by
    split
    · exact h
    · next e =>
      have hg := h.grp e
      split
      · extract_lets +onlyGivenNames row col
        refine .ite h ?_
        split
        · exact .setGrp h (.finishOp (.foldl hg fun _ _ h1 => h1.writeDst))
        · exact .setGrp (.setWg h) hg.finishOp
        · exact h
      · exact h)

theorem execMatrixStepStart_sized {k} (h : Sized t) : SizedOut (execMatrixStepStart k t) :=
  .next (by
    split
    · exact h
    · next e =>
      have hg := h.grp e
      extract_lets +onlyGivenNames l
      refine .ite h ?_
      split
      · extract_lets +onlyGivenNames s1
        split
        · exact .setGrp (.setCluster h) (.of hg)
        · exact .recordFault (.setCluster h) (.of hg)
      · exact h)

theorem Sized.unitDone {k m} (h : Sized t) : Sized (t.unitDone k m) := by
  unfold State.unitDone
  split
  · exact h
  · next e =>
    refine .syncWake (.applied (.setGrp h ?_))
    split
    · exact .of (h.grp e)
    · exact .of (h.grp e)

theorem Sized.mxSignal {w n v} (h : Sized t) : Sized (t.mxSignal w n v) :=
  .applied (.semaSet h)

theorem execMatrixStepComplete_sized {k} (h : Sized t) : SizedOut (execMatrixStepComplete k t) :=
  .next (by
    split
    · exact h
    · split
      · refine .ite h ?_
        refine .ite (.ite (.unitDone (.applied (.semaSet h))) h) ?_
        refine .ite h ?_
        extract_lets +onlyGivenNames s1 s2 m1 s3
        have hs1 : Sized s1 := .ite (.energy (.setWg h)) h
        have hs2 : Sized s2 := .ite (.mxSignal hs1) hs1
        have hs3 : Sized s3 := .modGrp hs2 fun _ hg => .of hg
        exact .ite hs3 (.unitDone hs3)
      · exact h)

/-! ### FabricUnits -/

theorem execSendh_sized {d} (h : Sized t) : SizedOut (execSendh d t) :=
  issue_sized h fun _ _ _ _ _ h1 => .ite .wait (.ite (.grp h1) (.st (.setGrp (.frame (.setCore h)) (.of h1))))

theorem Sized.msgLost {n} (h : Sized t) : Sized (t.msgLost n) :=
  .modCtx h

theorem Sized.sentLane {k op lane} (h : Sized t) : Sized (t.sentLane k op lane) :=
  .modGrp h fun _ hg => by
    extract_lets g1
    have h1 : Files g1 := hg.modOp
    split
    · exact .ite h1.finishOp h1
    · exact h1

theorem Sized.sendMsg {e} (h : Sized t) : Sized (t.sendMsg e) := by
  unfold State.sendMsg
  exact .ite (.sentLane (.msgLost h)) (.ite (.frame h) (.fabSend (.modGrp (.fresh1 h) fun _ hg => .of hg)))

theorem execSendQueueDepart_sized {core} (h : Sized t) : SizedOut (execSendQueueDepart core t) :=
  .next (by
    split
    · exact h
    · split
      · exact .ite (.cuFlush h) (.sendMsg (.modCore h))
      · exact .modCore h)

theorem Sized.msgDone {e} (h : Sized t) : Sized (t.msgDone e) := by
  unfold State.msgDone
  extract_lets +onlyGivenNames s1
  split
  · exact .sentLane (.frame h)
  · exact .fabSend (.frame h)
  · exact .frame h

theorem Sized.ringSpan {e va n lost go} (h : Sized t) (hl : Sized lost) (hg : ∀ ps, Sized (go ps)) :
    Sized (t.ringSpan e va n lost go) := by
  unfold State.ringSpan
  extract_lets x
  split
  · exact hl
  · exact .parkOn h
  · exact h
  · exact hg _

theorem Sized.ringWrite {e ps bs lost go} (h : Sized t) (hl : Sized lost)
    (hg : ∀ u, Sized u → Sized (go u)) :
    Sized (t.ringWrite e ps bs lost go) := by
  unfold State.ringWrite
  split
  · exact hl
  · next e => exact (Sized.spanOut h).along e
  · exact hg _ (.spanEnergy (.spanWrite h))

theorem Sized.appendMsg {e} (h : Sized t) : Sized (t.appendMsg e) := by
  unfold State.appendMsg
  extract_lets +onlyGivenNames m c lost done
  have hlost : Sized lost := .msgDone (.msgLost (.release h))
  refine .ite h ?_
  refine .ite hlost ?_
  exact .ringSpan h hlost (fun _ => by
    split
    · exact hlost
    · next e2 => exact (Sized.spanIn h).along e2
    · exact .ite (.ringWrite h hlost (fun _ h3 => .msgDone (.release h3)))
        (.ringSpan h hlost (fun _ => .ringWrite h hlost
        (fun _ h4 => .ringWrite h4 hlost (fun _ h5 => .msgDone (.release h5))))))

theorem execMessageDeliver_sized {m} (h : Sized t) : SizedOut (execMessageDeliver m t) :=
  .next (by
    split
    · exact .ite (.appendMsg h) h
    · exact h)

theorem execRecvq_sized {d a b} (h : Sized t) : SizedOut (execRecvq d a b t) :=
  issue_sized h fun _ _ _ _ _ h1 => .ite .wait (.st (.setGrp (.frame h) (.of h1)))

theorem Sized.recvSpan {g o need wr l go} (hg : ∀ ps, SizedRecv (go ps)) : SizedRecv
    (t.recvSpan g o need wr l go) := by
  unfold State.recvSpan
  extract_lets rs
  split
  · exact .fault
  · split
    · exact .miss
    · exact .hold
    · exact hg _

theorem recvIo_sized {o wr va lane r go} (hr : SizedIo r) (hg : ∀ bs, SizedRecv (go bs)) : SizedRecv
    (recvIo o wr va lane r go) := by
  unfold recvIo
  split
  · exact hg _
  · exact hr
  · exact .fault

theorem Sized.recvTry {k g o} (h : Sized t) (hg : Files g) : SizedRecv (t.recvTry k g o) := by
  unfold State.recvTry
  extract_lets +onlyGivenNames q act b c who finish
  have hf : ∀ u g', Sized u → Files g' → SizedRecv (finish u g') := fun _ _ hu hg => .done
      (.setGrp (.l1Clear (.release hu)) hg.finishOp)
  clear_value finish
  split
  · exact hf _ _ h hg.writePBits
  · refine Sized.recvSpan fun hd => recvIo_sized (Sized.spanIn h) fun bs => ?_
    extract_lets +onlyGivenNames h' ls m got slot
    refine Sized.recvSpan fun ps => recvIo_sized (Sized.spanIn h) fun data => ?_
    extract_lets +onlyGivenNames ws g1 s1
    have h1 : Sized s1 := .spanEnergy h
    have hg1 : Files g1 := hg.writeWords.writePBits
    split
    · exact hf _ _ h1 hg1
    · exact Sized.recvSpan fun hw => recvIo_sized (Sized.spanOut h) fun _ => hf _ _ (.spanWrite h1) hg1

theorem Sized.recvGo {k g o} (h : Sized t) (hg : Files g) : Sized (t.recvGo k g o) := by
  unfold State.recvGo
  refine .ite h ?_
  refine .ite (.cuFlush h) ?_
  split
  · next e0 => exact (Sized.recvTry h hg).along e0
  · exact .recordFault (.release h) hg.endUnit
  · next e0 => exact (Sized.recvTry h hg).along e0
  · exact .setGrp (.openService h) hg.modOp
  · exact .setGrp h hg.modOp

theorem execPeerq_sized {d a q} (h : Sized t) : SizedOut (execPeerq d a q t) :=
  issue_sized h fun _ _ _ _ _ h1 => .grp h1.writePBits

theorem execColl_sized {d a} (h : Sized t) : SizedOut (execColl d a t) := by
  unfold execColl
  exact issue_sized h fun _ _ _ _ _ h1 => .ite .trap (.ite .trap (.ite .trap (.st (.modCtx (.setGrp (.frame h) h1.writeS)))))

theorem Sized.modColl {n c f} (h : Sized t) : Sized (t.modColl n c f) :=
  .frame h

theorem execCollHandoff_sized {n c} (h : Sized t) : SizedOut (execCollHandoff n c t) :=
  .next (by
    split
    · exact h
    · refine .ite h ?_
      split
      · exact .ite h (.ite (.cuFlush h) (.modColl h))
      · exact .modColl h)

theorem Sized.raiseKtl {n} (h : Sized t) : Sized (t.raiseKtl n) := by
  unfold State.raiseKtl
  exact .syncWake (.modCtx (.frame h))

theorem Sized.collFault {x cause a i} (h : Sized t) : Sized (t.collFault x cause a i) := by
  unfold State.collFault
  extract_lets +onlyGivenNames x0
  split
  · next e => exact .recordFault h (h.grp e)
  · split
    · exact .modCtx (.dropWork h)
    · exact h

theorem Sized.endColl {n c} (h : Sized t) : Sized (t.endColl n c) :=
  .raiseKtl (.modColl h)

theorem execCollComplete_sized {n c peers} (h : Sized t) : SizedOut (execCollComplete n c peers t) := by
  unfold execCollComplete
  refine .next ?_
  split
  · exact h
  · extract_lets +onlyGivenNames f cx kind ef count root rank scl bl sl need good ps who
    refine .ite h ?_
    extract_lets +onlyGivenNames xl src red dev fault unit reach io from_
    have hreach : ∀ wr l go, (∀ ps, Sized (go ps)) → Sized (reach wr l go) := by
      intro wr l go hg
      unfold reach
      split
      · exact .endColl (.collFault (.release h))
      · exact .parkOn h
      · exact h
      · exact hg _
    have hio : ∀ wr l r go, SizedIo r → (∀ bs, Sized (go bs)) → Sized (io wr l r go) := by
      intro wr l r go hr hg
      unfold io
      split
      · exact .endColl (.collFault (.release h))
      · exact hr
      · exact hg _
    exact hreach _ _ _ fun _ => hio _ _ _ _ (Sized.spanIn h) fun _ =>
      hreach _ _ _ fun _ => hio _ _ _ _ (Sized.spanOut h) fun _ => .endColl
          (.release (.spanEnergy (.energy (.spanWrite h))))

theorem execCollAbandon_sized {n c reason} (h : Sized t) : SizedOut (execCollAbandon n c reason t) :=
  .next (by
    split
    · exact h
    · exact .ite h (.endColl (.collFault (.release h))))

/-! ### Fetch -/

theorem Sized.fillI {g ws} (h : Sized t) : Sized (t.fillI g ws) := by
  unfold State.fillI
  exact .ite (.setCore h) (.energy (.setCore h))

/-! ### SeqEvents -/

theorem Sized.raiseClass {c cls} (h : Sized t) : Sized (t.raiseClass c cls) :=
  .modCore h

theorem execRulingClassHoldEnd_sized {core} (h : Sized t) : SizedOut (execRulingClassHoldEnd core t) := by
  unfold execRulingClassHoldEnd
  exact .next (.modCore h)

theorem execClassWaitRaise_sized {k} (h : Sized t) : SizedOut (execClassWaitRaise k t) :=
  .next (by
    split
    · exact .ite (.raiseClass h) h
    · exact h)

theorem execUrgentCandidate_sized {k} (h : Sized t) : SizedOut (execUrgentCandidate k t) :=
  .next (by
    split
    · next e => exact .ite (.leaveLv (.raiseClass (.setGrp h (.of (h.grp e))))) h
    · exact h)

theorem execYieldEnd_sized {k} (h : Sized t) : SizedOut (execYieldEnd k t) :=
  .next (.modGrp h fun _ hg => .of hg)

theorem execSleepWake_sized {k} (h : Sized t) : SizedOut (execSleepWake k t) :=
  .next (by
    split
    · next e =>
      have hg := h.grp e
      exact .ite h (.ite (.setGrp (.atLeast h) (.of hg)) (.pushWoken (.setGrp (.atLeast h) (.of hg))))
    · exact h)

theorem Sized.spillEnergy {g wr ps} (h : Sized t) : Sized (t.spillEnergy g wr ps) :=
  .spanEnergy h

theorem execSpillTransferDone_sized {k} (h : Sized t) : SizedOut (execSpillTransferDone k t) :=
  .next (by
    split
    · exact h
    · next e =>
      have hg := h.grp e
      extract_lets +onlyGivenNames wr park
      refine .ite h ?_
      split
      · exact .takeTrap h hg
      · exact .setGrp (.openService h) (.of hg)
      · exact .setGrp h (.of hg)
      · exact .ite h (.ite (.setGrp (.storeLane (.spillEnergy h)) hg.spilled.kick) (.setGrp (.spillEnergy h) hg.filled.kick)))

theorem execTrapEnter_sized {k} (h : Sized t) : SizedOut (execTrapEnter k t) :=
  .next (by
    split
    · exact h
    · exact .ite (.passBank h) h)

theorem execHandlerWatchdog_sized {k} (h : Sized t) : SizedOut (execHandlerWatchdog k t) :=
  .next (by
    split
    · exact h
    · next e => exact .ite h (.contextFault (.atLeast h) (h.grp e)))

theorem Sized.haltCtx {n} (h : Sized t) : Sized (t.haltCtx n) :=
  .withGroups h (·.mapAll fun _ _ hg => .ite (.of hg) hg)

theorem execContextHaltDeadline_sized {n} (h : Sized t) : SizedOut (execContextHaltDeadline n t) :=
  .next (by
    split
    · exact .ite h (.haltCtx (.atLeast h))
    · exact h)

theorem execContextFaultReport_sized {n} (h : Sized t) : SizedOut (execContextFaultReport n t) :=
  .next (by
    split
    · exact .ite h (.post (.modCtx h))
    · exact h)

theorem execReportVectorTimer_sized {f} (h : Sized t) : SizedOut (execReportVectorTimer f t) := by
  unfold execReportVectorTimer
  exact .next (.ite h (.setHost (.atLeast h)))

theorem fillQ_files {g g' : Group} (hg : Files g) (e : g.fillQ = some g') : Files g' := by
  unfold Group.fillQ at e
  split at e
  · cases e
  · cases e; exact .of hg

theorem execResultWriteBack_sized {k} (h : Sized t) : SizedOut (execResultWriteBack k t) :=
  .next (by
    split
    · exact h
    · next e =>
      have hg := h.grp e
      split
      · next e1 => exact .setGrp h (fillQ_files hg e1)
      · split
        · exact h
        · exact .setGrp h (.finishOp (.foldl hg fun _ _ h1 => h1.writeSDst)))

theorem execIllegalWord_sized {word} (h : Sized t) : SizedOut (execIllegalWord word t) := by
  unfold execIllegalWord
  exact .next (by
    split
    · exact .ite (.stall h) (.stratusTrap h)
    · split
      · next e =>
        have hg := h.grp e
        extract_lets +onlyGivenNames point
        refine .ite (.stall h) ?_
        refine .ite (.dieAtFaultPoint h hg) ?_
        split
        · exact .ite (.takeFault h hg) (.stall h)
        · exact .takeTrap h hg
      · exact .stall h)

theorem execFetchFault_sized (h : Sized t) : SizedOut (execFetchFault t) :=
  .next (by
    split
    · refine .ite (.stall h) ?_
      split
      · exact .stratusTrap h
      · exact .stall h
    · split
      · next e =>
        have hg := h.grp e
        refine .ite (.stall h) ?_
        split
        · exact .stall h
        · exact .takeTrap h hg
        · exact .setGrp (.openService h) (.of hg)
        · exact .setGrp h (.of hg)
      · exact .stall h)

/-! ### HomeEvents -/

theorem Sized.toDie {d line vc data m} (h : Sized t) : Sized (t.toDie d line vc data m) :=
  .sendPkt h

theorem Sized.toHome {d line vc data m} (h : Sized t) : Sized (t.toHome d line vc data m) :=
  .sendPkt h

theorem Sized.grantOut {s1 line} (h : Sized t) : Sized (t.grantOut s1 line) := by
  unfold State.grantOut
  split
  · exact .ite (.toDie h) h
  · exact h

theorem Sized.startReq {d line wait kind} (h : Sized t) : Sized (t.startReq d line wait kind) := by
  unfold State.startReq
  exact .grantOut (.lineStep (.foldl (.modHome (.setLine (.dieRoom (.dirRoom h)))) fun _ _ h2 => .toDie h2))

theorem execHomeGets_sized {d line} (h : Sized t) : SizedOut (execHomeGets d line t) :=
  .next (.ite h (.startReq h))

theorem execHomeGetm_sized {d line} (h : Sized t) : SizedOut (execHomeGetm d line t) := by
  unfold execHomeGetm
  exact .next (.ite h (.startReq h))

theorem Sized.sendPut {d line dirty} (h : Sized t) : Sized (t.sendPut d line dirty) :=
  .toHome (.modHome (.setDie (.fresh1 h)))

theorem Sized.putStep {d line dirty} (h : Sized t) : Sized (t.putStep d line dirty) := by
  unfold State.putStep
  split
  · exact .ite h (.toDie (.grantOut (.lineStep (.landPut h))))
  · exact .ite (.sendPut h) h

theorem execHomePutm_sized {d line} (h : Sized t) : SizedOut (execHomePutm d line t) :=
  .next (.putStep h)

theorem execHomePute_sized {d line} (h : Sized t) : SizedOut (execHomePute d line t) :=
  .next (.putStep h)

theorem execPutAck_sized {d line} (h : Sized t) : SizedOut (execPutAck d line t) :=
  .next (.ite (.putAcked h) h)

theorem Sized.takeSnoop {d line kind f} (h : Sized t) (hf : ∀ u, Sized u → Sized (f u)) : Sized
    (t.takeSnoop d line kind f) :=
  .ite h (.toHome (hf t h))

theorem execSnoopInv_sized {d line} (h : Sized t) : SizedOut (execSnoopInv d line t) :=
  .next (.takeSnoop h (fun _ h0 => .invSnoop h0))

theorem execSnoopRecToS_sized {d line} (h : Sized t) : SizedOut (execSnoopRecToS d line t) :=
  .next (.takeSnoop h (fun _ h0 => .recallSnoop h0))

theorem execSnoopRecToI_sized {d line} (h : Sized t) : SizedOut (execSnoopRecToI d line t) :=
  .next (.takeSnoop h (fun _ h0 => .recallSnoop h0))

theorem execSnoopAnswer_sized {d line} (h : Sized t) : SizedOut (execSnoopAnswer d line t) :=
  .next (.ite h (.grantOut (.answerSnoop h)))

theorem execSnoopResend_sized {d line} (h : Sized t) : SizedOut (execSnoopResend d line t) :=
  .next (by
    split
    · exact h
    · exact .count (.toDie (.modReq (.atLeast h))))

theorem execGrantArrive_sized {d line} (h : Sized t) : SizedOut (execGrantArrive d line t) :=
  .next (.ite h (.arriveGrant h))

theorem Sized.homeRequest {rid req} (h : Sized t) : Sized (t.homeRequest rid req) := by
  unfold State.homeRequest
  extract_lets +onlyGivenNames go
  split
  · exact .ite h (.filterAdd (.homeWrite h))
  · exact .ite h (.homeAtomic h)

theorem execHomeWritePerform_sized {rid da data} (h : Sized t) : SizedOut
    (execHomeWritePerform rid da data t) :=
  .next (.homeRequest h)

theorem execReplayRequest_sized {rid req} (h : Sized t) : SizedOut (execReplayRequest rid req t) :=
  .next (.homeRequest h)

/-! ### CumulusEvents -/

theorem execCumulusAgeExpire_sized {d buf} (h : Sized t) : SizedOut (execCumulusAgeExpire d buf t) :=
  .next (by
    split
    · exact .ite h (.cuLeave (.atLeast h))
    · exact h)

theorem Sized.cuApply {e hi} (h : Sized t) : Sized (t.cuApply e hi) := by
  unfold State.cuApply
  exact .energy (.homeWrite h)

theorem Sized.cuApplyAll {p bad} (h : Sized t) : Sized (t.cuApplyAll p bad) :=
  .foldl h fun _ _ h0 => by
    split
    · exact .frame h0
    · exact .ite (.cuApply h0) h0

theorem execCumulusPacketApply_sized {id bad} (h : Sized t) : SizedOut (execCumulusPacketApply id bad t) :=
  .next (by
    split
    · exact h
    · exact .ite h (.syncDirty (.cuApplyAll (.frame h))))

theorem Sized.cuAnswered {n last bad} (h : Sized t) : Sized (t.cuAnswered n last bad) :=
  .frame h

theorem Sized.pendAgg {r} (h : Sized t) : Sized (t.pendAgg r) :=
  .withGroups h (·.mapAll fun _ _ hg => .ite (.ite (.of hg) (.of hg)) hg)

theorem execCumulusRejectLog_sized (h : Sized t) : SizedOut (execCumulusRejectLog t) :=
  .next (by
    split
    · exact h
    · exact .syncDirty (by
        refine .ite (.modCtx (.frame h)) ?_
        extract_lets +onlyGivenNames a s2
        have hs2 : Sized s2 := .modCtx (.homeWrite (.frame h))
        exact .ite (.post hs2) (.pendAgg hs2)))

theorem Sized.reconnect (h : Sized t) : Sized (t.reconnect) :=
  .frame h

theorem execEgressDeliver_sized {q} (h : Sized t) : SizedOut (execEgressDeliver q t) := by
  unfold execEgressDeliver
  exact .next (by
    refine .ite h ?_
    refine .ite (.reconnect h) ?_
    split
    · exact .setEgr h
    · exact .cuSend (.setEgr h))

theorem Sized.dropCumulus {n} (h : Sized t) : Sized (t.dropCumulus n) := by
  unfold State.dropCumulus
  exact .foldl (.frame h) fun _ _ h1 => .syncDirty h1

/-! ### RouterEvents -/

theorem Sized.rrtWrite {c t2 v} (h : Sized t) : Sized (t.rrtWrite c t2 v) := by
  unfold State.rrtWrite
  exact .ite (.logged (.count h)) (.ite (.logged (.count h)) (.pumpAll (.setPair h)))

theorem execRrtWrite_sized {c t1 v} (h : Sized t) : SizedOut (execRrtWrite c t1 v t) :=
  .next (.rrtWrite h)

theorem Sized.heard {t1 c} (h : Sized t) : Sized (t.heard t1 c) := by
  unfold State.heard
  exact .setChip h

theorem execHeartbeatSend_sized {c} (h : Sized t) : SizedOut (execHeartbeatSend c t) := by
  unfold execHeartbeatSend
  exact .next (.ite h (.foldl (.setChip (.atLeast h)) fun _ _ h1 => .sendPkt h1))

theorem Sized.delivered {p} (h : Sized t) : Sized (t.delivered p) := by
  unfold State.delivered
  split
  · exact .heard h
  · exact h

theorem Sized.loseStrand {c t2 strand} (h : Sized t) : Sized (t.loseStrand c t2 strand) := by
  unfold State.loseStrand
  extract_lets +onlyGivenNames v1 s1 s2 s3
  have hs1 : Sized s1 := .logged (.setPair h)
  have hs2 : Sized s2 := .ite (.logged hs1) hs1
  have hs3 : Sized s3 := .ite (.post hs2) hs2
  exact .ite (.giveUp hs3) (.pumpAll hs3)

theorem execStrandFail_sized {c t1 strand} (h : Sized t) : SizedOut (execStrandFail c t1 strand t) :=
  .next (.ite h (.loseStrand h))

theorem Sized.badFlit {c t2 f} (h : Sized t) : Sized (t.badFlit c t2 f) := by
  unfold State.badFlit
  extract_lets +onlyGivenNames v strand bad s1
  have hs1 : Sized s1 := .setPair (.frame h)
  exact .ite (.loseStrand hs1) hs1

theorem execFlitReceive_sized {c t1 seq ok} (h : Sized t) : SizedOut (execFlitReceive c t1 seq ok t) := by
  unfold execFlitReceive
  exact .next (by
    split
    · exact h
    · exact .ite (.badFlit h) (.ite h (.ite (.pumpAll (.delivered (.setPair h)))
        (.ite (.pumpAll (.resend (.setPair h))) (.ite (.setPair h) h)))))

theorem execFlitAck_sized {c t1 seq} (h : Sized t) : SizedOut (execFlitAck c t1 seq t) := by
  unfold execFlitAck
  exact .next (by
    split
    · exact .ite h (.pumpAll (.setPair h))
    · exact h)

theorem execRelayForward_sized {k c t2} (h : Sized t) : SizedOut (execRelayForward k c t2 t) := by
  unfold execRelayForward
  exact .next (by
    split
    · exact .ite h (.pumpAll (.putFlit (.ite (.setPair h) (.setPair (.setPair h)))))
    · exact h)

theorem execStrandGate_sized {c t1} (h : Sized t) : SizedOut (execStrandGate c t1 t) := by
  unfold execStrandGate
  exact .next (.ite h (.setPair (.atLeast h)))

theorem execStrandWakeDone_sized {c t1} (h : Sized t) : SizedOut (execStrandWakeDone c t1 t) := by
  unfold execStrandWakeDone
  exact .next (by
    split
    · exact .setPair (.atLeast h)
    · exact h)

theorem Sized.wakeAll {c} (h : Sized t) : Sized (t.wakeAll c) :=
  .foldl h fun _ _ h0 => .ite (.setPair h0) h0

theorem Sized.rgcfgWrite {c v} (h : Sized t) : Sized (t.rgcfgWrite c v) := by
  unfold State.rgcfgWrite
  exact .ite (.count h) (.ite (.setChip h) (.wakeAll (.setChip h)))

theorem execStrandGatingDisable_sized {c} (h : Sized t) : SizedOut (execStrandGatingDisable c t) :=
  .next (.ite h (.wakeAll (.setChip h)))

theorem execHeartbeatMiss_sized {r c} (h : Sized t) : SizedOut (execHeartbeatMiss r c t) :=
  .next (.ite h (.setChip (.atLeast h)))

/-! ### PortEvents -/

theorem Sized.modPort {p f} (h : Sized t) : Sized (t.modPort p f) :=
  .setPort h

theorem Sized.resendRail {p} (h : Sized t) : Sized (t.resendRail p) := by
  unfold State.resendRail
  refine .foldl h fun u kv hu => ?_
  refine .frame (SizedSnd.foldl (p := (([] : List TxPkt), u)) hu fun q x hq => ?_)
  split
  · exact Sized.putOnRail (.flitEnergy hq)
  · exact hq

theorem Sized.portDown {p reason} (h : Sized t) : Sized (t.portDown p reason) := by
  unfold State.portDown
  exact .resendRail (.post (.setPort h))

theorem Sized.remapped {p w reason how lmap} (h : Sized t) : Sized (t.remapped p w reason how lmap) :=
  .post (.logged h)

theorem Sized.tellWl {p w reason} (h : Sized t) : Sized (t.tellWl p w reason) :=
  .post (.logged h)

theorem Sized.failWl {p w reason} (h : Sized t) : Sized (t.failWl p w reason) := by
  unfold State.failWl
  extract_lets +onlyGivenNames v
  refine .ite h ?_
  extract_lets +onlyGivenNames s1 v1
  have h1 : Sized s1 := .tellWl h
  refine .ite (.setPort h1) ?_
  extract_lets +onlyGivenNames target lane
  clear_value lane
  split
  · exact .setPort h1
  · split
    · exact .setPort (.ite h1 (.remapped h1))
    · exact .portDown (.setPort h1)

theorem execWavelengthFail_sized {p w reason} (h : Sized t) : SizedOut (execWavelengthFail p w reason t) :=
  .next (.failWl h)

theorem execLaneRemapDone_sized {p lane} (h : Sized t) : SizedOut (execLaneRemapDone p lane t) := by
  unfold execLaneRemapDone
  exact .next (by
    split
    · exact h
    · exact .setPort (.remapped h))

theorem execPortNarrowDone_sized {p} (h : Sized t) : SizedOut (execPortNarrowDone p t) :=
  .next (.ite (.modPort h) h)

theorem execPortWakeDone_sized {p} (h : Sized t) : SizedOut (execPortWakeDone p t) :=
  .next (.ite (.modPort h) h)

theorem execPortAutoWake_sized {p} (h : Sized t) : SizedOut (execPortAutoWake p t) := by
  unfold execPortAutoWake
  exact .next (.ite (.setPort h) h)

theorem execFarEndNarrow_sized {p width} (h : Sized t) : SizedOut (execFarEndNarrow p width t) := by
  unfold execFarEndNarrow
  exact .next (.ite (.setPort h) h)

theorem execFarEndWake_sized {p width} (h : Sized t) : SizedOut (execFarEndWake p width t) := by
  unfold execFarEndWake
  exact .next (.ite (.setPort h) h)

theorem Sized.pcfgWrite {p v} (h : Sized t) : Sized (t.pcfgWrite p v) := by
  unfold State.pcfgWrite
  exact .ite (.count h) (.ite (.ite (.portDown (.setPort h)) (.setPort h))
      (.ite (.ite (.setPort h) (.ite (.post (.setPort h)) (.setPort h))) (.setPort h)))

theorem execPortEnable_sized {p v} (h : Sized t) : SizedOut (execPortEnable p v t) :=
  .next (.ite (.pcfgWrite h) h)

theorem execPortDisable_sized {p v} (h : Sized t) : SizedOut (execPortDisable p v t) :=
  .next (.ite (.pcfgWrite h) h)

theorem execPortNarrow_sized {p v} (h : Sized t) : SizedOut (execPortNarrow p v t) :=
  .next (.ite (.pcfgWrite h) h)

theorem execPortWake_sized {p v} (h : Sized t) : SizedOut (execPortWake p v t) :=
  .next (.ite (.pcfgWrite h) h)

theorem Sized.lmapWrite {p v} (h : Sized t) : Sized (t.lmapWrite p v) := by
  unfold State.lmapWrite
  exact .ite (.count h) (.setPort h)

theorem execPortSessionEstablish_sized {p ok lat} (h : Sized t) : SizedOut
    (execPortSessionEstablish p ok lat t) := by
  unfold execPortSessionEstablish
  exact .next (.ite h (.ite (.reconnect (.setPort h)) (.post (.setPort h))))

theorem execSessionRekey_sized {p} (h : Sized t) : SizedOut (execSessionRekey p t) :=
  .next (.ite (.modPort h) h)

theorem Sized.badCodeword {p first} (h : Sized t) : Sized (t.badCodeword p first) := by
  unfold State.badCodeword
  extract_lets +onlyGivenNames v w l s1
  have hs1 : Sized s1 := .setPort (.frame h)
  exact .ite (.failWl hs1) hs1

theorem execCodewordReceive_sized {p first errs flits} (h : Sized t) : SizedOut
    (execCodewordReceive p first errs flits t) := by
  unfold execCodewordReceive
  exact .next (.ite h (.ite (.badCodeword h) (.setPort h)))

theorem execTagGroupVerify_sized {p ok} (h : Sized t) : SizedOut (execTagGroupVerify p ok t) := by
  unfold execTagGroupVerify
  exact .next (by
    split
    · exact h
    · exact .ite (.setPort h) (.ite (.portDown (.setPort h)) (.setPort h)))

theorem execLageUpdate_sized {p w bias mpwr temp hrs} (h : Sized t) : SizedOut
    (execLageUpdate p w bias mpwr temp hrs t) := by
  unfold execLageUpdate
  exact .next (by
    refine .ite h ?_
    extract_lets +onlyGivenNames s1 s2
    have hs2 : Sized s2 := .ite (.post (.setPort h)) (.setPort h)
    exact .ite (.failWl hs2) hs2)

theorem execLageFlashStore_sized (h : Sized t) : SizedOut (execLageFlashStore t) :=
  .next (.frame h)

theorem execTimeCounterSend_sized {p} (h : Sized t) : SizedOut (execTimeCounterSend p t) :=
  .next (.ite h (.modPort h))

theorem execTimeCounterReceive_sized {p t1} (h : Sized t) : SizedOut (execTimeCounterReceive p t1 t) := by
  unfold execTimeCounterReceive
  exact .next (.ite h (.ite (.modDev (.setPort h)) (.setPort h)))

theorem Sized.phyFail {p w reason} (h : Sized t) : Sized (t.phyFail p w reason) :=
  .ite (.tellWl h) (.failWl h)

theorem Sized.phyWrite {p w c} (h : Sized t) : Sized (t.phyWrite p w c) := by
  unfold State.phyWrite
  extract_lets +onlyGivenNames v n old
  refine .ite h (.ite (.count h) ?_)
  extract_lets +onlyGivenNames v0
  refine .ite (.setPort h) ?_
  exact .ite (.phyFail (.ite (.phyFail (.setPort h)) (.setPort h)))
      (.ite (.phyFail (.setPort h)) (.setPort h))

theorem execPhyLaser_sized {p w on} (h : Sized t) : SizedOut (execPhyLaser p w on t) := by
  unfold execPhyLaser
  exact .next (.ite h (.phyWrite h))

theorem execPhyLock_sized {p w} (h : Sized t) : SizedOut (execPhyLock p w t) := by
  unfold execPhyLock
  exact .next (.ite h (.phyWrite h))

theorem execPhyTrain_sized {p w} (h : Sized t) : SizedOut (execPhyTrain p w t) := by
  unfold execPhyTrain
  exact .next (.ite h (.phyWrite h))

theorem execPhyLaserOnDone_sized {p w ok} (h : Sized t) : SizedOut (execPhyLaserOnDone p w ok t) := by
  unfold execPhyLaserOnDone
  exact .next (.ite (.setPort h) h)

theorem execPhyLockDone_sized {p w ok} (h : Sized t) : SizedOut (execPhyLockDone p w ok t) := by
  unfold execPhyLockDone
  exact .next (by
    refine .ite h ?_
    extract_lets +onlyGivenNames s0 s1
    have hs0 : Sized s0 := .ite h (.atLeast h)
    exact .ite (.setPort hs0) (.phyFail (.setPort hs0)))

theorem execPhyTrainDone_sized {p w ok eyeh eyew} (h : Sized t) : SizedOut
    (execPhyTrainDone p w ok eyeh eyew t) := by
  unfold execPhyTrainDone
  exact .next (by
    refine .ite h ?_
    extract_lets +onlyGivenNames bits s0 s1
    have hs0 : Sized s0 := .ite h (.atLeast h)
    exact .ite (.setPort hs0) (.phyFail (.setPort hs0)))

/-! ### FabricEvents -/

theorem Sized.remoteWrite {r ps} (h : Sized t) : SizedRem (t.remoteWrite r ps) := by
  unfold State.remoteWrite
  split
  · split
    · exact .done h
    · split
      · exact .wait h
      · split
        · exact .done (.filterAdd (.spanWrite h))
        · exact .done (.homeAtomic h)
        · exact .done (.homeAtomic h)
        · exact .done (.filterAdd (.homeWrite h))
  · exact .done h

theorem Sized.remoteDo {r} (h : Sized t) : SizedRem (t.remoteDo r) := by
  unfold State.remoteDo
  split
  · exact .fault
  · exact .wait (.parkOn h)
  · exact .wait h
  · extract_lets +onlyGivenNames free
    split
    · exact .wait h
    · extract_lets +onlyGivenNames s1
      have h1 : Sized s1 := by
        unfold s1
        split
        · exact .energy h
        · exact h
      split
      · exact .done h
      · split
        · exact Sized.remoteWrite h1
        · split
          · split
            · split
              split
              · exact .done h1
              · exact .armed (.armAt h1)
            · exact .done h1
          · exact .done h1

theorem Sized.remoteAnswer {r cause why obj last data} (h : Sized t) : Sized
    (t.remoteAnswer r cause why obj last data) :=
  .ite h (.fabSend h)

theorem Sized.remoteStep {r} (h : Sized t) : Sized (t.remoteStep r) := by
  unfold State.remoteStep
  extract_lets +onlyGivenNames before rest keep
  refine .ite (.ite h (.frame h)) ?_
  refine .ite h ?_
  extract_lets +onlyGivenNames last
  split
  · next e0 => exact .ite ((Sized.remoteDo h).along e0) (.frame ((Sized.remoteDo h).along e0))
  · next e0 => exact .frame ((Sized.remoteDo h).along e0)
  · exact .remoteAnswer (.frame h)
  · next e0 => exact .remoteAnswer (.frame ((Sized.remoteDo h).along e0))

theorem execRemoteAccessArrive_sized {r} (h : Sized t) : SizedOut (execRemoteAccessArrive r t) :=
  .next (.remoteStep h)

theorem monOfResp_files {n k g} (h : Sized t) (e : t.monOfResp n = some (k, g)) : Files g :=
  h.groups _ (List.mem_of_find?_eq_some e)

theorem Sized.respGroup {n r} (h : Sized t) : Sized (t.respGroup n r) := by
  unfold State.respGroup
  split
  · split
    · split
      · exact .sentLane h
      · exact h
    · exact .modGrp h fun _ hg => hg.modOp
  · split
    · next e => exact .ite (.monStatus h) (.recordFault h (.of (monOfResp_files h e)))
    · exact h

theorem Sized.respCopy {n r} (h : Sized t) : Sized (t.respCopy n r) := by
  unfold State.respCopy
  split
  · exact h
  · extract_lets +onlyGivenNames s1
    refine .ite (.modSlice h) ?_
    split
    · exact .modSlice h
    · exact .ite (.modSlice h) (.sliceFault (.modSlice h))

theorem Sized.respond {p} (h : Sized t) : Sized (t.respond p) := by
  unfold State.respond
  exact .ite (.respIo h) (.ite (.cuAnswered h) (.ite (.respCopy h) (.respGroup h)))

theorem Sized.fabAcked {dev cls seq} (h : Sized t) : Sized (t.fabAcked dev cls seq) := by
  unfold State.fabAcked
  extract_lets +onlyGivenNames k l
  split
  · exact h
  · exact .fabDrain (.ite (.modHome (.frame h)) (.frame h))

theorem Sized.ackPkt {p} (h : Sized t) : Sized (t.ackPkt p) :=
  .ite (.fabAcked h) (.fabAck h)

theorem Sized.pktEffect {p} (h : Sized t) : Sized (t.pktEffect p) := by
  unfold State.pktEffect
  split
  · exact .respond h
  · exact .frame h
  · exact h
  · exact .frame h

theorem Sized.deliverFrom {n p} (h : Sized t) : Sized (State.deliverFrom n t p) := by
  induction n generalizing t p with
  | zero => exact h
  | succ n ih =>
    unfold State.deliverFrom
    extract_lets k n held twice left fab s1 s2
    have h2 : Sized s2 := .foldl (.ackPkt (.pktEffect (.frame h))) fun _ _ h => .ackPkt (.pktEffect h)
    split
    · exact ih (.frame h2)
    · exact h2

theorem Sized.pktArrive {port p} (h : Sized t) : Sized (t.pktArrive port p) := by
  unfold State.pktArrive
  exact .ite h (.ite (.count h) (.ite (.fabAcked h) (.ite (.deliverFrom h)
      (.ite (.ite h (.frame (.ite (.setPort h) h))) (.ite (.ackPkt (.pktEffect (.setPort h))) (.ackPkt h))))))

theorem execFabricPacketReceive_sized {p pkt} (h : Sized t) : SizedOut
    (execFabricPacketReceive p pkt t) := by
  unfold execFabricPacketReceive
  exact .next (.ite (.pktArrive h) (.ite h (.pktArrive (.setPort h))))

theorem execFabricRetryTimeout_sized {dst cls seq} (h : Sized t) : SizedOut
    (execFabricRetryTimeout dst cls seq t) := by
  unfold execFabricRetryTimeout
  exact .next (by
    split
    · exact h
    · exact .frame (.putOnRail (.flitEnergy (.atLeast h))))

theorem execFrgenWrite_sized {v} (h : Sized t) : SizedOut (execFrgenWrite v t) :=
  .next (.ite (.count h) (.frame h))

theorem execReachabilityRereadDone_sized (h : Sized t) : SizedOut (execReachabilityRereadDone t) := by
  unfold execReachabilityRereadDone
  exact .next (.ite h (.reconnect (.frame h)))

/-! ### Services -/

theorem execWalkComplete_sized {u0 n va} (h : Sized t) : SizedOut (execWalkComplete u0 n va t) := by
  unfold execWalkComplete
  exact .next (by
    refine .ite h ?_
    extract_lets +onlyGivenNames s0 e1 e2 d g1
    split
    · exact .modTr h
    · exact .ite (.modTr (.frame (.modTr h))) (.ite (.modTr (.modTr (.frame (.modTr h))))
        (.modTr (.frame (.modTr h)))))

theorem execServiceRecordPost_sized {n} (h : Sized t) : SizedOut (execServiceRecordPost n t) := by
  unfold execServiceRecordPost
  exact .next (by
    split
    · exact h
    · exact .ite h (.post (.modCtx (.homeWrite h))))

theorem Sized.winFault {p} (h : Sized t) : SizedWin (t.winFault p) :=
  .done (.frame (.release h))

theorem Sized.winTry {f data off len} (h : Sized t) : SizedWin (t.winTry f data off len) := by
  unfold State.winTry
  extract_lets +onlyGivenNames x0 x0 wr p
  split
  · exact .wait h
  · split
    · exact .done (.release h)
    · split
      · exact Sized.winFault h
      · exact .wait (.parkOn h)
      · exact .wait h
      · split
        · split
          · exact .done (.release (.spanEnergy (.spanWrite h)))
          · exact Sized.winFault h
          · next x0 e0 => exact .wait ((Sized.spanOut h).along e0)
        · split
          · exact .done (.release (.spanEnergy h))
          · exact Sized.winFault h
          · next x0 e0 => exact .wait ((Sized.spanIn h).along e0)

theorem Sized.complete {f wr c} (h : Sized t) : Sized (t.complete f wr c) :=
  .ite h (.setHost h)

theorem Sized.winRetry {f l} (h : Sized t) : Sized (State.winRetry f l t) := by
  induction l generalizing t with
  | nil => exact h
  | cons e r ih =>
    unfold State.winRetry
    extract_lets keep
    split
    · exact ih (.setHost h)
    · have hw := Sized.winTry (f := f) (data := e.1) (off := e.2.1) (len := e.2.2) h
      split
      · next e => exact ih (.complete (hw.along e))
      · next e => exact ih (.setHost (hw.along e))

theorem Sized.winAgain (h : Sized t) : Sized (t.winAgain) :=
  .foldl h fun _ _ h0 => .ite h0 (.winRetry (.setHost h0))

theorem Sized.wakeOps {n obj sub code} (h : Sized t) : Sized (t.wakeOps n obj sub code) :=
  .withGroups h (·.mapAll fun _ _ hg => .ite (.of hg) hg)

theorem Sized.wakeFetch {n obj sub} (h : Sized t) : Sized (t.wakeFetch n obj sub) :=
  .withGroups h (·.mapAll fun _ _ hg => .ite (.of hg) hg)

theorem Sized.dropService {n obj sub} (h : Sized t) : Sized (t.dropService n obj sub) :=
  .modCtx h

theorem Sized.wakeParties {n obj sub} (h : Sized t) : Sized (t.wakeParties n obj sub) :=
  .frame h

theorem Sized.osvcDone {n obj sub} (h : Sized t) : Sized (t.osvcDone n obj sub) :=
  .ite (.count h) (.winAgain (.wakeFetch (.wakeOps (.wakeParties (.dropService h)))))

theorem execOsvcServiceDone_sized {n obj sub} (h : Sized t) : SizedOut (execOsvcServiceDone n obj sub t) :=
  .next (.osvcDone h)

theorem stateOf_sized {o : Out} (h : Sized t) (ho : SizedOut o) : Sized (stateOf t o) := by
  unfold stateOf
  split
  · exact ho
  · exact h

theorem Sized.failParty {w} (h : Sized t) : Sized (t.failParty w) := by
  unfold State.failParty
  split
  · split
    · exact .sliceFault h
    · exact h
  · exact .ite h (.remoteAnswer (.frame h))
  · refine .ite h ?_
    split
    · next e0 => exact .complete ((Sized.winFault (.setHost h)).along e0)
    · next e0 => exact (Sized.winFault (.setHost h)).along e0
  · split
    · exact .endColl (.collFault (.release h))
    · exact h
  · exact .haltQueue (.setQueue (.release h))
  · split
    · exact .giveCode (.release h)
    · exact h
  · exact .msgDone (.msgLost (.release h))

theorem Sized.failParties {n obj sub} (h : Sized t) : Sized (t.failParties n obj sub) := by
  unfold State.failParties
  exact .foldl (.wakeParties h) fun _ _ h0 => .failParty h0

theorem Sized.failGroups {n obj sub} (h : Sized t) : Sized (t.failGroups n obj sub) :=
  .foldl h fun _ _ h0 => by
    split
    · exact h0
    · next e =>
      have hg := h0.grp e
      exact .ite h0 (.ite (.setGrp h0 (.of hg)) (.ite (.takeTrap h0 (.of hg)) (.takeTrap h0 (.of hg))))

theorem Sized.osvcFail {n obj sub} (h : Sized t) : Sized (t.osvcFail n obj sub) :=
  .ite (.count h) (.winAgain (.failParties (.failGroups (.wakeOps (.dropService h)))))

theorem execOsvcServiceFail_sized {n obj sub} (h : Sized t) : SizedOut (execOsvcServiceFail n obj sub t) :=
  .next (.osvcFail h)

theorem Sized.osvcWrite {v} (h : Sized t) : Sized (t.osvcWrite v) := by
  unfold State.osvcWrite
  exact .ite (.count h) (.ite (.osvcFail (.modDev h)) (.osvcDone (.modDev h)))

theorem Sized.allTr {f} (h : Sized t) : Sized (t.allTr f) :=
  .frame h

theorem Sized.shoot {p} (h : Sized t) : Sized (t.shoot p) := by
  unfold State.shoot
  split
  · exact .frame (.allTr h)
  · exact .frame h
  · exact .allTr h

theorem Sized.flushCtx {n} (h : Sized t) : Sized (t.flushCtx n) :=
  .foldl h fun _ _ h0 => .foldl h0 fun _ _ h1 => .cuLeave h1

theorem Sized.evictMons {p} (h : Sized t) : Sized (t.evictMons p) :=
  .ite h (.modHome h)

theorem Sized.raiseGen {n obj} (h : Sized t) : Sized (t.raiseGen n obj) := by
  unfold State.raiseGen
  exact .allTr (.homeWrite h)

theorem Sized.publish {p} (h : Sized t) : Sized (t.publish p) := by
  unfold State.publish
  extract_lets +onlyGivenNames fail
  split
  · extract_lets s1 s2
    have h1 : Sized s1 := .modDev (.shoot (.evictMons h))
    unfold s2
    split
    · exact .modCtx h1
    · exact .modCtx h1
    · exact .modCtx (.raiseGen h1)
    · exact h1
  · exact .ite (.modDev (.modCtx (.shoot h))) (.modDev h)

theorem Sized.opubWrite {v} (h : Sized t) : Sized (t.opubWrite v) := by
  unfold State.opubWrite
  exact .ite (.count h) (.ite (.modDev (.modDev h)) (.publish (.modDev h)))

theorem Sized.publishAs {op n obj first count} (h : Sized t) : Sized (t.publishAs op n obj first count) :=
  .ite (.count h) (.opubWrite (.modDev h))

theorem execPublishRecord_sized {n obj} (h : Sized t) : SizedOut (execPublishRecord n obj t) :=
  .next (.publishAs h)

theorem execPublishMove_sized {n obj sub} (h : Sized t) : SizedOut (execPublishMove n obj sub t) :=
  .next (.publishAs h)

theorem execPublishRelease_sized {n obj sub} (h : Sized t) : SizedOut (execPublishRelease n obj sub t) :=
  .next (.publishAs h)

theorem execPublishEntries_sized {n obj first count} (h : Sized t) : SizedOut
    (execPublishEntries n obj first count t) :=
  .next (.publishAs h)

theorem execPublishGranules_sized {n first count} (h : Sized t) : SizedOut
    (execPublishGranules n first count t) :=
  .next (.publishAs h)

theorem execPublishDone_sized (h : Sized t) : SizedOut (execPublishDone t) := by
  unfold execPublishDone
  refine .next ?_
  split
  · exact h
  · refine .ite h (.ite (.flushCtx h) ?_)
    extract_lets s1 wake
    exact .winAgain (.withGroups (.modDev h) (·.mapAll fun _ _ hg => .ite (.of hg) hg))

/-! ### HostEvents -/

theorem Sized.elect (h : Sized t) : Sized (t.elect) := by
  unfold State.elect
  refine .ite h ?_
  split
  · exact h
  · exact .post (.postHeld (.modDev h))

theorem Sized.loseOwner (h : Sized t) : Sized (t.loseOwner) := by
  unfold State.loseOwner
  extract_lets +onlyGivenNames s1
  have hs1 : Sized s1 := .elect (.modDev h)
  exact .ite hs1 (.post hs1)

theorem Sized.ownClaim {f prio} (h : Sized t) : Sized (t.ownClaim f prio) :=
  .ite h (.elect (.modDev h))

theorem execOwnClaim_sized {f prio} (h : Sized t) : SizedOut (execOwnClaim f prio t) :=
  .next (.ownClaim h)

theorem execOwnRelease_sized {f} (h : Sized t) : SizedOut (execOwnRelease f t) :=
  .next (.ite (.loseOwner h) h)

theorem execOwnHeartbeat_sized {f} (h : Sized t) : SizedOut (execOwnHeartbeat f t) :=
  .next (.ite (.modDev h) h)

theorem execOwnerTimeout_sized (h : Sized t) : SizedOut (execOwnerTimeout t) :=
  .next (.ite (.loseOwner (.atLeast h)) h)

theorem Sized.detach {f link} (h : Sized t) : Sized (t.detach f link) := by
  unfold State.detach
  extract_lets +onlyGivenNames x0 s0 s1
  have hs1 : Sized s1 := .modDev (.setHost (.frame h))
  exact .ite (.loseOwner hs1) hs1

theorem execFunctionReset_sized {f} (h : Sized t) : SizedOut (execFunctionReset f t) :=
  .next (.ite (.detach h) h)

theorem Sized.linkDown {pd} (h : Sized t) : Sized (t.linkDown pd) :=
  .foldl h fun _ _ h0 => .ite (.detach h0) h0

theorem execPcieLinkDown_sized {pd} (h : Sized t) : SizedOut (execPcieLinkDown pd t) :=
  .next (.ite (.linkDown h) h)

theorem execPcieLinkUp_sized {pd gen} (h : Sized t) : SizedOut (execPcieLinkUp pd gen t) :=
  .next (.ite h (.foldl h fun _ _ h0 => .setHost h0))

theorem Sized.attWrite {f go} (h : Sized t) : Sized (t.attWrite f go) := by
  unfold State.attWrite
  exact .ite h (.ite (.setHost h) (.ite (.setHost h) h))

theorem Sized.attRequest {f} (h : Sized t) : Sized (t.attRequest f) :=
  .attWrite h

theorem execAttestationRequest_sized {f} (h : Sized t) : SizedOut (execAttestationRequest f t) :=
  .next (.ite (.attRequest h) h)

theorem execAttestationDone_sized {f} (h : Sized t) : SizedOut (execAttestationDone f t) := by
  unfold execAttestationDone
  exact .next (.ite (.setHost h) h)

/-! ### DieEvents -/

theorem Sized.forgetCtx {n} (h : Sized t) : Sized (t.forgetCtx n) := by
  unfold State.forgetCtx
  exact .frame h

theorem Sized.noteAllIdle (h : Sized t) : Sized (t.noteAllIdle) :=
  .foldl h fun _ _ h0 => .noteIdle h0

theorem Sized.disableCtx {n} (h : Sized t) : Sized (t.disableCtx n) := by
  unfold State.disableCtx
  extract_lets s1 s2 s0 qs s3
  have h1 : Sized s1 := .forgetCtx (.dropCumulus (.dropWork h))
  have h2 : Sized s2 := .withGroups h1 (·.filter)
  have h3 : Sized s3 := .foldl (.frame h2) fun _ _ h => .haltQueue h
  exact .noteAllIdle (.winAgain (.modCtx h3))

theorem Sized.ctxCfgWrite {n v} (h : Sized t) : Sized (t.ctxCfgWrite n v) := by
  unfold State.ctxCfgWrite
  exact .ite (.count h) (.ite (.setCtx h) (.ite (.count h) (.ite (.setCtx h) (.disableCtx (.setCtx h)))))

theorem execContextEnable_sized {n v} (h : Sized t) : SizedOut (execContextEnable n v t) :=
  .next (.ite (.ctxCfgWrite h) h)

theorem execContextDisable_sized {n} (h : Sized t) : SizedOut (execContextDisable n t) :=
  .next (.ite (.disableCtx h) h)

theorem Sized.dieCtx {n d} (h : Sized t) : Sized (t.dieCtx n d) := by
  unfold State.dieCtx
  split
  · extract_lets s1 gone s2 s3
    have h1 : Sized s1 := .dropCumulus (.dropWork h)
    have h2 : Sized s2 := .withGroups h1 (·.filter)
    have h3 : Sized s3 := .withGroups h2 (·.mapAll fun _ _ hg => .ite (.of hg) hg)
    exact .modCtx h3
  · exact .ite h (.modCtx h)
  · exact h

theorem Sized.dieAll {d} (h : Sized t) : Sized (t.dieAll d) :=
  .foldl h fun _ _ h0 => .dieCtx h0

theorem execDieHaltDeadline_sized {n} (h : Sized t) : SizedOut (execDieHaltDeadline n t) := by
  unfold execDieHaltDeadline
  refine .next ?_
  split
  · exact .ite h (.withGroups (.atLeast h) (·.mapAll fun _ _ hg => .ite (.of hg) hg))
  · exact h

theorem execDieReportPost_sized {n} (h : Sized t) : SizedOut (execDieReportPost n t) :=
  .next (by
    split
    · exact .ite h (.post (.modCtx h))
    · exact h)

theorem Sized.loseCompute {d} (h : Sized t) : Sized (t.loseCompute d) := by
  unfold State.loseCompute
  extract_lets mine s1 s2 v s3
  have h3 : Sized s3 := .setDie (.foldl (.modHome h) fun _ _ h => .lineStep h)
  exact .withGroups h3 (·.mapAll fun _ _ hg => .ite (.of hg) hg)

theorem Sized.loseMemory {n} (h : Sized t) : Sized (t.loseMemory n) := by
  unfold State.loseMemory
  exact .post (.foldl (.modHome (.foldl h fun _ _ h1 => .settleLine h1)) fun _ _ h2 => .filterAdd h2)

theorem Sized.losePort {pd} (h : Sized t) : Sized (t.losePort pd) := by
  unfold State.losePort
  extract_lets s1 down str s2
  have h1 : Sized s1 := .foldl h fun _ _ h => .ite (.portDown h) h
  have h2 : Sized s2 := by
    unfold s2
    split
    · exact .frame (.linkDown h1)
    · exact .linkDown h1
  exact .ite (.modDev h2) h2

theorem Sized.verdict {c} (h : Sized t) : Sized (t.verdict c) := by
  unfold State.verdict
  refine .ite h ?_
  extract_lets +onlyGivenNames chip s1 die s2 s3
  have h3 : Sized s3 := .cutOff (.setDie (.modDev (.setChip h)))
  exact .ite (.foldl (.loseCompute h3) fun _ _ h => .dieCtx h)
    (.ite (.ite (.dieAll (.modHome h3)) (.loseMemory h3)) (.losePort h3))

theorem execDeadDieVerdict_sized {c} (h : Sized t) : SizedOut (execDeadDieVerdict c t) :=
  .next (.ite (.verdict h) h)

theorem Sized.resetTo {cold} : Sized (t.resetTo cold) :=
  ⟨List.forall_mem_nil _, files_stratusReset⟩

theorem execColdReset_sized : SizedOut (execColdReset t) :=
  .next .resetTo

theorem execDeviceReset_sized : SizedOut (execDeviceReset t) :=
  .next .resetTo

theorem Sized.bootTo {n} (h : Sized t) : Sized (t.bootTo n) :=
  .modDev h

theorem Sized.startFirmware (h : Sized t) : Sized (t.startFirmware) := by
  unfold State.startFirmware
  exact .withStr h fun _ => files_stratusReset

theorem execBootStepDone_sized {ok info} (h : Sized t) : SizedOut (execBootStepDone ok info t) := by
  unfold execBootStepDone
  refine .next (.ite h ?_)
  split
  · exact .ite (.bootTo (.frame h)) (.modDev h)
  · exact .bootTo h
  · exact .ite (.bootTo (.modDev h)) (.ite (.modDev h) (.modDev h))
  · exact .bootTo (.startFirmware h)
  · extract_lets s1 s2
    have h2 : Sized s2 := .ite (.frame h) (.foldl (.frame h) fun _ _ h => .verdict h)
    exact .bootTo (.frame h2)
  · extract_lets s1 s2 s3
    have h2 : Sized s2 := .frame (.modHome (.modDev h))
    have h3 : Sized s3 := .ite h2 (.foldl h2 fun _ _ h => .verdict h)
    exact .bootTo h3
  · exact .bootTo (.frame h)
  · exact .modDev h

theorem execStratusTakeover_sized (h : Sized t) : SizedOut (execStratusTakeover t) := by
  unfold execStratusTakeover
  extract_lets go
  have hgo : ∀ u, Sized u → Sized (go u) := fun _ hu => .post (.modDev (.withStr hu fun _ => files_stratusReset))
  exact .next (.ite h (.ite (hgo _ h) (.ite (hgo _ (.atLeast h)) h)))

/-! ### ConfigSpace -/

theorem Sized.ruled {ok u} (h : Sized t) (hu : Sized u) : Sized (t.ruled ok u) :=
  .ite hu (.count h)

theorem Sized.devWrite {f o v} (h : Sized t) : Sized (t.devWrite f o v) := by
  unfold State.devWrite
  split
  · exact .ruled h (by
      split
      · split
        · exact .ownClaim h
        · exact .ite (.loseOwner h) h
        · exact .ite (.modDev h) h
        · exact h
      · exact h)
  · exact .ruled h (.ite .resetTo h)
  · exact .ruled h (.frame h)
  · exact stateOf_sized h (execFrgenWrite_sized h)
  · exact .opubWrite h
  · exact .modDev h
  · exact .osvcWrite h
  · exact .ruled h (.modDev h)
  · exact .ruled h (.modDev h)
  · exact h

theorem Sized.fnWrite {f o v} (h : Sized t) : Sized (t.fnWrite f o v) := by
  unfold State.fnWrite
  extract_lets +onlyGivenNames x0
  refine .ite (.setHost h) ?_
  split
  · exact .ruled h (.setHost h)
  · exact .ruled h (.setHost h)
  · exact .ruled h (.setHost h)
  · exact .ruled h (.attWrite h)
  · exact h

theorem Sized.ctxWrite {n o v} (h : Sized t) : Sized (t.ctxWrite n o v) := by
  unfold State.ctxWrite
  extract_lets +onlyGivenNames put
  refine .ite (.ruled h (.modCtx h)) ?_
  refine .ite (.ruled h (.modCtx h)) ?_
  refine .ite (.ruled h (.modCtx h)) ?_
  split
  · exact .ctxCfgWrite h
  · exact .ruled h (.modCtx h)
  · exact .ruled h (.modCtx h)
  · exact .ruled h (.modCtx h)
  · exact .ruled h (.modCtx h)
  · exact .ruled h (.modCtx h)
  · exact .ruled h (.modCtx h)
  · exact .ruled h (.modCtx h)
  · exact .ruled h (.modCtx h)
  · exact .ruled h (.modCtx h)
  · exact .ruled h (.modCtx h)
  · exact .ruled h (.modCtx h)
  · exact h

theorem Sized.queueWrite {n o v} (h : Sized t) : Sized (t.queueWrite n o v) := by
  unfold State.queueWrite
  extract_lets +onlyGivenNames q
  split
  · exact .ruled h (.setQueue h)
  · exact .ruled h (.setQueue h)
  · exact .ruled h (.doorbell h)
  · exact .ite h (.ruled h (.setQueue h))
  · exact h

theorem Sized.coreWrite {k o v} (h : Sized t) : Sized (t.coreWrite k o v) := by
  unfold State.coreWrite
  split
  · exact .ruled h (.modCore h)
  · exact .ruled h (.modCore h)
  · exact h

theorem Sized.chipWrite {c o v} (h : Sized t) : Sized (t.chipWrite c o v) := by
  unfold State.chipWrite
  refine .ite (.rrtWrite h) ?_
  refine .ite h ?_
  split
  · exact .rgcfgWrite h
  · exact .ruled h (.setDie h)
  · exact .ruled h (.setCluster h)

theorem Sized.egressWrite {q o v} (h : Sized t) : Sized (t.egressWrite q o v) :=
  .ite h (.ruled h (.setEgr h))

theorem Sized.tlWrite {x v} (h : Sized t) : Sized (t.tlWrite x v) :=
  .syncWake (.modDev h)

theorem Sized.regWrite {f r v} (h : Sized t) : Sized (t.regWrite f r v) := by
  unfold State.regWrite
  split
  · exact .devWrite h
  · exact .fnWrite h
  · exact .ctxWrite h
  · exact .ruled h (.frame h)
  · exact .queueWrite h
  · exact .coreWrite h
  · exact .tlWrite h
  · exact .chipWrite h
  · exact .ite (.pcfgWrite h) (.ite (.lmapWrite h) h)
  · exact .egressWrite h
  · exact .ite (.phyWrite h) h

theorem Sized.noReg {a v} (h : Sized t) : Sized (t.noReg a v) := by
  unfold State.noReg
  exact .ite (.logged (.count h)) (.count h)

theorem Sized.cfgWrite {str f ca v} (h : Sized t) : Sized (t.cfgWrite str f ca v) := by
  unfold State.cfgWrite
  extract_lets +onlyGivenNames a
  refine .ite (.count h) ?_
  split
  · refine .ite ?_ (.count h)
    split
    · exact .regWrite h
    · exact .noReg h
  · exact .ite (.homeWrite h) (.count h)
  · exact .ite (.frame h) (.count h)
  · exact .count h

theorem Sized.bar0 {f ca v} (h : Sized t) : Sized (t.bar0 f ca v) := by
  unfold State.bar0
  exact .ite (.count h) (.ite (.count h) (.ite (.count h) (.cfgWrite h)))

theorem Sized.hostWrite {f ca v} (h : Sized t) : Sized (t.hostWrite f ca v) := by
  unfold State.hostWrite
  exact .ite h (.ite (.winAgain (.bar0 (.setHost h))) (.ite h (.ite (.setHost h) (.bar0 h))))

theorem execConfigRegisterWrite_sized {f ca v} (h : Sized t) : SizedOut (execConfigRegisterWrite f ca v t) :=
  .next (.hostWrite h)

theorem execTimelineEntryWrite_sized {x v} (h : Sized t) : SizedOut (execTimelineEntryWrite x v t) :=
  .next (.ite (.tlWrite h) h)

theorem execDoorbellWrite_sized {f q tail} (h : Sized t) : SizedOut (execDoorbellWrite f q tail t) :=
  .next (.ite (.hostWrite h) (.ite (.count h) h))

theorem execLqstatResume_sized {f q} (h : Sized t) : SizedOut (execLqstatResume f q t) :=
  .next (.ite (.hostWrite h) h)

theorem Sized.hostWindow {f data off len} (h : Sized t) : Sized (t.hostWindow f data off len) := by
  unfold State.hostWindow
  extract_lets +onlyGivenNames x0 e
  refine .ite h ?_
  refine .ite (.count h) ?_
  refine .ite (.setHost h) ?_
  split
  · next x0 c e0 => exact .complete ((Sized.winTry h).along e0)
  · next x0 e0 => exact .setHost ((Sized.winTry h).along e0)

theorem execHostWindowRead_sized {f off len} (h : Sized t) : SizedOut (execHostWindowRead f off len t) :=
  .next (.hostWindow h)

theorem execHostWindowWrite_sized {f off data} (h : Sized t) : SizedOut (execHostWindowWrite f off data t) :=
  .next (.hostWindow h)

/-! ### Scalar -/

theorem scalar3_sized {fn cls d a b f} (h : Sized t) : SizedOut (scalar3 fn cls d a b f t) :=
  issue_sized h fun _ _ _ _ _ h1 => .grp h1.writeS

theorem execSsel_sized {d a b e} (h : Sized t) : SizedOut (execSsel d a b e t) := by
  unfold execSsel
  exact issue_sized h fun _ _ _ _ _ h1 => .grp h1.writeS

theorem scalar4_sized {fn cls d a i f} (h : Sized t) : SizedOut (scalar4 fn cls d a i f t) :=
  issue_sized h fun _ _ _ _ _ h1 => .grp h1.writeS

theorem execSli_sized {d i} (h : Sized t) : SizedOut (execSli d i t) :=
  issue_sized h fun _ _ _ _ _ h1 => .grp h1.writeS

theorem execSlih_sized {d i} (h : Sized t) : SizedOut (execSlih d i t) :=
  issue_sized h fun _ _ _ _ _ h1 => .grp h1.writeS

theorem execSadpc_sized {d i} (h : Sized t) : SizedOut (execSadpc d i t) :=
  issue_sized h fun _ _ _ _ _ h1 => .grp h1.writeS

theorem execMfs_sized {d r} (h : Sized t) : SizedOut (execMfs d r t) :=
  issue2_sized h (fun _ _ _ _ _ h1 => .ite (.st (.setGrp (.l1Clear h) h1.writeS)) (.grp h1.writeS))
    fun _ _ _ _ _ h1 => .grp h1.writeS

theorem mtsWb_sized {u0 g g1 v} (h1 : Files g1) : SizedEff (mtsWb u0 g g1 v) :=
  .ite .trap (.ite spfTrap_sized (.grp h1.setWb))

theorem mtsPriv_sized {u0 k g g1 r v} (h : Sized t) (h1 : Files g1) : SizedEff (mtsPriv u0 t k g g1 r v) :=
  .ite .trap (.ite (.st (.modCtx (.setGrp h h1))) (.st (.modWg (.setGrp h h1))))

theorem mtsEff_sized {u0 r a k x5 g g1} (h : Sized t) (h1 : Files g1) : SizedEff (mtsEff u0 r a t k x5 g g1) := by
  unfold mtsEff
  extract_lets +onlyGivenNames v
  split
  · exact .grp (.of h1)
  · exact .grp (.of h1)
  · exact .grp (.of h1)
  · exact mtsWb_sized h1
  · exact .grp (.of h1)
  · exact .grp (.of h1)
  · exact .grp (.of h1)
  · exact .grp (.of h1)
  · exact .trap
  · exact mtsPriv_sized h h1
  · exact mtsPriv_sized h h1
  · exact .trap

theorem mtsStr_sized {u0 r a x4 x5 g g1} (h1 : Files g1) : SizedEff (mtsStr u0 r a t x4 x5 g g1) := by
  unfold mtsStr
  extract_lets +onlyGivenNames v
  split
  · exact .grp (.of h1)
  · exact .grp (.of h1)
  · exact .grp (.of h1)
  · exact .grp (.of h1)
  · exact .grp (.of h1)
  · exact .grp (.of h1)
  · exact .trap

theorem execMts_sized {r a} (h : Sized t) : SizedOut (execMts r a t) := by
  unfold execMts
  exact issue2_sized h (fun _ _ _ _ hg h1 => mtsEff_sized h h1) fun _ _ _ _ hg h1 => mtsStr_sized h1

theorem execSext_sized {d a b} (h : Sized t) : SizedOut (execSext d a b t) :=
  issue_sized h fun _ _ _ _ _ h1 => .grp h1.writeS

theorem execSins_sized {d a b} (h : Sized t) : SizedOut (execSins d a b t) :=
  issue_sized h fun _ _ _ _ _ h1 => .grp h1.writeDst

theorem scalar8_sized {fn d a f} (h : Sized t) : SizedOut (scalar8 fn d a f t) :=
  issue_sized h fun _ _ _ _ _ h1 => .grp h1.writeS

theorem execSfirst_sized {d a} (h : Sized t) : SizedOut (execSfirst d a t) :=
  issue_sized h fun _ _ _ _ _ h1 => .grp h1.writeS

theorem execSballot_sized {d a} (h : Sized t) : SizedOut (execSballot d a t) :=
  issue_sized h fun _ _ _ _ _ h1 => .grp h1.writeS

theorem execSmask_sized {d a} (h : Sized t) : SizedOut (execSmask d a t) :=
  issue_sized h fun _ _ _ _ _ h1 => .grp h1.writeP

/-! ### VecInt -/

theorem lane2_sized {fn cls x d a b f} (h : Sized t) : SizedOut (lane2 fn cls x d a b f t) :=
  issue_sized h fun _ _ _ _ _ h1 => .grp h1.writeF

theorem lane1_sized {fn cls x d a f} (h : Sized t) : SizedOut (lane1 fn cls x d a f t) :=
  issue_sized h fun _ _ _ _ _ h1 => .grp h1.writeF

theorem lane3_sized {fn cls x d a b f} (h : Sized t) : SizedOut (lane3 fn cls x d a b f t) :=
  issue_sized h fun _ _ _ _ _ h1 => .grp h1.writeF

theorem lanePair_sized {fn x d a b f} (h : Sized t) : SizedOut (lanePair fn x d a b f t) :=
  issue_sized h fun _ _ _ _ _ h1 => .grp h1.writeF.writeF

theorem lane10_sized {fn cls x d a i f} (h : Sized t) : SizedOut (lane10 fn cls x d a i f t) :=
  issue_sized h fun _ _ _ _ _ h1 => .grp h1.writeF

/-! ### VecFloat -/

theorem fWrite_sized {d m g1 f} (h1 : Files g1) : SizedEff (fWrite d m g1 f) := by
  unfold fWrite
  exact .grp h1.writeF.raise

theorem fl2_sized {maj fn cls x d a b f} (h : Sized t) : SizedOut (fl2 maj fn cls x d a b f t) :=
  issue_sized h fun _ _ _ _ _ h1 => fWrite_sized h1

theorem fl1_sized {maj fn cls x d a f} (h : Sized t) : SizedOut (fl1 maj fn cls x d a f t) :=
  issue_sized h fun _ _ _ _ _ h1 => fWrite_sized h1

theorem fl3_sized {fn cls x d a b f} (h : Sized t) : SizedOut (fl3 fn cls x d a b f t) :=
  issue_sized h fun _ _ _ _ _ h1 => fWrite_sized h1

theorem cmpI_sized {fn x d a b f} (h : Sized t) : SizedOut (cmpI fn x d a b f t) :=
  issue_sized h fun _ _ _ _ _ h1 => .grp h1.writePBits

theorem cmpF_sized {fn kind x d a b} (h : Sized t) : SizedOut (cmpF fn kind x d a b t) :=
  issue_sized h fun _ _ _ _ _ h1 => .grp h1.writePBits.raise

theorem predOp_sized {fn x d a b f} (h : Sized t) : SizedOut (predOp fn x d a b f t) :=
  issue_sized h fun _ _ _ _ _ h1 => .grp h1.writePBits

theorem execFcls_sized {x d a b} (h : Sized t) : SizedOut (execFcls x d a b t) :=
  issue_sized h fun _ _ _ _ _ h1 => .grp h1.writePBits

theorem execVmrg_sized {x d a b} (h : Sized t) : SizedOut (execVmrg x d a b t) :=
  issue_sized h fun _ _ _ _ _ h1 => .grp h1.writeF

/-! ### VecLane -/

theorem execVperm_sized {x d a b} (h : Sized t) : SizedOut (execVperm x d a b t) :=
  issue_sized h fun _ _ _ _ _ h1 => .grp h1.writeF

theorem execVlane_sized {x d a b} (h : Sized t) : SizedOut (execVlane x d a b t) :=
  issue_sized h fun _ _ _ _ _ h1 => .grp h1.writeF

theorem redInt_sized {fn cls x d a e f sx} (h : Sized t) : SizedOut (redInt fn cls x d a e f sx t) :=
  issue_sized h fun _ _ _ _ _ h1 => .grp h1.writeS

theorem redFl_sized {fn x d a e op} (h : Sized t) : SizedOut (redFl fn x d a e op t) :=
  issue_sized h fun _ _ _ _ _ h1 => .grp h1.writeS.raise

theorem scanInt_sized {fn x d a keep} (h : Sized t) : SizedOut (scanInt fn x d a keep t) :=
  issue_sized h fun _ _ _ _ _ h1 => .grp h1.writeF

theorem execFscan_sized {x d a} (h : Sized t) : SizedOut (execFscan x d a t) :=
  issue_sized h fun _ _ _ _ _ h1 => fWrite_sized h1

theorem execVcompact_sized {x d a} (h : Sized t) : SizedOut (execVcompact x d a t) :=
  issue_sized h fun _ _ _ _ _ h1 => .grp h1.writeF

theorem execVexpand_sized {x d a} (h : Sized t) : SizedOut (execVexpand x d a t) :=
  issue_sized h fun _ _ _ _ _ h1 => .grp h1.writeF

theorem execVmatch_sized {x d a} (h : Sized t) : SizedOut (execVmatch x d a t) :=
  issue_sized h fun _ _ _ _ _ h1 => .grp h1.writeF.writeF

/-! ### Convert -/

theorem conv1U_sized {u0 x d a f} (h : Sized t) : SizedOut (conv1U u0 x d a f t) :=
  issue_sized h fun _ _ _ _ _ h1 => fWrite_sized h1

theorem conv1_sized {fn cls x d a b f} (h : Sized t) : SizedOut (conv1 fn cls x d a b f t) :=
  conv1U_sized h

theorem execCvtfh_sized {x d a h3} (h : Sized t) : SizedOut (execCvtfh x d a h3 t) := by
  unfold execCvtfh
  exact issue_sized h fun _ _ _ _ hg h1 => fWrite_sized h1

theorem execCvtf8_sized {x d a c} (h : Sized t) : SizedOut (execCvtf8 x d a c t) :=
  issue_sized h fun _ _ _ _ _ h1 => fWrite_sized h1

theorem execFpack4_sized {x d a c} (h : Sized t) : SizedOut (execFpack4 x d a c t) :=
  issue_sized h fun _ _ _ _ _ h1 => fWrite_sized h1

theorem execFunpk4_sized {x d a c} (h : Sized t) : SizedOut (execFunpk4 x d a c t) :=
  issue_sized h fun _ _ _ _ _ h1 => .grp h1.writeF.writeF.raise

theorem execMxscl_sized {x d a} (h : Sized t) : SizedOut (execMxscl x d a t) :=
  issue_sized h fun _ _ _ _ _ h1 => .ite (.grp h1.writeS.raise) (.grp h1.writeS)

theorem execMxq_sized {x d a b} (h : Sized t) : SizedOut (execMxq x d a b t) :=
  issue_sized h fun _ _ _ _ _ h1 => .ite (.grp h1) (.ite (.grp h1.raise) (.grp h1.writeF.raise))

theorem execMxdq_sized {x d a b} (h : Sized t) : SizedOut (execMxdq x d a b t) :=
  issue_sized h fun _ _ _ _ _ h1 => .ite (fWrite_sized h1) (fWrite_sized h1)

theorem execSrseed_sized {x a} (h : Sized t) : SizedOut (execSrseed x a t) :=
  issue_sized h fun _ _ _ _ _ h1 => .grp (.ite h1 (.of h1))

/-! ### PowerEvents -/

theorem Sized.fill {core} (h : Sized t) : Sized (t.fill core) := by
  unfold State.fill
  exact .modCore (.freeValue (.freeValue h))

theorem execPowerEstimate_sized {core drop} (h : Sized t) : SizedOut (execPowerEstimate core drop t) := by
  unfold execPowerEstimate
  exact .next (.ite h (.noteIdle (.ite (.fill (.setCore (.settleCore h))) (.setCore (.settleCore h)))))

theorem Sized.lvIn {core} (h : Sized t) : Sized (t.lvIn core) :=
  .modCore (.settleCore h)

theorem execLvEnter_sized {core} (h : Sized t) : SizedOut (execLvEnter core t) :=
  .next (.ite h (.ite (.ite (.lvWish h) h) (.lvWish (.lvIn h))))

theorem execLvExit_sized {core} (h : Sized t) : SizedOut (execLvExit core t) := by
  unfold execLvExit
  exact .next (.ite h (.ite (.lvWish h) (.lvWish (.lvOut h))))

theorem execLvTransitionDone_sized {core} (h : Sized t) : SizedOut (execLvTransitionDone core t) := by
  unfold execLvTransitionDone
  exact .next (.ite h (.modCore (.settleCore (.atLeast h))))

theorem Sized.capOne {l} (h : Sized t) : Sized (t.capOne l) :=
  .foldl h fun _ _ h0 => .modCore (.ite h0 (.lvIn h0))

theorem Sized.uncapOne {l} (h : Sized t) : Sized (t.uncapOne l) :=
  .foldl h fun _ _ h0 => .ite (.modCore h0) (.lvOut (.modCore h0))

theorem execPowerCapStep_sized {pkg cds mem pho} (h : Sized t) : SizedOut
    (execPowerCapStep pkg cds mem pho t) := by
  unfold execPowerCapStep
  exact .next (by
    refine .ite ?_ ?_
    · split
      · exact .capOne (.modDev (.atLeast h))
      · exact .modDev (.atLeast h)
    · refine .ite ?_ (.modDev (.atLeast h))
      split
      · exact .uncapOne (.modDev (.atLeast h))
      · exact (.modDev (.atLeast h)))

/-! ### MgmtUnits -/

theorem launchEff_sized {u0 d a k x5 g g1} (h : Sized t) (h1 : Files g1) : SizedEff (launchEff u0 d a t k x5 g g1) := by
  unfold launchEff
  exact .ite .trap (.ite .trap (.ite .wait (.st (.setGrp (.frame h) h1.addOp))))

theorem execLaunch_sized {d a} (h : Sized t) : SizedOut (execLaunch d a t) := by
  unfold execLaunch
  exact issue_sized h fun _ _ _ _ hg h1 => launchEff_sized h h1

theorem preemptEff_sized {d a b k m g g1} (h : Sized t) (h1 : Files g1) : SizedEff (preemptEff d a b t k m g g1) := by
  unfold preemptEff
  exact .ite .wait (.st (.ite (.doPreempt (.setGrp (.frame h) h1.addOp)) (.setGrp (.frame h) h1.addOp)))

theorem preemptStr_sized {d a b x4 x5 g g1} (h : Sized t) (hg : Files g) (h1 : Files g1) :
    SizedEff (preemptStr d a b t x4 x5 g g1) := by
  unfold preemptStr
  extract_lets +onlyGivenNames x0 y c s1
  have hs1 : Sized s1 := .ite (.doPreempt h) h
  exact .ite (.grp h1.writeS) (.ite (.st (.withStr hs1 fun _ => .writeS (.of h1))) (.waitSt (.withStr hs1 fun _ => .of hg)))

theorem execPreempt_sized {d a b} (h : Sized t) : SizedOut (execPreempt d a b t) := by
  unfold execPreempt
  exact issue2_sized h (fun _ _ _ _ hg h1 => preemptEff_sized h h1) fun _ _ _ _ hg h1 => preemptStr_sized h hg h1

theorem resumeEff_sized {d a b k m g g1} (h : Sized t) (h1 : Files g1) : SizedEff (resumeEff d a b t k m g g1) := by
  unfold resumeEff
  exact .ite .wait (.st (.ite (.holdImages (.holdNamed (.setGrp (.frame h) h1.addOp))) (.setGrp (.frame h) h1.addOp)))

theorem resumeStr_sized {d a b x4 x5 g g1} (h : Sized t) (h1 : Files g1) : SizedEff (resumeStr d a b t x4 x5 g g1) := by
  unfold resumeStr
  exact .st (.withStr (.ite (.holdImages (.holdNamed h)) h) fun _ => h1.writeS)

theorem execResume_sized {d a b} (h : Sized t) : SizedOut (execResume d a b t) := by
  unfold execResume
  exact issue2_sized h (fun _ _ _ _ hg h1 => resumeEff_sized h h1) fun _ _ _ _ hg h1 => resumeStr_sized h h1

theorem cfgrdEff_sized {u0 d a k x5 g g1} (h : Sized t) (h1 : Files g1) : SizedEff (cfgrdEff u0 d a t k x5 g g1) := by
  unfold cfgrdEff
  extract_lets +onlyGivenNames ca
  split
  · exact .trap
  · exact .ite .wait (.st (.setGrp (.l1Clear (.frame h)) h1.addOp))

theorem cfgrdStr_sized {u0 d a x4 x5 g g1} (h1 : Files g1) : SizedEff (cfgrdStr u0 d a t x4 x5 g g1) := by
  unfold cfgrdStr
  extract_lets +onlyGivenNames ca
  split
  · exact .trap
  · exact .grp h1.writeS

theorem execCfgrd_sized {d a} (h : Sized t) : SizedOut (execCfgrd d a t) := by
  unfold execCfgrd
  exact issue2_sized h (fun _ _ _ _ hg h1 => cfgrdEff_sized h h1) fun _ _ _ _ hg h1 => cfgrdStr_sized h1

theorem cfgwrEff_sized {u0 a b k x5 g g1} (h : Sized t) (h1 : Files g1) : SizedEff (cfgwrEff u0 a b t k x5 g g1) := by
  unfold cfgwrEff
  extract_lets +onlyGivenNames ca
  split
  · exact .trap
  · exact .ite .wait (.st (.setGrp (.frame h) h1.addOp))

theorem cfgwrStr_sized {u0 a b x4 x5 g g1} (h : Sized t) (h1 : Files g1) : SizedEff (cfgwrStr u0 a b t x4 x5 g g1) := by
  unfold cfgwrStr
  extract_lets +onlyGivenNames ca
  split
  · exact .trap
  · exact .st (.cfgWrite (.withStr h fun _ => h1))

theorem execCfgwr_sized {a b} (h : Sized t) : SizedOut (execCfgwr a b t) := by
  unfold execCfgwr
  exact issue2_sized h (fun _ _ _ _ hg h1 => cfgwrEff_sized h h1) fun _ _ _ _ hg h1 => cfgwrStr_sized h h1

/-! ### MemEvents -/

theorem Sized.sendOp {k g o} (h : Sized t) : Sized (t.sendOp k g o) :=
  .ite h (.ite (.cuFlush h) (.ite (.modGrp (.sendRemote h) fun _ hg => hg.modOp) h))

theorem Sized.remoteFault {k g o a} (h : Sized t) : Sized (t.remoteFault k g o a) := by
  unfold State.remoteFault
  extract_lets +onlyGivenNames b f s1
  have hs1 : Sized s1 := by
    unfold s1
    split
    · exact .storeLanes h
    · exact .filterDrop h
  split
  · next e => exact .recordFault hs1 (hs1.grp e).endUnit
  · exact hs1

theorem Sized.returnLaunch {k g o} (h : Sized t) : Sized (t.returnLaunch k g o) := by
  unfold State.returnLaunch
  refine .ite h ?_
  refine .ite (.cuFlush h) ?_
  split
  · next e0 => exact .giveCode ((Sized.doLaunch h).along e0)
  · next e0 => exact (Sized.doLaunch h).along e0

theorem Sized.returnCrsz {k g o} (h : Sized t) : Sized (t.returnCrsz k g o) := by
  unfold State.returnCrsz
  exact .ite h (.giveCode (.doCrsz h))

theorem Sized.returnCfgrd {k g o} (h : Sized t) : Sized (t.returnCfgrd k g o) :=
  .ite h (.l1Clear (.giveCode h))

theorem Sized.performCfgwr {k g o} (h : Sized t) : Sized (t.performCfgwr k g o) :=
  .ite h (.ite (.cuFlush h) (.cfgWrite (.modGrp h fun _ hg => hg.finishOp)))

theorem liveOp_files {k op g o} (h : Sized t) (e : t.liveOp k op = some (g, o)) : Files g := by
  unfold State.liveOp at e
  split at e
  · cases e
  · next e1 =>
    split at e
    · split_ifs at e
      cases e
      exact h.grp e1
    · cases e

theorem execLoadReturn_sized {k op} (h : Sized t) : SizedOut (execLoadReturn k op t) :=
  .next (.takeParked (by
    split
    · exact h
    · next e =>
      have hg := liveOp_files h e
      refine .ite h ?_
      refine .ite (.sendOp h) ?_
      split
      · exact .remoteFault h
      · exact .returnLoad h hg
      · exact .returnLoad h hg
      · exact .returnLoad h hg
      · exact .ite (.remoteFault h) h
      · exact .returnAtom h hg
      · exact .returnLaunch h
      · exact .ite (.giveCode h) h
      · exact .giveCode h
      · exact .returnCrsz h
      · exact .returnCfgrd h
      · exact .recvGo h hg
      · exact h))

theorem execStorePerformed_sized {k op} (h : Sized t) : SizedOut (execStorePerformed k op t) :=
  .next (.takeParked (by
    split
    · exact h
    · next e =>
      have hg := liveOp_files h e
      refine .ite h ?_
      refine .ite (.sendOp h) ?_
      split
      · exact .ite (.remoteFault h) h
      · exact .performStore h
      · exact .ite (.remoteFault h) h
      · exact .doneRed h hg
      · exact .performCfgwr h
      · exact .acceptOp h
      · exact h))

theorem execWaitingTableRetry_sized {k op} (h : Sized t) : SizedOut (execWaitingTableRetry k op t) :=
  .next (by
    split
    · exact h
    · next e =>
      have hg := liveOp_files h e
      refine .ite h ?_
      split
      · exact .ite (.retryOp h (.of hg)) (.mwaitTry h hg)
      · exact .ite (.retryOp h hg) (.modGrp h fun _ hg => hg.modOp)
      · exact .retryOp h hg)

/-! ### Dispatch -/

/-- Every instruction keeps the files' sizes, one lemma for each or for the units that are issued alike. -/
theorem exec_sized {i} (h : Sized t) : SizedOut (exec i t) := by
  unfold exec
  cases i with
  | nop => exact execNop_sized h
  | exit => exact execExit_sized h
  | trap => exact execTrap_sized h
  | brk => exact execBrk_sized h
  | rte => exact execRte_sized h
  | yield => exact execYield_sized h
  | ret => exact execRet_sized h
  | winb => exact execWinb_sized h
  | vsync => exact execVsync_sized h
  | sleep => exact execSleep_sized h
  | qcfg => exact execQcfg_sized h
  | qrst => exact execQrst_sized h
  | setfmt => exact execSetfmt_sized h
  | setmode => exact execSetmode_sized h
  | bra => exact execBra_sized h
  | bz => exact execBz_sized h
  | bnz => exact execBnz_sized h
  | bltz => exact execBltz_sized h
  | bgez => exact execBgez_sized h
  | call => exact execCall_sized h
  | calli => exact execCalli_sized h
  | jmpi => exact execJmpi_sized h
  | vbr => exact execVbr_sized h
  | vbrall => exact execVbrall_sized h
  | vbrany => exact execVbrany_sized h
  | vjoin => exact execVjoin_sized h
  | sadd | ssub | smul | smulh | smulhn | sdiv | sdivn | srem | sremn | sand | sor | sxor | sandn | sshl | sshr | ssra | srol |
    smin | smax | sminn | smaxn | sceq | scne | sclt | scle | scltn | sclen => exact scalar3_sized h
  | ssel => exact execSsel_sized h
  | saddi | sandi | sori | sxori | sshli | sshri | ssrai | sclti => exact scalar4_sized h
  | sli => exact execSli_sized h
  | slih => exact execSlih_sized h
  | sadpc => exact execSadpc_sized h
  | mfs => exact execMfs_sized h
  | mts => exact execMts_sized h
  | sext => exact execSext_sized h
  | sins => exact execSins_sized h
  | spopc | sclz | sctz | sbrev => exact scalar8_sized h
  | sfirst => exact execSfirst_sized h
  | sballot => exact execSballot_sized h
  | smask => exact execSmask_sized h
  | vadd | vsub | vmul | vmulh | vmulhn | vdiv | vdivn | vrem | vremn | vmin | vmax | vminn | vmaxn | vand | vor | vxor | vandn |
    vshl | vshr | vsra | vrol | vbfe | vclmul | vclmulh | vsadd | vssub => exact lane2_sized h
  | vmad | vfsh | vbfi | vdot4 | vdot4n => exact lane3_sized h
  | vabs | vpopc | vclz | vbrev | vmov => exact lane1_sized h
  | vadd64 | vsub64 => exact lanePair_sized h
  | vaddi | vandi | vori | vxori | vshli | vshri | vsrai | vmuli => exact lane10_sized h
  | fadd | fsub | fmul | fmin | fmax | fminm | fmaxm | fcpys | hadd2 | hmul2 | fldexp | fdiv => exact fl2_sized h
  | ffma | ffms | fnma | fdot2 | hfma2 => exact fl3_sized h
  | fabs | fneg | fround | fgetexp | frcp | frsq | fsqrt | fexp2 | flog2 | fsin | fcos | ftanh | fsig | ferf => exact fl1_sized h
  | vceq | vcne | vclt | vcle | vcltn | vclen => exact cmpI_sized h
  | fceq | fcne | fclt | fcle | fcun => exact cmpF_sized h
  | fcls => exact execFcls_sized h
  | pand | por | pxor | pandn | pnot => exact predOp_sized h
  | vmrg => exact execVmrg_sized h
  | vperm => exact execVperm_sized h
  | vlane => exact execVlane_sized h
  | vredadd | vredmin | vredmax | vredminn | vredmaxn | vredand | vredor | vredxor => exact redInt_sized h
  | fredadd | fredmin | fredmax => exact redFl_sized h
  | vscan | vscanx => exact scanInt_sized h
  | fscan => exact execFscan_sized h
  | vcompact => exact execVcompact_sized h
  | vexpand => exact execVexpand_sized h
  | vmatch => exact execVmatch_sized h
  | cvtfi | cvtfn | cvtif | cvtnf | cvthf => exact conv1_sized h
  | cvtfh => exact execCvtfh_sized h
  | cvtf8 => exact execCvtf8_sized h
  | cvt8f => exact conv1U_sized h
  | fpack4 => exact execFpack4_sized h
  | funpk4 => exact execFunpk4_sized h
  | mxscl => exact execMxscl_sized h
  | mxq => exact execMxq_sized h
  | mxdq => exact execMxdq_sized h
  | srseed => exact execSrseed_sized h
  | ldI8 | ldN8 | ldI16 | ldN16 | ldB32 | ldB64 | ldB128 | ldwB32 | ldwB64 | ldwB128 => exact loadUnit_sized h
  | ldm => exact execLdm_sized h
  | stB8 | stB16 | stB32 | stB64 | stB128 | stwB32 | stwB64 | stwB128 => exact storeUnit_sized h
  | stm => exact execStm_sized h
  | sta | sta64 => exact staUnit_sized h
  | atomAdd | atomSub | atomMin | atomMax | atomMinn | atomMaxn | atomAnd | atomOr | atomXor | atomXchg | atomCas | atomFadd |
    atomFmin | atomFmax | atomBfadd2 | atomIncw => exact atomUnit_sized h
  | redAdd | redSub | redMin | redMax | redMinn | redMaxn | redAnd | redOr | redXor | redFadd | redFmin | redFmax | redBfadd2 =>
    exact redUnit_sized h
  | wadd | wcas => exact wgmAtomUnit_sized h
  | ldo => exact execLdo_sized h
  | sto => exact execSto_sized h
  | ldob => exact execLdob_sized h
  | stob => exact execStob_sized h
  | oinfo => exact execOinfo_sized h
  | oprobe => exact execOprobe_sized h
  | fence => exact execFence_sized h
  | pfence => exact execPfence_sized h
  | mwait => exact execMwait_sized h
  | fla => exact execFla_sized h
  | cinv => exact execCinv_sized h
  | cwb => exact execCwb_sized h
  | crsz => exact execCrsz_sized h
  | pref => exact execPref_sized h
  | cpy | cpyb | cpyt | cpyx | gath | scat | scata => exact copyUnit_sized h
  | mma | mxloop | mxzero | mxrel => exact mxUnit_sized h
  | tld | tst => exact tileUnit_sized h
  | mxcfg => exact execMxcfg_sized h
  | balloc => exact execBalloc_sized h
  | bfree => exact execBfree_sized h
  | barv => exact execBarv_sized h
  | barw => exact execBarw_sized h
  | barx => exact execBarx_sized h
  | bar => exact execBar_sized h
  | barPx => exact execBarPx_sized h
  | semaAdd | semaSet => exact semaUnit_sized h
  | semw => exact execSemw_sized h
  | tlrd => exact execTlrd_sized h
  | tlwait => exact execTlwait_sized h
  | waitk => exact execWaitk_sized h
  | waitr => exact execWaitr_sized h
  | spawn => exact execSpawn_sized h
  | sendh => exact execSendh_sized h
  | recvq => exact execRecvq_sized h
  | coll => exact execColl_sized h
  | peerq => exact execPeerq_sized h
  | launch => exact execLaunch_sized h
  | preempt => exact execPreempt_sized h
  | resume => exact execResume_sized h
  | cfgrd => exact execCfgrd_sized h
  | cfgwr => exact execCfgwr_sized h
  | wait => exact execWait_sized h
  | doorbellWrite => exact execDoorbellWrite_sized h
  | launchRecordTake => exact execLaunchRecordTake_sized h
  | lqstatResume => exact execLqstatResume_sized h
  | hostWindowRead => exact execHostWindowRead_sized h
  | hostWindowWrite => exact execHostWindowWrite_sized h
  | placeWorkgroup => exact execPlaceWorkgroup_sized h
  | eprioAge => exact execEprioAge_sized h
  | evictWorkgroup => exact execEvictWorkgroup_sized h
  | saveBegin => exact execSaveBegin_sized h
  | saveComplete => exact execSaveComplete_sized h
  | resumeWorkgroup => exact execResumeWorkgroup_sized h
  | resumeComplete => exact execResumeComplete_sized h
  | gridComplete => exact execGridComplete_sized h
  | regroupBinTimer => exact execRegroupBinTimer_sized h
  | regroupStoreRoom => exact execRegroupStoreRoom_sized h
  | clusterIdleGate => exact execClusterIdleGate_sized h
  | clusterUngate => exact execClusterUngate_sized h
  | rulingClassHoldEnd => exact execRulingClassHoldEnd_sized h
  | classWaitRaise => exact execClassWaitRaise_sized h
  | urgentCandidate => exact execUrgentCandidate_sized h
  | yieldEnd => exact execYieldEnd_sized h
  | sleepWake => exact execSleepWake_sized h
  | spillTransferDone => exact execSpillTransferDone_sized h
  | trapEnter => exact execTrapEnter_sized h
  | handlerWatchdog => exact execHandlerWatchdog_sized h
  | contextHaltDeadline => exact execContextHaltDeadline_sized h
  | contextFaultReport => exact execContextFaultReport_sized h
  | reportVectorTimer => exact execReportVectorTimer_sized h
  | loadReturn => exact execLoadReturn_sized h
  | storePerformed => exact execStorePerformed_sized h
  | waitingTableRetry => exact execWaitingTableRetry_sized h
  | walkComplete => exact execWalkComplete_sized h
  | serviceRecordPost => exact execServiceRecordPost_sized h
  | osvcServiceDone => exact execOsvcServiceDone_sized h
  | osvcServiceFail => exact execOsvcServiceFail_sized h
  | publishRecord => exact execPublishRecord_sized h
  | publishMove => exact execPublishMove_sized h
  | publishRelease => exact execPublishRelease_sized h
  | publishEntries => exact execPublishEntries_sized h
  | publishGranules => exact execPublishGranules_sized h
  | publishDone => exact execPublishDone_sized h
  | remoteAccessArrive => exact execRemoteAccessArrive_sized h
  | copyStart => exact execCopyStart_sized h
  | aonVersionAcquire => exact execAonVersionAcquire_sized h
  | verPassEnd => exact execVerPassEnd_sized h
  | copySliceComplete => exact execCopySliceComplete_sized h
  | barvReleaseDone => exact execBarvReleaseDone_sized h
  | copyComplete => exact execCopyComplete_sized h
  | timelineEntryWrite => exact execTimelineEntryWrite_sized h
  | matrixStepStart => exact execMatrixStepStart_sized h
  | matrixStepComplete => exact execMatrixStepComplete_sized h
  | tileTransferDone => exact execTileTransferDone_sized h
  | homeGets => exact execHomeGets_sized h
  | homeGetm => exact execHomeGetm_sized h
  | homePutm => exact execHomePutm_sized h
  | homePute => exact execHomePute_sized h
  | homeWritePerform => exact execHomeWritePerform_sized h
  | snoopInv => exact execSnoopInv_sized h
  | snoopRecToS => exact execSnoopRecToS_sized h
  | snoopRecToI => exact execSnoopRecToI_sized h
  | snoopAnswer => exact execSnoopAnswer_sized h
  | grantArrive => exact execGrantArrive_sized h
  | putAck => exact execPutAck_sized h
  | snoopResend => exact execSnoopResend_sized h
  | atomicPerform => exact execAtomicPerform_sized h
  | replayRequest => exact execReplayRequest_sized h
  | monitorTimeout => exact execMonitorTimeout_sized h
  | monitorStatusDeliver => exact execMonitorStatusDeliver_sized h
  | cumulusAgeExpire => exact execCumulusAgeExpire_sized h
  | cumulusPacketApply => exact execCumulusPacketApply_sized h
  | cumulusRejectLog => exact execCumulusRejectLog_sized h
  | egressDeliver => exact execEgressDeliver_sized h
  | rrtWrite => exact execRrtWrite_sized h
  | strandFail => exact execStrandFail_sized h
  | flitReceive => exact execFlitReceive_sized h
  | flitAck => exact execFlitAck_sized h
  | relayForward => exact execRelayForward_sized h
  | strandGate => exact execStrandGate_sized h
  | strandWakeDone => exact execStrandWakeDone_sized h
  | heartbeatSend => exact execHeartbeatSend_sized h
  | heartbeatMiss => exact execHeartbeatMiss_sized h
  | deadDieVerdict => exact execDeadDieVerdict_sized h
  | dieHaltDeadline => exact execDieHaltDeadline_sized h
  | dieReportPost => exact execDieReportPost_sized h
  | wavelengthFail => exact execWavelengthFail_sized h
  | laneRemapDone => exact execLaneRemapDone_sized h
  | codewordReceive => exact execCodewordReceive_sized h
  | tagGroupVerify => exact execTagGroupVerify_sized h
  | portSessionEstablish => exact execPortSessionEstablish_sized h
  | sessionRekey => exact execSessionRekey_sized h
  | portEnable => exact execPortEnable_sized h
  | portDisable => exact execPortDisable_sized h
  | portNarrow => exact execPortNarrow_sized h
  | portWake => exact execPortWake_sized h
  | portNarrowDone => exact execPortNarrowDone_sized h
  | portWakeDone => exact execPortWakeDone_sized h
  | portAutoWake => exact execPortAutoWake_sized h
  | farEndNarrow => exact execFarEndNarrow_sized h
  | farEndWake => exact execFarEndWake_sized h
  | lageUpdate => exact execLageUpdate_sized h
  | timeCounterSend => exact execTimeCounterSend_sized h
  | timeCounterReceive => exact execTimeCounterReceive_sized h
  | fabricPacketReceive => exact execFabricPacketReceive_sized h
  | fabricRetryTimeout => exact execFabricRetryTimeout_sized h
  | frgenWrite => exact execFrgenWrite_sized h
  | reachabilityRereadDone => exact execReachabilityRereadDone_sized h
  | sendQueueDepart => exact execSendQueueDepart_sized h
  | messageDeliver => exact execMessageDeliver_sized h
  | collHandoff => exact execCollHandoff_sized h
  | collComplete => exact execCollComplete_sized h
  | collAbandon => exact execCollAbandon_sized h
  | coldReset => exact execColdReset_sized
  | bootStepDone => exact execBootStepDone_sized h
  | deviceReset => exact execDeviceReset_sized
  | functionReset => exact execFunctionReset_sized h
  | contextDisable => exact execContextDisable_sized h
  | attestationRequest => exact execAttestationRequest_sized h
  | attestationDone => exact execAttestationDone_sized h
  | ownClaim => exact execOwnClaim_sized h
  | ownRelease => exact execOwnRelease_sized h
  | ownHeartbeat => exact execOwnHeartbeat_sized h
  | ownerTimeout => exact execOwnerTimeout_sized h
  | pcieLinkDown => exact execPcieLinkDown_sized h
  | stratusTakeover => exact execStratusTakeover_sized h
  | powerEstimate => exact execPowerEstimate_sized h
  | lvEnter => exact execLvEnter_sized h
  | lvExit => exact execLvExit_sized h
  | lvTransitionDone => exact execLvTransitionDone_sized h
  | powerCapStep => exact execPowerCapStep_sized h
  | phyLaser => exact execPhyLaser_sized h
  | phyLock => exact execPhyLock_sized h
  | phyTrain => exact execPhyTrain_sized h
  | phyLaserOnDone => exact execPhyLaserOnDone_sized h
  | phyLockDone => exact execPhyLockDone_sized h
  | phyTrainDone => exact execPhyTrainDone_sized h
  | lageFlashStore => exact execLageFlashStore_sized h
  | configRegisterWrite => exact execConfigRegisterWrite_sized h
  | illegalWord => exact execIllegalWord_sized h
  | fetchFault => exact execFetchFault_sized h
  | contextEnable => exact execContextEnable_sized h
  | pcieLinkUp => exact execPcieLinkUp_sized h
  | clusterPowered => exact execClusterPowered_sized h
  | resultWriteBack => exact execResultWriteBack_sized h
  | strandGatingDisable => exact execStrandGatingDisable_sized h

/-! ### Sched -/

theorem Sized.firstChange {l} (h : Sized t) : SizedOpt (t.firstChange l) := by
  induction l with
  | nil => exact .none
  | cons i r ih =>
    unfold State.firstChange
    split
    · next e =>
      split
      · exact ih
      · exact (exec_sized h).along e
    · exact ih

theorem Sized.firstTimer {l} (h : Sized t) : SizedOpt (t.firstTimer l) := by
  induction l with
  | nil => exact .none
  | cons x r ih =>
    obtain ⟨d, _ | i⟩ := x
    · unfold State.firstTimer
      split
      · exact .some (.atLeast h)
      · exact ih
    · unfold State.firstTimer
      split
      · next e => exact (Sized.firstChange h).along e
      · exact ih

theorem runWords_sized {h0 ws} (h : Sized t) : SizedOut (runWords h0 ws t) := by
  unfold runWords
  split <;> exact exec_sized h

theorem Sized.runUnit (h : Sized t) : SizedOut (t.runUnit) := by
  unfold State.runUnit
  split
  · split
    · exact runWords_sized h
    · exact exec_sized h
  · split
    · split
      · exact runWords_sized (.fillI h)
      · exact exec_sized h
    · exact .next h

theorem Sized.trial {k} (h : Sized t) : Sized (t.trial k) := by
  unfold State.trial
  split
  · next e0 => exact (Sized.runUnit (.frame h)).along e0
  · exact .stall h

theorem Sized.tryGrp {p k} (h : SizedFst p) : SizedFst (State.tryGrp p k) := by
  unfold State.tryGrp
  split
  · exact h
  · extract_lets t waits
    split
    · exact .mk (.frame (.trial h))
    · exact .mk h

theorem Sized.candidates {c} (h : Sized t) : SizedFst (t.candidates c) :=
  .mk (SizedFst.foldl h fun _ _ => .tryGrp)

theorem Sized.beginCore {c} (h : Sized t) : Sized (t.beginCore c) := by
  unfold State.beginCore
  split
  next s1 l e =>
  have h1 : Sized s1 := (Sized.candidates h).along e
  have hf (m : NMap Group) (hm : Holds m) (issues : List Nat) :
      Holds (mapAll m fun k g => if g.core = c then g.waited l issues k else g) :=
    hm.mapAll fun _ _ hg => .ite hg.waited hg
  exact .ite (.leaveLv (.withGroups (.setCore h1) (hf _ · _))) (.withGroups (.setCore h1) (hf _ · _))

theorem Sized.nextCycle (h : Sized t) : Sized (t.nextCycle) := by
  unfold State.nextCycle
  split
  · exact h
  · exact .ite (.frame (.modDev h)) (.beginCore (.settleCore (.modDev h)))

theorem Sized.endCycle (h : Sized t) : Sized (t.endCycle) := by
  unfold State.endCycle
  split
  · exact h
  · refine .ite (.frame h) ?_
    extract_lets f u
    have hu : Sized u := .modCore (.fillEnergy h)
    refine ⟨?_, hu.str⟩
    dsimp only
    exact h.groups.mapAll fun _ _ hg => .ite (.of hg) hg

theorem Sized.turnOver (h : Sized t) : Sized (t.turnOver) := by
  have h1 : Sized t.endCycle := .endCycle h
  have hl : ∀ c : Prop, ∀ _ : Decidable c, ∀ l, SizedOpt (if c then t.endCycle.firstTimer l else none) := by
    intro c _ l
    split
    · exact Sized.firstTimer h1
    · exact .none
  unfold State.turnOver
  extract_lets s1 quiet late
  refine .ite ?_ (.nextCycle h1)
  split
  · next e => exact .frame (SizedOpt.orElse (Sized.firstChange h1) (hl _ _ _) e)
  · exact .nextCycle (.frame h1)

theorem Sized.comes {i r} (h : Sized t) : SizedOut (t.comes i r) :=
  .ite (exec_sized (.frame h)) (.next (.frame h))

/-! ### Step -/

/-- A step runs one instruction, or ends the cycle under way. -/
theorem step_sized (h : Sized t) : SizedOut (step t) := by
  unfold step
  refine .ite .fault ?_
  split
  · exact Sized.comes h
  · split
    · exact Sized.runUnit (.frame h)
    · exact .next (.turnOver h)

/-- Settles O60: a group that a step writes has the files of one that was there, registers of it set, or is new. -/
theorem registerFilesKeepTheirSizes : Obligations.RegisterFilesKeepTheirSizes := fun s t e hg hs =>
  have h : Sized t := (step_sized (t := s) ⟨hg, hs⟩).along e
  ⟨h.groups, h.str⟩

end Sys2Proof.Machine

/-! ## A group's end (O6) -/

namespace Sys2Proof.Machine

/-! ### Keys that a table has not -/

theorem mapGet?_mapDel_same {α : Type} {m : NMap α} {n : Nat} (h : Rising m) : mapGet? (mapDel m n) n = none := by
  induction m with
  | nil => rfl
  | cons e r ih =>
    obtain ⟨k, w⟩ := e
    obtain ⟨hk, hr⟩ := List.pairwise_cons.mp h
    simp only [mapDel]
    split
    · next e =>
      subst e
      refine Option.eq_none_iff_forall_ne_some.mpr fun v hv => ?_
      exact Nat.lt_irrefl k (hk k (List.mem_map_of_mem (Claims.mem_of_mapGet? hv)))
    · next e => exact (if_neg e).trans (ih hr)

theorem mapGet?_ne_none_of_mem {α : Type} {m : NMap α} {kv : Nat × α} (h : kv ∈ m) : mapGet? m kv.1 ≠ none := by
  induction m with
  | nil => cases h
  | cons e r ih =>
    obtain ⟨k, w⟩ := e
    simp only [mapGet?]
    split
    · simp
    · next hk => exact ih ((List.mem_cons.mp h).resolve_left fun e => hk (congrArg Prod.fst e).symm)

/-! ### What ends or traps no group that is not there

One lemma per operation, in the shape of its body: taking a trap, passing on a handler bank and completing a barrier write to groups
that are there, and to no byte of memory. -/

/-- `t` has the bytes of `s`, and no group under a key that is free in `s`. -/
structure Within (s t : State) : Prop where
  mem : t.mem = s.mem
  dirty : t.home.dirty = s.home.dirty
  free : ∀ k, s.grp? k = none → t.grp? k = none

variable {s t : State}

theorem Within.refl (s : State) : Within s s := ⟨rfl, rfl, fun _ h => h⟩

theorem Within.rdByte (h : Within s t) (a : Nat) : t.rdByte a = s.rdByte a := by
  simp only [State.rdByte, h.mem, h.dirty]

theorem Within.frame {u : State} (h : Within s t) (hm : u.mem = t.mem := by rfl) (hd : u.home.dirty = t.home.dirty := by rfl)
    (hg : u.groups = t.groups := by rfl) : Within s u :=
  ⟨hm.trans h.mem, hd.trans h.dirty, fun k hk => (congrArg (mapGet? · k) hg).trans (h.free k hk)⟩

theorem Within.ite {c : Prop} {_ : Decidable c} {u : State} (h1 : Within s t) (h2 : Within s u) : Within s (if c then t else u) := by
  split <;> assumption

theorem Within.foldl {α : Type} {f : State → α → State} {l : List α} (h : Within s t)
    (hf : ∀ u a, Within s u → Within s (f u a)) : Within s (l.foldl f t) := by
  induction l generalizing t with
  | nil => exact h
  | cons a r ih => exact ih (hf t a h)

theorem Within.setGrp {k g} (h : Within s t) (hk : t.grp? k ≠ none) : Within s (t.setGrp k g) := by
  refine ⟨h.mem, h.dirty, fun j hj => ?_⟩
  have e : j ≠ k := fun e => hk (e ▸ h.free j hj)
  rw [State.grp?_setGrp_other _ _ e]
  exact h.free j hj

theorem Within.dropWork {n} (h : Within s t) : Within s (t.dropWork n) := by
  refine ⟨h.mem, h.dirty, fun j hj => ?_⟩
  have e : mapGet? t.groups j = none := h.free j hj
  simp only [State.grp?, State.dropWork, mapGet?_mapAll, e, Option.map_none]

theorem Within.contextFault {k g x} (h : Within s t) (hk : t.grp? k ≠ none) : Within s (t.contextFault k g x) := by
  unfold State.contextFault
  extract_lets +onlyGivenNames s1
  have h1 : Within s s1 := .setGrp h hk
  split
  · exact .frame (.dropWork h1)
  · exact h1

theorem Within.trapIn {k g x} (h : Within s t) (hk : t.grp? k ≠ none) : Within s (t.trapIn k g x) := by
  unfold State.trapIn
  exact .ite (.contextFault h hk) (.ite (.contextFault h hk) (.ite (.setGrp h hk) (.setGrp (.frame h) hk)))

theorem Within.dieAtFaultPoint {k g} (h : Within s t) (hk : t.grp? k ≠ none) : Within s (t.dieAtFaultPoint k g) := by
  unfold State.dieAtFaultPoint
  split
  · have h1 {c : Prop} {_ : Decidable c} {g1 x g2} : Within s (if c then t.trapIn k g1 x else t.setGrp k g2) :=
      .ite (.trapIn h hk) (.setGrp h hk)
    exact .frame h1
  · exact h

theorem Within.takeTrap {k g x} (h : Within s t) (hk : t.grp? k ≠ none) : Within s (t.takeTrap k g x) := by
  unfold State.takeTrap
  split
  · exact .trapIn h hk
  · exact .setGrp h hk
  · exact .ite (.trapIn h hk) (.dieAtFaultPoint h hk)

theorem Within.takeParked {k} (h : Within s t) : Within s (t.takeParked k) := by
  unfold State.takeParked
  split
  · exact h
  · next g hg =>
    have hk : t.grp? k ≠ none := by simp [hg]
    refine .ite ?_ h
    split
    · exact .ite (.takeTrap h hk) h
    · exact h

/-- The best of a list is one of the list, or the one it was to be bettered. -/
theorem mem_of_foldl_better {l : List (Nat × Group)} {a : Nat × Group} {b : Option (Nat × Group)}
    (h : l.foldl Claims.better b = some a) : b = some a ∨ a ∈ l := by
  induction l generalizing b with
  | nil => exact .inl h
  | cons e r ih =>
    rcases ih h with hb | hr
    · cases b with
      | none => exact .inr (Option.some.inj hb ▸ List.mem_cons_self)
      | some x =>
        simp only [Claims.better] at hb
        split at hb
        · exact .inr (Option.some.inj hb ▸ List.mem_cons_self)
        · exact .inl hb
    · exact .inr (List.mem_cons_of_mem _ hr)

theorem grp?_of_nextWaiter {c part k : Nat} {g : Group} (h : s.nextWaiter c part = some (k, g)) : s.grp? k ≠ none := by
  have hm : (k, g) ∈ s.bankWaiters c part := (mem_of_foldl_better h).resolve_left (by simp)
  exact mapGet?_ne_none_of_mem (List.mem_of_mem_filter hm)

theorem Within.passBank {c part} (h : Within s t) : Within s (t.passBank c part) := by
  unfold State.passBank
  refine .ite h ?_
  split
  · exact h
  · next k g hn =>
    have hk := grp?_of_nextWaiter hn
    split
    · exact h
    · refine .ite h ?_
      split
      · exact .setGrp h hk
      · exact .setGrp h hk
      · exact .ite (.setGrp h hk) (.dieAtFaultPoint h hk)

theorem Within.noteIdle {l} (h : Within s t) : Within s (t.noteIdle l) := by
  unfold State.noteIdle
  exact .ite h (.frame h)

theorem Within.exitWg {w v} (h : Within s t) : Within s (t.exitWg w v) := by
  unfold State.exitWg
  have h1 {c : Prop} {_ : Decidable c} {ws ws'} : Within s (if c then { t with wgs := ws } else { t with wgs := ws' }) :=
    .ite (.frame h) (.frame h)
  exact .noteIdle (.frame h1)

theorem Within.barCheck {w} (h : Within s t) : Within s (t.barCheck w) := by
  unfold State.barCheck
  split
  · exact h
  · extract_lets +onlyGivenNames ks waiting
    refine .ite h ?_
    extract_lets +onlyGivenNames s1 held
    exact .foldl (.frame h) fun u k hu => by
      split
      · next g hg => exact .takeParked (.setGrp hu (by simp [hg]))
      · exact hu

/-! ### The end of a group (R63, R112) -/

/-- The group is gone, as its slot in its workgroup says. -/
def State.without (s : State) (k : Nat) (g : Group) : State :=
  ({ s with groups := mapDel s.groups k } : State).modWg g.wg fun v => { v with gone := mapSet v.gone g.idx g.cpn }

theorem endGroup_within (s : State) (k : Nat) (g : Group) : Within (s.without k g) (s.endGroup k g) := by
  unfold State.endGroup
  extract_lets s1 s2
  have h1 : Within (s.without k g) s1 := .refl _
  have h2 : Within (s.without k g) s2 := by
    unfold s2
    split
    · exact h1
    · exact .ite (.exitWg h1) (.barCheck h1)
  exact .ite (.passBank h2) h2

theorem grp?_endGroup (h : Rising s.groups) (k : Nat) (g : Group) : (s.endGroup k g).grp? k = none :=
  (endGroup_within s k g).free k (mapGet?_mapDel_same h)

theorem rdByte_endGroup (k : Nat) (g : Group) (a : Nat) : (s.endGroup k g).rdByte a = s.rdByte a :=
  (endGroup_within s k g).rdByte a

theorem mem_mapDel_of_ne {α : Type} {m : NMap α} {n : Nat} {kv : Nat × α} (h : kv ∈ m) (hn : kv.1 ≠ n) : kv ∈ mapDel m n := by
  induction m with
  | nil => cases h
  | cons e r ih =>
    obtain ⟨k, w⟩ := e
    simp only [mapDel]
    rcases List.mem_cons.mp h with rfl | h
    · rw [if_neg hn]
      exact List.mem_cons_self
    · split
      · exact h
      · exact List.mem_cons_of_mem _ (ih h)

theorem barCheck_of_none_arrived {w : Nat} (h : ∀ v, s.wg? w = some v → v.barArr = []) : s.barCheck w = s := by
  unfold State.barCheck
  split
  · rfl
  · next v hv => simp [h v hv]

theorem wg?_without (s : State) (k : Nat) (g : Group) : (s.without k g).wg? g.wg =
    (s.wg? g.wg).map fun v => { v with gone := mapSet v.gone g.idx g.cpn } :=
  mapGet?_mapMod_same _ _ _

/-- Where the group holds no handler bank, others of its workgroup go on and none has arrived at the barrier, its end changes no more
than that. -/
theorem endGroup_of_others {k : Nat} {g : Group} (hi : g.inH = false) (others : ∃ kv ∈ s.groups, kv.1 ≠ k ∧ kv.2.wg = g.wg)
    (bar : ∀ w, s.wg? g.wg = some w → w.barArr = []) : s.endGroup k g = s.without k g := by
  obtain ⟨kv, hm, hk, hw⟩ := others
  have hne : kv.1 ∈ (s.without k g).groupsOf g.wg :=
    List.mem_map_of_mem (List.mem_filter.mpr ⟨mem_mapDel_of_ne hm hk, decide_eq_true hw⟩)
  have hbar : (s.without k g).barCheck g.wg = s.without k g := barCheck_of_none_arrived fun v hv => by
    rw [wg?_without] at hv
    obtain ⟨w, h, rfl⟩ := Option.map_eq_some_iff.mp hv
    exact bar w h
  have hempty : ¬ ((s.without k g).groupsOf g.wg).isEmpty = true := fun e => by
    rw [List.isEmpty_iff.mp e] at hne
    cases hne
  unfold State.endGroup
  extract_lets s1 s2
  have e : s2 = s.without k g := by
    unfold s2
    split
    · rfl
    · exact (if_neg hempty).trans hbar
  rw [hi, e]
  rfl

theorem grp?_without_other (s : State) {k j : Nat} (g : Group) (h : j ≠ k) : (s.without k g).grp? j = s.grp? j :=
  mapGet?_mapDel_other _ h

end Sys2Proof.Machine

namespace Sys2Proof.Claims

open Sys2Proof.Machine

theorem exit_ends {s : State} {k : Nat} {g : Group} (r : Ready s k g) (c : Clear s g) (ops : g.ops = []) (mx : g.mxq = [])
    (dirty : g.dirtyMask = 0) (agg : g.agg = false) (peer : g.peerP = false) :
    exec .exit s = .next ((s.endGroup k g).paid g { pipe := 0, cls := 1 }) := by
  have he : exitEff s k allOnes g (past g 1) = .st (s.endGroup k g) := by
    simp [exitEff, ops, mx, dirty, agg, peer]
  let u : Uop := { u0 1 0 0 0 with fp := true }
  have rdy : u.ready g = true := by
    simp [Uop.ready, Group.pending, Group.kept, ops, dstMeet, u, u0]
  refine (issue2_takes (u := u) (str := exitEff) r.cur r.grp r.can r.res (fun _ => ⟨c.flt, c.die⟩) (fun h => nomatch h)
    (fun h => nomatch h) rdy (queueCheck_nil _ _ _)).trans ?_
  rw [active_scalar (Nat.zero_le 8), past_scalar rfl rfl, he]
  exact congrArg _ (applyEff_st_scalar (Nat.zero_le 8) rfl rfl rfl)

/-- Settles O6. -/
theorem exitEndsTheGroup : Obligations.ExitEndsTheGroup := by
  intro s k g r c ops mx dirty agg peer rising
  refine ⟨_, exit_ends r c ops mx dirty agg peer, ?_, rfl, fun a => ?_, fun hi others bar j hj => ?_⟩
  · rw [State.paid_grp?, grp?_endGroup rising]
  · rw [State.paid_rdByte, rdByte_endGroup]
  · rw [State.paid_grp?, endGroup_of_others hi others bar, grp?_without_other s g hj]

end Sys2Proof.Claims

/-! ## spawn and the management units (O45) -/

namespace Sys2Proof.Claims

open Sys2Proof.Machine

/-! ### Major 27 (R78, R80, R396 to R398) -/

/-- A configuration address of a group that is aligned and of class 0 traps nothing (R397). -/
theorem cfgTrap_none {u : Uop} {g : Group} {x : DWord} (h8 : x.toNat % 8 = 0) (h62 : x.toNat < 2 ^ 62) :
    cfgTrap u g false x = none := by
  rw [cfgTrap, if_neg (by omega), if_neg (by rw [Nat.div_eq_of_lt h62]; decide)]

/-- A unit of major 27 whose registers are at rest issues as its effect says. -/
theorem issue2_mgmt {eff str : Effect} {s t : State} {k fn d a b : Nat} {g : Group} {sr sw : List Nat} {p q : Bool} (hi : g.inH = false)
    (r : ReadyS s k g (sr.map g.sDst) (sw.map g.sDst)) (pr : p = true → s.sysCtx g.ctx = true)
    (he : eff s k (activeMask Pfx.none g) g (past g 1) = .st t) :
    issue2 { u27 fn d a b with sr := sr, sw := sw, priv := p, str := q } eff str s = .next (finished t g 27) := by
  let u : Uop := { u27 fn d a b with sr := sr, sw := sw, priv := p, str := q }
  have hr : u.reads g = sr.map g.sDst := by simp [Uop.reads, u, u27, Pfx.none]
  have hw : u.writes g = sw.map g.sDst := by simp [Uop.writes, u, u27]
  exact issue2_plain r.now u hr hw r.quiet.pend r.quiet.kept (faultPoint_quiet rfl hr hw r.quiet) (show 22 ≤ 27 by decide)
    (fun _ => hi) pr rfl rfl rfl rfl rfl (.inl he)

theorem managementUnits : ManagementUnits := by
  intro s k g d a b hi x y o issued
  refine ⟨fun r h64 h52 hl => ?_, fun hs => ⟨fun r hl => ⟨?_, ?_⟩, fun h8 h62 => ⟨fun r hl => ?_, fun r hl => ?_⟩⟩⟩
  · refine issue2_mgmt (sr := [a.val]) (sw := [d.val]) hi r (fun h => nomatch h) ?_
    have hv : badVA (g.readS a.val) = false := by simpa [badVA] using h52
    simp only [launchEff, room_of_le hl, hv]
    exact if_neg (not_not.mpr h64)
  · refine issue2_mgmt (sr := [a.val, b.val]) (sw := [d.val]) hi r (fun _ => hs) ?_
    simp only [preemptEff, room_of_le hl]
    rfl
  · refine issue2_mgmt (sr := [a.val, b.val]) (sw := [d.val]) hi r (fun _ => hs) ?_
    simp only [resumeEff, room_of_le hl]
    rfl
  · refine issue2_mgmt (sr := [a.val]) (sw := [d.val]) hi r (fun _ => hs) ?_
    simp only [cfgrdEff, room_of_le hl, cfgTrap_none (x := g.readS a.val) h8 h62]
    rfl
  · refine issue2_mgmt (sr := [a.val, b.val]) (sw := []) hi r (fun _ => hs) ?_
    simp only [cfgwrEff, room_of_le hl, cfgTrap_none (x := g.readS a.val) h8 h62]
    rfl

/-! ### spawn (R75, R79) -/

/-- A unit of major 25 with vector sources, no change of slots and no semaphore wait, may take its effect and takes it. -/
theorem issue2_sync {eff str : Effect} {s t : State} {k fn d a b : Nat} {g : Group} {src : List VFld} {sr : List Nat}
    (hf : fn < 64 ∧ fn ≠ 0 ∧ fn ≠ 7) (hi : g.inH = false) (r : ReadyM s k g Pfx.none src [] (src.map g.vReg ++ sr.map g.sDst) [])
    (he : eff s k (activeMask Pfx.none g) g (pastM g Pfx.none src) = .st t) :
    issue2 { u25 fn d a b with vr := src, sr := sr } eff str s = .next (finished t g 25 src) := by
  let u : Uop := { u25 fn d a b with vr := src, sr := sr }
  have hr : u.reads g = src.map g.vReg ++ sr.map g.sDst := by simp [Uop.reads, u, u25, Pfx.none]
  have hw : u.writes g = [] := rfl
  have hpast : u.past g = pastM g Pfx.none src := by
    have ha : u.active g = activeMask Pfx.none g := if_neg (by decide : ¬ 25 ≤ 8)
    have hv : u.vr = src := rfl
    have hk : (u.peek || decide (activeMask Pfx.none g = 0)) = decide (activeMask Pfx.none g = 0) := rfl
    simp only [Uop.past, pastM, past, ha, hv, hk, decide_eq_true_eq]
    split
    · rfl
    · simp only [popQs_pc, popQs_inH, popQs_upc]
      rfl
  have q : Quiet g (u.reads g) (u.writes g) := by
    have q := r.quiet
    rw [hr, hw]
    exact ⟨by simpa [Pfx.none] using q.pend, q.kept, by simpa [Pfx.none] using q.flt⟩
  have rdy : u.ready g = true := by
    simp only [Uop.ready, q.pend, q.kept, r.hold]
    simpa using r.heads
  have hs : u.vr ++ u.vr2.flatMap (pairFields g) ++ (if u.active g = allOnes then [] else u.vk) = src := by
    have hk : (if u.active g = allOnes then [] else u.vk) = [] := ite_self _
    rw [hk]
    simp [u, u25]
  have hall : u.issuedAs g = { pipe := pipeOf 25 0, cls := 1, reads := g.physReads src } := by
    rw [issuedAs_eq u g (fn := 0) (src := src) (fun h => by simp [u, u25] at h) (fun _ => ?_) hs,
      cost_of_noPfx rfl]
    · rfl
    · show (wordA 25 d a b fn).toNat % 64 ≠ 0 ∧ (wordA 25 d a b fn).toNat % 64 ≠ 7
      rw [wordA_fn _ _ _ _ _ hf.1]
      exact hf.2
  refine (issue2_takes (u := u) r.now.cur r.now.grp r.now.can r.now.res (faultPoint_quiet rfl rfl rfl q) (fun _ => hi)
    (fun h => nomatch h) rdy r.queues).trans ?_
  rw [hpast]
  exact congrArg _ ((congrArg (applyEff u k g s) he).trans (congrArg (t.paid g) hall))

/-- A release at device scope finds nothing open (R79). -/
theorem none_open {g : Group} (rel : Released g) (agg : (openOps g).all (fun o => !o.isAgg) = true) :
    (g.ops.any fun o => !o.performed && (o.isAcc || o.isAgg)) = false := by
  refine List.any_eq_false.mpr fun o ho => ?_
  cases hp : o.performed with
  | true => simp
  | false =>
    have hacc : o.isAcc = false := (rel o ho).resolve_left (by simp [hp])
    have hagg := List.all_eq_true.mp agg o (List.mem_filter.mpr ⟨ho, by simp [hp]⟩)
    simpa [hacc] using hagg

theorem spawnUnits : SpawnUnits := by
  intro s k g w d b a hi hw r h4 h52 rel agg dirty l
  have hv : badVA (g.readS a.val) = false := by simpa [badVA] using h52
  have hw : s.wg? g.wg = some w := hw
  have hl : spawnList g ((s.wg? g.wg).elim 0 Workgroup.grid) d a b = l := by rw [hw]; rfl
  have h4 : ¬ (g.readS a.val).toNat % 4 ≠ 0 := not_not.mpr h4
  have hd : ¬ g.dirtyMask ≠ 0 := not_not.mpr dirty
  have hf : fieldsFrom = regs := rfl
  constructor
  · intro t ht
    refine issue2_sync (fn := 12) (sr := [a.val]) (by decide) hi r ?_
    simp only [if_neg h4, hv, none_open rel agg, if_neg hd, hl, hf, ht]
    rfl
  · intro ht arg
    refine issue2_sync (fn := 12) (sr := [a.val]) (by decide) hi r ?_
    simp only [if_neg h4, hv, none_open rel agg, if_neg hd, hl, hf, ht]
    rfl

/-- Settles O45. -/
theorem spawnAndManagementUnits : Obligations.SpawnAndManagementUnits := ⟨spawnUnits, managementUnits⟩

end Sys2Proof.Claims

/-! ## What hosts see of the home slices and of reports (O53) -/

namespace Sys2Proof.Machine

/-! ### A write at the home slices

It changes memory, the home slices and the die caches, and nothing else. As for the canonical forms there is one lemma per operation. -/

/-- `t` is `s` but for memory, the home slices and the dies. -/
def HomeOnly (s t : State) : Prop := ∃ m h d, t = { s with mem := m, home := h, dies := d }

variable {s t : State}

theorem HomeOnly.refl (s : State) : HomeOnly s s := ⟨_, _, _, rfl⟩

theorem HomeOnly.write {m h d} (ht : HomeOnly s t) : HomeOnly s { t with mem := m, home := h, dies := d } := by
  obtain ⟨_, _, _, rfl⟩ := ht
  exact ⟨_, _, _, rfl⟩

theorem HomeOnly.dev (h : HomeOnly s t) : t.dev = s.dev := by
  obtain ⟨_, _, _, rfl⟩ := h
  rfl

theorem HomeOnly.hosts (h : HomeOnly s t) : t.hosts = s.hosts := by
  obtain ⟨_, _, _, rfl⟩ := h
  rfl

theorem HomeOnly.setDie {d v} (h : HomeOnly s t) : HomeOnly s (t.setDie d v) := .write h

theorem HomeOnly.modHome {f} (h : HomeOnly s t) : HomeOnly s (t.modHome f) := .write h

theorem HomeOnly.ite {c : Prop} {_ : Decidable c} {u : State} (h1 : HomeOnly s t) (h2 : HomeOnly s u) :
    HomeOnly s (if c then t else u) := by
  split <;> assumption

theorem HomeOnly.foldl {α : Type} {f : State → α → State} {l : List α} (h : HomeOnly s t)
    (hf : ∀ u a, HomeOnly s u → HomeOnly s (f u a)) : HomeOnly s (l.foldl f t) := by
  induction l generalizing t with
  | nil => exact h
  | cons a r ih => exact ih (hf t a h)

theorem HomeOnly.setDir {line d} (h : HomeOnly s t) : HomeOnly s (t.setDir line d) :=
  .modHome h

theorem HomeOnly.setLine {d line st} (h : HomeOnly s t) : HomeOnly s (t.setLine d line st) :=
  .setDie h

theorem HomeOnly.touchLine {d line stream} (h : HomeOnly s t) : HomeOnly s (t.touchLine d line stream) :=
  .setDie h

theorem HomeOnly.filterAdd {da rid w} (h : HomeOnly s t) : HomeOnly s (t.filterAdd da rid w) :=
  .write h

theorem HomeOnly.filterDrop {rids} (h : HomeOnly s t) : HomeOnly s (t.filterDrop rids) :=
  .modHome h

theorem HomeOnly.homeUse {line wr} (h : HomeOnly s t) : HomeOnly s (t.homeUse line wr) :=
  .write h

theorem HomeOnly.flushLine {line} (h : HomeOnly s t) : HomeOnly s (t.flushLine line) := by
  unfold State.flushLine
  extract_lets +onlyGivenNames mine hm s1
  have h1 : HomeOnly s s1 := .write h
  exact .ite h1 (.homeUse h1)

theorem HomeOnly.modReq {line f} (h : HomeOnly s t) : HomeOnly s (t.modReq line f) :=
  .modHome h

theorem HomeOnly.landPut {p} (h : HomeOnly s t) : HomeOnly s (t.landPut p) := by
  unfold State.landPut
  extract_lets +onlyGivenNames s1 s2 s3
  have h2 : HomeOnly s s2 := .ite (.filterAdd (.homeUse (.flushLine (.modHome h)))) (.modHome h)
  exact .modReq (.ite (.setDir h2) h2)

theorem HomeOnly.putAcked {d line} (h : HomeOnly s t) : HomeOnly s (t.putAcked d line) :=
  .filterDrop (.setLine h)

theorem HomeOnly.quiet {line} (h : HomeOnly s t) : HomeOnly s (t.quiet line) := by
  unfold State.quiet
  exact .foldl (.foldl h fun _ _ h1 => .landPut h1) fun _ _ h1 => .putAcked h1

theorem HomeOnly.recallAll {line} (h : HomeOnly s t) : HomeOnly s (t.recallAll line) :=
  .setDir (.foldl (.flushLine h) fun _ _ h0 => .setLine h0)

theorem HomeOnly.recall {line writer} (h : HomeOnly s t) : HomeOnly s (t.recall line writer) := by
  unfold State.recall
  extract_lets +onlyGivenNames s0
  have h0 : HomeOnly s s0 := .flushLine (.quiet h)
  split
  · exact h0
  · exact .recallAll h0
  · exact .setDir (.setLine h0)
  · extract_lets +onlyGivenNames s1
    split
    · exact .ite (.setDir (.foldl h0 fun _ _ h2 => .setLine h2))
        (.setDir (.foldl h0 fun _ _ h2 => .setLine h2))
    · exact .setDir (.foldl h0 fun _ _ h2 => .setLine h2)

theorem HomeOnly.dieRoom {d line} (h : HomeOnly s t) : HomeOnly s (t.dieRoom d line) := by
  unfold State.dieRoom
  extract_lets +onlyGivenNames v
  refine .ite h ?_
  extract_lets +onlyGivenNames set
  refine .ite h ?_
  extract_lets +onlyGivenNames out
  split
  · exact h
  · exact .ite (.setLine (.setDir (.homeUse (.flushLine h)))) (.setLine h)

theorem HomeOnly.takeLine {d line st stream} (h : HomeOnly s t) : HomeOnly s (t.takeLine d line st stream) :=
  .ite (.touchLine (.setLine (.dieRoom h))) h

theorem HomeOnly.lineStep {line} (h : HomeOnly s t) : HomeOnly s (t.lineStep line) := by
  unfold State.lineStep
  split
  · exact h
  · refine .ite h ?_
    extract_lets +onlyGivenNames mon give
    refine .ite ?_ (.ite (.homeUse (.setDir (.modReq (.ite (.flushLine h) h))))
        (.homeUse (.setDir (.modReq (.ite (.flushLine h) h)))))
    split
    · exact .homeUse (.setDir (.modReq (.ite (.flushLine h) h)))
    · exact .homeUse (.setDir (.modReq (.ite (.flushLine h) h)))
    · exact .ite (.homeUse (.setDir (.modReq (.ite (.flushLine h) h))))
        (.homeUse (.setDir (.modReq (.ite (.flushLine h) h))))

theorem HomeOnly.arriveSnoop {d line gone data} (h : HomeOnly s t) : HomeOnly s (t.arriveSnoop d line gone data) :=
  .modReq h

theorem HomeOnly.invSnoop {d line} (h : HomeOnly s t) : HomeOnly s (t.invSnoop d line) := by
  unfold State.invSnoop
  refine .ite h ?_
  extract_lets +onlyGivenNames s1
  split
  · exact .setLine (.arriveSnoop h)
  · exact .setLine (.arriveSnoop h)
  · exact .setLine (.arriveSnoop h)
  · exact (.arriveSnoop h)

theorem HomeOnly.recallSnoop {d line kind after} (h : HomeOnly s t) : HomeOnly s (t.recallSnoop d line kind after) := by
  unfold State.recallSnoop
  refine .ite h ?_
  split
  · exact .setLine (.arriveSnoop h)
  · exact .setLine (.arriveSnoop h)
  · exact .arriveSnoop h
  · exact .setLine (.arriveSnoop h)
  · exact .setLine (.arriveSnoop h)
  · exact .arriveSnoop h

theorem HomeOnly.answerSnoop {d line} (h : HomeOnly s t) : HomeOnly s (t.answerSnoop d line) := by
  unfold State.answerSnoop
  exact .lineStep (.modReq (.ite (.flushLine h) h))

theorem HomeOnly.arriveGrant {d line} (h : HomeOnly s t) : HomeOnly s (t.arriveGrant d line) := by
  unfold State.arriveGrant
  split
  · split
    · exact .ite (.modHome (.takeLine h)) h
    · exact h
  · exact h

theorem HomeOnly.settleLine {line} (h : HomeOnly s t) : HomeOnly s (t.settleLine line) := by
  unfold State.settleLine
  split
  · exact h
  · exact .arriveGrant (.foldl (.lineStep h) fun _ _ h1 => .answerSnoop (.foldl (by
      split
      · exact .invSnoop h1
      · exact .recallSnoop h1
      · exact .recallSnoop h1) fun _ _ h3 => .landPut h3))

theorem HomeOnly.evalMons {line} (h : HomeOnly s t) : HomeOnly s (t.evalMons line) :=
  .write h

theorem HomeOnly.homeWrite {writer a bs} (h : HomeOnly s t) : HomeOnly s (t.homeWrite writer a bs) := by
  unfold State.homeWrite
  extract_lets lines s1 s2
  have h1 : HomeOnly s s1 := .foldl h fun _ _ h => .homeUse (.recall (.settleLine h))
  have h2 : HomeOnly s s2 := .write h1
  exact .foldl h2 fun _ _ h => .evalMons h

end Sys2Proof.Machine

namespace Sys2Proof.Machine
variable {s t : State}

/-! ### Posting a report (R406) -/

/-- From `s` to `t` reports were posted: of the device's registers only the held reports changed, and every link is as it was. -/
structure Posted (s t : State) : Prop where
  dev : ∃ l, t.dev = { s.dev with reports := l }
  up : ∀ f, (t.host f).up = (s.host f).up

theorem Posted.refl (s : State) : Posted s s := ⟨⟨_, rfl⟩, fun _ => rfl⟩

theorem Posted.reports {l} (h : Posted s t) : Posted s (t.modDev fun d => { d with reports := l }) := by
  obtain ⟨⟨_, hd⟩, hu⟩ := h
  exact ⟨⟨l, by simp only [State.modDev, hd]⟩, hu⟩

theorem Posted.setHost {f v} (h : Posted s t) (hv : v.up = (t.host f).up) : Posted s (t.setHost f v) := by
  refine ⟨h.dev, fun j => ?_⟩
  by_cases e : j = f
  · subst e
    rw [State.host_setHost, hv, h.up]
  · rw [State.host_setHost_other _ _ e, h.up]

theorem Posted.homeWrite {a bs} (h : Posted s t) : Posted s (t.homeWrite none a bs) := by
  have hw : HomeOnly t (t.homeWrite none a bs) := .homeWrite (.refl t)
  refine ⟨hw.dev ▸ h.dev, fun f => ?_⟩
  rw [← h.up f, State.host, hw.hosts, State.host]

theorem up_signal (v : HostFn) (n : Nat) : (v.signal n).up = v.up := by
  unfold HostFn.signal
  split <;> rfl

theorem Posted.ringPost {f r} (h : Posted s t) : Posted s (t.ringPost f r) := by
  unfold State.ringPost
  extract_lets +onlyGivenNames v a s1 v1
  have h1 : Posted s s1 := .homeWrite h
  have hv : (s1.host f).up = v.up := by rw [h1.up, ← h.up]
  split
  · exact .setHost h rfl
  · refine .setHost h1 ?_
    rw [up_signal, hv]
    split <;> rfl

theorem Posted.ite {c : Prop} {_ : Decidable c} {u : State} (h1 : Posted s t) (h2 : Posted s u) : Posted s (if c then t else u) := by
  split <;> assumption

theorem Posted.foldl {α : Type} {f : State → α → State} {l : List α} (h : Posted s t)
    (hf : ∀ u a, Posted s u → Posted s (f u a)) : Posted s (l.foldl f t) := by
  induction l generalizing t with
  | nil => exact h
  | cons a r ih => exact ih (hf t a h)

theorem Posted.post {r} (h : Posted s t) : Posted s (t.post r) := by
  unfold State.post
  exact .ite (.ringPost h) (.ite (.ringPost h) (.reports h))

theorem Posted.postHeld (h : Posted s t) : Posted s t.postHeld := by
  unfold State.postHeld
  exact .ite (.foldl (.reports h) fun _ _ h => .ringPost h) h

/-! ### Ownership (R407) -/

/-- An election leaves every link as it is. -/
theorem up_elect (s : State) (f : Nat) : (s.elect.host f).up = (s.host f).up := by
  unfold State.elect
  split
  · rfl
  · split
    · rfl
    · next c r _ =>
      extract_lets best s1
      have h1 : Posted (s.modDev _) s1 := .postHeld (.refl _)
      exact (Posted.post h1).up f

theorem up_loseOwner (s : State) (f : Nat) : (s.loseOwner.host f).up = (s.host f).up := by
  unfold State.loseOwner
  extract_lets s1
  have h1 : (s1.host f).up = (s.host f).up := up_elect _ f
  split
  · exact h1
  · rw [← h1]
    exact (Posted.post (.refl s1)).up f

theorem up_detach (s : State) (f : Nat) (h : (s.host f).up = true) : ((s.detach f true).host f).up = true := by
  unfold State.detach
  extract_lets h0 s0 s1
  have h1 : (s1.host f).up = true := by
    show ((s0.setHost f _).host f).up = true
    rw [State.host_setHost]
    simpa using h
  split
  · rw [up_loseOwner, h1]
  · exact h1

/-- Alone, a claim of a device without an owner wins. -/
theorem elect_alone {c : Claim} (ho : s.dev.ownHeld = false) (hc : s.dev.claims = [c]) :
    s.elect.dev.ownHeld = true ∧ s.elect.dev.ownFn = c.f ∧ s.elect.dev.ownEpoch = s.dev.ownEpoch + 1 ∧ s.elect.dev.claims = [] := by
  unfold State.elect
  rw [if_neg (by simp [ho]), hc]
  dsimp only [List.foldl_nil]
  generalize hu : State.modDev s _ = u
  have h1 : Posted u (u.postHeld.post { type := 10, args := [BitVec.ofNat 64 c.f, u.postHeld.dev.ownEpoch.setWidth 64] }) :=
    .post (.postHeld (.refl u))
  obtain ⟨l, hd⟩ := h1.dev
  rw [hd, ← hu]
  exact ⟨rfl, rfl, rfl, by simp [State.modDev, hc]⟩

end Sys2Proof.Machine

namespace Sys2Proof.Claims

open Sys2Proof.Machine

section
variable {s : State} {f : Nat}

/-- The first claim of a function whose link is up stands last, and an election follows. -/
theorem ownClaim_first {p : Nat} (hf : f < 4) (up : (s.host f).up = true) (hp : p < 8) (hn : (s.dev.claims.any fun c => c.f = f) = false) :
    exec (.ownClaim f p) s = .next (s.modDev fun d =>
      { d with claims := d.claims ++ [{ f := f, prio := p, order := d.claimSeq }], claimSeq := d.claimSeq + 1 }).elect := by
  show Host.Outcome.next (s.ownClaim f p) = _
  unfold State.ownClaim
  rw [if_neg (by simp [up]; omega), Nat.mod_eq_of_lt hp]
  have hn : ¬ (s.dev.claims.any fun c => c.f = f) = true := by simp [hn]
  exact congrArg (fun d => Host.Outcome.next (State.elect { s with dev := d })) (if_neg hn)

theorem elect_of_held (h : s.dev.ownHeld = true) : s.elect = s := if_pos h

theorem ownClaim_wins {p : Nat} (hf : f < 4) (up : (s.host f).up = true) (hp : p < 8) (ho : s.dev.ownHeld = false)
    (hc : s.dev.claims = []) :
    ∃ t, exec (.ownClaim f p) s = .next t ∧ t.dev.ownHeld = true ∧ t.dev.ownFn = f ∧ t.dev.ownEpoch = s.dev.ownEpoch + 1 ∧
      t.dev.claims = [] := by
  refine ⟨_, ownClaim_first hf up hp (by simp [hc]), ?_⟩
  have h1 : (s.modDev fun d => { d with claims := d.claims ++ [{ f := f, prio := p, order := d.claimSeq }], claimSeq := d.claimSeq + 1 }
      ).dev.claims = [{ f := f, prio := p, order := s.dev.claimSeq }] := congrArg (· ++ _) hc
  refine elect_alone ?_ h1
  exact ho

theorem ownRelease_unclaimed (ho : s.owns f = true) (hc : s.dev.claims = []) : exec (.ownRelease f) s =
    .next ((s.modDev fun d => { d with ownHeld := false }).post { type := 10, args := [4, s.dev.ownEpoch.setWidth 64] }) := by
  have he : (s.modDev fun d => { d with ownHeld := false }).elect = s.modDev fun d => { d with ownHeld := false } := by
    unfold State.elect
    rw [if_neg (by simp [State.modDev])]
    simp only [State.modDev, hc]
  refine congrArg Host.Outcome.next ((if_pos ho).trans ?_)
  simp only [State.loseOwner, he]
  exact if_neg Bool.false_ne_true

/-! ### Links, resets and attestation (R401, R404, R405, R409) -/

theorem attestationRequest_of_up (hf : f < 4) (up : (s.host f).up = true) :
    if (s.host f).attstat = 1 ∨ (s.host f).attstat = 3 then
      exec (.attestationRequest f) s = .next (s.setHost f { s.host f with attstat := 3 })
    else exec (.attestationRequest f) s = .next (s.setHost f { s.host f with attcmd := 1, attstat := 1 }) := by
  have hx : exec (.attestationRequest f) s = .next (if (s.host f).attstat = 1 || (s.host f).attstat = 3 then
      s.setHost f { s.host f with attstat := 3 } else s.setHost f { s.host f with attcmd := 1, attstat := 1 }) := by
    show Host.Outcome.next (if f < 4 then s.attWrite f true else s) = _
    rw [if_pos hf]
    simp only [State.attWrite, up]
    rfl
  rw [hx]
  split
  · next h => rw [if_pos (by simpa using h)]
  · next h => rw [if_neg (by simpa using h)]

theorem attestationDone_reports (hf : f < 4) (hb : (s.host f).attstat = 1 ∨ (s.host f).attstat = 3) :
    ∃ r, exec (.attestationDone f) s = .next (s.setHost f { s.host f with attstat := 2, attcmd := 0, attrsp := r }) ∧
      r.length = 28 + (s.host f).attn.length := by
  have hx : (f < 4 && ((s.host f).attstat = 1 || (s.host f).attstat = 3)) = true := by simpa [hf] using hb
  refine ⟨_, congrArg Host.Outcome.next (if_pos hx), ?_⟩
  simp [State.attWords]
  omega

/-- Vector 0 is due 10 µs after the last (R406). -/
theorem signal_due {v : HostFn} {n : Nat} (h : v.vecTns + 10000 ≤ n) :
    v.signal n = { v with vectors := v.vectors + 1, vecTns := n, vecPending := false } := by
  unfold HostFn.signal
  rw [if_pos (by simp [h])]

theorem tns_atLeast (s : State) (n : Nat) : n ≤ (s.atLeast n).dev.tns := by
  simp only [State.atLeast, State.modDev]
  split
  · exact Nat.le_refl n
  · next h => exact Nat.le_of_not_lt h

theorem reportVectorTimer_signals (hp : (s.host f).vecPending = true) : let u := s.atLeast ((s.host f).vecTns + 10000)
    exec (.reportVectorTimer f) s = .next (u.setHost f
      { s.host f with vecPending := false, vectors := (s.host f).vectors + 1, vecTns := u.dev.tns }) := by
  intro u
  show execReportVectorTimer f s = _
  simp only [execReportVectorTimer, hp]
  rw [signal_due (tns_atLeast s _)]
  rfl

end

theorem hostEvents : HostEvents := by
  intro s f
  refine ⟨fun p hp hf up ho hc => ownClaim_wins hf up hp ho hc, fun p hp hf up ho hn => ?_, fun ho => ⟨?_, ownRelease_unclaimed ho⟩,
    fun ho => ⟨?_, ?_⟩, fun ho => ?_, fun hf up => ⟨?_, up_detach s f up, attestationRequest_of_up hf up⟩,
    attestationDone_reports, fun pd hpd => ⟨?_, fun gen h1 h7 hd => ?_⟩, reportVectorTimer_signals⟩
  · rw [ownClaim_first hf up hp hn, elect_of_held]
    exact ho
  · exact congrArg Host.Outcome.next (if_pos ho)
  · exact congrArg Host.Outcome.next (if_neg (by simp [ho]))
  · exact congrArg Host.Outcome.next (if_neg (by simp [ho]))
  · exact congrArg Host.Outcome.next (if_pos ho)
  · exact congrArg Host.Outcome.next (if_pos (by simp [hf, up]))
  · exact congrArg Host.Outcome.next (if_pos hpd)
  · exact congrArg Host.Outcome.next (if_neg (by simp [hd]; omega))

end Sys2Proof.Claims

namespace Sys2Proof.Claims

open Sys2Proof.Machine

/-! ### Register writes of hosts (R60, R397, R398, R408) -/

/-- With no write held, no register write of the function is. -/
theorem nextBar0_none {l : List (Option (List Byte) × Nat × Nat)} (h : heldWrites l = false) (e : Option (List Byte) × Nat × Nat) :
    nextBar0 l e = false := by
  have hn : l.find? (fun x => x.1.isSome) = none := List.find?_eq_none.mpr fun x hx => by
    simpa using List.any_eq_false.mp h x hx
  simp only [nextBar0, hn]

section
variable {s : State} {f : Nat} (hf : f < 4) (up : (s.host f).up = true) (hw : heldWrites (s.host f).heldWin = false)
include hf up hw

/-- While the loss of PD0 holds the writes of a function, a register write joins those held (R410). -/
theorem hostWrite_held (hl : s.heldByLoss f = true) (ca : Nat) (v : DWord) : s.hostWrite f ca v = s.setHost f
    { s.host f with heldWin := (s.host f).heldWin ++ [(some (leBytes 8 v.toNat), 2 ^ 40 + ca, 8)] } := by
  simp only [State.hostWrite, nextBar0_none hw, hw, hl, up]
  rw [if_neg (by simp; omega)]
  rfl

/-- Otherwise one of the owner of a device that is ready reaches its register (R402, R408). -/
theorem hostWrite_owner (hl : s.heldByLoss f = false) (own : s.owns f = true) (rdy : s.dev.bootReady = true) {ca : Nat} (v : DWord)
    (hc : ca < 2 ^ 28) : s.hostWrite f ca v = s.cfgWrite false (some f) (BitVec.ofNat 64 ca) v := by
  have hb : s.bar0 f ca v = s.cfgWrite false (some f) (reg ca) v := by
    unfold State.bar0
    extract_lets mayBe
    have hm : mayBe = true := by
      unfold mayBe
      split <;> simp [own]
    rw [hm, rdy, if_neg (by simp), if_neg (by simp), if_neg (by omega)]
  simp only [State.hostWrite, nextBar0_none hw, hw, hl, up]
  rw [if_neg (by simp; omega)]
  exact hb

end

/-- A write to a register of a launch queue's block (R60, R399). -/
theorem cfgWrite_queue {s : State} (rdy : s.dev.bootReady = true) {q o : Nat} (f : Option Nat) (v : DWord) (hq : q < 64) (ho : o ≤ 0x20)
    (h8 : o % 8 = 0) : s.cfgWrite false f (BitVec.ofNat 64 (0x03000000 + o + 0x40 * q)) v = s.queueWrite q o v := by
  have ha : (BitVec.ofNat 64 (0x03000000 + o + 0x40 * q)).toNat = 0x03000000 + o + 0x40 * q := by
    simp [BitVec.toNat_ofNat]; omega
  have hr : cfgReg (0x03000000 + o + 0x40 * q) = some (.queue q o) := by
    have h3 : (0x03000000 + o + 0x40 * q) / 2 ^ 24 = 3 := by omega
    have hn : (0x03000000 + o + 0x40 * q) % 2 ^ 24 / 0x40 = q := by omega
    have hm : (0x03000000 + o + 0x40 * q) % 2 ^ 24 % 0x40 = o := by omega
    have hb : (decide (q < 64) && decide (o ≤ 0x20) && decide ((0x03000000 + o + 0x40 * q) % 8 = 0)) = true := by
      simp [hq, ho]; omega
    simp only [cfgReg, h3, hn, hm]
    exact if_pos hb
  have h0 : (0x03000000 + o + 0x40 * q) / 2 ^ 62 = 0 := by omega
  simp only [State.cfgWrite, ha, rdy, h0, hr]
  rw [if_neg (by simp), if_pos (by omega)]
  rfl

section
variable {s : State} {f q : Nat} (hq : q < 64) (rdy : s.dev.bootReady = true)
  (hw : ∀ {ca} v, ca < 2 ^ 28 → s.hostWrite f ca v = s.cfgWrite false (some f) (BitVec.ofNat 64 ca) v)
include hq rdy hw

theorem doorbellWrite_rings (t : Word) : exec (.doorbellWrite f q t) s = .next (s.doorbell q t) := by
  have hb : onlyBits (t.setWidth 64) [(0, 32)] = true := by
    have ht : t.toNat < 2 ^ 32 := t.isLt
    simp only [onlyBits, bitsOf, BitVec.toNat_setWidth, List.map_cons, List.map_nil, List.sum_cons, List.sum_nil, decide_eq_true_eq]
    omega
  refine congrArg Host.Outcome.next ((if_pos hq).trans ?_)
  rw [hw _ (by omega), cfgWrite_queue (o := 0x18) rdy _ _ hq (by decide) rfl]
  refine (if_pos hb).trans ?_
  rw [BitVec.setWidth_setWidth_of_le _ (by decide), BitVec.setWidth_eq]

theorem lqstatResume_resumes (h2 : (s.queue q).state = 2) :
    exec (.lqstatResume f q) s = .next (s.setQueue q { s.queue q with state := 1 }) := by
  refine congrArg Host.Outcome.next ((if_pos hq).trans ?_)
  rw [hw _ (by omega), cfgWrite_queue (o := 0x20) rdy _ _ hq (by decide) rfl]
  exact (if_neg (not_not.mpr h2)).trans (if_pos rfl)

end

theorem hostRegisterAccesses : HostRegisterAccesses := by
  intro s f
  refine ⟨fun hf up hw hl own rdy => ?_, fun hf up hw hl ca v => congrArg Host.Outcome.next (hostWrite_held hf up hw hl ca v),
    fun x v hx => congrArg Host.Outcome.next (if_pos hx)⟩
  have reach {ca : Nat} (v : DWord) (hc : ca < 2 ^ 28) := hostWrite_owner hf up hw hl own rdy v hc
  refine ⟨fun ca v hc => congrArg Host.Outcome.next (reach v hc), fun q hq => ⟨fun t en => ?_, lqstatResume_resumes hq rdy reach⟩⟩
  have hen : ¬ (!(s.queue q).en) = true := by rw [en]; decide
  rw [doorbellWrite_rings hq rdy reach]
  exact ⟨fun ht => congrArg Host.Outcome.next ((if_neg hen).trans (if_neg (Nat.not_lt.mpr ht))),
    fun ht => congrArg Host.Outcome.next ((if_neg hen).trans (if_pos ht))⟩

/-! ### Window accesses of hosts (R14, R231, R405, R408) -/

section
variable {s : State} {f off len : Nat} (hf : f < 4) (up : (s.host f).up = true) (h40 : off < 2 ^ 40) (hl : 0 < len)
include hf up h40 hl

/-- Nothing of the function's rights or of its earlier writes keeps the access from being tried. -/
theorem hostWindow_tries {data : Option (List Byte)}
    (hd : data.isSome = true → s.owns f = true ∧ heldWrites (s.host f).heldWin = false) :
    (∀ t c, s.winTry f data off len = .done t c → s.hostWindow f data off len = t.complete f data.isSome c) ∧
    ∀ t, s.winTry f data off len = .wait t →
      s.hostWindow f data off len = t.setHost f { t.host f with heldWin := (t.host f).heldWin ++ [(data, off, len)] } := by
  have h1 : ¬ (decide (4 ≤ f) || !(s.host f).up || decide (2 ^ 40 ≤ off) || decide (len = 0)) = true := by simp [up]; omega
  have h2 : ¬ (data.isSome && !s.owns f) = true := fun h => by simp [hd (Bool.and_eq_true_iff.mp h).1] at h
  have h3 : ¬ (data.isSome && heldWrites (s.host f).heldWin) = true := fun h => by simp [hd (Bool.and_eq_true_iff.mp h).1] at h
  constructor <;> intros <;> next ht => simp only [State.hostWindow, if_neg h1, if_neg h2, if_neg h3, ht]

end

section
variable {s : State} {f off len : Nat} (h36 : off + len ≤ 2 ^ 36) (hh : (s.host f).hwin.getLsbD 0 = true)
  (he : (s.ctx (s.winXl f).ctx).en = true)
include h36 hh he

theorem win_open : ¬ (!(s.host f).hwin.getLsbD 0 || !(s.ctx (s.winXl f).ctx).en || decide (2 ^ 36 < off + len)) = true := by
  simp [hh, he]
  omega

variable {data : Option (List Byte)} (hp : s.waits (.win f data off len) = false)
include hp

theorem winTry_faults {c a i} (hx : s.xlate (s.winXl f) (if data.isSome then 18 else 17) data.isSome false ((s.host f).winVa off) len
    false = .fault c a i) : s.winTry f data off len = s.winFault (.win f data off len) := by
  simp only [State.winTry, hp, if_neg (win_open h36 hh he), hx]
  rfl

theorem winTry_misses {ob sub a} (hx : s.xlate (s.winXl f) (if data.isSome then 18 else 17) data.isSome false ((s.host f).winVa off) len
    false = .miss ob sub a) : s.winTry f data off len =
      .wait (s.parkOn (.win f data off len) (s.winXl f).ctx ob sub 5 data.isSome (if f < 2 then 48 else 49) a) := by
  simp only [State.winTry, hp, if_neg (win_open h36 hh he), hx]
  rfl

theorem winTry_reads {ps bs} (hd : data = none) (hx : s.xlate (s.winXl f) 17 false false ((s.host f).winVa off) len false = .ok ps)
    (hs : s.spanIn (.win f data off len) (s.winXl f).ctx ps = .ok bs) : s.winTry f data off len =
      .done ((s.spanEnergy (s.winXl f).ctx ps).release (.win f data off len)) (some bs) := by
  subst hd
  simp only [State.winTry, hp, if_neg (win_open h36 hh he), Option.isSome_none, Bool.false_eq_true, if_false, hx, hs]

theorem winTry_writes {ps d bs} (hd : data = some d) (hx : s.xlate (s.winXl f) 18 true false ((s.host f).winVa off) len false = .ok ps)
    (hs : s.spanOut (.win f data off len) (s.winXl f).ctx ps d = .ok bs) : s.winTry f data off len =
      .done (((s.spanWrite ps d).spanEnergy (s.winXl f).ctx ps).release (.win f data off len)) (some []) := by
  subst hd
  simp only [State.winTry, hp, if_neg (win_open h36 hh he), Option.isSome_some, if_true, hx, hs]
  rfl

end

theorem hostWindowAccesses : HostWindowAccesses := by
  intro s f off len h x va hf up h40 hl h36 hh he
  refine ⟨fun hp => ?_, ?_⟩
  · obtain ⟨done, wait⟩ := hostWindow_tries (data := none) hf up h40 hl (by simp)
    refine ⟨fun ps bs hx hs => ?_, fun c a i hx => ?_, fun ob sub a hx => ?_⟩
    · exact congrArg Host.Outcome.next (done _ _ (winTry_reads h36 hh he hp rfl hx hs))
    · refine ⟨_, congrArg Host.Outcome.next (done _ _ (winTry_faults h36 hh he hp hx)), rfl, ?_⟩
      exact congrArg HostFn.completions (State.host_setHost _ f _)
    · exact congrArg Host.Outcome.next (wait _ (winTry_misses h36 hh he hp hx))
  · intro data hd own hw p hp ps bs hx hs
    subst hd
    obtain ⟨done, -⟩ := hostWindow_tries (data := some data) hf up h40 hl fun _ => ⟨own, hw⟩
    exact congrArg Host.Outcome.next (done _ _ (winTry_writes h36 hh he hp rfl hx hs))

/-- Settles O53. -/
theorem hostSideEvents : Obligations.HostSideEvents := ⟨hostEvents, hostRegisterAccesses, hostWindowAccesses⟩

end Sys2Proof.Claims

/-! ## The work distributor (O55) -/

namespace Sys2Proof.Claims

open Sys2Proof.Machine

/-! ### Launch records and grids (R60, R61, R78) -/

section
variable {s : State} {q : Nat} (rdy : s.queueReady (s.queue q) = true)
include rdy

theorem launchRecordTake_bad (h : s.headRecord q = .bad) : exec (.launchRecordTake q) s =
    .next (((s.release (.queue q)).setQueue q { s.queue q with head := (s.queue q).head + 1 }).haltQueue q 8 (some (s.queue q).head)) := by
  show execLaunchRecordTake q s = _
  simp only [execLaunchRecordTake, rdy, h]
  rfl

theorem launchRecordTake_waits {t : State} (h : s.headRecord q = .wait t) : exec (.launchRecordTake q) s = .next t := by
  show execLaunchRecordTake q s = _
  simp only [execLaunchRecordTake, rdy, h]
  rfl

theorem launchRecordTake_raw {raw : Nat} (h : s.headRecord q = .raw raw) :
    let t := (s.release (.queue q)).setQueue q { s.queue q with head := (s.queue q).head + 1 }
    let r := parseLaunch raw
    let c := s.launchCode (s.queue q).ctx (r.ctx = (s.queue q).ctx) raw r false
    exec (.launchRecordTake q) s = .next (if c = 0 then t.enterGrid q r else t.haltQueue q c (some (s.queue q).head)) := by
  intro t r c
  show execLaunchRecordTake q s = _
  simp only [execLaunchRecordTake, rdy, h]
  change Host.Outcome.next (match c with | 0 => t.enterGrid q r | m => t.haltQueue q m (some (s.queue q).head)) = _
  cases c with
  | zero => rfl
  | succ => rfl

end

theorem launchEvents : LaunchEvents := by
  intro s q n
  refine ⟨fun rdy => ⟨launchRecordTake_bad rdy, fun ob sub a hw hm => launchRecordTake_waits rdy ?_,
    fun raw h => ⟨fun hc => ?_, fun hc => ?_⟩⟩, fun g hg ht hs hl hp hw hb => ?_⟩
  · simp only [State.headRecord, State.readRecord, hw, hm]
    rfl
  · rw [launchRecordTake_raw rdy h, if_pos hc]
  · rw [launchRecordTake_raw rdy h, if_neg hc]
  · have hw : (s.wgs.any fun kv => kv.2.grid = n) = false := by simpa using hw
    have hb : (s.cores.any fun kv => kv.2.bins.any fun b => b.2.grid = n) = false := by simpa using hb
    have hd : ¬ (decide (g.nextW < g.total) || (s.ctx g.lrec.ctx).stopped || decide (g.live ≠ 0) || decide (g.spawned ≠ 0) ||
        (s.wgs.any fun kv => kv.2.grid = n) || s.cores.any fun kv => kv.2.bins.any fun b => b.2.grid = n) = true := by
      simp [hs, hl, hp, hw, hb, ht]
    show execGridComplete n s = _
    simp only [execGridComplete, hg, if_neg hd]

/-! ### Workgroups (R61 to R73, R76) -/

section
variable {s : State} {k core base : Nat} {slots : List Nat}

theorem placeWorkgroup_places {w : Wait} {areas : List (Nat × Nat)}
    (hc : s.candidate core (fun w => s.fitsAt (s.need w) core slots base) = some w)
    (hn : ∀ v, w.key.bind s.wg? = some v → v.state = .waiting) (hl : areas.length = (s.need w).n)
    (ha : areasOk (s.privSize (s.need w).ctx) (mapGet s.grids w.grid {}).lrec.privu (s.privUsed (s.need w).ctx) areas = true) :
    exec (.placeWorkgroup core slots base areas) s = .next ((s.placeNew w core slots base areas).l1Trim core) := by
  show execPlaceWorkgroup core slots base areas s = _
  unfold execPlaceWorkgroup
  extract_lets fit
  simp only [fit, hc]
  refine congrArg Host.Outcome.next (if_pos ?_)
  simp only [hl, ha, decide_true, Bool.and_true]
  split
  · next v hv => simpa using hn v hv
  · rfl

theorem eprioAge_grid {g : Grid} (hg : mapGet? s.grids k = some g) (h7 : g.eprio < 7) (hn : g.next?.isSome = true) :
    exec (.eprioAge true k) s = .next { s.atLeast (agedDue (s.sliceNs g.lrec.ctx) g.waitTns g.lrec.prio g.eprio) with
      grids := mapSet s.grids k { g with eprio := g.eprio + 1 } } := by
  have hd : ¬ (decide (7 ≤ g.eprio) || g.next?.isNone) = true := by simp [h7, Option.isSome_iff_ne_none.mp hn]
  show execEprioAge true k s = _
  simp only [execEprioAge, hg, if_neg hd]
  rfl

theorem eprioAge_workgroup {w : Workgroup} (hw : s.wg? k = some w) (h7 : w.eprio < 7) (hs : w.state = .swapped ∨ w.state = .waiting) :
    exec (.eprioAge false k) s = .next ((s.atLeast (agedDue (s.sliceNs w.ctx) w.waitTns w.prio w.eprio)).setWg k
      { w with eprio := w.eprio + 1 }) := by
  have hd : ¬ (decide (7 ≤ w.eprio) || !(decide (w.state = .swapped) || decide (w.state = .waiting))) = true := by
    rcases hs with hs | hs <;> simp [h7, hs]
  show execEprioAge false k s = _
  simp only [execEprioAge, hw, if_neg hd]
  rfl

theorem evictWorkgroup_marks {h : Wait} (hw : firstWait s.waiting = some h) (hs : s.headStuck h = true) (hv : s.victim? h = some k) :
    exec (.evictWorkgroup k) s = .next (s.modWg k fun v => { v with evict := true }) := by
  show execEvictWorkgroup k s = _
  simp only [execEvictWorkgroup, hw, hs, hv]
  rfl

theorem evictWorkgroup_counts {h : Wait} (hw : firstWait s.waiting = some h) (hs : s.headStuck h = true) {v : Workgroup}
    (hv : s.victim? h ≠ some k) (hf : ((s.withheldFor h).find? fun kv => kv.1 = k) = some (k, v))
    (hn : v.withheld ≠ some (h.grid, h.wgid, h.since)) :
    exec (.evictWorkgroup k) s = .next ((s.setWg k { v with withheld := some (h.grid, h.wgid, h.since) }).count 4) := by
  show execEvictWorkgroup k s = _
  simp only [execEvictWorkgroup, hw, hs, if_neg hv, hf, if_pos hn]
  rfl

/-! ### Saves (R71) and resumes (R72) -/

theorem saveBegin_saves {v : Workgroup} {i : Nat} (hw : s.wg? k = some v) (hf : s.freeSaveSlot v.ctx = some i) (he : v.evict = true)
    (hr : v.state = .resident) (ht : s.inTrap k = false) (hs : s.saveWanted k v = true) :
    let t := ((v.copies.foldl (fun t c => t.startCopy k c.num) s).modWg k fun x =>
      { x with state := .saving, evict := false, preempted := false, saveSlot := some i, saveTns := s.dev.tns }).modCtx v.ctx fun c =>
        { c with slots := c.slots ++ [i] }
    exec (.saveBegin k) s = .next ((s.groupsOf k).foldl (fun t g => match t.grp? g with | some x => t.cuFlush x | none => t) t) := by
  have hd : ¬ (!v.evict || decide (v.state ≠ .resident)) = true := by simp [he, hr]
  show execSaveBegin k s = _
  simp only [execSaveBegin, hw, if_neg hd, hf, hs, ht]
  rfl

theorem saveBegin_withdraws {v : Workgroup} (hw : s.wg? k = some v) (he : v.evict = true) (hr : v.state = .resident)
    (hs : s.saveWanted k v = false) : exec (.saveBegin k) s = .next (s.setWg k { v with evict := false }) := by
  have hd : ¬ (!v.evict || decide (v.state ≠ .resident)) = true := by simp [he, hr]
  show execSaveBegin k s = _
  simp only [execSaveBegin, hw, if_neg hd, hs]
  rfl

section
variable {v : Workgroup} (hs : v.state = .saving) (hd : (((s.groupsOf k).filterMap s.grp?).all Group.drained) = true)
include hs hd

theorem save_drained : ¬ (decide (v.state ≠ .saving) || !((s.groupsOf k).filterMap s.grp?).all Group.drained) = true := by
  rw [hs, hd]
  decide

variable (hw : s.wg? k = some v)
include hw

theorem saveComplete_flushes (hm : (((s.groupsOf k).filterMap s.grp?).any fun g => g.dirtyMask ≠ 0) = true) :
    exec (.saveComplete k) s = .next (((s.groupsOf k).filterMap s.grp?).foldl (fun t g => t.cuFlush g) s) := by
  show execSaveComplete k s = _
  simp only [execSaveComplete, hw, if_neg (save_drained hs hd), if_pos hm]

theorem saveComplete_swaps (hm : (((s.groupsOf k).filterMap s.grp?).any fun g => g.dirtyMask ≠ 0) = false) {x : Workgroup} :
    let u := ((s.endExiting k).passFlas k).finishReads k
    u.wg? k = some x → ((u.groupsOf k).filterMap u.grp?).isEmpty = false → x.copies.any Copy.own = false → let t := u.writeImage k
    exec (.saveComplete k) s = .next (((((t.groupsOf k).foldl (fun t j => t.modGrp j Group.husk) t).setWg k
      { x with state := .swapped, waitTns := x.saveTns, eprio := x.prio, wgm := [], tiles := [], bst := [], btag := [] }).syncDirty
        (dieOfCore x.core)).noteIdle (clusterOfCore x.core)) := by
  intro u hx he hc t
  show execSaveComplete k s = _
  unfold execSaveComplete
  refine congrArg Host.Outcome.next ?_
  split
  · next h => cases hw.symm.trans h
  · next v0 h =>
    cases hw.symm.trans h
    extract_lets +onlyGivenNames gs s0
    rw [if_neg (save_drained hs hd), if_neg (ne_true_of_eq_false hm)]
    split
    · next h => cases hx.symm.trans h
    · next y h =>
      cases hx.symm.trans h
      rw [if_neg (ne_true_of_eq_false he), if_neg (ne_true_of_eq_false hc)]

end

theorem resumeWorkgroup_resumes {x : Wait} {v : Workgroup}
    (hc : s.candidate core (fun x => x.key = some k && s.fitsAt (s.need x) core slots base) = some x) (hw : s.wg? k = some v)
    (hs : v.state = .swapped) :
    let u : Workgroup := { v.fromSync (s.rdNat (s.imageBase v) 256) (s.rdNat (s.imageAt v 5) 4096) with
      state := .resuming, core := core, base := base, clu := clusterOfCore core, eprio := v.prio,
      residentTns := s.dev.tns, withheld := none }
    let t := (s.groupsOf k).zipIdx.foldl (fun t p => t.modGrp p.1 fun g => { g with slot := core * 128 + slots.getD p.2 0 })
      ((s.writeHeader u 2).setWg k u)
    exec (.resumeWorkgroup k core slots base) s = .next ((t.onCore v.ctx core).l1Trim core) := by
  intro u t
  show execResumeWorkgroup k core slots base s = _
  unfold execResumeWorkgroup
  extract_lets fit
  simp only [fit, hc, hw]
  exact congrArg Host.Outcome.next (if_neg (not_not.mpr hs))

theorem resumeComplete_resumes {v : Workgroup} (hw : s.wg? k = some v) (hs : v.state = .resuming) :
    let t := ((s.restore k).modWg k fun x => { x with state := .resident, saveSlot := none, residentTns := s.dev.tns, cplc := 0 }).freeSlot
      v.ctx v.saveSlot
    exec (.resumeComplete k) s =
      .next ((((t.groupsOf k).foldl (fun t j => t.resumeGrp j) t).handSlices k fun _ => true).barCheck k).syncWake := by
  show execResumeComplete k s = _
  simp only [execResumeComplete, hw]
  exact congrArg Host.Outcome.next (if_neg (not_not.mpr hs))

end

theorem workgroupEvents : WorkgroupEvents := by
  intro s k core base slots
  refine ⟨fun w areas hc hn => placeWorkgroup_places hc fun v hv => ?_, fun g => eprioAge_grid, fun w => eprioAge_workgroup,
    fun h hw hs => ⟨evictWorkgroup_marks hw hs, fun v => evictWorkgroup_counts hw hs⟩,
    fun v i => saveBegin_saves, fun v => saveBegin_withdraws, fun v hw hs hd => ⟨saveComplete_flushes hs hd hw,
      fun hm _ => saveComplete_swaps hs hd hw hm⟩, fun x v => resumeWorkgroup_resumes, fun v => resumeComplete_resumes⟩
  simpa only [hv] using hn

/-! ### Regroup bins and clusters (R75, R77) -/

section
variable {s : State} {c i : Nat}

theorem regroupBinTimer_eq {b : Bin} (hb : mapGet? (s.core c).bins i = some b) (ho : b.closed = false) :
    let t := s.atLeast (b.start + (s.core c).sptmr * 1000)
    exec (.regroupBinTimer c i) s = .next ((t.formBin c i).getD (t.modCore c fun v =>
      { v with bins := mapSet v.bins i { b with closed := true } })) := by
  intro t
  show execRegroupBinTimer c i s = _
  simp only [execRegroupBinTimer, hb, if_neg (ne_true_of_eq_false ho)]
  change Host.Outcome.next (match t.formBin c i with | some u => u | none => _) = _
  cases t.formBin c i <;> rfl

/-- An idle powered cluster whose timer has run out: a dispatch to it comes first (R77). -/
theorem clusterIdleGate_eq (hg : (s.cluster i).gate = .powered) (hi : (s.cluster i).idle = true) (hc : s.clusterIdle i = true) :
    exec (.clusterIdleGate i) s = .next (if s.dispatches i then s.setCluster i { s.cluster i with idleTns := s.dev.tns }
      else ((List.range 4).foldl (fun t j => t.settleCore (4 * i + j))
        (s.atLeast ((s.cluster i).idleTns + (s.cluster i).clidle * 1000))).setCluster i { s.cluster i with gate := .gating }) := by
  have hd : ¬ (decide ((s.cluster i).gate ≠ .powered) || !(s.cluster i).idle || !s.clusterIdle i) = true := by simp [hg, hi, hc]
  exact congrArg Host.Outcome.next (if_neg hd)

end

theorem regroupAndClusterEvents : RegroupAndClusterEvents := by
  intro s c i
  refine ⟨fun b hb ho => ⟨fun u hu => ?_, fun hu => ?_⟩, rfl, fun hg hi hc => ⟨fun hd => ?_, fun hd => ?_⟩, fun hg hw => ?_,
    fun hg => ?_⟩
  · rw [regroupBinTimer_eq hb ho, hu]
    rfl
  · rw [regroupBinTimer_eq hb ho, hu]
    rfl
  · rw [clusterIdleGate_eq hg hi hc, if_pos hd]
  · rw [clusterIdleGate_eq hg hi hc, if_neg (ne_true_of_eq_false hd)]
  · exact congrArg Host.Outcome.next (if_pos (by rw [hg, hw]; rfl))
  · exact congrArg Host.Outcome.next (if_pos hg)

/-- Settles O55. -/
theorem workDistributionEvents : Obligations.WorkDistributionEvents := ⟨launchEvents, workgroupEvents, regroupAndClusterEvents⟩

end Sys2Proof.Claims

/-! ## Control units, branches and divergence (O2, O3, O4, O5, O38) -/

namespace Sys2Proof.Claims

open Sys2Proof.Machine

/-- A unit that names no register meets none that its group has to wait for. -/
theorem quiet_nil (g : Group) : Quiet g [] [] := ⟨rfl, rfl, by simp [dstMeet]⟩

/-! ### Software traps (R113) -/

section
variable {s : State} {k : Nat} {g : Group} (r : Ready s k g)
include r

theorem trapUnit_traps (cause fn : Nat) (n : Fin 128) :
    let u : Uop := { u0 fn 0 0 n.val with str := true }
    issue u (trapEff u cause n.val) s = .next (s.takeTrap k g
      { cause := cause, a := BitVec.ofNat 64 n.val, pc := g.pc, i := word0 fn 0 0 n.val, resume := g.pc + 4 }) :=
  issue2_quiet r _ rfl rfl (quiet_nil g) (Nat.zero_le 8) rfl (fun h => nomatch h) rfl rfl rfl rfl

theorem trapUnit_enters {cause : Nat} (fn : Nat) (n : Fin 128) (h3 : cause ≠ 3) (hc : cause < 256) (c : CanEnter s g) :
    let u : Uop := { u0 fn 0 0 n.val with str := true }
    issue u (trapEff u cause n.val) s = .next (s.setGrp k
      (entered g s cause (BitVec.ofNat 64 n.val) g.pc (word0 fn 0 0 n.val) (g.pc + 4))) :=
  (trapUnit_traps r cause fn n).trans (congrArg _ (takeTrap_entered c h3 rfl hc))

end

/-- Settles O3. -/
theorem softwareTraps : Obligations.SoftwareTraps := by
  intro s k g n r
  simp only [List.forall_mem_cons, List.not_mem_nil, false_imp_iff, implies_true, and_true]
  exact ⟨⟨trapUnit_traps r 0x11 2 n, trapUnit_enters r 2 n (by decide) (by decide)⟩,
    trapUnit_traps r 0x10 3 n, trapUnit_enters r 3 n (by decide) (by decide)⟩

/-! ### The return from a handler (R107, R114) -/

/-- `rte` comes to its own effect. -/
theorem rte_issues {s : State} {k : Nat} {g : Group} (r : Ready s k g) :
    let u : Uop := { u0 4 0 0 0 with str := true }
    exec .rte s = .next (applyEff u k g s (rteEff u s k allOnes g (past g 1))) :=
  issue2_quiet r _ rfl rfl (quiet_nil g) (Nat.zero_le 8) rfl (fun h => nomatch h) rfl rfl rfl rfl

theorem rte_traps {s : State} {k : Nat} {g : Group} (r : Ready s k g) (hi : g.inH = false) :
    exec .rte s = .next (s.takeTrap k g { cause := 1, a := 0, pc := g.pc, i := word0 4 0 0 0, resume := g.pc }) := by
  rw [rte_issues r]
  simp only [rteEff, hi]
  rfl

theorem rte_faults {s : State} {k : Nat} {g : Group} (r : Ready s k g) (hi : g.inH = true)
    (hv : (regGet g.bank 7).toNat % 4 ≠ 0 ∨ 2 ^ 52 ≤ (regGet g.bank 7).toNat) :
    exec .rte s = .next ((s.contextFault k g { cause := 0x13, a := 0, pc := g.pc, i := word0 4 0 0 0 }).paid g
      { pipe := 0, cls := 1 }) := by
  have bad : pcOk (regGet g.bank 7) = false := by
    simp only [pcOk, Bool.and_eq_false_iff, decide_eq_false_iff_not]
    omega
  rw [rte_issues r]
  simp only [rteEff, hi, bad]
  exact congrArg _ (applyEff_st_scalar (Nat.zero_le 8) rfl rfl rfl)

theorem rte_returns {s : State} {k : Nat} {g : Group} (r : Ready s k g) (hi : g.inH = true)
    (h4 : (regGet g.bank 7).toNat % 4 = 0) (hv : (regGet g.bank 7).toNat < 2 ^ 52) :
    exec .rte s = .next (((s.setGrp k g.leaveHandler).passBank g.core (partOfSlot g.slot)).paid g { pipe := 0, cls := 1 }) := by
  have ok : pcOk (regGet g.bank 7) = true := by
    simp only [pcOk, Bool.and_eq_true, decide_eq_true_eq]
    exact ⟨h4, hv⟩
  rw [rte_issues r]
  simp only [rteEff, hi, ok]
  exact congrArg _ (applyEff_st_scalar (Nat.zero_le 8) rfl rfl rfl)

/-- The groups but `k` that share a handler bank with `g` and are not halted, as the statement lists them. -/
def mates (s : State) (k : Nat) (g : Group) : NMap Group :=
  s.groups.filter fun kv => kv.1 ≠ k && kv.2.core = g.core && partOfSlot kv.2.slot = partOfSlot g.slot && !kv.2.halted

theorem mem_mates {s : State} {k : Nat} {g : Group} {kv : Nat × Group} : kv ∈ mates s k g ↔
    kv ∈ s.groups ∧ kv.1 ≠ k ∧ kv.2.core = g.core ∧ partOfSlot kv.2.slot = partOfSlot g.slot ∧ kv.2.halted = false := by
  simp [mates, and_assoc]

/-- What a table holds after one entry is put. -/
theorem mem_mapSet {α : Type} {m : NMap α} {n : Nat} {v : α} {kv : Nat × α} (hm : Rising m) (h : kv ∈ mapSet m n v) :
    kv = (n, v) ∨ kv ∈ m ∧ kv.1 ≠ n := by
  have hv := mapGet?_of_mem hm.mapSet h
  rw [mapGet?_mapSet] at hv
  split at hv
  · next e => exact .inl (Prod.ext e (Option.some.inj hv).symm)
  · next e => exact .inr ⟨mem_of_mapGet? hv, e⟩

section
variable {s : State} {k : Nat} {g h : Group} (rising : Rising s.groups) (hi : h.inH = false)
  (out : ∀ kv ∈ mates s k g, kv.2.inH = false)

include rising in
/-- A group in line with `g` for its bank, once `k` itself has changed, is `k` or one of the others. -/
theorem mem_setGrp_mates {kv : Nat × Group} (hm : kv ∈ (s.setGrp k h).groups) (hc : kv.2.core = g.core)
    (hp : partOfSlot kv.2.slot = partOfSlot g.slot) (hh : kv.2.halted = false) : kv = (k, h) ∨ kv ∈ mates s k g :=
  (mem_mapSet rising hm).imp_right fun ⟨hs, hk⟩ => mem_mates.mpr ⟨hs, hk, hc, hp, hh⟩

include rising hi out in
theorem bankHolder_none : (s.setGrp k h).bankHolder g.core (partOfSlot g.slot) = none := by
  simp only [State.bankHolder, Option.map_eq_none_iff, List.find?_eq_none, Bool.and_eq_true, Bool.not_eq_true', decide_eq_true_eq]
  rintro kv hm ⟨⟨⟨hin, hh⟩, hc⟩, hp⟩
  rcases mem_setGrp_mates rising hm hc hp hh with rfl | hm
  · exact absurd hin (by simp [hi])
  · exact absurd hin (by simp [out kv hm])

variable (hw : h.bankWait = none)
include rising hw

/-- With no group in line, the free bank goes to nobody. -/
theorem passBank_setGrp_unchanged (none_wait : ∀ kv ∈ mates s k g, kv.2.bankWait = none) :
    (s.setGrp k h).passBank g.core (partOfSlot g.slot) = s.setGrp k h := by
  have empty : (s.setGrp k h).bankWaiters g.core (partOfSlot g.slot) = [] := by
    simp only [State.bankWaiters, List.filter_eq_nil_iff, Bool.and_eq_true, Bool.not_eq_true', decide_eq_true_eq]
    rintro kv hm ⟨⟨⟨hs, hh⟩, hc⟩, hp⟩
    rcases mem_setGrp_mates rising hm hc hp hh with rfl | hm
    · simp [hw] at hs
    · simp [none_wait kv hm] at hs
  simp only [State.passBank, State.nextWaiter, empty, List.foldl_nil]
  exact ite_self _

include hi out in
/-- The first in line enters its handler. -/
theorem passBank_setGrp_enters {kv : Nat × Group} (hm : kv ∈ mates s k g) {w : Trap} (wait : kv.2.bankWait = some w)
    (res : s.residentGrp kv.2 = true) (run : (s.ctx kv.2.ctx).stop = .running)
    (first : ∀ jv ∈ mates s k g, jv.2.bankWait.isSome = true → jv.1 ≠ kv.1 → comesBefore kv.2 jv.2 = true) :
    (s.setGrp k h).passBank g.core (partOfSlot g.slot) =
      (s.setGrp k h).setGrp kv.1 (kv.2.enterHandler w s.dev.tns s.nextId) := by
  obtain ⟨hs, hk, hc, hp, hh⟩ := mem_mates.mp hm
  have hg : (s.setGrp k h).grp? kv.1 = some kv.2 := by
    rw [State.grp?_setGrp_other _ _ hk]
    exact mapGet?_of_mem rising hs
  have next : (s.setGrp k h).nextWaiter kv.2.core (partOfSlot kv.2.slot) = some (kv.1, kv.2) := by
    refine nextWaiter_eq hg wait hh rising.mapSet fun jv hj hne jc jp jw jh => ?_
    rcases mem_setGrp_mates rising hj (jc.trans hc) (jp.trans hp) jh with rfl | hj
    · simp [hw] at jw
    · exact first jv hj jw hne
  rw [hc, hp] at next
  exact passBank_enters next (bankHolder_none rising hi out) wait res run

end

/-- Settles O4: after a good return the bank is free, and passes on by the line of the groups that wait for it. -/
theorem handlerReturn : Obligations.HandlerReturn := by
  intro s k g r v
  refine ⟨rte_traps r, rte_faults r, ?_⟩
  intro hi h4 hv h t rising ms out
  have hw : h.bankWait = none := by
    have can := r.can
    simp only [Group.canIssue, Bool.and_eq_true, Option.isNone_iff_eq_none] at can
    exact can.1.1.2
  rw [rte_returns r hi h4 hv]
  refine ⟨fun none_wait => ?_, fun kv hm w wait res run first => ?_⟩
  · exact congrArg (fun t : State => Host.Outcome.next (t.paid g { pipe := 0, cls := 1 }))
      (passBank_setGrp_unchanged rising hw none_wait)
  · refine congrArg (fun t : State => Host.Outcome.next (t.paid g { pipe := 0, cls := 1 }))
      (passBank_setGrp_enters rising rfl out hw hm wait res run fun jv hj hs hne => ?_)
    simpa [comesBefore] using first jv hj hs hne

/-! ### Units of majors 0 to 2: what their effect makes of the machine -/

/-- Such a unit that leaves its group as `h` is done. -/
theorem applyEff_grp_scalar {u : Uop} {k : Nat} {g h : Group} {s : State} (hm : u.maj ≤ 8) (v : u.vr = []) (v2 : u.vr2 = [])
    (hp : u.pfx = Pfx.none) : applyEff u k g s (.grp h) = done s k g h u.maj u.cls :=
  applyEff_st_scalar (k := k) (s := s) (t := s.setGrp k h) hm v v2 hp

section
variable {s : State} {k : Nat} {g : Group} (r : Ready s k g) {eff str : Effect} {h : Group}
include r

/-- A unit of major 0 that is no fault point takes its effect where its registers are at rest. -/
theorem control_done {fn d a b : Nat} {sr : List Nat} {x y : Bool} (q : Quiet g (sr.map g.sDst) []) (hi : x = true → g.inH = false)
    (he : eff s k allOnes g (past g 1) = .grp h) :
    issue2 { u0 fn d a b with sr := sr, hnd := x, str := y } eff str s = .next (done s k g h 0 1) := by
  let u : Uop := { u0 fn d a b with sr := sr, hnd := x, str := y }
  have hr : u.reads g = sr.map g.sDst := by simp [Uop.reads, u, u0, Pfx.none]
  refine (issue2_quiet r u hr rfl q (Nat.zero_le 8) rfl hi rfl rfl rfl rfl).trans ?_
  rw [he]
  exact congrArg _ (applyEff_grp_scalar (Nat.zero_le 8) rfl rfl rfl)

variable (c : Clear s g)
include c

/-- A fault point of majors 0 to 8 that writes no register comes to its own effect when nothing is to be taken there. -/
theorem issue2_clear (u : Uop) (pend : dstMeet (u.reads g) g.pending = false) (hw : u.writes g = []) (hm : u.maj ≤ 8)
    (hi : u.hnd = true → g.inH = false) (pr : u.priv = false) (v : u.vr = []) (w : u.vw = []) (hp : u.pfx = Pfx.none) :
    issue2 u eff str s = .next (applyEff u k g s (eff s k allOnes g (past g 1))) := by
  have rdy : u.ready g = true := by
    simp only [Uop.ready, hw, List.append_nil, pend, v]
    simp [dstMeet]
    omega
  rw [issue2_takes r.cur r.grp r.can r.res (fun _ => ⟨c.flt, c.die⟩) hi (by simp [pr]) rdy (by simp [v, w]), active_scalar hm,
    past_scalar v hp]

/-- A fault point of major 0. -/
theorem point_issues {fn : Nat} {x y : Bool} (hi : x = true → g.inH = false) :
    let u : Uop := { u0 fn 0 0 0 with fp := true, hnd := x, str := y }
    issue2 u eff str s = .next (applyEff u k g s (eff s k allOnes g (past g 1))) :=
  issue2_clear r c _ rfl rfl (Nat.zero_le 8) hi rfl rfl rfl rfl

/-- A unit of major 1. -/
theorem branch_issues {kind s6 o : Nat} {sr : List Nat} {x : Bool} (pend : dstMeet (sr.map g.sDst) g.pending = false)
    (hi : x = true → g.inH = false) :
    let u : Uop := { u1 kind s6 o with sr := sr, hnd := x }
    issue2 u eff str s = .next (applyEff u k g s (eff s k allOnes g (past g 1))) :=
  issue2_clear r c _ (by simpa [Uop.reads, u1, Pfx.none] using pend) rfl (by decide : 1 ≤ 8) hi rfl rfl rfl rfl

theorem branch_done {kind s6 o : Nat} {sr : List Nat} {x : Bool} (pend : dstMeet (sr.map g.sDst) g.pending = false)
    (hi : x = true → g.inH = false) (he : eff s k allOnes g (past g 1) = .grp h) :
    issue2 { u1 kind s6 o with sr := sr, hnd := x } eff str s = .next (done s k g h 1 1) := by
  rw [branch_issues r c pend hi, he]
  exact congrArg _ (applyEff_grp_scalar (by decide : 1 ≤ 8) rfl rfl rfl)

/-- A unit of major 2. -/
theorem diverge_issues {p : PReg} {neg : Bool} {kind : Nat} {o : BitVec 20} {pr : List Nat} {x : Bool}
    (pend : dstMeet (pr.map Dst.p) g.pending = false) (hi : x = true → g.inH = false) :
    let u : Uop := { u2 p neg kind o with pr := pr, hnd := x }
    issue2 u eff str s = .next (applyEff u k g s (eff s k allOnes g (past g 1))) :=
  issue2_clear r c _ (by simpa [Uop.reads, u2, Pfx.none] using pend) rfl (by decide : 2 ≤ 8) hi rfl rfl rfl rfl

theorem diverge_done {p : PReg} {neg : Bool} {kind : Nat} {o : BitVec 20} {pr : List Nat} {x : Bool}
    (pend : dstMeet (pr.map Dst.p) g.pending = false) (hi : x = true → g.inH = false)
    (he : eff s k allOnes g (past g 1) = .grp h) :
    issue2 { u2 p neg kind o with pr := pr, hnd := x } eff str s = .next (done s k g h 2 1) := by
  rw [diverge_issues r c pend hi, he]
  exact congrArg _ (applyEff_grp_scalar (by decide : 2 ≤ 8) rfl rfl rfl)

end

/-! ### Calls and returns (R93, R100, R120) -/

theorem wbOk_of_le {w : Int} (h0 : 0 ≤ w) (h : w + 96 ≤ 16384) : wbOk w = true := by simp [wbOk, h0, h]

/-- The group after a call: the entry pushed, the window moved, at the target. -/
def called (g : Group) (f : Nat) (t : DWord) : Group :=
  ({ past g 1 with ret := g.ret ++ [{ pc := g.pc + 4, frame := f }], pc := t } : Group).setWb (g.wb + 8 * f)

theorem called_frame (g : Group) (f : Nat) (t : DWord) : (called g f t).ret = g.ret ++ [{ pc := g.pc + 4, frame := f }] ∧
    (called g f t).pc = t ∧ (called g f t).wb = g.wb + 8 * f := by
  simp only [called, Group.setWb, Group.kick]
  split_ifs <;> exact ⟨rfl, rfl, rfl⟩

section
variable {u : Uop} {g : Group} {f : Nat} {t : Group → DWord} (s : State) (k : Nat) (m : DWord) (ht : (t g).toNat % 4 = 0)
  (hw : g.wb + 8 * f + 96 ≤ 16384) (hl : g.ret.length + g.retSp < 4096)
include ht hw hl

/-- Within the limits of R93 a call pushes, or has room made on a full resident stack first. -/
theorem callEff_eq : callEff u f t s k m g (past g 1) =
    if 16 ≤ g.ret.length then .waitSt (s.startStack k g g.retSp false 1) else .grp (called g f (t g)) := by
  have ok : wbOk ((g.wb : Int) + 8 * (f : Int)) = true := wbOk_of_le (by omega) (by omega)
  have hc : (!wbOk ((g.wb : Int) + 8 * (f : Int)) || decide (4096 ≤ g.ret.length + g.retSp)) = false := by
    simp only [ok, Bool.not_true, Bool.false_or, decide_eq_false_iff_not]
    omega
  simp only [callEff, if_neg (not_not.mpr ht), hc]
  rfl

theorem callEff_pushes (h16 : g.ret.length < 16) : callEff u f t s k m g (past g 1) = .grp (called g f (t g)) := by
  rw [callEff_eq s k m ht hw hl, if_neg (by omega)]

theorem callEff_spills (h16 : 16 ≤ g.ret.length) :
    callEff u f t s k m g (past g 1) = .waitSt (s.startStack k g g.retSp false 1) := by
  rw [callEff_eq s k m ht hw hl, if_pos h16]

end

section
variable {s : State} {k : Nat} {g : Group} (r : Ready s k g) (hi : g.inH = false)
include r hi

/-- A `ret` that finds nothing, resident or spilled, is an `exit`: their units differ in the word and in what bars them alone. -/
theorem ret_empty (hr : g.ret = []) (hs : g.retSp = 0) : exec .ret s = exec .exit s := by
  let u : Uop := { u0 6 0 0 0 with fp := true, hnd := true, str := true }
  let v : Uop := { u0 1 0 0 0 with fp := true }
  have he (m : DWord) (g1 : Group) : retEff u s k m g g1 = exitEff s k m g g1 := by
    simp [retEff, hr, hs]
  have hgrp : issueGrp u (retEff u) k g s = issueGrp v exitEff k g s := by
    have hb : (u.hnd && g.inH) = (v.hnd && g.inH) := by simp [hi, u, v, u0]
    simp only [issueGrp, he, hb]
    rfl
  exact (issue2_group r).trans ((congrArg _ hgrp).trans (issue2_group (str := exitEff) r).symm)

variable (c : Clear s g)
include c

theorem ret_pops {l : List RetEnt} {e : RetEnt} (hr : g.ret = l ++ [e]) (h0 : 8 * e.frame ≤ g.wb)
    (hw : g.wb - 8 * e.frame + 96 ≤ 16384) :
    exec .ret s = .next (done s k g (({ past g 1 with ret := l, pc := e.pc } : Group).setWb (g.wb - 8 * e.frame)) 0 1) := by
  have ok : wbOk ((g.wb : Int) - 8 * (e.frame : Int)) = true := wbOk_of_le (by omega) (by omega)
  refine (point_issues r c fun _ => hi).trans ?_
  have he (u : Uop) (m : DWord) : retEff u s k m g (past g 1) =
      .grp (({ past g 1 with ret := l, pc := e.pc } : Group).setWb (g.wb - 8 * e.frame)) := by
    simp [retEff, hr, ok]
  rw [he]
  exact congrArg _ (applyEff_grp_scalar (Nat.zero_le 8) rfl rfl rfl)

theorem ret_fills (hr : g.ret = []) (hs : g.retSp ≠ 0) : exec .ret s = .next (stackRuns s k g (g.retSp - 1) true 1) := by
  refine (point_issues r c fun _ => hi).trans ?_
  have he (u : Uop) (m : DWord) (g1 : Group) : retEff u s k m g g1 = .waitSt (s.startStack k g (g.retSp - 1) true 1) := by
    simp [retEff, hr, hs]
  rw [he]
  rfl

variable (hl : g.ret.length + g.retSp < 4096)
include hl

theorem call_pushes {f : Fin 64} {o : BitVec 18} (hw : g.wb + 8 * f.val + 96 ≤ 16384) (h16 : g.ret.length < 16)
    (ht : (target g o.toInt).toNat % 4 = 0) : exec (.call f o) s = .next (done s k g (called g f.val (target g o.toInt)) 1 1) :=
  branch_done (sr := []) r c rfl (fun _ => hi) (callEff_pushes s k _ ht hw hl h16)

theorem calli_pushes {a : SReg} {f : Fin 16} (pend : dstMeet [g.sDst a.val] g.pending = false)
    (hw : g.wb + 8 * f.val + 96 ≤ 16384) (h16 : g.ret.length < 16) (ht : (g.readS a.val).toNat % 4 = 0) :
    exec (.calli a f) s = .next (done s k g (called g f.val (g.readS a.val)) 1 1) :=
  branch_done (sr := [a.val]) r c pend (fun _ => hi) (callEff_pushes (t := fun g => g.readS a.val) s k _ ht hw hl h16)

theorem call_spills {f : Fin 64} {o : BitVec 18} (hw : g.wb + 8 * f.val + 96 ≤ 16384) (h16 : 16 ≤ g.ret.length)
    (ht : (target g o.toInt).toNat % 4 = 0) : exec (.call f o) s = .next (stackRuns s k g g.retSp false 1) := by
  refine (branch_issues (sr := []) r c rfl fun _ => hi).trans ?_
  rw [callEff_spills (t := fun g => branchTo g o.toInt) s k _ ht hw hl h16]
  rfl

theorem calli_spills {a : SReg} {f : Fin 16} (pend : dstMeet [g.sDst a.val] g.pending = false)
    (hw : g.wb + 8 * f.val + 96 ≤ 16384) (h16 : 16 ≤ g.ret.length) (ht : (g.readS a.val).toNat % 4 = 0) :
    exec (.calli a f) s = .next (stackRuns s k g g.retSp false 1) := by
  refine (branch_issues (sr := [a.val]) r c pend fun _ => hi).trans ?_
  rw [callEff_spills (t := fun g => g.readS a.val) s k _ ht hw hl h16]
  rfl

end

/-- A call that is done has pushed its entry, moved the window and gone to its target. -/
theorem done_called {s : State} {k : Nat} {g : Group} {f : Nat} {t : DWord} {i : Instr}
    (h : exec i s = .next (done s k g (called g f t) 1 1)) :
    ∃ u v, exec i s = .next u ∧ u.grp? k = some v ∧ v.ret = g.ret ++ [{ pc := g.pc + 4, frame := f }] ∧ v.pc = t ∧
      v.wb = g.wb + 8 * f := by
  exact ⟨_, called g f t, h, by rw [done, State.paid_grp?, State.grp?_setGrp], called_frame g f t⟩

/-- Settles O5. -/
theorem returnStack : Obligations.ReturnStack := by
  intro s k g r hi
  exact ⟨fun c h16 hl f o hw ht => done_called (call_pushes r hi c hl hw h16 ht),
    fun c h16 hl a f pend hw ht => done_called (calli_pushes r hi c hl pend hw h16 ht),
    fun l e c hr h0 hw => ret_pops r hi c hr h0 hw, ret_empty r hi⟩

/-! ### Branches (R119, R120) -/

theorem branchResults : BranchResults := by
  intro s k g r c
  refine ⟨fun o => branch_done (sr := []) (x := false) r c rfl (fun h => nomatch h) rfl,
    fun a pend => ⟨?_, fun ht => ?_, fun f ht hi hw h16 hl => ?_⟩,
    fun hi h16 hl => ⟨fun f o hw ht => call_spills r hi c hl hw h16 ht, fun a f pend hw ht => calli_spills r hi c hl pend hw h16 ht⟩,
    fun hi => ret_fills r hi c, fun f o hi hw h16 hl ht => call_pushes r hi c hl hw h16 ht⟩
  · have cond {kind : Nat} {o : BitVec 18} {b : Group → Bool} {v : Bool} (h : b g = v) :
        issue { u1 kind a.val o.toNat with sr := [a.val] } (branchEff o b) s =
          .next (done s k g (if v then { past g 1 with pc := target g o.toInt } else past g 1) 1 1) := by
      subst h
      exact branch_done (sr := [a.val]) (x := false) r c pend (fun h => nomatch h) rfl
    simp only [List.forall_mem_cons, List.not_mem_nil, false_imp_iff, implies_true, and_true]
    refine ⟨fun o => cond rfl, fun o => cond rfl, fun o => cond ?_, fun o => cond ?_⟩
    · exact BitVec.msb_eq_toInt
    · rw [BitVec.msb_eq_toInt, ← decide_not]
      exact decide_eq_decide.mpr (by omega)
  · refine branch_done (sr := [a.val]) (x := false) r c pend (fun h => nomatch h) ?_
    simp only [jmpiEff, if_neg (not_not.mpr ht)]
  · exact calli_pushes r hi c hl pend hw h16 ht

/-! ### Divergence (R116, R121) -/

/-- Within the limit of R93 a push adds its entry, or has room made on a full resident stack first. -/
theorem pushRec_eq {u : Uop} {s : State} {k : Nat} {g g1 : Group} {e : RecEnt} (hl : g.recs.length + g.recSp < 4096) :
    pushRec u s k g g1 e =
      if 32 ≤ g.recs.length then .waitSt (s.startStack k g g.recSp false 2) else .grp { g1 with recs := g.recs ++ [e] } :=
  if_neg (by omega)

section
variable {s : State} {k : Nat} {g : Group} (r : Ready s k g) (c : Clear s g)
include r c

/-- A branch of major 2 without a push. -/
theorem vbranch_done {p : PReg} {neg : Bool} {kind : Nat} {o : BitVec 20} {eff : Effect} {h : Group}
    (pend : dstMeet [.p p.val] g.pending = false) (he : eff s k allOnes g (past g 1) = .grp h) :
    issue (u2 p neg kind o) eff s = .next (done s k g h 2 1) :=
  diverge_done (pr := [p.val]) (x := false) r c pend (fun h => nomatch h) he

theorem vsync_issues (hi : g.inH = false) :
    let u : Uop := { u0 8 0 0 0 with fp := true, hnd := true }
    exec .vsync s = .next (applyEff u k g s (vsyncEff u s k allOnes g (past g 1))) :=
  point_issues (y := false) r c fun _ => hi

end

theorem divergenceResults : DivergenceResults := by
  intro s k g r c p neg o pend t f go d j
  refine ⟨vbranch_done r c pend rfl, vbranch_done r c pend rfl, fun hi room hl => ?vbr, fun hi h32 hl => ?vjoin,
    fun hi h32 hl => ⟨fun ht hf => ?vbrSpills, ?vjoinSpills⟩, fun hi hr hs => ?vsyncFills, fun l e hr hi => ?vsync⟩
  case vbr =>
    refine diverge_done (pr := [p.val]) r c pend (fun _ => hi) ?_
    have ht : takenMask g p neg = t := rfl
    have hf : g.exm &&& ~~~ t = f := rfl
    simp only [vbrEff, ht, hf]
    split_ifs with h0 h1
    · rfl
    · rfl
    · exact (pushRec_eq hl).trans (if_neg (by have := (room.resolve_left h0).resolve_left h1; omega))
  case vjoin => exact diverge_done (pr := []) r c rfl (fun _ => hi) ((pushRec_eq hl).trans (if_neg (by omega)))
  case vbrSpills =>
    have he (u : Uop) : vbrEff u p neg o s k allOnes g (past g 1) = .waitSt (s.startStack k g g.recSp false 2) :=
      (if_neg ht).trans ((if_neg hf).trans ((pushRec_eq hl).trans (if_pos h32)))
    refine (diverge_issues (pr := [p.val]) r c pend fun _ => hi).trans ?_
    rw [he]
    rfl
  case vjoinSpills =>
    have he (u : Uop) : vjoinEff u o s k allOnes g (past g 1) = .waitSt (s.startStack k g g.recSp false 2) :=
      (pushRec_eq hl).trans (if_pos h32)
    refine (diverge_issues (pr := []) r c rfl fun _ => hi).trans ?_
    rw [he]
    rfl
  case vsyncFills =>
    have he (u : Uop) : vsyncEff u s k allOnes g (past g 1) = .waitSt (s.startStack k g (g.recSp - 1) true 2) := by
      simp [vsyncEff, hr, hs]
    rw [vsync_issues r c hi, he]
    rfl
  case vsync =>
    have he (u : Uop) : vsyncEff u s k allOnes g (past g 1) =
        .grp { past g 1 with recs := l, exm := e.exm, fmt := e.fmt, pc := if e.kindD then e.pc else e.pc + 4 } := by
      simp [vsyncEff, hr]
    rw [vsync_issues r c hi, he]
    exact congrArg _ (applyEff_grp_scalar (Nat.zero_le 8) rfl rfl rfl)

/-- Settles O38. -/
theorem branchesAndDivergence : Obligations.BranchesAndDivergence := ⟨branchResults, divergenceResults⟩

/-! ### Control (R111, R115, R117, R118) -/

theorem sleepEff_eq (s : State) (k : Nat) (m : DWord) (a : SReg) (g : Group) : sleepEff a s k m g (past g 1) =
    .grp (if g.readS a.val = 0 then past g 1
      else { past g 1 with park := 7, parkArg := [g.readS a.val], parkTns := s.dev.tns }) := by
  simp only [sleepEff]
  split_ifs <;> rfl

/-- Settles O2. -/
theorem controlResults : Obligations.ControlResults := by
  intro s k g r
  have q := quiet_nil g
  refine ⟨control_done (sr := []) (x := false) r q (fun h => nomatch h) rfl, fun i => ⟨?setfmt, ?setmode⟩, fun hi => ⟨?yield,
    fun a qa => ⟨?sleep, ?qrst⟩, fun m h0 h1 => ?winb, fun n d hd => ?qcfg⟩⟩
  case setfmt => exact control_done (sr := []) (x := false) r q (fun h => nomatch h) rfl
  case setmode => exact control_done (sr := []) (x := false) r q (fun h => nomatch h) rfl
  case yield => exact control_done (sr := []) r q (fun _ => hi) rfl
  case sleep => exact control_done (sr := [a.val]) r qa (fun _ => hi) (sleepEff_eq s k _ a g)
  case qrst => exact control_done (sr := [a.val]) (y := false) r qa (fun _ => hi) rfl
  case winb => exact control_done (sr := []) (y := false) r q (fun _ => hi) (if_pos (wbOk_of_le h0 h1))
  case qcfg => exact control_done (sr := []) (y := false) r q (fun _ => hi) (if_neg (by omega))

end Sys2Proof.Claims

/-! ## The queue checks (O24) -/

namespace Sys2Proof.Claims

open Sys2Proof.Machine

/-! ### The order of the checks (R97) -/

/-- The first number below 16 that passes a test. -/
theorem find?_range_eq_some {p : Nat → Bool} {n : Nat} :
    (List.range 16).find? p = some n ↔ n < 16 ∧ p n = true ∧ ∀ m < n, p m = false := by
  simp only [List.find?_range_eq_some, List.mem_range, Bool.not_eq_true']
  tauto

theorem find?_range_eq_none {p : Nat → Bool} : (List.range 16).find? p = none ↔ ∀ n < 16, p n = false := by
  simp

/-- The first of three searches that finds a number; the latter two are made only where a lane is active. -/
def firstFailure (act : Bool) (a b c : Option Nat) : Option (Nat × Nat) :=
  match a with
  | some n => some (3, n)
  | none => if act then (match b with
    | some n => some (0, n)
    | none => c.map (Prod.mk 1)) else none

theorem firstFailure_iff (act : Bool) (a b c : Option Nat) :
    (firstFailure act a b c = none ↔ a = none ∧ (act = true → b = none ∧ c = none)) ∧ ∀ n,
      (firstFailure act a b c = some (3, n) ↔ a = some n) ∧
      (firstFailure act a b c = some (0, n) ↔ a = none ∧ act = true ∧ b = some n) ∧
      (firstFailure act a b c = some (1, n) ↔ a = none ∧ act = true ∧ b = none ∧ c = some n) := by
  cases a with
  | some m => simp [firstFailure]
  | none =>
    cases act with
    | false => simp [firstFailure]
    | true => cases b <;> simp [firstFailure]

section
variable (g : Group) (src dst : List Nat) (peek : Bool)

/-- A queue that is named and not configured; one that is popped when empty; one that is pushed when full. -/
def unconfigured (n : Nat) : Bool := (src ++ dst).contains n && depthOf g n = 0
def underflows (n : Nat) : Bool := src.contains n && occOf g n = 0
def overflows (n : Nat) : Bool := dst.contains n && depthOf g n ≤ poppedOf g src peek n

theorem queueCheck_eq (act : Bool) : queueCheck g src dst peek act = firstFailure act ((List.range 16).find? (unconfigured g src dst))
    ((List.range 16).find? (underflows g src)) ((List.range 16).find? (overflows g src dst peek)) := by
  have h3 : (fun n => (src ++ dst).contains n && decide ((g.queues.getD n {}).depth = 0)) = unconfigured g src dst := rfl
  have h0 : (fun n => src.contains n && decide ((g.queues.getD n {}).ents.length = 0)) = underflows g src := rfl
  have h1 : (fun n => dst.contains n && decide ((g.queues.getD n {}).depth ≤ (g.queues.getD n {}).ents.length -
      if (src.contains n && !peek) = true then 1 else 0)) = overflows g src dst peek := by
    funext n
    simp [overflows, depthOf, occOf, poppedOf]
  unfold queueCheck
  simp only [h3, h0, h1]
  cases (List.range 16).find? (unconfigured g src dst) with
  | some n => rfl
  | none =>
    cases act with
    | false => rfl
    | true =>
      cases (List.range 16).find? (underflows g src) with
      | some n => rfl
      | none => cases (List.range 16).find? (overflows g src dst peek) <;> rfl

theorem queueCheck_order (act : Bool) :
    let bad3 (n : Nat) : Prop := n ∈ src ++ dst ∧ depthOf g n = 0
    let bad0 (n : Nat) : Prop := act = true ∧ n ∈ src ∧ occOf g n = 0
    let bad1 (n : Nat) : Prop := act = true ∧ n ∈ dst ∧ depthOf g n ≤ poppedOf g src peek n
    (queueCheck g src dst peek act = none ↔ ∀ n < 16, ¬ bad3 n ∧ ¬ bad0 n ∧ ¬ bad1 n) ∧
    ∀ n < 16,
      (queueCheck g src dst peek act = some (3, n) ↔ bad3 n ∧ ∀ m < n, ¬ bad3 m) ∧
      (queueCheck g src dst peek act = some (0, n) ↔ bad0 n ∧ (∀ m < 16, ¬ bad3 m) ∧ ∀ m < n, ¬ bad0 m) ∧
      (queueCheck g src dst peek act = some (1, n) ↔ bad1 n ∧ (∀ m < 16, ¬ bad3 m ∧ ¬ bad0 m) ∧ ∀ m < n, ¬ bad1 m) := by
  intro bad3 bad0 bad1
  have e3 (n : Nat) : unconfigured g src dst n = true ↔ bad3 n := by simp [unconfigured, bad3]
  have e0 (n : Nat) : bad0 n ↔ act = true ∧ underflows g src n = true := by simp [underflows, bad0]
  have e1 (n : Nat) : bad1 n ↔ act = true ∧ overflows g src dst peek n = true := by simp [overflows, bad1]
  obtain ⟨hn, hs⟩ := firstFailure_iff act ((List.range 16).find? (unconfigured g src dst))
    ((List.range 16).find? (underflows g src)) ((List.range 16).find? (overflows g src dst peek))
  simp only [queueCheck_eq, hn, hs, find?_range_eq_some, find?_range_eq_none, ← e3, e0, e1]
  grind

end

/-! ### Pops (R96, R97) -/

theorem nodup_eraseDups (l : List Nat) : l.eraseDups.Nodup := by
  induction h : l.length using Nat.strong_induction_on generalizing l with
  | _ n ih =>
    cases l with
    | nil => simp
    | cons a l =>
      rw [List.eraseDups_cons, List.nodup_cons, List.mem_eraseDups]
      have hl : (l.filter fun b => !b == a).length < n := by
        have := List.length_filter_le (fun b => !b == a) l
        simp only [List.length_cons] at h
        omega
      exact ⟨by simp, ih _ hl _ rfl⟩

/-- The entries of queue `n`, oldest first; a queue that the group has not holds none. -/
def entsOf (g : Group) (n : Nat) : List QEnt := (g.queues.getD n {}).ents

theorem entsOf_popQ (g : Group) (a n : Nat) : entsOf (g.popQ a) n = if n = a then (entsOf g n).drop 1 else entsOf g n := by
  simp only [entsOf, Group.popQ, List.getD_eq_getElem?_getD, List.getElem?_set]
  by_cases h : n = a
  · subst h
    by_cases hl : n < g.queues.length <;> simp [hl]
  · simp [h, Ne.symm h]

/-- Each queue of a list without repetitions is popped once. -/
theorem entsOf_popQs {l : List Nat} (hl : l.Nodup) (g : Group) (n : Nat) :
    entsOf (l.foldl Group.popQ g) n = if n ∈ l then (entsOf g n).drop 1 else entsOf g n := by
  induction l generalizing g with
  | nil => rfl
  | cons a l ih =>
    obtain ⟨ha, hl⟩ := List.nodup_cons.mp hl
    rw [List.foldl_cons, ih hl, entsOf_popQ]
    by_cases h : n = a
    · subst h
      simp [ha]
    · simp [h]

theorem entsOf_pastV (g : Group) (x : Pfx) (src : List VFld) (n : Nat) : entsOf (pastV g x src) n =
    if x.peek = true ∨ activeMask x g = 0 ∨ n ∉ queuesOf src then entsOf g n else (entsOf g n).drop 1 := by
  have h : entsOf (pastV g x src) n =
      entsOf (if x.peek || activeMask x g = 0 then g else (queuesOf src).eraseDups.foldl Group.popQ g) n := rfl
  rw [h]
  by_cases hp : x.peek = true ∨ activeMask x g = 0
  · rw [if_pos (by simpa using hp), if_pos (hp.imp_right .inl)]
  · rw [if_neg (by simpa using hp), entsOf_popQs (nodup_eraseDups _)]
    simp only [List.mem_eraseDups]
    by_cases hn : n ∈ queuesOf src
    · rw [if_pos hn, if_neg (by tauto)]
    · rw [if_neg hn, if_pos (by tauto)]

/-! ### The QUE trap (R97, R105) -/

section
variable {s : State} {k : Nat} {g : Group} {x : Pfx} {d a b : VFld} {c n : Nat}

/-- A group that can enter its handler enters it on a failed check; the check and the queue are in the numbers `mfs` reads. -/
theorem takeTrap_que (ce : CanEnter s g) (hc : c < 4) (hn : n < 16) : s.takeTrap k g (queTrap g (c, n)) = s.setGrp k
    { entered g s 3 (BitVec.ofNat 64 c) g.pc (BitVec.ofNat 64 n) g.pc with qtr := n, qwh := c } := by
  have h16 : n % 18446744073709551616 % 16 = n := by omega
  have h4 : c % 18446744073709551616 % 4 = c := by omega
  rw [takeTrap_enters ce]
  simp [Group.enterHandler, entered, queTrap, ce.wait, h16, h4]

variable (r : Ready s k g)
include r

/-- A unit with no outcome of its own before the checks traps where one fails. -/
theorem issue2_que {u : Uop} {eff str : Effect} (hf : u.faultPoint g = false) (rdy : u.ready g = true) (hh : u.hnd = false)
    (hp : u.priv = false) (he : (eff s k (u.active g) g (u.past g)).first = false)
    (fail : queueCheck g (queuesOf u.vr) (queuesOf u.vw) u.peek (u.active g ≠ 0) = some (c, n)) :
    issue2 u eff str s = .next (s.takeTrap k g (queTrap g (c, n))) := by
  have wt : (eff s k (u.active g) g (u.past g)).waits = false := by
    revert he
    cases eff s k (u.active g) g (u.past g) <;> simp [Eff.first, Eff.waits]
  rw [issue2_group r]
  simp only [issueGrp, r.can, r.res, hf, rdy, wt, hh, hp, fail, he, Bool.and_self, Bool.not_true, Bool.or_self, Bool.false_and,
    Bool.false_eq_true, if_false]
  cases g.takable <;> rfl

variable (q : Quiet g ([g.vReg a, g.vReg b] ++
    match x.x with | some y => if y.g then [.p y.pred.val] else [] | none => []) [g.vDst d])
  (heads : headsFilled g (queuesOf [a, b]) = true)
  (fail : queueCheck g (queuesOf [a, b]) (queuesOf [d]) x.peek (activeMask x g ≠ 0) = some (c, n))
include q heads fail

theorem vecUnit_traps {maj fn cls : Nat} (hm : 9 ≤ maj ∧ maj ≤ 15) {eff str : Effect}
    (he : ∀ m g1, (eff s k m g g1).first = false) :
    issue2 { uV maj fn cls x d.val a.val b.val with vr := [a, b], vw := [d] } eff str s =
      .next (s.takeTrap k g (queTrap g (c, n))) := by
  let u : Uop := { uV maj fn cls x d.val a.val b.val with vr := [a, b], vw := [d] }
  have q : Quiet g (u.reads g) (u.writes g) := q
  have ha : u.active g = activeMask x g := if_neg (by show ¬ maj ≤ 8; omega)
  have hold : (g.holding && ((decide (16 ≤ maj) && decide (maj ≤ 19)) || decide (maj = 21))) = false := by
    simp
    omega
  have rdy : u.ready g = true := by
    simp only [Uop.ready, q.pend, q.kept]
    exact heads.symm ▸ hold.symm ▸ rfl
  refine issue2_que (u := u) r (not_faultPoint rfl q.flt) rdy rfl rfl (he ..) ?_
  rw [ha]
  exact fail

variable (ce : CanEnter s g) (hc : c < 4) (hn : n < 16)
include ce hc hn

theorem lane2_traps (fn cls : Nat) (f : Word → Word → Word) : lane2 fn cls x d a b f s = .next (s.setGrp k
    { entered g s 3 (BitVec.ofNat 64 c) g.pc (BitVec.ofNat 64 n) g.pc with qtr := n, qwh := c }) :=
  (vecUnit_traps r q heads fail (maj := 9) (by decide) fun _ _ => rfl).trans (congrArg _ (takeTrap_que ce hc hn))

theorem fl2_traps {maj : Nat} (fn cls : Nat) (hm : 9 ≤ maj ∧ maj ≤ 15) (f : FMode → Nat → Nat → Nat → FRes) :
    fl2 maj fn cls x d a b f s = .next (s.setGrp k
      { entered g s 3 (BitVec.ofNat 64 c) g.pc (BitVec.ofNat 64 n) g.pc with qtr := n, qwh := c }) :=
  (vecUnit_traps r q heads fail hm fun _ _ => rfl).trans (congrArg _ (takeTrap_que ce hc hn))

end

/-- The two-source integer units are one family. -/
theorem vecTwo_family (x : Pfx) (d a b : VFld) (s : State) :
    ∀ e ∈ vecTwo, ∃ fn cls f, exec (e.1 x d a b) s = lane2 fn cls x d a b f s := by
  simp only [vecTwo, List.forall_mem_cons, List.not_mem_nil, false_imp_iff, implies_true, and_true]
  delta exec
  repeat' apply And.intro
  all_goals exact ⟨_, _, _, rfl⟩

/-- The two-source float units are one family. -/
theorem floatTwo_family (x : Pfx) (d a b : VFld) (s : State) :
    ∀ e ∈ floatTwo, ∃ maj fn cls f, (9 ≤ maj ∧ maj ≤ 15) ∧ exec (e.1 x d a b) s = fl2 maj fn cls x d a b f s := by
  simp only [floatTwo, List.forall_mem_cons, List.not_mem_nil, false_imp_iff, implies_true, and_true]
  delta exec
  repeat' apply And.intro
  all_goals refine ⟨_, _, _, _, ?_, rfl⟩
  all_goals decide

/-- Settles O24. -/
theorem queueRules : Obligations.QueueRules := by
  refine ⟨fun g src dst peek act => queueCheck_order g src dst peek act,
    fun x s k g d a b c n r ce hc hn q heads fail => ⟨fun e he => ?_, fun e he => ?_⟩, fun g x src n => entsOf_pastV g x src n⟩
  · obtain ⟨fn, cls, f, h⟩ := vecTwo_family x d a b s e he
    exact h.trans (lane2_traps r q heads fail ce hc hn fn cls f)
  · obtain ⟨maj, fn, cls, f, hm, h⟩ := floatTwo_family x d a b s e he
    exact h.trans (fl2_traps r q heads fail ce hc hn fn cls hm f)

end Sys2Proof.Claims

/-! ## Where a trap leaves its group (O26)

The statement asks for states whose contexts are listed by rising number, and does not say so: elsewhere a group that halts rewrites
its context's entry in another place of the list. What it says is proved of the states that have the form. -/

namespace Sys2Proof.Machine

/-- Putting what is there already changes nothing in a table in its canonical form. -/
theorem mapSet_same_of_rising {α : Type} {m : NMap α} {n : Nat} {v : α} (hm : Rising m) (h : mapGet? m n = some v) :
    mapSet m n v = m := by
  induction m with
  | nil => cases h
  | cons e r ih =>
    obtain ⟨k, w⟩ := e
    obtain ⟨hk, hr⟩ := List.pairwise_cons.mp hm
    simp only [mapGet?] at h
    simp only [mapSet]
    split at h
    · next e =>
      cases h
      subst e
      rw [if_neg (Nat.lt_irrefl k), if_pos rfl]
    · next e =>
      have hlt : k < n := hk n (List.mem_map_of_mem (Claims.mem_of_mapGet? h))
      rw [if_neg (by omega), if_neg (by omega), ih hr h]

variable {s : State} {k : Nat} {g : Group} {t : Trap}

/-- An entry that is no default is in the table of contexts. -/
theorem mapGet?_ctxs_of_stopped {n : Nat} (h : (s.ctx n).stop ≠ .running) : mapGet? s.ctxs n = some (s.ctx n) := by
  cases hc : mapGet? s.ctxs n with
  | some c => simp [State.ctx, mapGet, hc]
  | none => exact absurd (by simp [State.ctx, mapGet, hc]) h

theorem takeTrap_dieReached {n : Nat} {l : List Nat} {p : Bool} (hs : Rising s.ctxs) (hd : (s.ctx g.ctx).stop = .die n l true p)
    (hg : g.inDie = false) : s.takeTrap k g t = s.setGrp k { g with halted := true, bankWait := none } := by
  have same : s.setCtx g.ctx { s.ctx g.ctx with stop := .die n l true p } = s := by
    rw [← hd, State.setCtx, mapSet_same_of_rising hs (mapGet?_ctxs_of_stopped (by simp [hd]))]
  simp only [State.takeTrap, hd, hg, State.dieAtFaultPoint]
  exact congrArg (fun u : State => u.setGrp k { g with halted := true, bankWait := none }) same

/-- A trap of a group that is not parked. -/
theorem trapIn_of_awake (hp : g.park = 0) (hw : g.woken = false) (ha : g.parkArg = []) (he : g.exiting = false)
    (hf : g.flaWait = false) : s.trapIn k g t =
      if g.inH then s.contextFault k g { cause := 0x13, a := BitVec.ofNat 64 t.cause, pc := t.pc, i := t.i }
      else if g.handler = 0 then s.contextFault k g t
      else if (s.bankHolder g.core (partOfSlot g.slot)).isNone && (s.bankWaiters g.core (partOfSlot g.slot)).isEmpty then
        s.setGrp k (g.enterHandler t s.dev.tns s.nextId)
      else (s.setCore g.core { s.core g.core with bankSeq := (s.core g.core).bankSeq + 1 }).setGrp k
        { g with bankWait := some t, bankOrder := (s.core g.core).bankSeq } := by
  unfold State.trapIn
  extract_lets h
  have same : h = g := by
    cases g
    simp_all [h]
  clear_value h
  subst same
  rfl

/-! ### A context fault (R108) -/

theorem contextFault_running (run : (s.ctx g.ctx).stop = .running) : s.contextFault k g t =
    ((s.setGrp k { g with halted := true }).dropWork g.ctx).modCtx g.ctx fun c =>
      { c with stop := .faulted s.dev.tns t g.wgid g.slot false } := by
  simp only [State.contextFault, run]

/-- A second one halts the group and adds nothing. -/
theorem contextFault_stopped (h : (s.ctx g.ctx).stop ≠ .running) : s.contextFault k g t = s.setGrp k { g with halted := true } := by
  unfold State.contextFault
  split
  · next run => exact absurd run h
  · rfl

theorem rdByte_contextFault (a : Nat) : (s.contextFault k g t).rdByte a = s.rdByte a := by
  unfold State.contextFault
  split <;> rfl

theorem grp?_dropWork (n j : Nat) : (s.dropWork n).grp? j = (s.grp? j).map fun h => if h.ctx = n then { h with mxq := [] } else h :=
  mapGet?_mapAll s.groups (fun _ h => if h.ctx = n then { h with mxq := [] } else h) j

theorem grp?_contextFault_other {j : Nat} {h : Group} (hj : j ≠ k) (hc : h.ctx ≠ g.ctx) (hg : s.grp? j = some h) :
    (s.contextFault k g t).grp? j = some h := by
  have hset : (s.setGrp k { g with halted := true }).grp? j = some h := (State.grp?_setGrp_other s _ hj).trans hg
  by_cases run : (s.ctx g.ctx).stop = .running
  · rw [contextFault_running run]
    refine (grp?_dropWork g.ctx j).trans ?_
    simp [hset, hc]
  · rw [contextFault_stopped run, hset]

theorem grp?_contextFault_same (run : (s.ctx g.ctx).stop = .running) :
    (s.contextFault k g t).grp? k = some { g with halted := true, mxq := [] } := by
  rw [contextFault_running run]
  refine (grp?_dropWork g.ctx k).trans ?_
  simp

theorem ctx_contextFault (run : (s.ctx g.ctx).stop = .running) :
    ((s.contextFault k g t).ctx g.ctx).stop = .faulted s.dev.tns t g.wgid g.slot false := by
  rw [contextFault_running run, State.modCtx, State.ctx_setCtx]

end Sys2Proof.Machine

namespace Sys2Proof.Claims

open Sys2Proof.Machine

/-- What O26 says holds where the contexts are listed by rising number. -/
theorem trapOutcomes_of_rising (s : State) (k : Nat) (g : Group) (t : Trap) (hs : Rising s.ctxs) (hp : g.park = 0) (hw : g.woken = false)
    (ha : g.parkArg = []) (he : g.exiting = false) (hf : g.flaWait = false) :
    ((s.ctx g.ctx).stop = .running →
      (g.inH = true → s.takeTrap k g t =
        s.contextFault k g { cause := 0x13, a := BitVec.ofNat 64 t.cause, pc := t.pc, i := t.i }) ∧
      (g.inH = false → g.handler = 0 → s.takeTrap k g t = s.contextFault k g t) ∧
      (g.inH = false → g.handler ≠ 0 →
        (∃ j, s.bankHolder g.core (partOfSlot g.slot) = some j) ∨ s.bankWaiters g.core (partOfSlot g.slot) ≠ [] →
        (s.takeTrap k g t).grp? k = some { g with bankWait := some t, bankOrder := (s.core g.core).bankSeq } ∧
        (∀ a, (s.takeTrap k g t).rdByte a = s.rdByte a) ∧ ∀ i, i ≠ k → (s.takeTrap k g t).grp? i = s.grp? i)) ∧
    (∀ n f w l p, (s.ctx g.ctx).stop = .faulted n f w l p →
      s.takeTrap k g t = s.setGrp k { g with halted := true, bankWait := none }) ∧
    (∀ n l p, (s.ctx g.ctx).stop = .die n l true p → g.inDie = false →
      s.takeTrap k g t = s.setGrp k { g with halted := true, bankWait := none }) ∧
    let u := s.contextFault k g t
    (∀ a, u.rdByte a = s.rdByte a) ∧ (∀ j h, j ≠ k → h.ctx ≠ g.ctx → s.grp? j = some h → u.grp? j = some h) ∧
    ((s.ctx g.ctx).stop = .running → (u.ctx g.ctx).stop = .faulted s.dev.tns t g.wgid g.slot false ∧
      u.grp? k = some { g with halted := true, mxq := [] }) ∧
    ((s.ctx g.ctx).stop ≠ .running → u = s.setGrp k { g with halted := true }) := by
  refine ⟨fun run => ?_, fun n f w l p hd => by simp only [State.takeTrap, hd], fun n l p => takeTrap_dieReached hs,
    fun a => rdByte_contextFault a, fun j h => grp?_contextFault_other, fun run => ⟨ctx_contextFault run, grp?_contextFault_same run⟩,
    contextFault_stopped⟩
  simp only [State.takeTrap, run, trapIn_of_awake hp hw ha he hf]
  refine ⟨fun hi => by rw [if_pos hi], fun hi hh => by rw [if_neg (by simp [hi]), if_pos hh], fun hi hh busy => ?_⟩
  have held : ¬ ((s.bankHolder g.core (partOfSlot g.slot)).isNone && (s.bankWaiters g.core (partOfSlot g.slot)).isEmpty) = true := by
    rcases busy with ⟨j, hj⟩ | hne
    · simp [hj]
    · simp [hne]
  rw [if_neg (by simp [hi]), if_neg hh, if_neg held]
  exact ⟨State.grp?_setGrp _ _ _, fun _ => rfl, fun i hik => State.grp?_setGrp_other _ _ hik⟩

/-- Refutes O26: of two contexts listed against their numbers, the one whose DIE trap has been entered is put once more, in its place,
as its group halts. -/
theorem not_trapOutcomes : ¬ Obligations.TrapOutcomes := by
  intro h
  obtain ⟨-, -, die, -⟩ := h { State.reset with ctxs := [(1, {}), (0, { stop := .die 0 [] true false })] } 0 {} { cause := 1 }
    rfl rfl rfl rfl rfl
  have same := die 0 [] false rfl rfl
  exact absurd (congrArg (fun u : State => u.ctxs.length) same) (by decide)

end Sys2Proof.Claims

/-! ## The power and clock controller (O17) -/

namespace Sys2Proof.Claims

open Sys2Proof.Machine

section
variable {s : State} {c : Nat} (hc : c < 256)
include hc

/-! ### Filler (R411) -/

theorem powerEstimate_fills (sh : s.dev.shape = true) (time : ((s.settleCore c).core c).filler = true →
      (s.settleCore c).dev.tns < ((s.settleCore c).core c).fillTns + 8000) :
    let u := s.settleCore c
    let v := u.core c
    exec (.powerEstimate c true) s = .next (((u.setCore c
      { v with units := (([] : NMap Nat) :: v.units).take 10, filler := true, fillerCtx := if v.filler then v.fillerCtx else v.tenant,
               fillTns := if v.filler then v.fillTns else u.dev.tns }).fill c).noteIdle (clusterOfCore c)) := by
  have running : (((s.settleCore c).core c).filler &&
      decide (((s.settleCore c).core c).fillTns + 8000 ≤ (s.settleCore c).dev.tns)) = false := by
    cases hf : ((s.settleCore c).core c).filler with
    | false => rfl
    | true =>
      have := time hf
      simp only [Bool.true_and, decide_eq_false_iff_not]
      omega
  show execPowerEstimate c true s = _
  simp only [execPowerEstimate, if_neg (Nat.not_le.mpr hc), sh, running, Bool.and_self, Bool.not_false, if_true]

theorem powerEstimate_ends {b : Bool} (h : b = false ∨ (((s.settleCore c).core c).filler = true ∧
      ((s.settleCore c).core c).fillTns + 8000 ≤ (s.settleCore c).dev.tns)) :
    let u := s.settleCore c
    let v := u.core c
    exec (.powerEstimate c b) s = .next ((u.setCore c
      { v with units := (([] : NMap Nat) :: v.units).take 10, filler := false, fill2 := 0, fill3 := 0 }).noteIdle (clusterOfCore c)) := by
  have stop : (s.dev.shape && b && !(((s.settleCore c).core c).filler &&
      decide (((s.settleCore c).core c).fillTns + 8000 ≤ (s.settleCore c).dev.tns))) = false := by
    rcases h with rfl | ⟨hf, ht⟩
    · simp
    · simp [hf, ht]
  show execPowerEstimate c b s = _
  simp only [execPowerEstimate, if_neg (Nat.not_le.mpr hc), stop, Bool.false_eq_true, if_false]

/-! ### Low-voltage mode (R413) -/

omit hc in
theorem lvAsks_enter : let b := ((s.settleCore c).core c).boundOf (s.dev.now5 / 200000) s.dev.lvwin
    s.lvAsks c true = true ↔ b.2 ≠ 0 ∧ s.dev.lvthr * b.2 ≤ 100 * b.1 := by
  simp [State.lvAsks]

omit hc in
theorem lvAsks_leave : let b := ((s.settleCore c).core c).boundOf (s.dev.now5 / 200000) s.dev.lvwin
    s.lvAsks c false = true ↔ b.2 ≠ 0 ∧ 100 * b.1 < s.dev.lvext * b.2 := by
  simp [State.lvAsks]

theorem lvEnter_enters (en : s.dev.lven = true) (lv : (s.core c).lv = false) (asks : s.lvAsks c true = true) :
    exec (.lvEnter c) s = .next ((s.lvIn c).lvWish c true) := by
  show execLvEnter c s = _
  have hc : decide (256 ≤ c) = false := decide_eq_false (Nat.not_le.mpr hc)
  simp [execLvEnter, hc, en, lv, asks]

omit hc in
theorem lvEnter_stays (asks : s.lvAsks c true = false) : exec (.lvEnter c) s = .next s := by
  show execLvEnter c s = _
  simp [execLvEnter, asks]

theorem lvExit_leaves (h : (s.groups.any fun kv => kv.2.core = c && kv.2.urgent) = true ∨ s.lvAsks c false = true)
    (lv : (s.core c).lv = true) (at_low : (s.core c).lvTarget = true) (cap : (s.core c).lvCap = false) :
    exec (.lvExit c) s = .next ((s.lvOut c).lvWish c false) := by
  have hu : ((s.groups.any fun kv => kv.2.core = c && kv.2.urgent) || s.lvAsks c false) = true := by
    rw [Bool.or_eq_true]
    exact h
  have hc : decide (256 ≤ c) = false := decide_eq_false (Nat.not_le.mpr hc)
  show execLvExit c s = _
  simp only [execLvExit, hc, lv, at_low, cap, hu]
  rfl

omit hc in
theorem lvExit_stays (calm : (s.groups.any fun kv => kv.2.core = c && kv.2.urgent) = false) (asks : s.lvAsks c false = false) :
    exec (.lvExit c) s = .next s := by
  show execLvExit c s = _
  simp only [execLvExit, calm, asks, Bool.or_self, Bool.not_false, Bool.or_true, if_true]

omit hc in
theorem lvTransitionDone_ends (trn : (s.core c).trn = true) :
    exec (.lvTransitionDone c) s = .next (((s.atLeast ((s.core c).lvTns + 2000)).settleCore c).modCore c fun x =>
      { x with trn := false, lv := x.lvTarget }) := by
  show execLvTransitionDone c s = _
  simp only [execLvTransitionDone, trn]
  rfl

end

/-! ### The package's power (R414) -/

/-- Between 95% of the cap and the cap no cluster is taken or released. -/
theorem powerCapStep_samples {s : State} {p d m q : Nat} (hp : p < 65536) (hd : d < 65536) (hm : m < 65536) (hq : q < 65536)
    (cap : p ≤ s.dev.pcap) (near : s.dev.pcap * 95 < p * 100) :
    let t := s.atLeast (s.dev.lastTime + 1000000)
    exec (.powerCapStep p d m q) s = .next (t.modDev fun x =>
      { x with pwrpt := [p, d, m, q], penrg := (x.penrg + p) % 2 ^ 64, lastTime := t.dev.tns }) := by
  show execPowerCapStep p d m q s = _
  simp only [execPowerCapStep, Nat.mod_eq_of_lt hp, Nat.mod_eq_of_lt hd, Nat.mod_eq_of_lt hm, Nat.mod_eq_of_lt hq,
    if_neg (Nat.not_lt.mpr cap), if_neg (Nat.not_le.mpr near)]

/-- Settles O17. -/
theorem powerEvents : Obligations.PowerEvents := by
  intro s c hc u v aged
  refine ⟨powerEstimate_fills hc, fun b => powerEstimate_ends hc, ⟨fun en lv hb hl => ?_, fun h => ?_, fun h calm => ?_⟩,
    fun h => lvExit_leaves hc h, lvTransitionDone_ends, fun p d m q => powerCapStep_samples⟩
  · exact lvEnter_enters hc en lv (lvAsks_enter.mpr ⟨hb, hl⟩)
  · refine lvEnter_stays (Bool.eq_false_iff.mpr fun asks => ?_)
    obtain ⟨hb, hl⟩ := lvAsks_enter.mp asks
    exact h.elim hb (Nat.not_lt.mpr hl)
  · refine lvExit_stays calm (Bool.eq_false_iff.mpr fun asks => ?_)
    obtain ⟨hb, hl⟩ := lvAsks_leave.mp asks
    exact h.elim hb (Nat.not_le.mpr hl)

end Sys2Proof.Claims

/-! ## What reset leaves (O36) -/

namespace Sys2Proof.Claims

open Sys2Proof.Machine

/-- A device that has just been reset holds no reset, so that its first step ends the empty cycle it is in. -/
theorem step_reset : step State.reset = .next State.reset.turnOver := by
  rfl

/-- Settles O36: the tables are empty, so that every entry is its table's default. -/
theorem resetLeaves : Obligations.ResetLeaves := by
  refine ⟨rfl, List.Pairwise.nil, ⟨rfl, rfl, rfl⟩, rfl, fun _ => rfl, rfl, rfl, rfl, rfl, rfl, rfl, rfl, rfl, rfl, rfl, rfl,
    fun c => ?_, ?_⟩
  · exact ⟨rfl, rfl, rfl, rfl, rfl, rfl, rfl, rfl, rfl, rfl, rfl, rfl, rfl, rfl, rfl, rfl, rfl, rfl, rfl, fun _ => rfl⟩
  · rw [step_reset]
    exact fun h => nomatch h

end Sys2Proof.Claims

/-! ## Events of the sequencer and the spill engine (O48) -/

namespace Sys2Proof.Claims

open Sys2Proof.Machine

/-! ### The ruling class, yield and sleep (R86, R88, R111) -/

section
variable {s : State} {k : Nat} {g : Group} (hg : s.grp? k = some g)
include hg

theorem classWaitRaise_raises (may : s.mayIssue g = true) (wait : (s.core g.core).clsw ≤ g.firstN) :
    exec (.classWaitRaise k) s = .next (s.raiseClass g.core (s.candClass g)) := by
  have hw : s.waitedClsw g = true := decide_eq_true wait
  show execClassWaitRaise k s = _
  simp only [execClassWaitRaise, hg, may, hw, Bool.and_self, if_true]

theorem urgentCandidate_raises (may : s.mayIssue g = true) (streak : 16 ≤ g.streak) : exec (.urgentCandidate k) s =
    .next (((s.setGrp k { g with urgent := true }).raiseClass g.core (s.candClass g)).leaveLv g.core) := by
  have hu : g.isUrgent = true := decide_eq_true streak
  show execUrgentCandidate k s = _
  simp only [execUrgentCandidate, hg, may, hu, Bool.and_self, if_true]

theorem sleepWake_eq (park : g.park = 7) (woken : g.woken = false) (halted : g.halted = false) : exec (.sleepWake k) s = .next
    (if s.residentGrp g then (s.atLeast g.wakeTns).setGrp k { g with park := 0, parkArg := [] }
     else ((s.atLeast g.wakeTns).setGrp k { g with woken := true }).pushWoken k) := by
  have asleep : (decide (g.park ≠ 7) || g.woken || g.halted) = false := by simp [park, woken, halted]
  show execSleepWake k s = _
  simp only [execSleepWake, hg, asleep, Bool.false_eq_true, if_false]

end

theorem sequencerEvents : SequencerEvents := by
  intro s c k
  refine ⟨fun hold => ?_, rfl, fun g hg => ⟨fun may => ⟨classWaitRaise_raises hg may, urgentCandidate_raises hg may⟩,
    fun park woken halted => ⟨fun res => ?_, fun res => ?_⟩⟩⟩
  · show execRulingClassHoldEnd c s = _
    simp only [execRulingClassHoldEnd, State.modCore, Core.decay, if_pos hold]
  · rw [sleepWake_eq hg park woken halted, if_pos res]
    rfl
  · rw [sleepWake_eq hg park woken halted, if_neg (by simp [res])]
    rfl

/-! ### Results written back (R96) -/

theorem resultsAreWrittenBack : ResultsAreWrittenBack := by
  intro s k g hg
  refine ⟨fun h hq => ?_, fun o hq ho => ?_⟩
  · show execResultWriteBack k s = _
    simp only [execResultWriteBack, hg, hq]
  · show execResultWriteBack k s = _
    simp only [execResultWriteBack, hg, hq, ho]

/-! ### The spill engine (R92 to R94) -/

/-- The lines of a transfer are free (R306). -/
def linesFree (s : State) (ps : List Place) : Bool := ps.all fun p => match p with | .da a => s.storeRoom (a / 128) | _ => true

/-- What the engine of a group makes of the places of its next position or entry. -/
def spillOutcome (s : State) (k : Nat) (g : Group) : XR → State
  | .fault _ _ _ => s.takeTrap k g { cause := 0x0E, a := BitVec.ofNat 64 (s.privBase g + (spillSpan g.spb g.spc.stk g.spc.pos).1),
                                     pc := g.upc, i := g.spc.bits, resume := g.pc }
  | .miss ob sub va => (s.openService g.ctx ob sub 1 (!g.spc.dir) g.core va).setGrp k
      { g with spc := { g.spc with park := some (ob, sub) } }
  | .hold ob sub _ => s.setGrp k { g with spc := { g.spc with park := some (ob, sub) } }
  | .ok ps =>
    if !linesFree s ps || !s.waysFree g.die (linesIn ps) then s
    else if !g.spc.dir then ((s.spillEnergy g true ps).storeLane g 0 ps g.spillBytes).setGrp k g.spilled.kick
    else (s.spillEnergy g false ps).setGrp k (g.filled (s.spanRead ps)).kick

theorem spillTransferDone_runs {s : State} {k : Nat} {g : Group} (hg : s.grp? k = some g) (act : g.spc.act = true)
    (hi : g.inH = false) (bank : g.bankWait = none) (halted : g.halted = false) (res : s.residentGrp g = true)
    (held : s.spillHeld g = false) (pend : g.spc.stk = 0 → g.pending.contains (.pos g.spc.pos) = false) :
    exec (.spillTransferDone k) s = .next (spillOutcome s k g (s.spillPlaces g (!g.spc.dir) g.spc.pos)) := by
  have hp : (decide (g.spc.stk = 0) && g.pending.contains (.pos g.spc.pos)) = false := by
    by_cases h0 : g.spc.stk = 0
    · rw [pend h0, Bool.and_false]
    · simp [h0]
  have runs : (!g.spc.act || g.inH || g.bankWait.isSome || g.halted || !s.residentGrp g || s.spillHeld g ||
      (decide (g.spc.stk = 0) && g.pending.contains (.pos g.spc.pos))) = false := by
    simp only [act, hi, bank, halted, res, held, hp]
    rfl
  show execSpillTransferDone k s = _
  simp only [execSpillTransferDone, hg, runs, Bool.false_eq_true, if_false]
  cases s.spillPlaces g (!g.spc.dir) g.spc.pos <;> rfl

/-- Where the lines are free and the die cache has ways for them, the position or entry is transferred. -/
theorem spillOutcome_ok {s : State} {k : Nat} {g : Group} {ps : List Place} (free : linesFree s ps = true)
    (ways : s.waysFree g.die (linesIn ps) = true) : spillOutcome s k g (.ok ps) =
      if g.spc.dir then (s.spillEnergy g false ps).setGrp k (g.filled (s.spanRead ps)).kick
      else ((s.spillEnergy g true ps).storeLane g 0 ps g.spillBytes).setGrp k g.spilled.kick := by
  simp only [spillOutcome, free, ways]
  cases g.spc.dir <;> rfl

theorem spillTransfers : SpillTransfers := by
  intro s k g hg act hi bank halted res held pend
  rw [spillTransferDone_runs hg act hi bank halted res held pend]
  refine ⟨fun ps hps free ways => ?_, fun c a i hf ce => ?_, fun ob sub va hh => by rw [hh]; rfl⟩
  · rw [hps, spillOutcome_ok free ways]
    exact ⟨fun hd => by rw [hd]; rfl, fun hd => by rw [hd]; rfl⟩
  · rw [hf]
    exact congrArg _ (takeTrap_entered ce (show 0x0E ≠ 3 by decide) rfl (show 0x0E < 256 by decide))

/-- Settles O48. -/
theorem sequencerAndSpillEvents : Obligations.SequencerAndSpillEvents := ⟨sequencerEvents, resultsAreWrittenBack, spillTransfers⟩

end Sys2Proof.Claims

/-! ## Timelines, barriers, semaphores and tokens (O44) -/

namespace Sys2Proof.Claims

open Sys2Proof.Machine

/-! ### Units of major 25 without vector operands -/

section
variable {s t : State} {k : Nat} {g : Group} {eff str : Effect} {fn d a b : Nat} {sr sw pw : List Nat} {x : Bool}

/-- What such a unit occupies; `balloc` and `semw` come in an order of their own in a cycle (R278). -/
theorem syncUnit_issuedAs (hf : fn < 64) : ({ u25 fn d a b with sr := sr, sw := sw, pw := pw, fp := x } : Uop).issuedAs g =
    { pipe := 4, cls := 1, balloc := fn = 0, semw := fn = 7 } := by
  have hb : (u25 fn d a b).base.toNat % 64 = fn := wordA_fn 25 d a b fn hf
  have hp : pipeOf 25 fn = 4 := pipeOf_fn fn (by decide) (by decide)
  simp only [Uop.issuedAs, hb]
  simp [u25, hp, Uop.cost, Pfx.none, Pfx.xa, Pfx.xb]
  exact congrArg g.physReads (ite_self _)

/-- All but `balloc` and `semw` are done as the statements say. -/
theorem paid_eq_finished (hf0 : fn ≠ 0) (hf7 : fn ≠ 7) :
    t.paid g { pipe := 4, cls := 1, balloc := fn = 0, semw := fn = 7 } = finished t g 25 := by
  rw [decide_eq_false hf0, decide_eq_false hf7]
  rfl

variable (r : Ready s k g) (hi : g.inH = false)
include r hi

/-- It takes its effect where its registers are at rest and, if it is a fault point, nothing is to be taken there. -/
theorem syncUnit_done (hf : fn < 64) (pend : dstMeet (sr.map g.sDst ++ (sw.map g.sDst ++ pw.map Dst.p)) g.pending = false)
    (kept : dstMeet (sw.map g.sDst ++ pw.map Dst.p) g.kept = false)
    (fp : ({ u25 fn d a b with sr := sr, sw := sw, pw := pw, fp := x } : Uop).faultPoint g = true → Clear s g)
    (he : eff s k (activeMask Pfx.none g) g (past g 1) = .st t ∨
      ∃ h, eff s k (activeMask Pfx.none g) g (past g 1) = .grp h ∧ t = s.setGrp k h) :
    issue2 { u25 fn d a b with sr := sr, sw := sw, pw := pw, fp := x } eff str s =
      .next (t.paid g { pipe := 4, cls := 1, balloc := fn = 0, semw := fn = 7 }) := by
  let u : Uop := { u25 fn d a b with sr := sr, sw := sw, pw := pw, fp := x }
  have hr : u.reads g = sr.map g.sDst := by simp [Uop.reads, u, u25, Pfx.none]
  have issues : issue2 u eff str s = .next (applyEff u k g s (eff s k (activeMask Pfx.none g) g (past g 1))) :=
    issue2_own r u hr rfl pend kept fp (by decide : 22 ≤ 25) (fun _ => hi) (fun h => nomatch h) rfl rfl rfl
  have paid : applyEff u k g s (eff s k (activeMask Pfx.none g) g (past g 1)) = t.paid g (u.issuedAs g) := by
    rcases he with he | ⟨h, he, rfl⟩ <;> rw [he] <;> rfl
  exact issues.trans (congrArg _ (paid.trans (congrArg (t.paid g) (syncUnit_issuedAs hf))))

theorem syncUnit_quiet (hf : fn < 64) (q : Quiet g (sr.map g.sDst) (sw.map g.sDst ++ pw.map Dst.p))
    (he : eff s k (activeMask Pfx.none g) g (past g 1) = .st t ∨
      ∃ h, eff s k (activeMask Pfx.none g) g (past g 1) = .grp h ∧ t = s.setGrp k h) :
    issue2 { u25 fn d a b with sr := sr, sw := sw, pw := pw } eff str s =
      .next (t.paid g { pipe := 4, cls := 1, balloc := fn = 0, semw := fn = 7 }) :=
  syncUnit_done (x := false) r hi hf q.pend q.kept
    (faultPoint_quiet rfl (rd := sr.map g.sDst) (by simp [Uop.reads, u25, Pfx.none]) rfl q) he

theorem syncUnit_clear (c : Clear s g) (hf : fn < 64) (pend : dstMeet (sr.map g.sDst) g.pending = false)
    (he : eff s k (activeMask Pfx.none g) g (past g 1) = .st t) :
    issue2 { u25 fn d a b with sr := sr, fp := x } eff str s =
      .next (t.paid g { pipe := 4, cls := 1, balloc := fn = 0, semw := fn = 7 }) :=
  syncUnit_done (sw := []) (pw := []) r hi hf (by simpa using pend) rfl (fun _ => c) (.inl he)

/-- A unit that waits goes on where its wait is satisfied, and parks its group at it elsewhere (R260). -/
theorem waitUnit_done (c : Clear s g) (hf : fn < 64) (hf0 : fn ≠ 0) (hf7 : fn ≠ 7) {park : Nat} {arg : Group → List DWord}
    {pre : State → Nat → Group → Option Eff} (pend : dstMeet (sr.map g.sDst) g.pending = false) (hp : pre s k g = none) :
    (s.waitMet { g with park := park, parkArg := arg g } = true → waitUnit { u25 fn d a b with sr := sr } park arg pre s =
      .next (finished (s.endWait k { g with park := park, parkArg := arg g }) g 25)) ∧
    (s.waitMet { g with park := park, parkArg := arg g } = false → waitUnit { u25 fn d a b with sr := sr } park arg pre s =
      .next (finished (s.setGrp k { g with park := park, parkArg := arg g, parkTns := s.dev.tns }) g 25)) := by
  refine ⟨fun met => ?_, fun unmet => ?_⟩ <;> rw [← paid_eq_finished hf0 hf7]
  all_goals
    refine syncUnit_clear (x := true) r hi c hf pend ?_
    simp only [hp]
  · exact if_pos met
  · exact if_neg (Bool.eq_false_iff.mp unmet)

end

/-! ### Timelines and tokens (R258, R263, R264) -/

theorem timelineUnits : TimelineUnits := by
  intro s k g r c hi d a b pend kept sel
  have pend' {l : List Dst} (h : l ⊆ [g.sDst a.val, g.sDst b.val, g.sDst d.val]) : dstMeet l g.pending = false := dstMeet_mono h pend
  refine ⟨fun ok => ⟨?tlrd, ?tlwait⟩, fun m n => ?waitk⟩
  case tlrd =>
    refine syncUnit_done (fn := 8) (sr := [a.val]) (sw := [d.val]) (pw := []) (x := false) r hi (by decide) (pend' (by simp)) kept
      (fun _ => c) (.inl ?_)
    exact if_neg (by simp [sel] at ok ⊢; exact ok)
  case tlwait =>
    exact waitUnit_done (fn := 9) (sr := [a.val, b.val]) (park := 4) (arg := fun g => [g.readS a.val, g.readS b.val]) r hi c (by decide)
      (by decide) (by decide) (pend' (by simp)) (if_pos ok)
  case waitk =>
    exact waitUnit_done (fn := 10) (sr := []) (park := 5) (arg := fun _ => [BitVec.ofNat 64 (m.val * 16 + n.val)])
      (pre := fun _ _ _ => none) r hi c (by decide) (by decide) (by decide) rfl rfl

/-! ### The built-in barrier (R265, R266) -/

/-- A release of WGP scope that nothing holds back. -/
theorem accOpen_of_released {g : Group} (h : Released g) : g.accOpen = false := by
  simp only [Group.accOpen, List.any_eq_false, Bool.and_eq_true, Bool.not_eq_true', not_and, Bool.not_eq_true]
  exact fun o ho hp => (h o ho).resolve_left (by simp [hp])

theorem barrierArrival : BarrierArrival := by
  intro s k g r c hi rel
  have ha := accOpen_of_released rel
  refine ⟨?_, fun mx copies => ?_⟩
  · refine syncUnit_clear (fn := 5) (sr := []) (x := true) r hi c (by decide) rfl ?_
    simp [ha]
  · refine syncUnit_clear (fn := 5) (sr := []) (x := true) r hi c (by decide) rfl ?_
    simp [ha, mx, copies]

/-! ### Transaction barriers (R267 to R272) -/

section
variable {s t : State} {k : Nat} {g : Group} {w : Workgroup} (r : Ready s k g) (hi : g.inH = false) (of : Of s g w)
include r hi of

/-- A unit that names a held barrier. -/
theorem barUnit_done {fn d b : Nat} {a : SReg} {sr sw : List Nat} {f : State → Nat → Group → Group → Workgroup → TxBar → Eff}
    {e : TxBar} (hf : fn < 64) (hf0 : fn ≠ 0) (hf7 : fn ≠ 7) (h64 : (g.readS a.val).toNat < 64)
    (hb : w.bar? (g.readS a.val).toNat = some e) (q : Quiet g (sr.map g.sDst) (sw.map g.sDst))
    (he : f s k g (past g 1) w e = .st t) : barUnit { u25 fn d a.val b with sr := sr, sw := sw } a f s = .next (finished t g 25) := by
  have of : s.wg? g.wg = some w := of
  rw [← paid_eq_finished hf0 hf7]
  refine syncUnit_quiet (pw := []) r hi hf (by simpa using q) (.inl ?_)
  simp only [of, if_pos h64, hb]
  exact he

end

theorem transactionBarrierUnits : TransactionBarrierUnits := by
  intro s k g w r hi of
  refine ⟨?balloc, fun a b d t h64 ht => ⟨fun q => ⟨fun refs => ?bfree, fun refs => ?bfreeLast⟩, fun q pend => ?barv,
    fun q => ⟨?barx, fun c => ?barw⟩⟩⟩
  case balloc =>
    intro d p b v q h16 h0 h1
    have of : s.wg? g.wg = some w := of
    have legal : ¬ (2 ^ 16 ≤ v ∨ v % 256 = 0 ∨ v / 256 = 0) := by omega
    refine ⟨fun full => ?_, fun room free => ?_⟩
    · refine syncUnit_quiet (fn := 0) (sr := [b.val]) (sw := [d.val]) (pw := [p.val]) r hi (by decide) q (.inr ⟨_, ?_, rfl⟩)
      simp only [of, v, if_neg legal]
      exact if_pos full
    · refine syncUnit_quiet (fn := 0) (sr := [b.val]) (sw := [d.val]) (pw := [p.val]) r hi (by decide) q (.inl ?_)
      simp only [of, v, if_neg legal]
      exact if_neg (by omega)
  case bfree =>
    refine barUnit_done (fn := 1) (sr := [a.val]) (sw := []) r hi of (by decide) (by decide) (by decide) h64 ht q ?_
    exact if_neg (by omega)
  case bfreeLast =>
    refine barUnit_done (fn := 1) (sr := [a.val]) (sw := []) r hi of (by decide) (by decide) (by decide) h64 ht q ?_
    exact if_pos refs
  case barv =>
    refine barUnit_done (fn := 2) (sr := [a.val]) (sw := [d.val]) r hi of (by decide) (by decide) (by decide) h64 ht q ?_
    exact if_neg pend
  case barx =>
    intro v lo below
    have ok : txOk v = true := by
      simp only [txOk, Bool.and_eq_true, decide_eq_true_eq]
      exact ⟨lo, below⟩
    refine barUnit_done (fn := 4) (sr := [a.val, b.val]) (sw := []) r hi of (by decide) (by decide) (by decide) h64 ht q ?_
    exact if_neg (by simp [v] at ok ⊢; exact ok)
  case barw =>
    refine waitUnit_done (fn := 3) (sr := [a.val, b.val]) (park := 2) (arg := fun g => [g.readS a.val, g.readS b.val]) r hi c (by decide)
      (by decide) (by decide) (by simpa using q.pend) ?_
    have of : s.wg? g.wg = some w := of
    simp only [of, ht]
    exact if_pos ⟨h64, rfl⟩

/-! ### Semaphores (R273, R274) -/

section
variable {s t : State} {k : Nat} {g : Group} {a b : SReg} (r : ReadyS s k g [g.sDst a.val, g.sDst b.val] []) (hi : g.inH = false)
  (named : s.nameSema g.wg ((g.readS a.val).toNat % 64) = some t)
include r hi named

/-- `sema.add` and `sema.set`, once the group's earlier accesses are performed. -/
theorem semaUnit_done (d : Nat) (f : Nat → Nat → Nat) (rel : Released g) : semaUnit (u25 6 d a.val b.val) a b f s =
    .next (finished ((t.setGrp k (past g 1)).semaSet g.wg ((g.readS a.val).toNat % 64)
      fun v => f v ((g.readS b.val).toNat % 2 ^ 32)) g 25) := by
  rw [← paid_eq_finished (fn := 6) (by decide) (by decide)]
  refine syncUnit_quiet (sr := [a.val, b.val]) (sw := []) (pw := []) r.now hi (by decide) r.quiet (.inl ?_)
  simp only [named, accOpen_of_released rel]
  rfl

/-- `semw` goes on where the semaphore has its value, and parks its group at it elsewhere. -/
theorem semw_done (c : Clear s g) :
    (t.waitMet { g with park := 6, parkArg := [g.readS a.val, g.readS b.val] } = true → exec (.semw a b) s =
      .next ((t.endWait k { g with park := 6, parkArg := [g.readS a.val, g.readS b.val] }).paid g semwIssue)) ∧
    (t.waitMet { g with park := 6, parkArg := [g.readS a.val, g.readS b.val] } = false → exec (.semw a b) s =
      .next ((t.setGrp k { g with park := 6, parkArg := [g.readS a.val, g.readS b.val], parkTns := s.dev.tns }).paid g semwIssue)) := by
  have pend : dstMeet ([a.val, b.val].map g.sDst) g.pending = false := by simpa using r.quiet.pend
  refine ⟨fun met => ?_, fun unmet => ?_⟩
  all_goals
    refine syncUnit_clear (fn := 7) (x := true) r.now hi c (by decide) pend ?_
    simp only [named]
  · exact if_pos met
  · exact if_neg (Bool.eq_false_iff.mp unmet)

end

theorem semaphoreUnits : SemaphoreUnits := by
  intro s t k g a b r hi n v named
  exact ⟨fun rel => ⟨semaUnit_done r hi named 0 (· + ·) rel, semaUnit_done r hi named 1 (fun _ v => v) rel⟩, semw_done r hi named⟩

/-- Settles O44. -/
theorem synchronizationUnits : Obligations.SynchronizationUnits :=
  ⟨timelineUnits, barrierArrival, transactionBarrierUnits, semaphoreUnits⟩

end Sys2Proof.Claims

/-! ## Scalar units (O37) -/

namespace Sys2Proof.Claims

open Sys2Proof.Machine

/-- A unit without an X word names no crossbar pattern and keeps its class (R43). -/
theorem cost_of_noX {u : Uop} (hx : u.pfx.x = none) : u.cost = u.cls := by
  simp [Uop.cost, Pfx.xa, Pfx.xb, hx]

section
variable {s : State} {k : Nat} {g : Group} (r : Ready s k g)
include r

/-- A unit of one word without vector operands, with its effect on its own group. -/
theorem scalarUnit_done {maj cls : Nat} {base : Word} {sr sw pr pw : List Nat} {str : Bool} {eff : Effect} {h : Group} (hm : maj ≤ 8)
    (q : Quiet g (sr.map g.sDst ++ pr.map Dst.p) (sw.map g.sDst ++ pw.map Dst.p)) (he : eff s k allOnes g (past g 1) = .grp h) :
    issue { maj := maj, cls := cls, base := base, sr := sr, sw := sw, pr := pr, pw := pw, str := str } eff s =
      .next (done s k g h maj cls) :=
  issue2_scalar r _ _ _ (by simp [Uop.reads, Pfx.none]) (by simp [Uop.writes]) q hm rfl (by simp) (by simp) rfl rfl rfl
    (cost_of_noPfx rfl) ((congrArg _ (past_scalar rfl rfl)).trans he)

variable {d a b : SReg}

theorem scalar3_done (q : Quiet g [g.sDst a.val, g.sDst b.val] [g.sDst d.val]) (fn cls : Nat) (f : DWord → DWord → DWord) :
    scalar3 fn cls d a b f s = .next (done s k g ((past g 1).writeS d.val (f (g.readS a.val) (g.readS b.val))) 3 cls) :=
  scalarUnit_done r (by decide) q rfl

theorem scalar4_done (q : Quiet g [g.sDst a.val] [g.sDst d.val]) (fn cls : Nat) (i : BitVec 10) (f : DWord → DWord) :
    scalar4 fn cls d a i f s = .next (done s k g ((past g 1).writeS d.val (f (g.readS a.val))) 4 cls) :=
  scalarUnit_done r (by decide) q rfl

theorem scalar8_done (q : Quiet g [g.sDst a.val] [g.sDst d.val]) (fn : Nat) (f : DWord → DWord) :
    scalar8 fn d a f s = .next (done s k g ((past g 1).writeS d.val (f (g.readS a.val))) 8 1) :=
  scalarUnit_done r (by decide) q rfl

/-- The condition is s[E], which a Y word names, or the prior s[D] (R39). -/
theorem ssel_done {e : Option SReg} (q : Quiet g [g.sDst a.val, g.sDst b.val, g.sDst (e.getD d).val] [g.sDst d.val]) :
    exec (.ssel d a b e) s = .next (done s k g ((past g (if e.isSome then 2 else 1)).writeS d.val
      (if g.readS (e.getD d).val ≠ 0 then g.readS a.val else g.readS b.val)) 3 1) := by
  cases e
  all_goals exact issue2_scalar r _ _ _ rfl rfl q (by simp) rfl (by simp) (by simp) rfl rfl rfl (cost_of_noX rfl) rfl

end

/-! ### The units of each list -/

theorem exec_scalarThree : ∀ e ∈ scalarThree, ∃ fn, ∀ d a b s, exec (e.1 d a b) s = scalar3 fn e.2.1 d a b e.2.2 s := by
  simp only [scalarThree, List.forall_mem_cons, List.not_mem_nil, false_implies, implies_true, and_true]
  and_intros
  all_goals exact ⟨_, fun _ _ _ _ => rfl⟩

theorem exec_scalarImm : ∀ e ∈ scalarImm, ∃ fn, ∀ d a i s, exec (e.1 d a i) s = scalar4 fn e.2.1 d a i (e.2.2 · i) s := by
  simp only [scalarImm, List.forall_mem_cons, List.not_mem_nil, false_implies, implies_true, and_true]
  and_intros
  all_goals exact ⟨_, fun _ _ _ _ => rfl⟩

theorem exec_scalarOne : ∀ e ∈ scalarOne, ∃ fn, ∀ d a s, exec (e.1 d a) s = scalar8 fn d a e.2 s := by
  simp only [scalarOne, List.forall_mem_cons, List.not_mem_nil, false_implies, implies_true, and_true]
  and_intros
  all_goals exact ⟨_, fun _ _ _ => rfl⟩

theorem scalarRegisterResults : ScalarRegisterResults := by
  intro e he d a b s k g r q
  obtain ⟨fn, run⟩ := exec_scalarThree e he
  exact (run d a b s).trans (scalar3_done r q fn _ _)

theorem scalarImmediateResults : ScalarImmediateResults := by
  refine ⟨fun e he d a i s k g r q => ?_, fun e he d a s k g r q => ?_, fun d i s k g r => ⟨?_, ?_, ?_, fun p => ⟨?_, ?_, ?_⟩⟩⟩
  · obtain ⟨fn, run⟩ := exec_scalarImm e he
    exact (run d a i s).trans (scalar4_done r q fn _ i _)
  · obtain ⟨fn, run⟩ := exec_scalarOne e he
    exact (run d a s).trans (scalar8_done r q fn _)
  all_goals exact fun q => scalarUnit_done r (by decide) q rfl

/-- Settles O37: every unit writes one register of its own group, by the rule of its list. -/
theorem scalarResults : Obligations.ScalarResults :=
  ⟨scalarRegisterResults, fun _ _ _ _ _ _ _ r q => ssel_done r q, scalarImmediateResults⟩

end Sys2Proof.Claims

/-! ## Lane units (O39) -/

namespace Sys2Proof.Claims

open Sys2Proof.Machine

/-! ### Units of majors 9 to 15 without pairs -/

section
variable {s : State} {k : Nat} {g : Group} {x : Pfx}

/-- Such a unit has its effect on its own group. The function code counts where the pipe depends on it (R81, R138). -/
theorem vectorUnit_done {maj fn fn' cls d a b : Nat} {src dst : List VFld} {sw pr pw : List Nat} {eff : Effect} {h : Group}
    (r : ReadyV s k g x src dst (src.map g.vReg ++ pr.map Dst.p) (dst.map g.vDst ++ sw.map g.sDst ++ pw.map Dst.p))
    (hm : 9 ≤ maj ∧ maj ≤ 15) (hf : maj = 9 ∨ maj = 12 ∨ maj = 13 → fn < 64 ∧ fn = fn')
    (he : eff s k (activeMask x g) g (pastV g x src) = .grp h) :
    issue { uV maj fn cls x d a b with vr := src, vw := dst, sw := sw, pr := pr, pw := pw } eff s =
      .next (doneV s k g h x maj fn' cls src) := by
  refine issue2_vec r _ src rfl (by simp [uV]) rfl rfl rfl (by simp [uV]) rfl hm rfl rfl rfl fn' (fun hd => ?_) he
  obtain ⟨lt, rfl⟩ := hf hd
  exact wordA_fn _ _ _ _ _ lt

/-- The active lanes that pass a test. -/
theorem filter_onLanes (m : DWord) (p : Nat → Bool) : (onLanes m).filter p = laneIdx.filter fun j => laneBit m j && p j := by
  simp only [onLanes, List.filter_filter, Bool.and_comm]

variable {d a b : VFld} {c : SReg}

/-! ### Reductions (R153, R154) -/

theorem exec_reductions : ∀ e ∈ reductions, ∀ x d a s,
    exec (e.1 x d a) s = redInt e.2.1 e.2.2.1 x d a e.2.2.2.1 e.2.2.2.2.1 e.2.2.2.2.2 s := by
  simp only [reductions, List.forall_mem_cons, List.not_mem_nil, false_implies, implies_true, and_true]
  and_intros
  all_goals exact fun _ _ _ _ => rfl

theorem exec_floatReductions : ∀ e ∈ floatReductions, ∀ x d a s,
    exec (e.1 x d a) s = redFl e.2.1 x d a e.2.2.1 e.2.2.2 s := by
  simp only [floatReductions, List.forall_mem_cons, List.not_mem_nil, false_implies, implies_true, and_true]
  and_intros
  all_goals exact fun _ _ _ _ => rfl

theorem reductions_fn : ∀ e ∈ reductions, e.2.1 < 64 := by simp [reductions]

theorem floatReductions_fn : ∀ e ∈ floatReductions, e.2.1 < 64 := by simp [floatReductions]

theorem redInt_done (r : ReadyV s k g x [a] [] [g.vReg a] [g.sDst c.val]) {fn : Nat} (hf : fn < 64) (cls : Nat) (z : Word)
    (f : Word → Word → Word) (sx : Bool) : let v := ((onLanes (activeMask x g)).map fun i => opA g x a i).foldl f z
    redInt fn cls x c a z f sx s = .next (doneV s k g ((pastV g x [a]).writeS c.val
      (if sx then v.signExtend 64 else v.setWidth 64)) x 13 fn cls [a]) :=
  vectorUnit_done r (by decide) (fun _ => ⟨hf, rfl⟩) rfl

theorem redFl_done (r : ReadyV s k g x [a] [] [g.vReg a] [g.sDst c.val]) {fn : Nat} (hf : fn < 64) (z : Nat)
    (f : FMode → Nat → Nat → Nat → FRes) : let v := treeFold (f (g.fmode x.rm)) (leavesOf g (activeMask x g) a x.xa)
    redFl fn x c a z f s = .next (doneV s k g (((pastV g x [a]).writeS c.val (BitVec.ofNat 64 (v.1.getD z))).raise v.2) x 13 fn 2 [a]) :=
  vectorUnit_done r (by decide) (fun _ => ⟨hf, rfl⟩) rfl

/-! ### Scans (R155) -/

theorem scanInt_done (r : ReadyV s k g x [a] [d] [g.vReg a] [g.vDst d]) {fn : Nat} (hf : fn < 64) (keep : Nat → Nat → Bool) :
    scanInt fn x d a keep s = .next (doneV s k g ((pastV g x [a]).writeF d (activeMask x g) fun i =>
      (((onLanes (activeMask x g)).filter (keep i)).map fun j => opA g x a j).foldl (· + ·) 0) x 13 fn 1 [a]) := by
  simp only [filter_onLanes]
  exact vectorUnit_done r (by decide) (fun _ => ⟨hf, rfl⟩) rfl

theorem fscan_done (r : ReadyV s k g x [a] [d] [g.vReg a] [g.vDst d]) :
    exec (.fscan x d a) s = .next (doneV s k g (floatWrite (pastV g x [a]) d (activeMask x g) fun i =>
      let v := treeFold (fAdd (g.fmode x.rm)) ((leavesOf g (activeMask x g) a x.xa).zipIdx.map fun p => if p.2 ≤ i then p.1 else none)
      (v.1.getD 0, v.2)) x 13 15 2 [a]) :=
  vectorUnit_done r (by decide) (fun _ => ⟨by decide, rfl⟩) (fWrite_eq _ _ _ _)

/-! ### Compaction and expansion (R156) -/

theorem vexpand_done (r : ReadyV s k g x [a] [d] [g.vReg a] [g.vDst d]) :
    exec (.vexpand x d a) s = .next (doneV s k g ((pastV g x [a]).writeF d (activeMask x g) fun i =>
      opA g x a ((onLanes (activeMask x g)).filter fun j => j < i).length) x 13 17 1 [a]) := by
  simp only [filter_onLanes]
  exact vectorUnit_done r (by decide) (fun _ => ⟨by decide, rfl⟩) rfl

end

theorem laneResults : LaneResults := by
  intro x s k g d a b c
  refine ⟨fun r => ⟨?_, ?_⟩, fun r => ⟨fun e he => ?_, fun e he => ?_⟩, fun r => ⟨?_, ?_, fscan_done r, ?_, vexpand_done r⟩, fun r => ?_⟩
  · exact vectorUnit_done r (by decide) (fun _ => ⟨by decide, rfl⟩) rfl
  · exact vectorUnit_done r (by decide) (fun _ => ⟨by decide, rfl⟩) rfl
  · exact (exec_reductions e he x c a s).trans (redInt_done r (reductions_fn e he) _ _ _ _)
  · exact (exec_floatReductions e he x c a s).trans (redFl_done r (floatReductions_fn e he) _ _)
  · exact scanInt_done r (by decide) _
  · exact scanInt_done r (by decide) _
  · exact vectorUnit_done r (by decide) (fun _ => ⟨by decide, rfl⟩) rfl
  · exact vectorUnit_done r (by decide) (fun _ => ⟨by decide, rfl⟩) rfl

/-! ### sext and sins (R135) -/

theorem past_mixed {u : Uop} {g : Group} (hm : u.maj ≤ 8) (hk : u.peek = false) (hp : u.pfx = Pfx.none) :
    u.past g = past ((queuesOf u.vr).eraseDups.foldl Group.popQ g) 1 := by
  simp [Uop.past, past, active_scalar hm, hk, hp, Pfx.none, Pfx.len]

/-- A unit of majors 0 to 8 with vector operands that may take its effect takes it: every lane is active (R96, R99). -/
theorem issue_mixed {s : State} {k : Nat} {g h : Group} (r : Ready s k g) {u : Uop} {eff : Effect} {rd wr : List Dst}
    (hr : u.reads g = rd) (hw : u.writes g = wr) (q : Quiet g rd wr) (heads : headsFilled g (queuesOf u.vr) = true)
    (checks : queueCheck g (queuesOf u.vr) (queuesOf u.vw) u.peek true = none) (hm : u.maj ≤ 8) (fp : u.fp = false)
    (hnd : u.hnd = false) (pr : u.priv = false) (v2 : u.vr2 = []) (hk : u.peek = false) (hp : u.pfx = Pfx.none)
    (he : eff s k allOnes g (past ((queuesOf u.vr).eraseDups.foldl Group.popQ g) 1) = .grp h) :
    issue u eff s = .next (done s k g h u.maj u.cls u.vr) := by
  have rdy : u.ready g = true := by
    subst hr hw
    simp only [Uop.ready, q.pend, q.kept, heads]
    simp
    omega
  have checks' : queueCheck g (queuesOf u.vr) (queuesOf u.vw) u.peek (u.active g ≠ 0) = none := by
    rw [active_scalar hm]
    exact checks
  rw [issue, issue2_takes r.cur r.grp r.can r.res (faultPoint_quiet fp hr hw q) (by simp [hnd]) (by simp [pr]) rdy checks',
    active_scalar hm, past_mixed hm hk hp, he]
  simp only [applyEff, State.issuedUnit, done]
  rw [issuedAs_eq u g (fn := 0) (src := u.vr) (by omega) (by omega) (by simp [v2, active_scalar hm]), cost_of_noPfx hp]
  simp [show u.maj ≠ 9 by omega]

/-- The destination of sins is no queue. -/
theorem queuesOf_eq_nil {f : VFld} (h : f.val < 96 ∨ 112 ≤ f.val) : queuesOf [f] = [] := by
  simp [queuesOf]
  omega

theorem laneExtractInsert : LaneExtractInsert := by
  intro s k g r c f b
  refine ⟨fun q heads checks => ?_, fun hf q => ?_⟩
  · exact issue_mixed r rfl rfl q heads checks (Nat.le_refl 8) rfl rfl rfl rfl rfl rfl rfl
  · have checks : queueCheck g [] (queuesOf [f]) false true = none := by rw [queuesOf_eq_nil hf, queueCheck_nil]
    exact issue_mixed r rfl rfl q rfl checks (Nat.le_refl 8) rfl rfl rfl rfl rfl rfl rfl

/-- Settles O39: units of major 13 act on the active lanes, sext and sins, of major 8, on one lane whichever are active. -/
theorem laneUnits : Obligations.LaneUnits := ⟨laneResults, laneExtractInsert⟩

end Sys2Proof.Claims

/-! ## What a unit on registers leaves alone (O27) -/

namespace Sys2Proof.Claims

open Sys2Proof.Machine

/-! ### The machine around the group -/

section
variable (s : State) (g : Group) (i : Issued)

@[simp] theorem paid_dies : (s.paid g i).dies = s.dies := by simp only [State.paid]; split <;> rfl
@[simp] theorem paid_fab : (s.paid g i).fab = s.fab := by simp only [State.paid]; split <;> rfl
@[simp] theorem paid_dev : (s.paid g i).dev = s.dev := by simp only [State.paid]; split <;> rfl

variable (c part n pipe cls : Nat)

theorem charge_core : ∃ pipes units,
    (s.charge c part n pipe cls).core c = { s.core c with pipes := pipes, units := units } :=
  ⟨_, _, State.core_setCore s c _⟩

theorem charge_core_other {j : Nat} (h : j ≠ c) : (s.charge c part n pipe cls).core j = s.core j :=
  State.core_setCore_other s _ h

theorem charge_ctx : ∃ e pj, (s.charge c part n pipe cls).ctx n = { s.ctx n with enrg := e, enrgPj := pj } :=
  ⟨_, _, State.ctx_setCtx _ n _⟩

theorem charge_ctx_other {j : Nat} (h : j ≠ n) : (s.charge c part n pipe cls).ctx j = s.ctx j :=
  State.ctx_setCtx_other _ _ h

/-- An issued unit occupies a pipe of its core and is counted there; a division keeps the pipe (R138). -/
theorem paid_core : ∃ pipes units divs,
    (s.paid g i).core g.core = { s.core g.core with pipes := pipes, units := units, divs := divs } := by
  simp only [State.paid]
  split
  · obtain ⟨pipes, units, h⟩ := charge_core (s.divides g.core (partOfSlot g.slot)) g.core (partOfSlot g.slot) g.ctx i.pipe i.cls
    exact ⟨pipes, units, _, h.trans (by rw [State.divides, core_modCore])⟩
  · obtain ⟨pipes, units, h⟩ := charge_core s g.core (partOfSlot g.slot) g.ctx i.pipe i.cls
    exact ⟨pipes, units, _, h⟩

theorem paid_core_other {j : Nat} (h : j ≠ g.core) : (s.paid g i).core j = s.core j := by
  simp only [State.paid]
  split
  · exact (charge_core_other _ _ _ _ _ _ h).trans (State.core_setCore_other s _ h)
  · exact charge_core_other _ _ _ _ _ _ h

theorem paid_ctx : ∃ e pj, (s.paid g i).ctx g.ctx = { s.ctx g.ctx with enrg := e, enrgPj := pj } := by
  simp only [State.paid]
  split
  all_goals exact charge_ctx _ _ _ _ _ _

theorem paid_ctx_other {j : Nat} (h : j ≠ g.ctx) : (s.paid g i).ctx j = s.ctx j := by
  simp only [State.paid]
  split
  all_goals exact charge_ctx_other _ _ _ _ _ _ h

end

theorem elsewhere_paid (s : State) (k : Nat) (g h : Group) (i : Issued) : Elsewhere s ((s.setGrp k h).paid g i) k g where
  byte a := by simp
  grps j hj := by simp [State.grp?_setGrp_other s h hj]
  wgs := by simp
  home := by simp
  dies := by simp
  fab := by simp
  core := paid_core (s.setGrp k h) g i
  cores _ hc := paid_core_other (s.setGrp k h) g i hc
  ctx := paid_ctx (s.setGrp k h) g i
  ctxs _ hn := paid_ctx_other (s.setGrp k h) g i hn
  dev := by simp

/-! ### The group -/

section
variable (g : Group)

/-- A scalar register written is a register of the file or of the handler bank. -/
theorem writeS_files (r : Nat) (v : DWord) : ∃ l m, g.writeS r v = { g with s := l, bank := m } ∧
    (∀ n, n ≠ r → regGet l n = regGet g.s n) ∧ ∀ n, n + 56 ≠ r → regGet m n = regGet g.bank n := by
  by_cases h0 : r = 0
  · exact ⟨g.s, g.bank, if_pos h0, fun _ _ => rfl, fun _ _ => rfl⟩
  · by_cases hr : g.inH = true ∧ 56 ≤ r
    · obtain ⟨hi, h56⟩ := hr
      exact ⟨g.s, _, writeS_banked hi h56, fun _ _ => rfl, fun n hn => regGet_set_other v (by omega)⟩
    · exact ⟨_, g.bank, writeS_plain h0 hr, fun n hn => regGet_set_other v hn.symm, fun _ _ => rfl⟩

theorem writePBits_file (r : Nat) (m : DWord) (f : Nat → Bool) : ∃ l,
    g.writePBits r m f = { g with p := l } ∧ ∀ n, n ≠ r → regGet l n = regGet g.p n := by
  by_cases h0 : r = 0
  · exact ⟨g.p, if_pos h0, fun _ _ => rfl⟩
  · exact ⟨_, if_neg h0, fun n hn => regGet_set_other _ hn.symm⟩

/-- Setting one queue leaves every other as it was. -/
theorem queue_set_other (l : List QReg) (v : QReg) {m n : Nat} (h : n ≠ m) : (l.set m v).getD n {} = l.getD n {} := by
  simp only [List.getD_eq_getElem?_getD, List.getElem?_set_ne h.symm]

theorem queuesOf_append (a b : List VFld) : queuesOf (a ++ b) = queuesOf a ++ queuesOf b := by simp [queuesOf]

theorem popQs_queues (l : List Nat) : ∃ q, l.foldl Group.popQ g = { g with queues := q } ∧
    ∀ n, n ∉ l → q.getD n {} = g.queues.getD n {} := by
  induction l generalizing g with
  | nil => exact ⟨g.queues, rfl, fun _ _ => rfl⟩
  | cons a r ih =>
    obtain ⟨q, eq, other⟩ := ih (g.popQ a)
    refine ⟨q, eq, fun n hn => ?_⟩
    obtain ⟨ha, hr⟩ := List.ne_and_not_mem_of_not_mem_cons hn
    exact (other n hr).trans (queue_set_other _ _ ha)

/-- Past a vector unit only the queues of its sources have changed, and what every unit changes. -/
theorem pastV_queues (x : Pfx) (src : List VFld) : ∃ q, pastV g x src = { past g x.len with queues := q } ∧
    ∀ n, n ∉ queuesOf src → q.getD n {} = g.queues.getD n {} := by
  simp only [pastV]
  split
  · exact ⟨g.queues, rfl, fun _ _ => rfl⟩
  · obtain ⟨q, eq, other⟩ := popQs_queues g (queuesOf src).eraseDups
    exact ⟨q, congrArg (past · x.len) eq, fun n hn => other n (by simpa using hn)⟩

/-! A vector destination is a register of the window, a queue, or a handler register (R32, R96). -/

variable {g} {d : VFld} (m : DWord) (f : Nat → Word)

theorem writeF_window_only (hd : d.val < 96) : ∃ v, g.writeF d m f = { g with vreg := v } ∧
    ∀ n, n ≠ g.wb + d.val → mapGet? v n = mapGet? g.vreg n := by
  rw [Group.writeF, if_neg (by omega), Group.vDst, if_pos hd, Group.writeDst, Group.writePos]
  split
  · exact ⟨_, rfl, fun n hn => mapGet?_mapSet_other _ _ hn⟩
  · exact ⟨g.vreg, rfl, fun _ _ => rfl⟩

theorem writeF_queue_only (hd : 96 ≤ d.val) (hd' : d.val < 112) : ∃ q, g.writeF d m f = { g with queues := q } ∧
    ∀ n, n ∉ queuesOf [d] → q.getD n {} = g.queues.getD n {} := by
  have other : ∀ n, n ∉ queuesOf [d] → (g.writeF d m f).queues.getD n {} = g.queues.getD n {} :=
    fun n hn => queue_writeF_other hd hd' (by simpa [queuesOf, hd, hd'] using hn)
  refine ⟨_, ?_, other⟩
  rw [Group.writeF, if_pos ⟨hd, hd'⟩]
  split <;> rfl

theorem writeF_handler_only (hd : 112 ≤ d.val) : ∃ h, g.writeF d m f = { g with h := h } ∧
    ∀ n, n ≠ d.val - 112 → mapGet? h n = mapGet? g.h n := by
  rw [Group.writeF, if_neg (by omega), Group.vDst, if_neg (by omega), if_neg (by omega)]
  exact ⟨_, rfl, fun n hn => mapGet?_mapSet_other _ _ hn⟩

theorem writeF_onlyVector (d : VFld) : ∃ v q h,
    g.writeF d m f = { g with vreg := v, queues := q, h := h } ∧ OnlyVector g [] d v q h := by
  by_cases hw : d.val < 96
  · obtain ⟨v, eq, other⟩ := writeF_window_only m f hw
    exact ⟨v, g.queues, g.h, eq, fun _ _ => rfl, fun _ => by omega, fun _ => rfl, fun n _ hn => other n hn, fun _ _ _ => rfl⟩
  · by_cases hq : d.val < 112
    · obtain ⟨q, eq, other⟩ := writeF_queue_only m f (by omega) hq
      exact ⟨g.vreg, q, g.h, eq, other, fun _ => rfl, fun _ => rfl, fun _ _ _ => rfl, fun _ _ _ => rfl⟩
    · obtain ⟨h, eq, other⟩ := writeF_handler_only m f (Nat.not_lt.mp hq)
      exact ⟨g.vreg, g.queues, h, eq, fun _ _ => rfl, fun _ => rfl, fun _ => by omega, fun _ _ _ => rfl, fun n _ hn => other n hn⟩

/-- The registers and queues that a vector unit leaves as they were, its sources popped and its destination written. -/
theorem writeF_pastV_onlyVector (g : Group) (x : Pfx) (src : List VFld) (d : VFld) : ∃ v q h,
    (pastV g x src).writeF d m f = { past g x.len with vreg := v, queues := q, h := h } ∧ OnlyVector g src d v q h := by
  obtain ⟨q0, eq0, popped⟩ := pastV_queues g x src
  obtain ⟨v, q, h, eq, pushed, regs⟩ := writeF_onlyVector (g := { past g x.len with queues := q0 }) m f d
  refine ⟨v, q, h, eq0 ▸ eq, fun n hn => ?_, regs⟩
  rw [queuesOf_append, List.mem_append, not_or] at hn
  obtain ⟨hs, hd⟩ := hn
  exact (pushed n hd).trans (popped n hs)

end

/-! ### Sticky flags (R164) -/

/-- Only the bits of MODE that hold sticky flags, 5 to 9, are set. -/
def Sticky (fl : Nat) : Prop := fl &&& 0x3E0 = fl

namespace Sticky

theorem none : Sticky 0 := rfl
theorem invalid : Sticky flNV := rfl
theorem divByZero : Sticky flDZ := rfl
theorem overflow : Sticky (flOF + flNX) := rfl
theorem underflow : Sticky (flUF + flNX) := rfl
theorem inexact : Sticky flNX := rfl

theorem lor {a b : Nat} (ha : Sticky a) (hb : Sticky b) : Sticky (Nat.lor a b) :=
  (Nat.and_or_distrib_right a b 0x3E0).trans (congrArg₂ _ ha hb)

theorem ite {c : Prop} [Decidable c] {a b : Nat} (ha : Sticky a) (hb : Sticky b) : Sticky (if c then a else b) := by
  split <;> assumption

/-- The same of a result that is one of two. -/
theorem res {c : Prop} [Decidable c] {a b : FRes} (ha : Sticky a.2) (hb : Sticky b.2) : Sticky (if c then a else b).2 := by
  split <;> assumption

theorem foldl {l : List Nat} (hl : ∀ n ∈ l, Sticky n) {a : Nat} (ha : Sticky a) : Sticky (l.foldl Nat.lor a) := by
  induction l generalizing a with
  | nil => exact ha
  | cons b r ih =>
    obtain ⟨hb, hr⟩ := List.forall_mem_cons.mp hl
    exact ih hr (ha.lor hb)

theorem testBit {fl i : Nat} (h : Sticky fl) (hi : i < 5 ∨ 9 < i) : fl.testBit i = false := by
  have outside : (0x3E0 : Nat).testBit i = false := by
    rcases hi with hi | hi
    · interval_cases i <;> rfl
    · exact Nat.testBit_lt_two_pow ((by decide : 0x3E0 < 2 ^ 10).trans_le (Nat.pow_le_pow_right (by decide) hi))
  rw [← h, Nat.testBit_and, outside, Bool.and_false]

end Sticky

/-! The results of the float units raise nothing else. -/

theorem sticky_round (f : FFmt) (c : Rnd) (ftz : Bool) (x : Ex) : Sticky (f.round c ftz x).2 := by
  cases x with
  | nan nv => exact .ite .invalid .none
  | inf neg => exact .none
  | zero neg => exact .none
  | num neg m e sticky =>
    simp only [FFmt.round]
    exact .res .none (.res .underflow (.res .overflow (.ite (.ite .underflow .inexact) .none)))

theorem sticky_fMinMax (ftz mx m : Bool) (a b : Nat) : Sticky (fMinMax ftz mx m a b).2 := by
  have nv : Sticky (if (rd32 ftz a).isSig || (rd32 ftz b).isSig then flNV else 0) := .ite .invalid .none
  exact .res nv (.res nv (.res nv nv))

theorem sticky_hOp2 (c : FMode) (op i a b z : Nat) : Sticky (hOp2 c op i a b z).2 :=
  (sticky_round _ _ _ _).lor (sticky_round _ _ _ _)

theorem sticky_fLdexp (c : FMode) (j a : Nat) (sb : Int) : Sticky (fLdexp c j a sb).2 := by
  simp only [fLdexp]
  split
  all_goals exact sticky_round _ _ _ _

theorem sticky_fDiv (c : FMode) (j a b : Nat) : Sticky (fDiv c j a b).2 := by
  simp only [fDiv]
  split
  · exact sticky_round _ _ _ _
  · split
    · exact .invalid
    · exact .none
    · exact .none
    · exact .res (.res .invalid .divByZero) (sticky_round _ _ _ _)
    · exact .none

theorem sticky_floatTwo : ∀ e ∈ floatTwo, ∀ c i a b, Sticky (e.2.2.2.2 c i a b).2 := by
  simp only [floatTwo, List.forall_mem_cons, List.not_mem_nil, false_implies, implies_true, and_true]
  exact ⟨fun _ _ _ _ => sticky_round _ _ _ _, fun _ _ _ _ => sticky_round _ _ _ _, fun _ _ _ _ => sticky_round _ _ _ _,
    fun _ _ _ _ => sticky_fMinMax _ _ _ _ _, fun _ _ _ _ => sticky_fMinMax _ _ _ _ _, fun _ _ _ _ => sticky_fMinMax _ _ _ _ _,
    fun _ _ _ _ => sticky_fMinMax _ _ _ _ _, fun _ _ _ _ => .none, fun _ _ _ _ => sticky_hOp2 _ _ _ _ _ _,
    fun _ _ _ _ => sticky_hOp2 _ _ _ _ _ _, fun _ _ _ _ => sticky_fLdexp _ _ _ _, sticky_fDiv⟩

theorem getLsbD_mode_raise (g : Group) (fl i : Nat) :
    (g.raise fl).mode.getLsbD i = (g.mode.getLsbD i || (decide (i < 64) && fl.testBit i)) := by
  rw [Group.raise, BitVec.getLsbD_or, BitVec.getLsbD_ofNat]

/-- A float unit raises the union of its lanes' flags: bits of MODE that only rise, and no other bit. -/
theorem floatWrite_onlyVector (g : Group) (x : Pfx) (src : List VFld) (d : VFld) (m : DWord) (f : Nat → FRes)
    (hf : ∀ i, Sticky (f i).2) : ∃ v q h c,
    floatWrite (pastV g x src) d m f = { past g x.len with vreg := v, queues := q, h := h, mode := c } ∧ OnlyVector g src d v q h ∧
    ∀ i, (g.mode.getLsbD i = true → c.getLsbD i = true) ∧ (i < 5 ∨ 9 < i → c.getLsbD i = g.mode.getLsbD i) := by
  obtain ⟨v, q, h, eq, only⟩ := writeF_pastV_onlyVector m (fun i => BitVec.ofNat 32 (if i < 64 ∧ laneBit m i then (f i).1 else 0)) g x src d
  have flags : Sticky ((laneIdx.map fun i => if laneBit m i then (f i).2 else 0).foldl Nat.lor 0) :=
    .foldl (List.forall_mem_map.mpr fun i _ => .ite (hf i) .none) .none
  refine ⟨v, q, h, _, congrArg (Group.raise · _) eq, only, fun i => ⟨fun hi => ?_, fun hi => ?_⟩⟩
  · exact (getLsbD_mode_raise g _ i).trans (by rw [hi, Bool.true_or])
  · exact (getLsbD_mode_raise g _ i).trans (by rw [flags.testBit hi, Bool.and_false, Bool.or_false])

/-! ### The units of each list (R139, R144, R148) -/

theorem exec_vecTwo : ∀ e ∈ vecTwo, ∀ x d a b s, exec (e.1 x d a b) s = lane2 e.2.1 e.2.2.1 x d a b e.2.2.2 s := by
  simp only [vecTwo, List.forall_mem_cons, List.not_mem_nil, false_implies, implies_true, and_true]
  and_intros
  all_goals exact fun _ _ _ _ _ => rfl

theorem exec_floatTwo : ∀ e ∈ floatTwo, ∀ x d a b s,
    exec (e.1 x d a b) s = fl2 e.2.1 e.2.2.1 e.2.2.2.1 x d a b e.2.2.2.2 s := by
  simp only [floatTwo, List.forall_mem_cons, List.not_mem_nil, false_implies, implies_true, and_true]
  and_intros
  all_goals exact fun _ _ _ _ _ => rfl

theorem exec_vecCmp : ∀ e ∈ vecCmp, ∀ x p a b s, exec (e.1 x p a b) s = cmpI e.2.1 x p a b e.2.2 s := by
  simp only [vecCmp, List.forall_mem_cons, List.not_mem_nil, false_implies, implies_true, and_true]
  and_intros
  all_goals exact fun _ _ _ _ _ => rfl

theorem vecTwo_fn : ∀ e ∈ vecTwo, e.2.1 < 64 := by simp [vecTwo]

theorem vecCmp_fn : ∀ e ∈ vecCmp, e.2.1 < 64 := by simp [vecCmp]

theorem floatTwo_maj : ∀ e ∈ floatTwo, e.2.1 = 11 ∨ e.2.1 = 14 := by simp [floatTwo]

section
variable {s : State} {k : Nat} {g : Group} {x : Pfx} {d a b : VFld} {p : PReg}

theorem lane2_done (r : ReadyV s k g x [a, b] [d] [g.vReg a, g.vReg b] [g.vDst d]) {fn : Nat} (hf : fn < 64) (cls : Nat)
    (f : Word → Word → Word) : lane2 fn cls x d a b f s = .next (doneV s k g ((pastV g x [a, b]).writeF d (activeMask x g) fun i =>
      f (opA g x a i) (opB g x b i)) x 9 fn cls [a, b]) :=
  vectorUnit_done r (by decide) (fun _ => ⟨hf, rfl⟩) rfl

theorem fl2_done (r : ReadyV s k g x [a, b] [d] [g.vReg a, g.vReg b] [g.vDst d]) {maj : Nat} (hm : maj = 11 ∨ maj = 14)
    (fn cls : Nat) (f : FMode → Nat → Nat → Nat → FRes) :
    fl2 maj fn cls x d a b f s = .next (doneV s k g (floatWrite (pastV g x [a, b]) d (activeMask x g) fun i =>
      f (g.fmode x.rm) i (opA g x a i).toNat (opB g x b i).toNat) x maj 0 cls [a, b]) :=
  vectorUnit_done r (by omega) (by omega) (fWrite_eq _ _ _ _)

theorem cmpI_done (r : ReadyV s k g x [a, b] [] [g.vReg a, g.vReg b, .p p.val] [.p p.val]) {fn : Nat} (hf : fn < 64)
    (f : Word → Word → Bool) : cmpI fn x p a b f s = .next (doneV s k g ((pastV g x [a, b]).writePBits p.val (activeMask x g) fun i =>
      f (opA g x a i) (opB g x b i)) x 12 fn 2 [a, b]) :=
  vectorUnit_done r (by decide) (fun _ => ⟨hf, rfl⟩) rfl

end

theorem grp?_paid_setGrp (s : State) (k : Nat) (g h : Group) (i : Issued) : ((s.setGrp k h).paid g i).grp? k = some h := by
  simp

/-- Settles O27: each unit's next state, and what its write to its own group can change. -/
theorem registerUnitsFrame : Obligations.RegisterUnitsFrame := by
  refine ⟨fun d a b s k g r q e he => ?_, fun x s k g d a b p => ⟨fun r => ⟨fun e he => ?_, fun e he => ?_⟩, fun r e he => ?_⟩⟩
  · obtain ⟨l, m, eq, file, bank⟩ := writeS_files (past g 1) d.val (e.2.2 (g.readS a.val) (g.readS b.val))
    have run := scalarRegisterResults e he d a b s k g r q
    rw [eq] at run
    exact ⟨_, l, m, run, elsewhere_paid .., grp?_paid_setGrp .., file, bank⟩
  · obtain ⟨v, q, h, eq, only⟩ :=
      writeF_pastV_onlyVector (activeMask x g) (fun i => e.2.2.2 (opA g x a i) (opB g x b i)) g x [a, b] d
    have run := (exec_vecTwo e he x d a b s).trans (lane2_done r (vecTwo_fn e he) _ _)
    rw [eq] at run
    exact ⟨_, v, q, h, run, elsewhere_paid .., grp?_paid_setGrp .., only⟩
  · obtain ⟨v, q, h, c, eq, only, flags⟩ := floatWrite_onlyVector g x [a, b] d (activeMask x g)
      (fun i => e.2.2.2.2 (g.fmode x.rm) i (opA g x a i).toNat (opB g x b i).toNat) fun i => sticky_floatTwo e he _ _ _ _
    have run := (exec_floatTwo e he x d a b s).trans (fl2_done r (floatTwo_maj e he) _ _ _)
    rw [eq] at run
    exact ⟨_, v, q, h, c, run, elsewhere_paid .., grp?_paid_setGrp .., only, flags⟩
  · obtain ⟨q, eq, popped⟩ := pastV_queues g x [a, b]
    obtain ⟨l, eqP, file⟩ := writePBits_file { past g x.len with queues := q } p.val (activeMask x g)
      fun i => e.2.2 (opA g x a i) (opB g x b i)
    have run := (exec_vecCmp e he x p a b s).trans (cmpI_done r (vecCmp_fn e he) _)
    rw [eq, eqP] at run
    exact ⟨_, l, q, run, elsewhere_paid .., grp?_paid_setGrp .., file, popped⟩

end Sys2Proof.Claims

/-! ## Integer, float and predicate units on the active lanes (O8, O9, O10) -/

namespace Sys2Proof.Claims

open Sys2Proof.Machine

/-! ### The units of each list (R139, R143, R145, R149, R151) -/

/-- A function code of major 9 other than those of the divisions, 6 to 9, which alone keep their pipe (R138). -/
structure NotDivision (fn : Nat) : Prop where
  lt : fn < 64
  other : fn < 6 ∨ 9 < fn

theorem notDivision_iff {fn : Nat} : NotDivision fn ↔ fn < 64 ∧ (fn < 6 ∨ 9 < fn) :=
  ⟨fun ⟨lt, other⟩ => ⟨lt, other⟩, fun ⟨lt, other⟩ => ⟨lt, other⟩⟩

theorem exec_vecOne : ∀ e ∈ vecOne, ∀ x d a s, exec (e.1 x d a) s = lane1 e.2.1 e.2.2.1 x d a e.2.2.2 s := by
  intro e he x d a s
  fin_cases he <;> rfl

theorem exec_vecThree : ∀ e ∈ vecThree, ∀ x d a b s, exec (e.1 x d a b) s = lane3 e.2.1 e.2.2.1 x d a b e.2.2.2 s := by
  intro e he x d a b s
  fin_cases he <;> rfl

/-- The two units on 64-bit pairs (R142). -/
theorem exec_pairUnits : ∀ e ∈ [((Instr.vadd64), fun (p q : DWord) => p + q), (.vsub64, fun p q => p - q)],
    ∃ fn, NotDivision fn ∧ ∀ x d a b s, exec (e.1 x d a b) s = lanePair fn x d a b e.2 s := by
  intro e he
  fin_cases he
  · exact ⟨33, ⟨by decide, by decide⟩, fun _ _ _ _ _ => rfl⟩
  · exact ⟨34, ⟨by decide, by decide⟩, fun _ _ _ _ _ => rfl⟩

/-- The function code of an immediate unit counts for nothing in what it does. -/
theorem exec_vecImm : ∀ e ∈ vecImm, ∃ fn, ∀ x d a i s, exec (e.1 x d a i) s = lane10 fn e.2.1 x d a i (e.2.2 · i) s := by
  intro e he
  fin_cases he <;> exact ⟨_, fun _ _ _ _ _ => rfl⟩

theorem exec_floatOne : ∀ e ∈ floatOne, ∀ x d a s,
    exec (e.1 x d a) s = fl1 e.2.1 e.2.2.1 e.2.2.2.1 x d a e.2.2.2.2 s := by
  intro e he x d a s
  fin_cases he <;> rfl

theorem exec_floatThree : ∀ e ∈ floatThree, ∀ x d a b s, exec (e.1 x d a b) s = fl3 e.2.1 2 x d a b e.2.2 s := by
  intro e he x d a b s
  fin_cases he <;> rfl

theorem exec_floatCmp : ∀ e ∈ floatCmp, ∀ x p a b s, exec (e.1 x p a b) s = cmpF e.2.1 e.2.2 x p a b s := by
  intro e he x p a b s
  fin_cases he <;> rfl

/-- Predicate logic acts on each lane by itself. -/
theorem exec_predLogic : ∀ e ∈ predLogic, ∃ f : DWord → DWord → DWord,
    (∀ x p q r s, exec (e.1 x p q r) s = predOp e.2.1 x p q r f s) ∧
    ∀ u v i, i < 64 → laneBit (f u v) i = e.2.2 (laneBit u i) (laneBit v i) := by
  intro e he
  fin_cases he
  · exact ⟨(· &&& ·), fun _ _ _ _ _ => rfl, fun _ _ _ _ => BitVec.getLsbD_and⟩
  · exact ⟨(· ||| ·), fun _ _ _ _ _ => rfl, fun _ _ _ _ => BitVec.getLsbD_or⟩
  · exact ⟨(· ^^^ ·), fun _ _ _ _ _ => rfl, fun _ _ _ _ => BitVec.getLsbD_xor⟩
  · exact ⟨fun u v => u &&& ~~~ v, fun _ _ _ _ _ => rfl, fun u v i hi => by simp [laneBit, hi]⟩

theorem notDivision_vecOne : ∀ e ∈ vecOne, NotDivision e.2.1 := by simp [vecOne, notDivision_iff]

theorem notDivision_vecThree : ∀ e ∈ vecThree, NotDivision e.2.1 := by simp [vecThree, notDivision_iff]

theorem floatOne_maj : ∀ e ∈ floatOne, e.2.1 = 11 ∨ e.2.1 = 14 := by simp [floatOne]

theorem floatCmp_fn : ∀ e ∈ floatCmp, e.2.1 < 64 := by simp [floatCmp]

theorem predLogic_fn : ∀ e ∈ predLogic, e.2.1 < 64 := by simp [predLogic]

section
variable {s : State} {k : Nat} {g : Group} {x : Pfx} {d a b : VFld} {p q r : PReg}

/-! ### Majors 9 and 10 -/

theorem doneV_notDivision (h : Group) (cls : Nat) (src : List VFld) {fn : Nat} (hf : fn < 6 ∨ 9 < fn) :
    doneV s k g h x 9 fn cls src = doneV s k g h x 9 0 cls src := by
  have other : (6 ≤ fn && fn ≤ 9) = false := by simp; omega
  simp [doneV, pipeOf_fn fn, other]

section
variable {fn : Nat} (hf : NotDivision fn)
include hf

theorem lane1_done (rdy : ReadyV s k g x [a] [d] [g.vReg a] [g.vDst d]) (cls : Nat) (f : Word → Word) :
    lane1 fn cls x d a f s = .next (doneV s k g ((pastV g x [a]).writeF d (activeMask x g) fun i => f (opA g x a i)) x 9 0 cls [a]) := by
  rw [← doneV_notDivision _ _ _ hf.other]
  exact vectorUnit_done rdy (by decide) (fun _ => ⟨hf.lt, rfl⟩) rfl

theorem lane3_done (rdy : ReadyV s k g x [a, b, third x d] [d] [g.vReg a, g.vReg b, g.vReg (third x d)] [g.vDst d])
    (cls : Nat) (f : Word → Word → Word → Word) :
    lane3 fn cls x d a b f s = .next (doneV s k g ((pastV g x [a, b, third x d]).writeF d (activeMask x g) fun i =>
      f (opA g x a i) (opB g x b i) (g.src (third x d) i)) x 9 0 cls [a, b, third x d]) := by
  rw [← doneV_notDivision _ _ _ hf.other]
  exact vectorUnit_done rdy (by decide) (fun _ => ⟨hf.lt, rfl⟩) rfl

/-- The sources of a unit on pairs are the registers of its two operands; no queue holds one of them (R142). -/
theorem lanePair_done (rdy : ReadyV s k g x [] [d, d + 1] ((pairFields g a ++ pairFields g b).map g.vReg) [g.vDst d, g.vDst (d + 1)])
    (f : DWord → DWord → DWord) : let z (i : Nat) : DWord := f (g.src64 a x.xa i) (g.src64 b x.xb i)
    lanePair fn x d a b f s = .next (doneV s k g (((pastV g x []).writeF d (activeMask x g) fun i =>
      (z i).setWidth 32).writeF (d + 1) (activeMask x g) fun i => (z i >>> 32).setWidth 32)
        x 9 0 1 (pairFields g a ++ pairFields g b)) := by
  intro z
  rw [← doneV_notDivision _ _ _ hf.other]
  exact issue2_vec rdy _ _ rfl (by simp [uV]) rfl rfl rfl (by simp [uV]) rfl (by simp [uV]) rfl rfl rfl fn
    (fun _ => wordA_fn _ _ _ _ _ hf.lt) rfl

end

theorem lane10_done (rdy : ReadyV s k g x [a] [d] [g.vReg a] [g.vDst d]) (fn cls : Nat) (i : BitVec 10) (f : Word → Word) :
    lane10 fn cls x d a i f s = .next (doneV s k g ((pastV g x [a]).writeF d (activeMask x g) fun j => f (opA g x a j)) x 10 0 cls [a]) :=
  issue2_vec rdy _ _ rfl (by simp) rfl rfl rfl (by simp) rfl (by simp) rfl rfl rfl 0 (by simp) rfl

/-! ### Majors 11 and 14 -/

theorem fl1_done (rdy : ReadyV s k g x [a] [d] [g.vReg a] [g.vDst d]) {maj : Nat} (hm : maj = 11 ∨ maj = 14) (fn cls : Nat)
    (f : FMode → Nat → Nat → FRes) :
    fl1 maj fn cls x d a f s = .next (doneV s k g (floatWrite (pastV g x [a]) d (activeMask x g) fun i =>
      f (g.fmode x.rm) i (opA g x a i).toNat) x maj 0 cls [a]) :=
  vectorUnit_done rdy (by omega) (by omega) (fWrite_eq _ _ _ _)

theorem fl3_done (rdy : ReadyV s k g x [a, b, third x d] [d] [g.vReg a, g.vReg b, g.vReg (third x d)] [g.vDst d]) (fn cls : Nat)
    (f : FMode → Nat → Nat → Nat → Nat → FRes) :
    fl3 fn cls x d a b f s = .next (doneV s k g (floatWrite (pastV g x [a, b, third x d]) d (activeMask x g) fun i =>
      f (g.fmode x.rm) i (opA g x a i).toNat (opB g x b i).toNat (g.src (third x d) i).toNat) x 11 0 cls [a, b, third x d]) :=
  vectorUnit_done rdy (by decide) (by simp) (fWrite_eq _ _ _ _)

/-! ### Major 12 -/

theorem getD_laneIdx_map {α : Type} (f : Nat → α) (z : α) {i : Nat} (h : i < 64) : (laneIdx.map f).getD i z = f i := by
  simp [laneIdx, h]

/-- The flags that a compare gathers are those of the active lanes. -/
theorem foldl_laneIdx_active (m : DWord) (z : Bool × Nat) (f : Nat → Bool × Nat) :
    laneIdx.foldl (fun acc i => if laneBit m i then Nat.lor acc ((laneIdx.map f).getD i z).2 else acc) 0 =
      (onLanes m).foldl (fun acc i => Nat.lor acc (f i).2) 0 := by
  rw [onLanes, List.foldl_filter]
  exact List.foldl_ext _ _ _ fun acc i hi => by rw [getD_laneIdx_map f z (List.mem_range.mp hi)]

theorem cmpF_done (rdy : ReadyV s k g x [a, b] [] [g.vReg a, g.vReg b, .p p.val] [.p p.val]) {fn : Nat} (hf : fn < 64) (kind : Nat) :
    let f (i : Nat) := fCmp g.modeFtz kind (opA g x a i).toNat (opB g x b i).toNat
    cmpF fn kind x p a b s = .next (doneV s k g (((pastV g x [a, b]).writePBits p.val (activeMask x g) fun i => i < 64 && (f i).1).raise
      ((onLanes (activeMask x g)).foldl (fun acc i => Nat.lor acc (f i).2) 0)) x 12 fn 2 [a, b]) := by
  intro f
  refine vectorUnit_done rdy (by decide) (fun _ => ⟨hf, rfl⟩) (congrArg Eff.grp (congrArg₂ Group.raise ?_ ?_))
  · exact writePBits_congr _ _ _ fun i hi => by rw [getD_laneIdx_map _ _ hi, decide_eq_true hi, Bool.true_and]; rfl
  · exact foldl_laneIdx_active _ _ f

theorem predOp_done (rdy : ReadyV s k g x [] [] [.p q.val, .p r.val, .p p.val] [.p p.val]) {fn : Nat} (hf : fn < 64)
    {f : DWord → DWord → DWord} {lane : Nat → Bool} (eq : ∀ i, i < 64 → laneBit (f (g.readP q.val) (g.readP r.val)) i = lane i) :
    predOp fn x p q r f s = .next (doneV s k g ((pastV g x []).writePBits p.val (activeMask x g) lane) x 12 fn 1 []) :=
  vectorUnit_done rdy (by decide) (fun _ => ⟨hf, rfl⟩) (congrArg Eff.grp (writePBits_congr _ _ _ eq))

theorem fcls_done (rdy : ReadyV s k g x [a, b] [] [g.vReg a, g.vReg b, .p p.val] [.p p.val]) :
    exec (.fcls x p a b) s = .next (doneV s k g ((pastV g x [a, b]).writePBits p.val (activeMask x g) fun i =>
      bitOf (opB g x b i).toNat (fClass g.modeFtz (opA g x a i).toNat)) x 12 11 2 [a, b]) :=
  vectorUnit_done rdy (by decide) (fun _ => ⟨by decide, rfl⟩) rfl

theorem vmrg_done (rdy : ReadyV s k g x [a] [d] [g.vReg a, .p q.val] [g.vDst d]) :
    exec (.vmrg x d a q) s = .next (doneV s k g ((pastV g x [a]).writeF d (activeMask x g &&& g.readP q.val) fun i =>
      opA g x a i) x 12 17 1 [a]) :=
  vectorUnit_done rdy (by decide) (fun _ => ⟨by decide, rfl⟩) rfl

end

/-- Settles O8: each unit issues as its list says, and only the divisions keep the pipe by their function code. -/
theorem vectorIntegerResults : Obligations.VectorIntegerResults := by
  intro x s k g d a b
  refine ⟨fun e he rdy => ?two, fun e he rdy => ?one, fun e he rdy => ?three, fun e he rdy => ?pair, fun e he i rdy => ?imm⟩
  case two => exact (exec_vecTwo e he x d a b s).trans (lane2_done rdy (vecTwo_fn e he) _ _)
  case one => exact (exec_vecOne e he x d a s).trans (lane1_done (notDivision_vecOne e he) rdy _ _)
  case three => exact (exec_vecThree e he x d a b s).trans (lane3_done (notDivision_vecThree e he) rdy _ _)
  case pair =>
    obtain ⟨fn, hf, run⟩ := exec_pairUnits e he
    exact (run x d a b s).trans (lanePair_done hf rdy _)
  case imm =>
    obtain ⟨fn, run⟩ := exec_vecImm e he
    exact (run x d a i s).trans (lane10_done rdy fn _ i _)

/-- Settles O9: the units of each list round and raise flags lane by lane. -/
theorem vectorFloatResults : Obligations.VectorFloatResults := by
  intro x s k g d a b c
  refine ⟨fun e he rdy => ?two, fun e he rdy => ?one, fun e he rdy => ?three⟩
  case two => exact (exec_floatTwo e he x d a b s).trans (fl2_done rdy (floatTwo_maj e he) _ _ _)
  case one => exact (exec_floatOne e he x d a s).trans (fl1_done rdy (floatOne_maj e he) _ _ _)
  case three => exact (exec_floatThree e he x d a b s).trans (fl3_done rdy _ _ _)

/-- Settles O10: compares and predicate logic agree with their lists in lanes 0 to 63, all that a predicate register holds. -/
theorem predicateResults : Obligations.PredicateResults := by
  intro x s k g p q r d a b m
  refine ⟨fun rdy => ⟨fun e he => ?int, fun e he => ?float, fcls_done rdy⟩, fun e he rdy => ?logic, fun rdy => ?not, vmrg_done⟩
  case int => exact (exec_vecCmp e he x p a b s).trans (cmpI_done rdy (vecCmp_fn e he) _)
  case float => exact (exec_floatCmp e he x p a b s).trans (cmpF_done rdy (floatCmp_fn e he) _)
  case logic =>
    obtain ⟨f, run, lanes⟩ := exec_predLogic e he
    exact (run x p q r s).trans (predOp_done rdy (predLogic_fn e he) (lanes _ _))
  case not => exact predOp_done (r := 0) (f := fun u _ => ~~~ u) rdy (fn := 16) (by decide) fun _ _ => BitVec.getLsbD_not

end Sys2Proof.Claims

/-! ## Conversions and block scales (O40) -/

namespace Sys2Proof.Claims

open Sys2Proof.Machine

/-! ### Sticky flags after vector writes (R136, R164) -/

theorem raise_raise (g : Group) (a b : Nat) : (g.raise a).raise b = g.raise (Nat.lor a b) := by
  have bits : BitVec.ofNat 64 (Nat.lor a b) = BitVec.ofNat 64 a ||| BitVec.ofNat 64 b := BitVec.ofNat_or
  simp only [Group.raise, bits, BitVec.or_assoc]

theorem writePos_raise (g : Group) (fl p : Nat) (l : Lanes) : (g.raise fl).writePos p l = (g.writePos p l).raise fl := by
  have same : (g.raise fl).isRes p = g.isRes p := rfl
  rw [Group.writePos, Group.writePos, same]
  split <;> rfl

theorem writeF_raise (g : Group) (fl : Nat) (d : VFld) (m : DWord) (f : Nat → Word) :
    (g.raise fl).writeF d m f = (g.writeF d m f).raise fl := by
  unfold Group.writeF
  split
  · split <;> rfl
  · show (g.raise fl).writeDst (g.vDst d) m f = _
    cases g.vDst d with
    | pos p => exact writePos_raise g fl p _
    | _ => rfl

/-- Two registers that get lanes of results have the flags of both raised, as one union. -/
theorem floatWrite_floatWrite (g : Group) (d e : VFld) (m : DWord) (f h : Nat → FRes) :
    let lo := Machine.laneResults m f
    let hi := Machine.laneResults m h
    ((g.writeF d m (resLane lo)).writeF e m (resLane hi)).raise (Nat.lor (orFlags lo) (orFlags hi)) =
      floatWrite (floatWrite g d m f) e m h := by
  intro lo hi
  have written (g : Group) (d : VFld) (f : Nat → FRes) :
      floatWrite g d m f = (g.writeF d m (resLane (Machine.laneResults m f))).raise (orFlags (Machine.laneResults m f)) :=
    Eff.grp.inj (fWrite_eq g d m f).symm
  rw [written g, written, writeF_raise, raise_raise]

/-! ### Units of major 15 (R176) -/

theorem append_keptOf_nil (x : Pfx) (g : Group) (l : List VFld) : l ++ keptOf x g [] = l := by
  rw [keptOf, ite_self, List.append_nil]

section
variable {s : State} {k : Nat} {g : Group} {x : Pfx}

/-- A unit of major 15 reads, besides its sources, scalar registers, the per-tensor scale, and what its destinations keep. -/
theorem convert_done {fn cls i j n : Nat} {src dst kept all : List VFld} {sr sw : List Nat} {scale : Bool} {eff : Effect} {h : Group}
    (rdy : ReadyV s k g x src dst (src.map g.vReg ++ sr.map g.sDst ++ if scale then tensorReg g else [])
      (dst.map g.vDst ++ sw.map g.sDst))
    (hall : src ++ keptOf x g kept = all) (he : eff s k (activeMask x g) g (pastV g x src) = .grp h) :
    issue { u15 fn cls x i j n with vr := src, vw := dst, vk := kept, sr := sr, sw := sw, tscale := scale } eff s =
      .next (doneV s k g h x 15 0 cls all) :=
  issue2_vec rdy _ _ rfl (by simpa [u15, uV, keptOf] using hall) rfl rfl rfl (by cases scale <;> simp [u15, uV, tensorReg])
    (by simp [Uop.writes, u15, uV]) (by simp [u15, uV]) rfl rfl rfl 0 (by simp [u15, uV]) he

theorem conv1_done {d a : VFld} (rdy : ReadyV s k g x [a] [d] [g.vReg a] [g.vDst d]) (fn cls n : Nat) (f : Group → Nat → Nat → FRes) :
    conv1 fn cls x d a n f s = .next (doneV s k g (floatWrite (pastV g x [a]) d (activeMask x g) fun i =>
      f g i (opA g x a i).toNat) x 15 0 cls (a :: keptOf x g [d])) :=
  convert_done rdy rfl (fWrite_eq _ _ _ _)

end

/-! ### Conversions (R178 to R181) -/

theorem exec_conversions : ∀ e ∈ conversions, ∃ fn, ∀ x d a s,
    exec (e.1 x d a) s = conv1 fn e.2.1 x d a 0 (fun g => e.2.2 (g.fmode x.rm)) s := by
  intro e he
  fin_cases he <;> exact ⟨_, fun _ _ _ _ => rfl⟩

theorem conversionResults : ConversionResults := by
  intro x s k g d a c n
  refine ⟨fun rdy => ⟨fun e he => ?listed, fun h => ?cvthf, fun b rdy => ?cvt8f⟩, fun rdy => ⟨fun h => ?cvtfh, fun b rdy => ?cvtf8⟩,
    fun b rdy => ?fpack4, fun b rdy => ?funpk4⟩
  case listed =>
    obtain ⟨fn, run⟩ := exec_conversions e he
    exact (run x d a s).trans (conv1_done rdy fn _ _ _)
  case cvthf => exact convert_done rdy rfl (fWrite_eq _ _ _ _)
  case cvt8f => exact convert_done rdy rfl (fWrite_eq _ _ _ _)
  case cvtfh => exact convert_done rdy (append_keptOf_nil _ _ _) (fWrite_eq _ _ _ _)
  case cvtf8 => exact convert_done rdy (append_keptOf_nil _ _ _) (fWrite_eq _ _ _ _)
  case fpack4 =>
    exact issue2_vec rdy _ _ rfl (by simp [u15, uV]) rfl rfl rfl (by simp [u15, uV, tensorReg]) rfl (by simp [u15, uV])
      rfl rfl rfl 0 (by simp [u15, uV]) (fWrite_eq _ _ _ _)
  case funpk4 =>
    intro r
    have low : r 0 = fun i => widened g c i (widenVal 3 ((opA g x a i).toNat / 2 ^ (8 * (b.val % 4)) % 16)) := by
      funext i
      simp only [r, Nat.mul_zero, Nat.zero_add, Nat.add_zero]
    rw [low]
    exact convert_done rdy rfl (congrArg Eff.grp (floatWrite_floatWrite _ _ _ _ _ _))

/-! ### Block scales and the seed (R182, R183) -/

/-- The formats without blocks, `em8` and `i8` (R182). -/
theorem ite_noBlocks {α : Type} (g : Group) (y z : α) :
    (if g.nf = 2 || g.nf = 4 then y else z) = if g.nf = 2 ∨ g.nf = 4 then y else z := by
  simp only [Bool.or_eq_true, decide_eq_true_eq]

theorem blockScaleResults : BlockScaleResults := by
  intro x s k g d a r m plain per scale
  refine ⟨fun rdy => ?mxscl, fun rdy active => ?mxq, fun rdy => ?mxdq, fun rdy => ?srseed⟩
  case mxscl =>
    exact convert_done rdy (append_keptOf_nil _ _ _) ((ite_noBlocks _ _ _).trans (apply_ite Eff.grp _ _ _).symm)
  case mxq =>
    exact convert_done rdy (append_keptOf_nil _ _ _)
      ((if_neg active).trans ((ite_noBlocks _ _ _).trans (apply_ite Eff.grp _ _ _).symm))
  case mxdq =>
    refine convert_done rdy rfl ((ite_noBlocks _ _ _).trans ?_)
    by_cases hp : g.nf = 2 ∨ g.nf = 4
    · simp only [plain, if_pos hp]
      exact fWrite_eq _ _ _ _
    · simp only [plain, if_neg hp]
      exact fWrite_eq _ _ _ _
  case srseed => exact convert_done rdy (append_keptOf_nil _ _ _) rfl

/-- Settles O40: each unit issues with what its registers keep, and the two result registers of funpk4 raise one union of flags. -/
theorem conversionUnits : Obligations.ConversionUnits := ⟨conversionResults, blockScaleResults⟩

end Sys2Proof.Claims

/-! ## Loads, stores and atomics at issue (O41, O42) -/

namespace Sys2Proof.Claims

open Sys2Proof.Machine

section
variable {s : State} {k : Nat} {g : Group} {x : Pfx}

/-- A unit of majors 16 to 20 that issues its accesses: its vector sources, the first registers of 64-bit pairs, its scalar sources,
and the counter that it raises (R82, R194, R198). -/
theorem accessUnit_done {maj n : Nat} {base : Word} {src pairs dst all : List VFld} {sr : List Nat} {c : Ctr} {rd : List Dst}
    {mk : DWord → Group → Nat → List Op} (r : ReadyM s k g x src dst rd (dst.map g.vDst))
    (hrd : src.map g.vReg ++ (pairs.flatMap (pairFields g)).map g.vReg ++ sr.map g.sDst = rd)
    (hall : src ++ pairs.flatMap (pairFields g) = all) (hm : 16 ≤ maj ∧ maj ≤ 20) (room : g.counter c + n ≤ 255) :
    issue { maj := maj, cls := 1, base := base, pfx := x, vr := src, vr2 := pairs, vw := dst, sr := sr }
      (fun s k act g g1 => if !g.room c n then .wait else .st (s.issueOps k g1 n (mk act g))) s =
      .next (doneM (s.issueOps k (pastM g x src) n (mk (activeMask x g) g)) g x maj 1 all) := by
  obtain ⟨lo, hi⟩ := hm
  have has : g.room c n = true := decide_eq_true room
  refine issue2_mem r _ _ rfl (by simpa using hall) rfl rfl rfl (by simpa using hrd) (by simp [Uop.writes]) lo nofun nofun nofun
    (.inl ?_) (by show maj ≠ 25; omega)
  rw [has]
  rfl

@[simp] theorem uM_vr (maj fn : Nat) (m : MFld) : (uM maj fn x m).vr = offset m := rfl
@[simp] theorem uM_vr2 (maj fn : Nat) (m : MFld) : (uM maj fn x m).vr2 = [] := rfl
@[simp] theorem uM_sr (maj fn : Nat) (m : MFld) : (uM maj fn x m).sr = [m.sb.val] := rfl

/-! ### Loads and stores (R184 to R193, R205) -/

theorem exec_loads : ∀ e ∈ loads, ∀ x m s,
    exec (e.1 x m) s = loadUnit e.2.1 e.2.2.1 e.2.2.2.1 e.2.2.2.2.1 e.2.2.2.2.2 x m s := by
  simp only [loads, List.forall_mem_cons, List.not_mem_nil, false_implies, implies_true, and_true]
  and_intros
  all_goals exact fun _ _ _ => rfl

theorem loads_maj : ∀ e ∈ loads, 16 ≤ e.2.1 ∧ e.2.1 ≤ 20 := by simp [loads]

theorem exec_stores : ∀ e ∈ stores, ∀ x m s,
    exec (e.1 x m) s = storeUnit e.2.1 e.2.2.1 e.2.2.2 x m s := by
  simp only [stores, List.forall_mem_cons, List.not_mem_nil, false_implies, implies_true, and_true]
  and_intros
  all_goals exact fun _ _ _ => rfl

theorem stores_maj : ∀ e ∈ stores, 16 ≤ e.2.1 ∧ e.2.1 ≤ 20 := by simp [stores]

theorem loadUnits : LoadUnits := by
  intro e he x m s k g r room
  rw [exec_loads e he]
  exact accessUnit_done r (by simp) (List.append_nil _) (loads_maj e he) (by omega)

/-- The single registers that a store reads: of its offset, and of a source that is no pair. -/
def storeSources (g : Group) (m : MFld) (size : Nat) : List VFld := offset m ++ if size = 8 then [] else sources g m.d size

/-- The registers of a store's pair, which its first register names. -/
def storePair (g : Group) (m : MFld) (size : Nat) : List VFld := if size = 8 then pairFields g m.d else []

/-- A store issues where its operands are ready (R33, R188). -/
theorem storing_done {maj fn size : Nat} {m : MFld} {mk : DWord → Group → Nat → List Op} (hm : 16 ≤ maj ∧ maj ≤ 20)
    (r : ReadyM s k g x (storeSources g m size) []
      ((storeSources g m size).map g.vReg ++ (if size = 8 then (pairFields g m.d).map g.vReg else []) ++ [g.sDst m.sb.val]) [])
    (room : g.counter .st ≤ 254) :
    issue (uStore maj fn size x m) (fun s k act g g1 => if !g.room .st 1 then .wait else .st (s.issueOps k g1 1 (mk act g))) s =
      .next (doneM (s.issueOps k (pastM g x (storeSources g m size)) 1 (mk (activeMask x g) g)) g x maj 1
        (storeSources g m size ++ storePair g m size)) := by
  by_cases h8 : size = 8
  · simp only [storeSources, storePair, if_pos h8, uStore, List.append_nil] at r ⊢
    exact accessUnit_done r (by simp) (by simp) hm (by omega)
  · simp only [storeSources, storePair, if_neg h8, uStore, sources, List.append_nil] at r ⊢
    exact accessUnit_done (pairs := []) r (by simp [quadFields]) (by simp [quadFields]) hm (by omega)

theorem storeUnits : StoreUnits := by
  intro e he x m s k g src r room
  rw [exec_stores e he]
  exact storing_done (stores_maj e he) r room

theorem length_range (x : Pfx) (d : VFld) : (range x d).length = Pfx.last x + 1 - d.val := by
  simp [range, Pfx.last]

theorem rangeUnits : RangeUnits := by
  intro x m s k g fs n at_
  have hn : n = Pfx.last x + 1 - m.d.val := length_range x m.d
  refine ⟨fun r room => ?ldm, fun r room => ?stm⟩ <;> rw [hn] at room ⊢
  case ldm => exact accessUnit_done (maj := 16) r (by simp) (List.append_nil _) (by decide) room
  case stm => exact accessUnit_done (maj := 17) (pairs := []) (src := offset m ++ fs) r (by simp) (by simp) (by decide) room

/-- Settles O41. -/
theorem loadAndStoreUnits : Obligations.LoadAndStoreUnits := ⟨loadUnits, storeUnits, rangeUnits⟩

/-! ### Aggregating stores and reductions (R333 to R335) -/

theorem exec_reds : ∀ e ∈ reds, ∀ x agg a b c s, exec (e.1 x agg a b c) s = redUnit e.2 x agg a b c s := by
  simp only [reds, List.forall_mem_cons, List.not_mem_nil, false_implies, implies_true, and_true]
  and_intros
  all_goals exact fun _ _ _ _ _ _ => rfl

theorem aggregatingUnits : AggregatingUnits := by
  intro x s k g room
  refine ⟨?sta, fun e he a b c r agg => ?red⟩
  case sta =>
    simp only [List.forall_mem_cons, List.not_mem_nil, false_implies, implies_true, and_true]
    exact ⟨fun m r => storing_done (size := 4) (by decide) r room, fun m r => storing_done (size := 8) (by decide) r room⟩
  case red =>
    rw [exec_reds e he]
    exact accessUnit_done (pairs := [a]) r (by simp) (by simp) (by decide) (by omega)

/-! ### Atomics (R206, R313, R316) -/

theorem exec_atomics : ∀ e ∈ atomics, ∀ x d a b c s, exec (e.1 x d a b c) s = atomUnit e.2 x d a b c s := by
  simp only [atomics, List.forall_mem_cons, List.not_mem_nil, false_implies, implies_true, and_true]
  and_intros
  all_goals exact fun _ _ _ _ _ _ => rfl

theorem atomicUnits : AtomicUnits := by
  intro e he x d a b c s k g od src r room
  rw [exec_atomics e he]
  exact accessUnit_done (src := src) (pairs := [a]) r (by simp) (by simp) (by decide) (by omega)

theorem wgmAtomicUnits : WgmAtomicUnits := by
  simp only [WgmAtomicUnits, List.forall_mem_cons, List.not_mem_nil, false_implies, implies_true, and_true]
  and_intros
  all_goals
    intro x m s k g r room
    exact accessUnit_done (maj := 20) (src := offset m ++ regs m.d _) r (by simp) (by simp) (by decide) (by omega)

/-- Settles O42. -/
theorem atomicAndAggregatingUnits : Obligations.AtomicAndAggregatingUnits := ⟨aggregatingUnits, atomicUnits, wgmAtomicUnits⟩

end

end Sys2Proof.Claims

/-! ## What the issue of a load or a store leaves alone (O28) -/

namespace Sys2Proof.Machine

variable {k : Nat} {g : Group} {s t : State}

/-- The group with other operations and recorded faults. -/
def Group.withOps (g : Group) (o : List Op) (f : List PFault) : Group := { g with ops := o, faults := f }

/-- In `t` no byte of memory, no workgroup and no group but that of key `k` differs from `s`; that one is `g` but for its operations
and its recorded faults. -/
structure IssueFrame (k : Nat) (g : Group) (s t : State) : Prop where
  mem : t.mem = s.mem
  home : t.home = s.home
  wgs : t.wgs = s.wgs
  others : ∀ j, j ≠ k → t.grp? j = s.grp? j
  own : ∃ o f, t.grp? k = some (g.withOps o f)

theorem IssueFrame.of {u : State} (h : IssueFrame k g s t) (hm : u.mem = t.mem := by rfl) (hh : u.home = t.home := by rfl)
    (hw : u.wgs = t.wgs := by rfl) (hg : u.groups = t.groups := by rfl) : IssueFrame k g s u := by
  have lookup (j : Nat) : u.grp? j = t.grp? j := congrArg (mapGet? · j) hg
  obtain ⟨o, f, own⟩ := h.own
  exact ⟨hm.trans h.mem, hh.trans h.home, hw.trans h.wgs, fun j hj => (lookup j).trans (h.others j hj), o, f, (lookup k).trans own⟩

theorem IssueFrame.ite {c : Prop} {_ : Decidable c} {u : State} (h1 : IssueFrame k g s t) (h2 : IssueFrame k g s u) :
    IssueFrame k g s (if c then t else u) := by
  split <;> assumption

theorem IssueFrame.foldl {α : Type} {f : State → α → State} {l : List α} (h : IssueFrame k g s t)
    (hf : ∀ u a, IssueFrame k g s u → IssueFrame k g s (f u a)) : IssueFrame k g s (l.foldl f t) := by
  induction l generalizing t with
  | nil => exact h
  | cons a r ih => exact ih (hf t a h)

theorem IssueFrame.setGrp {o f} (h : IssueFrame k g s t) : IssueFrame k g s (t.setGrp k (g.withOps o f)) :=
  ⟨h.mem, h.home, h.wgs, fun j hj => (State.grp?_setGrp_other _ _ hj).trans (h.others j hj), o, f, State.grp?_setGrp _ _ _⟩

theorem IssueFrame.modOp {n f} (h : IssueFrame k g s t) : IssueFrame k g s (t.modGrp k fun v => v.modOp n f) := by
  obtain ⟨o, fl, own⟩ := h.own
  refine ⟨h.mem, h.home, h.wgs, fun j hj => (State.grp?_modGrp_other _ _ hj).trans (h.others j hj), o.map fun p => if p.id = n then f p else p, fl, ?_⟩
  exact (State.grp?_modGrp ..).trans (congrArg (Option.map _) own)

/-! ### Sending (R208, R380) -/

theorem IssueFrame.flitEnergy {n p} (h : IssueFrame k g s t) : IssueFrame k g s (t.flitEnergy n p) := by
  unfold State.flitEnergy
  split
  · exact .of h
  · exact h

theorem IssueFrame.putOnRail {p avoid} (h : IssueFrame k g s t) : IssueFrame k g s (t.putOnRail p avoid).2 := by
  unfold State.putOnRail
  split
  · exact h
  · exact .of h

theorem IssueFrame.fabDrain {l} (h : IssueFrame k g s t) : IssueFrame k g s (t.fabDrain l) := by
  induction l generalizing t with
  | nil => exact h
  | cons e r ih =>
    unfold State.fabDrain
    extract_lets +onlyGivenNames p key un
    split
    · exact .of (ih h)
    · exact ih (.of (.putOnRail (.flitEnergy h)))

theorem IssueFrame.fabSend {n p} (h : IssueFrame k g s t) : IssueFrame k g s (t.fabSend n p) := .fabDrain (.of h)

theorem IssueFrame.sendParts {j key} {p : State × Op} {l : List (List LaneAcc)} (h : IssueFrame k g s p.1) :
    IssueFrame k g s (l.foldl (State.sendPart j key) p).1 := by
  induction l generalizing p with
  | nil => exact h
  | cons ls r ih => exact ih (.fabSend (.of h))

theorem IssueFrame.sendReqs {j o l} (h : IssueFrame k g s t) : IssueFrame k g s (t.sendReqs j o l).1 := by
  induction l generalizing t o with
  | nil => exact h
  | cons key r ih => exact ih (.sendParts h)

/-! ### Translation (R191, R193, R223, R226) -/

theorem IssueFrame.startWalk {x va} (h : IssueFrame k g s t) : IssueFrame k g s (t.startWalk x va) := by
  unfold State.startWalk
  split
  · exact h
  · exact .ite (.of h) (.of h)

theorem IssueFrame.useCaches {v o} (h : IssueFrame k g s t) : IssueFrame k g s (t.useCaches v o) :=
  .foldl h fun _ _ h0 => .startWalk h0

/-- A group that is not parked where a fault is taken at once takes none. -/
theorem takeParked_stays (hg : t.grp? k = some g) (hp : g.parkedToTake = false) : t.takeParked k = t := by
  simp [State.takeParked, hg, hp]

/-- The group is not parked where a fault is taken at once, so that a recorded fault waits. -/
theorem IssueFrame.recordFault {o f x} (h : IssueFrame k g s t) (hp : g.parkedToTake = false) :
    IssueFrame k g s (t.recordFault k (g.withOps o f) x) := by
  have parked : (g.withOps o (insFault x f)).parkedToTake = false := hp
  have stays : t.recordFault k (g.withOps o f) x = t.setGrp k (g.withOps o (insFault x f)) :=
    takeParked_stays (State.grp?_setGrp ..) parked
  exact stays ▸ .setGrp h

theorem isAgg_fixKind (s : State) (g : Group) (o : Op) : (s.fixKind g o).isAgg = o.isAgg := by
  unfold State.fixKind
  split
  · split
    · split <;> simp_all [Op.isAgg]
    · rfl
  · rfl

/-- An operation that goes on its way sends its remote lanes, unless it aggregates. -/
theorem IssueFrame.launchOp {o} (h : IssueFrame k g s t) (ho : o.isAgg = false) : IssueFrame k g s (t.launchOp k o) := by
  unfold State.launchOp
  split
  · exact h
  · split
    · next e => simp [Op.isAgg, e] at ho
    · exact .ite (.modOp (.sendReqs h)) h

theorem IssueFrame.addOps {l : List Op} (h : IssueFrame k g s t) (hl : ∀ o ∈ l, o.isAgg = false) (hp : g.parkedToTake = false) :
    IssueFrame k g s (t.addOps k l) := by
  induction l generalizing t with
  | nil => exact h
  | cons o r ih =>
    obtain ⟨ho, hr⟩ := List.forall_mem_cons.mp hl
    obtain ⟨q, f, own⟩ := h.own
    unfold State.addOps
    split
    · exact h
    · next v e =>
      obtain rfl : g.withOps q f = v := Option.some.inj (own.symm.trans e)
      extract_lets +onlyGivenNames later
      split
      · exact .recordFault h hp
      · exact ih (.launchOp (.setGrp h) ((isAgg_fixKind ..).trans ho)) hr
      · exact .setGrp (.of h)
      · exact .setGrp h

theorem IssueFrame.issueOps {n : Nat} {mk : Nat → List Op} (hl : ∀ o ∈ mk s.nextId, o.isAgg = false) (hp : g.parkedToTake = false) :
    IssueFrame k g s (s.issueOps k g n mk) := by
  have past : IssueFrame k g s ({ s with nextId := s.nextId + max 1 n }.setGrp k g) :=
    ⟨rfl, rfl, rfl, fun j hj => State.grp?_setGrp_other _ _ hj, g.ops, g.faults, State.grp?_setGrp _ _ _⟩
  exact .addOps (.foldl past fun _ _ h => .useCaches h) hl hp

end Sys2Proof.Machine

namespace Sys2Proof.Claims

open Sys2Proof.Machine

theorem pastM_queues (g : Group) (x : Pfx) (src : List VFld) : ∃ q, pastM g x src = { past g x.len with queues := q } := by
  unfold pastM
  split
  · exact ⟨g.queues, rfl⟩
  · obtain ⟨q, eq, -⟩ := popQs_queues g (queuesOf src).eraseDups
    exact ⟨q, congrArg (past · x.len) eq⟩

/-- A group that may issue is not parked (R67). -/
theorem parkedToTake_of_canIssue {g : Group} (h : g.canIssue = true) : g.parkedToTake = false := by
  have park : g.park = 0 := by
    simp only [Group.canIssue, Bool.and_eq_true, decide_eq_true_eq] at h
    tauto
  simp [Group.parkedToTake, park]

/-- The machine after a unit that issues accesses which do not aggregate. -/
theorem doneM_issueOps_frame {s : State} {k : Nat} {g : Group} {x : Pfx} (can : g.canIssue = true) (src all : List VFld) (maj n : Nat)
    {mk : Nat → List Op} (hl : ∀ o ∈ mk s.nextId, o.isAgg = false) :
    let t := doneM (s.issueOps k (pastM g x src) n mk) g x maj 1 all
    (∀ a, t.rdByte a = s.rdByte a) ∧ (∀ j, j ≠ k → t.grp? j = s.grp? j) ∧ t.wgs = s.wgs ∧
      ∃ q o f, t.grp? k = some { past g x.len with queues := q, ops := o, faults := f } := by
  intro t
  obtain ⟨q, eq⟩ := pastM_queues g x src
  have hp : (pastM g x src).parkedToTake = false := by
    rw [eq]
    exact parkedToTake_of_canIssue can
  have frame : IssueFrame k (pastM g x src) s (s.issueOps k (pastM g x src) n mk) := .issueOps hl hp
  obtain ⟨o, f, own⟩ := frame.own
  refine ⟨fun a => ?_, fun j hj => (State.paid_grp? ..).trans (frame.others j hj), (State.paid_wgs ..).trans frame.wgs,
    q, o, f, (State.paid_grp? ..).trans (own.trans (by rw [eq]; rfl))⟩
  exact (State.paid_rdByte ..).trans (by rw [State.rdByte, State.rdByte, frame.mem, frame.home])

/-- Settles O28. -/
theorem accessIssueFrame : Obligations.AccessIssueFrame := by
  intro x m s t k g same
  refine ⟨fun e he r room run => ?load, fun e he r room run => ?store⟩
  case load =>
    obtain rfl : _ = t := Host.Outcome.next.inj ((loadUnits e he x m s k g r room).symm.trans run)
    exact doneM_issueOps_frame r.now.can _ _ _ _ (by simp [Op.isAgg])
  case store =>
    obtain rfl : _ = t := Host.Outcome.next.inj ((storeUnits e he x m s k g r room).symm.trans run)
    exact doneM_issueOps_frame r.now.can _ _ _ _ (by simp [Op.isAgg, storeAccess])

end Sys2Proof.Claims

/-! ## Loads and stores as they are performed (O20, O21) -/

namespace Sys2Proof.Machine

/-! ### Tables and sparse memory -/

/-- Of a table's entries those whose key meets a test. -/
theorem mapGet?_filter {α : Type} (m : NMap α) (p : Nat → Bool) (n : Nat) :
    mapGet? (m.filter fun c => p c.1) n = if p n then mapGet? m n else none := by
  induction m with
  | nil => simp [mapGet?]
  | cons c r ih =>
    obtain ⟨j, v⟩ := c
    by_cases hj : j = n
    · subst hj
      by_cases hp : p j
      · simp [mapGet?, hp]
      · simp [hp, ih]
    · by_cases hp : p j
      · simp [mapGet?, hp, hj, ih]
      · simp [mapGet?, hp, hj, ih]

theorem mapGet?_eq_none_of_forall {α : Type} {m : NMap α} {n : Nat} (h : ∀ c ∈ m, c.1 ≠ n) : mapGet? m n = none := by
  induction m with
  | nil => rfl
  | cons c r ih =>
    obtain ⟨hc, hr⟩ := List.forall_mem_cons.mp h
    exact (if_neg hc).trans (ih hr)

/-- Entries written one after another, their keys rising: each is found at its key. -/
theorem memRead_foldl_memWrite {l : List Host.Cell} (hl : Rising l) {m : Mem} (hm : memWf m = true) (b : Nat) :
    memRead (l.foldl (fun m c => memWrite m c.1 c.2) m) b = (mapGet? l b).getD (memRead m b) := by
  induction l generalizing m with
  | nil => rfl
  | cons c r ih =>
    obtain ⟨a, v⟩ := c
    obtain ⟨ha, hr⟩ := List.pairwise_cons.mp hl
    rw [List.foldl_cons, ih hr (memWrite_wf hm a v)]
    by_cases hab : a = b
    · subst hab
      have none : mapGet? r a = none := mapGet?_eq_none_of_forall fun c hc e =>
        Nat.lt_irrefl a (by simpa [e] using ha c.1 (List.mem_map_of_mem hc))
      simp [mapGet?, none, memRead_memWrite_same hm]
    · simp [mapGet?, hab, memRead_memWrite_other m v (Ne.symm hab)]

/-! ### Moving lines

A home slice and the die caches move lines between them: their tables change, and a line's newer bytes are brought home. No byte has
another value afterwards (R308 to R310). -/

/-- `t` comes from `s` by moving lines: writes of the dies' and the slices' tables, the newer bytes left alone, and lines flushed. -/
inductive Moves (s : State) : State → Prop
  | refl : Moves s s
  | dies {t : State} (d : NMap Die) : Moves s t → Moves s { t with dies := d }
  | home {t : State} (h : Home) : h.dirty = t.home.dirty → Moves s t → Moves s { t with home := h }
  | flush {t : State} (line : Nat) : Moves s t → Moves s { t with
      mem := (t.home.dirty.filter fun c => c.1 / 128 = line).foldl (fun m c => memWrite m c.1 c.2) t.mem
      home := { t.home with dirty := t.home.dirty.filter fun c => c.1 / 128 ≠ line } }

variable {s t : State}

theorem Moves.homeOnly (h : Moves s t) : HomeOnly s t := by
  induction h with
  | refl => exact .refl s
  | dies d _ ih => exact .write ih
  | home v _ _ ih => exact .write ih
  | flush line _ ih => exact .write ih

/-- The newer bytes that are left are some of those there were. -/
theorem Moves.dirty (h : Moves s t) : t.home.dirty.Sublist s.home.dirty := by
  induction h with
  | refl => exact .refl _
  | dies d _ ih => exact ih
  | home v e _ ih => exact (congrArg (·.Sublist s.home.dirty) e).mpr ih
  | flush line _ ih => exact .trans List.filter_sublist ih

theorem Moves.canonical (h : Moves s t) (hs : Claims.Canonical s) : Claims.Canonical t := by
  refine ⟨?_, Rising.sublist hs.dirty h.dirty⟩
  induction h with
  | refl => exact hs.mem
  | dies d _ ih => exact ih
  | home v _ _ ih => exact ih
  | flush line _ ih => exact memWf_foldl_memWrite ih

/-- Bringing a line's newer bytes home changes the value of none. -/
theorem rdByte_flush (ht : Claims.Canonical t) (line b : Nat) : State.rdByte { t with
    mem := (t.home.dirty.filter fun c => c.1 / 128 = line).foldl (fun m c => memWrite m c.1 c.2) t.mem
    home := { t.home with dirty := t.home.dirty.filter fun c => c.1 / 128 ≠ line } } b = t.rdByte b := by
  have left := mapGet?_filter t.home.dirty (fun a => a / 128 ≠ line) b
  have moved := mapGet?_filter t.home.dirty (fun a => a / 128 = line) b
  have written := memRead_foldl_memWrite (Rising.filter (p := fun c => decide (c.1 / 128 = line)) ht.dirty) ht.mem b
  simp only [State.rdByte, left, written, moved]
  by_cases hb : b / 128 = line <;> simp [hb]

theorem Moves.rdByte (h : Moves s t) (hs : Claims.Canonical s) (b : Nat) : t.rdByte b = s.rdByte b := by
  induction h with
  | refl => rfl
  | dies d _ ih => exact ih
  | home v e _ ih => simpa only [State.rdByte, e] using ih
  | flush line ht ih => exact (rdByte_flush (ht.canonical hs) line b).trans ih

theorem Moves.ite {c : Prop} {_ : Decidable c} {u : State} (h1 : Moves s t) (h2 : Moves s u) : Moves s (if c then t else u) := by
  split <;> assumption

theorem Moves.foldl {α : Type} {f : State → α → State} {l : List α} (h : Moves s t) (hf : ∀ u a, Moves s u → Moves s (f u a)) :
    Moves s (l.foldl f t) := by
  induction l generalizing t with
  | nil => exact h
  | cons a r ih => exact ih (hf t a h)

theorem Moves.setDie {d v} (h : Moves s t) : Moves s (t.setDie d v) := .dies _ h

theorem Moves.modHome {f} (h : Moves s t) (hf : (f t.home).dirty = t.home.dirty := by rfl) : Moves s (t.modHome f) := .home _ hf h

theorem Moves.setDir {line d} (h : Moves s t) : Moves s (t.setDir line d) := .modHome h

theorem Moves.setLine {d line st} (h : Moves s t) : Moves s (t.setLine d line st) := .setDie h

theorem Moves.touchLine {d line stream} (h : Moves s t) : Moves s (t.touchLine d line stream) := .setDie h

theorem Moves.filterAdd {da rid w} (h : Moves s t) : Moves s (t.filterAdd da rid w) := .home _ rfl h

theorem Moves.filterDrop {rids} (h : Moves s t) : Moves s (t.filterDrop rids) := .modHome h

theorem Moves.homeUse {line wr} (h : Moves s t) : Moves s (t.homeUse line wr) := .home _ rfl h

theorem Moves.flushLine {line} (h : Moves s t) : Moves s (t.flushLine line) := .ite (.flush line h) (.homeUse (.flush line h))

theorem Moves.modReq {line f} (h : Moves s t) : Moves s (t.modReq line f) := .modHome h

theorem Moves.landPut {p} (h : Moves s t) : Moves s (t.landPut p) := by
  unfold State.landPut
  extract_lets +onlyGivenNames s1 s2 s3
  have h2 : Moves s s2 := .ite (.filterAdd (.homeUse (.flushLine (.modHome h)))) (.modHome h)
  exact .modReq (.ite (.setDir h2) h2)

theorem Moves.quiet {line} (h : Moves s t) : Moves s (t.quiet line) := by
  unfold State.quiet
  exact .foldl (.foldl h fun _ _ h1 => .landPut h1) fun _ _ h1 => .filterDrop (.setLine h1)

theorem Moves.recallAll {line} (h : Moves s t) : Moves s (t.recallAll line) := .setDir (.foldl (.flushLine h) fun _ _ h0 => .setLine h0)

/-- What a recall does once the line's newer bytes are home. -/
theorem Moves.recall {line writer} (h : Moves s ((t.quiet line).flushLine line)) : Moves s (t.recall line writer) := by
  unfold State.recall
  extract_lets +onlyGivenNames s0
  have h0 : Moves s s0 := h
  split
  · exact h0
  · exact .recallAll h0
  · exact .setDir (.setLine h0)
  · extract_lets +onlyGivenNames s1
    have h1 : Moves s s1 := .foldl h0 fun _ _ h2 => .setLine h2
    split
    · exact .ite (.setDir h1) (.setDir h1)
    · exact .setDir h1

theorem Moves.dirRoom {line} (h : Moves s t) : Moves s (t.dirRoom line) := by
  unfold State.dirRoom
  refine .ite h ?_
  split
  · exact .recall (.flushLine (.quiet h))
  · exact h

theorem Moves.dieRoom {d line} (h : Moves s t) : Moves s (t.dieRoom d line) := by
  unfold State.dieRoom
  extract_lets +onlyGivenNames v
  refine .ite h ?_
  extract_lets +onlyGivenNames set
  refine .ite h ?_
  extract_lets +onlyGivenNames out
  split
  · exact h
  · exact .ite (.setLine (.setDir (.homeUse (.flushLine h)))) (.setLine h)

theorem Moves.takeLine {d line st stream} (h : Moves s t) : Moves s (t.takeLine d line st stream) :=
  .ite (.touchLine (.setLine (.dieRoom h))) h

theorem Moves.getS {d line stream} (h : Moves s t) : Moves s (t.getS d line stream) := by
  unfold State.getS
  extract_lets +onlyGivenNames s0 s1 mon mine fresh
  have h0 : Moves s s0 := .quiet h
  have h1 : Moves s s1 := .homeUse (.dirRoom h0)
  have hf {u} (hu : Moves s u) : Moves s (fresh u) := .ite (.setDir (.takeLine hu)) (.setDir (.takeLine hu))
  refine .ite (.touchLine h0) ?_
  split
  · exact hf h1
  · exact hf (.recallAll h1)
  · exact .setDir (.takeLine h1)
  · exact .ite (hf (.flushLine h1)) (.setDir (.takeLine (.setLine (.flushLine h1))))

theorem Moves.getM {d line stream} (h : Moves s t) : Moves s (t.getM d line stream) := by
  unfold State.getM
  extract_lets +onlyGivenNames s0 st s1 s2
  have h0 : Moves s s0 := .quiet h
  have h1 : Moves s s1 := .dirRoom h0
  have h2 : Moves s s2 := by
    unfold s2
    split
    · exact .homeUse h1
    · exact .homeUse (.recallAll h1)
    · exact .homeUse (.foldl h1 fun _ _ hu => .setLine hu)
    · exact .ite h1 (.setLine h1)
  exact .ite (.touchLine h0) (.ite (.setDir (.takeLine (.flushLine h2))) (.setDir (.takeLine h2)))

/-! ### The request in progress for a line (R306, R308) -/

theorem Moves.lineStep {line} (h : Moves s t) : Moves s (t.lineStep line) := by
  unfold State.lineStep
  split
  · exact h
  · refine .ite h ?_
    extract_lets +onlyGivenNames mon give
    have hg {st d} : Moves s (give t st d) := .homeUse (.setDir (.modReq (.ite (.flushLine h) h)))
    refine .ite ?_ (.ite hg hg)
    split
    · exact hg
    · exact hg
    · exact .ite hg hg

theorem Moves.arriveSnoop {d line gone data} (h : Moves s t) : Moves s (t.arriveSnoop d line gone data) := .modReq h

theorem Moves.invSnoop {d line} (h : Moves s t) : Moves s (t.invSnoop d line) := by
  unfold State.invSnoop
  refine .ite h ?_
  extract_lets +onlyGivenNames s1
  have h1 : Moves s s1 := .arriveSnoop h
  split
  · exact .setLine h1
  · exact .setLine h1
  · exact .setLine h1
  · exact h1

theorem Moves.recallSnoop {d line kind after} (h : Moves s t) : Moves s (t.recallSnoop d line kind after) := by
  unfold State.recallSnoop
  refine .ite h ?_
  split
  · exact .setLine (.arriveSnoop h)
  · exact .setLine (.arriveSnoop h)
  · exact .arriveSnoop h
  · exact .setLine (.arriveSnoop h)
  · exact .setLine (.arriveSnoop h)
  · exact .arriveSnoop h

theorem Moves.answerSnoop {d line} (h : Moves s t) : Moves s (t.answerSnoop d line) := by
  unfold State.answerSnoop
  exact .lineStep (.modReq (.ite (.flushLine h) h))

theorem Moves.arriveGrant {d line} (h : Moves s t) : Moves s (t.arriveGrant d line) := by
  unfold State.arriveGrant
  split
  · split
    · exact .ite (.modHome (.takeLine h)) h
    · exact h
  · exact h

theorem Moves.settleLine {line} (h : Moves s t) : Moves s (t.settleLine line) := by
  unfold State.settleLine
  split
  · exact h
  · refine .arriveGrant (.foldl (.lineStep h) fun u n hu => .answerSnoop (.foldl ?_ fun _ _ h3 => .landPut h3))
    split
    · exact .invSnoop hu
    · exact .recallSnoop hu
    · exact .recallSnoop hu

/-! ### Writes (R190, R308, R312) -/

/-- Every byte of `t` is canonical and reads as `f` has it, or else as in `s`. -/
structure Writes (f : Nat → Option Byte) (s t : State) : Prop where
  canonical : Claims.Canonical t
  rdByte : ∀ b, t.rdByte b = (f b).getD (s.rdByte b)

theorem Writes.of_moves (hs : Claims.Canonical s) (h : Moves s t) : Writes (fun _ => none) s t := ⟨h.canonical hs, h.rdByte hs⟩

theorem Writes.of {f : Nat → Option Byte} {u : State} (h : Writes f s t) (hm : u.mem = t.mem := by rfl)
    (hd : u.home.dirty = t.home.dirty := by rfl) : Writes f s u := by
  refine ⟨⟨hm ▸ h.canonical.mem, hd ▸ h.canonical.dirty⟩, fun b => ?_⟩
  rw [← h.rdByte b, State.rdByte, State.rdByte, hm, hd]

theorem Writes.since {f : Nat → Option Byte} {r : State} (h : Writes f s t) (hm : s.mem = r.mem := by rfl)
    (hd : s.home.dirty = r.home.dirty := by rfl) : Writes f r t := by
  refine ⟨h.canonical, fun b => ?_⟩
  rw [h.rdByte b, State.rdByte, State.rdByte, hm, hd]

theorem Writes.trans {f f' : Nat → Option Byte} {u : State} (h : Writes f s t) (h' : Writes f' t u) :
    Writes (fun b => (f' b).or (f b)) s u := by
  refine ⟨h'.canonical, fun b => ?_⟩
  rw [h'.rdByte, h.rdByte]
  cases f' b <;> rfl

/-- The bytes of a run, by address. -/
def runAt (a : Nat) (bs : List Byte) (b : Nat) : Option Byte := if a ≤ b then bs[b - a]? else none

theorem runAt_cons (a : Nat) (v : Byte) (bs : List Byte) (b : Nat) :
    runAt a (v :: bs) b = (runAt (a + 1) bs b).or (if a = b then some v else none) := by
  unfold runAt
  rcases Nat.lt_trichotomy a b with h | h | h
  · obtain ⟨j, rfl⟩ : ∃ j, b = a + 1 + j := ⟨b - (a + 1), by omega⟩
    have e : a + 1 + j - a = j + 1 := by omega
    simp [e, show a ≤ a + 1 + j by omega, show a ≠ a + 1 + j by omega]
  · simp [h]
  · simp [show ¬ a ≤ b by omega, show ¬ a + 1 ≤ b by omega, show a ≠ b by omega]

theorem runAt_eq_none {a : Nat} {bs : List Byte} {b : Nat} (h : b < a ∨ a + bs.length ≤ b) : runAt a bs b = none := by
  unfold runAt
  split
  · exact List.getElem?_eq_none (by omega)
  · rfl

/-- Setting the bytes of a run one by one. -/
theorem mapGet?_foldl_mapSet (bs : List Byte) (a i : Nat) (m : NMap Byte) (b : Nat) :
    mapGet? ((bs.zipIdx i).foldl (fun m p => mapSet m (a + p.2) p.1) m) b = (runAt (a + i) bs b).or (mapGet? m b) := by
  induction bs generalizing i m with
  | nil => simp [runAt]
  | cons v r ih =>
    rw [List.zipIdx_cons, List.foldl_cons, ih, runAt_cons, mapGet?_mapSet]
    have e : a + (i + 1) = a + i + 1 := rfl
    rw [e]
    by_cases h : b = a + i
    · subst h
      simp [runAt_eq_none (a := a + i + 1) (b := a + i) (bs := r) (by omega)]
    · simp [h, Ne.symm h]

theorem Rising.foldl_mapSet {bs : List Byte} {a i : Nat} {m : NMap Byte} (h : Rising m) :
    Rising ((bs.zipIdx i).foldl (fun m p => Machine.mapSet m (a + p.2) p.1) m) := by
  induction bs generalizing i m with
  | nil => exact h
  | cons v r ih => exact ih h.mapSet

theorem flushLine_dirty (line : Nat) : (s.flushLine line).home.dirty = s.home.dirty.filter fun c => c.1 / 128 ≠ line := by
  unfold State.flushLine
  extract_lets mine s1
  split <;> rfl

theorem homeUse_dirty (line : Nat) (wr : Bool) : (s.homeUse line wr).home.dirty = s.home.dirty := rfl

/-- A recall leaves no newer byte of its line (R308). -/
theorem recall_dirty (line : Nat) (writer : Option Nat) : ∀ c ∈ (s.recall line writer).home.dirty, c.1 / 128 ≠ line := by
  intro c hc
  have left : c ∈ ((s.quiet line).flushLine line).home.dirty := (Moves.recall (writer := writer) .refl).dirty.subset hc
  rw [flushLine_dirty] at left
  simpa using List.of_mem_filter left

theorem evalMons_foldl (l : List Nat) : (l.foldl (fun t l => t.evalMons l) s).mem = s.mem ∧
    (l.foldl (fun t l => t.evalMons l) s).home.dirty = s.home.dirty := by
  induction l generalizing s with
  | nil => exact ⟨rfl, rfl⟩
  | cons a r ih => exact ih (s := s.evalMons a)

/-- The lines of a write, one after another, are at home with no newer byte anywhere. -/
def State.linesHome (s : State) (writer : Option Nat) (lines : List Nat) : State :=
  lines.foldl (fun t l => ((t.settleLine l).recall l writer).homeUse l true) s

theorem linesHome_moves (writer : Option Nat) (lines : List Nat) : Moves s (s.linesHome writer lines) :=
  .foldl .refl fun _ _ h => .homeUse (.recall (.flushLine (.quiet (.settleLine h))))

theorem linesHome_dirty (writer : Option Nat) (lines : List Nat) :
    ∀ c ∈ (s.linesHome writer lines).home.dirty, c.1 / 128 ∉ lines := by
  induction lines generalizing s with
  | nil => simp
  | cons l r ih =>
    intro c hc
    have kept : c ∈ (((s.settleLine l).recall l writer).homeUse l true).home.dirty := (linesHome_moves writer r).dirty.subset hc
    rw [homeUse_dirty] at kept
    exact List.not_mem_cons_of_ne_of_not_mem (recall_dirty l writer c kept) (ih c hc)

/-- A write at the home slices (R308). -/
theorem homeWrite_writes (hs : Claims.Canonical s) (writer : Option Nat) (a : Nat) (bs : List Byte) :
    Writes (runAt a bs) s (s.homeWrite writer a bs) := by
  unfold State.homeWrite
  extract_lets lines s1 s2
  have h1 : Moves s s1 := linesHome_moves writer lines
  have c1 : Claims.Canonical s1 := h1.canonical hs
  obtain ⟨em, ed⟩ := evalMons_foldl (s := s2) lines
  refine Writes.of (t := s2) ⟨⟨memWriteBytes_wf c1.mem a bs, c1.dirty⟩, fun b => ?_⟩ em ed
  rw [← h1.rdByte hs b]
  by_cases hb : a ≤ b ∧ b < a + bs.length
  · obtain ⟨i, rfl⟩ := Nat.exists_eq_add_of_le hb.1
    have hi : i < bs.length := by omega
    have line : (a + i) / 128 ∈ lines := by simpa [lines, spanLines] using ⟨i, hi, rfl⟩
    have none : mapGet? s1.home.dirty (a + i) = none :=
      mapGet?_eq_none_of_forall fun c hc e => linesHome_dirty writer lines c hc (e ▸ line)
    have stored : s2.rdByte (a + i) = bs[i] := by
      rw [State.rdByte, none]
      exact memRead_memWriteBytes_in c1.mem a bs hi
    simp [stored, runAt, hi]
  · rw [runAt_eq_none (by omega), State.rdByte, State.rdByte, Option.getD_none,
      memRead_memWriteBytes_other _ _ _ (by omega)]

/-- A die's store (R190, R312). -/
theorem dieWrite_writes (hs : Claims.Canonical s) (d a : Nat) (bs : List Byte) (stream : Bool) :
    Writes (runAt a bs) s (s.dieWrite d a bs stream) := by
  unfold State.dieWrite
  extract_lets line s1
  have h1 : Moves s s1 := .getM .refl
  have c1 : Claims.Canonical s1 := h1.canonical hs
  clear_value s1
  split
  · have h := homeWrite_writes c1 (some d) a bs
    exact ⟨h.canonical, fun b => (h.rdByte b).trans (by rw [h1.rdByte hs])⟩
  · refine ⟨⟨c1.mem, Rising.foldl_mapSet c1.dirty⟩, fun b => ?_⟩
    rw [← h1.rdByte hs b, State.rdByte, State.rdByte, State.modHome]
    dsimp only
    rw [mapGet?_foldl_mapSet bs a 0]
    cases runAt a bs b <;> rfl

/-! ### The stores of a unit (R188, R189) -/

/-- The byte that the last of a list of stores to device bytes leaves at an address. -/
def lastAt (l : List (Place × Byte)) (b : Nat) : Option Byte := (l.reverse.find? fun q => q.1 = .da b).map Prod.snd

theorem lastAt_append (l r : List (Place × Byte)) (b : Nat) : lastAt (l ++ r) b = (lastAt r b).or (lastAt l b) := by
  rw [lastAt, lastAt, lastAt, List.reverse_append, List.find?_append, Option.map_or]

theorem lastAt_cons (q : Place × Byte) (l : List (Place × Byte)) (b : Nat) :
    lastAt (q :: l) b = (lastAt l b).or (if q.1 = .da b then some q.2 else none) := by
  rw [← List.singleton_append, lastAt_append]
  by_cases h : q.1 = .da b <;> simp [lastAt, h]

/-- The byte that runs leave at an address, the last that holds it. -/
def runsAt : List (Nat × List Byte) → Nat → Option Byte
  | [], _ => none
  | (a, bs) :: r, b => (runsAt r b).or (runAt a bs b)

theorem runsAt_daRuns (l : List (Place × Byte)) (b : Nat) : runsAt (daRuns l) b = lastAt l b := by
  induction l with
  | nil => rfl
  | cons q r ih =>
    obtain ⟨p, v⟩ := q
    rw [lastAt_cons, ← ih]
    cases p with
    | da a =>
      have single : runAt a [v] b = if a = b then some v else none := by
        rw [runAt_cons]
        simp [runAt]
      simp only [daRuns, Place.da.injEq]
      split
      · next a1 bs t e =>
        rw [e]
        split
        · next joins =>
          have next : a1 = a + 1 := by simp at joins; exact joins.1
          simp [runsAt, runAt_cons, next, Option.or_assoc]
        · simp [runsAt, single]
      · next e => simp [e, runsAt, single]
    | _ => simp [daRuns]

theorem l1Writes_frame (l : List (Byte × Nat)) (c a : Nat) : let u := l.foldl (fun t p => t.l1Write c (a + p.2) p.1) s
    u.mem = s.mem ∧ u.home = s.home ∧ u.groups = s.groups := by
  induction l generalizing s with
  | nil => exact ⟨rfl, rfl, rfl⟩
  | cons p r ih => exact ih (s := s.l1Write c (a + p.2) p.1)

theorem storeRun_writes (hs : Claims.Canonical s) (g : Group) (mode a : Nat) (bs : List Byte) :
    Writes (runAt a bs) s (s.storeRun g mode a bs) := by
  unfold State.storeRun
  extract_lets s1
  have h1 : Writes (runAt a bs) s s1 := dieWrite_writes hs ..
  clear_value s1
  split
  · exact h1.of
  · obtain ⟨hm, hh, -⟩ := l1Writes_frame (s := s1) bs.zipIdx g.core a
    exact h1.of hm (congrArg Home.dirty hh)

theorem storeRuns_writes (hs : Claims.Canonical s) (g : Group) (mode : Nat) (l : List (Nat × List Byte)) :
    Writes (runsAt l) s (l.foldl (fun t p => t.storeRun g mode p.1 p.2) s) := by
  induction l generalizing s with
  | nil => exact ⟨hs, fun _ => rfl⟩
  | cons p r ih =>
    have h1 := storeRun_writes hs g mode p.1 p.2
    exact h1.trans (ih h1.canonical)

theorem storeLane_writes (hs : Claims.Canonical s) (g : Group) (mode : Nat) (ps : List Place) (bs : List Byte) :
    Writes (lastAt (ps.zip bs)) s (s.storeLane g mode ps bs) := by
  unfold State.storeLane
  extract_lets s1
  have c1 : Claims.Canonical s1 := ⟨hs.mem, hs.dirty⟩
  rw [← funext (runsAt_daRuns (ps.zip bs))]
  exact (storeRuns_writes c1 g mode (daRuns (ps.zip bs))).since

/-- The lanes of a store in their order, each with its bytes in theirs. -/
theorem storeLanes_writes (hs : Claims.Canonical s) (g : Group) (o : Op) :
    Writes (fun b => Claims.stored o (.da b)) s (s.storeLanes g o) := by
  have lanes (l : List LaneAcc) : Writes (lastAt (l.flatMap fun a => a.places.zip a.data)) s
      (l.foldl (fun t a => t.storeLane g o.l1 a.places a.data) s) := by
    induction l generalizing s with
    | nil => exact ⟨hs, fun _ => rfl⟩
    | cons a r ih =>
      have h1 := storeLane_writes hs g o.l1 a.places a.data
      rw [List.flatMap_cons, funext (lastAt_append _ _)]
      exact h1.trans (ih h1.canonical)
  exact lanes o.accs

theorem dieWrite_homeOnly (d a : Nat) (bs : List Byte) (stream : Bool) : HomeOnly s (s.dieWrite d a bs stream) := by
  unfold State.dieWrite
  extract_lets line s1
  have h1 : HomeOnly s s1 := (Moves.getM .refl).homeOnly
  exact .ite (.homeWrite h1) (.modHome h1)

theorem HomeOnly.groups (h : HomeOnly s t) : t.groups = s.groups := by
  obtain ⟨_, _, _, rfl⟩ := h
  rfl

theorem HomeOnly.wgs (h : HomeOnly s t) : t.wgs = s.wgs := by
  obtain ⟨_, _, _, rfl⟩ := h
  rfl

theorem storeRun_groups (g : Group) (mode a : Nat) (bs : List Byte) : (s.storeRun g mode a bs).groups = s.groups := by
  unfold State.storeRun
  extract_lets s1
  have h1 : s1.groups = s.groups := (dieWrite_homeOnly ..).groups
  clear_value s1
  split
  · exact h1
  · obtain ⟨-, -, hg⟩ := l1Writes_frame (s := s1) bs.zipIdx g.core a
    exact hg.trans h1

theorem foldl_groups {α : Type} {f : State → α → State} (hf : ∀ u a, (f u a).groups = u.groups) (l : List α) :
    (l.foldl f s).groups = s.groups := by
  induction l generalizing s with
  | nil => rfl
  | cons a r ih => exact ih.trans (hf s a)

theorem storeLane_groups (g : Group) (mode : Nat) (ps : List Place) (bs : List Byte) :
    (s.storeLane g mode ps bs).groups = s.groups := by
  unfold State.storeLane
  extract_lets s1
  have h1 : s1.groups = s.groups := rfl
  clear_value s1
  have runs (t : State) (p : Nat × List Byte) : (t.storeRun g mode p.1 p.2).groups = t.groups := storeRun_groups g mode p.1 p.2
  exact (foldl_groups runs (daRuns (ps.zip bs))).trans h1

theorem storeLanes_groups (g : Group) (o : Op) : (s.storeLanes g o).groups = s.groups := by
  have lane (t : State) (a : LaneAcc) : (t.storeLane g o.l1 a.places a.data).groups = t.groups :=
    storeLane_groups g o.l1 a.places a.data
  exact foldl_groups lane o.accs

/-! ### Lines brought for a load (R189) -/

theorem l1Fill_writes {f : Nat → Option Byte} (h : Writes f s t) (c line : Nat) : Writes f s (t.l1Fill c line) := by
  unfold State.l1Fill
  split
  · exact h
  · exact h.of

theorem l1Drop_writes {f : Nat → Option Byte} (h : Writes f s t) (c line : Nat) : Writes f s (t.l1Drop c line) := h.of

theorem prepLine_writes (hs : Claims.Canonical s) (c d mode line : Nat) : Writes (fun _ => none) s (s.prepLine c d mode line) := by
  have same : Writes (fun _ => none) s s := .of_moves hs .refl
  unfold State.prepLine
  split
  · split
    · exact same
    · exact l1Fill_writes (.of_moves hs (.getS .refl)) ..
  · exact l1Drop_writes (.of_moves hs (.getS .refl)) ..
  · split
    · exact same
    · exact .of_moves hs (.getS .refl)

theorem l1Fill_wgs (c line : Nat) : (s.l1Fill c line).wgs = s.wgs := by
  unfold State.l1Fill
  split <;> rfl

theorem l1Drop_wgs (c line : Nat) : (s.l1Drop c line).wgs = s.wgs := rfl

theorem prepLine_wgs (c d mode line : Nat) : (s.prepLine c d mode line).wgs = s.wgs := by
  have got (stream : Bool) : (s.getS d line stream).wgs = s.wgs := (Moves.getS .refl).homeOnly.wgs
  unfold State.prepLine
  split
  · split
    · rfl
    · exact (l1Fill_wgs ..).trans (got false)
  · exact (l1Drop_wgs ..).trans (got false)
  · split
    · rfl
    · exact got true

/-- The lines of a load, one after another. -/
theorem prepLines_writes (hs : Claims.Canonical s) (c d mode : Nat) (l : List Nat) :
    Writes (fun _ => none) s (l.foldl (fun t l => t.prepLine c d mode l) s) := by
  induction l generalizing s with
  | nil => exact .of_moves hs .refl
  | cons a r ih =>
    have h1 := prepLine_writes hs c d mode a
    exact h1.trans (ih h1.canonical)

theorem prepLines_wgs (c d mode : Nat) (l : List Nat) : (l.foldl (fun t l => t.prepLine c d mode l) s).wgs = s.wgs := by
  induction l generalizing s with
  | nil => rfl
  | cons a r ih => exact ih.trans (prepLine_wgs ..)

/-! ### Registers written -/

theorem writeDst_parkedToTake (g : Group) (d : Dst) (m : DWord) (f : Nat → Word) :
    (g.writeDst d m f).parkedToTake = g.parkedToTake := by
  cases d with
  | pos p =>
    simp only [Group.writeDst, Group.writePos]
    split <;> rfl
  | _ => rfl

theorem writeWords_parkedToTake (g : Group) (dst : List Dst) (ws : List (Nat × Nat × List Word)) :
    (g.writeWords dst ws).parkedToTake = g.parkedToTake := by
  unfold Group.writeWords
  induction dst.zipIdx generalizing g with
  | nil => rfl
  | cons p r ih => exact (ih _).trans (writeDst_parkedToTake ..)

end Sys2Proof.Machine

namespace Sys2Proof.Claims

open Sys2Proof.Machine

/-! ### An access that may be performed -/

section
variable {s : State} {k : Nat} {g : Group} {o : Op} (p : Performs s k g o)
include p

theorem Performs.remote : ∀ a ∈ o.accs, a.remote = none := by
  intro a ha
  unfold LaneAcc.remote
  split
  · next e => simpa using p.here a ha _ (List.mem_of_mem_head? e)
  · rfl

theorem Performs.liveOp : s.liveOp k o.id = some (g, o) := by
  have may : o.performed = false := by
    have := p.may
    simp only [Group.mayPerform, Bool.and_eq_true, Bool.not_eq_true'] at this
    exact this.1.1
  simp [State.liveOp, p.grp, p.op, p.live, may]

theorem Performs.flight : o.wait = .flight := by
  have := p.may
  simp only [Group.mayPerform, Bool.and_eq_true, beq_iff_eq] at this
  exact this.1.2

theorem Performs.unsent : o.unsent = false := by
  simp only [Op.unsent, List.any_eq_false]
  intro a ha
  simp [p.remote a ha]

theorem Performs.answered : o.answered = true := by
  simp only [Op.answered, List.all_eq_true]
  intro a ha
  simp [p.remote a ha]

theorem Performs.badLane : o.badLane = none := by
  simp only [Op.badLane, List.find?_eq_none]
  intro a ha
  simp [p.ok a ha]

theorem Performs.takeParked {t : State} {h : Group} (hg : t.grp? k = some h) (hp : h.parkedToTake = g.parkedToTake) :
    t.takeParked k = t := takeParked_stays hg (hp.trans p.park)

end

/-- Settles O20. -/
theorem loadReturns : Obligations.LoadReturns := by
  intro s k g o size sx p kind u h t
  refine ⟨?run, fun hs => ⟨fun b => ?byte, fun a i d past => ?read⟩, fun w hw a i c => ?wgm⟩
  case run =>
    have back : s.returnLoad k g o = t := by
      simp only [State.returnLoad, p.may, p.answered, p.ready, p.flush, kind, State.loadLanes, List.map_map]
      simp [t, u, h, Function.comp_def]
    have own : t.grp? k = some (h.finishOp o.id) := State.grp?_setGrp ..
    have parked : (h.finishOp o.id).parkedToTake = g.parkedToTake := writeWords_parkedToTake ..
    show Host.Outcome.next _ = _
    simp only [p.liveOp, p.flight, p.unsent, p.answered, p.badLane, kind, back]
    simp [p.takeParked own parked]
  all_goals have lines (hs : Canonical s) : Writes (fun _ => none) s u :=
    (prepLines_writes (s := s.served g o fun st => st ≠ .I) ⟨hs.mem, hs.dirty⟩ ..).since
  case byte =>
    have same : t.rdByte b = u.rdByte b := by
      simp only [t, State.setGrp_rdByte]
      split <;> rfl
    exact same.trans ((lines hs).rdByte b)
  case read => exact (if_pos past).trans ((lines hs).rdByte d)
  case wgm =>
    have there : u.wg? g.wg = some w := (congrArg (mapGet? · g.wg) (prepLines_wgs ..)).trans hw
    simp only [State.readPlace, there]

/-- Settles O21. -/
theorem storesPerformed : Obligations.StoresPerformed := by
  intro s k g o p kind room hs
  let u : State := (s.served g o fun st => st = .M || st = .E).storeLanes g o
  have lanes : Writes (fun b => stored o (.da b)) s u :=
    (storeLanes_writes (s := s.served g o fun st => st = .M || st = .E) ⟨hs.mem, hs.dirty⟩ g o).since
  have groups : u.groups = s.groups := storeLanes_groups g o
  have grp (j : Nat) : u.grp? j = s.grp? j := congrArg (mapGet? · j) groups
  let t : State := u.modGrp k fun h => h.finishOp o.id
  have own : t.grp? k = some (g.finishOp o.id) := by
    rw [State.grp?_modGrp, grp, p.grp]
    rfl
  refine ⟨t, ?run, own, fun j hj => (State.grp?_modGrp_other _ _ hj).trans (grp j), lanes.rdByte⟩
  obtain ⟨⟨-, ways⟩, routed⟩ : ((o.lines.all fun l => s.lineFree l) = true ∧ s.waysFree g.die o.lines = true) ∧
      s.linesRouted g.die o.lines = true := by simpa [State.linesReady] using p.ready
  have performed : s.performStore k g o = t := by
    have rooms : (o.lines.all fun l => s.storeRoom l) = true := List.all_eq_true.mpr room
    simp only [State.performStore, p.may, p.answered, rooms, ways, routed, p.flush]
    rfl
  show Host.Outcome.next _ = _
  simp only [p.liveOp, p.flight, p.unsent, p.answered, p.badLane, kind, performed]
  simp [p.takeParked own rfl]

end Sys2Proof.Claims

/-! ## An access is decided whole (O29) -/

namespace Sys2Proof.Machine

variable {s : State} {g : Group} {o : Op}

/-- What a lane of an operation that goes on becomes: its places, or the fault that it keeps (R191). -/
def State.decidedLane (s : State) (g : Group) (o : Op) (a : LaneAcc) : LaneAcc :=
  match s.laneRes g o a with
  | .ok ps => { a with places := ps, spots := s.laneSpots g o a }
  | .fault c v i => { a with places := [], lfault := some (c, v, i) }
  | _ => a

theorem decidedLane_ok {a : LaneAcc} {ps : List Place} (h : s.laneRes g o a = .ok ps) :
    s.decidedLane g o a = { a with places := ps, spots := s.laneSpots g o a } := by
  simp only [State.decidedLane, h]

theorem decidedLane_fault {a : LaneAcc} {c : Nat} {v i : DWord} (h : s.laneRes g o a = .fault c v i) :
    s.decidedLane g o a = { a with places := [], lfault := some (c, v, i) } := by
  simp only [State.decidedLane, h]

/-- The lanes with what each answers. -/
def State.decisions (s : State) (g : Group) (o : Op) : List (LaneAcc × LRes) := o.accs.map fun a => (a, s.laneRes g o a)

/-- The search among the lanes' answers finds none when no lane has the property. -/
theorem find?_decisions_none {q : LRes → Bool} (h : ∀ b ∈ o.accs, q (s.laneRes g o b) = false) :
    ((s.decisions g o).find? fun p => q p.2) = none := by
  rw [List.find?_eq_none]
  intro p hp
  obtain ⟨b, hb, rfl⟩ := List.mem_map.mp hp
  simp [h b hb]

/-- The search among the lanes' answers finds the first lane, in their order, that has the property. -/
theorem find?_decisions_first {q : LRes → Bool} {l r : List LaneAcc} {a : LaneAcc} (e : o.accs = l ++ a :: r)
    (before : ∀ b ∈ l, q (s.laneRes g o b) = false) (here : q (s.laneRes g o a) = true) :
    ((s.decisions g o).find? fun p => q p.2) = some (a, s.laneRes g o a) := by
  have none : ((l.map fun a => (a, s.laneRes g o a)).find? fun p => q p.2) = none :=
    find?_decisions_none (o := { o with accs := l }) before
  rw [State.decisions, e, List.map_append, List.find?_append, none]
  simp [here]

/-- Whether the lanes are performed independently, so that a fault stays with its lane (R191, LE 55). -/
def State.splits (s : State) (g : Group) (o : Op) : Bool :=
  ((s.decisions g o).any fun p => p.2.remote) && !o.isAgg

theorem splits_eq_false (h : ∀ b ∈ o.accs, (s.laneRes g o b).remote = false) : s.splits g o = false := by
  simpa [State.splits, State.decisions] using fun b hb hr => absurd hr (by simp [h b hb])

theorem splits_eq_true (agg : o.isAgg = false) (h : ∃ b ∈ o.accs, (s.laneRes g o b).remote = true) : s.splits g o = true := by
  simpa [State.splits, State.decisions, agg] using h

/-- The fault of the first faulting lane is the access's (R191). -/
theorem decideOp_fault {a : LaneAcc} {c : Nat} {v i : DWord} (whole : s.splits g o = false)
    (find : ((s.decisions g o).find? fun p => p.2.isFault) = some (a, .fault c v i)) :
    s.decideOp g o = .fault { cause := c, deferred := true, a := v, pc := o.pc, i := i } := by
  unfold State.decideOp
  extract_lets rs split
  have hs : split = false := whole
  have hf : (rs.find? fun p => p.2.isFault) = some (a, .fault c v i) := find
  rw [hs, hf]

/-- The first lane that misses holds the access when no lane faults (R191). -/
theorem decideOp_miss {a : LaneAcc} {ob sub va : Nat}
    (sound : ((s.decisions g o).find? fun p => p.2.isFault) = none)
    (find : ((s.decisions g o).find? fun p => p.2.waits) = some (a, .miss ob sub va)) :
    s.decideOp g o = .miss (s.partly g o) ob sub va := by
  unfold State.decideOp
  extract_lets rs split
  have hs : (rs.find? fun p => p.2.isFault) = none := sound
  have hw : (rs.find? fun p => p.2.waits) = some (a, .miss ob sub va) := find
  rw [hs, hw]
  cases split <;> rfl

/-- An access of which no lane waits goes on when no lane faults, or when its lanes are performed independently. -/
theorem decideOp_goesOn (waits : ∀ b ∈ o.accs, (s.laneRes g o b).waits = false)
    (faults : s.splits g o = true ∨ ∀ b ∈ o.accs, (s.laneRes g o b).isFault = false) :
    s.decideOp g o = .ok (o.accs.map (s.decidedLane g o)) := by
  unfold State.decideOp
  extract_lets rs split
  have hw : (rs.find? fun p => p.2.waits) = none := find?_decisions_none waits
  rw [hw]
  rcases faults with independent | sound
  · have hs : split = true := independent
    rw [hs]
    exact congrArg Dec.ok List.map_map
  · have hf : (rs.find? fun p => p.2.isFault) = none := find?_decisions_none sound
    rw [hf]
    cases split <;> exact congrArg Dec.ok List.map_map

theorem isFault_of_fault {r : LRes} {c : Nat} {v i : DWord} (h : r = .fault c v i) : r.isFault = true := by rw [h]; rfl

theorem waits_of_miss {r : LRes} {ob sub va : Nat} (h : r = .miss ob sub va) : r.waits = true := by rw [h]; rfl

/-! ### One lane (R185, R186, R205) -/

/-- A fault of the load-store unit names its lane, unless the unit moves a range of registers (R193). -/
theorem laneFault_single (single : o.multi = none) (a : LaneAcc) (cause : Nat) :
    o.laneFault a cause = .fault cause a.va (BitVec.ofNat 64 a.lane) := by
  simp only [Op.laneFault, single]

theorem wgmSize_of_wg {w : Workgroup} {n : Nat} (h : s.wg? n = some w) : s.wgmSize n = w.wgmw * 32768 := by
  simp only [State.wgmSize, h]
  rfl

theorem resolve_misaligned {a : LaneAcc} (maj : o.maj ≠ 21) (h : a.va.toNat % o.align ≠ 0) :
    s.resolve g o a = o.laneFault a 4 := by
  unfold State.resolve
  rw [if_neg maj, if_pos h]

/-- Major 20 goes the workgroup memory's way (R205). -/
theorem resolve_wgm {a : LaneAcc} (maj : o.maj = 20) (h : a.va.toNat % o.align = 0) :
    s.resolve g o a = if s.wgmSize g.wg < a.va.toNat + o.size then o.laneFault a 7
      else .ok ((List.range o.size).map fun i => .wgm (a.va.toNat + i)) := by
  unfold State.resolve
  rw [if_neg (by omega), if_neg (by omega), if_pos maj]

/-- The atomics and reductions have no window (R186). -/
theorem resolve_atomic_window {a : LaneAcc} (maj : o.maj = 18 ∨ o.maj = 19) (h : a.va.toNat % o.align = 0)
    (low : 0xF000000000000 ≤ a.va.toNat) (high : a.va.toNat < 0xF200000000000) : s.resolve g o a = o.laneFault a 5 := by
  have window : o.noWindow = true := by rcases maj with m | m <;> simp [Op.noWindow, m]
  unfold State.resolve
  rw [if_neg (by omega), if_neg (by omega), if_neg (by omega), if_pos ⟨low, high⟩, if_pos window]

end Sys2Proof.Machine

namespace Sys2Proof.Claims

open Sys2Proof.Machine

/-- Settles O29: the first lane that faults decides, a miss counts only without one, else each lane takes its places. -/
theorem accessDecision : Obligations.AccessDecision := by
  intro s g o taken res
  have quiet {r : LRes} (h : ∃ ps, r = .ok ps) : r.waits = false ∧ r.isFault = false := by
    obtain ⟨ps, rfl⟩ := h
    exact ⟨rfl, rfl⟩
  refine ⟨fun a => ⟨fun h => ?_, fun c v i h => ?_⟩, fun ok => ?_, fun l a r c v i e before fault near => ?_,
    fun i hi c v x fault agg far waits => ?_, fun l a r ob sub va e sound before miss => ?_, fun a single maj => ⟨?_, ?_, ?_⟩⟩
  · show s.laneRes g o a = _
    simp only [State.laneRes, h]
  · show s.laneRes g o a = _
    simp only [State.laneRes, h]
  · refine ⟨_, decideOp_goesOn (fun b hb => (quiet (ok b hb)).1) (.inr fun b hb => (quiet (ok b hb)).2), by simp, fun i hi => ?_⟩
    obtain ⟨ps, hps⟩ := ok _ (List.getElem_mem hi)
    exact ⟨ps, hps, by simp [List.getElem?_eq_getElem hi, decidedLane_ok hps, taken]⟩
  · have first := find?_decisions_first e before (isFault_of_fault fault)
    exact decideOp_fault (splits_eq_false near) (first.trans (by rw [← fault]))
  · exact ⟨_, decideOp_goesOn waits (.inl (splits_eq_true agg far)), by
      simp [List.getElem?_eq_getElem hi, decidedLane_fault fault]⟩
  · have first := find?_decisions_first e before (waits_of_miss miss)
    exact decideOp_miss (find?_decisions_none sound) (first.trans (by rw [← miss]))
  · exact fun h => (resolve_misaligned maj h).trans (laneFault_single single a 4)
  · intro h wgm w hw
    rw [resolve_wgm wgm h, wgmSize_of_wg hw]
    exact ⟨fun beyond => (if_pos beyond).trans (laneFault_single single a 7), fun within => if_neg (by omega)⟩
  · exact fun h atomic low high => (resolve_atomic_window atomic h low high).trans (laneFault_single single a 5)

end Sys2Proof.Claims

/-! ## Retries and releases (O22) -/

namespace Sys2Proof.Machine

variable {s : State} {k : Nat} {g : Group} {o : Op}

/-- Of two puts at one key the later stands. -/
theorem mapSet_mapSet {α : Type} (m : NMap α) (n : Nat) (v w : α) : mapSet (mapSet m n v) n w = mapSet m n w := by
  induction m with
  | nil => simp [mapSet]
  | cons e r ih =>
    obtain ⟨j, x⟩ := e
    by_cases lt : n < j
    · simp [mapSet, lt]
    · by_cases eq : n = j
      · simp [mapSet, eq]
      · simp [mapSet, lt, eq, ih]

theorem modGrp_setGrp (t : State) (k : Nat) (h : Group) (f : Group → Group) : (t.setGrp k h).modGrp k f = t.setGrp k (f h) := by
  simp only [State.setGrp, State.modGrp, mapMod, mapGet?_mapSet_same, mapSet_mapSet]

theorem liveOp_of (hg : s.grp? k = some g) (ho : g.op? o.id = some o) (live : s.live g = true) (open' : o.performed = false) :
    s.liveOp k o.id = some (g, o) := by
  simp [State.liveOp, hg, ho, live, open']

theorem fixKind_accs (s : State) (g : Group) (o : Op) : (s.fixKind g o).accs = o.accs := by
  unfold State.fixKind
  repeat' split
  all_goals rfl

theorem fixKind_id (s : State) (g : Group) (o : Op) : (s.fixKind g o).id = o.id := by
  unfold State.fixKind
  repeat' split
  all_goals rfl

/-- An operation all of whose lanes are on this device sends nothing. -/
theorem launchOp_stays {t : State} (agg : o.isAgg = false) (here : ∀ a ∈ o.accs, a.remote = none) : t.launchOp k o = t := by
  have none : o.unsent = false := by
    simp only [Op.unsent, List.any_eq_false]
    intro a ha
    simp [here a ha]
  unfold State.launchOp
  split
  · rfl
  · split
    · next e => simp [Op.isAgg, e] at agg
    · simp [Group.maySend, none]

/-- A translation again names no later operation of its unit when there is none. -/
theorem again_stays {h : Group} (last : ∀ p ∈ h.ops, p.unit = o.unit → p.id ≤ o.id) :
    { h with ops := h.ops.map fun p => if p.unit = o.unit && o.id < p.id && p.wait ≠ .flight then { p with again := 1 } else p } = h := by
  have same (p : Op) (hp : p ∈ h.ops) :
      (if p.unit = o.unit && o.id < p.id && p.wait ≠ .flight then { p with again := 1 } else p) = p := by
    refine if_neg fun c => ?_
    simp only [Bool.and_eq_true, decide_eq_true_eq] at c
    have := last p hp c.1.1
    omega
  rw [List.map_congr_left same, List.map_id']

/-- A retry whose service has not failed is decided anew (R196). -/
theorem retryOp_fault {t : Trap} (failed : o.failed = none) (d : s.decideOp g o = .fault t) :
    s.retryOp k g o = s.recordFault k (g.endUnit o) { id := o.id, unit := o.unit, trap := t, targets := g.targetsOf o } := by
  simp only [State.retryOp, failed, d]

/-- A retry that is translated is on its way, when it is the last of its unit and all of it is on this device. -/
theorem retryOp_goesOn {accs : List LaneAcc} (failed : o.failed = none) (d : s.decideOp g o = .ok accs) (agg : o.isAgg = false)
    (here : ∀ a ∈ accs, a.remote = none) (last : ∀ p ∈ g.ops, p.unit = o.unit → p.id ≤ o.id) :
    s.retryOp k g o = (s.useCaches g o).setGrp k (g.modOp o.id fun _ =>
      s.fixKind g { o with accs := accs, wait := .flight, again := 0, keeps := [] }) := by
  let o1 : Op := s.fixKind g { o with accs := accs, wait := .flight, again := 0, keeps := [] }
  have launched (t : State) : t.launchOp k o1 = t :=
    launchOp_stays ((isAgg_fixKind ..).trans agg) (by rw [fixKind_accs]; exact here)
  have lastOf : ∀ p ∈ (g.modOp o.id fun _ => o1).ops, p.unit = o.unit → p.id ≤ o.id := by
    intro p hp
    obtain ⟨q, hq, rfl⟩ := List.mem_map.mp hp
    split
    · exact fun _ => (fixKind_id ..).le
    · exact last q hq
  have retried : s.retryOp k g o = (((s.useCaches g o).setGrp k (g.modOp o.id fun _ => o1)).launchOp k o1).modGrp k fun h =>
      { h with ops := h.ops.map fun p => if p.unit = o.unit && o.id < p.id && p.wait ≠ .flight then { p with again := 1 } else p } := by
    simp only [State.retryOp, failed, d, o1]
  rw [retried, launched, modGrp_setGrp, again_stays lastOf]

end Sys2Proof.Machine

namespace Sys2Proof.Claims

open Sys2Proof.Machine

theorem exec_waitingTableRetry {s : State} {k : Nat} {g : Group} {o : Op} (hl : s.liveOp k o.id = some (g, o)) (wait : o.wait ≠ .flight)
    (again : o.again = 1) (first : g.againBefore o = false) (kind : (∃ n sx, o.kind = .load n sx) ∨ o.kind = .store) :
    exec (.waitingTableRetry k o.id) s = .next (s.retryOp k g o) := by
  show Host.Outcome.next _ = _
  simp only [hl, wait, again, first]
  rcases kind with ⟨n, sx, e⟩ | e <;> simp [e]

/-- Settles O22: the retry is decided anew; a finished release lets its arrival count. -/
theorem retriesAndReleases : Obligations.RetriesAndReleases := by
  intro s k g o hg ho
  refine ⟨fun live open' wait again first kind last => ?retry, fun w b kind earlier hw hb => ?release⟩
  case retry =>
    have run := exec_waitingTableRetry (liveOp_of hg ho live open') wait again first kind
    have failed : o.failed = none := by simp [Op.failed, again]
    have agg : o.isAgg = false := by rcases kind with ⟨n, sx, e⟩ | e <;> simp [Op.isAgg, e]
    exact ⟨fun accs d here => run.trans (congrArg _ (retryOp_goesOn failed d agg here last)),
      fun t d => run.trans (congrArg _ (retryOp_fault failed d))⟩
  case release =>
    have wg : (s.setGrp k (g.finishOp o.id)).wg? g.wg = some w := hw
    show Host.Outcome.next _ = _
    simp [hg, ho, kind, earlier, wg, hb]

end Sys2Proof.Claims

/-! ## Waits, fences and the units of the caches (O43) -/

namespace Sys2Proof.Claims

open Sys2Proof.Machine

section
variable {s t : State} {k : Nat} {g : Group} {eff str : Effect} {fn d a b : Nat} {sr sw : List Nat} {x y : Bool}

theorem u22_reads : ({ u22 fn d a b with sr := sr, sw := sw, fp := x, str := y } : Uop).reads g = sr.map g.sDst := by
  simp [Uop.reads, u22, Pfx.none]

theorem u22_writes : ({ u22 fn d a b with sr := sr, sw := sw, fp := x, str := y } : Uop).writes g = sw.map g.sDst := by
  simp [Uop.writes, u22]

/-- A fence takes its effect where nothing is to be taken (R104). -/
theorem fenceUnit_done (r : Ready s k g) (c : Clear s g)
    (he : eff s k (activeMask Pfx.none g) g (past g 1) = .st t ∨
      ∃ h, eff s k (activeMask Pfx.none g) g (past g 1) = .grp h ∧ t = s.setGrp k h) :
    issue2 { u22 fn d a b with fp := true, str := true } eff str s = .next (finished t g 22) :=
  issue2_plain r _ u22_reads u22_writes rfl rfl (fun _ => c) (by decide : 22 ≤ 22) nofun nofun rfl rfl rfl rfl rfl he

theorem fenceUnit_wait (r : Ready s k g) (c : Clear s g) (he : eff s k (activeMask Pfx.none g) g (past g 1) = .wait) :
    issue2 { u22 fn d a b with fp := true, str := true } eff str s = .next s.stall :=
  issue2_wait r _ u22_reads u22_writes rfl rfl (fun _ => c) (by decide : 22 ≤ 22) nofun nofun rfl rfl rfl he

/-- A unit of the caches takes its effect where its registers are at rest. -/
theorem cacheUnit_done (r : ReadyS s k g (sr.map g.sDst) (sw.map g.sDst)) (he : eff s k (activeMask Pfx.none g) g (past g 1) = .st t) :
    issue2 { u22 fn d a b with sr := sr, sw := sw, str := y } eff str s = .next (finished t g 22) :=
  issue2_plain r.now _ (u22_reads (x := false)) (u22_writes (x := false)) r.quiet.pend r.quiet.kept
    (faultPoint_quiet rfl (u22_reads (x := false)) (u22_writes (x := false)) r.quiet) (by decide : 22 ≤ 22) nofun nofun rfl rfl rfl rfl rfl
    (.inl he)

end

theorem openOps_any {g : Group} (p : Op → Bool) : (openOps g).any p = g.ops.any fun o => !o.performed && p o := by
  simp [openOps, List.any_filter]

theorem any_eq_false_of_all {l : List Op} {p : Op → Bool} (h : (l.all fun o => !p o) = true) : l.any p = false := by
  simpa using h

/-! ### Fences (R329, R330, R339) -/

theorem passOrAgg_quiet {s t : State} {k : Nat} {g : Group} (agg : g.agg = false) (peer : g.peerP = false) :
    passOrAgg s k g t = .st t := by
  simp [passOrAgg, State.aggTrap, agg, peer]

section
variable {s : State} {k : Nat} {g : Group} (r : Ready s k g) (c : Clear s g)
include r c

theorem fence_done (kind scope : Fin 4) (acq : kind.val % 2 = 1 → (openOps g).any Op.returns = false)
    (rel : 2 ≤ kind.val → (openOps g).any Op.isAcc = false)
    (wide : 2 ≤ kind.val → 1 ≤ scope.val → (openOps g).any Op.isAgg = false ∧ g.dirtyMask = 0)
    (agg : g.agg = false) (peer : g.peerP = false) :
    exec (.fence kind scope) s = .next (finished (if kind.val % 2 = 1 ∧ 1 ≤ scope.val then (s.setGrp k (past g 1)).l1Clear g.core
      else s.setGrp k (past g 1)) g 22) := by
  have accesses : ((kind.val % 2 = 1 && (openOps g).any Op.returns) || (2 ≤ kind.val && (openOps g).any Op.isAcc)) = false := by
    simp only [Bool.or_eq_false_iff, Bool.and_eq_false_imp, decide_eq_true_eq]
    exact ⟨acq, rel⟩
  have aggs : (2 ≤ kind.val && 1 ≤ scope.val && (openOps g).any Op.isAgg) = false := by
    simp only [Bool.and_eq_false_imp, Bool.and_eq_true, decide_eq_true_eq]
    exact fun h => (wide h.1 h.2).1
  have buffers : (2 ≤ kind.val && 1 ≤ scope.val && g.dirtyMask ≠ 0) = false := by
    simp only [Bool.and_eq_false_imp, Bool.and_eq_true, decide_eq_true_eq, decide_eq_false_iff_not, not_not]
    exact fun h => (wide h.1 h.2).2
  refine fenceUnit_done r c (.inl ?_)
  refine (if_neg (Bool.eq_false_iff.mp accesses)).trans ((if_neg (Bool.eq_false_iff.mp aggs)).trans
    ((if_neg (Bool.eq_false_iff.mp buffers)).trans ?_))
  rw [passOrAgg_quiet agg peer]
  simp only [Bool.and_eq_true, decide_eq_true_eq]

theorem fence_wait (kind scope : Fin 4) (open' : (kind.val % 2 = 1 ∧ (openOps g).any Op.returns = true) ∨
    (2 ≤ kind.val ∧ (openOps g).any Op.isAcc = true)) : exec (.fence kind scope) s = .next s.stall := by
  have accesses : ((kind.val % 2 = 1 && (openOps g).any Op.returns) || (2 ≤ kind.val && (openOps g).any Op.isAcc)) = true := by
    simpa using open'
  exact fenceUnit_wait r c (if_pos accesses)

theorem fla_done (clean : g.dirtyMask = 0) (aggs : (openOps g).any Op.isAgg = false) (agg : g.agg = false) (peer : g.peerP = false) :
    exec .fla s = .next (finished (s.setGrp k { past g 1 with flaWait := false }) g 22) := by
  rw [openOps_any] at aggs
  refine fenceUnit_done r c (.inl ?_)
  exact (if_neg (not_not.mpr clean)).trans ((if_neg (Bool.eq_false_iff.mp aggs)).trans (passOrAgg_quiet agg peer))

theorem pfence_done (p t : Fin 16) (idle : openOps g = []) (mx : g.mxq = []) (copies : ∀ w, Of s g w → g.cpn ≤ w.ctl) :
    exec (.pfence p t) s = .next (finished (s.setGrp k (past g 1)) g 22) := by
  have idle' : (g.ops.filter fun o => !o.performed && o.isAcc) = [] := by
    simp only [openOps, List.filter_eq_nil_iff, Bool.and_eq_true, not_and] at idle ⊢
    exact fun o ho h => absurd h (idle o ho)
  have reads : (match s.wg? g.wg with | some w => decide (g.cpn ≤ w.ctl) | none => true) = true := by
    split
    · next w e => exact decide_eq_true (copies w e)
    · rfl
  refine fenceUnit_done r c (.inr ⟨_, ?_, rfl⟩)
  simp only [idle', mx]
  exact if_pos (by simpa using .inr reads)

end

/-! ### Waits on counters (R200, R201) -/

section
variable {s : State} {k : Nat} {g : Group} (r : Ready s k g) (c : Clear s g)
include r c

theorem wait_done_iff (ld st tl mx : Fin 32) :
    let met := (ld.val = 31 ∨ g.counter .ld ≤ ld.val) ∧ (st.val = 31 ∨ g.counter .st ≤ st.val) ∧
      (tl.val = 31 ∨ g.counter .tl ≤ tl.val) ∧ (mx.val = 31 ∨ g.counter .mx ≤ mx.val)
    (met → exec (.wait ld st tl mx) s = .next (finished (s.setGrp k (past g 1)) g 28)) ∧
      (¬ met → exec (.wait ld st tl mx) s = .next s.stall) := by
  intro met
  have test : ((ld.val = 31 || g.counter .ld ≤ ld.val) && (st.val = 31 || g.counter .st ≤ st.val) &&
      (tl.val = 31 || g.counter .tl ≤ tl.val) && (mx.val = 31 || g.counter .mx ≤ mx.val)) = true ↔ met := by
    simp [met, and_assoc]
  refine ⟨fun h => ?_, fun h => ?_⟩
  · exact issue2_plain (rd := []) (wr := []) r _ rfl rfl rfl rfl (fun _ => c) (by decide : 22 ≤ 28) nofun nofun rfl rfl rfl rfl rfl
      (.inr ⟨_, if_pos (test.mpr h), rfl⟩)
  · exact issue2_wait (rd := []) (wr := []) r _ rfl rfl rfl rfl (fun _ => c) (by decide : 22 ≤ 28) nofun nofun rfl rfl rfl
      (if_neg (mt test.mp h))

theorem waitr_done (hi : g.inH = false) (p : Fin 4) (a : SReg) (pend : dstMeet [g.sDst a.val] g.pending = false) :
    (g.counter (ctrOf p.val) ≤ (g.readS a.val).toNat →
      exec (.waitr p a) s = .next (finished (s.setGrp k (past g 1)) g 25)) ∧
    ((g.readS a.val).toNat < g.counter (ctrOf p.val) → exec (.waitr p a) s = .next s.stall) := by
  refine ⟨fun h => ?_, fun h => ?_⟩
  · exact issue2_plain (rd := [g.sDst a.val]) (wr := []) r _ rfl rfl pend rfl (fun _ => c) (by decide : 22 ≤ 25) (fun _ => hi) nofun
      rfl rfl rfl rfl rfl (.inr ⟨_, if_pos h, rfl⟩)
  · exact issue2_wait (rd := [g.sDst a.val]) (wr := []) r _ rfl rfl pend rfl (fun _ => c) (by decide : 22 ≤ 25) (fun _ => hi) nofun
      rfl rfl rfl (if_neg (by omega))

end

theorem waitsAndFences : WaitsAndFences := by
  intro s k g r c
  refine ⟨fun kind scope => ⟨fun ⟨loads, accesses, wide, agg, peer⟩ => ?fence, fence_wait r c kind scope⟩,
    fun clean aggs => fla_done r c clean (any_eq_false_of_all aggs), fun p t => pfence_done r c p t,
    wait_done_iff r c, fun p a hi pend => waitr_done r c hi p a pend⟩
  case fence =>
    exact fence_done r c kind scope (fun h => any_eq_false_of_all (loads h)) (fun h => any_eq_false_of_all (accesses h))
      (fun h h1 => (wide h h1).imp_left any_eq_false_of_all) agg peer

/-! ### The units of the caches (R202 to R204) -/

/-- `pref` of a line that may be brought, with what its context is charged for one that its die lacks (R412). -/
theorem pref_done {s t : State} {k : Nat} {g : Group} {a : SReg} {d : Nat} (l : Fin 2) (r : ReadyS s k g [g.sDst a.val] [])
    (at' : s.daOf g 1 (g.readS a.val) = some d) (ready : s.linesReady g [d / 128] = true)
    (brought : let go := s.setGrp k (past g 1)
      let paid := if s.lineOf g.die (d / 128) = .I then go.energy g.ctx 110000 else go
      (if l.val = 0 then (paid.getS g.die (d / 128)).l1Fill g.core (d / 128) else paid.getS g.die (d / 128)) = t) :
    exec (.pref a l) s = .next (finished t g 22) := by
  subst brought
  refine cacheUnit_done (sr := [a.val]) (sw := []) r ?_
  simp only [at', if_pos ready]

theorem cacheUnits : CacheUnits := by
  intro s k g a go
  refine ⟨fun r => ⟨fun zero => ?all, fun d at' nonzero => ⟨?line, fun own free => ?home, fun other => ?clean⟩⟩,
    fun r d at' ready => ⟨?both, ?die⟩, fun r nowhere nonzero => ⟨?noLine, ?noHome⟩, fun d r room => ?size⟩
  case all => exact cacheUnit_done (sr := [a.val]) (sw := []) r (if_pos zero)
  case line =>
    refine cacheUnit_done (sr := [a.val]) (sw := []) r ((if_neg nonzero).trans ?_)
    rw [at']
  case home =>
    refine cacheUnit_done (sr := [a.val]) (sw := []) r ?_
    simp only [at']
    exact if_pos own
  case clean =>
    refine cacheUnit_done (sr := [a.val]) (sw := []) r ?_
    simp only [at']
    exact if_neg other
  case both => exact pref_done 0 r at' ready (if_pos rfl)
  case die => exact pref_done 1 r at' ready (if_neg (by decide))
  case noLine =>
    refine cacheUnit_done (sr := [a.val]) (sw := []) r ((if_neg nonzero).trans ?_)
    rw [nowhere]
  case noHome =>
    refine cacheUnit_done (sr := [a.val]) (sw := []) r ?_
    simp only [nowhere, go]
  case size =>
    have free : g.room .ld 1 = true := room_of_le room
    refine cacheUnit_done (sr := [a.val]) (sw := [d.val]) (y := false) r ?_
    exact if_neg (by simp [free])

/-- Settles O43. -/
theorem fenceAndCacheUnits : Obligations.FenceAndCacheUnits := ⟨waitsAndFences, cacheUnits⟩

end Sys2Proof.Claims

/-! ## The fabric's packets and the accesses of peers (O19) -/

namespace Sys2Proof.Machine

variable {s : State} {p : Nat} {q : FabPkt}

/-! ### A packet arrives (R370, R379, R380) -/

/-- How far a packet is ahead of the one that is next in its (SRC, CLS). -/
def State.aheadOf (s : State) (q : FabPkt) : Nat := (q.seq + 2 ^ 32 - mapGet s.fab.rxSeq (fabKey q.src q.cls) 0) % 2 ^ 32

/-- The packets of its (SRC, CLS) that are held for their order. -/
def State.heldFor (s : State) (q : FabPkt) : List FabPkt := mapGet s.fab.reorder (fabKey q.src q.cls) []

theorem pktArrive_elsewhere (h : q.dst ≠ s.fab.dev) : s.pktArrive p q = s := if_pos h

theorem pktArrive_unknown (h : q.dst = s.fab.dev) (type : 9 ≤ q.type) : s.pktArrive p q = s.count 5 := by
  unfold State.pktArrive
  rw [if_neg (not_not.mpr h), if_pos type]

theorem pktArrive_ack (h : q.dst = s.fab.dev) (type : q.type = 8) : s.pktArrive p q = s.fabAcked q.src q.cls q.seq := by
  unfold State.pktArrive
  rw [if_neg (not_not.mpr h), if_neg (by omega), if_pos type]

/-- Whether a packet is the replay of a store that port `p` released early (R370). -/
def State.isReplay (s : State) (p : Nat) (q : FabPkt) : Bool := q.type = 1 && (s.port p).again.contains (q.src, q.cls, q.seq)

theorem isReplay_eq_false (h : q.type ≠ 1 ∨ (s.port p).again.contains (q.src, q.cls, q.seq) = false) : s.isReplay p q = false := by
  rcases h with type | new
  · simp [State.isReplay, type]
  · simp only [State.isReplay, new, Bool.and_false]

/-- The machine that no longer waits at port `p` for the replay of a packet. -/
def State.withoutReplay (s : State) (p : Nat) (q : FabPkt) : State :=
  s.setPort p { s.port p with again := (s.port p).again.erase (q.src, q.cls, q.seq) }

/-- The machine that holds a packet for its order, from machine `t` on. -/
def State.heldBy (s t : State) (q : FabPkt) : State :=
  { t with fab := { t.fab with reorder := mapSet t.fab.reorder (fabKey q.src q.cls) (s.heldFor q ++ [q]) } }

section
variable (here : q.dst = s.fab.dev) (type : q.type ≤ 7)
include here type

/-- A packet with an effect is next in its order, ahead of it within the window, or behind it. -/
theorem pktArrive_cases : s.pktArrive p q =
    if s.aheadOf q = 0 then State.deliverFrom 4097 s q
    else if s.aheadOf q < 4096 then
      if ((s.heldFor q).any fun x => x.seq = q.seq) && !s.isReplay p q then s
      else s.heldBy (if (s.port p).again.contains (q.src, q.cls, q.seq) then s.withoutReplay p q else s) q
    else if s.isReplay p q then ((s.withoutReplay p q).pktEffect (replayOf q)).ackPkt q
    else s.ackPkt q := by
  unfold State.pktArrive
  rw [if_neg (not_not.mpr here), if_neg (by omega), if_neg (by omega)]
  rfl

theorem pktArrive_duplicate (ahead : 1 ≤ s.aheadOf q) (near : s.aheadOf q < 4096) (dup : ((s.heldFor q).any fun x => x.seq = q.seq) = true)
    (once : s.isReplay p q = false) : s.pktArrive p q = s := by
  rw [pktArrive_cases here type, if_neg (by omega), if_pos near, if_pos (by simp [dup, once])]

theorem pktArrive_early (ahead : 1 ≤ s.aheadOf q) (near : s.aheadOf q < 4096) (new : ((s.heldFor q).any fun x => x.seq = q.seq) = false)
    (once : (s.port p).again.contains (q.src, q.cls, q.seq) = false) : s.pktArrive p q = s.heldBy s q := by
  rw [pktArrive_cases here type, if_neg (by omega), if_pos near, new, once]
  rfl

theorem pktArrive_late (far : 4096 ≤ s.aheadOf q) (once : s.isReplay p q = false) : s.pktArrive p q = s.ackPkt q := by
  rw [pktArrive_cases here type, if_neg (by omega), if_neg (by omega), once]
  rfl

theorem pktArrive_replay (far : 4096 ≤ s.aheadOf q) (again : s.isReplay p q = true) :
    s.pktArrive p q = ((s.withoutReplay p q).pktEffect (replayOf q)).ackPkt q := by
  rw [pktArrive_cases here type, if_neg (by omega), if_neg (by omega), if_pos again]

end

/-- The packet that is next, nothing being held behind it: its effect, then that of the replay that was held with it. -/
theorem pktArrive_inOrder (here : q.dst = s.fab.dev) (type : q.type ≤ 7) (next : s.aheadOf q = 0)
    (last : ((s.heldFor q).any fun x => x.seq = (q.seq + 1) % 2 ^ 32) = false) {l : List FabPkt}
    (twice : ((s.heldFor q).filter fun x => x.seq = q.seq) = l) :
    s.pktArrive p q =
      l.foldl (fun t x => (t.pktEffect (replayOf x)).ackPkt x) (((Claims.nextInOrder s q).pktEffect q).ackPkt q) := by
  have behind : ((s.heldFor q).filter fun x => x.seq = (q.seq + 1) % 2 ^ 32) = [] := by simpa using last
  subst twice
  rw [pktArrive_cases here type, if_pos next]
  unfold State.deliverFrom
  extract_lets k m held twice left s1 s2
  have none : (held.filter fun x => x.seq = m) = [] := behind
  rw [none]
  rfl

end Sys2Proof.Machine

namespace Sys2Proof.Machine

variable {s : State} {r : RemoteReq}

/-! ### An access of a peer (R230) -/

theorem remoteAnswer_last (kind : r.kind ≠ .cumulus) (t : State) (cause why obj : Nat) (data : List Byte) :
    t.remoteAnswer r cause why obj true data = Claims.response t r cause why obj data := by
  unfold State.remoteAnswer
  rw [if_neg (by simp [kind])]
  rfl

theorem remoteDo_fault {c w o : Nat} (h : s.remoteXl r = .fault c w o) : s.remoteDo r = .fault c w o := by
  unfold State.remoteDo
  rw [h]

theorem remoteDo_miss {ob sub va : Nat} (h : s.remoteXl r = .miss ob sub va) :
    s.remoteDo r = .wait (s.parkOn (.remote r) r.rctx ob sub 6 (remWr r.kind) r.src va) := by
  unfold State.remoteDo
  rw [h]

/-- Whether a request may start for each line that an access of a peer names. -/
def State.roomFor (s : State) (r : RemoteReq) (ps : List Place) : Bool :=
  ps.all fun p => match p with
    | .da d => if remWr r.kind then s.writeRoom (d / 128) else s.lineFree (d / 128)
    | _ => true

theorem roomFor_of {ps : List Place}
    (h : ∀ a, .da a ∈ ps → (if remWr r.kind then s.writeRoom (a / 128) else s.lineFree (a / 128)) = true) : s.roomFor r ps = true := by
  refine List.all_eq_true.mpr fun p hp => ?_
  cases p with
  | da a => exact h a hp
  | _ => rfl

section
variable {d : Nat} {ps : List Place} (xl : s.remoteXl r = .ok (.da d :: ps)) (room : s.roomFor r (.da d :: ps) = true)
include xl room

theorem remoteDo_read (kind : r.kind = .read) (op : r.op < 256) :
    s.remoteDo r = .done (s.energy r.rctx 110000) (s.spanRead (.da d :: ps)) := by
  have reads : remWr r.kind = false := by rw [kind]; rfl
  unfold State.remoteDo
  rw [xl]
  refine (if_neg (Bool.eq_false_iff.mp (congrArg not room))).trans ?_
  refine (if_neg (by simp [kind])).trans ((if_neg (Bool.eq_false_iff.mp reads)).trans ((if_neg (by omega)).trans rfl))

theorem remoteDo_write (kind : r.kind = .write) (op : r.op ≠ 1) (new : s.filterGet (s.sliceOf d) r.rid = none)
    (free : s.filterRoom (s.sliceOf d) = true) :
    s.remoteDo r = .done (((s.energy r.rctx 110000).spanWrite (.da d :: ps) r.data).filterAdd d r.rid 0) [] := by
  have writes : remWr r.kind = true := by rw [kind]; rfl
  have get : (s.energy r.rctx 110000).filterGet ((s.energy r.rctx 110000).sliceOf d) r.rid = none := new
  have fits : (s.energy r.rctx 110000).filterRoom ((s.energy r.rctx 110000).sliceOf d) = true := free
  have performed : (s.energy r.rctx 110000).remoteWrite r (.da d :: ps) =
      .done (((s.energy r.rctx 110000).spanWrite (.da d :: ps) r.data).filterAdd d r.rid 0) [] := by
    unfold State.remoteWrite
    simp only [List.head?_cons, get, fits, kind]
    rfl
  unfold State.remoteDo
  rw [xl]
  refine (if_neg (Bool.eq_false_iff.mp (congrArg not room))).trans ?_
  exact (if_neg (by simp [op])).trans ((if_pos writes).trans performed)

end

/-- An access of a peer is processed: not behind an earlier part of its request that is held, nor waiting for a service. -/
structure Processed (s : State) (r : RemoteReq) : Prop where
  held : r ∈ s.remHeld
  kind : r.kind ≠ .cumulus
  ready : s.waits (.remote r) = false
  order : ∀ x ∈ s.remHeld.takeWhile fun y => y ≠ r, heldBehind x r = false

/-- The machine after an access of a peer that was tried: held here, or answered but for an armed monitor. -/
def State.afterTry (s : State) (r : RemoteReq) : RemRes → State
  | .wait t => if t.remHeld.contains r then t else { t with remHeld := t.remHeld ++ [r] }
  | .armed t => { t with remHeld := s.remHeld.erase r }
  | .fault c w o => Claims.response { s with remHeld := s.remHeld.erase r } r c w o []
  | .done t data => Claims.response { t with remHeld := s.remHeld.erase r } r 0 0 0 data

theorem remoteStep_processed (p : Processed s r) : s.remoteStep r = s.afterTry r (s.remoteDo r) := by
  have order : ((s.remHeld.takeWhile fun q => q ≠ r).any fun q => heldBehind q r) = false := by
    simpa [List.any_eq_false] using p.order
  have last : (r.kind ≠ .cumulus || !((s.remHeld.erase r).any fun q => sameReq q r)) = true := by simp [p.kind]
  unfold State.remoteStep
  extract_lets before rest keep one
  have e : one = true := last
  rw [e]
  refine (if_neg (Bool.eq_false_iff.mp order)).trans ((if_neg (Bool.eq_false_iff.mp p.ready)).trans ?_)
  generalize s.remoteDo r = x
  cases x with
  | wait t => rfl
  | armed t => rfl
  | fault c w o => exact remoteAnswer_last p.kind ..
  | done t data => exact remoteAnswer_last p.kind ..

end Sys2Proof.Machine

namespace Sys2Proof.Claims

open Sys2Proof.Machine

theorem exec_remoteAccessArrive {s : State} {r : RemoteReq} {x : RemRes} (p : Processed s r) (h : s.remoteDo r = x) :
    exec (.remoteAccessArrive r) s = .next (s.afterTry r x) :=
  congrArg Host.Outcome.next ((remoteStep_processed p).trans (congrArg _ h))

/-- A packet that arrives at a running port leaves its queue and is taken from there. -/
theorem exec_fabricPacketReceive {s : State} {p : Nat} {q : FabPkt} (lane : p < 32) (on : (s.port p).state ≠ 0) :
    exec (.fabricPacketReceive p q) s =
      .next ((s.setPort p { s.port p with rxq := (s.port p).rxq.erase q }).pktArrive p q) := by
  refine congrArg Host.Outcome.next ((if_neg ?_).trans (if_neg ?_))
  · simp only [Bool.and_eq_true, decide_eq_true_eq]
    omega
  · simp only [Bool.or_eq_true, decide_eq_true_eq]
    omega

/-- A packet without an acknowledgment goes out again on another rail, charged as it was (R380, R412). -/
theorem exec_fabricRetryTimeout {s : State} {dst cls seq : Nat} {x : TxPkt}
    (find : ((mapGet s.fab.unacked (fabKey dst cls) []).find? fun y => y.pkt.seq = seq) = some x) :
    let u := ((s.atLeast (x.tns + 20000)).flitEnergy x.ctx x.pkt).putOnRail x.pkt x.rail
    exec (.fabricRetryTimeout dst cls seq) s = .next { u.2 with fab := { u.2.fab with
      unacked := mapSet u.2.fab.unacked (fabKey dst cls) ((mapGet s.fab.unacked (fabKey dst cls) []).map fun (y : TxPkt) =>
        if y.pkt.seq = seq then { y with rail := u.1, tns := (s.atLeast (x.tns + 20000)).dev.tns } else y) } } := by
  show execFabricRetryTimeout dst cls seq s = _
  simp only [execFabricRetryTimeout, find]

theorem exec_reachabilityRereadDone {s : State} (reread : s.fab.rereading = true) (base : s.fab.frmb.toNat % 2 ^ 48 = 0) :
    exec .reachabilityRereadDone s = .next
      ({ s with fab := { s.fab with rereading := false, frgen := s.fab.frgen + 1, reachAll := true, reach := [] } } : State).reconnect := by
  show execReachabilityRereadDone s = _
  simp only [execReachabilityRereadDone, reread, base]
  rfl

/-- Settles O19. -/
theorem fabricEvents : Obligations.FabricEvents := by
  intro s p q v t k ahead
  have port : t.port p = { v with rxq := v.rxq.erase q } := State.port_setPort ..
  have again : (t.port p).again = v.again := by rw [port]
  have once (h : q.type ≠ 1 ∨ v.again.contains (q.src, q.cls, q.seq) = false) : t.isReplay p q = false :=
    isReplay_eq_false (again ▸ h)
  have received {u : State} (lane : p < 32) (on : v.state ≠ 0) (h : t.pktArrive p q = u) : exec (.fabricPacketReceive p q) s = .next u :=
    (exec_fabricPacketReceive lane on).trans (congrArg _ h)
  refine ⟨fun lane off => ?off, fun lane on => ⟨fun away => ?away, fun here => ⟨fun type => ?unknown, fun type => ?ack, fun type =>
    ⟨fun next last => ⟨fun single => ?single, fun x twice => ?twice⟩, fun low high => ⟨fun dup h => ?dup, fun new h => ?early⟩,
      fun far => ⟨fun h => ?late, fun store h => ?replay⟩⟩⟩⟩, fun x find => ?retry, fun x => ⟨fun low => ?frgen, fun high => ?reserved⟩,
    fun reread base => ?table, fun r held kind ready order => ⟨fun c w o xl => ?fault, fun ob sub va xl => ?miss,
      fun d ps xl => ⟨fun access op free => ?read, fun access op room new filt => ?write⟩⟩⟩
  case off =>
    refine congrArg Host.Outcome.next ((if_neg ?_).trans (if_pos ?_))
    · simp only [Bool.and_eq_true, decide_eq_true_eq]
      omega
    · simpa using .inr off
  case away => exact received lane on (pktArrive_elsewhere away)
  case unknown => exact received lane on (pktArrive_unknown here type)
  case ack => exact received lane on (pktArrive_ack here type)
  case single =>
    have none : ((t.heldFor q).filter fun x => x.seq = q.seq) = [] := List.filter_eq_nil_iff.mpr (List.any_eq_false.mp single)
    exact received lane on (pktArrive_inOrder (s := t) here type next last none)
  case twice => exact received lane on (pktArrive_inOrder (s := t) here type next last twice)
  case dup => exact received lane on (pktArrive_duplicate here type low high dup (once h))
  case early => exact received lane on (pktArrive_early here type low high new (again ▸ h))
  case late => exact received lane on (pktArrive_late here type far (once h))
  case replay =>
    have both : t.isReplay p q = true := by simp only [State.isReplay, store, again, h, decide_true, Bool.and_self]
    refine received lane on ((pktArrive_replay (s := t) here type far both).trans ?_)
    rw [State.withoutReplay, again]
  case retry => exact exec_fabricRetryTimeout find
  case frgen => exact congrArg Host.Outcome.next (if_neg (by simp; omega))
  case reserved => exact congrArg Host.Outcome.next (if_pos (by omega))
  case table => exact exec_reachabilityRereadDone reread base
  case fault => exact exec_remoteAccessArrive ⟨held, kind, ready, order⟩ (remoteDo_fault xl)
  case miss =>
    refine (exec_remoteAccessArrive ⟨held, kind, ready, order⟩ (remoteDo_miss xl)).trans (congrArg _ (if_pos ?_))
    exact List.contains_iff_mem.mpr held
  case read =>
    have reads : remWr r.kind = false := by rw [access]; rfl
    exact exec_remoteAccessArrive ⟨held, kind, ready, order⟩
      (remoteDo_read xl (roomFor_of fun a ha => by rw [reads]; exact free a ha) access op)
  case write =>
    have writes : remWr r.kind = true := by rw [access]; rfl
    exact exec_remoteAccessArrive ⟨held, kind, ready, order⟩
      (remoteDo_write xl (roomFor_of fun a ha => by rw [writes]; exact room a ha) access op new filt)

end Sys2Proof.Claims

/-! ## Units of a virtual object (O11) -/

namespace Sys2Proof.Claims

open Sys2Proof.Machine

section
variable {s : State} {k : Nat} {g : Group} {x : Pfx}

/-- A unit of major 21 that issues one access and raises one counter: its scalar sources, and the vector registers that it reads
or writes (R82, R198, R232). -/
theorem objectUnit_done {base : Word} {src dst : List VFld} {sr : List Nat} {c : Ctr} {rd wr : List Dst}
    {mk : DWord → Group → Nat → List Op} (r : ReadyM s k g x src dst rd wr) (hrd : src.map g.vReg ++ sr.map g.sDst = rd)
    (hwr : dst.map g.vDst = wr) (room : g.counter c ≤ 254) :
    issue { maj := 21, cls := 1, base := base, pfx := x, vr := src, vw := dst, sr := sr }
      (fun s k act g g1 => if !g.room c 1 then .wait else .st (s.issueOps k g1 1 (mk act g))) s =
      .next (doneM (s.issueOps k (pastM g x src) 1 (mk (activeMask x g) g)) g x 21 1 src) := by
  have has : g.room c 1 = true := decide_eq_true (Nat.succ_le_succ room)
  refine issue2_mem r _ src rfl (by simp) rfl rfl rfl (by simpa using hrd) (by simpa [Uop.writes] using hwr)
    (Nat.le_of_ble_eq_true rfl) nofun nofun nofun (.inl ?_)
  rw [has]
  rfl

/-- The places in a list that is made over a range are the numbers of the range. -/
theorem zipIdx_map_range {α : Type} (f : Nat → α) (n : Nat) : ((List.range n).map f).zipIdx = (List.range n).map fun j => (f j, j) :=
  List.ext_getElem (by simp) (by simp)

/-- The lanes of a block, by the register's place in the range or by the list of its registers (R234). -/
theorem blockAccs_eq (d : VFld) (a b : SReg) (act : DWord) (store : Bool) :
    blockAccs g d (Pfx.last x + 1 - d.val) a b act store = blockLanes g (range x d) a b act store := by
  have field (j : Nat) : Fin.ofNat 128 (d.val + j) = d + Fin.ofNat 128 j := by
    ext
    simp [Fin.val_add]
  simp only [blockAccs, blockLanes, range, zipIdx_map_range, List.flatMap_map, field]
  rfl

/-- oinfo takes the word of the record at issue (R235). -/
theorem exec_oinfo {d a : SReg} {n : Fin 8} (r : ReadyM s k g x [] [] [g.sDst a.val] [g.sDst d.val]) :
    exec (.oinfo x d a n) s = .next (doneM
      (({ s with nextId := s.nextId + 1 }.startWalk (s.xl g) (g.readS a.val).toNat).setGrp k ((pastM g x []).addOp
        { id := s.nextId, unit := s.nextId, pc := g.pc, maj := 21, fn := 4, kind := .value, dst := [g.sDst d.val],
          result := s.oinfoWord g (g.readS a.val) n.val })) g x 21 1 []) :=
  issue2_mem r _ [] rfl (by simp [u21]) rfl rfl rfl (by simp [u21]) (by simp [Uop.writes, u21])
    (Nat.le_of_ble_eq_true rfl) nofun nofun nofun (.inl rfl)

/-- oprobe answers a bit of its predicate for each active lane (R236). -/
theorem exec_oprobe {p : PReg} {b : VFld} {a : SReg}
    (r : ReadyM s k g x [] [] ((pairFields g b).map g.vReg ++ [g.sDst a.val, .p p.val]) [.p p.val]) :
    exec (.oprobe x p b a) s = .next (doneM (s.setGrp k ((pastM g x []).writePBits p.val (activeMask x g) fun i =>
      s.probe g (g.src64 b 0 i).toNat ((g.readS a.val).toNat % 16))) g x 21 1 (pairFields g b)) :=
  issue2_mem r _ (pairFields g b) rfl (by simp [u21]) rfl rfl rfl (by simp [u21]) (by simp [Uop.writes, u21])
    (Nat.le_of_ble_eq_true rfl) nofun nofun nofun (.inr ⟨_, rfl, rfl⟩)

end

/-- Settles O11: of the six units, four issue one access and differ only in their registers and counter. -/
theorem objectUnits : Obligations.ObjectUnits := by
  intro x s k g d b a c m co rng three
  refine ⟨fun r room => ?ldo, fun r room => ?sto, fun r room => ?ldob, fun r room => ?stob, fun n r => exec_oinfo r,
    fun p r => exec_oprobe r⟩
  case ldo => exact objectUnit_done r rfl rfl room
  case sto => exact objectUnit_done r rfl rfl room
  case ldob =>
    simp only [rng, ← blockAccs_eq]
    exact objectUnit_done r rfl rfl room
  case stob =>
    simp only [rng, ← blockAccs_eq]
    exact objectUnit_done r rfl rfl room

end Sys2Proof.Claims

/-! ## Contexts, walks, residency services and publishes (O52) -/

namespace Sys2Proof.Machine

variable {s : State} {n : Nat}

/-! ### A context is torn down (R409) -/

/-- What each step keeps, the steps of a list keep. -/
theorem foldl_keeps {α β : Type} (F : State → β) {f : State → α → State} (keeps : ∀ u a, F (f u a) = F u) (l : List α) (t : State) :
    F (l.foldl f t) = F t := by
  induction l generalizing t with
  | nil => rfl
  | cons a r ih => exact (ih (f t a)).trans (keeps t a)

/-- Without held window accesses none is tried again. -/
theorem winAgain_of_none (none : ∀ f < 4, (s.host f).heldWin = []) : s.winAgain = s := by
  simp [State.winAgain, none]

/-- What neither a launch queue nor the idle timers of the clusters hold: memory, functions, contexts, groups and workgroups. -/
def State.body (s : State) : Mem × NMap HostFn × NMap Ctx × NMap Group × NMap Workgroup := (s.mem, s.hosts, s.ctxs, s.groups, s.wgs)

theorem noteAllIdle_body : s.noteAllIdle.body = s.body :=
  foldl_keeps State.body (fun u l => by unfold State.noteIdle; extract_lets; split <;> rfl) _ s

theorem body_eq_iff {u v : State} : u.body = v.body ↔
    u.mem = v.mem ∧ u.hosts = v.hosts ∧ u.ctxs = v.ctxs ∧ u.groups = v.groups ∧ u.wgs = v.wgs := by
  simp only [State.body, Prod.mk.injEq]

theorem modCtx_body {u v : State} (f : Ctx → Ctx) (h : u.body = v.body) : (u.modCtx n f).body = (v.modCtx n f).body := by
  obtain ⟨mem, hosts, ctxs, groups, wgs⟩ := body_eq_iff.mp h
  simp only [State.body, State.modCtx, State.setCtx, State.ctx, mem, hosts, ctxs, groups, wgs]

/-- The machine without the groups, the workgroups, the grids and the waiting parties of a context. -/
def State.withoutCtx (s : State) (n : Nat) : State :=
  { s with groups := s.groups.filter (fun g => g.2.ctx ≠ n), wgs := s.wgs.filter (fun w => w.2.ctx ≠ n),
           grids := s.grids.filter (fun g => g.2.lrec.ctx ≠ n), svcWaits := s.svcWaits.filter fun w => w.ctx ≠ n }

/-- The machine without the work, the cached words and all else of a context (R409). -/
def State.purged (s : State) (n : Nat) : State := (((s.dropWork n).dropCumulus n).forgetCtx n).withoutCtx n

/-- A context that is no longer enabled. -/
def Ctx.disabled (c : Ctx) : Ctx := { c with en := false, stop := .running, services := [], moving := [], invalid := [], slots := [] }

theorem dropCumulus_mem : (s.dropCumulus n).mem = s.mem := by
  unfold State.dropCumulus
  extract_lets keep t
  have kept : ∀ (u : State) (d : Nat), (u.syncDirty d).mem = u.mem := fun _ _ => rfl
  exact foldl_keeps State.mem kept _ t

theorem dropCumulus_hosts : (s.dropCumulus n).hosts = s.hosts := by
  unfold State.dropCumulus
  extract_lets keep t
  have kept : ∀ (u : State) (d : Nat), (u.syncDirty d).hosts = u.hosts := fun _ _ => rfl
  exact foldl_keeps State.hosts kept _ t

theorem haltQueue_body (q code : Nat) (i : Option Word) : (s.haltQueue q code i).body = s.body := rfl

theorem purged_mem : (s.purged n).mem = s.mem := by
  have bare (u : State) : ((u.forgetCtx n).withoutCtx n).mem = u.mem := rfl
  exact (bare _).trans dropCumulus_mem

theorem purged_hosts : (s.purged n).hosts = s.hosts := by
  have bare (u : State) : ((u.forgetCtx n).withoutCtx n).hosts = u.hosts := rfl
  exact (bare _).trans dropCumulus_hosts

theorem purged_groups : ∀ kv ∈ (s.purged n).groups, kv.2.ctx ≠ n := by
  have bare (u : State) : ∀ kv ∈ (u.withoutCtx n).groups, kv.2.ctx ≠ n := fun kv h => by simpa using (List.mem_filter.mp h).2
  exact bare _

theorem purged_wgs : ∀ kv ∈ (s.purged n).wgs, kv.2.ctx ≠ n := by
  have bare (u : State) : ∀ kv ∈ (u.withoutCtx n).wgs, kv.2.ctx ≠ n := fun kv h => by simpa using (List.mem_filter.mp h).2
  exact bare _

/-- While no window access is held, disabling a context purges it and halts its queues. -/
theorem disableCtx_body (none : ∀ f < 4, (s.host f).heldWin = []) :
    (s.disableCtx n).body = ((s.purged n).modCtx n Ctx.disabled).body := by
  have hosts : (s.purged n).hosts = s.hosts := purged_hosts
  unfold State.disableCtx
  rw [State.purged] at hosts ⊢
  generalize ((s.dropWork n).dropCumulus n).forgetCtx n = u at hosts ⊢
  extract_lets t0 t1 bare queues halted
  have same : halted.body = (u.withoutCtx n).body := foldl_keeps State.body (fun _ _ => haltQueue_body ..) queues bare
  have closed : (halted.modCtx n Ctx.disabled).body = ((u.withoutCtx n).modCtx n Ctx.disabled).body := modCtx_body _ same
  have still : (halted.modCtx n Ctx.disabled).hosts = s.hosts := (body_eq_iff.mp closed).2.1.trans hosts
  have idle : (halted.modCtx n Ctx.disabled).winAgain = halted.modCtx n Ctx.disabled :=
    winAgain_of_none fun f hf => by simpa only [State.host, still] using none f hf
  exact noteAllIdle_body.trans ((congrArg State.body idle).trans closed)

/-! ### A publish is taken (R224) -/

/-- What OPUB0 keeps of a value of its 34 bits. -/
theorem opub0_bits {v : Nat} (h : v < 2 ^ 34) : BitVec.ofNat 64 v &&& (0x3FFFFFFFF : DWord) = BitVec.ofNat 64 v := by
  have low : v &&& (2 ^ 34 - 1) = v := by rw [Nat.and_two_pow_sub_one_eq_mod, Nat.mod_eq_of_lt h]
  apply BitVec.eq_of_toNat_eq
  rw [BitVec.toNat_and, BitVec.toNat_ofNat, Nat.mod_eq_of_lt (by omega)]
  exact low

/-- A write of OPUB0 with a known kind and its operands in their ranges is taken while no publish is under way. -/
theorem opubWrite_taken {op ob : Nat} (free : s.dev.opState ≠ 1) (hop : op < 16) (hn : n < 64) (hob : ob < 2 ^ 24) :
    let v := BitVec.ofNat 64 (ob + n * 2 ^ 24 + op * 2 ^ 30)
    s.opubWrite v = (s.modDev fun d => { d with opub0 := v }).publish
      { op := op, ctx := n, obj := ob, first := s.dev.opub1.toNat % 2 ^ 32, count := s.dev.opub1.toNat / 2 ^ 32, since := s.nextId } := by
  intro v
  have bits : ob + n * 2 ^ 24 + op * 2 ^ 30 < 2 ^ 34 := by omega
  have value : v.toNat = ob + n * 2 ^ 24 + op * 2 ^ 30 := by
    rw [BitVec.toNat_ofNat]
    omega
  have kind : bitsOf (ob + n * 2 ^ 24 + op * 2 ^ 30) 30 4 = op := by simp only [bitsOf]; omega
  have ctx : bitsOf (ob + n * 2 ^ 24 + op * 2 ^ 30) 24 6 = n := by simp only [bitsOf]; omega
  have obj : (ob + n * 2 ^ 24 + op * 2 ^ 30) % 2 ^ 24 = ob := by omega
  simp only [State.opubWrite, value, kind, ctx, obj]
  rw [if_neg free, if_neg (by omega), opub0_bits bits]

/-- The operands of a publish are those that OPUB1 was written with. -/
theorem opubWrite_operands {op ob : Nat} (free : s.dev.opState ≠ 1) (hop : op < 16) (hn : n < 64) (hob : ob < 2 ^ 24) (w : DWord) :
    let v := BitVec.ofNat 64 (ob + n * 2 ^ 24 + op * 2 ^ 30)
    (s.modDev fun d => { d with opub1 := w }).opubWrite v = (s.modDev fun d => { d with opub1 := w, opub0 := v }).publish
      { op := op, ctx := n, obj := ob, first := w.toNat % 2 ^ 32, count := w.toNat / 2 ^ 32, since := s.nextId } :=
  opubWrite_taken (s := s.modDev fun d => { d with opub1 := w }) free hop hn hob

/-- A publish of a known kind, its operands in their ranges, is taken with them while none is under way. -/
theorem publishAs_taken {op ob f c : Nat} (free : s.dev.opState ≠ 1) (hop : op < 16) (hn : n < 64) (hob : ob < 2 ^ 24)
    (hf : f < 2 ^ 32) (hc : c < 2 ^ 32) :
    s.publishAs op n ob f c = (s.modDev fun d =>
      { d with opub1 := BitVec.ofNat 64 (f + c * 2 ^ 32), opub0 := BitVec.ofNat 64 (ob + n * 2 ^ 24 + op * 2 ^ 30) }).publish
        { op := op, ctx := n, obj := ob, first := f, count := c, since := s.nextId } := by
  have word : ob % 2 ^ 24 + n % 64 * 2 ^ 24 + op * 2 ^ 30 = ob + n * 2 ^ 24 + op * 2 ^ 30 := by omega
  have operands : f % 2 ^ 32 + c % 2 ^ 32 * 2 ^ 32 = f + c * 2 ^ 32 := by omega
  have first : (BitVec.ofNat 64 (f + c * 2 ^ 32)).toNat % 2 ^ 32 = f := by rw [BitVec.toNat_ofNat]; omega
  have count : (BitVec.ofNat 64 (f + c * 2 ^ 32)).toNat / 2 ^ 32 = c := by rw [BitVec.toNat_ofNat]; omega
  rw [State.publishAs, if_neg free, word, operands, opubWrite_operands free hop hn hob, first, count]

end Sys2Proof.Machine

namespace Sys2Proof.Claims

open Sys2Proof.Machine

/-! ### Contexts (R401, R409) -/

theorem contextLifetime : ContextLifetime := by
  intro s n hn
  refine ⟨fun v en off ok => ?enable, fun en => congrArg Host.Outcome.next (if_pos (by simp [hn, en])), fun none => ?gone⟩
  case enable =>
    refine congrArg Host.Outcome.next ((if_pos (by simp [hn, en, off])).trans ?_)
    have on : ((s.ctx n).setCfg v).en = true := en
    simp [State.ctxCfgWrite, ok, off, on]
  case gone =>
    obtain ⟨mem, -, ctxs, groups, wgs⟩ := body_eq_iff.mp (disableCtx_body (n := n) none)
    simp only [State.modCtx, State.setCtx_mem, State.setCtx_groups, State.setCtx_wgs] at mem ctxs groups wgs
    have off : (s.disableCtx n).ctx n = ((s.purged n).ctx n).disabled := by rw [State.ctx, ctxs]; exact State.ctx_setCtx ..
    rw [groups, wgs, mem, off]
    exact ⟨purged_groups, purged_wgs, purged_mem, rfl⟩

/-! ### Walks and services (R223, R226, R227) -/

section
variable {s : State} {u n va : Nat}

theorem exec_walkComplete_bad {w o : Nat} (walk : (s.trc u).walks.contains (n, va) = true)
    (look : s.look { u := u, ctx := n, sys := true } va = .bad w o) :
    exec (.walkComplete u n va) s = .next (s.modTr u fun t => { t with walks := t.walks.erase (n, va), uses := t.uses + 1 }) := by
  show execWalkComplete u n va s = _
  simp only [execWalkComplete, walk, look]
  rfl

theorem exec_serviceRecordPost {v : Service} (find : ((s.ctx n).services.find? fun v => !v.posted) = some v) :
    let c := s.ctx n
    exec (.serviceRecordPost n) s = .next (if c.sqlog < 4 ∨ 2 ^ c.sqlog ≤ (c.sqTail - c.sqHead).toNat then s
      else
        let a := c.otsq.toNat % 2 ^ 48 + 32 * (c.sqTail.toNat % 2 ^ c.sqlog)
        ((s.homeWrite none a (v.bytes n c.sqTail.toNat s.dev.tns)).modCtx n fun c =>
          { c with sqTail := c.sqTail + 1,
                   services := c.services.map fun w => if w.obj = v.obj && w.sub = v.sub then { w with posted := true } else w }).post
          { type := 3, ctx := n, args := [(c.sqTail + 1).setWidth 64] }) := by
  intro c
  show execServiceRecordPost n s = _
  simp only [c, execServiceRecordPost, find, Bool.or_eq_true, decide_eq_true_eq]

end

theorem residencyServices : ResidencyServices := by
  intro s n obj sub
  refine ⟨fun u va idle => ?idle, fun u va w o walk look => exec_walkComplete_bad walk look, ?walk, ?post, fun shut => ?shut,
    fun opened => ?opened⟩
  case idle => exact congrArg Host.Outcome.next (if_pos (by rw [idle]; rfl))
  case walk =>
    intro u va ob r x walk look kind inside k e1 dirs t
    have object : ¬ (decide (r.kind = 2) || decide (r.sz ≤ va - r.base)) = true := by
      simp only [Bool.or_eq_true, decide_eq_true_eq]
      omega
    show execWalkComplete u n va s = _
    have walked : ¬ (!(s.trc u).walks.contains (n, va)) = true := by rw [walk]; decide
    unfold execWalkComplete
    extract_lets
    refine congrArg Host.Outcome.next ((if_neg walked).trans ?_)
    simp only [x, look]
    exact if_neg object
  case post =>
    intro v c find
    refine ⟨fun full => (exec_serviceRecordPost find).trans (congrArg _ (if_pos full)), fun configured room => ?_⟩
    exact (exec_serviceRecordPost find).trans (congrArg _ (if_neg (not_or.mpr ⟨configured.not_gt, room.not_ge⟩)))
  case shut =>
    have closed : (!s.serviceOpen n obj sub) = true := by rw [shut]; rfl
    exact ⟨congrArg _ (if_pos closed), congrArg _ (if_pos closed)⟩
  case opened =>
    have ending : ¬ (!s.serviceOpen n obj sub) = true := by simp [opened]
    exact ⟨congrArg _ (if_neg ending), congrArg _ (if_neg ending)⟩

/-! ### Publishes (R224, R225, R229) -/

theorem publishes : Publishes := by
  intro s n obj first count
  refine ⟨fun busy => ?second, fun free hn hobj hf hc => ?taken, fun p under drained => ⟨fun holds => ?flush, fun clear => ?done⟩⟩
  case second =>
    simp only [List.forall_mem_cons, List.not_mem_nil, false_implies, implies_true, and_true]
    and_intros
    all_goals exact congrArg Host.Outcome.next (if_pos busy)
  case taken =>
    intro pubd
    have taken (op ob f c : Nat) (hop : op < 16) (hob : ob < 2 ^ 24) (hf : f < 2 ^ 32) (hc : c < 2 ^ 32) :
        Host.Outcome.next (s.publishAs op n ob f c) = (.next (pubd op ob f c) : Out) :=
      congrArg _ (publishAs_taken free hop hn hob hf hc)
    refine ⟨taken 0 obj 0 0 ?_ hobj ?_ ?_, taken 1 obj first 1 ?_ hobj hf ?_, taken 2 obj first 1 ?_ hobj hf ?_,
      taken 3 obj first count ?_ hobj hf hc, taken 4 0 first count ?_ ?_ hf hc⟩ <;> decide
  case flush =>
    show execPublishDone s = _
    simp [execPublishDone, under, drained, holds]
  case done =>
    show execPublishDone s = _
    simp [execPublishDone, under, drained, clear]

/-- Settles O52: contexts, services and publishes, each in its turn. -/
theorem contextAndObjectEvents : Obligations.ContextAndObjectEvents := ⟨contextLifetime, residencyServices, publishes⟩

end Sys2Proof.Claims

/-! ## Copy units and the copy engine (O12, O54) -/

namespace Sys2Proof.Claims

open Sys2Proof.Machine

/-! ### A copy unit (R237, R240 to R243) -/

section
variable {s t : State} {k : Nat} {g : Group} {w v : Workgroup} {fn : Nat} {d a : SReg} {n : Fin 8}

/-- The slice that a copy unit supplies (R241). -/
def unitSlice (s : State) (g : Group) (fn : Nat) (a : SReg) (n : Fin 8) : CopySlice :=
  { grp := g.idx, fn := fn, tok := n.val, pc := g.pc, opId := s.nextId, desc := svals g a 8 }

/-- A copy unit that has room and its semaphore's register supplies its slice. -/
theorem copyUnit_done (r : ReadyS s k g (sregs g a 8) [g.sDst d.val]) (hi : g.inH = false) (of : Of s g w)
    (legal : copyOk (unitSlice s g fn a n) = true)
    (room : (w.copies.any fun c => c.num = g.cpn + 1) = true ∨ (w.copies.filter fun c => !c.done).length < 16)
    (waiting : (w.copies.filter fun c => c.num ≠ g.cpn + 1 && !c.started && !s.supplied g.wg c).length < 2)
    (sema : (if (unitSlice s g fn a n).sen then s.nameSema g.wg ((unitSlice s g fn a n).fld 3 12 6) else some s) = some t)
    (of' : Of t g v) :
    let l := unitSlice s g fn a n
    let u : Workgroup := { v.addSlice (g.cpn + 1) (if g.handable l.opId then l.hand v else l) with
      tok := v.tok.set n.val (max (v.tok.getD n.val 0) (g.cpn + 1)), tokUsed := withToken v.tokUsed n.val }
    copyUnit fn d a n s = .next (finished (((({ t with nextId := t.nextId + 1 } : State).setWg g.wg u).setGrp k
      { (past g 1).writeS d.val (BitVec.ofNat 64 (g.cpn + 1)) with cpn := g.cpn + 1 }).startCopy g.wg (g.cpn + 1)) g 23) := by
  intro l u
  have hr : (u23 fn d a n).reads g = sregs g a 8 := by simp [Uop.reads, u23, sregs, Pfx.none]
  have hw : (u23 fn d a n).writes g = [g.sDst d.val] := by simp [Uop.writes, u23]
  have roomy : ¬ (!(w.copies.any fun c => c.num = g.cpn + 1) && 16 ≤ (w.copies.filter fun c => !c.done).length) = true := by
    rcases room with known | few
    · simp [known]
    · simp [few.not_ge]
  refine issue2_plain r.now _ hr hw r.quiet.pend r.quiet.kept (faultPoint_quiet rfl hr hw r.quiet) (by decide : 22 ≤ 23) (fun _ => hi)
    nofun rfl rfl rfl rfl rfl (.inl ?_)
  have of : s.wg? g.wg = some w := of
  have of' : t.wg? g.wg = some v := of'
  simp -zeta only [of]
  extract_lets num slice sem
  have legal : copyOk slice = true := legal
  refine (if_neg roomy).trans ((if_neg waiting.not_ge).trans ((if_neg (by simp [legal])).trans ?_))
  have named : sem = some t := sema
  simp -zeta only [named, of', Option.getD_some]
  rfl

end

/-- Settles O12: the seven units differ only in their function code. -/
theorem copyUnits : Obligations.CopyUnits := by
  intro e he s t k g w v d a n r hi of num l legal room waiting sema of' u
  have unit : exec (e.1 d a n) s = copyUnit e.2 d a n s := by
    simp only [copies, List.mem_cons, List.not_mem_nil, or_false] at he
    rcases he with rfl | rfl | rfl | rfl | rfl | rfl | rfl <;> rfl
  rw [unit]
  exact copyUnit_done r hi of legal room waiting sema of'

end Sys2Proof.Claims

/-! ### A copy starts (R241 to R243) -/

namespace Sys2Proof.Machine

variable {s : State} {k c : Nat} {w : Workgroup}

theorem State.setWg_setWg (s : State) (k : Nat) (v w : Workgroup) : (s.setWg k v).setWg k w = s.setWg k w := by
  simp only [State.setWg, mapSet_mapSet]

theorem State.modWg_of_some {f : Workgroup → Workgroup} (h : s.wg? k = some w) : s.modWg k f = s.setWg k (f w) := by
  have found : mapGet? s.wgs k = some w := h
  simp only [State.modWg, State.setWg, mapMod, found]

/-- A copy that has not started and is supplied whole starts (R241), in the order of its engine (R242). -/
theorem startCopy_supplied {cp : Copy} (hw : s.wg? k = some w) (find : (w.copies.find? fun x => x.num = c) = some cp)
    (new : cp.started = false) (all : s.supplied k cp = true) :
    s.startCopy k c = s.fresh1.2.setWg k { w with copies := w.copies.map fun x =>
      if x.num = c then { x with started := true, seq := s.fresh1.1, clu := w.clu } else x } := by
  simp only [State.startCopy, hw, find]
  exact if_neg (by simp [new, all])

/-- Where the slices that it names are at the engine already, handing them over changes nothing (R243). -/
theorem handSlices_handed {f : Copy → Bool} (all : ∀ x ∈ w.copies, f x = true → x.slices.all CopySlice.handed = true) :
    (s.setWg k w).handSlices k f = s.setWg k w := by
  rw [State.handSlices, State.modWg_of_some (State.wg?_setWg s k w), State.setWg_setWg]
  extract_lets hand
  have same : (w.copies.map fun x => if f x then { x with slices := x.slices.map hand } else x) = w.copies := by
    refine (List.map_congr_left (g := id) fun x hx => ?_).trans (List.map_id _)
    split
    · next named =>
      have kept : x.slices.map hand = x.slices :=
        (List.map_congr_left (g := id) fun l hl => if_pos (List.all_eq_true.mp (all x hx named) l hl)).trans (List.map_id _)
      rw [kept]
      rfl
    · rfl
  rw [same]

end Sys2Proof.Machine

namespace Sys2Proof.Claims

open Sys2Proof.Machine

section
variable {s t t' : State} {k c i : Nat} {w w' : Workgroup} {l l' : CopySlice}

theorem exec_copyStart {cp : Copy} (hw : s.wg? k = some w) (find : (w.copies.find? fun x => x.num = c) = some cp)
    (new : cp.started = false) (all : s.supplied k cp = true)
    (handed : ∀ x ∈ w.copies, x.num = c → x.slices.all CopySlice.handed = true) :
    exec (.copyStart k c) s = .next (s.fresh1.2.setWg k { w with copies := w.copies.map fun x =>
      if x.num = c then { x with started := true, seq := s.fresh1.1, clu := w.clu } else x }) := by
  show execCopyStart k c s = _
  simp only [execCopyStart, startCopy_supplied hw find new all, State.wg?_setWg]
  rw [handSlices_handed]
  intro x hx named
  obtain ⟨y, hy, rfl⟩ := List.mem_map.mp hx
  have num : y.num = c := by
    by_contra other
    simp [other] at named
  simpa [num] using handed y hy num

/-! ### The pass of a copy that reads a version (R251) -/

section
variable (work : s.work? k c i = some (w, l)) (plain : l.fn = 0) (verf : l.verf = true) (pass : l.passed = false)
include plain verf pass

theorem verPass_open : ¬ (l.fn ≠ 0 || !l.verf || l.passed) = true := by simp [plain, verf, pass]

include work

theorem exec_verPassEnd_begin {ps : List Place} {v : Nat} (ver : l.ver = none) (places : s.verPlaces (.slice k c i) w l = .ok ps)
    (read : s.readVer k w c i l ps = (some v, t)) (even : v % 2 = 0) :
    exec (.verPassEnd k c i) s = .next (t.modSlice k c i fun x => { x with ver := some v, pos := 0, stage := [] }) := by
  show execVerPassEnd k c i s = _
  simp only [execVerPassEnd, work, ver, places, read]
  rw [if_neg (verPass_open plain verf pass), if_neg (by omega)]

theorem exec_verPassEnd_same {ps : List Place} {v : Nat} (ver : l.ver = some v) (moves : State.runMoves k c i l.total s = .go t)
    (work' : t.work? k c i = some (w', l')) (places : t.verPlaces (.slice k c i) w' l' = .ok ps)
    (read : t.readVer k w' c i l' ps = (some v, t')) :
    exec (.verPassEnd k c i) s = .next (t'.modSlice k c i fun x => { x with passed := true }) := by
  show execVerPassEnd k c i s = _
  simp only [execVerPassEnd, work, ver, moves, work', places, read]
  exact congrArg _ (if_neg (verPass_open plain verf pass))

end

/-! ### A slice completes (R250 to R252, R254) -/

section
variable (work : s.work? k c i = some (w, l))
include work

/-- A slice without version words performs its moves. -/
theorem exec_copySliceComplete_moves (simple : l.fn ≠ 0 ∨ (l.aon = false ∧ l.verf = false)) :
    exec (.copySliceComplete k c i) s = .next (match State.runMoves k c i l.total s with
      | .fault t cs a x => t.sliceFault k c i l cs a x
      | .hold t => t
      | .go t => match t.work? k c i with
        | some (_, l') => if l'.racks.isEmpty then t.sliceDone k c i else t
        | none => t) := by
  show execCopySliceComplete k c i s = _
  have noAon : ¬ (l.fn = 0 && l.aon) = true := by rcases simple with h | ⟨h, -⟩ <;> simp [h]
  have noVer : ¬ (l.fn = 0 && l.verf) = true := by rcases simple with h | ⟨-, h⟩ <;> simp [h]
  simp only [execCopySliceComplete, work]
  exact congrArg _ ((if_neg noAon).trans (if_neg noVer))

theorem exec_copySliceComplete_passed (plain : l.fn = 0) (aon : l.aon = false) (verf : l.verf = true) (passed : l.passed = true)
    (acked : l.racks = []) : exec (.copySliceComplete k c i) s = .next (s.sliceDone k c i) := by
  show execCopySliceComplete k c i s = _
  simp [execCopySliceComplete, work, plain, aon, verf, passed, acked]

end

end

theorem copySlices : CopySlices := by
  intro s k c i
  refine ⟨fun w cp hw find new all _ handed => exec_copyStart hw find new all handed, fun w l work => ⟨?begins, ?ends, ?moves,
    fun plain aon verf passed acked => exec_copySliceComplete_passed work plain aon verf passed acked⟩⟩
  case begins =>
    intro ps v t plain verf pass ver places read even
    exact exec_verPassEnd_begin work plain verf pass ver places read even
  case ends =>
    intro v t t' w' l' ps plain verf pass ver moves work' places read
    exact exec_verPassEnd_same work plain verf pass ver moves work' places read
  case moves =>
    intro simple
    rw [exec_copySliceComplete_moves work simple]
    refine ⟨fun t w' l' moves work' acked => ?_, fun t cs a x moves => ?_⟩
    · simp [moves, work', acked]
    · simp only [moves]

/-! ### All-or-nothing copies (R250) -/

section
variable {s t : State} {k c i : Nat} {w : Workgroup} {l : CopySlice} (work : s.work? k c i = some (w, l)) (plain : l.fn = 0)
  (aon : l.aon = true)
include plain aon

theorem aonAcquire_open (ver : l.ver = none) : ¬ (l.fn ≠ 0 || !l.aon || l.ver.isSome) = true := by simp [plain, aon, ver]

include work

/-- The first step, all of a slice's places translated (R250 step 1). -/
theorem exec_aonVersionAcquire_translated {ds ps : List Place} (ver : l.ver = none) (vps : l.vps = [])
    (srcs : s.srcsFrom (.slice k c i) w l l.total 0 = .ok ()) (dests : s.destsFrom (.slice k c i) w l l.total 0 = .ok ds)
    (places : s.verPlaces (.slice k c i) w l = .ok ps) :
    exec (.aonVersionAcquire k c i) s = .next (if !l.asked && needsResp ds then s.askDests k w c i l ds
      else if !l.racks.isEmpty || (l.stage.isEmpty && 2 ^ 20 < s.stagedOn w.clu + l.total) then s
      else match State.fillStage k c i l.total l.total s with
        | .fault t cs a x => t.sliceFault k c i l cs a x
        | .hold t => t
        | .go t => t.modSlice k c i fun z => { z with dst := ds, vps := ps }) := by
  show execAonVersionAcquire k c i s = _
  simp only [execAonVersionAcquire, work, srcs, dests, places]
  exact congrArg _ ((if_neg (aonAcquire_open plain aon ver)).trans (if_pos (by rw [vps]; rfl)))

section
variable (own : needsResp l.vps = false)
  (room : (l.vps.all fun p => match p with | .da d => s.writeRoom (d / 128) | _ => true) = true)
include own room

/-- The version word of this device is taken where it is even (R250 step 3). -/
theorem exec_aonVersionAcquire_version (vps : l.vps ≠ []) (ver : l.ver = none) :
    let v := leNat (s.cread w 0 l.vps [])
    exec (.aonVersionAcquire k c i) s =
      .next (if v % 2 = 1 then s else (s.setVer k w c i l l.vps ((v + 1) % 2 ^ 64)).aonWrite k w c i l v) := by
  intro v
  show execAonVersionAcquire k c i s = _
  have translated : ¬ l.vps.isEmpty = true := by simpa using vps
  simp only [execAonVersionAcquire, work]
  exact congrArg _ ((if_neg (aonAcquire_open plain aon ver)).trans ((if_neg translated).trans ((if_pos (by rw [own]; rfl)).trans
    (if_neg (Bool.eq_false_iff.mp (congrArg not room))))))

/-- The word is even again once the data are acknowledged, and the slice is complete (R250 step 5). -/
theorem exec_copySliceComplete_version {v : Nat} (ver : l.ver = some v) (acked : l.racks = []) (last : l.fin = false) :
    exec (.copySliceComplete k c i) s = .next (((s.setVer k w c i l l.vps ((v + 2) % 2 ^ 64)).modSlice k c i fun z =>
      { z with fin := true }).sliceDone k c i) := by
  show execCopySliceComplete k c i s = _
  have versioned : (l.fn = 0 && l.aon) = true := by simp [plain, aon]
  simp only [execCopySliceComplete, work, ver]
  exact congrArg _ ((if_pos versioned).trans ((if_neg (by rw [acked]; decide)).trans ((if_neg (Bool.eq_false_iff.mp last)).trans
    ((if_neg (Bool.eq_false_iff.mp (congrArg not room))).trans (if_neg (Bool.eq_false_iff.mp own))))))

end

end

/-! ### The statements (R250, R252) -/

theorem versionedCopies : VersionedCopies := by
  intro s k c i
  refine ⟨fun w l work plain aon => ⟨?first, fun vps own room => ⟨fun ver => ?version, ?complete⟩⟩, ?copy⟩
  case first =>
    intro ds ps t ver vps stage srcs dests places
    rw [exec_aonVersionAcquire_translated work plain aon ver vps srcs dests places]
    refine ⟨fun fresh remote => ?ask, fun answered acked fits go => ?fill⟩
    case ask => simp [fresh, remote]
    case fill =>
      have noAsk : ¬ (!l.asked && needsResp ds) = true := by rcases answered with h | h <;> simp [h]
      have fill : ¬ (!l.racks.isEmpty || (l.stage.isEmpty && 2 ^ 20 < s.stagedOn w.clu + l.total)) = true := by
        rw [acked, decide_eq_false fits.not_gt, Bool.and_false]
        decide
      rw [if_neg noAsk, if_neg fill]
      simp only [go]
  case version =>
    intro v
    rw [exec_aonVersionAcquire_version work plain aon own room vps ver]
    exact ⟨fun odd => congrArg _ (if_pos odd), fun even => congrArg _ (if_neg (by omega))⟩
  case complete =>
    intro v ver acked last
    exact exec_copySliceComplete_version work plain aon own room ver acked last
  case copy =>
    intro u w cp hw find started going all
    have hw : (s.pull k).wg? k = some w := hw
    have completes : ¬ (!cp.started || cp.done || !(cp.slices.all fun l => l.done)) = true := by
      rw [started, going, all]
      decide
    show execCopyComplete k c s = _
    simp only [execCopyComplete, hw, find]
    exact congrArg _ (if_neg completes)

/-- Settles O54: slices without version words or that read one, and all-or-nothing ones with the copy's end. -/
theorem copyEvents : Obligations.CopyEvents := ⟨copySlices, versionedCopies⟩

end Sys2Proof.Claims

/-! ## Matrix units and the matrix engine (O13, O16) -/

/-! ### Units of major 24 (R286 to R293) -/

namespace Sys2Proof.Claims

open Sys2Proof.Machine

section
variable {s t : State} {k : Nat} {g : Group}

/-- A unit of major 24 without vector operands whose registers are at rest issues as its effect says. -/
theorem matrixUnit_issues {eff : Effect} {fn d a : Nat} {sr sw : List Nat} (hi : g.inH = false)
    (r : ReadyS s k g (sr.map g.sDst) (sw.map g.sDst))
    (he : eff s k (activeMask Pfx.none g) g (past g 1) = .st t ∨
      ∃ h, eff s k (activeMask Pfx.none g) g (past g 1) = .grp h ∧ t = s.setGrp k h) :
    issue { u24 fn d a with sr := sr, sw := sw } eff s = .next (finished t g 24) := by
  let u : Uop := { u24 fn d a with sr := sr, sw := sw }
  have hr : u.reads g = sr.map g.sDst := by simp [Uop.reads, u, u24, Pfx.none]
  have hw : u.writes g = sw.map g.sDst := by simp [Uop.writes, u, u24]
  exact issue2_plain r.now u hr hw r.quiet.pend r.quiet.kept (faultPoint_quiet rfl hr hw r.quiet) (by decide : 22 ≤ 24)
    (fun _ => hi) nofun rfl rfl rfl rfl rfl he

/-- The unit that a matrix instruction of kind `op` with `n` descriptor registers hands to the engine (R287). -/
def unitOf (g : Group) (op n : Nat) (a : SReg) : MxUnit :=
  { num := g.nis + 1, op := op, desc := svals g a n, pc := g.pc, arg := g.mxc }

/-- A legal matrix unit that finds room joins the queue under its next number, with its operation unless it is mxrel (R287). -/
theorem mxUnit_joins {op n : Nat} {d a : SReg} (hi : g.inH = false) (r : ReadyS s k g (sregs g a n) [g.sDst d.val])
    (legal : (unitOf g op n a).ok = true) (queue : g.mxq.length < 8) (free : g.holdsMatrix = false) (room : g.counter .mx ≤ 254)
    (semas : s.nameSemas g.wg (unitOf g op n a).sems = some t) :
    let m := unitOf g op n a
    let o : Op := { id := s.nextId, unit := s.nextId, pc := g.pc, maj := 24, fn := op, ctr := .mx, kind := .matrix,
                    arg := [BitVec.ofNat 64 m.num] }
    let h : Group := { (past g 1).writeS d.val (BitVec.ofNat 64 m.num) with nis := m.num, mxq := g.mxq ++ [m] }
    mxUnit op n d a s = .next (finished (({ t with nextId := t.nextId + 1 } : State).setGrp k
      (if op = 3 then h else h.addOp o)) g 24) := by
  intro m o h
  have accepted : ¬ (decide (8 ≤ g.mxq.length) || g.holdsMatrix || (decide (op ≠ 3) && !g.room .mx 1)) = true := by
    simp [queue.not_ge, free, room_of_le room]
  have good : ¬ (!m.ok) = true := by simpa [m] using legal
  refine matrixUnit_issues hi (sw := [d.val]) (by simpa [sregs, Function.comp_def] using r) (.inl ?_)
  extract_lets unit
  refine (if_neg accepted).trans ((if_neg good).trans ?_)
  have semas : s.nameSemas g.wg unit.sems = some t := semas
  simp -zeta only [semas]
  rfl

/-- tld and tst of a row that the group has, all whose cells are settled, are accepted (R293, R294). -/
theorem tileUnit_accepted {fn : Nat} {d : VFld} {a : SReg} {vr vw : List VFld} {rd wr : List Dst} {w : Workgroup}
    (hi : g.inH = false) (r : ReadyM s k g Pfx.none vr vw rd wr) (hrd : vr.map g.vReg ++ [g.sDst a.val] = rd)
    (hwr : vw.map g.vDst = wr) (of : Of s g w) (fits : (g.readS a.val).toNat < 2 ^ 13)
    (has : (g.readS a.val).toNat % 1024 < w.tsrows) (room : g.counter .tl ≤ 254)
    (settled : (g.mxq.any fun m => m.touches ((g.readS a.val).toNat % 1024) ((g.readS a.val).toNat / 1024 % 8)) = false) :
    tileUnit fn { u24 fn d.val a.val with sr := [a.val], vr := vr, vw := vw } d a s =
      .next (finished ((named s).setGrp k ((pastM g Pfx.none vr).addOp
        { id := s.nextId, unit := s.nextId, pc := g.pc, maj := 24, fn := fn, ctr := .tl, kind := if fn = 3 then .tld else .tst,
          dst := if fn = 3 then [g.vDst d] else [],
          arg := [BitVec.ofNat 64 ((g.readS a.val).toNat % 1024), BitVec.ofNat 64 ((g.readS a.val).toNat / 1024 % 8)],
          accs := (onLanes (activeMask Pfx.none g)).map fun i =>
            { lane := i, va := 0, data := if fn = 3 then [] else leBytes 4 (g.src d i).toNat } })) g 24 vr) := by
  refine issue2_mem r _ vr rfl (by simp [u24]) rfl rfl rfl (by simpa [u24] using hrd) (by simpa [Uop.writes, u24] using hwr)
    (by decide : 16 ≤ 24) nofun (fun _ => hi) nofun (.inl ?_)
  have accepted : ¬ (!g.room .tl 1 ||
      g.mxq.any fun m => m.touches ((g.readS a.val).toNat % 1024) (bitsOf (g.readS a.val).toNat 10 3)) = true := by
    have settled : (g.mxq.any fun m =>
      m.touches ((g.readS a.val).toNat % 1024) (bitsOf (g.readS a.val).toNat 10 3)) = false := settled
    simp [room_of_le room, settled]
  have short : ¬ (g.readS a.val).toNat / 2 ^ 13 ≠ 0 := by omega
  have of : s.wg? g.wg = some w := of
  have inside : ¬ w.tsrows ≤ (g.readS a.val).toNat % 1024 := has.not_ge
  refine (if_neg accepted).trans ((if_neg short).trans ?_)
  simp only [of]
  exact if_neg inside

end

/-- Settles O13: the units that join the queue differ in their kind and the length of their descriptor. -/
theorem matrixUnits : Obligations.MatrixUnits := by
  intro s k g hi
  refine ⟨?queued, fun a r legal => ?mxcfg, ?tile⟩
  case queued =>
    intro e he t d a r m legal queue free room semas o h
    have unit : exec (e.1 d a) s = mxUnit e.2.1 e.2.2 d a s := by
      simp only [matrices, List.mem_cons, List.not_mem_nil, or_false] at he
      rcases he with rfl | rfl | rfl | rfl <;> rfl
    rw [unit]
    exact mxUnit_joins hi r legal queue free room semas
  case mxcfg =>
    exact matrixUnit_issues hi (sr := [a.val]) (sw := []) r (.inr ⟨_, if_pos legal, rfl⟩)
  case tile =>
    intro d a w of v fits has room settled o
    exact ⟨fun r => tileUnit_accepted hi r rfl rfl of fits has room settled,
      fun r => tileUnit_accepted hi r rfl rfl of fits has room settled⟩

end Sys2Proof.Claims

/-! ### Tile transfers and steps (R293 to R298) -/

namespace Sys2Proof.Claims

open Sys2Proof.Machine

section
variable {s : State} {k : Nat} {g : Group} {w : Workgroup}

/-- A tile transfer that nothing holds back moves its row segment, to registers or to cells, and ends (R293). -/
theorem exec_tileTransferDone {o : Op} (grp : s.grp? k = some g) (of : Of s g w) (op : g.op? o.id = some o)
    (waiting : o.performed = false) (live : s.live g = true)
    (first : ((g.before o).any fun p => p.kind = .tld || p.kind = .tst) = false) :
    let row := (regGet o.arg 0).toNat
    let col (i : Nat) : Nat := 64 * (regGet o.arg 1).toNat + i
    (o.kind = .tld → exec (.tileTransferDone k o.id) s = .next (s.setGrp k ((o.dst.foldl (fun (h : Group) d =>
      h.writeDst d (maskOf fun i => o.accs.any fun a => a.lane = i) fun i => w.cell row (col i)) g).finishOp o.id))) ∧
    (o.kind = .tst → exec (.tileTransferDone k o.id) s = .next ((s.setWg g.wg (o.accs.foldl (fun v a =>
      v.setCell row (col a.lane) (BitVec.ofNat 32 (leNat a.data))) w)).setGrp k (g.finishOp o.id))) := by
  intro row col
  have of : s.wg? g.wg = some w := of
  have goes : ¬ (o.performed || !s.live g || (g.before o).any fun p => p.kind = .tld || p.kind = .tst) = true := by
    simp [waiting, live, first]
  show (_ → execTileTransferDone k o.id s = _) ∧ (_ → execTileTransferDone k o.id s = _)
  simp only [execTileTransferDone, grp, op, of]
  refine ⟨fun tld => congrArg _ ((if_neg goes).trans ?_), fun tst => congrArg _ ((if_neg goes).trans ?_)⟩
  · simp only [tld]
    rfl
  · simp only [tst]
    rfl

/-- The next step in the order of its cluster starts when its operands are within bounds (R295, R298). -/
theorem exec_matrixStepStart {i : Nat} {m : MxUnit} (grp : s.grp? k = some g) (of : Of s g w)
    (next : s.nextMatrix (clusterOfCore g.core) = some k) (oldest : firstUnstarted g.mxq 0 = some (i, m))
    (bounds : mxCheck w m m.started = none) :
    let t := s.setCluster (clusterOfCore g.core) { s.cluster (clusterOfCore g.core) with rr := g.slot % 512 }
    let u : MxUnit := { m with started := m.started + 1, tags := m.tags ++ [mapGet w.btag (m.slot w.bslots m.started) 15] }
    exec (.matrixStepStart k) s = .next (t.setGrp k { g with mxq := g.mxq.set i u }) := by
  intro t u
  have of : s.wg? g.wg = some w := of
  show execMatrixStepStart k s = _
  simp only [execMatrixStepStart, grp, oldest, of, bounds]
  exact congrArg _ (if_neg (not_not.mpr next))

/-- The machine once step `m.step` of `m` has written its cells, and signalled if `m` asks for it (R297). -/
def stepWritten (s : State) (g : Group) (w : Workgroup) (m : MxUnit) : State :=
  let t := (s.setWg g.wg (w.doStep m m.step)).energy g.ctx m.energy
  if m.op ≤ 1 ∧ m.fld 1 23 1 = 1 then t.mxSignal g.wg (m.fld 1 24 6) (m.fld 1 30 8) else t

/-- The oldest step in progress, not faulted, completes with its cells; with its last step the unit is done (R297). -/
theorem exec_matrixStepComplete {m : MxUnit} {r : List MxUnit} (grp : s.grp? k = some g) (of : Of s g w) (queue : g.mxq = m :: r)
    (live : s.live g = true) (step : m.op ≠ 3) (started : m.step < m.started) (good : m.bad = none) :
    let n : MxUnit := { m with step := m.step + 1, tags := m.tags.drop 1 }
    let t := (stepWritten s g w m).modGrp k fun h => { h with mxq := h.mxq.set 0 n }
    exec (.matrixStepComplete k) s = .next (if n.step < n.total then t else t.unitDone k n) := by
  intro n t
  have of : s.wg? g.wg = some w := of
  have performs : m.performs m.step = true := by simp [MxUnit.performs, good]
  have head : g.mxq.head? = some m := by rw [queue]; rfl
  show execMatrixStepComplete k s = _
  simp only [execMatrixStepComplete, grp, head, of]
  refine congrArg _ ((if_neg (by simp [live])).trans ((if_neg step).trans ((if_neg started.not_ge).trans ?_)))
  simp only [performs, if_true, Bool.and_eq_true, decide_eq_true_eq]
  rfl

end

/-- Settles O16: a transfer, the start of a step and its completion. -/
theorem matrixEvents : Obligations.MatrixEvents := by
  intro s k g grp w of
  exact ⟨fun o op waiting live first => exec_tileTransferDone grp of op waiting live first,
    fun i m next oldest bounds => exec_matrixStepStart grp of next oldest bounds,
    fun m r queue live step started good => exec_matrixStepComplete grp of queue live step started good⟩

end Sys2Proof.Claims

/-! ## Resets, the boot steps and the takeover (O15) -/

namespace Sys2Proof.Claims

open Sys2Proof.Machine

section
variable {s : State}

/-- What every reset clears, whatever ran before (R402, R409). -/
theorem resetTo_clears (s : State) (cold : Bool) :
    (s.resetTo cold).groups = [] ∧ (s.resetTo cold).ctxs = [] ∧ (s.resetTo cold).wgs = [] ∧
      (s.resetTo cold).fab = { dev := s.fab.dev, domain := s.fab.domain } :=
  ⟨rfl, rfl, rfl, rfl⟩

/-! ### Boot (R402) -/

section
variable (wait : s.dev.bootReady = false) (code : s.dev.bootCode = 0) (runs : s.dev.reset = false)
include wait code runs

/-- A device that still boots, and neither failed nor holds reset, takes the event. -/
theorem boots : ¬ (s.dev.bootReady || decide (s.dev.bootCode ≠ 0) || s.dev.reset) = true := by
  simp [wait, code, runs]

theorem bootStep1_fails (i : Nat) (step : s.dev.bootStep = 1) :
    exec (.bootStepDone false i) s = .next (s.modDev fun d => { d with bootCode := 1, reset := true }) := by
  show execBootStepDone false i s = _
  rw [execBootStepDone, if_neg (boots wait code runs), step]
  rfl

theorem bootStep2_done (ok : Bool) (i : Nat) (step : s.dev.bootStep = 2) :
    exec (.bootStepDone ok i) s = .next (s.modDev fun d => { d with bootStep := 3 }) := by
  show execBootStepDone ok i s = _
  rw [execBootStepDone, if_neg (boots wait code runs), step]
  rfl

/-- An image that verifies and whose version the rollback count allows is booted. -/
theorem bootStep3_boots (i : Nat) (step : s.dev.bootStep = 3) (version : s.str.rollback ≤ i % 2 ^ 32) :
    exec (.bootStepDone true i) s = .next (s.modDev fun d => { d with fwver := BitVec.ofNat 32 i, bootStep := 4 }) := by
  show execBootStepDone true i s = _
  rw [execBootStepDone, if_neg (boots wait code runs), step]
  exact congrArg Host.Outcome.next (if_pos (by simpa using version))

/-- After slot A slot B is tried, and after slot B the boot has failed. -/
theorem bootStep3_next {b : Bool} {i : Nat} (step : s.dev.bootStep = 3) (bad : b = false ∨ i % 2 ^ 32 < s.str.rollback) :
    exec (.bootStepDone b i) s = .next (s.modDev fun d =>
      if d.bootSlot = 0 then { d with bootSlot := 1 } else { d with bootCode := 2 }) := by
  have no : ¬ (b && decide (s.str.rollback ≤ i % 2 ^ 32)) = true := by
    rcases bad with rfl | old
    · simp
    · simpa using fun _ => old
  show execBootStepDone b i s = _
  rw [execBootStepDone, if_neg (boots wait code runs), step]
  refine congrArg Host.Outcome.next ((if_neg no).trans ?_)
  simp only [State.modDev]
  split <;> rfl

theorem bootStep4_done (ok : Bool) (i : Nat) (step : s.dev.bootStep = 4) :
    exec (.bootStepDone ok i) s = .next (s.startFirmware.bootTo 5) := by
  show execBootStepDone ok i s = _
  rw [execBootStepDone, if_neg (boots wait code runs), step]
  rfl

/-- With every chiplet trained, each has seen all the others. -/
theorem bootStep5_trained (i : Nat) (step : s.dev.bootStep = 5) :
    let u : State := { s with chips := mapAll s.chips fun _ c => { c with seen := (List.range 50).map fun i => (i, s.dev.tns) } }
    exec (.bootStepDone true i) s = .next (({ u with pairs := u.trained } : State).bootTo 6) := by
  intro u
  show execBootStepDone true i s = _
  rw [execBootStepDone, if_neg (boots wait code runs), step]
  rfl

/-- Memory is written zero, in the mode that the event brings. -/
theorem bootStep6_opens (i : Nat) (step : s.dev.bootStep = 6) :
    ∃ t, exec (.bootStepDone true i) s = .next t ∧ t.mem = [] ∧ t.home.dirty = [] ∧ t.home.dir = [] ∧ t.dev.bootStep = 7 ∧
      t.dev.memOpen = decide (i % 2 = 1) := by
  show ∃ t, execBootStepDone true i s = _ ∧ _
  rw [execBootStepDone, if_neg (boots wait code runs), step]
  exact ⟨_, rfl, rfl, rfl, rfl, rfl, rfl⟩

theorem bootStep8_ready (ok : Bool) (i : Nat) (step : s.dev.bootStep = 8) :
    exec (.bootStepDone ok i) s = .next (s.modDev fun d => { d with bootReady := true }) := by
  show execBootStepDone ok i s = _
  rw [execBootStepDone, if_neg (boots wait code runs), step]
  rfl

end

/-! ### The standby Stratus (R410) -/

/-- The standby Stratus goes on with the mirrored state and reports it. -/
def standbyGoesOn (u : State) : State :=
  (({ u with sgrp := stratusReset, str := { u.str with active := 49, standby := false, halted := false, sleepTo := 0 } } : State).modDev
    fun d => { d with ownBeat := d.tns }).post { type := 11, chip := 49 }

/-- A standby that may take over does so by the loss of PD0, or by the halt of its Stratus. -/
theorem stratusTakeover_standby (standby : s.str.standby = true) (active : s.str.active = 48) (alive : (s.die 49).dead = false) :
    exec .stratusTakeover s = .next (if (s.die 48).dead then standbyGoesOn s
      else if s.str.halted then standbyGoesOn (s.atLeast (s.str.haltTns + 10000000)) else s) :=
  congrArg Host.Outcome.next (if_neg (by simp [standby, active, alive]))

end

/-- Settles O15: the two resets, each boot step with its outcome, and the three cases of the takeover. -/
theorem resetAndBoot : Obligations.ResetAndBoot := by
  intro s ok i
  refine ⟨⟨rfl, rfl⟩, ⟨rfl, rfl, resetTo_clears s⟩, fun wait code runs => ⟨bootStep1_fails wait code runs i,
    bootStep2_done wait code runs ok i, fun step => ⟨bootStep3_boots wait code runs i step,
      fun b bad => bootStep3_next wait code runs step bad⟩, bootStep4_done wait code runs ok i, bootStep5_trained wait code runs i,
    bootStep6_opens wait code runs i, bootStep8_ready wait code runs ok i⟩,
    fun standby active alive => ⟨fun lost => ?lost, fun up halted => ?halted, fun up on => ?none⟩⟩
  case lost => exact (stratusTakeover_standby standby active alive).trans (congrArg _ (if_pos lost))
  case halted =>
    exact (stratusTakeover_standby standby active alive).trans (congrArg _ ((if_neg (by simp [up])).trans (if_pos halted)))
  case none =>
    exact (stratusTakeover_standby standby active alive).trans
      (congrArg _ ((if_neg (by simp [up])).trans (if_neg (by simp [on]))))

end Sys2Proof.Claims

/-! ## The events of the Cumulus units (O14) -/

namespace Sys2Proof.Claims

open Sys2Proof.Machine

section
variable {s : State}

/-! ### Ages and packets (R337, R341) -/

theorem cumulusAgeExpire_leaves {d b : Nat} {v : CuBuf} (buf : mapGet? (s.die d).bufs b = some v) (some : v.ents ≠ []) :
    exec (.cumulusAgeExpire d b) s = .next ((s.atLeast (v.start + (s.die d).aget)).cuLeave d b) := by
  show execCumulusAgeExpire d b s = _
  simp only [execCumulusAgeExpire, buf]
  exact congrArg _ (if_neg (by simpa using some))

/-- A home packet, first of its buffer, is applied with the entries whose word is uncorrectable rejected (R343). -/
theorem cumulusPacketApply_home {p : CuPkt} (bad : List (Nat × Nat × Nat)) (named : (s.cuPkts.find? fun q => q.id = p.id) = some p)
    (home : p.bit < 32) (first : (s.cuPkts.find? fun q => q.src = p.src && q.bit = p.bit) = some p)
    (reach : (p.ents.all fun e => s.writeRoom (e.word / 128) && s.linesRouted p.src [e.word / 128]) = true) :
    exec (.cumulusPacketApply p.id bad) s = .next (((({ s with cuPkts := s.cuPkts.filter fun q => q.id ≠ p.id } : State)).cuApplyAll p
      ((bad.filter fun b => b.2.1 = 5).map fun b => (b.1, 5, 0))).syncDirty p.src) := by
  show execCumulusPacketApply p.id bad s = _
  simp only [execCumulusPacketApply, named, first, if_pos home, reach]
  exact congrArg _ (if_neg (by simp))

/-! ### The fault log (R343, R344) -/

section
variable {r : CuRej} {rest : List CuRej} (oldest : s.cuRejs = r :: rest)
include oldest

/-- A rejection that its context's log does not take is counted. -/
theorem cumulusRejectLog_lost (full : bitsOf (s.ctx r.ent.ctx).aflb.toNat 48 5 < 4 ∨
      2 ^ bitsOf (s.ctx r.ent.ctx).aflb.toNat 48 5 ≤ ((s.ctx r.ent.ctx).aflt - (s.ctx r.ent.ctx).aflh).toNat) :
    exec .cumulusRejectLog s = .next (((({ s with cuRejs := rest } : State)).modCtx r.ent.ctx fun c =>
      { c with afll := c.afll + 1 }).syncDirty r.src) := by
  show execCumulusRejectLog s = _
  simp only [execCumulusRejectLog, oldest]
  exact congrArg (fun t : State => Host.Outcome.next (t.syncDirty r.src)) (if_pos (by simpa using full))

/-- A rejection that its log takes is written at the log's tail, and the groups that it concerns have it pending. -/
theorem cumulusRejectLog_written (log : 4 ≤ bitsOf (s.ctx r.ent.ctx).aflb.toNat 48 5)
    (room : ((s.ctx r.ent.ctx).aflt - (s.ctx r.ent.ctx).aflh).toNat < 2 ^ bitsOf (s.ctx r.ent.ctx).aflb.toNat 48 5)
    (grps : r.ent.grps ≠ []) :
    let c := s.ctx r.ent.ctx
    let a := c.aflb.toNat % 2 ^ 48 + 64 * (c.aflt.toNat % 2 ^ bitsOf c.aflb.toNat 48 5)
    exec .cumulusRejectLog s = .next (((((({ s with cuRejs := rest } : State)).homeWrite none a
      (r.bytes c.aflt.toNat s.dev.tns)).modCtx r.ent.ctx fun c => { c with aflt := c.aflt + 1 }).pendAgg r).syncDirty r.src) := by
  intro c a
  have takes : ¬ (decide (bitsOf c.aflb.toNat 48 5 < 4) || decide (2 ^ bitsOf c.aflb.toNat 48 5 ≤ (c.aflt - c.aflh).toNat)) = true := by
    simpa using ⟨log, room⟩
  show execCumulusRejectLog s = _
  simp only [execCumulusRejectLog, oldest]
  exact congrArg (fun t : State => Host.Outcome.next (t.syncDirty r.src)) ((if_neg takes).trans (if_neg (by simpa using grps)))

end

/-! ### Egress slots (R346) -/

section
variable {d : Nat} (reach : s.disconnected (s.egr d).peer = false)
include reach

theorem egressDeliver_reconnects (bound : (s.egr d).state ≠ 0) (waits : (s.egr d).state ≠ 2) :
    exec (.egressDeliver d) s = .next s.reconnect :=
  congrArg Host.Outcome.next ((if_neg (by simp [bound, reach])).trans (if_pos waits))

section
variable (sends : (s.egr d).state = 2)
include sends

/-- In STATE 2 an egress slot has a peer that it reaches, and no state to enter first. -/
theorem egress_sends : ¬ (decide ((s.egr d).state = 0) || s.disconnected (s.egr d).peer) = true ∧ ¬ (s.egr d).state ≠ 2 := by
  simp [sends, reach]

theorem egressDeliver_empty (none : (s.egr d).recs = []) :
    exec (.egressDeliver d) s = .next (s.setEgr d { s.egr d with state := 0, peer := 0, full := false }) := by
  obtain ⟨bound, now⟩ := egress_sends reach sends
  show execEgressDeliver d s = _
  simp only [execEgressDeliver, if_neg bound, if_neg now, none]

/-- With its last record the slot is free. -/
theorem egressDeliver_last {e : CuEntry} (one : (s.egr d).recs = [e]) :
    let v := s.egr d
    exec (.egressDeliver d) s = .next ((s.setEgr d
      { v with state := 0, peer := 0, full := false, head := v.head + 1, recs := [] }).cuSend (48 + v.peer % 2) 96 v.peer [e]) := by
  intro v
  obtain ⟨bound, now⟩ := egress_sends reach sends
  show execEgressDeliver d s = _
  simp [execEgressDeliver, bound, now, one, v]

end

end

end

/-- Settles O14, event by event. -/
theorem cumulusEvents : Obligations.CumulusEvents := by
  intro s d b
  refine ⟨fun v => cumulusAgeExpire_leaves, fun p bad named home first => cumulusPacketApply_home bad named home first,
    fun r rest oldest => ⟨cumulusRejectLog_lost oldest, cumulusRejectLog_written oldest⟩,
    fun bound reach waits => egressDeliver_reconnects reach bound waits,
    fun sends reach => ⟨egressDeliver_empty reach sends, fun e => egressDeliver_last reach sends⟩⟩

end Sys2Proof.Claims

/-! ## Sessions, codewords and tag groups of a link (O18) -/

namespace Sys2Proof.Claims

open Sys2Proof.Machine

/-! ### A receiving port (R366 to R370) -/

section
variable {v : Port}

/-- Outside skid mode nothing is released before its tag verifies (R370). -/
theorem skid_off (off : v.skida = false) : v.skid = v := by
  simp [Port.skid, off]

/-- An idle flit in order is accepted (R368). -/
theorem accept_idle_next {f : LinkFlit} (off : v.skida = false) (idle : f.kind = .idle) (next : f.seq = v.rxSeq) :
    v.accept [f] = { v with rxSeq := (v.rxSeq + 1) % 65536, rxGap := false } := by
  simp only [Port.accept, next, ne_eq, not_true_eq_false, if_false, idle]
  exact skid_off off

/-- A flit out of order asks for a replay, once for a gap (R368). -/
theorem accept_gap {f : LinkFlit} (r : List LinkFlit) (off : v.skida = false) (other : f.seq ≠ v.rxSeq) (once : v.rxGap = false) :
    v.accept (f :: r) = { v with rxGap := true, prpl := satHalf v.prpl false } := by
  simp only [Port.accept, if_pos other, skid_off off, Port.gap, once]
  rfl

/-- A codeword that is lacking asks for a replay, but for a gap that was asked for and does not begin in it (R367, R368). -/
theorem lost_eq (v : Port) (first : Nat) : v.lost first =
    if !v.rxGap || decide ((v.rxSeq + 65536 - first % 65536) % 65536 < 4) then
      { v with rxGap := true, prpl := satHalf v.prpl false } else v := by
  rw [Port.lost, ← ite_not]
  refine if_congr ?_ rfl rfl
  simp only [Bool.and_eq_true, Bool.or_eq_true, decide_eq_true_eq, Bool.not_eq_true']
  rw [not_and_or, Bool.not_eq_true, not_le]

/-- A verified tag group is counted; before the counter reaches its end new keys take effect (R369). -/
theorem countTag_received (v : Port) : v.countTag false =
    if v.tagCount + 1 = 2 ^ 40 - 1 then { v with keygen := v.keygen + 1, txTags := 0, tagCount := 0 }
    else { v with tagCount := v.tagCount + 1 } := rfl

/-- Counting a corrected codeword changes nothing but its counter (R367). -/
def corrected (v : Port) (errs : Nat) : Port := if errs = 0 then v else { v with pfec := satHalf v.pfec false }

theorem corrected_frame (v : Port) (errs : Nat) : (corrected v errs).skida = v.skida ∧ (corrected v errs).rxSeq = v.rxSeq ∧
    (corrected v errs).rxGap = v.rxGap ∧ (corrected v errs).prpl = v.prpl := by
  unfold corrected
  split <;> exact ⟨rfl, rfl, rfl, rfl⟩

end

section
variable {s : State} {p : Nat}

/-! ### Sessions (R369) -/

section
variable (bring : (s.port p).bring = true)
include bring

theorem portSessionEstablish_up (lat : Nat) (good : (s.port p).goodWl ≠ []) :
    exec (.portSessionEstablish p true lat) s = .next (s.setPort p ((s.port p).up lat)).reconnect := by
  refine congrArg Host.Outcome.next ((if_neg ?_).trans (if_pos ?_))
  · simp [bring]
  · simpa using good

theorem portSessionEstablish_fails (lat : Nat) : exec (.portSessionEstablish p false lat) s =
    .next ((s.setPort p { s.port p with bring := false }).post { type := 8, args := [BitVec.ofNat 64 p, 4] }) :=
  congrArg Host.Outcome.next ((if_neg (by simp [bring])).trans (if_neg (by simp)))

end

theorem sessionRekey_session (session : (s.port p).session = true) : exec (.sessionRekey p) s =
    .next (s.setPort p { s.port p with keygen := (s.port p).keygen + 1, tagCount := 0, txTags := 0 }) :=
  congrArg Host.Outcome.next (if_pos session)

/-! ### Codewords (R367, R368) -/

section
variable (on : (s.port p).state ≠ 0)
include on

theorem codewordReceive_uncorrectable (first : Nat) {errs : Nat} (l : List LinkFlit) (many : 8 < errs) :
    let v := s.port p
    let n := (Config.freeWord s.fresh).toNat % 16
    let bad := (v.uncor ++ [(n, s.dev.tns)]).filter fun (b : Nat × Nat) => s.dev.tns < b.2 + 1000000
    let c : Port := { v with pfec := satHalf v.pfec true, uncor := bad }
    let asks := !v.rxGap || decide ((v.rxSeq + 65536 - first % 65536) % 65536 < 4)
    let u := ({ s with fresh := s.fresh + 1 } : State).setPort p
      (if asks then { c with rxGap := true, prpl := satHalf v.prpl false } else c)
    exec (.codewordReceive p first errs l) s =
      .next (if 64 ≤ (bad.filter fun (b : Nat × Nat) => b.1 = n).length then u.failWl p n 2 else u) := by
  intro v n bad c asks u
  refine congrArg Host.Outcome.next ((if_neg on).trans ((if_pos many).trans ?_))
  rw [State.badCodeword, lost_eq]

/-- A codeword that is as long as it says where it begins is corrected, and its flits are taken. -/
theorem codewordReceive_corrected {errs : Nat} (f : LinkFlit) (r : List LinkFlit) (few : errs ≤ 8) :
    exec (.codewordReceive p f.seq errs (f :: r)) s = .next (s.setPort p ((corrected (s.port p) errs).accept (f :: r)).pump) := by
  refine congrArg Host.Outcome.next ((if_neg on).trans ((if_neg few.not_gt).trans ?_))
  exact congrArg (s.setPort p) (if_pos rfl)

end

/-! ### Tag groups (R370) -/

section
variable {i : Nat} (tag : ((s.port p).tagHeld.findIdx? fun (f : LinkFlit) => f.kind = .tag) = some i)
include tag

theorem tagGroupVerify_ok : let v := s.port p
    let got := takePkts 64 (v.asm ++ dataOf (v.tagHeld.take (i + 1)))
    exec (.tagGroupVerify p true) s = .next (s.setPort p { v.countTag false with
      tagHeld := v.tagHeld.drop (i + 1), asm := got.2, tagFails := 0,
      rxq := v.rxq ++ got.1.filter fun (q : FabPkt) => !v.early.contains q,
      early := v.early.filter fun (q : FabPkt) => !got.1.contains q }) := by
  intro v got
  show execTagGroupVerify p true s = _
  simp only [execTagGroupVerify, tag]
  rfl

/-- The third failure of one group. -/
theorem tagGroupVerify_third (fails : 2 ≤ (s.port p).tagFails) : exec (.tagGroupVerify p false) s =
    .next ((s.setPort p { s.port p with prpl := satHalf (s.port p).prpl true }).portDown p 3) := by
  show execTagGroupVerify p false s = _
  simp only [execTagGroupVerify, tag]
  exact congrArg Host.Outcome.next ((if_neg nofun).trans (if_pos fails))

end

end

/-- Settles O18, event by event. -/
theorem linkEvents : Obligations.LinkEvents := by
  intro s p v
  refine ⟨fun bring good lat => ⟨portSessionEstablish_up bring lat good, rfl, rfl, rfl, rfl, portSessionEstablish_fails bring lat⟩,
    sessionRekey_session, fun on => ⟨fun first errs l many => codewordReceive_uncorrectable on first l many, ?corrected⟩,
    fun i tag => ⟨?verified, tagGroupVerify_third tag⟩⟩
  case corrected =>
    intro errs f few off idle c
    obtain ⟨skida, rxSeq, rxGap, prpl⟩ := corrected_frame v errs
    refine ⟨fun next => ?_, fun other once => ?_⟩
    · rw [codewordReceive_corrected on f [] few, accept_idle_next (skida.trans off) idle (next.trans rxSeq.symm), rxSeq]
      rfl
    · rw [codewordReceive_corrected on f [] few, accept_gap [] (skida.trans off) (fun h => other (h.trans rxSeq)) (rxGap.trans once), prpl]
      rfl
  case verified =>
    intro got base
    exact (tagGroupVerify_ok tag).trans (by rw [countTag_received])

end Sys2Proof.Claims

/-! ## Wavelengths, lanes and widths of a port (O56) -/

namespace Sys2Proof.Claims

open Sys2Proof.Machine

/-! ### Wavelengths and lanes (R365) -/

/-- The lane that loses its wavelength `w`, or that was to have it. -/
def laneLost (v : Port) (w : Nat) : Option Nat :=
  match v.remaps.find? fun r => r.2.1 = w with
  | some r => some r.1
  | none => (List.range 8).find? fun k => v.lane k = w

section
variable {v : Port} {w : Nat}

/-- A failed wavelength is on the lanes that it was on. -/
theorem laneLost_failedAt (v : Port) (w n : Nat) : laneLost (failedAt v w n) w = laneLost v w := rfl

theorem laneLost_of_mapped (target : ∀ r ∈ v.remaps, r.2.1 ≠ w) :
    laneLost v w = (List.range 8).find? fun k => v.lane k = w := by
  have none : (v.remaps.find? fun r => r.2.1 = w) = none := by simpa [List.find?_eq_none] using target
  simp only [laneLost, none]

theorem laneLost_eq_none (unmapped : v.mapped w = false) (target : ∀ r ∈ v.remaps, r.2.1 ≠ w) : laneLost v w = none := by
  rw [laneLost_of_mapped target]
  simpa [List.find?_eq_none, Port.mapped] using unmapped

/-- A lane of a port without remaps goes to its lowest good spare; its port's width is what lanes below it allow, unless it is
lane 0. -/
theorem loseLane_spare {k x old : Nat} (none : v.remaps = []) (spare : v.spare = some x) :
    v.loseLane k old = some { v with remaps := [(k, x, old)], width := if k = 0 then v.width else max v.width (codeFor k) } := by
  simp only [Port.loseLane, spare, none, List.nil_append]

end

section
variable {s : State} {p w n : Nat}

theorem failWl_failed (n : Nat) (failed : (s.port p).failed w = true) : s.failWl p w n = s :=
  if_pos (by simp [failed])

section
variable (hp : p < 32) (hw : w < 10) (good : (s.port p).failed w = false)
include hp hw good

/-- A wavelength of the device that has not failed yet is reported. -/
theorem wavelength_fails : ¬ (decide (32 ≤ p) || decide (10 ≤ w) || (s.port p).failed w) = true := by
  simp [good]
  omega

/-- What a port that is not down does about it. -/
theorem failWl_on (n : Nat) (on : (s.port p).state ≠ 0) : s.failWl p w n =
    let v := failedAt (s.port p) w n
    match laneLost v w with
    | none => (s.tellWl p w n).setPort p v
    | some k =>
      match ({ v with remaps := v.remaps.filter fun r => r.1 ≠ k } : Port).loseLane k (s.port p).oldWidth with
      | some u => (if u.lmap = v.lmap then s.tellWl p w n else (s.tellWl p w n).remapped p w n [p] u.lmap).setPort p u.pump
      | none => ((s.tellWl p w n).setPort p v).portDown p 2 :=
  (if_neg (wavelength_fails hp hw good)).trans (if_neg on)

/-- A port that is down, and a wavelength that neither carries a lane nor is to carry one, lose no lane. -/
theorem failWl_unused (n : Nat)
    (idle : (s.port p).state = 0 ∨ ((s.port p).mapped w = false ∧ ∀ r ∈ (s.port p).remaps, r.2.1 ≠ w)) :
    s.failWl p w n = (s.tellWl p w n).setPort p (failedAt (s.port p) w n) := by
  by_cases down : (s.port p).state = 0
  · exact (if_neg (wavelength_fails hp hw good)).trans (if_pos down)
  · obtain ⟨unmapped, target⟩ := idle.resolve_left down
    rw [failWl_on hp hw good n down]
    simp only [laneLost_failedAt, laneLost_eq_none unmapped target]

/-- A lane that loses its wavelength has the lowest good spare. -/
theorem failWl_remaps {k x : Nat} (on : (s.port p).state ≠ 0) (none : (s.port p).remaps = [])
    (lane : ((List.range 8).find? fun k => (s.port p).lane k = w) = some k) (spare : (failedAt (s.port p) w n).spare = some x) :
    s.failWl p w n = (s.tellWl p w n).setPort p ({ failedAt (s.port p) w n with
      remaps := [(k, x, (s.port p).width)],
      width := if k = 0 then (s.port p).width else max (s.port p).width (codeFor k) } : Port).pump := by
  have lost : laneLost (failedAt (s.port p) w n) w = some k := by
    rw [laneLost_failedAt, laneLost_of_mapped (by simp [none]), lane]
  have same : ({ failedAt (s.port p) w n with
      remaps := (failedAt (s.port p) w n).remaps.filter fun r => r.1 ≠ k } : Port) = failedAt (s.port p) w n := by
    simp [failedAt, none]
  have old : (s.port p).oldWidth = (s.port p).width := by simp [Port.oldWidth, none]
  rw [failWl_on hp hw good n on]
  simp only [lost, same, old, loseLane_spare (v := failedAt (s.port p) w n) none spare]
  exact congrArg (fun t : State => t.setPort p _) (if_pos trivial)

end

/-- A remap ends, and with none left the width returns to the one agreed on. -/
theorem laneRemapDone_last {k x o : Nat} (one : (s.port p).remaps = [(k, x, o)]) : let v := s.port p
    exec (.laneRemapDone p k) s = .next ((s.remapped p (v.lane k) (mapGet v.why (v.lane k) 0) [p, k, x] (v.setLane k x).lmap).setPort p
      ({ v.setLane k x with remaps := [], width := max o v.bound } : Port).pump) := by
  intro v
  show execLaneRemapDone p k s = _
  simp [execLaneRemapDone, one]
  rfl

end

theorem wavelengthEvents : WavelengthEvents := by
  intro s p w n hp hw v told
  refine ⟨fun failed => ?_, fun good idle => ?_, fun k x good on none lane spare => ?_, fun k x o one => laneRemapDone_last one⟩
  · exact congrArg Host.Outcome.next (failWl_failed n failed)
  · exact congrArg Host.Outcome.next (failWl_unused hp hw good n idle)
  · exact congrArg Host.Outcome.next (failWl_remaps hp hw good on none lane spare)

/-! ### Changes of width (R373 to R375) -/

/-- A bit of a word is its bit as a number. -/
theorem bitOf_toNat (x : DWord) (i : Nat) : bitOf x.toNat i = x.getLsbD i := by
  rw [bitOf, BitVec.getLsbD, Nat.testBit_eq_decide_div_mod_eq]
  rfl

/-- A port whose change of width has ended: lanes still being remapped stay out of use until they are (R365, R375). -/
def widthReached (v : Port) : Port :=
  let w := max v.wtgt v.bound
  { v with state := 1, width := v.besides w, wtgt := w, remaps := v.remaps.map fun (r : Nat × Nat × Nat) => (r.1, r.2.1, w) }

section
variable {v : Port}

/-- A port that runs starts a change to a narrower width. -/
theorem change_narrows {code : Nat} (tns : Nat) (on : v.state = 1) (narrower : v.oldWidth < code) :
    v.change code tns = { v with state := 2, wtgt := code, changeTns := tns } := by
  refine (if_pos on).trans ((if_neg (by omega)).trans ?_)
  rw [if_pos narrower]

/-- A port that runs starts a change to a wider width. -/
theorem change_wakes {code : Nat} (tns : Nat) (on : v.state = 1) (wider : code < v.oldWidth) :
    v.change code tns = { v with state := 3, wtgt := code, changeTns := tns } := by
  refine (if_pos on).trans ((if_neg (by omega)).trans ?_)
  rw [if_neg (by omega)]

theorem changed_last (tns : Nat) (last : v.pending = []) : v.changed tns = widthReached v := by
  simp only [Port.changed, widthReached, last]

theorem finalWidth_on (on : v.state = 1) (last : v.pending = []) : v.finalWidth = v.oldWidth := by
  simp [Port.finalWidth, on, last]

theorem besides_none (none : v.remaps = []) : v.besides (max v.wtgt v.bound) = max v.wtgt v.bound := by
  simp [Port.besides, none]

end

section
variable {s : State} {p n : Nat}

theorem portNarrowDone_last (narrows : (s.port p).state = 2) (last : (s.port p).pending = []) :
    exec (.portNarrowDone p) s = .next (s.setPort p (widthReached (s.port p))) :=
  congrArg Host.Outcome.next ((if_pos narrows).trans (congrArg (s.setPort p) (changed_last _ last)))

theorem portWakeDone_last (wakes : (s.port p).state = 3) (last : (s.port p).pending = []) :
    exec (.portWakeDone p) s = .next (s.setPort p (widthReached { s.port p with wakes := (s.port p).wakes + 1 })) :=
  congrArg Host.Outcome.next ((if_pos wakes).trans (congrArg (s.setPort p) (changed_last _ last)))

section
variable (on : (s.port p).state = 1) (last : (s.port p).pending = [])
include on last

/-- A queue as long as the bound of AUTO wakes the port to WMAX. -/
theorem portAutoWake_wakes (auto : (s.port p).cfg.getLsbD 4 = true) (narrow : (s.port p).wmax < (s.port p).width)
    (wider : max (s.port p).wmax (s.port p).bound < (s.port p).oldWidth)
    (queue : 16 * ((s.port p).cfg.toNat / 256 % 256) ≤ (s.port p).txWait.length) : let v := s.port p
    exec (.portAutoWake p) s = .next (s.setPort p
      { v.setWreq v.wmax with state := 3, wtgt := max v.wmax v.bound, changeTns := s.dev.tns }) := by
  intro v
  refine congrArg Host.Outcome.next ((if_pos ?_).trans (congrArg (s.setPort p) (change_wakes _ on wider)))
  simpa [finalWidth_on on last, on, auto, narrow, bitsOf, queue] using wider

theorem farEndNarrow_narrows (code : n < 4) (narrower : (s.port p).oldWidth < n) (asked : n ≤ (s.port p).wreq) :
    exec (.farEndNarrow p n) s = .next (s.setPort p { s.port p with state := 2, wtgt := n, changeTns := s.dev.tns }) := by
  refine congrArg Host.Outcome.next ((if_pos ?_).trans (congrArg (s.setPort p) (change_narrows _ on narrower)))
  rw [finalWidth_on on last, on]
  simp [code, narrower, asked]

theorem farEndWake_wakes (code : n < 4) (wider : max n (s.port p).bound < (s.port p).oldWidth) : let v := s.port p
    exec (.farEndWake p n) s = .next (s.setPort p
      { v.setWreq (max n v.bound) with state := 3, wtgt := max n v.bound, changeTns := s.dev.tns }) := by
  intro v
  refine congrArg Host.Outcome.next ((if_pos ?_).trans (congrArg (s.setPort p) (change_wakes _ on wider)))
  rw [finalWidth_on on last, on]
  simpa [code] using wider

end

/-! ### Writes of PCFG (R372) -/

/-- A write breaks a rule of PCFG exactly where it is not legal. -/
theorem pcfg_breaks_iff (v : Port) (n : Nat) : (bitsOf n 5 3 ≠ 0 || n / 2 ^ 18 ≠ 0 || (bitOf n 4 && bitsOf n 8 8 = 0) ||
    n % 4 < bitsOf n 2 2 || n % 4 < v.bound || bitsOf n 2 2 < v.bound) = true ↔ ¬ PcfgLegal v n := by
  simp only [PcfgLegal, Bool.or_eq_true, Bool.and_eq_true, decide_eq_true_eq, not_and_or, not_le, Classical.not_imp, not_not,
    or_assoc]
  rfl

theorem pcfgWrite_illegal (x : DWord) (illegal : ¬ PcfgLegal (s.port p) x.toNat) : s.pcfgWrite p x = s.count 0 :=
  if_pos ((pcfg_breaks_iff _ _).mpr illegal)

section
variable {x : DWord} (legal : PcfgLegal (s.port p) x.toNat)
include legal

theorem pcfgWrite_legal : ¬ (bitsOf x.toNat 5 3 ≠ 0 || x.toNat / 2 ^ 18 ≠ 0 || (bitOf x.toNat 4 && bitsOf x.toNat 8 8 = 0) ||
    x.toNat % 4 < bitsOf x.toNat 2 2 || x.toNat % 4 < (s.port p).bound || bitsOf x.toNat 2 2 < (s.port p).bound) = true :=
  fun h => (pcfg_breaks_iff _ _).mp h legal

/-- A write with EN = 0 takes the port down, if it was up or came up. -/
theorem pcfgWrite_disable (off : x.getLsbD 17 = false) : s.pcfgWrite p x =
    if (s.port p).state ≠ 0 || (s.port p).bring then (s.setPort p { s.port p with cfg := x }).portDown p 1
    else s.setPort p { s.port p with cfg := x } :=
  (if_neg (pcfgWrite_legal legal)).trans (if_pos (by rw [bitOf_toNat, off]; rfl))

section
variable (en : x.getLsbD 17 = true)
include en

/-- A write with EN = 1 brings a port up that is down and has a good wavelength. -/
theorem pcfgWrite_bringUp (down : (s.port p).state = 0) (bring : (s.port p).bring = false) (good : (s.port p).goodWl ≠ []) :
    s.pcfgWrite p x = s.setPort p { s.port p with cfg := x, bring := true } := by
  refine (if_neg (pcfgWrite_legal legal)).trans ((if_neg (by simp [bitOf_toNat, en])).trans ((if_pos down).trans ?_))
  exact (if_neg (by simp [bring])).trans (if_neg (by simpa using good))

/-- Another width of a port that runs starts a change. -/
theorem pcfgWrite_change (on : (s.port p).state = 1) (other : x.toNat % 4 ≠ (s.port p).wreq) :
    s.pcfgWrite p x = s.setPort p (({ s.port p with cfg := x, skida := x.getLsbD 16 } : Port).change (x.toNat % 4) s.dev.tns) := by
  refine (if_neg (pcfgWrite_legal legal)).trans ((if_neg (by simp [bitOf_toNat, en])).trans ((if_neg (by simp [on])).trans ?_))
  simp only [bitOf_toNat]
  exact congrArg (s.setPort p) (if_pos other)

section
variable (hp : p < 32)
include hp

theorem portNarrow_narrows (on : (s.port p).state = 1) (asked : (s.port p).wreq < x.toNat % 4)
    (narrower : (s.port p).oldWidth < x.toNat % 4) : exec (.portNarrow p x) s = .next (s.setPort p
      { s.port p with cfg := x, skida := x.getLsbD 16, wtgt := x.toNat % 4, changeTns := s.dev.tns, state := 2 }) := by
  refine congrArg Host.Outcome.next ((if_pos (by simp [hp, en, on, asked])).trans ?_)
  rw [pcfgWrite_change legal en on asked.ne', change_narrows (v := { s.port p with cfg := x, skida := x.getLsbD 16 }) _ on narrower]

theorem portWake_wakes (on : (s.port p).state = 1) (asked : x.toNat % 4 < (s.port p).wreq)
    (wider : x.toNat % 4 < (s.port p).oldWidth) : exec (.portWake p x) s = .next (s.setPort p
      { s.port p with cfg := x, skida := x.getLsbD 16, wtgt := x.toNat % 4, changeTns := s.dev.tns, state := 3 }) := by
  refine congrArg Host.Outcome.next ((if_pos (by simp [hp, en, on, asked])).trans ?_)
  rw [pcfgWrite_change legal en on asked.ne, change_wakes (v := { s.port p with cfg := x, skida := x.getLsbD 16 }) _ on wider]

end
end
end

/-- PORT_ENABLE is a write of PCFG to a port that is down. -/
theorem exec_portEnable {x : DWord} (hp : p < 32) (en : x.getLsbD 17 = true) (down : (s.port p).state = 0) :
    exec (.portEnable p x) s = .next (s.pcfgWrite p x) :=
  congrArg Host.Outcome.next (if_pos (by simp [hp, en, down]))

theorem exec_portDisable {x : DWord} (hp : p < 32) (off : x.getLsbD 17 = false) (legal : PcfgLegal (s.port p) x.toNat) :
    exec (.portDisable p x) s = .next (if (s.port p).state ≠ 0 || (s.port p).bring then
      (s.setPort p { s.port p with cfg := x }).portDown p 1 else s.setPort p { s.port p with cfg := x }) :=
  congrArg Host.Outcome.next ((if_pos (by rw [off, decide_eq_true hp]; rfl)).trans (pcfgWrite_disable legal off))

end

theorem portWidthEvents : PortWidthEvents := by
  intro s p n x hp v w ran
  refine ⟨portNarrowDone_last, portWakeDone_last, fun none => ⟨besides_none none, congrArg (List.map _) none⟩,
    fun on last => ⟨portAutoWake_wakes on last, fun code narrower => farEndNarrow_narrows on last code narrower,
      fun wider code => farEndWake_wakes on last code wider,
      fun en legal => ⟨portNarrow_narrows legal en hp on, portWake_wakes legal en hp on⟩⟩,
    fun en down => ⟨fun illegal => ?illegal, fun legal bring good => ?bringUp⟩,
    fun off legal => ⟨fun down bring => ?kept, fun up => ?down⟩⟩
  case illegal => exact (exec_portEnable hp en down).trans (congrArg _ (pcfgWrite_illegal x illegal))
  case bringUp => exact (exec_portEnable hp en down).trans (congrArg _ (pcfgWrite_bringUp legal en down bring good))
  case kept => exact (exec_portDisable hp off legal).trans (congrArg _ (if_neg (by simp [v] at down bring ⊢; simp [down, bring])))
  case down => exact (exec_portDisable hp off legal).trans (congrArg _ (if_pos (by simpa using up)))

/-- Settles O56. -/
theorem portEvents : Obligations.PortEvents := ⟨wavelengthEvents, portWidthEvents⟩

end Sys2Proof.Claims

/-! ## Ageing words, the time counter and the photonic registers (O57) -/

namespace Sys2Proof.Claims

open Sys2Proof.Machine

/-! ### Ageing and its storing (R376, R409) -/

/-- The ageing words of a wavelength as an event brings them (R371, R376). -/
def aged (v : Port) (p w bias mpwr temp hrs : Nat) : Port :=
  { v with
    lage := mapSet v.lage w (BitVec.ofNat 64 (bias % 65536 + mpwr % 65536 * 2 ^ 16 + hrs % 2 ^ 32 * 2 ^ 32)),
    lageH := mapSet v.lageH w (BitVec.ofNat 64 (ageIndex (bias % 65536) (Config.bias0 p w) + temp % 256 * 2 ^ 16 +
      (mapGet v.lageH w 0).toNat / 2 ^ 24 * 2 ^ 24)) }

section
variable {s : State} {p w : Nat}

/-- The words are written; the index is reported when it reaches 49,152, and below 65,535 it fails nothing. -/
theorem lageUpdate_below {bias : Nat} (mpwr temp hrs : Nat) (hp : p < 32) (hw : w < 10)
    (below : ageIndex (bias % 65536) (Config.bias0 p w) < 65535) :
    let t := s.setPort p (aged (s.port p) p w bias mpwr temp hrs)
    exec (.lageUpdate p w bias mpwr temp hrs) s = .next
      (if (mapGet (s.port p).lageH w 0).toNat % 65536 < 49152 && 49152 ≤ ageIndex (bias % 65536) (Config.bias0 p w) then
        t.post { type := 7, args := [BitVec.ofNat 64 p, BitVec.ofNat 64 w,
          BitVec.ofNat 64 (ageIndex (bias % 65536) (Config.bias0 p w))] } else t) := by
  refine congrArg Host.Outcome.next ((if_neg ?_).trans (if_neg below.ne))
  simp
  omega

/-- Entries put in turn: one whose key no other entry puts differently is found. -/
theorem mapGet?_foldl_puts {α : Type} {l : List (Nat × α)} (m : NMap α) {k : Nat} {v : α} (put : (k, v) ∈ l)
    (one : ∀ e ∈ l, e.1 = k → e.2 = v) : mapGet? (l.foldl (fun m e => mapSet m e.1 e.2) m) k = some v := by
  induction l using List.reverseRecOn with
  | nil => simp at put
  | append_singleton r e ih =>
    rw [List.foldl_append, List.foldl_cons, List.foldl_nil, mapGet?_mapSet]
    split
    · next h => rw [one e (by simp) h.symm]
    · next h =>
      have earlier : (k, v) ∈ r := (List.mem_append.mp put).resolve_right fun last => h (by rw [← List.mem_singleton.mp last])
      exact ih earlier fun e he => one e (List.mem_append_left _ he)

/-- What is stored of the wavelengths of the ports. -/
def ageEntries (ports : NMap Port) : List (Nat × Nat × Nat) :=
  ports.flatMap fun kv => (List.range 10).map fun w =>
    (kv.1 * 16 + w, (mapGet kv.2.lage w 0).toNat / 2 ^ 32, (mapGet kv.2.lageH w 0).toNat % 65536)

theorem lageFlashStore_puts : exec .lageFlashStore s = .next { s with str := { s.str with
    flash := (ageEntries s.ports).foldl (fun m e => mapSet m e.1 e.2) s.str.flash } } := by
  simp only [ageEntries, List.foldl_flatMap, List.foldl_map]
  rfl

/-- Every wavelength has its own place, and ports are listed once. -/
theorem ageEntries_one {ports : NMap Port} (rise : (ports.map Prod.fst).Pairwise (· < ·)) {kv : Nat × Port} (mem : kv ∈ ports) {w : Nat}
    (hw : w < 10) : ∀ e ∈ ageEntries ports, e.1 = kv.1 * 16 + w →
      e.2 = ((mapGet kv.2.lage w 0).toNat / 2 ^ 32, (mapGet kv.2.lageH w 0).toNat % 65536) := by
  intro e he key
  simp only [ageEntries, List.mem_flatMap, List.mem_map, List.mem_range] at he
  obtain ⟨kv', mem', w', hw', rfl⟩ := he
  have place : kv'.1 * 16 + w' = kv.1 * 16 + w := key
  have same : kv' = kv := List.inj_on_of_nodup_map (rise.imp fun h => h.ne) mem' mem (by omega)
  have wave : w' = w := by omega
  rw [same, wave]

theorem lageFlashStore_finds (rise : (s.ports.map Prod.fst).Pairwise (· < ·)) :
    ∃ m, exec .lageFlashStore s = .next { s with str := { s.str with flash := m } } ∧
      ∀ kv ∈ s.ports, ∀ w < 10, mapGet? m (kv.1 * 16 + w) =
        some ((mapGet kv.2.lage w 0).toNat / 2 ^ 32, (mapGet kv.2.lageH w 0).toNat % 65536) := by
  refine ⟨_, lageFlashStore_puts, fun kv mem w hw => mapGet?_foldl_puts _ ?_ (ageEntries_one rise mem hw)⟩
  exact List.mem_flatMap.mpr ⟨kv, mem, List.mem_map.mpr ⟨w, List.mem_range.mpr hw, rfl⟩⟩

/-! ### The time counter (R377) -/

/-- The counter of the far end moves this one forward, and never back. -/
theorem timeCounterReceive_on {f : Nat} (hf : f < 2 ^ 48) (on : (s.port p).state ≠ 0) : let v := s.port p
    let lat := v.ptime.toNat / 2 ^ 48 % 2 ^ 12
    let d := (f + lat + 2 ^ 48 - s.dev.tns % 2 ^ 48) % 2 ^ 48
    let t := s.setPort p { v with ptime := BitVec.ofNat 64 (f + lat * 2 ^ 48) }
    exec (.timeCounterReceive p f) s = .next (if 1 ≤ d && d < 2 ^ 47 then
      t.modDev fun x => { x with tns := x.tns + d, skip := x.skip + d } else t) := by
  intro v lat d t
  show execTimeCounterReceive p f s = _
  rw [execTimeCounterReceive, Nat.mod_eq_of_lt hf]
  exact congrArg Host.Outcome.next (if_neg on)

end

theorem ageingAndTime : AgeingAndTime := by
  intro s p w v
  refine ⟨?ageing, lageFlashStore_finds, fun on => congrArg _ (if_neg on),
    fun off => ⟨congrArg _ (if_pos off), fun f => congrArg _ (if_pos off)⟩, ?time⟩
  case ageing =>
    intro bias mpwr temp hrs hp hw i old t
    refine ⟨fun below => ?_, fun before reached below => ?_⟩
    · have quiet : ¬ (decide (old % 65536 < 49152) && decide (49152 ≤ i)) = true := by simp; omega
      exact (lageUpdate_below mpwr temp hrs hp hw (Nat.lt_trans below (by decide))).trans (congrArg _ (if_neg quiet))
    · exact (lageUpdate_below mpwr temp hrs hp hw below).trans (congrArg _ (if_pos (by rw [decide_eq_true before, decide_eq_true reached]; rfl)))
  case time =>
    intro f hf on lat d t
    refine ⟨fun ahead near => ?_, fun back => ?_⟩
    · exact (timeCounterReceive_on hf on).trans (congrArg _ (if_pos (by rw [decide_eq_true ahead, decide_eq_true near]; rfl)))
    · have stays : ¬ (decide (1 ≤ d) && decide (d < 2 ^ 47)) = true := by simp; omega
      exact (timeCounterReceive_on hf on).trans (congrArg _ (if_neg stays))

/-! ### The photonic registers (R415) -/

section
variable {s : State} {p w : Nat}

/-- A failed lock or training fails its wavelength, and one that had failed is reported. -/
theorem phyFail_eq (reason : Nat) : s.phyFail p w reason =
    if (s.port p).failed w then s.tellWl p w reason else s.failWl p w reason := rfl

section
variable (off : (s.port p).en = false) {c : DWord} (legal : c.toNat / 8 = 0)
include off legal

/-- A write without LSR resets the three states, and the wavelength's FAIL. -/
theorem phyWrite_dark (dark : c.getLsbD 0 = false) : let v := s.port p
    s.phyWrite p w c = s.setPort p { phyAt v w c 0 0 0 with
      lageH := mapSet v.lageH w (mapGet v.lageH w 0 &&& 0xFFFFFFFFFEFFFFFF) } := by
  intro v
  refine (if_neg (by simp [off])).trans ((if_neg (not_not.mpr legal)).trans (if_pos ?_))
  rw [bitOf_toNat, dark]
  rfl

end

section
variable (off : (s.port p).en = false)
include off

/-- The laser goes on, with neither lock nor training asked for. -/
theorem phyWrite_laser (dark : mapGet (s.port p).phyctl w 0 = 0) : let v := s.port p
    s.phyWrite p w 1 = s.setPort p (phyAt v w 1 (physt v w 0 2) 0 (physt v w 4 2)) := by
  intro v
  simp only [State.phyWrite, off, dark]
  simp [bitOf]
  rfl

/-- The port of a wavelength whose lock starts, or fails where its laser is not on. -/
def phyLocking (v : Port) (w tns : Nat) : Port :=
  { phyAt v w 3 (physt v w 0 2) (if physt v w 0 2 = 1 then 1 else 3) (physt v w 4 2) with lockTns := mapSet v.lockTns w tns }

/-- LOCK is raised. -/
theorem phyWrite_lock (laser : mapGet (s.port p).phyctl w 0 = 1) : let t := s.setPort p (phyLocking (s.port p) w s.dev.tns)
    s.phyWrite p w 3 = if physt (s.port p) w 0 2 = 1 then t else t.phyFail p w 4 := by
  intro t
  simp only [State.phyWrite, off, laser, t, phyLocking]
  by_cases on : physt (s.port p) w 0 2 = 1
  · simp [bitOf, on]
    rfl
  · simp [bitOf, on]
    rfl

/-- TRAIN is raised at a wavelength that is locked. -/
theorem phyWrite_train (lock : mapGet (s.port p).phyctl w 0 = 3) (locked : physt (s.port p) w 2 2 = 2) : let v := s.port p
    s.phyWrite p w 7 =
      s.setPort p { phyAt v w 7 (physt v w 0 2) 2 1 with trainTns := mapSet v.trainTns w s.dev.tns } := by
  intro v
  simp only [State.phyWrite, off, lock, locked]
  simp [bitOf]
  rfl

end

/-- The events that write PHYCTL of a wavelength of the device. -/
theorem exec_phyWrites (hp : p < 32) (hw : w < 10) : let c := mapGet (s.port p).phyctl w 0
    (∀ on, exec (.phyLaser p w on) s = .next (s.phyWrite p w (if on then c ||| 1 else c &&& 6))) ∧
    exec (.phyLock p w) s = .next (s.phyWrite p w (c ||| 2)) ∧ exec (.phyTrain p w) s = .next (s.phyWrite p w (c ||| 4)) := by
  have here : ¬ (decide (32 ≤ p) || decide (10 ≤ w)) = true := by simp; omega
  exact ⟨fun on => congrArg _ (if_neg here), congrArg _ (if_neg here), congrArg _ (if_neg here)⟩

/-- The laser is up, or has failed. -/
theorem phyLaserOnDone_starts (ok : Bool) (laser : (mapGet (s.port p).phyctl w 0).getLsbD 0 = true) (l : physt (s.port p) w 0 2 = 0) :
    exec (.phyLaserOnDone p w ok) s = .next (s.setPort p
      ((s.port p).setPhy w (if ok then 1 else 2) (physt (s.port p) w 2 2) (physt (s.port p) w 4 2))) :=
  congrArg Host.Outcome.next (if_pos (by rw [laser, decide_eq_true l]; rfl))

/-- The lock holds, or has failed 2 ms after its start. -/
theorem phyLockDone_locking (r : physt (s.port p) w 2 2 = 1) : let v := s.port p
    let l := physt v w 0 2
    let e := physt v w 4 2
    let u := (s.atLeast (mapGet v.lockTns w 0 + 2000000)).setPort p (v.setPhy w l 3 e)
    exec (.phyLockDone p w true) s = .next (s.setPort p (v.setPhy w l 2 e)) ∧
      exec (.phyLockDone p w false) s = .next (u.phyFail p w 4) :=
  ⟨congrArg Host.Outcome.next (if_neg (not_not.mpr r)), congrArg Host.Outcome.next (if_neg (not_not.mpr r))⟩

/-- The eye of a wavelength that has trained. -/
theorem phyTrainDone_trained {h x : Nat} (e : physt (s.port p) w 4 2 = 1) (hh : h < 256) (hx : x < 256) : let v := s.port p
    exec (.phyTrainDone p w true h x) s = .next (s.setPort p { v with
      physt := mapSet v.physt w (BitVec.ofNat 64 (physt v w 0 4 + 2 * 16 + h * 2 ^ 8 + x * 2 ^ 16)) }) := by
  intro v
  refine congrArg Host.Outcome.next ((if_neg (not_not.mpr e)).trans ?_)
  simp only [if_true, Nat.mod_eq_of_lt hh, Nat.mod_eq_of_lt hx, ← Nat.add_assoc]
  rfl

end

/-- What fails a lock changes no FAIL by itself. -/
theorem failed_setPhy (v : Port) (w l r e x : Nat) : (v.setPhy w l r e).failed x = v.failed x := rfl

theorem photonicRegisters : PhotonicRegisters := by
  intro s p w hp hw v c l r e
  obtain ⟨laser, lock, train⟩ := exec_phyWrites (s := s) hp hw
  refine ⟨fun off => ⟨fun c0 => ?on, fun low => ?dark, fun c1 => ?lock, fun c3 locked => ?train⟩,
    fun ok on dark => phyLaserOnDone_starts ok on dark, fun locking => ?locked, fun training h x hh hx => phyTrainDone_trained training hh hx⟩
  case on =>
    have c0 : mapGet (s.port p).phyctl w 0 = 0 := c0
    rw [laser, c0]
    exact congrArg _ (phyWrite_laser off c0)
  case dark =>
    rw [laser]
    have small : (c &&& 6).toNat / 8 = 0 := by
      rw [BitVec.toNat_and]
      exact Nat.div_eq_of_lt (Nat.lt_of_le_of_lt Nat.and_le_left low)
    exact congrArg _ (phyWrite_dark off small (by simp))
  case lock =>
    intro locking
    have c1 : mapGet (s.port p).phyctl w 0 = 1 := c1
    rw [lock, c1]
    have write := phyWrite_lock (w := w) off c1
    refine ⟨fun on => congrArg _ (write.trans (if_pos on)), fun no good => congrArg _ (write.trans ((if_neg no).trans ?_)),
      fun no bad => congrArg _ (write.trans ((if_neg no).trans ?_))⟩
    · rw [phyFail_eq, State.port_setPort]
      exact if_neg (Bool.eq_false_iff.mp good)
    · rw [phyFail_eq, State.port_setPort]
      exact if_pos bad
  case train =>
    have c3 : mapGet (s.port p).phyctl w 0 = 3 := c3
    rw [train, c3]
    exact congrArg _ (phyWrite_train off c3 locked)
  case locked =>
    refine ⟨(phyLockDone_locking locking).1, (phyLockDone_locking locking).2.trans ?_⟩
    rw [phyFail_eq, State.port_setPort]
    rfl

/-- Settles O57. -/
theorem ageingTimeAndPhotonicEvents : Obligations.AgeingTimeAndPhotonicEvents := ⟨ageingAndTime, photonicRegisters⟩

end Sys2Proof.Claims

/-! ## The coherence messages and the replay filter (O50) -/

namespace Sys2Proof.Claims

open Sys2Proof.Machine

/-! ### Requests of die caches (R306, R308) -/

/-- Whom a request of die `d` for a line has snooped, by what the directory holds (R308). -/
def firstSnoops (s : State) (d line kind : Nat) : List Snoop :=
  match s.dirOf line with
  | .U => []
  | .L => snoopsTo s ((List.range 16).filter fun e => e ≠ d && !(s.die e).dead) 2
  | .S m => if kind = 0 then [] else snoopsTo s ((diesOf m).filter (· ≠ d)) 0
  | .X o => if o = d then [] else snoopsTo s [o] (if kind = 0 then 1 else 2)

section
variable {s : State} {d line : Nat}

/-- A die cache with a way free has room for one line more (R8). -/
theorem waysFree_of_short (ways : (s.die d).lines.length < 16) : s.waysFree d [line] = true :=
  (Bool.or_eq_true _ _).mpr (.inl (decide_eq_true ways))

/-- With places left in the directory none is freed (R306). -/
theorem dirRoom_of_short (room : s.home.dir.length < 16) : s.dirRoom line = s :=
  if_pos (by simp [room])

/-- With ways left in the die cache none is freed (R307). -/
theorem dieRoom_of_short (ways : (s.die d).lines.length < 16) : s.dieRoom d line = s :=
  if_pos (by simp [ways])

/-- Where nothing has to leave, a request starts with its snoops. -/
theorem startReq_of_short (wait : LineSt) (kind : Nat) (room : s.home.dir.length < 16) (ways : (s.die d).lines.length < 16) :
    s.startReq d line wait kind = asked s d line wait kind (firstSnoops s d line kind) := by
  rw [State.startReq, dirRoom_of_short room, dieRoom_of_short ways]
  rfl

theorem firstSnoops_U (kind : Nat) (h : s.dirOf line = .U) : firstSnoops s d line kind = [] := by
  simp only [firstSnoops, h]

theorem firstSnoops_S {m kind : Nat} (h : s.dirOf line = .S m) :
    firstSnoops s d line kind = if kind = 0 then [] else snoopsTo s ((diesOf m).filter (· ≠ d)) 0 := by
  simp only [firstSnoops, h]

theorem firstSnoops_X {o kind : Nat} (h : s.dirOf line = .X o) (other : o ≠ d) :
    firstSnoops s d line kind = snoopsTo s [o] (if kind = 0 then 1 else 2) := by
  simp only [firstSnoops, h, if_neg other]

section
variable (hd : d < 16) (live : (s.die d).dead = false) (free : s.lineFree line = true) (mem : s.isMem (line * 128) = true)
  (ways : (s.die d).lines.length < 16)
include hd live free mem ways

theorem homeGets_starts (invalid : s.lineOf d line = .I) : exec (.homeGets d line) s = .next (s.startReq d line .IS 0) := by
  refine congrArg Host.Outcome.next (if_neg ?_)
  simp [hd, live, free, mem, waysFree_of_short ways, invalid]

theorem homeGetm_starts (state : s.lineOf d line = .I ∨ s.lineOf d line = .S ∨ s.lineOf d line = .SWT) :
    exec (.homeGetm d line) s = .next (s.startReq d line (if s.lineOf d line = .I then .IM else .SM) 1) := by
  refine congrArg Host.Outcome.next (if_neg ?_)
  rcases state with h | h | h <;> simp [hd, live, free, mem, waysFree_of_short ways, h]

end

end

theorem coherenceRequests : CoherenceRequests := by
  intro s d line hd live free mem room ways
  have starts (wait : LineSt) (kind : Nat) := startReq_of_short (s := s) (d := d) (line := line) wait kind (by omega) ways
  refine ⟨fun invalid => ?gets, fun state => ?getm⟩
  case gets =>
    rw [homeGets_starts hd live free mem ways invalid, starts]
    refine ⟨fun h => ?_, fun o owner other => by rw [firstSnoops_X owner other]; rfl⟩
    rcases h with h | ⟨m, h⟩
    · rw [firstSnoops_U 0 h]
    · rw [firstSnoops_S h]
      rfl
  case getm =>
    rw [homeGetm_starts hd live free mem ways state, starts]
    exact ⟨fun h => by rw [firstSnoops_U 1 h], fun m h => by rw [firstSnoops_S h]; rfl,
      fun o owner other => by rw [firstSnoops_X owner other]; rfl⟩

/-! ### Write-backs (R307, R310) -/

section
variable {s : State} {d line : Nat}

/-- The owner of a line sends its write-back, where a buffer of the line's slice is free. -/
theorem putStep_sends {dirty : Bool} (first : s.putOf d line dirty = none) (state : s.lineOf d line = if dirty then .M else .E)
    (owner : s.dirOf line = .X d) (room : s.putRoom d line = true) : s.putStep d line dirty = s.sendPut d line dirty := by
  simp only [State.putStep, first]
  exact if_pos (by simp [state, owner, room])

/-- A write-back that has crossed is received and acknowledged. -/
theorem putStep_lands {dirty : Bool} {p : Put} (sent : s.putOf d line dirty = some p) (here : s.onWay (.put d line) = false)
    (room : s.filterRoom (s.sliceOf (line * 128)) = true) :
    s.putStep d line dirty = (((s.landPut p).lineStep line).grantOut s line).toDie d line 1 false (.putAck d line) := by
  simp only [State.putStep, sent]
  exact if_neg (by simp [here, room])

theorem exec_putAck (wp : s.lineOf d line = .WP) (received : (s.home.puts.any fun p => p.die = d && p.line = line) = false)
    (here : s.onWay (.putAck d line) = false) :
    exec (.putAck d line) s = .next ((s.setLine d line .I).filterDrop [putRid d (mapGet (s.die d).lines line {}).put]) :=
  congrArg Host.Outcome.next (if_pos (by simp [wp, received, here]))

/-! ### Snoops and their answers (R309 to R311) -/

section
variable (here : s.onWay (.snoop d line) = false)
include here

/-- A snoop that has crossed is taken by its die, which sends its answer. -/
theorem takeSnoop_open {kind : Nat} (f : State → State) (op : s.openSnoop d line kind = true) : s.takeSnoop d line kind f =
    (f s).toHome d line (if s.lineOf d line = .M then 1 else 2) (s.lineOf d line = .M) (.answer d line) := by
  refine (if_neg (by simp [here, op])).trans ?_
  cases s.lineOf d line <;> rfl

theorem snoopInv_readable (op : s.openSnoop d line 0 = true) (state : s.lineOf d line = .S ∨ s.lineOf d line = .SWT) :
    exec (.snoopInv d line) s =
      .next (((s.arriveSnoop d line false).setLine d line .I).toHome d line 2 false (.answer d line)) := by
  refine congrArg Host.Outcome.next ((takeSnoop_open here _ op).trans ?_)
  rcases state with state | state <;> simp [State.invSnoop, op, state]

/-- An upgrade that is invalidated becomes a request for the data. -/
theorem snoopInv_upgrade (op : s.openSnoop d line 0 = true) (state : s.lineOf d line = .SM) :
    exec (.snoopInv d line) s =
      .next (((s.arriveSnoop d line false).setLine d line .IM).toHome d line 2 false (.answer d line)) := by
  refine congrArg Host.Outcome.next ((takeSnoop_open here _ op).trans ?_)
  simp [State.invSnoop, op, state]

/-- A recall takes a clean line down, brings the data of a dirty one, and meets a write-back under way with Gone. -/
theorem takeSnoop_recall {kind : Nat} {after : LineSt} (op : s.openSnoop d line kind = true) :
    let t := s.takeSnoop d line kind fun t => t.recallSnoop d line kind after
    (s.lineOf d line = .E → t = ((s.arriveSnoop d line false).setLine d line after).toHome d line 2 false (.answer d line)) ∧
    (s.lineOf d line = .M → t = ((s.arriveSnoop d line false true).setLine d line after).toHome d line 1 true (.answer d line)) ∧
    (s.lineOf d line = .WP → t = (s.arriveSnoop d line true).toHome d line 2 false (.answer d line)) := by
  intro t
  have taken : t = _ := takeSnoop_open here _ op
  refine ⟨fun state => ?_, fun state => ?_, fun state => ?_⟩ <;> simp [taken, State.recallSnoop, op, state]

end

theorem exec_snoopResend {q : LineReq} {n : Snoop} (busy : mapGet? s.home.busy line = some q)
    (next : (q.snoops.find? fun n => n.die = d && !n.answered) = some n) : let t := s.atLeast (n.sent + 10000)
    exec (.snoopResend d line) s = .next (((t.modReq line fun q => { q with snoops := q.snoops.map fun m =>
      if m.die = d && !m.answered then { m with sent := t.dev.tns } else m }).toDie d line 2 false (.snoop d line)).count 3) := by
  intro t
  show execSnoopResend d line s = _
  simp only [execSnoopResend, busy, Option.bind_some, next]
  rfl

theorem exec_grantArrive {q : LineReq} {st : LineSt} (busy : mapGet? s.home.busy line = some q) (grant : q.grant = some st)
    (mine : q.die = d) (here : s.onWay (.grant d line) = false) :
    exec (.grantArrive d line) s = .next ((s.takeLine d line st false).modHome fun h => { h with busy := mapDel h.busy line }) := by
  refine congrArg Host.Outcome.next ((if_neg (by simp [here])).trans ?_)
  simp only [State.arriveGrant, busy, grant, if_pos mine]

end

theorem coherenceMessages : CoherenceMessages := by
  intro s d line
  refine ⟨?puts, exec_putAck, fun here => ⟨fun op => ⟨snoopInv_readable here op, snoopInv_upgrade here op⟩, ?recalls⟩,
    fun here => congrArg _ (if_neg (by simp [here])), fun q n => exec_snoopResend, fun q st => exec_grantArrive⟩
  case puts =>
    simp only [List.forall_mem_cons, List.not_mem_nil, false_implies, implies_true, and_true]
    refine ⟨⟨?_, ?_⟩, ?_, ?_⟩
    · exact fun first state owner room => congrArg Host.Outcome.next (putStep_sends first state owner room)
    · exact fun p sent here room => congrArg Host.Outcome.next (putStep_lands sent here room)
    · exact fun first state owner room => congrArg Host.Outcome.next (putStep_sends first state owner room)
    · exact fun p sent here room => congrArg Host.Outcome.next (putStep_lands sent here room)
  case recalls =>
    simp only [List.forall_mem_cons, List.not_mem_nil, false_implies, implies_true, and_true]
    refine ⟨fun op => ?_, fun op => ?_⟩
    all_goals
      obtain ⟨clean, dirty, gone⟩ := takeSnoop_recall here op
      exact ⟨fun e => congrArg _ (clean e), fun m => congrArg _ (dirty m), fun wp => congrArg _ (gone wp)⟩

/-! ### The replay filter (R318) -/

section
variable {s : State} {r : ReqId} {da : Nat} {data : List Byte}

/-- A write that is new to its slice's filter is applied and recorded. -/
theorem homeRequest_new (some : data ≠ []) (mem : s.isMem (da + data.length - 1) = true) (new : s.filterGet (s.sliceOf da) r = none)
    (room : ((spanLines da data.length).all fun l => s.writeRoom l) = true) :
    s.homeRequest r (.write da data) = (s.homeWrite none da data).filterAdd da r 0 :=
  if_neg (by simp [some, mem, new, room])

/-- One that the filter holds is applied no more. -/
theorem homeRequest_again {w : Word} (old : s.filterGet (s.sliceOf da) r = some w) : s.homeRequest r (.write da data) = s :=
  if_pos (by simp [old])

end

theorem replayFilter : ReplayFilter := by
  intro s r da data some mem
  refine ⟨fun new room => ?_, fun w old => ?_⟩
  · have applied := homeRequest_new some mem new room
    exact ⟨congrArg _ applied, congrArg _ applied⟩
  · have same := homeRequest_again (data := data) old
    exact ⟨congrArg _ same, congrArg _ same⟩

/-- Settles O50. -/
theorem coherenceAndReplay : Obligations.CoherenceAndReplay := ⟨coherenceRequests, coherenceMessages, replayFilter⟩

end Sys2Proof.Claims

/-! ## Monitors and atomics at their home slices (O47) -/

namespace Sys2Proof.Claims

open Sys2Proof.Machine

section
variable {s : State} {k : Nat}

/-! ### Arming (R319, R320) -/

/-- A word of this device's memory that is in shape is armed at its home slice, its group past the unit (R320). -/
theorem mwaitTry_local {g : Group} {o : Op} {p : LaneAcc} {ps : List LaneAcc} {da : Nat} {r : List Place}
    (decided : s.decideOp g o = .ok (p :: ps)) (place : p.places = .da da :: r)
    (shape : (s.wordVia (s.xl g) (regGet o.arg 5).toNat).1 = false) :
    s.mwaitTry k g o = (s.setGrp k (g.finishOp o.id)).armMon k g da (s.wordVia (s.xl g) (regGet o.arg 5).toNat).2
      (regGet o.arg 1).toNat ((regGet o.arg 0).setWidth 32) (regGet o.arg 3).toNat := by
  simp only [State.mwaitTry, decided, shape, State.mwaitGo]
  simp [place]

theorem monitorWait : MonitorWait := by
  intro s k g y d a b da r p ps x ready hi va below deadline arg o h t decided place shape
  refine issue2_mem ready _ [] rfl (by simp [u22]) rfl rfl rfl (by simp [u22]) (by simp [Uop.writes, u22]) (Nat.le_of_ble_eq_true rfl)
    nofun (fun _ => hi) nofun (.inl ?_)
  refine (if_neg fun window => window.1.not_gt below).trans (congrArg Eff.st ?_)
  exact mwaitTry_local decided place shape

/-! ### Atomics (R316, R317) -/

/-- A lane that is next at its word is performed there, and keeps the old word. -/
theorem atomLane_next {g : Group} {o : Op} {a : LaneAcc} {da n : Nat} {r : List Place}
    (kind : o.kind = .atom n ∨ ∃ j, o.kind = .red j ∧ n = if j ≤ 8 then j else j + 2)
    (lane : (o.accs.find? fun b => b.lane = a.lane) = some a) (place : a.places = .da da :: r) (unsettled : a.settled = false)
    (first : (o.accs.any fun b => b.lane < a.lane && !b.settled && b.places.head? = some (.da da)) = false)
    (performs : g.mayPerform o = true) (room : s.writeRoom (da / 128) = true) (routed : s.linesRouted g.die [da / 128] = true)
    (flushed : g.mustFlush o = false) :
    let p := s.homeAtomic (laneRid g o a.lane) da n (BitVec.ofNat 32 (leNat (a.data.take 4))) (BitVec.ofNat 32 (leNat (a.data.drop 4)))
    s.atomLane k g o a.lane = ((p.2.energy g.ctx 110000).l1Drop g.core (da / 128)).modGrp k fun h =>
      h.modOp o.id fun q => { q with accs := q.accs.map fun b =>
        if b.lane = a.lane then { b with done := true, resp := some (leBytes 4 p.1.toNat) } else b } := by
  intro p
  have head : a.places.head? = some (.da da) := by rw [place]; rfl
  have goes : ¬ (a.settled || (o.accs.any fun b => b.lane < a.lane && !b.settled && b.places.head? = some (.da da)) || !g.mayPerform o ||
      !s.writeRoom (da / 128) || !s.linesRouted g.die [da / 128]) = true := by
    simp [unsettled, first, performs, room, routed]
  rcases kind with kind | ⟨j, kind, rfl⟩
  all_goals
    simp only [State.atomLane, lane, head, kind]
    exact (if_neg goes).trans (if_neg (Bool.eq_false_iff.mp flushed))

theorem exec_atomicPerform {g : Group} {o : Op} (lane : Nat) (grp : s.grp? k = some g) (op : g.op? o.id = some o) :
    exec (.atomicPerform k o.id lane) s = .next (s.atomLane k g o lane) := by
  show execAtomicPerform k o.id lane s = _
  simp only [execAtomicPerform, grp, op]

/-! ### Answers (R319 to R321) -/

/-- The monitor whose deadline comes is freed, and answers what its word says then. -/
theorem monitorTimeout_frees {m : Monitor} (armed : (s.home.mons.find? fun m => m.grp = k && m.deadline ≠ 0) = some m) :
    let st := if cmpMet m.cmp (BitVec.ofNat 32 (s.rdNat m.da 4)) m.val then 0 else 1
    exec (.monitorTimeout k) s = .next ((s.atLeast m.deadline).modHome fun h =>
      { h with mons := h.mons.filter fun x => x.order ≠ m.order, msgs := h.msgs ++ [{ grp := k, status := st }] }) := by
  intro st
  show execMonitorTimeout k s = _
  simp only [execMonitorTimeout, armed]
  rfl

/-- A status unparks its group, which is resident. -/
theorem monitorStatusDeliver_unparks {m : MonMsg} {g : Group} (own : k < 2 ^ 60)
    (sent : (s.home.msgs.find? fun m => m.grp = k) = some m) (grp : s.grp? k = some g) (park : g.park = 3)
    (resident : s.residentGrp g = true) (runs : (s.ctx g.ctx).stopped = false) :
    let t := s.modHome fun h => { h with msgs := h.msgs.eraseIdx (s.home.msgs.findIdx fun m => m.grp = k) }
    exec (.monitorStatusDeliver k) s = .next (t.giveStatus k g m.status) := by
  intro t
  have grp' : t.grp? k = some g := grp
  have stays : ¬ (decide (g.park ≠ 3) || (t.ctx g.ctx).stopped) = true := by
    have runs' : (t.ctx g.ctx).stopped = false := runs
    simp [park, runs']
  show execMonitorStatusDeliver k s = _
  simp only [execMonitorStatusDeliver, sent, if_neg own.not_ge]
  refine congrArg Host.Outcome.next ?_
  show t.statusTo k m.status = _
  simp only [State.statusTo, grp']
  exact (if_neg stays).trans (if_pos resident)

end

theorem homeAtomicsAndMonitors : HomeAtomicsAndMonitors := by
  intro s k
  refine ⟨?atomic, fun m => monitorTimeout_frees, fun m g own sent grp park resident runs =>
    monitorStatusDeliver_unparks own sent grp park resident runs⟩
  case atomic =>
    intro g o a da n r grp op lane place kind unsettled first performs room routed flushed
    exact (exec_atomicPerform a.lane grp op).trans
      (congrArg _ (atomLane_next kind lane place unsettled first performs room routed flushed))

/-- Settles O47. -/
theorem monitorsAndHomeAtomics : Obligations.MonitorsAndHomeAtomics := ⟨monitorWait, homeAtomicsAndMonitors⟩

end Sys2Proof.Claims

/-! ## Units of major 26 (O46) -/

namespace Sys2Proof.Claims

open Sys2Proof.Machine

section
variable {s t : State} {k : Nat} {g : Group}

/-- A unit of major 26 that may take its effect takes it (R383). -/
theorem fabricUnit_done {eff : Effect} {fn d a b : Nat} {src dst : List VFld} {sr sw pr pw : List Nat} {rd wr : List Dst}
    (r : ReadyM s k g Pfx.none src dst rd wr) (hi : g.inH = false)
    (hrd : src.map g.vReg ++ sr.map g.sDst ++ pr.map Dst.p = rd) (hwr : dst.map g.vDst ++ sw.map g.sDst ++ pw.map Dst.p = wr)
    (he : eff s k (activeMask Pfx.none g) g (pastM g Pfx.none src) = .st t ∨
      ∃ h, eff s k (activeMask Pfx.none g) g (pastM g Pfx.none src) = .grp h ∧ t = s.setGrp k h) :
    issue { u26 fn d a b with vr := src, vw := dst, sr := sr, sw := sw, pr := pr, pw := pw } eff s = .next (finished t g 26 src) :=
  issue2_mem r { u26 fn d a b with vr := src, vw := dst, sr := sr, sw := sw, pr := pr, pw := pw } src rfl (by simp [u26]) rfl rfl rfl
    (by simpa [u26] using hrd) hwr (Nat.le_of_ble_eq_true rfl) nofun (fun _ => hi) nofun he

/-! ### Messages (R384 to R386) -/

theorem exec_recvq {d : VFld} {a : SReg} {p : PReg} (hi : g.inH = false)
    (r : ReadyM s k g Pfx.none [] (regs d 8) [g.sDst a.val, .p p.val] ((regs d 8).map g.vDst ++ [.p p.val])) (room : g.counter .ld ≤ 254) :
    exec (.recvq d a p) s = .next (finished ((named s).setGrp k ((pastM g Pfx.none []).addOp
      { id := s.nextId, unit := s.nextId, pc := g.pc, maj := 26, fn := 1, ctr := .ld, kind := .recvq, acq := true, rel := true,
        scope := 3, dst := (regs d 8).map g.vDst ++ [.p p.val],
        arg := [g.readS a.val &&& 15, activeMask Pfx.none g, BitVec.ofNat 64 p.val] })) g 26) := by
  refine fabricUnit_done (src := []) (dst := regs d 8) (sw := []) r hi (by simp) (by simp) (.inl ?_)
  rw [room_of_le room]
  rfl

section
variable {d : VFld} (hi : g.inH = false) (r : ReadyM s k g Pfx.none (regs d 8) [] ((regs d 8).map g.vReg) [])
  (room : g.counter .st ≤ 254)
  (queue : (s.core g.core).sendq.length + (onLanes (activeMask Pfx.none g)).length ≤ 256)

include room queue in
/-- A `sendh` whose messages its core's queue takes has its effect. -/
theorem sendh_goes : ¬ (!g.room .st 1 || decide (256 < (s.core g.core).sendq.length + (onLanes (activeMask Pfx.none g)).length)) = true := by
  rw [room_of_le room]
  simpa using queue

include hi r room queue

theorem sendh_none (none : onLanes (activeMask Pfx.none g) = []) :
    exec (.sendh d) s = .next (finished (s.setGrp k (pastM g Pfx.none (regs d 8))) g 26 (regs d 8)) := by
  refine fabricUnit_done (src := regs d 8) (dst := []) (sr := []) (sw := []) (pr := []) (pw := []) r hi (by simp) (by simp) (.inr ⟨_, ?_, rfl⟩)
  refine (if_neg (sendh_goes room queue)).trans (if_pos ?_)
  exact List.isEmpty_iff.mpr none

/-- Each active lane's message enters the queue, and ST counts the unit. -/
theorem sendh_enters (some : onLanes (activeMask Pfx.none g) ≠ []) :
    let ls := onLanes (activeMask Pfx.none g)
    let word (j i : Nat) : Word := g.src (d + Fin.ofNat 128 j) i
    let msg (i : Nat) : Msg :=
      { src := s.fab.dev, dst := (word 0 i).toNat % 4096, ctx := g.ctx, rq := (word 0 i).toNat / 4096 % 16,
        words := (List.range 8).map fun j => word j i }
    let t := s.setCore g.core { s.core g.core with sendq := (s.core g.core).sendq ++ ls.map fun i =>
      { grp := k, op := s.nextId, lane := i, msg := msg i } }
    exec (.sendh d) s = .next (finished ((named t).setGrp k ((pastM g Pfx.none (regs d 8)).addOp
      { id := s.nextId, unit := s.nextId, pc := g.pc, maj := 26, fn := 0, ctr := .st, kind := .sendh, scope := 3, rel := true,
        accs := ls.map fun i => { lane := i, va := 0 } })) g 26 (regs d 8)) := by
  refine fabricUnit_done (src := regs d 8) (dst := []) (sr := []) (sw := []) (pr := []) (pw := []) r hi (by simp) (by simp) (.inl ?_)
  refine (if_neg (sendh_goes room queue)).trans (if_neg fun none => ?_)
  exact some (List.isEmpty_iff.mp none)

end

end

theorem messageUnits : MessageUnits := by
  intro s k g hi m
  refine ⟨fun d r room => ⟨fun none queue => ?none, fun some queue => sendh_enters hi r room queue some⟩,
    fun d a p r room => exec_recvq hi r room, ?peerq⟩
  case none =>
    have queue : (s.core g.core).sendq.length + (onLanes m).length ≤ 256 := by simpa [none] using queue
    exact sendh_none hi r room queue none
  case peerq =>
    intro p a r dev q
    exact fabricUnit_done (dst := []) (sr := []) (sw := []) r hi (by simp) (by simp) (.inr ⟨_, rfl, rfl⟩)

/-! ### Collectives (R387, R388, R391) -/

theorem collectiveUnit : CollectiveUnit := by
  intro s k g d a r hi l f c j legal format member rank x
  have reads : ((List.range 8).map fun i => a.val + i).map g.sDst = sregs g a 8 := List.map_map
  have combines : ¬ (decide (f 3 0 3 ≤ 1) && ((decide (f 3 5 4 ≠ 7) && decide (f 3 5 4 ≠ 9)) || decide (f 3 27 1 = 1))) = true := by
    simp only [Bool.and_eq_true, Bool.or_eq_true, decide_eq_true_eq]
    rintro ⟨reduces, bad | scaled⟩
    · exact (format reduces).1.elim bad.1 bad.2
    · exact (format reduces).2 scaled
  have known : ¬ (decide ((mapGet c.ccomm (f 3 9 6) 0).toNat % 2 = 0) || decide (c.nrank (f 3 9 6) ≤ f 3 15 12)) = true := by
    simp only [Bool.or_eq_true, decide_eq_true_eq]
    omega
  let u : Uop := { u26 2 d.val a.val 0 with sr := (List.range 8).map fun i => a.val + i, sw := [d.val] }
  have hr : u.reads g = sregs g a 8 := by
    rw [← reads]
    simp [Uop.reads, u, u26, Pfx.none]
  have hw : u.writes g = [g.sDst d.val] := rfl
  refine issue2_plain (u := u) r.now hr hw r.quiet.pend r.quiet.kept (faultPoint_quiet rfl hr hw r.quiet) (show 22 ≤ 26 by decide)
    (fun _ => hi) nofun rfl rfl rfl rfl rfl (.inl ?_)
  refine (if_neg (fun illegal => ?_)).trans ((if_neg ?_).trans (if_neg ?_))
  · have legal' : collLegal ((List.range 8).map fun i => g.readS (a.val + i)) = true := legal
    simp [legal'] at illegal
  · exact combines
  · exact known

/-- Settles O46. -/
theorem fabricUnits : Obligations.FabricUnits := ⟨messageUnits, collectiveUnit⟩

end Sys2Proof.Claims

/-! ## Messages and collectives in progress (O58) -/

namespace Sys2Proof.Claims

open Sys2Proof.Machine

/-! ### Bytes of this device (R230) -/

section
variable {ps : List Place} (here : ∀ p ∈ ps, ∃ d, p = .da d)
include here

/-- Places of this device's memory make no request. -/
theorem remRuns_local (i : Nat) : remRuns i ps = [] := by
  induction ps generalizing i with
  | nil => rfl
  | cons p r ih =>
    obtain ⟨d, rfl⟩ := here p List.mem_cons_self
    exact ih (fun q hq => here q (List.mem_cons_of_mem _ hq)) (i + 1)

theorem spanOut_local (s : State) (w : Party) (n : Nat) (bs : List Byte) : s.spanOut w n ps bs = .ok [] := by
  rw [State.spanOut, remRuns_local here]
  rfl

theorem spanIn_local (s : State) (w : Party) (n : Nat) : s.spanIn w n ps = .ok (s.spanRead ps) := by
  have reads : s.runsDone w n false [] (remRuns 0 ps) = .ok [] := by rw [remRuns_local here]; rfl
  simp only [State.spanIn, reads]
  refine congrArg Io.ok (List.ext_getElem (by simp [State.spanRead]) fun i h1 h2 => ?_)
  have hi : i < ps.length := by simpa [State.spanRead] using h2
  obtain ⟨d, hd⟩ := here ps[i] (List.getElem_mem hi)
  simp [State.spanRead, hd]

end

/-! ### Send queues (R384) -/

section
variable {s : State} {c : Nat} {e : SendEnt} {g : Group} (next : s.nextSend c = some e) (grp : s.grp? e.grp = some g)
  (flushed : g.dirtyMask = 0)
include next grp flushed

/-- The next message leaves its queue once its group has flushed. -/
theorem sendQueueDepart_leaves :
    exec (.sendQueueDepart c) s = .next ((s.modCore c fun c => { c with sendq := c.sendq.erase e }).sendMsg e) := by
  show execSendQueueDepart c s = _
  simp only [execSendQueueDepart, next, grp]
  exact congrArg _ (if_neg (not_not.mpr flushed))

end

section
variable {t : State} {e : SendEnt}

theorem sendMsg_unreachable (h : t.reachable e.msg.dst = false) : t.sendMsg e = (t.msgLost e.msg.ctx).sentLane e.grp e.op e.lane :=
  if_pos (by simp [h])

/-- A device reaches itself. -/
theorem sendMsg_own (h : e.msg.dst = t.fab.dev) : t.sendMsg e =
    { t with fab := { t.fab with inbox := t.fab.inbox ++ [{ msg := e.msg, src := some (e.grp, e.op, e.lane) }] } } :=
  (if_neg (by simp [State.reachable, h])).trans (if_pos h)

end

/-! ### Rings (R382, R384) -/

/-- A message has been dealt with. -/
def delivered (e : InMsg) (t : State) : State := (t.release (.msg e)).msgDone e

/-- TAIL, HEAD and the count of lost messages of a ring, from its first 24 bytes. -/
def ringWord (bs : List Byte) (i : Nat) : Nat := leNat ((bs.drop (8 * i)).take 8)

/-- The record of a message. -/
def msgRecord (m : Msg) : List Byte :=
  leBytes 4 (BitVec.ofNat 32 (m.src % 4096 + m.rq * 4096)).toNat ++ (m.words.drop 1).flatMap fun w => leBytes 4 w.toNat

section
variable {s u : State} {e : InMsg}

theorem messageDeliver_oldest (oldest : (s.fab.inbox.find? fun x => x.msg.ctx = e.msg.ctx && x.msg.rq = e.msg.rq) = some e) :
    exec (.messageDeliver e.msg) s = .next (s.appendMsg e) := by
  show execMessageDeliver e.msg s = _
  simp only [execMessageDeliver, oldest, if_true]

section
variable {ps : List Place} {bs : List Byte}

/-- A write of a delivery waits, or its message is discarded. -/
theorem notAppended_of_ringWrite {go : State → State}
    (h : exec (.messageDeliver e.msg) s = .next (u.ringWrite e ps bs (discarded s e) go)) : NotAppended s u e ps bs := by
  refine ⟨fun t wait => h.trans ?_, fun c w o i bad => h.trans ?_⟩
  · simp only [State.ringWrite, wait]
  · simp only [State.ringWrite, bad]

theorem ringWrite_ok {x : List Byte} {lost : State} {go : State → State} (ok : u.spanOut (.msg e) e.msg.ctx ps bs = .ok x) :
    u.ringWrite e ps bs lost go = go ((u.spanWrite ps bs).spanEnergy e.msg.ctx ps) := by
  simp only [State.ringWrite, ok]

theorem appended_of_ringWrite
    (h : exec (.messageDeliver e.msg) s = .next (u.ringWrite e ps bs (discarded s e) (delivered e))) : Appended s u e ps bs := by
  refine ⟨fun ⟨x, ok⟩ => h.trans ?_, notAppended_of_ringWrite h⟩
  rw [ringWrite_ok ok]
  rfl

theorem ringSpan_ok {va n : Nat} {lost : State} {go : List Place → State} (ok : s.span (s.pdXl e.msg.ctx) 3 true va n = .ok ps) :
    s.ringSpan e va n lost go = go ps := by
  simp only [State.ringSpan, ok]

theorem ringSpan_fault {va n ca w o a : Nat} {lost : State} {go : List Place → State}
    (bad : s.span (s.pdXl e.msg.ctx) 3 true va n = .fault ca w o a) : s.ringSpan e va n lost go = lost := by
  simp only [State.ringSpan, bad]

end

section
variable (ready : s.waits (.msg e) = false)
include ready

/-- A message whose ring is not configured, or whose context is not resident, is discarded. -/
theorem appendMsg_none (none : (s.ctx e.msg.ctx).ringVa e.msg.rq = 0 ∨ (s.ctx e.msg.ctx).en = false) : s.appendMsg e = discarded s e :=
  (if_neg (by simp [ready])).trans (if_pos (by simpa using none))

section
variable (ring : (s.ctx e.msg.ctx).ringVa e.msg.rq ≠ 0) (en : (s.ctx e.msg.ctx).en = true)
include ring en

theorem appendMsg_fault {ca w o a : Nat}
    (bad : s.span (s.pdXl e.msg.ctx) 3 true ((s.ctx e.msg.ctx).ringVa e.msg.rq) 24 = .fault ca w o a) :
    s.appendMsg e = discarded s e :=
  (if_neg (by simp [ready])).trans ((if_neg (by simp [ring, en])).trans (ringSpan_fault bad))

/-- What a message does to a ring whose head words it has read: the ring is full, and its count of lost messages rises, or the
record is written and then TAIL. -/
theorem appendMsg_ring {ps : List Place} {bs : List Byte} (head : s.span (s.pdXl e.msg.ctx) 3 true ((s.ctx e.msg.ctx).ringVa e.msg.rq) 24 = .ok ps)
    (read : s.spanIn (.msg e) e.msg.ctx ps = .ok bs) : let c := s.ctx e.msg.ctx
    s.appendMsg e =
      if 2 ^ c.ringLog e.msg.rq ≤ (ringWord bs 0 + 2 ^ 64 - ringWord bs 1) % 2 ^ 64 then
        s.ringWrite e (ps.drop 16) (leBytes 8 (ringWord bs 2 + 1)) (discarded s e) (delivered e)
      else s.ringSpan e (c.ringSlot e.msg.rq (ringWord bs 0)) 32 (discarded s e) fun qs =>
        s.ringWrite e qs (msgRecord e.msg) (discarded s e) fun u =>
          u.ringWrite e (ps.take 8) (leBytes 8 (ringWord bs 0 + 1)) (discarded s e) (delivered e) := by
  intro c
  refine (if_neg (by simp [ready])).trans ((if_neg (by simp [ring, en])).trans ((ringSpan_ok head).trans ?_))
  simp only [read]
  rfl

end
end
end

theorem messageEvents : MessageEvents := by
  intro s
  refine ⟨?send, fun w n ps bs here => ⟨spanIn_local here s w n, spanOut_local here s w n bs⟩, ?ring⟩
  case send =>
    intro c e g next grp flushed t
    have leaves : exec (.sendQueueDepart c) s = .next (t.sendMsg e) := sendQueueDepart_leaves next grp flushed
    exact ⟨fun cut => leaves.trans (congrArg _ (sendMsg_unreachable cut)), fun own => leaves.trans (congrArg _ (sendMsg_own own))⟩
  case ring =>
    intro e oldest ready m c x
    have appends : exec (.messageDeliver e.msg) s = .next (s.appendMsg e) := messageDeliver_oldest oldest
    refine ⟨fun none => ?_, fun ring en => ⟨fun ca w o a bad => ?_, fun ps bs head read => ?_⟩⟩
    · exact appends.trans (congrArg _ (appendMsg_none ready none))
    · exact appends.trans (congrArg _ (appendMsg_fault ready ring en bad))
    · have does := appendMsg_ring ready ring en head read
      intro f
      refine ⟨fun full => ?_, fun room qs slot => ?_⟩
      · exact appended_of_ringWrite (appends.trans (congrArg _ (does.trans (if_pos full))))
      · intro body
        have writes : exec (.messageDeliver e.msg) s = .next (s.ringWrite e qs body (discarded s e) fun u =>
            u.ringWrite e (ps.take 8) (leBytes 8 (f 0 + 1)) (discarded s e) (delivered e)) :=
          appends.trans (congrArg _ (does.trans ((if_neg room.not_ge).trans (ringSpan_ok slot))))
        exact ⟨notAppended_of_ringWrite writes,
          fun ⟨x, ok⟩ => appended_of_ringWrite (writes.trans (congrArg _ (ringWrite_ok ok)))⟩

/-! ### Collectives (R388 to R392) -/

section
variable {s : State} {n c : Nat} {x : Coll} (found : s.coll? n c = some x)
include found

theorem collHandoff_released {g : Group} (grp : s.grp? x.grp = some g) (new : x.handed = false) (released : g.released x.opId = true)
    (flushed : g.dirtyMask = 0) : exec (.collHandoff n c) s = .next (s.modColl n c fun x => { x with handed := true }) := by
  show execCollHandoff n c s = _
  simp [execCollHandoff, found, grp, new, released, flushed]

/-- An abandoned collective is over, and its group takes COL. -/
theorem collAbandon_faults {why : Nat} (reason : why = 3 ∨ why = 4) (going : x.done = false) {g : Group} (grp : s.grp? x.grp = some g) :
    let f : PFault := { id := x.opId, targets := [], trap :=
      { cause := 0x0D, deferred := true, a := BitVec.ofNat 64 c, pc := x.pc, i := BitVec.ofNat 64 why } }
    exec (.collAbandon n c why) s =
      .next ((((s.release (.coll n c)).recordFault x.grp g f).modColl n c fun x => { x with done := true }).raiseKtl n) := by
  intro f
  have grp' : (s.release (.coll n c)).grp? x.grp = some g := grp
  have goes : ¬ (x.done || !(decide (why = 3) || decide (why = 4))) = true := by
    rcases reason with rfl | rfl <;> simp [going]
  show execCollAbandon n c why s = _
  simp only [execCollAbandon, found]
  refine congrArg Host.Outcome.next ((if_neg goes).trans ?_)
  simp only [State.collFault, grp']
  rfl

end

/-- Blocks that come from certain ranks, each once, are found by their ranks. -/
theorem map_find_fst {α : Type} {l : List (Nat × α)} (once : (l.map Prod.fst).Nodup) (d : Nat → Nat × α) :
    ((l.map Prod.fst).map fun r => (l.find? fun p => p.1 = r).getD (d r)) = l := by
  rw [List.map_map]
  refine (List.map_congr_left fun p hp => ?_).trans (List.map_id l)
  have some : (l.find? fun q => q.1 = p.1).isSome = true := List.find?_isSome.mpr ⟨p, hp, by simp⟩
  obtain ⟨q, hq⟩ := Option.isSome_iff_exists.mp some
  have same : q = p := List.inj_on_of_nodup_map once (List.mem_of_find?_eq_some hq) hp (by simpa using List.find?_some hq)
  simp [hq, same]

/-- The blocks named are those of the members a collective needs, each of the right length. -/
theorem blocks_complete {need : List Nat} {peers : List (Nat × List Byte × List Byte)} {bl : Nat} (names : peers.map Prod.fst = need)
    (blocks : ∀ p ∈ peers, p.2.1.length = bl ∧ p.2.2 = []) :
    (need.all fun r => peers.any fun p => p.1 = r && p.2.1.length = bl && p.2.2.length = 0) = true := by
  subst names
  rw [List.all_map, List.all_eq_true]
  intro p hp
  obtain ⟨data, scales⟩ := blocks p hp
  exact List.any_eq_true.mpr ⟨p, hp, by simp [data, scales]⟩

/-- The obligation and the model read a descriptor's fields alike. -/
theorem collFld_desc (x : Coll) : collFld x.desc = cf x := rfl

theorem collectiveEvents : CollectiveEvents := by
  intro s n c x found
  refine ⟨fun g grp new released flushed => collHandoff_released found grp new released flushed,
    fun why reason going g grp => collAbandon_faults found reason going grp, ?_⟩
  intro kind ef count root cx rank bl peers handed going ready unscaled names once blocks mine sp from_ data read out dp dests ⟨r, acks⟩
  show execCollComplete n c peers s = _
  have good := blocks_complete names blocks
  have blocksOf := map_find_fst once fun r => (r, [], [])
  rw [names] at blocksOf
  subst kind ef count root cx rank bl mine out
  simp only [execCollComplete, found]
  rw [collFld_desc]
  simp only [unscaled, Nat.zero_ne_one, if_false, Nat.mul_zero, Nat.add_zero, good, blocksOf, handed, going, ready,
    Bool.not_true, Bool.or_false, Bool.false_eq_true, from_, read, List.map_nil, List.append_nil, List.flatMap_nil, if_true, dests, acks]
  rfl

/-- Settles O58. -/
theorem messageAndCollectiveEvents : Obligations.MessageAndCollectiveEvents :=
  ⟨messageEvents, collectiveEvents⟩

end Sys2Proof.Claims
